-- ==== Sys2Proof/Syntax.lean ====
section
/-!
DEFINITION. The commands of the block: one constructor of Instr per row of spec/opcode_table.json, with its operands.
-/

namespace Sys2Proof

/-- Who sends a BAR0 access (R8, R391, R469): a PCIe function (0 = PF, 1 to 31 = VF, through its own view),
the debug port, Keeper firmware, or Lantern (the only secure-world writer). -/
inductive Requester where
  | fn (n : Nat)
  | debug
  | keeper
  | lantern
deriving DecidableEq, Repr

/-- The completer AtomicOps of R385. -/
inductive AtomicOp where
  | fetchAdd | swap | cas
deriving DecidableEq, Repr

/-- The memory whose scrubber steps (R219). -/
inductive ScrubUnit where
  | spd
  | ddr (ch : Nat)
deriving DecidableEq, Repr

/-- The faults of R220 that are no data fault. -/
inductive DdrFault where
  | caParity
  | phyLock
deriving DecidableEq, Repr

/-- The alarm sources of R461. -/
inductive TamperSrc where
  | volt | clk | temp | access
deriving DecidableEq, Repr

/-- A peer request as its header gives it (R528): source and destination device, tag, offset in the peer
window, length in bytes, partition, world, CLASS. -/
structure LnkReq where
  src : Nat
  dst : Nat
  tag : Nat
  addr : Nat
  len : Nat
  part : Nat
  w : Bool
  cls : Nat
deriving DecidableEq, Repr

/-- A flit for another device (R525, R526): its packet's destination and target offset, the buffer (VCP) it arrives in, and its
bytes 8 to 79. -/
structure FwdFlit where
  dst : Nat
  addr : Nat
  vcp : Nat
  body : List Byte
deriving DecidableEq, Repr

/-- A peer response or acknowledgement (R528): source device, tag, status. -/
structure LnkRsp where
  src : Nat
  tag : Nat
  status : Nat
deriving DecidableEq, Repr

/-- A Sync of the 802.1AS grandmaster (R509): the port that it reaches and the grandmaster's time in it. -/
structure SyncMsg where
  port : Nat
  ns : Nat
deriving DecidableEq, Repr

/-- A CAN frame (R541, R542). -/
structure CanFrame where
  ident : Nat
  ide : Bool
  fd : Bool
  brs : Bool
  rtr : Bool
  data : List Byte
deriving DecidableEq, Repr

/-- An Ethernet frame as the switch classifies it (R545, R548): addresses, VLAN tag, length and bytes. -/
structure EthFrame where
  dmac : Nat
  smac : Nat
  vid : Nat
  pcp : Nat
  tagged : Bool
  data : List Byte
deriving DecidableEq, Repr

/-- An ACF message (R549): type, identifier, flags and data. -/
structure AcfMsg where
  kind : Nat
  ident : Nat
  ide : Bool
  fd : Bool
  brs : Bool
  stamp : Nat
  data : List Byte
deriving DecidableEq, Repr

/-- An ACF frame (R549 to R551): AVTP version, subtype, stream, sequence number, timestamp valid, timestamp, length, messages. -/
structure AcfFrame where
  ver : Nat
  subtype : Nat
  streamId : Nat
  seq : Nat
  tv : Bool
  ts : Nat
  len : Nat
  msgs : List AcfMsg
deriving DecidableEq, Repr

/-- The straps sampled at the release of cold reset (R620). -/
structure Straps where
  recovery : Bool
  tapSel : Bool
deriving DecidableEq, Repr

/-- The causes of a PCIe reset (R617). -/
inductive PcieReset where
  | perstN | hotReset | linkDown
deriving DecidableEq, Repr

/-- A CSI-2 packet between frame start and frame end (R327, R330): virtual channel, data type, payload, and what
the header code (one error corrected, or uncorrectable) and the checksum showed. -/
structure CsiPacket where
  vc : Nat
  dt : Nat
  payload : List Byte
  eccCorrected : Bool
  eccBad : Bool
  crcBad : Bool
deriving DecidableEq, Repr

/-- What answers a DisplayPort AUX request (R334, R337). -/
inductive AuxReply where
  | ack (data : List Byte)
  | nack
  | defer
  | timeout
deriving DecidableEq, Repr

/-- What the debug port does (R426, R584). -/
inductive DebugAccess where
  | core (pair : Nat)
  | scan
  | lantern
  | bar0Read (off size : Nat)
  | bar0Write (off size : Nat) (v : Word64)
deriving DecidableEq, Repr

/-- A thread slot: core 0 to 31, slot 0 to 7 (R240). -/
structure Thr where
  core : Nat
  slot : Nat
deriving DecidableEq, Repr

/-- The fields of format R (R248). -/
structure RFmt where
  mask : Nat := 0
  mneg : Bool := false
  d : Nat := 0
  a : Nat := 0
  b : Nat := 0
  c : Nat := 0
  ty : Nat := 0
  sA : Bool := false
  sB : Bool := false
  sC : Bool := false
  bU : Bool := false
  cvt : Nat := 0
deriving DecidableEq, Repr

/-- The fields of format I (R248). -/
structure IFmt where
  mask : Nat := 0
  mneg : Bool := false
  d : Nat := 0
  a : Nat := 0
  ty : Nat := 0
  imm : Word32 := 0
deriving DecidableEq, Repr

/-- SALU or SALUI, VALU or VALUI (R252, R253). -/
inductive AluSrc where
  | r (f : RFmt)
  | i (f : IFmt)
deriving DecidableEq, Repr

/-- The fields of format M (R248), with the PACK bit of FUNC (R259). -/
structure MFmt where
  mask : Nat := 0
  mneg : Bool := false
  d : Nat := 0
  sb : Nat := 0
  vx : Nat := 0
  ty : Nat := 0
  space : Nat := 0
  pack : Bool := false
  off : BitVec 24 := 0
deriving DecidableEq, Repr

/-- The fields of format B (R248). -/
structure BFmt where
  sa : Nat := 0
  sb : Nat := 0
  off : Word32 := 0
deriving DecidableEq, Repr

/-- The fields of format S (R248). -/
structure SFmt where
  d : Nat := 0
  a : Nat := 0
  imm : Word32 := 0
deriving DecidableEq, Repr

/-- The fields of format T (R248). -/
structure TFmt where
  mask : Nat := 0
  mneg : Bool := false
  d : Nat := 0
  u : Nat := 0
  tex : Nat := 0
deriving DecidableEq, Repr

/-- The commands, in the order of the table; each names its rule. -/
inductive Instr where
  /-- REGISTER_WRITE (R3). -/
  | registerWrite (rq : Requester) (off size : Nat) (v : Word64)
  /-- BAR0_UNMAPPED_ACCESS (R17). -/
  | bar0UnmappedAccess (rq : Requester) (off size : Nat) (write : Bool) (v : Word64)
  /-- BAR0_REFUSED_ACCESS (R7). -/
  | bar0RefusedAccess (rq : Requester) (off size : Nat) (write : Bool)
  /-- LOW_HALF_READ (R8). -/
  | lowHalfRead (rq : Requester) (off : Nat)
  /-- HIGH_HALF_READ (R8). -/
  | highHalfRead (rq : Requester) (off : Nat)
  /-- PCIE_ATOMIC_OP (R385). -/
  | pcieAtomicOp (rq : Requester) (off size : Nat) (op : AtomicOp) (v cmp : Word64)
  /-- STAGED_REGISTER_WRITE (R33). -/
  | stagedRegisterWrite (rq : Requester) (off size : Nat) (v : Word64)
  /-- ARM (R32). -/
  | arm (rq : Requester) (v : Word32)
  /-- CANCEL (R36). -/
  | cancel (rq : Requester) (v : Word32)
  /-- ISLAND_ACK (R33). -/
  | islandAck (isl : Nat)
  /-- ACK_CUTOFF (R34). -/
  | ackCutoff
  /-- PEER_READY (R528). -/
  | peerReady (dev gen : Nat)
  /-- COMMIT_INSTANT (R35). -/
  | commitInstant
  /-- QUEUE_ENABLE (R41). -/
  | queueEnable (rq : Requester) (q : Nat) (v : Word32)
  /-- QUEUE_DISABLE (R42). -/
  | queueDisable (rq : Requester) (q : Nat) (v : Word32)
  /-- QUEUE_RESUME (R67). -/
  | queueResume (rq : Requester) (q : Nat) (v : Word64)
  /-- SQ_TAIL (R47). -/
  | sqTail (fn q : Nat) (v : Word32)
  /-- CQ_HEAD (R630). -/
  | cqHead (fn q : Nat) (v : Word32)
  /-- CQ_GROUP_ENABLE (R59). -/
  | cqGroupEnable (rq : Requester) (g : Nat) (v : Word32)
  /-- CQ_GROUP_DISABLE (R59). -/
  | cqGroupDisable (rq : Requester) (g : Nat) (v : Word32)
  /-- DESCRIPTOR_FETCH (R44). -/
  | descriptorFetch (q : Nat) (ok : Bool)
  /-- DESCRIPTOR_DISPATCH (R348). -/
  | descriptorDispatch (d : Nat)
  /-- SEM_TIMEOUT (R74). -/
  | semTimeout (d : Nat)
  /-- ENGINE_COMPLETE (R474). -/
  | engineComplete (d isl : Nat)
  /-- COALESCE_TIMEOUT (R62). -/
  | coalesceTimeout (g : Nat)
  /-- NOP (R55). -/
  | nop (d : Nat)
  /-- SEM_WRITE (R55). -/
  | semWrite (d : Nat)
  /-- TIMESTAMP (R55). -/
  | timestamp (d : Nat)
  /-- ARR_GEMM (R118). -/
  | arrGemm (d : Nat)
  /-- ARR_ACC_DRAIN (R120). -/
  | arrAccDrain (d : Nat)
  /-- ARR_ACC_CLEAR (R122). -/
  | arrAccClear (d : Nat)
  /-- WIN_GROUP (R156). -/
  | winGroup (d : Nat)
  /-- WIN_WINO_PREP (R159). -/
  | winWinoPrep (d : Nat)
  /-- ATT_RUN (R165). -/
  | attRun (d : Nat)
  /-- ATT_MERGE (R190). -/
  | attMerge (d : Nat)
  /-- ATT_KV_APPEND (R185). -/
  | attKvAppend (d : Nat)
  /-- ATT_TLB_INVAL (R192). -/
  | attTlbInval (d : Nat)
  /-- DMA_COPY (R226). -/
  | dmaCopy (d : Nat)
  /-- DMA_FILL (R226). -/
  | dmaFill (d : Nat)
  /-- DMA_CLAIM (R210). -/
  | dmaClaim (d : Nat)
  /-- DMA_WLOAD (R222). -/
  | dmaWload (d : Nat)
  /-- SPD_BORROW (R204). -/
  | spdBorrow (d : Nat)
  /-- SPILL_COMPLETE (R205). -/
  | spillComplete (g : Nat)
  /-- SPD_RETURN (R227). -/
  | spdReturn (d : Nat)
  /-- GRANULE_RESTORE (R207). -/
  | granuleRestore (c : Nat)
  /-- RESTORE_COMPLETE (R207). -/
  | restoreComplete (c : Nat)
  /-- PATROL_SCRUB (R219). -/
  | patrolScrub (u : ScrubUnit)
  /-- MEM_RGN_WORD0_WRITE (R209). -/
  | memRgnWord0Write (rq : Requester) (i : Nat) (v : Word64)
  /-- DDR_COMMAND_FAULT (R220). -/
  | ddrCommandFault (ch : Nat) (k : DdrFault)
  /-- ZQ_CALIBRATION (R217). -/
  | zqCalibration
  /-- DRAM_TEMP_POLL (R601). -/
  | dramTempPoll (t : List Nat)
  /-- VEC_LAUNCH (R271). -/
  | vecLaunch (d : Nat)
  /-- WORKGROUP_START (R272). -/
  | workgroupStart (d : Nat)
  /-- VEC_ICACHE_INVAL (R270). -/
  | vecIcacheInval (d : Nat)
  /-- VEC_LOAD_RETURN (R267). -/
  | vecLoadReturn (t : Thr)
  /-- VEC_NOP (R251). -/
  | vecNop (t : Thr) (f : SFmt)
  /-- VEC_END (R251). -/
  | vecEnd (t : Thr) (f : SFmt)
  /-- VEC_BAR (R251). -/
  | vecBar (t : Thr) (f : SFmt)
  /-- VEC_FENCE (R251). -/
  | vecFence (t : Thr) (f : SFmt)
  /-- VEC_SREAD (R251). -/
  | vecSread (t : Thr) (f : SFmt)
  /-- VEC_LANEID (R251). -/
  | vecLaneid (t : Thr) (f : SFmt)
  /-- VEC_TRAP (R251). -/
  | vecTrap (t : Thr) (f : SFmt)
  /-- SALU_ADD (R252). -/
  | saluAdd (t : Thr) (f : AluSrc)
  /-- SALU_SUB (R252). -/
  | saluSub (t : Thr) (f : AluSrc)
  /-- SALU_MUL (R252). -/
  | saluMul (t : Thr) (f : AluSrc)
  /-- SALU_MULH (R252). -/
  | saluMulh (t : Thr) (f : AluSrc)
  /-- SALU_AND (R252). -/
  | saluAnd (t : Thr) (f : AluSrc)
  /-- SALU_OR (R252). -/
  | saluOr (t : Thr) (f : AluSrc)
  /-- SALU_XOR (R252). -/
  | saluXor (t : Thr) (f : AluSrc)
  /-- SALU_MOV (R252). -/
  | saluMov (t : Thr) (f : AluSrc)
  /-- SALU_SHL (R252). -/
  | saluShl (t : Thr) (f : AluSrc)
  /-- SALU_SHR (R252). -/
  | saluShr (t : Thr) (f : AluSrc)
  /-- SALU_SRA (R252). -/
  | saluSra (t : Thr) (f : AluSrc)
  /-- SALU_SLT (R252). -/
  | saluSlt (t : Thr) (f : AluSrc)
  /-- SALU_SLTU (R252). -/
  | saluSltu (t : Thr) (f : AluSrc)
  /-- SALU_MIN (R252). -/
  | saluMin (t : Thr) (f : AluSrc)
  /-- SALU_MAX (R252). -/
  | saluMax (t : Thr) (f : AluSrc)
  /-- VALU_ADD (R253). -/
  | valuAdd (t : Thr) (f : AluSrc)
  /-- VALU_SUB (R253). -/
  | valuSub (t : Thr) (f : AluSrc)
  /-- VALU_MUL (R253). -/
  | valuMul (t : Thr) (f : AluSrc)
  /-- VALU_MIN (R253). -/
  | valuMin (t : Thr) (f : AluSrc)
  /-- VALU_MAX (R253). -/
  | valuMax (t : Thr) (f : AluSrc)
  /-- VALU_ABS (R253). -/
  | valuAbs (t : Thr) (f : AluSrc)
  /-- VALU_NEG (R253). -/
  | valuNeg (t : Thr) (f : AluSrc)
  /-- VALU_ADDS (R253). -/
  | valuAdds (t : Thr) (f : AluSrc)
  /-- VALU_SUBS (R253). -/
  | valuSubs (t : Thr) (f : AluSrc)
  /-- VALU_MULHI (R253). -/
  | valuMulhi (t : Thr) (f : AluSrc)
  /-- VALU_AND (R253). -/
  | valuAnd (t : Thr) (f : AluSrc)
  /-- VALU_OR (R253). -/
  | valuOr (t : Thr) (f : AluSrc)
  /-- VALU_XOR (R253). -/
  | valuXor (t : Thr) (f : AluSrc)
  /-- VALU_SHL (R253). -/
  | valuShl (t : Thr) (f : AluSrc)
  /-- VALU_SHR (R253). -/
  | valuShr (t : Thr) (f : AluSrc)
  /-- VALU_SRA (R253). -/
  | valuSra (t : Thr) (f : AluSrc)
  /-- VALU_MOV (R253). -/
  | valuMov (t : Thr) (f : AluSrc)
  /-- VALU_SEL (R253). -/
  | valuSel (t : Thr) (f : RFmt)
  /-- VALU_RINT (R253). -/
  | valuRint (t : Thr) (f : AluSrc)
  /-- VFMA_FMA (R254). -/
  | vfmaFma (t : Thr) (f : RFmt)
  /-- VFMA_FMS (R254). -/
  | vfmaFms (t : Thr) (f : RFmt)
  /-- VFMA_FNMA (R254). -/
  | vfmaFnma (t : Thr) (f : RFmt)
  /-- VFMA_MAD (R254). -/
  | vfmaMad (t : Thr) (f : RFmt)
  /-- VFMA_DP4 (R254). -/
  | vfmaDp4 (t : Thr) (f : RFmt)
  /-- VCMP_EQ (R255). -/
  | vcmpEq (t : Thr) (f : RFmt)
  /-- VCMP_NE (R255). -/
  | vcmpNe (t : Thr) (f : RFmt)
  /-- VCMP_LT (R255). -/
  | vcmpLt (t : Thr) (f : RFmt)
  /-- VCMP_LE (R255). -/
  | vcmpLe (t : Thr) (f : RFmt)
  /-- VCMP_GT (R255). -/
  | vcmpGt (t : Thr) (f : RFmt)
  /-- VCMP_GE (R255). -/
  | vcmpGe (t : Thr) (f : RFmt)
  /-- VCMP_LTU (R255). -/
  | vcmpLtu (t : Thr) (f : RFmt)
  /-- VCMP_GEU (R255). -/
  | vcmpGeu (t : Thr) (f : RFmt)
  /-- VCMP_ISNAN (R255). -/
  | vcmpIsnan (t : Thr) (f : RFmt)
  /-- VCVT_CONVERT (R256). -/
  | vcvtConvert (t : Thr) (f : RFmt)
  /-- VXL_RADD (R257). -/
  | vxlRadd (t : Thr) (f : RFmt)
  /-- VXL_RMIN (R257). -/
  | vxlRmin (t : Thr) (f : RFmt)
  /-- VXL_RMAX (R257). -/
  | vxlRmax (t : Thr) (f : RFmt)
  /-- VXL_SCAN (R257). -/
  | vxlScan (t : Thr) (f : RFmt)
  /-- VXL_PERM (R257). -/
  | vxlPerm (t : Thr) (f : RFmt)
  /-- VXL_BCAST (R257). -/
  | vxlBcast (t : Thr) (f : RFmt)
  /-- VXL_EXTRACT (R257). -/
  | vxlExtract (t : Thr) (f : RFmt)
  /-- VXL_SHIFTUP (R257). -/
  | vxlShiftup (t : Thr) (f : RFmt)
  /-- VXL_COMPRESS (R257). -/
  | vxlCompress (t : Thr) (f : RFmt)
  /-- VXL_SORT (R257). -/
  | vxlSort (t : Thr) (f : RFmt)
  /-- VTRANS_EXP (R258). -/
  | vtransExp (t : Thr) (f : RFmt)
  /-- VTRANS_EXP2 (R258). -/
  | vtransExp2 (t : Thr) (f : RFmt)
  /-- VTRANS_LOG2 (R258). -/
  | vtransLog2 (t : Thr) (f : RFmt)
  /-- VTRANS_RCP (R258). -/
  | vtransRcp (t : Thr) (f : RFmt)
  /-- VTRANS_RSQRT (R258). -/
  | vtransRsqrt (t : Thr) (f : RFmt)
  /-- VTRANS_SQRT (R258). -/
  | vtransSqrt (t : Thr) (f : RFmt)
  /-- VTRANS_SIN (R258). -/
  | vtransSin (t : Thr) (f : RFmt)
  /-- VTRANS_COS (R258). -/
  | vtransCos (t : Thr) (f : RFmt)
  /-- VTRANS_TANH (R258). -/
  | vtransTanh (t : Thr) (f : RFmt)
  /-- LD_UNIT (R259). -/
  | ldUnit (t : Thr) (f : MFmt)
  /-- LD_STRIDED (R259). -/
  | ldStrided (t : Thr) (f : MFmt)
  /-- LD_GATHER (R259). -/
  | ldGather (t : Thr) (f : MFmt)
  /-- LD_BROADCAST (R259). -/
  | ldBroadcast (t : Thr) (f : MFmt)
  /-- ST_UNIT (R259). -/
  | stUnit (t : Thr) (f : MFmt)
  /-- ST_STRIDED (R259). -/
  | stStrided (t : Thr) (f : MFmt)
  /-- ST_SCATTER (R259). -/
  | stScatter (t : Thr) (f : MFmt)
  /-- ATOM_ADD (R259). -/
  | atomAdd (t : Thr) (f : MFmt)
  /-- ATOM_MIN (R259). -/
  | atomMin (t : Thr) (f : MFmt)
  /-- ATOM_MAX (R259). -/
  | atomMax (t : Thr) (f : MFmt)
  /-- ATOM_AND (R259). -/
  | atomAnd (t : Thr) (f : MFmt)
  /-- ATOM_OR (R259). -/
  | atomOr (t : Thr) (f : MFmt)
  /-- ATOM_XOR (R259). -/
  | atomXor (t : Thr) (f : MFmt)
  /-- ATOM_EXCH (R259). -/
  | atomExch (t : Thr) (f : MFmt)
  /-- ATOM_CAS (R259). -/
  | atomCas (t : Thr) (f : MFmt)
  /-- TEX_SAMPLE (R303). -/
  | texSample (t : Thr) (f : TFmt)
  /-- TEX_SAMPLE_L (R303). -/
  | texSampleL (t : Thr) (f : TFmt)
  /-- TEX_FETCH (R303). -/
  | texFetch (t : Thr) (f : TFmt)
  /-- BR_JMP (R259). -/
  | brJmp (t : Thr) (f : BFmt)
  /-- BR_BEQ (R259). -/
  | brBeq (t : Thr) (f : BFmt)
  /-- BR_BNE (R259). -/
  | brBne (t : Thr) (f : BFmt)
  /-- BR_BLT (R259). -/
  | brBlt (t : Thr) (f : BFmt)
  /-- BR_BGE (R259). -/
  | brBge (t : Thr) (f : BFmt)
  /-- BR_BLTU (R259). -/
  | brBltu (t : Thr) (f : BFmt)
  /-- BR_BGEU (R259). -/
  | brBgeu (t : Thr) (f : BFmt)
  /-- BR_BANY (R259). -/
  | brBany (t : Thr) (f : BFmt)
  /-- BR_BNONE (R259). -/
  | brBnone (t : Thr) (f : BFmt)
  /-- BR_BALL (R259). -/
  | brBall (t : Thr) (f : BFmt)
  /-- BR_JAL (R259). -/
  | brJal (t : Thr) (f : BFmt)
  /-- BR_JR (R259). -/
  | brJr (t : Thr) (f : BFmt)
  /-- MASK_MAND (R259). -/
  | maskMand (t : Thr) (f : RFmt)
  /-- MASK_MOR (R259). -/
  | maskMor (t : Thr) (f : RFmt)
  /-- MASK_MXOR (R259). -/
  | maskMxor (t : Thr) (f : RFmt)
  /-- MASK_MANDN (R259). -/
  | maskMandn (t : Thr) (f : RFmt)
  /-- MASK_MNOT (R259). -/
  | maskMnot (t : Thr) (f : RFmt)
  /-- MASK_MTOS (R259). -/
  | maskMtos (t : Thr) (f : RFmt)
  /-- MASK_STOM (R259). -/
  | maskStom (t : Thr) (f : RFmt)
  /-- MASK_MPOP (R259). -/
  | maskMpop (t : Thr) (f : RFmt)
  /-- MASK_MFIRST (R259). -/
  | maskMfirst (t : Thr) (f : RFmt)
  /-- GFX_PASS (R283). -/
  | gfxPass (d : Nat)
  /-- GFX_TEX_SWIZZLE (R310). -/
  | gfxTexSwizzle (d : Nat)
  /-- DISP_FLIP (R322). -/
  | dispFlip (d : Nat)
  /-- DISP_SAFETY (R336). -/
  | dispSafety (d : Nat)
  /-- DISP_AUX (R334). -/
  | dispAux (d : Nat)
  /-- LATCH_INSTANT (R322). -/
  | latchInstant (n : Nat)
  /-- VBLANK_START (R322). -/
  | vblankStart (n : Nat)
  /-- REGION_CRC_CHECK (R326). -/
  | regionCrcCheck (n r : Nat)
  /-- DISP_LINK_TRAINING (R317). -/
  | dispLinkTraining (n : Nat) (ok : Bool)
  /-- HOT_PLUG (R316). -/
  | hotPlug (n : Nat) (present irq : Bool)
  /-- CSI_FRAME_START (R328). -/
  | csiFrameStart (i vc frameNo : Nat)
  /-- CSI_FRAME_END (R329). -/
  | csiFrameEnd (i vc : Nat)
  /-- CAP_NO_FRAME (R330). -/
  | capNoFrame (d : Nat)
  /-- CAP_FRAME (R328). -/
  | capFrame (d : Nat)
  /-- CAP_AUDIO (R333). -/
  | capAudio (d : Nat)
  /-- TDM_FRAME (R333). -/
  | tdmFrame (p : Nat) (periodNs : Nat) (slots : List Word32)
  /-- CONTEXT_MOOR (R345). -/
  | contextMoor (rq : Requester) (c : Nat) (v : Word64)
  /-- CONTEXT_RELEASE (R346). -/
  | contextRelease (rq : Requester) (c : Nat) (v : Word64)
  /-- RELEASE_DONE (R346). -/
  | releaseDone (c : Nat)
  /-- WINDOW_OPEN (R354). -/
  | windowOpen (e w : Nat)
  /-- DISPLAY_WINDOW_OPEN (R356). -/
  | displayWindowOpen (n : Nat)
  /-- ENGINE_STOP_DONE (R352). -/
  | engineStopDone (e : Nat)
  /-- DEADLINE_CHECK (R361). -/
  | deadlineCheck (j : Nat)
  /-- DEFERRED_RECEIVE_LAND (R358). -/
  | deferredReceiveLand (c : Nat) (ok : Bool)
  /-- REGULATION_WINDOW (R373). -/
  | regulationWindow
  /-- VF_ENABLE (R388). -/
  | vfEnable (num : Nat)
  /-- FN_HB (R395). -/
  | fnHb (fn : Nat) (v : Word32)
  /-- HEARTBEAT_EXPIRY (R395). -/
  | heartbeatExpiry (fn : Nat)
  /-- QUIESCE (R396). -/
  | quiesce (rq : Requester) (fn : Nat)
  /-- VF_RESUME (R397). -/
  | vfResume (rq : Requester) (fn : Nat)
  /-- FLR (R398). -/
  | flr (fn : Nat)
  /-- PF_FLR (R400). -/
  | pfFlr
  /-- FLR_DRAIN_TIMEOUT (R398). -/
  | flrDrainTimeout (fn : Nat)
  /-- FLR_COMPLETE (R398). -/
  | flrComplete (fn : Nat)
  /-- DIRTY_SWAP (R403). -/
  | dirtySwap (rq : Requester) (fn : Nat)
  /-- SWAP_DONE (R403). -/
  | swapDone (fn : Nat)
  /-- FTTI_WINDOW_START (R407). -/
  | fttiWindowStart
  /-- GOLDEN_TEST_END (R416). -/
  | goldenTestEnd (e : Nat) (pass : Bool)
  /-- GOLDEN_SLOT_END (R414). -/
  | goldenSlotEnd (e : Nat)
  /-- SAFETY_WATCHDOG_EXPIRY (R409). -/
  | safetyWatchdogExpiry
  /-- LOCKSTEP_MISMATCH (R423). -/
  | lockstepMismatch (p : Nat)
  /-- SST_FAST_READ (R432). -/
  | sstFastRead
  /-- SST_WRITE (R432). -/
  | sstWrite (off : Nat) (bytes : List Byte)
  /-- SAF_EVT_CLEAR (R430). -/
  | safEvtClear (rq : Requester) (v : Word32)
  /-- SAF_GOLDEN_RUN (R435). -/
  | safGoldenRun (d : Nat)
  /-- SAF_INJECT (R435). -/
  | safInject (d : Nat)
  /-- MAILBOX_GO (R445). -/
  | mailboxGo (rq : Requester) (v : Word32)
  /-- GET_INFO (R447). -/
  | getInfo
  /-- GET_CERT (R447). -/
  | getCert
  /-- DAYMARK (R466). -/
  | daymark
  /-- SEC_PART (R450). -/
  | secPart
  /-- SEC_RGN (R451). -/
  | secRgn
  /-- SEC_QUEUE (R452). -/
  | secQueue
  /-- SEC_MOOR (R450). -/
  | secMoor
  /-- SEC_RELEASE (R447). -/
  | secRelease
  /-- SEC_ISL_CTL (R458). -/
  | secIslCtl
  /-- PROVISION (R449). -/
  | provision
  /-- SET_PRODUCTION (R449). -/
  | setProduction
  /-- VERIFY_SLOT (R482). -/
  | verifySlot (slot : Nat)
  /-- PRELOAD (R490). -/
  | preload (slot : Nat)
  /-- STORE_OPEN (R490). -/
  | storeOpen (slot len : Nat)
  /-- STORE_DATA (R490). -/
  | storeData (data : List Byte)
  /-- STORE_CLOSE (R490). -/
  | storeClose
  /-- SVC_KEY (R488). -/
  | svcKey (hostNonce : List Byte)
  /-- SVC_OPEN (R490). -/
  | svcOpen (frame : List Byte)
  /-- SVC_SEAL (R490). -/
  | svcSeal (frame : List Byte)
  /-- ISL_POWER (R459). -/
  | islPower (isl kind arg : Nat)
  /-- RGN_RELOCATE (R221). -/
  | rgnRelocate (i : Nat) (base : Nat) (disable : Bool)
  /-- TAMPER_ALARM (R462). -/
  | tamperAlarm (src : TamperSrc)
  /-- SECURE_WATCHDOG_EXPIRY (R460). -/
  | secureWatchdogExpiry
  /-- PAIR_TRAP (R475). -/
  | pairTrap (p : Nat)
  /-- PAIR_HEARTBEAT_TIMEOUT (R475). -/
  | pairHeartbeatTimeout (p : Nat)
  /-- PAIR_ONLINE (R477). -/
  | pairOnline (p : Nat) (ok : Bool)
  /-- BLOCK_MOVE (R477). -/
  | blockMove (b p : Nat)
  /-- HELLO (R488). -/
  | hello (f : List Byte)
  /-- SET_BAUD (R485). -/
  | setBaud (f : List Byte)
  /-- SVC_STATUS (R489). -/
  | svcStatus (f : List Byte)
  /-- DELTA_BEGIN (R484). -/
  | deltaBegin (f : List Byte)
  /-- DELTA_DATA (R484). -/
  | deltaData (f : List Byte)
  /-- DELTA_END (R484). -/
  | deltaEnd (f : List Byte)
  /-- ACTIVATE (R492). -/
  | activate (f : List Byte)
  /-- RECOVER_BEGIN (R497). -/
  | recoverBegin (f : List Byte)
  /-- RECOVER_DATA (R497). -/
  | recoverData (f : List Byte)
  /-- RECOVER_END (R497). -/
  | recoverEnd (f : List Byte)
  /-- SVC_BYTE_GAP (R487). -/
  | svcByteGap
  /-- SVC_IDLE_TIMEOUT (R485). -/
  | svcIdleTimeout
  /-- RECOVERY_RESET (R497). -/
  | recoveryReset
  /-- BOOT_ACT_STAGE (R491). -/
  | bootActStage (rq : Requester) (v : Word32)
  /-- PRELOAD_DONE (R491). -/
  | preloadDone (ok : Bool)
  /-- ACT_NOW (R492). -/
  | actNow (rq : Requester) (v : Word32)
  /-- ACTIVATION_READY (R493). -/
  | activationReady
  /-- ACTIVATION_ROLLBACK (R494). -/
  | activationRollback
  /-- BCN_STEP (R511). -/
  | bcnStep (rq : Requester) (v : Word32)
  /-- BCN_FORCED_STEP (R511). -/
  | bcnForcedStep (rq : Requester) (v : Word32)
  /-- BCN_RATE_WRITE (R502). -/
  | bcnRateWrite (rq : Requester) (v : Word64)
  /-- GPTP_SYNC (R509). -/
  | gptpSync (m : SyncMsg) (gmId : Word64)
  /-- PEER_TIME_EXCHANGE (R510). -/
  | peerTimeExchange (peer peerNs : Nat)
  /-- MASTER_LOSS (R506). -/
  | masterLoss
  /-- COMPARATOR_FIRE (R514). -/
  | comparatorFire (n : Nat)
  /-- COMPARATOR_WRITE (R515). -/
  | comparatorWrite (rq : Requester) (n word : Nat) (v : Word64)
  /-- PULSE_END (R518). -/
  | pulseEnd (k : Nat)
  /-- PORT_ENABLE (R524). -/
  | portEnable (rq : Requester) (p : Nat) (v : Word32)
  /-- TRAINING_DONE (R524). -/
  | trainingDone (p neighId neighPort lanes : Nat)
  /-- RD_REQ (R532). -/
  | rdReq (p : Nat) (k : LnkReq)
  /-- WR_REQ (R531). -/
  | wrReq (p : Nat) (k : LnkReq) (data : List Byte) (cmps : List Nat)
  /-- RD_RSP (R528). -/
  | rdRsp (p : Nat) (k : LnkRsp) (data : List Byte) (cmps : List Nat)
  /-- WR_ACK (R531). -/
  | wrAck (p : Nat) (k : LnkRsp)
  /-- SEM_REQ (R536). -/
  | semReq (p src tag sem amount : Nat)
  /-- SEM_ACK (R537). -/
  | semAck (p : Nat) (k : LnkRsp)
  /-- ECHO_REQ (R528): `tSend` is T_SEND. -/
  | echoReq (p src tag tSend : Nat)
  /-- ECHO_RSP (R537). -/
  | echoRsp (p src tag : Nat)
  /-- NAK (R533). -/
  | nak (p ack : Nat)
  /-- LNK_TIME (R510). -/
  | lnkTime (p src stamp : Nat)
  /-- FLIT_RECEIVE_ERROR (R533). -/
  | flitReceiveError (p : Nat) (crcBad : Bool)
  /-- FLIT_FORWARD (R535). -/
  | flitForward (p : Nat) (k : FwdFlit)
  /-- PEER_TIMEOUT (R535). -/
  | peerTimeout (tag : Nat)
  /-- LNK_SEM_SIGNAL (R537). -/
  | lnkSemSignal (d : Nat)
  /-- LNK_ECHO (R537). -/
  | lnkEcho (d : Nat)
  /-- CAN_FRAME_RECEIVED (R542). -/
  | canFrameReceived (n : Nat) (f : CanFrame)
  /-- CAN_FRAME_SENT (R542). -/
  | canFrameSent (n : Nat)
  /-- CAN_BUS_OFF (R543). -/
  | canBusOff (n : Nat)
  /-- BUS_OFF_RECOVERY (R543). -/
  | busOffRecovery (n : Nat)
  /-- ETH_FRAME_RECEIVED (R548). -/
  | ethFrameReceived (p : Nat) (f : EthFrame)
  /-- GATE_CHANGE (R547). -/
  | gateChange (p : Nat)
  /-- STREAM_GATE_CHANGE (R548). -/
  | streamGateChange (g : Nat)
  /-- ACF_TALKER_PERIOD (R550). -/
  | acfTalkerPeriod (st : Nat)
  /-- ACF_FRAME_RECEIVED (R551). -/
  | acfFrameReceived (st : Nat) (f : AcfFrame)
  /-- ACF_PRESENTATION (R551). -/
  | acfPresentation (st : Nat)
  /-- ROUTE_INSTANT (R554). -/
  | routeInstant (r : Nat)
  /-- GW_TX (R558). -/
  | gwTx (d : Nat)
  /-- GW_RX (R558). -/
  | gwRx (d : Nat)
  /-- GW_RX_WAIT_EXPIRY (R558). -/
  | gwRxWaitExpiry (d : Nat)
  /-- CAN_TX_TIMEOUT (R558). -/
  | canTxTimeout (d : Nat)
  /-- GW_SIG_READ (R558). -/
  | gwSigRead (d : Nat)
  /-- WBR_ATOMIC (R567). -/
  | wbrAtomic (d : Nat)
  /-- WBR_WIN_WRITE (R560). -/
  | wbrWinWrite (rq : Requester) (w word : Nat) (v : Word64)
  /-- WBR_SEM_WRITE (R566). -/
  | wbrSemWrite (rq : Requester) (n : Nat) (v : Word32)
  /-- TRAILING_READ_DONE (R562). -/
  | trailingReadDone (cpl : Nat)
  /-- CPL_TIMEOUT (R562). -/
  | cplTimeout (d addr : Nat)
  /-- DBG_SNAPSHOT (R583). -/
  | dbgSnapshot (d : Nat)
  /-- SNAPSHOT_INSTANT (R570). -/
  | snapshotInstant
  /-- DBG_MARK (R583). -/
  | dbgMark (d : Nat)
  /-- DBG_DUMP (R583). -/
  | dbgDump (d : Nat)
  /-- DUMP_NOW (R580). -/
  | dumpNow (rq : Requester) (v : Word32)
  /-- DUMP_WRITTEN (R580). -/
  | dumpWritten
  /-- RING_LATCH (R578). -/
  | ringLatch (rq : Requester) (v : Word32)
  /-- TRACE_ENABLE (R577). -/
  | traceEnable (rq : Requester) (v : Word32)
  /-- HANG_CHECK (R579). -/
  | hangCheck
  /-- POWER_STATE_TICK (R588). -/
  | powerStateTick
  /-- ISLAND_WAKE_DONE (R589). -/
  | islandWakeDone (isl : Nat)
  /-- LTR_IDLE (R591). -/
  | ltrIdle
  /-- POWER_SAMPLE (R595). -/
  | powerSample (mw : Nat)
  /-- LIMITER_UPDATE (R597). -/
  | limiterUpdate (mw : Nat)
  /-- DROOP_START (R594). -/
  | droopStart (isl : Nat)
  /-- DROOP_END (R594). -/
  | droopEnd (isl : Nat)
  /-- THERMAL_SAMPLE (R600). -/
  | thermalSample (isl temp : Nat)
  /-- THERMAL_CAP_STEP (R599). -/
  | thermalCapStep (isl : Nat)
  /-- COOLANT_LOSS (R602). -/
  | coolantLoss
  /-- AGEING_SAMPLE (R603). -/
  | ageingSample (ppm : List Nat)
  /-- AGE_RECORD_LOAD (R605). -/
  | ageRecordLoad (rq : Requester) (v : Word32)
  /-- POWER_ON (R611). -/
  | powerOn (mv : Nat)
  /-- VIN_FAULT (R611). -/
  | vinFault (mv : Nat)
  /-- VIN_LOSS (R611). -/
  | vinLoss
  /-- RESET_N_LOW (R616). -/
  | resetNLow
  /-- COLD_RESET_RELEASE (R621). -/
  | coldResetRelease (straps : Straps)
  /-- PCIE_RESET (R617). -/
  | pcieReset (cause : PcieReset)
  /-- SYSCLK_LOSS (R612). -/
  | sysclkLoss
  /-- FRAME_START (R336). -/
  | frameStart (n : Nat)
  /-- SCAN_OUT_LINE (R321). -/
  | scanOutLine (n : Nat)
  /-- CSI_PACKET (R330). -/
  | csiPacket (i : Nat) (p : CsiPacket)
  /-- IDLE_FLIT (R529). -/
  | idleFlit (p ack : Nat) (credits : List Nat)
  /-- LAUNCH_TIME (R558). -/
  | launchTime (d i : Nat)
  /-- ETH_FRAME_SENT (R558). -/
  | ethFrameSent (d i : Nat)
  /-- AUX_REPLY (R337). -/
  | auxReply (n : Nat) (r : AuxReply)
  /-- WBR_SEM_WAIT_EXPIRY (R567). -/
  | wbrSemWaitExpiry (d : Nat)
  /-- DEBUG_PORT_ACCESS (R426). -/
  | debugPortAccess (a : DebugAccess)
  /-- PERST_N_DEASSERT (R617). -/
  | perstNDeassert
  /-- SYSCLK_RETURN (R612). -/
  | sysclkReturn
deriving DecidableEq, Repr

end Sys2Proof
end

