-- ==== Sys2Proof/Decode.lean ====
section
/-!
DEFINITION. Words as commands. The table gives no row any bits: a command reaches the block over PCI Express, a serial
port, a link or a pin, so no word spells one (log 1).
-/

namespace Sys2Proof

/-- The command that a word of the table spells: none. -/
def decodeTableWord (_nbits _w : Nat) : Option Instr := none

end Sys2Proof
end

