-- ==== Sys2Proof/Config.lean ====
section
/-!
DEFINITION. What one implementation fixes: the values the spec leaves to manufacture, to the board or to the
implementation, and the free values (opaque constants without a body, about which nothing can be proved).
-/

namespace Sys2Proof.Config

/-- A free byte (log 7): the n-th value the spec leaves open. -/
opaque freeByte : Nat → BitVec 8
/-- Mask of byte `i` of a transformed-weight buffer's body, whose layout is the device's own (R146). -/
opaque winoMask (i : Nat) : BitVec 8
/-- A free 32-bit word (log 7). -/
opaque freeWord : Nat → BitVec 32
/-- The maximum that a datapath forms of numbers among which there is a NaN (log 7). -/
opaque freeMax : List Nat → BitVec 32
/-- A free natural number (log 7), bounded by its user. -/
opaque freeNat : Nat → Nat

/-- The 18 check bits of the shortened double-error-correcting BCH code over a codeword's bits [267:0] (R18): the spec names no
generator polynomial. -/
opaque bchCheck : BitVec 268 → BitVec 18

/-- Order keys of group results for an engine assignment (R92): nothing is known of them. -/
opaque order (key : Nat) (g : Nat) : Nat

/-- Proposal of an approximating datapath for function number `fn` at argument bits `x`
(R97, R99, R121, R258). A meaning uses it only where it lies inside the bound the spec states. -/
opaque approx (fn : Nat) (x : Nat) : Nat

/-- GRAN_BASE of a context as a VF's view gives it (R391): function, global value; what it counts from is not stated. -/
opaque localGran : Nat → Nat → Nat

/-- SHA3-512 of FIPS 202 (R464, R465), 64 bytes. The standard is outside the spec. -/
opaque sha3 : List Byte → List Byte
/-- SHAKE256 of FIPS 202 (R464): input, output length in bytes. -/
opaque shake256 : List Byte → Nat → List Byte
/-- AES-256-GCM encryption (R445, R488): key, IV, associated data, plaintext; ciphertext followed by the tag. -/
opaque gcmSeal : List Byte → List Byte → List Byte → List Byte → List Byte
/-- AES-256-GCM decryption: key, IV, associated data, ciphertext and tag; none when the tag is wrong. -/
opaque gcmOpen : List Byte → List Byte → List Byte → List Byte → Option (List Byte)
/-- ML-DSA-87 verification of FIPS 204 (R482): public key, message, signature. -/
opaque mldsaVerify : List Byte → List Byte → List Byte → Bool
/-- Hedged ML-DSA-87 signing of FIPS 204 (R466): private seed, random bytes, message; 4,627 bytes. -/
opaque mldsaSign : List Byte → List Byte → List Byte → List Byte
/-- ML-DSA-87 public key of a seed (R464). -/
opaque mldsaPub : List Byte → List Byte
/-- The random generator of Lantern (R488): the n-th draw of the given length. -/
opaque random : Nat → Nat → List Byte
/-- One scaled plane pixel (R319), 12 bits per component packed R, G, B, A from bit 0: phases of the horizontal and vertical
filters, the 4 rows of 8 pixels under the taps. The filters' coefficients are not in the spec. -/
opaque planeFilter (phaseX phaseY : Nat) (px : List Nat) : Nat
/-- The traffic class of a bridged frame by its priority (R545): the spec names no mapping. -/
opaque ethClass : Nat → Nat
/-- Source address of the frames that the device itself sends (R549). -/
opaque gwMac : Nat
/-- Bus number in an ACF CAN message of a talker (R550). -/
opaque acfBus : Nat
/-- Codewords of the tables a boot image or a fault dump leaves to the implementation. -/
opaque implByte : Nat → Nat → BitVec 8

/-- What the flash holds when the part is first powered (R478 to R481): directory copies, slot headers and encrypted images;
written at manufacture and by the integrator, and nothing is known of it. -/
opaque factoryDir : Nat → Option (Nat × Nat)
opaque factoryHdr : Nat → List Byte
opaque factoryBody : Nat → List Byte
/-- The identity certificate chain in flash (R464). -/
opaque certChain : List Byte
/-- OTP: the unique device secret and the digest of the vendor's key (R482); the measurement of the ROM (R465). -/
opaque uds : List Byte
opaque vendorDigest : List Byte
opaque romDigest : List Byte
/-- OTP tamper policy: ERASE_WRAP (R462). -/
opaque eraseWrap : Bool
/-- The board record (R215, R218, R236): the board's DDR_CFG of a channel, DDR_MAP range for a mask of present channels and timing word of a channel at a RATE code. -/
opaque boardCfg : Nat → BitVec 64
opaque boardMap : Nat → Nat → BitVec 64
opaque boardTim : Nat → Nat → BitVec 64
/-- Does a checker fail its test (R418, R424), or a run of a start-up golden test (R431)? The n-th outcome (log 31). -/
opaque checkerFault : Nat → Bool
/-- Does an erase or a program of the boot flash fail after three attempts (R490)? The n-th outcome (log 34). -/
opaque flashFault : Nat → Bool
/-- The outcome of training a channel (R217): boots so far, channel; 0 trained, else a number that gives the failing step,
1 to 6, by its rest modulo 6, and the failing lanes by its quotient. -/
opaque trainResult : Nat → Nat → Nat
/-- ln of R604 as FP32, and EOL_HOURS of a fit: island, operating hours, n, Σx, Σy, Σxx, Σxy; none where the fit gives no
result below 10^6 hours. -/
opaque lnF32 : Nat → BitVec 32
opaque eolHours : Nat → Nat → Nat → Nat → Nat → Nat → Nat → Option Nat
/-- The fused ageing model D1000 × (hours / 1,000)^0.2 in ppm (R603): island, hours. -/
opaque ageModel : Nat → Nat → Nat

/-- Maximum clocks fused at manufacture, MHz (R125, R277); DESIGN CHOICE, log 3. -/
def arrFmaxFused : Nat := 750
def vclFmaxFused : Nat := 1200
/-- Silicon stepping (R470); DESIGN CHOICE, log 3. -/
def stepping : Nat := 0
/-- Lifecycle state in OTP (R443): PROVISION; DESIGN CHOICE, log 3. -/
def lifecycle : Nat := 1
/-- Guard band fused (R603), MHz; DESIGN CHOICE, log 3. -/
def guardMhz : Nat := 0

end Sys2Proof.Config
end

