-- ==== Sys2Proof/Machine/Num.lean ====
section
/-!
DEFINITION. Number formats (R75 to R98): exact values, decoding, rounding, conversion, Microscaling blocks, group sums
and accumulation.
-/

namespace Sys2Proof.Machine

/-! ### Exact values -/

/-- A number as the datapaths treat it: NaN, an infinity, or (−1)^neg × m × 2^e. A zero keeps its sign (R77). -/
inductive Val where
  | nan
  | inf (neg : Bool)
  | fin (neg : Bool) (m : Nat) (e : Int)
deriving DecidableEq, Repr

/-- 2^k for a non-negative k, 1 otherwise. -/
def pow2 (k : Int) : Nat := 2 ^ k.toNat

def vzero : Val := .fin false 0 0

def Val.ofInt (i : Int) : Val := .fin (decide (i < 0)) i.natAbs 0

def Val.isNan : Val → Bool
  | .nan => true
  | _ => false

def Val.finite : Val → Bool
  | .fin _ _ _ => true
  | _ => false

def Val.negate : Val → Val
  | .nan => .nan
  | .inf n => .inf (!n)
  | .fin n m e => .fin (!n) m e

def Val.abs : Val → Val
  | .nan => .nan
  | .inf _ => .inf false
  | .fin _ m e => .fin false m e

/-- Multiplication by 2^k, exact. -/
def Val.scale (k : Int) : Val → Val
  | .fin n m e => .fin n m (e + k)
  | v => v

/-- Signed significand at exponent `e0`, for `e0` not above the value's own exponent. -/
def sigAt (e0 : Int) (neg : Bool) (m : Nat) (e : Int) : Int :=
  let a : Int := (m * pow2 (e - e0) : Nat)
  if neg then -a else a

/-- Exact product; zero times infinity is NaN (R93). -/
def vmul : Val → Val → Val
  | .nan, _ => .nan
  | _, .nan => .nan
  | .inf a, .inf b => .inf (a != b)
  | .inf a, .fin b m _ => if m = 0 then .nan else .inf (a != b)
  | .fin a m _, .inf b => if m = 0 then .nan else .inf (a != b)
  | .fin a m e, .fin b n f => .fin (a != b) (m * n) (e + f)

/-- Exact sum; opposite infinities give NaN; a cancelled sum is +0, the sum of two negative zeros −0. -/
def vadd : Val → Val → Val
  | .nan, _ => .nan
  | _, .nan => .nan
  | .inf a, .inf b => if a = b then .inf a else .nan
  | .inf a, .fin _ _ _ => .inf a
  | .fin _ _ _, .inf b => .inf b
  | .fin a m e, .fin b n f =>
    let e0 := min e f
    let t := sigAt e0 a m e + sigAt e0 b n f
    if t = 0 then .fin (a && b && m == 0 && n == 0) 0 e0 else .fin (decide (t < 0)) t.natAbs e0

def vsub (a b : Val) : Val := vadd a b.negate

/-- Exact order of two values that are no NaN. -/
def vlt : Val → Val → Bool
  | .nan, _ => false
  | _, .nan => false
  | .inf a, .inf b => a && !b
  | .inf a, .fin _ _ _ => a
  | .fin _ _ _, .inf b => !b
  | .fin a m e, .fin b n f => decide (sigAt (min e f) a m e < sigAt (min e f) b n f)

def veq : Val → Val → Bool
  | .nan, _ => false
  | _, .nan => false
  | a, b => !vlt a b && !vlt b a

/-- floor(log2) of a non-zero magnitude. -/
def vexp (m : Nat) (e : Int) : Int := (Nat.log2 m : Int) + e

/-! ### Rounding (R86) -/

/-- m × 2^(−sh) as an integer: 0 RNE, 1 RTZ, 2 RNA. -/
def roundShift (rnd m : Nat) (sh : Int) : Nat :=
  if sh ≤ 0 then m * pow2 (-sh)
  else
    let d := pow2 sh
    let q := m / d
    let r := m % d
    if rnd = 1 then q
    else if rnd = 2 then (if d ≤ 2 * r then q + 1 else q)
    else if d < 2 * r ∨ (2 * r = d ∧ q % 2 = 1) then q + 1 else q

/-- A finite value rounded to an integer. -/
def roundInt (rnd : Nat) : Val → Int
  | .fin neg m e => let q : Int := roundShift rnd m (-e); if neg then -q else q
  | _ => 0

/-! ### Formats (R75, R76) -/

/-- A floating-point format: exponent bits, mantissa bits, bias, and 0 = IEEE infinity and NaN, 1 = E4M3 (one NaN, no
infinity), 2 = neither. -/
structure FFmt where
  eb : Nat
  mb : Nat
  bias : Nat
  kind : Nat
deriving DecidableEq, Repr

def fE4M3 : FFmt := ⟨4, 3, 7, 1⟩
def fE5M2 : FFmt := ⟨5, 2, 15, 0⟩
def fF16 : FFmt := ⟨5, 10, 15, 0⟩
def fBF16 : FFmt := ⟨8, 7, 127, 0⟩
def fF32 : FFmt := ⟨8, 23, 127, 0⟩
def fE2M1 : FFmt := ⟨2, 1, 1, 2⟩
def fE3M2 : FFmt := ⟨3, 2, 3, 2⟩
def fE2M3 : FFmt := ⟨2, 3, 1, 2⟩

/-- Value of a bit pattern. -/
def FFmt.dec (f : FFmt) (b : Nat) : Val :=
  let s := bitOf b (f.eb + f.mb)
  let e := bitsOf b f.mb f.eb
  let m := bitsOf b 0 f.mb
  let top := 2 ^ f.eb - 1
  if f.kind = 0 ∧ e = top then (if m = 0 then .inf s else .nan)
  else if f.kind = 1 ∧ e = top ∧ m = 2 ^ f.mb - 1 then .nan
  else if e = 0 then .fin s m (1 - (f.bias : Int) - f.mb)
  else .fin s (2 ^ f.mb + m) ((e : Int) - f.bias - f.mb)

/-- Code of the largest finite magnitude. -/
def FFmt.maxCode (f : FFmt) : Nat :=
  match f.kind with
  | 0 => (2 ^ f.eb - 1) * 2 ^ f.mb - 1
  | 1 => 2 ^ (f.eb + f.mb) - 2
  | _ => 2 ^ (f.eb + f.mb) - 1

/-- The canonical NaN (R77). -/
def FFmt.nanCode (f : FFmt) : Nat :=
  match f.kind with
  | 0 => (2 ^ f.eb - 1) * 2 ^ f.mb + 2 ^ (f.mb - 1)
  | 1 => 2 ^ (f.eb + f.mb) - 1
  | _ => 0

/-- Code of an overflow (R632): infinity, or the NaN of a format without infinity. -/
def FFmt.ovfCode (f : FFmt) (sign : Nat) : Nat :=
  match f.kind with
  | 0 => sign + (2 ^ f.eb - 1) * 2 ^ f.mb
  | 1 => f.nanCode
  | _ => sign + f.maxCode

/-- Bit pattern of a value rounded once (R86, R87, R632). -/
def FFmt.enc (f : FFmt) (rnd : Nat) (sat : Bool) : Val → Nat
  | .nan => f.nanCode
  | .inf n =>
    let sg := if n then 2 ^ (f.eb + f.mb) else 0
    if sat then sg + f.maxCode else f.ovfCode sg
  | .fin n m e =>
    let sg := if n then 2 ^ (f.eb + f.mb) else 0
    if m = 0 then sg
    else
      let qmin : Int := 1 - (f.bias : Int) - f.mb
      let q := max (vexp m e - f.mb) qmin
      let code := (q - qmin).toNat * 2 ^ f.mb + roundShift rnd m (q - e)
      if f.maxCode < code then (if sat || rnd == 1 then sg + f.maxCode else f.ovfCode sg)
      else sg + code

/-- Bits of an element of a format code (R75). -/
def fmtBits : Nat → Nat
  | 0x0 => 4 | 0x1 => 8 | 0x2 => 8 | 0x3 => 16 | 0x4 => 32 | 0x5 => 8 | 0x6 => 8 | 0x7 => 16 | 0x8 => 16 | 0x9 => 32
  | 0xA => 4 | 0xB => 6 | 0xC => 6 | 0xD => 8 | 0xE => 8 | _ => 8

/-- A Microscaling format code. -/
def isMx (fmt : Nat) : Bool := decide (0xA ≤ fmt) && decide (fmt ≤ 0xE)

/-- An integer format code. -/
def isInt (fmt : Nat) : Bool := decide (fmt ≤ 4)

/-- The floating-point layout of a format code, or that of its elements. -/
def fmtF : Nat → FFmt
  | 0x5 => fE4M3 | 0x6 => fE5M2 | 0x7 => fF16 | 0x8 => fBF16 | 0xA => fE2M1 | 0xB => fE3M2 | 0xC => fE2M3
  | 0xD => fE4M3 | _ => fF32

/-- Value of an element code, without a block scale (R76). -/
def decElt (fmt b : Nat) : Val :=
  match fmt with
  | 0x0 => .ofInt (sgn 4 b)
  | 0x1 => .ofInt (sgn 8 b)
  | 0x2 => .ofInt (b % 256 : Nat)
  | 0x3 => .ofInt (sgn 16 b)
  | 0x4 => .ofInt (sgn 32 b)
  | 0xE => (Val.ofInt (sgn 8 b)).scale (-6)
  | f => (fmtF f).dec b

/-- Range of an integer format. -/
def intRange : Nat → Int × Int
  | 0x0 => (-8, 7)
  | 0x1 => (-128, 127)
  | 0x2 => (0, 255)
  | 0x3 => (-32768, 32767)
  | _ => (-2147483648, 2147483647)

def clampI (lo hi x : Int) : Int := max lo (min hi x)

/-- Conversion to an integer format (R87): rounding, saturation whatever SAT says, NaN gives 0. -/
def toIntFmt (fmt rnd : Nat) (v : Val) : Int :=
  let (lo, hi) := intRange fmt
  match v with
  | .nan => 0
  | .inf n => if n then lo else hi
  | x => clampI lo hi (roundInt rnd x)

/-- Code of a value in a format that is no Microscaling format (R87). -/
def encFmt (fmt rnd : Nat) (sat : Bool) (v : Val) : Nat :=
  if isInt fmt then unsgn (fmtBits fmt) (toIntFmt fmt rnd v) else (fmtF fmt).enc rnd sat v

/-! ### The conversion control byte (R86) -/

def cvtFmt (cvt : Nat) : Nat := cvt % 16
def cvtRnd (cvt : Nat) : Nat := cvt / 16 % 4
def cvtSat (cvt : Nat) : Bool := bitOf cvt 6

/-- Encodings R86 admits. -/
def cvtOk (cvt : Nat) : Bool := cvtFmt cvt != 15 && cvtRnd cvt != 3 && !bitOf cvt 7

/-! ### Packing (R78) -/

/-- Code of element `i` of width `w` in packed bytes. -/
def eltCode (w : Nat) (bs : List Byte) (i : Nat) : Nat :=
  bitsOf (leNat ((bs.drop (w * i / 8)).take 5)) (w * i % 8) w

/-- Packed bytes of element codes of width `w`; bits of the last byte beyond the last element are zero (log 56). -/
def packCodes (w : Nat) (cs : List Nat) : List Byte :=
  leBytes ((w * cs.length + 7) / 8) (cs.foldr (fun c acc => c % 2 ^ w + 2 ^ w * acc) 0)

/-! ### Microscaling blocks (R79 to R85) -/

/-- Bytes of a block of 32 elements. -/
def mxBlockBytes (fmt : Nat) : Nat := 4 * fmtBits fmt

/-- Value of an element with its block scale byte (R82). -/
def mxVal (fmt scale code : Nat) : Val :=
  if scale = 255 then .nan else (decElt fmt code).scale ((scale : Int) - 127)

def mxEmax : Nat → Int
  | 0xA => 2 | 0xB => 4 | 0xC => 2 | 0xD => 8 | _ => 0

/-- Code of an element of a Microscaling format, saturated to the largest finite magnitude (R83, R84). -/
def mxEnc (fmt rnd : Nat) (v : Val) : Nat :=
  if fmt = 0xE then unsgn 8 (clampI (-127) 127 (roundInt rnd (v.scale 6))) else (fmtF fmt).enc rnd true v

/-- Larger magnitude. -/
def vmaxAbs (a b : Val) : Val := if vlt a.abs b.abs then b.abs else a.abs

/-- Conversion of a block (R84, R85): scale byte and element codes. Under RTZ the steps of R84 can leave the bound of R98; the
steps are followed (log 56). -/
def mxQuant (fmt rnd : Nat) (xs : List Val) : Nat × List Nat :=
  if xs.any (fun x => !x.finite) then (255, xs.map (fun _ => 0))
  else
    match xs.foldl vmaxAbs vzero with
    | .fin _ m e =>
      let s : Nat := if m = 0 then 127 else (max (-127) (vexp m e - mxEmax fmt) + 127).toNat
      (s, xs.map (fun x => mxEnc fmt rnd (x.scale (127 - (s : Int)))))
    | _ => (255, xs.map (fun _ => 0))

/-- A block that R85 writes as NaN. -/
def mxBad (xs : List Val) : Bool := xs.any (fun x => !x.finite)

/-! ### FP32 arithmetic -/

/-- A value rounded to FP32 bits, RNE. -/
def f32 (v : Val) : Nat := fF32.enc 0 false v

/-- Value of FP32 bits. -/
def ofF32 (b : Nat) : Val := fF32.dec b

def f32Add (a b : Nat) : Nat := f32 (vadd (ofF32 a) (ofF32 b))
def f32Mul (a b : Nat) : Nat := f32 (vmul (ofF32 a) (ofF32 b))
def f32Sub (a b : Nat) : Nat := f32 (vsub (ofF32 a) (ofF32 b))

/-- Quotient of two finite values with a sticky bit, so that one rounding is exact. -/
def vquot : Val → Val → Val
  | .fin a m e, .fin b n f =>
    if n = 0 then (if m = 0 then .nan else .inf (a != b))
    else .fin (a != b) (m * 2 ^ 400 / n * 2 + b2n (m * 2 ^ 400 % n != 0)) (e - f - 401)
  | .nan, _ => .nan
  | _, .nan => .nan
  | .inf _, .inf _ => .nan
  | .inf a, .fin b _ _ => .inf (a != b)
  | .fin a _ _, .inf b => .fin (a != b) 0 0

def f32Div (a b : Nat) : Nat := f32 (vquot (ofF32 a) (ofF32 b))

/-- Magnitudes below 2^−126 become zero of the same sign (R92). -/
def flushF32 (b : Nat) : Nat := if bitsOf b 23 8 = 0 then b / 2 ^ 31 * 2 ^ 31 else b

/-- An FP32 accumulator or group result. -/
def accF32 (v : Val) : Nat := flushF32 (f32 v)

/-- Saturating INT32 (R91) with the saturation told. -/
def sat32 (i : Int) : Int × Bool :=
  let j := clampI (-2147483648) 2147483647 i
  (j, j != i)

/-! ### Pairings (R90) -/

def isFp8 (f : Nat) : Bool := f == 5 || f == 6
def isHalf (f : Nat) : Bool := f == 7 || f == 8
def isInt48 (f : Nat) : Bool := decide (f ≤ 2)

/-- A pairing the table permits, in the given order. -/
def pairRow (a b : Nat) : Bool :=
  (isInt48 a && isInt48 b) || (a == 0 && isFp8 b) || (isInt48 a && isHalf b) || (isFp8 a && isFp8 b) ||
  (isFp8 a && isHalf b) || (isHalf a && isHalf b) ||
  (a == 9 && (b == 9 || isHalf b || isFp8 b || isInt48 b)) || (isMx a && isMx b) || (isMx a && (isFp8 b || isHalf b))

def pairOk (a b : Nat) : Bool := pairRow a b || pairRow b a

/-- The pairing accumulates in INT32. -/
def pairInt (a b : Nat) : Bool := isInt48 a && isInt48 b

/-- The pairing aligns and truncates (R92): BF16 and FP32 pairings. -/
def pairAligned (a b : Nat) : Bool := a == 8 || b == 8 || a == 9 || b == 9

/-! ### Group sums (R92, R93) -/

def vsum (xs : List Val) : Val :=
  match xs with
  | [] => vzero
  | x :: r => r.foldl vadd x

/-- Truncation of a finite value toward zero at a multiple of 2^q. -/
def vtrunc (q : Int) : Val → Val
  | .fin n m e => if e < q then .fin n (roundShift 1 m (q - e)) q else .fin n m e
  | v => v

/-- Largest exponent of the non-zero products. -/
def maxExp (xs : List Val) : Option Int :=
  xs.foldl (fun a x => match x with
    | .fin _ m e => if m = 0 then a else match a with
      | none => some (vexp m e)
      | some k => some (max k (vexp m e))
    | _ => a) none

/-- One group result as FP32 bits: `k` is the block scales' exponent. -/
def groupSum (aligned fp32 : Bool) (k : Int) (prods : List Val) : Nat :=
  let ps := if fp32 then prods.map (fun p => ofF32 (f32 p)) else prods
  if aligned then
    match maxExp ps with
    | none => accF32 (vsum ps)
    | some x => accF32 (vsum (ps.map (vtrunc (x - 32))))
  else accF32 ((vsum ps).scale k)

/-- Addition of a group result into an FP32 accumulator, RNE, flushed (R92). -/
def accAdd (acc g : Nat) : Nat := accF32 (vadd (ofF32 acc) (ofF32 g))

/-- The order in which group results are added depends on the engine assignment (R92): an order the model leaves
free, by opaque keys (log 7). -/
def insOrd (k : Nat) (x : Nat × Nat) : List (Nat × Nat) → List (Nat × Nat)
  | [] => [x]
  | y :: ys => if Config.order k x.1 ≤ Config.order k y.1 then x :: y :: ys else y :: insOrd k x ys

/-- FP32 accumulation of group results in that order, starting from `acc`. -/
def accGroups (key acc : Nat) (gs : List Nat) : Nat :=
  let idx := (List.range gs.length).zip gs
  (idx.foldr (fun x l => insOrd key x l) []).foldl (fun a g => accAdd a g.2) acc

/-! ### Output stage (R88, R89) -/

/-- Requantisation of an INT32 accumulator to an integer target (R89). -/
def requant (fmt rnd : Nat) (acc mult : Int) (shift : Nat) (zp : Int) : Int :=
  let t := roundInt rnd ((Val.ofInt (acc * mult)).scale (-(shift : Int)))
  let (lo, hi) := intRange fmt
  clampI lo hi (t + zp)

/-! ### CRC-32C (R325) -/

/-- CRC-32C over a byte, reflected. -/
def crc32cByte (c b : Nat) : Nat :=
  (List.range 8).foldl (fun c _ => if c % 2 = 1 then Nat.xor (c / 2) 0x82F63B78 else c / 2) (Nat.xor c b)

/-- CRC-32C of a byte string: initial value and final inversion of all ones. -/
def crc32c (bs : List Byte) : Nat := Nat.xor (bs.foldl (fun c b => crc32cByte c b.toNat) 0xFFFFFFFF) 0xFFFFFFFF

end Sys2Proof.Machine
end

