-- ==== Sys2Proof/Machine/Approx.lean ====
section
/-!
DEFINITION. The functions that the spec bounds in error and does not fix in value (R97, R99, R121, R258): the exact
function is computed in fixed point far beyond the bound, and the value delivered is the free proposal of the datapath
where that lies within the bound, else the exact function rounded (log 10).
-/

namespace Sys2Proof.Machine

/-- Fraction bits of the fixed-point numbers. -/
def fxBits : Nat := 96

def fxOne : Int := (2 ^ fxBits : Nat)

/-- A finite value in fixed point. -/
def fxOf : Val → Int
  | .fin n m e =>
    let a : Int := roundShift 1 m (-(e + (fxBits : Int)))
    if n then -a else a
  | _ => 0

/-- A fixed-point number as a value. -/
def fxVal (x : Int) : Val := .fin (decide (x < 0)) x.natAbs (-(fxBits : Int))

def fxMul (a b : Int) : Int := a * b / fxOne
def fxDiv (a b : Int) : Int := if b = 0 then 0 else a * fxOne / b

/-- Sum of `n` terms of a series whose i-th term follows from the one before. -/
def fxSeries (step : Nat → Int → Int) : Nat → Nat → Int → Int
  | 0, _, _ => 0
  | n + 1, i, t => t + fxSeries step n (i + 1) (step (i + 1) t)

/-- 2·atanh(1/q) = ln((q+1)/(q−1)). -/
def fxLnRatio (q : Nat) : Int :=
  ((List.range 64).map (fun i => 2 * fxOne / (((2 * i + 1) * q ^ (2 * i + 1) : Nat) : Int))).foldl (· + ·) 0

def fxLn2 : Int := fxLnRatio 3

/-- exp of a fixed-point number, as a value. -/
def fxExp (x : Int) : Val :=
  let k := x / fxLn2
  let r := x - k * fxLn2
  let t := fxSeries (fun i t => fxMul t r / (i : Int)) 40 0 fxOne
  .fin false t.toNat (k - fxBits)

/-- exp(x) in fixed point for an argument that is not large. -/
def fxExpFx (x : Int) : Int := fxOf (fxExp x)

def fxTanh (x : Int) : Int :=
  let e := fxExpFx (-2 * (x.natAbs : Int))
  let t := fxDiv (fxOne - e) (fxOne + e)
  if x < 0 then -t else t

def fxSigmoid (x : Int) : Int :=
  let e := fxExpFx (-(x.natAbs : Int))
  let p := fxDiv fxOne (fxOne + e)
  if x < 0 then fxOne - p else p

/-- Square root in fixed point. -/
def fxSqrt (x : Int) : Int := (isqrt (x.toNat * 2 ^ fxBits) : Nat)

/-- arctan(1/q). -/
def fxAtanInv (q : Nat) : Int :=
  ((List.range 80).map (fun i =>
    let t : Int := fxOne / (((2 * i + 1) * q ^ (2 * i + 1) : Nat) : Int)
    if i % 2 = 0 then t else -t)).foldl (· + ·) 0

/-- π by Machin's formula. -/
def fxPi : Int := 4 * (4 * fxAtanInv 5 - fxAtanInv 239)

/-- Bits of log2 of a number in [1, 2): `n` bits, by repeated squaring. -/
def fxLog2Bits : Nat → Int → Int → Int
  | 0, _, _ => 0
  | n + 1, w, x =>
    let y := fxMul x x
    if 2 * fxOne ≤ y then w + fxLog2Bits n (w / 2) (y / 2) else fxLog2Bits n (w / 2) y

/-- log2 of m × 2^e in fixed point. -/
def fxLog2 (m : Nat) (e : Int) : Int :=
  vexp m e * fxOne + fxLog2Bits 80 (fxOne / 2) (fxOf (.fin false m (-(Nat.log2 m : Int))))

/-- sin of a fixed-point angle, by its series. -/
def fxSin (x : Int) : Int :=
  fxSeries (fun i t => -(fxMul (fxMul t x) x) / (((2 * i) * (2 * i + 1) : Nat) : Int)) 40 0 x

/-- cos of a fixed-point angle. -/
def fxCos (x : Int) : Int :=
  fxSeries (fun i t => -(fxMul (fxMul t x) x) / (((2 * i - 1) * (2 * i) : Nat) : Int)) 40 0 fxOne

/-- Magnitude of a difference is at most a tolerance. -/
def within (a b tol : Val) : Bool := !vlt tol (vsub a b).abs

/-- The value of datapath function `fn` on argument bits `x`: exact value `y`, tolerance `tol` (log 10). -/
def approxPick (fn x : Nat) (y tol : Val) : Nat :=
  let p := Config.approx fn x % 2 ^ 32
  if (ofF32 p).finite && within (ofF32 p) y tol then p else f32 y

/-- Relative tolerance 2^(−k). -/
def relTol (k : Nat) (y : Val) : Val := y.abs.scale (-(k : Int))

/-- Tolerance 2^(−20) × max(1, abs(result)) of R121. -/
def actTol (y : Val) : Val :=
  let one := Val.fin false 1 0
  (if vlt one y.abs then y.abs else one).scale (-20)

/-! ### The named functions -/

/-- The sign of a zero result follows that of a zero operand where IEEE 754 defines it so (R77): sine, hyperbolic tangent and
square root. -/
def keepZero (b r : Nat) : Nat := if b % 2 ^ 31 = 0 then b else r

/-- exp (R99): relative error at most 2^−22; subnormal results may become zero as R92 flushes them. The exponential of zero is
one, so that a merge without a change of maximum adds no error (log 10). -/
def expF32 (fn b : Nat) : Nat :=
  if b % 2 ^ 31 = 0 then f32 (.fin false 1 0) else
  match ofF32 b with
  | .nan => fF32.nanCode
  | .inf n => if n then 0 else f32 (.inf false)
  | v =>
    if vlt (.fin false 128 0) v then f32 (.inf false)
    else if vlt v (.fin true 160 0) then 0
    else let y := fxExp (fxOf v); approxPick fn b y (relTol 22 y)

/-- Reciprocal (R99): relative error at most 2^−23. -/
def rcpF32 (fn b : Nat) : Nat :=
  match ofF32 b with
  | .nan => fF32.nanCode
  | .inf n => f32 (.fin n 0 0)
  | .fin n m e =>
    if m = 0 then f32 (.inf n)
    else
      let y := Val.fin n (2 ^ 200 / m) (-200 - e)
      approxPick fn b y (relTol 23 y)

/-- Activation codes of R121 on FP32 bits. ReLU and ReLU6 of a NaN give the canonical NaN, of −0 they give +0 (log 56). -/
def actF32 (act b : Nat) : Nat :=
  let v := ofF32 b
  if act = 5 ∧ b % 2 ^ 31 = 0 then b else
  match act with
  | 0 => b
  | 1 => if v.isNan then fF32.nanCode else if vlt vzero v then b else 0
  | 2 => if v.isNan then fF32.nanCode else if vlt (.fin false 6 0) v then f32 (.fin false 6 0) else if vlt vzero v then b else 0
  | a =>
    match v with
    | .nan => fF32.nanCode
    | .inf n =>
      if a = 3 ∨ a = 4 then (if n then 0 else f32 (.inf false))
      else if a = 5 then f32 (.fin n 1 0)
      else if n then 0 else f32 (.fin false 1 0)
    | x =>
      let big := vlt (.fin false 128 0) x.abs
      let neg := vlt x vzero
      let fx := fxOf x
      if big then
        if a = 3 ∨ a = 4 then (if neg then approxPick (16 + a) b vzero (actTol vzero) else approxPick (16 + a) b x (actTol x))
        else
          let y := if a = 5 then Val.fin neg 1 0 else if neg then vzero else .fin false 1 0
          approxPick (16 + a) b y (actTol y)
      else
        let y :=
          if a = 3 then
            let c := fxSqrt (fxDiv (2 * fxOne) fxPi)
            let u := fxMul c (fx + fxMul (44715 * fxOne / 1000000) (fxMul fx (fxMul fx fx)))
            fxVal (fxMul fx (fxOne + fxTanh u) / 2)
          else if a = 4 then fxVal (fxMul fx (fxSigmoid fx))
          else if a = 5 then fxVal (fxTanh fx)
          else fxVal (fxSigmoid fx)
        approxPick (16 + a) b y (actTol y)

end Sys2Proof.Machine
end

