-- ==== Sys2Proof/Machine/RegTypes.lean ====
section
/-!
DEFINITION. The shape of a register table: access types (R3), reserved encodings (R6), fields and registers.
-/

namespace Sys2Proof.Machine

/-- The access types of R3. -/
inductive Access where
  | rw | ro | w1c | wo | rwl | srw
deriving DecidableEq, Repr

/-- Which values of a field are encodings that are not reserved (R6). -/
inductive Accept where
  | any
  | range (lo hi : Nat)
  | zeroOr (lo hi : Nat)
  | multiple (lo hi step : Nat)
  | not (v : Nat)
deriving DecidableEq, Repr

/-- A field `[lo+w-1:lo]` with its access type and reset value (R4). -/
structure FieldSpec where
  lo : Nat
  w : Nat
  acc : Access
  rst : Nat
  ok : Accept
deriving DecidableEq, Repr

/-- The island whose commit makes a staged register active (R33): none, a fixed island, or a base
island plus the first index of the register. -/
inductive Staging where
  | none
  | island (n : Nat)
  | perUnit (base : Nat)
deriving DecidableEq, Repr

/-- A register, or a set of them in up to two dimensions: BAR0 offset of the first, counts and strides,
width in bits, staging, whether it is a counter (R570), and fields. Bits that no field covers are reserved (R5). -/
structure RegSpec where
  name : String
  off : Nat
  n1 : Nat
  s1 : Nat
  n2 : Nat
  s2 : Nat
  bits : Nat
  staging : Staging
  cnt : Bool
  flds : List FieldSpec
deriving DecidableEq, Repr

/-- A named field of a named register: storage offset, low bit, width. -/
structure Fref where
  off : Nat
  lo : Nat
  w : Nat
deriving DecidableEq, Repr

end Sys2Proof.Machine
end

