-- ==== Sys2Proof/Machine/RegNames.lean ====
section
/-!
DEFINITION. The BAR0 registers: the offset of each (R16 and the register tables of every chapter), its named
fields, and the tables that give width, access and reset. Offsets at or above 0x2000000 store the function pages
of VFs 1 to 31, which BAR0 reaches through a view (R391, R392).
-/

namespace Sys2Proof.Machine

def TOP_ERR_UNMAPPED : Nat := 0x100
def TOP_ERR_ACCESS : Nat := 0x104
def TOP_MODE_CTRL : Nat := 0x200
def TOP_MODE_UNITS : Nat := 0x208
def TOP_MODE_TIME : Nat := 0x210
def TOP_MODE_PEERS : Nat := 0x220
def TOP_MODE_STATUS : Nat := 0x218
def TOP_ISL_MODE (i : Nat) : Nat := 0x400 + 8 * i
def TOP_IRQ : Nat := 0x228
def CMD_Q_BASE (i : Nat) : Nat := 0x180000 + 32 * i
def CMD_Q_CFG (i : Nat) : Nat := 0x180008 + 32 * i
def CMD_Q_LIMIT (i : Nat) : Nat := 0x18000C + 32 * i
def CMD_Q_PTR (i : Nat) : Nat := 0x180010 + 32 * i
def CMD_Q_ERR (i : Nat) : Nat := 0x180018 + 32 * i
def CMD_CQ_BASE (i : Nat) : Nat := 0x140000 + 32 * i
def CMD_CQ_CFG (i : Nat) : Nat := 0x140008 + 32 * i
def CMD_CQ_COAL (i : Nat) : Nat := 0x14000C + 32 * i
def CMD_CQ_PTR (i : Nat) : Nat := 0x140010 + 32 * i
def CMD_SEM (i : Nat) : Nat := 0x160000 + 8 * i
def TOP_FMT_CAP : Nat := 0x40
def ARR_CLK_CFG (i : Nat) : Nat := 0x200000 + 65536 * i
def ARR_CLK_STAT (i : Nat) : Nat := 0x200008 + 65536 * i
def ARR_CHK_CFG (i : Nat) : Nat := 0x200010 + 65536 * i
def ARR_STATUS (i : Nat) : Nat := 0x200018 + 65536 * i
def ARR_CNT_PASSES (i : Nat) : Nat := 0x200100 + 65536 * i
def ARR_CNT_ROWS (i : Nat) : Nat := 0x200108 + 65536 * i
def ARR_CNT_BUSY_CLK (i : Nat) : Nat := 0x200110 + 65536 * i
def ARR_CNT_LOAD_STALL (i : Nat) : Nat := 0x200118 + 65536 * i
def ARR_CNT_CHK_RETRY (i : Nat) : Nat := 0x200120 + 65536 * i
def ARR_CNT_CHK_FAIL (i : Nat) : Nat := 0x200124 + 65536 * i
def ARR_CNT_SAT (i : Nat) : Nat := 0x200128 + 65536 * i
def ARR_CNT_ACC_CORR (i : Nat) : Nat := 0x20012C + 65536 * i
def ARR_CNT_NANBLK (i : Nat) : Nat := 0x200130 + 65536 * i
def ARR_CNT_UNCHECKED (i : Nat) : Nat := 0x200134 + 65536 * i
def ARR_CNT_ACC_UNCORR (i : Nat) : Nat := 0x200138 + 65536 * i
def ARR_CHK_LOG0 (i : Nat) : Nat := 0x200140 + 65536 * i
def ARR_CHK_LOG1 (i : Nat) : Nat := 0x200148 + 65536 * i
def WIN_CFG (i : Nat) : Nat := 0x300000 + 4096 * i
def WIN_STATUS (i : Nat) : Nat := 0x300008 + 4096 * i
def WIN_CNT_ROWS (i : Nat) : Nat := 0x300100 + 4096 * i
def WIN_CNT_PAD (i : Nat) : Nat := 0x300108 + 4096 * i
def WIN_CNT_RECOMP (i : Nat) : Nat := 0x300110 + 4096 * i
def WIN_CNT_WINO_TILES (i : Nat) : Nat := 0x300118 + 4096 * i
def WIN_CNT_DP_OPS (i : Nat) : Nat := 0x300120 + 4096 * i
def WIN_ERR_LOG0 (i : Nat) : Nat := 0x300140 + 4096 * i
def WIN_ERR_LOG1 (i : Nat) : Nat := 0x300148 + 4096 * i
def ATT_CFG (i : Nat) : Nat := 0x400000 + 4096 * i
def ATT_STATUS (i : Nat) : Nat := 0x400008 + 4096 * i
def ATT_LAB_STAT (i : Nat) : Nat := 0x400010 + 4096 * i
def ATT_CNT_BLOCKS (i : Nat) : Nat := 0x400100 + 4096 * i
def ATT_CNT_SKIPPED (i : Nat) : Nat := 0x400108 + 4096 * i
def ATT_CNT_ROWS (i : Nat) : Nat := 0x400110 + 4096 * i
def ATT_CNT_LAB_HIT (i : Nat) : Nat := 0x400118 + 4096 * i
def ATT_CNT_LAB_MISS (i : Nat) : Nat := 0x400120 + 4096 * i
def ATT_CNT_PTE_LINES (i : Nat) : Nat := 0x400128 + 4096 * i
def ATT_CNT_RESCALE (i : Nat) : Nat := 0x400130 + 4096 * i
def ATT_CNT_EMPTY_ROW (i : Nat) : Nat := 0x400138 + 4096 * i
def ATT_CNT_REQUANT (i : Nat) : Nat := 0x400140 + 4096 * i
def ATT_ERR_LOG0 (i : Nat) : Nat := 0x400180 + 4096 * i
def ATT_ERR_LOG1 (i : Nat) : Nat := 0x400188 + 4096 * i
def SPD_CFG : Nat := 0x500000
def SPD_RES : Nat := 0x500008
def SPD_OCC : Nat := 0x500010
def ACC_OWNER (i : Nat) : Nat := 0x500040 + 8 * i
def SPD_CTX_SPILL (i : Nat) : Nat := 0x501000 + 8 * i
def SPD_GRAN (i : Nat) : Nat := 0x504000 + 8 * i
def MEM_RGN_W0 (i : Nat) : Nat := 0x510000 + 32 * i
def MEM_RGN_W1 (i : Nat) : Nat := 0x510008 + 32 * i
def MEM_RGN_W2 (i : Nat) : Nat := 0x510010 + 32 * i
def SPD_CNT_CORR : Nat := 0x500100
def SPD_CNT_UNCORR : Nat := 0x500104
def SPD_CNT_TAGV : Nat := 0x500108
def SPD_CNT_REGV : Nat := 0x50010C
def SPD_CNT_MISDIR : Nat := 0x500110
def SPD_CNT_BANK_CONFLICT : Nat := 0x500118
def SPD_CNT_SPILL_BYTES : Nat := 0x500120
def SPD_CNT_RESTORE_BYTES : Nat := 0x500128
def SPD_ERR_LOG0 : Nat := 0x500140
def SPD_ERR_LOG1 : Nat := 0x500148
def SPD_RGN_ERR : Nat := 0x500150
def DDR_CFG (i : Nat) : Nat := 0x600000 + 65536 * i
def DDR_TIM (i : Nat) : Nat := 0x600008 + 65536 * i
def DDR_TRAIN (i : Nat) : Nat := 0x600010 + 65536 * i
def DDR_SCRUB (i : Nat) : Nat := 0x600018 + 65536 * i
def DDR_CNT_CORR (i : Nat) : Nat := 0x600100 + 65536 * i
def DDR_CNT_UNCORR (i : Nat) : Nat := 0x600104 + 65536 * i
def DDR_CNT_CAPAR (i : Nat) : Nat := 0x600108 + 65536 * i
def DDR_CNT_MISDIR (i : Nat) : Nat := 0x60010C + 65536 * i
def DDR_CNT_TRANSIENT (i : Nat) : Nat := 0x600110 + 65536 * i
def DDR_CNT_RD_BYTES (i : Nat) : Nat := 0x600118 + 65536 * i
def DDR_CNT_WR_BYTES (i : Nat) : Nat := 0x600120 + 65536 * i
def DDR_CNT_DECOMP_OUT (i : Nat) : Nat := 0x600128 + 65536 * i
def DDR_MAP (i : Nat) : Nat := 0x608000 + 8 * i
def VEC_CLK_CFG (i : Nat) : Nat := 0x700000 + 65536 * i
def VEC_CLK_STAT (i : Nat) : Nat := 0x700008 + 65536 * i
def VEC_STATUS (i : Nat) : Nat := 0x700010 + 65536 * i
def VEC_ISA : Nat := 0x700018
def VEC_CTX_SLOTS (i : Nat) : Nat := 0x702000 + 8 * i
def VEC_CNT_ISSUE (i : Nat) : Nat := 0x700100 + 65536 * i
def VEC_CNT_LANES (i : Nat) : Nat := 0x700108 + 65536 * i
def VEC_CNT_LM_CONFLICT (i : Nat) : Nat := 0x700110 + 65536 * i
def VEC_CNT_DEV_RD (i : Nat) : Nat := 0x700118 + 65536 * i
def VEC_CNT_DEV_WR (i : Nat) : Nat := 0x700120 + 65536 * i
def VEC_CNT_TEXEL (i : Nat) : Nat := 0x700128 + 65536 * i
def VEC_CNT_ICACHE_MISS (i : Nat) : Nat := 0x700130 + 65536 * i
def VEC_CNT_CORR (i : Nat) : Nat := 0x700138 + 65536 * i
def VEC_CNT_TRAP (i : Nat) : Nat := 0x70013C + 65536 * i
def VEC_ERR_LOG0 (i : Nat) : Nat := 0x700140 + 65536 * i
def VEC_ERR_LOG1 (i : Nat) : Nat := 0x700148 + 65536 * i
def GFX_CFG (i : Nat) : Nat := 0x800000 + 65536 * i
def GFX_STATUS (i : Nat) : Nat := 0x800008 + 65536 * i
def GFX_CNT_PRIMS (i : Nat) : Nat := 0x800100 + 65536 * i
def GFX_CNT_CULLED (i : Nat) : Nat := 0x800108 + 65536 * i
def GFX_CNT_TILES (i : Nat) : Nat := 0x800110 + 65536 * i
def GFX_CNT_PIX_RAST (i : Nat) : Nat := 0x800118 + 65536 * i
def GFX_CNT_PIX_SHADED (i : Nat) : Nat := 0x800120 + 65536 * i
def GFX_CNT_TEX_L2_MISS (i : Nat) : Nat := 0x800128 + 65536 * i
def GFX_CNT_FLUSH (i : Nat) : Nat := 0x800130 + 65536 * i
def GFX_CNT_TILE_CORR (i : Nat) : Nat := 0x800134 + 65536 * i
def GFX_ERR_LOG0 (i : Nat) : Nat := 0x800140 + 65536 * i
def GFX_ERR_LOG1 (i : Nat) : Nat := 0x800148 + 65536 * i
def DISP_TIM_H (i : Nat) : Nat := 0x900000 + 4096 * i
def DISP_TIM_V (i : Nat) : Nat := 0x900008 + 4096 * i
def DISP_TIM_CLK (i : Nat) : Nat := 0x900010 + 4096 * i
def DISP_CFG (i : Nat) : Nat := 0x900018 + 4096 * i
def DISP_COLOUR (i : Nat) : Nat := 0x900020 + 4096 * i
def DISP_STAT (i : Nat) : Nat := 0x900028 + 4096 * i
def DISP_CNT_HELD (i : Nat) : Nat := 0x900100 + 4096 * i
def DISP_CNT_UNDERFLOW (i : Nat) : Nat := 0x900104 + 4096 * i
def DISP_CNT_POISON (i : Nat) : Nat := 0x900108 + 4096 * i
def DISP_CNT_CRC_FAIL (i : Nat) : Nat := 0x90010C + 4096 * i
def DISP_CRC_STAT (i : Nat) : Nat := 0x900110 + 4096 * i
def DISP_CRC_VAL (i : Nat) (j : Nat) : Nat := 0x900200 + 4096 * i + 8 * j
def CAP_CSI_CFG (i : Nat) : Nat := 0xA00000 + 4096 * i
def CAP_TDM_CFG (i : Nat) : Nat := 0xA08000 + 4096 * i
def SCH_CTX_CFG (i : Nat) : Nat := 0xB01000 + 16 * i
def SCH_CTX_STAT (i : Nat) : Nat := 0xB01008 + 16 * i
def SCH_CFG : Nat := 0xB00000
def SCH_WIN (i : Nat) (j : Nat) : Nat := 0xB04000 + 256 * i + 8 * j
def SCH_DWIN (i : Nat) : Nat := 0xB00100 + 8 * i
def SCH_JOB_W0 (i : Nat) : Nat := 0xB08000 + 32 * i
def SCH_JOB_W1 (i : Nat) : Nat := 0xB08008 + 32 * i
def SCH_JOB_W2 (i : Nat) : Nat := 0xB08010 + 32 * i
def SCH_JOB_W3 (i : Nat) : Nat := 0xB08018 + 32 * i
def SCH_SWITCH_LOG0 : Nat := 0xB00240
def SCH_SWITCH_LOG1 : Nat := 0xB00248
def SCH_CNT_STOPS : Nat := 0xB00200
def SCH_CNT_ACC_BLOCK : Nat := 0xB00208
def SCH_CNT_DWIN_DENIED : Nat := 0xB0020C
def SCH_CNT_DEFERRED : Nat := 0xB00210
def SCH_CNT_SWITCH : Nat := 0xB00214
def SCH_CNT_PRED_MISS : Nat := 0xB00218
def QOS_PART (i : Nat) : Nat := 0xC00100 + 8 * i
def QOS_CFG : Nat := 0xC00000
def QOS_STAT : Nat := 0xC00008
def QOS_IRQ : Nat := 0xC00010
def QOS_PORT (i : Nat) (j : Nat) : Nat := 0xC01000 + 32 * i + 8 * j
def QOS_PORT_CTL (i : Nat) : Nat := 0xC01018 + 32 * i
def QOS_PORT_STAT (i : Nat) : Nat := 0xC04000 + 8 * i
def QOS_PORT_BYTES (i : Nat) : Nat := 0xC05000 + 8 * i
def QOS_PORT_HOLDWIN (i : Nat) : Nat := 0xC05400 + 8 * i
def QOS_MISS_LOG0 : Nat := 0xC00040
def QOS_MISS_LOG1 : Nat := 0xC00048
def QOS_CNT_MISS : Nat := 0xC00050
def FN_INFO (i : Nat) : Nat := 0xD00800 + 33554432 * i
def FN_HB (i : Nat) : Nat := 0xD00808 + 33554432 * i
def FN_EVT (i : Nat) : Nat := 0xD00810 + 33554432 * i
def FN_EVT_CFG (i : Nat) : Nat := 0xD00818 + 33554432 * i
def FN_STATE (i : Nat) : Nat := 0xD00820 + 33554432 * i
def VIRT_CFG : Nat := 0xD00000
def VIRT_FN_W0 (i : Nat) : Nat := 0xD01000 + 128 * i
def VIRT_FN_W1 (i : Nat) : Nat := 0xD01008 + 128 * i
def VIRT_FN_W2 (i : Nat) : Nat := 0xD01010 + 128 * i
def VIRT_FN_W3 (i : Nat) : Nat := 0xD01018 + 128 * i
def VIRT_FN_W4 (i : Nat) : Nat := 0xD01020 + 128 * i
def VIRT_FN_W5 (i : Nat) : Nat := 0xD01028 + 128 * i
def VIRT_FN_W6 (i : Nat) : Nat := 0xD01030 + 128 * i
def VIRT_FN_W7 (i : Nat) : Nat := 0xD01038 + 128 * i
def VIRT_FN_BMAP (i : Nat) (j : Nat) : Nat := 0xD01040 + 128 * i + 8 * j
def VIRT_FN_W10 (i : Nat) : Nat := 0xD01050 + 128 * i
def SAF_CFG : Nat := 0xE00000
def SAF_CTL : Nat := 0xE00008
def SAF_REACT : Nat := 0xE00010
def SAF_STATUS : Nat := 0xE00018
def SAF_EVT : Nat := 0xE00020
def SAF_IRQ : Nat := 0xE00028
def SAF_GT_VER : Nat := 0xE00030
def SAF_EVT_LOG0 : Nat := 0xE00040
def SAF_EVT_LOG1 : Nat := 0xE00048
def SAF_CNT (i : Nat) : Nat := 0xE00100 + 4 * i
def SAF_GT_STAT (i : Nat) : Nat := 0xE00200 + 8 * i
def SAF_CHK_HIST (i : Nat) : Nat := 0xE00300 + 8 * i
def LNT_MB_CTL : Nat := 0xF00000
def LNT_INFO : Nat := 0xF00008
def LNT_SEC_ISL : Nat := 0xF00010
def LNT_TAMPER : Nat := 0xF00018
def LNT_RST_CAUSE : Nat := 0xF00020
def LNT_SWDG : Nat := 0xF00028
def LNT_SEC_EVT_CNT : Nat := 0xF00030
def LNT_SEC_EVT_LOG0 : Nat := 0xF00040
def LNT_SEC_EVT_LOG1 : Nat := 0xF00048
def LNT_SQ (i : Nat) : Nat := 0xF08000 + 8 * i
def TOP_ID : Nat := 0x0
def TOP_FW_VER : Nat := 0x10
def TOP_HIF_VER : Nat := 0x18
def TOP_FW_STAT : Nat := 0x28
def KPR_PAIR_STAT (i : Nat) : Nat := 0x1000000 + 8 * i
def KPR_QOWN (i : Nat) : Nat := 0x1000100 + 8 * i
def KPR_TAKE_LOG0 : Nat := 0x1000200
def KPR_TAKE_LOG1 : Nat := 0x1000208
def KPR_CNT_TAKEOVER : Nat := 0x1000210
def KPR_CNT_SVC_DISCARD : Nat := 0x1000214
def KPR_CNT_SVC_AUTH : Nat := 0x1000218
def BOOT_STAT : Nat := 0x1700000
def BOOT_SLOT (i : Nat) : Nat := 0x1700010 + 8 * i
def BOOT_ACT : Nat := 0x1700020
def BOOT_CFG : Nat := 0x1700028
def BCN_CFG : Nat := 0x1100000
def BCN_JUMP_LIMIT : Nat := 0x1100008
def BCN_RATE : Nat := 0x1100010
def BCN_OFFSET : Nat := 0x1100018
def BCN_OFFSET_FRAC : Nat := 0x1100020
def BCN_STEP_DELTA : Nat := 0x1100028
def BCN_STEP_CTL : Nat := 0x1100030
def BCN_NOW : Nat := 0x1100040
def BCN_RAW : Nat := 0x1100048
def BCN_RAW_AT_NOW : Nat := 0x1100050
def BCN_STATUS : Nat := 0x1100058
def BCN_EVT : Nat := 0x1100060
def BCN_IRQ : Nat := 0x1100068
def BCN_GM_ID : Nat := 0x1100070
def BCN_CNT_STEP (i : Nat) : Nat := 0x1100080 + 4 * i
def BCN_TRIG_W0 (i : Nat) : Nat := 0x1101000 + 32 * i
def BCN_TRIG_W1 (i : Nat) : Nat := 0x1101008 + 32 * i
def BCN_TRIG_W2 (i : Nat) : Nat := 0x1101010 + 32 * i
def BCN_TRIG_W3 (i : Nat) : Nat := 0x1101018 + 32 * i
def BCN_TRIG_STAT : Nat := 0x1100100
def BCN_PULSE (i : Nat) : Nat := 0x1102000 + 8 * i
def LNK_CFG : Nat := 0x1200000
def LNK_IMPORT : Nat := 0x1200008
def LNK_SEC : Nat := 0x1200010
def LNK_RSEM : Nat := 0x1200018
def LNK_CNT_LATE_RSP : Nat := 0x1200020
def LNK_CNT_REFUSED_IN : Nat := 0x1200024
def LNK_ERR_LOG0 : Nat := 0x1200040
def LNK_ERR_LOG1 : Nat := 0x1200048
def LNK_PORT_CFG (i : Nat) : Nat := 0x1201000 + 256 * i
def LNK_PORT_STAT (i : Nat) : Nat := 0x1201008 + 256 * i
def LNK_CNT_TX (i : Nat) : Nat := 0x1201040 + 256 * i
def LNK_CNT_RX (i : Nat) : Nat := 0x1201048 + 256 * i
def LNK_CNT_FWD (i : Nat) : Nat := 0x1201050 + 256 * i
def LNK_CNT_RETRY (i : Nat) : Nat := 0x1201058 + 256 * i
def LNK_CNT_CRC (i : Nat) : Nat := 0x120105C + 256 * i
def LNK_CNT_LANE_ERR (i : Nat) : Nat := 0x1201060 + 256 * i
def GW_CAN_CFG (i : Nat) : Nat := 0x1301000 + 256 * i
def GW_CAN_STAT (i : Nat) : Nat := 0x1301008 + 256 * i
def GW_CAN_CNT (i : Nat) (j : Nat) : Nat := 0x1301040 + 256 * i + 4 * j
def GW_ETH_PORT (i : Nat) : Nat := 0x1303000 + 256 * i
def GW_ETH_QBV (i : Nat) : Nat := 0x1303008 + 256 * i
def GW_ETH_QBV_BASE (i : Nat) : Nat := 0x1303010 + 256 * i
def GW_GCL (i : Nat) (j : Nat) : Nat := 0x1340000 + 2048 * i + 8 * j
def GW_PSFP_SF_W0 (i : Nat) : Nat := 0x1350000 + 16 * i
def GW_PSFP_SF_W1 (i : Nat) : Nat := 0x1350008 + 16 * i
def GW_METER_W0 (i : Nat) : Nat := 0x1360000 + 16 * i
def GW_METER_W1 (i : Nat) : Nat := 0x1360008 + 16 * i
def GW_SGATE (i : Nat) : Nat := 0x1353000 + 8 * i
def GW_SGL (i : Nat) (j : Nat) : Nat := 0x1354000 + 512 * i + 8 * j
def GW_ACF_W0 (i : Nat) : Nat := 0x1306000 + 32 * i
def GW_ACF_W1 (i : Nat) : Nat := 0x1306008 + 32 * i
def GW_ACF_W2 (i : Nat) : Nat := 0x1306010 + 32 * i
def GW_ROUTE_W0 (i : Nat) : Nat := 0x1310000 + 32 * i
def GW_ROUTE_W1 (i : Nat) : Nat := 0x1310008 + 32 * i
def GW_ROUTE_W2 (i : Nat) : Nat := 0x1310010 + 32 * i
def GW_ROUTE_W3 (i : Nat) : Nat := 0x1310018 + 32 * i
def WBR_CFG : Nat := 0x1400000
def WBR_IRQ : Nat := 0x1400008
def WBR_ELOG_HEAD : Nat := 0x1400010
def WBR_SEM (i : Nat) : Nat := 0x1400100 + 8 * i
def WBR_ELOG_W0 (i : Nat) : Nat := 0x1400800 + 32 * i
def WBR_ELOG_W1 (i : Nat) : Nat := 0x1400808 + 32 * i
def WBR_ELOG_W2 (i : Nat) : Nat := 0x1400810 + 32 * i
def WBR_ELOG_W3 (i : Nat) : Nat := 0x1400818 + 32 * i
def WBR_WIN_W0 (i : Nat) : Nat := 0x1401000 + 32 * i
def WBR_WIN_W1 (i : Nat) : Nat := 0x1401008 + 32 * i
def WBR_WIN_W2 (i : Nat) : Nat := 0x1401010 + 32 * i
def DBG_ISL_W0 (i : Nat) : Nat := 0x1502000 + 32 * i
def DBG_ISL_W1 (i : Nat) : Nat := 0x1502008 + 32 * i
def DBG_ISL_W2 (i : Nat) : Nat := 0x1502010 + 32 * i
def DBG_ISL_W3 (i : Nat) : Nat := 0x1502018 + 32 * i
def DBG_TRACE_CFG : Nat := 0x1500000
def DBG_TRACE_FILT : Nat := 0x1500008
def DBG_TRACE_KIND : Nat := 0x1500010
def DBG_TRACE_BASE : Nat := 0x1500018
def DBG_TRACE_STAT : Nat := 0x1500020
def DBG_TRACE_LOST : Nat := 0x1500028
def DBG_TRIG_W0 (i : Nat) : Nat := 0x1500100 + 32 * i
def DBG_TRIG_W1 (i : Nat) : Nat := 0x1500108 + 32 * i
def DBG_TRIG_W2 (i : Nat) : Nat := 0x1500110 + 32 * i
def DBG_TRIG_STAT : Nat := 0x1500180
def DBG_TRIG_TIME : Nat := 0x1500188
def DBG_SNAP_CTL : Nat := 0x1500200
def DBG_SNAP_TIME : Nat := 0x1500208
def DBG_SNAP_MISSED : Nat := 0x1500210
def DBG_HANG_CFG : Nat := 0x1500300
def DBG_DUMP_BASE : Nat := 0x1500308
def DBG_DUMP_LEN : Nat := 0x1500310
def DBG_DUMP_STAT : Nat := 0x1500318
def DBG_DUMP_MISSED : Nat := 0x1500320
def DBG_IRQ : Nat := 0x1500380
def DBG_RING_SEL : Nat := 0x1500400
def PWR_CFG : Nat := 0x1600000
def PWR_STAT : Nat := 0x1600008
def PWR_LIM : Nat := 0x1600010
def PWR_AVG : Nat := 0x1600018
def THM_CFG : Nat := 0x1600020
def PWR_EVT : Nat := 0x1600028
def PWR_IRQ : Nat := 0x1600030
def PWR_HOURS : Nat := 0x1600038
def PWR_AGE_CTL : Nat := 0x1600040
def PWR_ISL_W0 (i : Nat) : Nat := 0x1600100 + 16 * i
def PWR_ISL_W1 (i : Nat) : Nat := 0x1600108 + 16 * i
def CAP_CNT_FRAMES (i : Nat) : Nat := 0xA00100 + 4096 * i
def CAP_CNT_DROP (i : Nat) : Nat := 0xA00104 + 4096 * i
def CAP_CNT_ECC_CORR (i : Nat) : Nat := 0xA00108 + 4096 * i
def CAP_CNT_CRC (i : Nat) : Nat := 0xA0010C + 4096 * i
def CAP_CNT_UNKNOWN_DT (i : Nat) : Nat := 0xA00110 + 4096 * i
def CAP_CNT_AUDIO_FRAMES (i : Nat) : Nat := 0xA08100 + 4096 * i
def CAP_CNT_AUDIO_DROP (i : Nat) : Nat := 0xA08104 + 4096 * i
def CAP_CNT_SLIP (i : Nat) : Nat := 0xA08108 + 4096 * i
def GW_CNT_OVERWRITE : Nat := 0x1300040
def GW_CNT_DROP_LEN : Nat := 0x1300044
def GW_CNT_NO_RX : Nat := 0x1300048
def GW_CNT_ACF_SEQ : Nat := 0x130004C
def GW_CNT_ACF_LATE : Nat := 0x1300050
def GW_CNT_ACF_DROP : Nat := 0x1300054
def GW_CNT_RTR : Nat := 0x1300058
def GW_CNT_PSFP_DROP : Nat := 0x130005C
def GW_OWN (i : Nat) : Nat := 0x1300100 + 8 * i
def DDR_ERR_LOG0 (i : Nat) : Nat := 0x600140 + 65536 * i
def DDR_ERR_LOG1 (i : Nat) : Nat := 0x600148 + 65536 * i
def SAF_FIRST_LOG0 : Nat := 0xE00050
def SAF_FIRST_LOG1 : Nat := 0xE00058
def LNT_MB_REQ (i : Nat) : Nat := 0xF01000 + 8 * i
def LNT_MB_RSP (i : Nat) : Nat := 0xF04000 + 8 * i
def PWR_AGE_REC (i : Nat) : Nat := 0x1601000 + 8 * i
def PWR_AGE_LOAD (i : Nat) : Nat := 0x1601200 + 8 * i
def DBG_RING_WIN (i : Nat) (j : Nat) : Nat := 0x1500800 + 32 * i + 8 * j

def TOP_ERR_UNMAPPED_COUNT : Fref := ⟨TOP_ERR_UNMAPPED, 0, 32⟩
def TOP_ERR_ACCESS_COUNT : Fref := ⟨TOP_ERR_ACCESS, 0, 32⟩
def TOP_MODE_CTRL_GEN : Fref := ⟨TOP_MODE_CTRL, 0, 16⟩
def TOP_MODE_CTRL_GUARD_US : Fref := ⟨TOP_MODE_CTRL, 16, 8⟩
def TOP_MODE_CTRL_ARM : Fref := ⟨TOP_MODE_CTRL, 24, 1⟩
def TOP_MODE_CTRL_CANCEL : Fref := ⟨TOP_MODE_CTRL, 25, 1⟩
def TOP_MODE_CTRL_IRQ_EN : Fref := ⟨TOP_MODE_CTRL, 26, 1⟩
def TOP_MODE_UNITS_UNITS : Fref := ⟨TOP_MODE_UNITS, 0, 64⟩
def TOP_MODE_TIME_TIME : Fref := ⟨TOP_MODE_TIME, 0, 64⟩
def TOP_MODE_PEERS_PEERS : Fref := ⟨TOP_MODE_PEERS, 0, 64⟩
def TOP_MODE_STATUS_STATE : Fref := ⟨TOP_MODE_STATUS, 0, 2⟩
def TOP_MODE_STATUS_RESULT : Fref := ⟨TOP_MODE_STATUS, 2, 4⟩
def TOP_MODE_STATUS_FIRST_MISSING : Fref := ⟨TOP_MODE_STATUS, 8, 6⟩
def TOP_MODE_STATUS_PEER_MISSING : Fref := ⟨TOP_MODE_STATUS, 16, 6⟩
def TOP_MODE_STATUS_LAST_GEN : Fref := ⟨TOP_MODE_STATUS, 32, 16⟩
def TOP_MODE_STATUS_DONE : Fref := ⟨TOP_MODE_STATUS, 63, 1⟩
def TOP_ISL_MODE_STAGED_GEN (i : Nat) : Fref := ⟨TOP_ISL_MODE i, 0, 16⟩
def TOP_ISL_MODE_ACTIVE_GEN (i : Nat) : Fref := ⟨TOP_ISL_MODE i, 16, 16⟩
def TOP_ISL_MODE_ACK (i : Nat) : Fref := ⟨TOP_ISL_MODE i, 32, 1⟩
def TOP_ISL_MODE_DIRTY (i : Nat) : Fref := ⟨TOP_ISL_MODE i, 33, 1⟩
def TOP_ISL_MODE_LOST_WRITE (i : Nat) : Fref := ⟨TOP_ISL_MODE i, 34, 1⟩
def TOP_ISL_MODE_PRESENT (i : Nat) : Fref := ⟨TOP_ISL_MODE i, 35, 1⟩
def TOP_IRQ_VECTOR : Fref := ⟨TOP_IRQ, 0, 11⟩
def CMD_Q_BASE_ADDR (i : Nat) : Fref := ⟨CMD_Q_BASE i, 12, 52⟩
def CMD_Q_CFG_SIZE_LOG2 (i : Nat) : Fref := ⟨CMD_Q_CFG i, 0, 5⟩
def CMD_Q_CFG_CQG (i : Nat) : Fref := ⟨CMD_Q_CFG i, 8, 10⟩
def CMD_Q_CFG_FUNC (i : Nat) : Fref := ⟨CMD_Q_CFG i, 18, 5⟩
def CMD_Q_CFG_ENABLE (i : Nat) : Fref := ⟨CMD_Q_CFG i, 24, 1⟩
def CMD_Q_LIMIT_WAIT_MS (i : Nat) : Fref := ⟨CMD_Q_LIMIT i, 0, 16⟩
def CMD_Q_PTR_HEAD (i : Nat) : Fref := ⟨CMD_Q_PTR i, 0, 16⟩
def CMD_Q_PTR_TAIL (i : Nat) : Fref := ⟨CMD_Q_PTR i, 16, 16⟩
def CMD_Q_PTR_STATE (i : Nat) : Fref := ⟨CMD_Q_PTR i, 32, 3⟩
def CMD_Q_PTR_INFLIGHT (i : Nat) : Fref := ⟨CMD_Q_PTR i, 35, 16⟩
def CMD_Q_ERR_BAD_TAIL (i : Nat) : Fref := ⟨CMD_Q_ERR i, 0, 1⟩
def CMD_Q_ERR_MALFORMED (i : Nat) : Fref := ⟨CMD_Q_ERR i, 1, 1⟩
def CMD_Q_ERR_FETCH_ERR (i : Nat) : Fref := ⟨CMD_Q_ERR i, 2, 1⟩
def CMD_Q_ERR_DB_DISABLED (i : Nat) : Fref := ⟨CMD_Q_ERR i, 3, 1⟩
def CMD_Q_ERR_STOP_IDX (i : Nat) : Fref := ⟨CMD_Q_ERR i, 32, 16⟩
def CMD_Q_ERR_RESUME (i : Nat) : Fref := ⟨CMD_Q_ERR i, 63, 1⟩
def CMD_CQ_BASE_ADDR (i : Nat) : Fref := ⟨CMD_CQ_BASE i, 12, 52⟩
def CMD_CQ_CFG_SIZE_LOG2 (i : Nat) : Fref := ⟨CMD_CQ_CFG i, 0, 5⟩
def CMD_CQ_CFG_VECTOR (i : Nat) : Fref := ⟨CMD_CQ_CFG i, 5, 11⟩
def CMD_CQ_CFG_COAL_CNT (i : Nat) : Fref := ⟨CMD_CQ_CFG i, 16, 8⟩
def CMD_CQ_CFG_FUNC (i : Nat) : Fref := ⟨CMD_CQ_CFG i, 24, 5⟩
def CMD_CQ_CFG_ENABLE (i : Nat) : Fref := ⟨CMD_CQ_CFG i, 29, 1⟩
def CMD_CQ_COAL_COAL_US (i : Nat) : Fref := ⟨CMD_CQ_COAL i, 0, 16⟩
def CMD_CQ_PTR_TAIL (i : Nat) : Fref := ⟨CMD_CQ_PTR i, 0, 16⟩
def CMD_CQ_PTR_HEAD (i : Nat) : Fref := ⟨CMD_CQ_PTR i, 16, 16⟩
def CMD_CQ_PTR_PHASE (i : Nat) : Fref := ⟨CMD_CQ_PTR i, 32, 1⟩
def CMD_CQ_PTR_STALLED (i : Nat) : Fref := ⟨CMD_CQ_PTR i, 33, 1⟩
def CMD_CQ_PTR_BAD_HEAD (i : Nat) : Fref := ⟨CMD_CQ_PTR i, 34, 1⟩
def CMD_CQ_PTR_REC_ERR (i : Nat) : Fref := ⟨CMD_CQ_PTR i, 35, 1⟩
def CMD_SEM_COUNT (i : Nat) : Fref := ⟨CMD_SEM i, 0, 32⟩
def CMD_SEM_MODE (i : Nat) : Fref := ⟨CMD_SEM i, 32, 1⟩
def CMD_SEM_FUNC (i : Nat) : Fref := ⟨CMD_SEM i, 33, 5⟩
def CMD_SEM_SATURATED (i : Nat) : Fref := ⟨CMD_SEM i, 38, 1⟩
def CMD_SEM_WAITERS (i : Nat) : Fref := ⟨CMD_SEM i, 39, 15⟩
def TOP_FMT_CAP_FMT : Fref := ⟨TOP_FMT_CAP, 0, 15⟩
def TOP_FMT_CAP_RND : Fref := ⟨TOP_FMT_CAP, 16, 3⟩
def ARR_CLK_CFG_FREQ_MHZ (i : Nat) : Fref := ⟨ARR_CLK_CFG i, 0, 10⟩
def ARR_CLK_STAT_FREQ_ACTIVE (i : Nat) : Fref := ⟨ARR_CLK_STAT i, 0, 10⟩
def ARR_CLK_STAT_FMAX_FUSED (i : Nat) : Fref := ⟨ARR_CLK_STAT i, 10, 10⟩
def ARR_CLK_STAT_FMAX_NOW (i : Nat) : Fref := ⟨ARR_CLK_STAT i, 20, 10⟩
def ARR_CHK_CFG_TOL_EXP (i : Nat) : Fref := ⟨ARR_CHK_CFG i, 0, 5⟩
def ARR_STATUS_BUSY (i : Nat) : Fref := ⟨ARR_STATUS i, 0, 1⟩
def ARR_STATUS_PRESENT (i : Nat) : Fref := ⟨ARR_STATUS i, 1, 1⟩
def ARR_STATUS_MODE (i : Nat) : Fref := ⟨ARR_STATUS i, 2, 2⟩
def ARR_STATUS_CTX (i : Nat) : Fref := ⟨ARR_STATUS i, 4, 8⟩
def ARR_STATUS_LAYER_ID (i : Nat) : Fref := ⟨ARR_STATUS i, 12, 16⟩
def ARR_CNT_PASSES_COUNT (i : Nat) : Fref := ⟨ARR_CNT_PASSES i, 0, 64⟩
def ARR_CNT_ROWS_COUNT (i : Nat) : Fref := ⟨ARR_CNT_ROWS i, 0, 64⟩
def ARR_CNT_BUSY_CLK_COUNT (i : Nat) : Fref := ⟨ARR_CNT_BUSY_CLK i, 0, 64⟩
def ARR_CNT_LOAD_STALL_COUNT (i : Nat) : Fref := ⟨ARR_CNT_LOAD_STALL i, 0, 64⟩
def ARR_CNT_CHK_RETRY_COUNT (i : Nat) : Fref := ⟨ARR_CNT_CHK_RETRY i, 0, 32⟩
def ARR_CNT_CHK_FAIL_COUNT (i : Nat) : Fref := ⟨ARR_CNT_CHK_FAIL i, 0, 32⟩
def ARR_CNT_SAT_COUNT (i : Nat) : Fref := ⟨ARR_CNT_SAT i, 0, 32⟩
def ARR_CNT_ACC_CORR_COUNT (i : Nat) : Fref := ⟨ARR_CNT_ACC_CORR i, 0, 32⟩
def ARR_CNT_NANBLK_COUNT (i : Nat) : Fref := ⟨ARR_CNT_NANBLK i, 0, 32⟩
def ARR_CNT_UNCHECKED_COUNT (i : Nat) : Fref := ⟨ARR_CNT_UNCHECKED i, 0, 32⟩
def ARR_CNT_ACC_UNCORR_COUNT (i : Nat) : Fref := ⟨ARR_CNT_ACC_UNCORR i, 0, 32⟩
def ARR_CHK_LOG0_ROW (i : Nat) : Fref := ⟨ARR_CHK_LOG0 i, 0, 10⟩
def ARR_CHK_LOG0_PASS (i : Nat) : Fref := ⟨ARR_CHK_LOG0 i, 10, 22⟩
def ARR_CHK_LOG0_LAYER_ID (i : Nat) : Fref := ⟨ARR_CHK_LOG0 i, 32, 16⟩
def ARR_CHK_LOG0_OP_ID (i : Nat) : Fref := ⟨ARR_CHK_LOG0 i, 48, 16⟩
def ARR_CHK_LOG1_TIME (i : Nat) : Fref := ⟨ARR_CHK_LOG1 i, 0, 64⟩
def WIN_CFG_WINO_EN (i : Nat) : Fref := ⟨WIN_CFG i, 0, 1⟩
def WIN_STATUS_BUSY (i : Nat) : Fref := ⟨WIN_STATUS i, 0, 1⟩
def WIN_STATUS_KIND (i : Nat) : Fref := ⟨WIN_STATUS i, 1, 3⟩
def WIN_STATUS_LAYER (i : Nat) : Fref := ⟨WIN_STATUS i, 4, 3⟩
def WIN_STATUS_STRIPE (i : Nat) : Fref := ⟨WIN_STATUS i, 8, 16⟩
def WIN_STATUS_CTX (i : Nat) : Fref := ⟨WIN_STATUS i, 24, 8⟩
def WIN_CNT_ROWS_COUNT (i : Nat) : Fref := ⟨WIN_CNT_ROWS i, 0, 64⟩
def WIN_CNT_PAD_COUNT (i : Nat) : Fref := ⟨WIN_CNT_PAD i, 0, 64⟩
def WIN_CNT_RECOMP_COUNT (i : Nat) : Fref := ⟨WIN_CNT_RECOMP i, 0, 64⟩
def WIN_CNT_WINO_TILES_COUNT (i : Nat) : Fref := ⟨WIN_CNT_WINO_TILES i, 0, 64⟩
def WIN_CNT_DP_OPS_COUNT (i : Nat) : Fref := ⟨WIN_CNT_DP_OPS i, 0, 64⟩
def WIN_ERR_LOG0_STATUS (i : Nat) : Fref := ⟨WIN_ERR_LOG0 i, 0, 8⟩
def WIN_ERR_LOG0_LAYER (i : Nat) : Fref := ⟨WIN_ERR_LOG0 i, 8, 3⟩
def WIN_ERR_LOG0_STRIPE (i : Nat) : Fref := ⟨WIN_ERR_LOG0 i, 11, 16⟩
def WIN_ERR_LOG1_TIME (i : Nat) : Fref := ⟨WIN_ERR_LOG1 i, 0, 64⟩
def ATT_CFG_PREFETCH (i : Nat) : Fref := ⟨ATT_CFG i, 0, 3⟩
def ATT_CFG_LAB_EN (i : Nat) : Fref := ⟨ATT_CFG i, 3, 1⟩
def ATT_STATUS_BUSY (i : Nat) : Fref := ⟨ATT_STATUS i, 0, 1⟩
def ATT_STATUS_PHASE (i : Nat) : Fref := ⟨ATT_STATUS i, 1, 3⟩
def ATT_STATUS_HEAD (i : Nat) : Fref := ⟨ATT_STATUS i, 4, 8⟩
def ATT_STATUS_BLOCK (i : Nat) : Fref := ⟨ATT_STATUS i, 16, 8⟩
def ATT_STATUS_CTX (i : Nat) : Fref := ⟨ATT_STATUS i, 24, 8⟩
def ATT_LAB_STAT_VALID (i : Nat) : Fref := ⟨ATT_LAB_STAT i, 0, 6⟩
def ATT_LAB_STAT_LOCKED (i : Nat) : Fref := ⟨ATT_LAB_STAT i, 6, 5⟩
def ATT_LAB_STAT_ROOT_VALID (i : Nat) : Fref := ⟨ATT_LAB_STAT i, 11, 3⟩
def ATT_CNT_BLOCKS_COUNT (i : Nat) : Fref := ⟨ATT_CNT_BLOCKS i, 0, 64⟩
def ATT_CNT_SKIPPED_COUNT (i : Nat) : Fref := ⟨ATT_CNT_SKIPPED i, 0, 64⟩
def ATT_CNT_ROWS_COUNT (i : Nat) : Fref := ⟨ATT_CNT_ROWS i, 0, 64⟩
def ATT_CNT_LAB_HIT_COUNT (i : Nat) : Fref := ⟨ATT_CNT_LAB_HIT i, 0, 64⟩
def ATT_CNT_LAB_MISS_COUNT (i : Nat) : Fref := ⟨ATT_CNT_LAB_MISS i, 0, 64⟩
def ATT_CNT_PTE_LINES_COUNT (i : Nat) : Fref := ⟨ATT_CNT_PTE_LINES i, 0, 64⟩
def ATT_CNT_RESCALE_COUNT (i : Nat) : Fref := ⟨ATT_CNT_RESCALE i, 0, 64⟩
def ATT_CNT_EMPTY_ROW_COUNT (i : Nat) : Fref := ⟨ATT_CNT_EMPTY_ROW i, 0, 64⟩
def ATT_CNT_REQUANT_COUNT (i : Nat) : Fref := ⟨ATT_CNT_REQUANT i, 0, 64⟩
def ATT_ERR_LOG0_STATUS (i : Nat) : Fref := ⟨ATT_ERR_LOG0 i, 0, 8⟩
def ATT_ERR_LOG0_HEAD (i : Nat) : Fref := ⟨ATT_ERR_LOG0 i, 8, 8⟩
def ATT_ERR_LOG0_TOKEN (i : Nat) : Fref := ⟨ATT_ERR_LOG0 i, 16, 18⟩
def ATT_ERR_LOG1_TIME (i : Nat) : Fref := ⟨ATT_ERR_LOG1 i, 0, 64⟩
def SPD_CFG_SCRUB_MS : Fref := ⟨SPD_CFG, 0, 16⟩
def SPD_RES_RES1 : Fref := ⟨SPD_RES, 0, 10⟩
def SPD_RES_RES2 : Fref := ⟨SPD_RES, 10, 10⟩
def SPD_OCC_FREE : Fref := ⟨SPD_OCC, 0, 10⟩
def SPD_OCC_HELD0 : Fref := ⟨SPD_OCC, 10, 10⟩
def SPD_OCC_HELD1 : Fref := ⟨SPD_OCC, 20, 10⟩
def SPD_OCC_HELD2 : Fref := ⟨SPD_OCC, 30, 10⟩
def SPD_OCC_BORROWED : Fref := ⟨SPD_OCC, 40, 10⟩
def SPD_OCC_SPILLED : Fref := ⟨SPD_OCC, 50, 10⟩
def ACC_OWNER_PART (i : Nat) : Fref := ⟨ACC_OWNER i, 0, 6⟩
def ACC_OWNER_W (i : Nat) : Fref := ⟨ACC_OWNER i, 6, 1⟩
def ACC_OWNER_CRIT (i : Nat) : Fref := ⟨ACC_OWNER i, 7, 2⟩
def ACC_OWNER_CTX (i : Nat) : Fref := ⟨ACC_OWNER i, 9, 8⟩
def ACC_OWNER_VALID (i : Nat) : Fref := ⟨ACC_OWNER i, 17, 1⟩
def SPD_CTX_SPILL_SPILL_BASE (i : Nat) : Fref := ⟨SPD_CTX_SPILL i, 12, 36⟩
def SPD_CTX_SPILL_BORROW_MAX (i : Nat) : Fref := ⟨SPD_CTX_SPILL i, 48, 10⟩
def SPD_GRAN_STATE (i : Nat) : Fref := ⟨SPD_GRAN i, 0, 3⟩
def SPD_GRAN_CTX (i : Nat) : Fref := ⟨SPD_GRAN i, 8, 8⟩
def SPD_GRAN_PART (i : Nat) : Fref := ⟨SPD_GRAN i, 16, 6⟩
def SPD_GRAN_W (i : Nat) : Fref := ⟨SPD_GRAN i, 22, 1⟩
def SPD_GRAN_CRIT (i : Nat) : Fref := ⟨SPD_GRAN i, 23, 2⟩
def SPD_GRAN_SLOT (i : Nat) : Fref := ⟨SPD_GRAN i, 25, 9⟩
def MEM_RGN_W0_EN (i : Nat) : Fref := ⟨MEM_RGN_W0 i, 0, 1⟩
def MEM_RGN_W0_WR (i : Nat) : Fref := ⟨MEM_RGN_W0 i, 1, 1⟩
def MEM_RGN_W0_W (i : Nat) : Fref := ⟨MEM_RGN_W0 i, 2, 1⟩
def MEM_RGN_W0_CRIT (i : Nat) : Fref := ⟨MEM_RGN_W0 i, 3, 2⟩
def MEM_RGN_W0_PART (i : Nat) : Fref := ⟨MEM_RGN_W0 i, 5, 6⟩
def MEM_RGN_W0_BASE (i : Nat) : Fref := ⟨MEM_RGN_W0 i, 12, 36⟩
def MEM_RGN_W1_LIMIT (i : Nat) : Fref := ⟨MEM_RGN_W1 i, 12, 36⟩
def MEM_RGN_W2_SHARE_RD (i : Nat) : Fref := ⟨MEM_RGN_W2 i, 0, 64⟩
def SPD_CNT_CORR_COUNT : Fref := ⟨SPD_CNT_CORR, 0, 32⟩
def SPD_CNT_UNCORR_COUNT : Fref := ⟨SPD_CNT_UNCORR, 0, 32⟩
def SPD_CNT_TAGV_COUNT : Fref := ⟨SPD_CNT_TAGV, 0, 32⟩
def SPD_CNT_REGV_COUNT : Fref := ⟨SPD_CNT_REGV, 0, 32⟩
def SPD_CNT_MISDIR_COUNT : Fref := ⟨SPD_CNT_MISDIR, 0, 32⟩
def SPD_CNT_BANK_CONFLICT_COUNT : Fref := ⟨SPD_CNT_BANK_CONFLICT, 0, 64⟩
def SPD_CNT_SPILL_BYTES_COUNT : Fref := ⟨SPD_CNT_SPILL_BYTES, 0, 64⟩
def SPD_CNT_RESTORE_BYTES_COUNT : Fref := ⟨SPD_CNT_RESTORE_BYTES, 0, 64⟩
def SPD_ERR_LOG0_ADDR : Fref := ⟨SPD_ERR_LOG0, 0, 48⟩
def SPD_ERR_LOG0_STATUS : Fref := ⟨SPD_ERR_LOG0, 48, 8⟩
def SPD_ERR_LOG0_PART : Fref := ⟨SPD_ERR_LOG0, 56, 6⟩
def SPD_ERR_LOG0_W : Fref := ⟨SPD_ERR_LOG0, 62, 1⟩
def SPD_ERR_LOG1_TIME : Fref := ⟨SPD_ERR_LOG1, 0, 64⟩
def SPD_RGN_ERR_CFG_ERR : Fref := ⟨SPD_RGN_ERR, 0, 1⟩
def SPD_RGN_ERR_IDX : Fref := ⟨SPD_RGN_ERR, 1, 7⟩
def DDR_CFG_PRESENT (i : Nat) : Fref := ⟨DDR_CFG i, 0, 1⟩
def DDR_CFG_RATE (i : Nat) : Fref := ⟨DDR_CFG i, 1, 2⟩
def DDR_CFG_WIDTH (i : Nat) : Fref := ⟨DDR_CFG i, 3, 2⟩
def DDR_CFG_DENS (i : Nat) : Fref := ⟨DDR_CFG i, 5, 1⟩
def DDR_CFG_RANKS (i : Nat) : Fref := ⟨DDR_CFG i, 6, 1⟩
def DDR_CFG_REG (i : Nat) : Fref := ⟨DDR_CFG i, 7, 1⟩
def DDR_CFG_HOT (i : Nat) : Fref := ⟨DDR_CFG i, 8, 1⟩
def DDR_TIM_CL (i : Nat) : Fref := ⟨DDR_TIM i, 0, 6⟩
def DDR_TIM_CWL (i : Nat) : Fref := ⟨DDR_TIM i, 6, 6⟩
def DDR_TIM_TRCD (i : Nat) : Fref := ⟨DDR_TIM i, 12, 6⟩
def DDR_TIM_TRP (i : Nat) : Fref := ⟨DDR_TIM i, 18, 6⟩
def DDR_TIM_TRAS (i : Nat) : Fref := ⟨DDR_TIM i, 24, 7⟩
def DDR_TIM_TRFC (i : Nat) : Fref := ⟨DDR_TIM i, 32, 10⟩
def DDR_TIM_TREFI (i : Nat) : Fref := ⟨DDR_TIM i, 42, 14⟩
def DDR_TRAIN_STATE (i : Nat) : Fref := ⟨DDR_TRAIN i, 0, 2⟩
def DDR_TRAIN_STEP (i : Nat) : Fref := ⟨DDR_TRAIN i, 2, 3⟩
def DDR_TRAIN_LANES (i : Nat) : Fref := ⟨DDR_TRAIN i, 16, 9⟩
def DDR_SCRUB_PERIOD_H (i : Nat) : Fref := ⟨DDR_SCRUB i, 0, 8⟩
def DDR_CNT_CORR_COUNT (i : Nat) : Fref := ⟨DDR_CNT_CORR i, 0, 32⟩
def DDR_CNT_UNCORR_COUNT (i : Nat) : Fref := ⟨DDR_CNT_UNCORR i, 0, 32⟩
def DDR_CNT_CAPAR_COUNT (i : Nat) : Fref := ⟨DDR_CNT_CAPAR i, 0, 32⟩
def DDR_CNT_MISDIR_COUNT (i : Nat) : Fref := ⟨DDR_CNT_MISDIR i, 0, 32⟩
def DDR_CNT_TRANSIENT_COUNT (i : Nat) : Fref := ⟨DDR_CNT_TRANSIENT i, 0, 32⟩
def DDR_CNT_RD_BYTES_COUNT (i : Nat) : Fref := ⟨DDR_CNT_RD_BYTES i, 0, 64⟩
def DDR_CNT_WR_BYTES_COUNT (i : Nat) : Fref := ⟨DDR_CNT_WR_BYTES i, 0, 64⟩
def DDR_CNT_DECOMP_OUT_COUNT (i : Nat) : Fref := ⟨DDR_CNT_DECOMP_OUT i, 0, 64⟩
def DDR_MAP_EN (i : Nat) : Fref := ⟨DDR_MAP i, 0, 1⟩
def DDR_MAP_CHMASK (i : Nat) : Fref := ⟨DDR_MAP i, 1, 8⟩
def DDR_MAP_BASE_GB (i : Nat) : Fref := ⟨DDR_MAP i, 9, 9⟩
def DDR_MAP_SIZE_GB (i : Nat) : Fref := ⟨DDR_MAP i, 18, 9⟩
def DDR_MAP_CHOFF_GB (i : Nat) : Fref := ⟨DDR_MAP i, 27, 6⟩
def VEC_CLK_CFG_FREQ_MHZ (i : Nat) : Fref := ⟨VEC_CLK_CFG i, 0, 11⟩
def VEC_CLK_STAT_FREQ_ACTIVE (i : Nat) : Fref := ⟨VEC_CLK_STAT i, 0, 11⟩
def VEC_CLK_STAT_FMAX_FUSED (i : Nat) : Fref := ⟨VEC_CLK_STAT i, 11, 11⟩
def VEC_CLK_STAT_FMAX_NOW (i : Nat) : Fref := ⟨VEC_CLK_STAT i, 32, 11⟩
def VEC_STATUS_PRESENT (i : Nat) : Fref := ⟨VEC_STATUS i, 0, 1⟩
def VEC_STATUS_BUSY (i : Nat) : Fref := ⟨VEC_STATUS i, 1, 8⟩
def VEC_STATUS_STOPPED (i : Nat) : Fref := ⟨VEC_STATUS i, 9, 8⟩
def VEC_STATUS_SLOTS_HELD (i : Nat) : Fref := ⟨VEC_STATUS i, 17, 7⟩
def VEC_ISA_MAJOR : Fref := ⟨VEC_ISA, 0, 8⟩
def VEC_ISA_MINOR : Fref := ⟨VEC_ISA, 8, 8⟩
def VEC_CTX_SLOTS_SLOTS (i : Nat) : Fref := ⟨VEC_CTX_SLOTS i, 0, 4⟩
def VEC_CTX_SLOTS_LM_4K (i : Nat) : Fref := ⟨VEC_CTX_SLOTS i, 4, 7⟩
def VEC_CTX_SLOTS_CLUSTERS (i : Nat) : Fref := ⟨VEC_CTX_SLOTS i, 11, 4⟩
def VEC_CNT_ISSUE_COUNT (i : Nat) : Fref := ⟨VEC_CNT_ISSUE i, 0, 64⟩
def VEC_CNT_LANES_COUNT (i : Nat) : Fref := ⟨VEC_CNT_LANES i, 0, 64⟩
def VEC_CNT_LM_CONFLICT_COUNT (i : Nat) : Fref := ⟨VEC_CNT_LM_CONFLICT i, 0, 64⟩
def VEC_CNT_DEV_RD_COUNT (i : Nat) : Fref := ⟨VEC_CNT_DEV_RD i, 0, 64⟩
def VEC_CNT_DEV_WR_COUNT (i : Nat) : Fref := ⟨VEC_CNT_DEV_WR i, 0, 64⟩
def VEC_CNT_TEXEL_COUNT (i : Nat) : Fref := ⟨VEC_CNT_TEXEL i, 0, 64⟩
def VEC_CNT_ICACHE_MISS_COUNT (i : Nat) : Fref := ⟨VEC_CNT_ICACHE_MISS i, 0, 64⟩
def VEC_CNT_CORR_COUNT (i : Nat) : Fref := ⟨VEC_CNT_CORR i, 0, 32⟩
def VEC_CNT_TRAP_COUNT (i : Nat) : Fref := ⟨VEC_CNT_TRAP i, 0, 32⟩
def VEC_ERR_LOG0_DETAIL (i : Nat) : Fref := ⟨VEC_ERR_LOG0 i, 0, 40⟩
def VEC_ERR_LOG0_STATUS (i : Nat) : Fref := ⟨VEC_ERR_LOG0 i, 40, 8⟩
def VEC_ERR_LOG0_CTX (i : Nat) : Fref := ⟨VEC_ERR_LOG0 i, 48, 8⟩
def VEC_ERR_LOG1_TIME (i : Nat) : Fref := ⟨VEC_ERR_LOG1 i, 0, 64⟩
def GFX_CFG_HSR_EN (i : Nat) : Fref := ⟨GFX_CFG i, 0, 1⟩
def GFX_STATUS_PRESENT (i : Nat) : Fref := ⟨GFX_STATUS i, 0, 1⟩
def GFX_STATUS_BUSY (i : Nat) : Fref := ⟨GFX_STATUS i, 1, 1⟩
def GFX_STATUS_PHASE (i : Nat) : Fref := ⟨GFX_STATUS i, 2, 3⟩
def GFX_STATUS_SLOTS (i : Nat) : Fref := ⟨GFX_STATUS i, 5, 4⟩
def GFX_STATUS_CTX (i : Nat) : Fref := ⟨GFX_STATUS i, 9, 8⟩
def GFX_CNT_PRIMS_COUNT (i : Nat) : Fref := ⟨GFX_CNT_PRIMS i, 0, 64⟩
def GFX_CNT_CULLED_COUNT (i : Nat) : Fref := ⟨GFX_CNT_CULLED i, 0, 64⟩
def GFX_CNT_TILES_COUNT (i : Nat) : Fref := ⟨GFX_CNT_TILES i, 0, 64⟩
def GFX_CNT_PIX_RAST_COUNT (i : Nat) : Fref := ⟨GFX_CNT_PIX_RAST i, 0, 64⟩
def GFX_CNT_PIX_SHADED_COUNT (i : Nat) : Fref := ⟨GFX_CNT_PIX_SHADED i, 0, 64⟩
def GFX_CNT_TEX_L2_MISS_COUNT (i : Nat) : Fref := ⟨GFX_CNT_TEX_L2_MISS i, 0, 64⟩
def GFX_CNT_FLUSH_COUNT (i : Nat) : Fref := ⟨GFX_CNT_FLUSH i, 0, 32⟩
def GFX_CNT_TILE_CORR_COUNT (i : Nat) : Fref := ⟨GFX_CNT_TILE_CORR i, 0, 32⟩
def GFX_ERR_LOG0_DETAIL (i : Nat) : Fref := ⟨GFX_ERR_LOG0 i, 0, 48⟩
def GFX_ERR_LOG0_STATUS (i : Nat) : Fref := ⟨GFX_ERR_LOG0 i, 48, 8⟩
def GFX_ERR_LOG0_CTX (i : Nat) : Fref := ⟨GFX_ERR_LOG0 i, 56, 8⟩
def GFX_ERR_LOG1_TIME (i : Nat) : Fref := ⟨GFX_ERR_LOG1 i, 0, 64⟩
def DISP_TIM_H_HACT (i : Nat) : Fref := ⟨DISP_TIM_H i, 0, 14⟩
def DISP_TIM_H_HFP (i : Nat) : Fref := ⟨DISP_TIM_H i, 14, 12⟩
def DISP_TIM_H_HSYNC (i : Nat) : Fref := ⟨DISP_TIM_H i, 26, 12⟩
def DISP_TIM_H_HBP (i : Nat) : Fref := ⟨DISP_TIM_H i, 38, 12⟩
def DISP_TIM_H_HPOL (i : Nat) : Fref := ⟨DISP_TIM_H i, 50, 1⟩
def DISP_TIM_V_VACT (i : Nat) : Fref := ⟨DISP_TIM_V i, 0, 14⟩
def DISP_TIM_V_VFP (i : Nat) : Fref := ⟨DISP_TIM_V i, 14, 12⟩
def DISP_TIM_V_VSYNC (i : Nat) : Fref := ⟨DISP_TIM_V i, 26, 12⟩
def DISP_TIM_V_VBP (i : Nat) : Fref := ⟨DISP_TIM_V i, 38, 12⟩
def DISP_TIM_V_VPOL (i : Nat) : Fref := ⟨DISP_TIM_V i, 50, 1⟩
def DISP_TIM_CLK_PCLK_KHZ (i : Nat) : Fref := ⟨DISP_TIM_CLK i, 0, 20⟩
def DISP_TIM_CLK_LANES (i : Nat) : Fref := ⟨DISP_TIM_CLK i, 20, 2⟩
def DISP_TIM_CLK_RATE (i : Nat) : Fref := ⟨DISP_TIM_CLK i, 22, 2⟩
def DISP_TIM_CLK_BPC (i : Nat) : Fref := ⟨DISP_TIM_CLK i, 24, 1⟩
def DISP_TIM_CLK_ENABLE (i : Nat) : Fref := ⟨DISP_TIM_CLK i, 25, 1⟩
def DISP_CFG_LEAD_US (i : Nat) : Fref := ⟨DISP_CFG i, 0, 16⟩
def DISP_CFG_SAFE_PART (i : Nat) : Fref := ⟨DISP_CFG i, 16, 6⟩
def DISP_CFG_CRC_FAIL_FRAMES (i : Nat) : Fref := ⟨DISP_CFG i, 22, 4⟩
def DISP_CFG_LOCK (i : Nat) : Fref := ⟨DISP_CFG i, 31, 1⟩
def DISP_COLOUR_BG (i : Nat) : Fref := ⟨DISP_COLOUR i, 0, 30⟩
def DISP_COLOUR_FILL (i : Nat) : Fref := ⟨DISP_COLOUR i, 32, 30⟩
def DISP_STAT_HPD (i : Nat) : Fref := ⟨DISP_STAT i, 0, 1⟩
def DISP_STAT_LINK (i : Nat) : Fref := ⟨DISP_STAT i, 1, 2⟩
def DISP_STAT_PRESENT (i : Nat) : Fref := ⟨DISP_STAT i, 3, 1⟩
def DISP_STAT_POISON (i : Nat) : Fref := ⟨DISP_STAT i, 4, 1⟩
def DISP_STAT_FRAME (i : Nat) : Fref := ⟨DISP_STAT i, 32, 32⟩
def DISP_CNT_HELD_COUNT (i : Nat) : Fref := ⟨DISP_CNT_HELD i, 0, 32⟩
def DISP_CNT_UNDERFLOW_COUNT (i : Nat) : Fref := ⟨DISP_CNT_UNDERFLOW i, 0, 32⟩
def DISP_CNT_POISON_COUNT (i : Nat) : Fref := ⟨DISP_CNT_POISON i, 0, 32⟩
def DISP_CNT_CRC_FAIL_COUNT (i : Nat) : Fref := ⟨DISP_CNT_CRC_FAIL i, 0, 32⟩
def DISP_CRC_STAT_MISMATCH (i : Nat) : Fref := ⟨DISP_CRC_STAT i, 0, 16⟩
def DISP_CRC_VAL_VAL (i : Nat) (j : Nat) : Fref := ⟨DISP_CRC_VAL i j, 0, 32⟩
def DISP_CRC_VAL_EXPECT (i : Nat) (j : Nat) : Fref := ⟨DISP_CRC_VAL i j, 32, 32⟩
def CAP_CSI_CFG_EN (i : Nat) : Fref := ⟨CAP_CSI_CFG i, 0, 1⟩
def CAP_CSI_CFG_LANES (i : Nat) : Fref := ⟨CAP_CSI_CFG i, 1, 2⟩
def CAP_CSI_CFG_RATE_MBPS (i : Nat) : Fref := ⟨CAP_CSI_CFG i, 3, 12⟩
def CAP_CSI_CFG_FSYNC_EN (i : Nat) : Fref := ⟨CAP_CSI_CFG i, 15, 1⟩
def CAP_CSI_CFG_FSYNC_TRIG (i : Nat) : Fref := ⟨CAP_CSI_CFG i, 16, 6⟩
def CAP_TDM_CFG_EN (i : Nat) : Fref := ⟨CAP_TDM_CFG i, 0, 1⟩
def CAP_TDM_CFG_PROVIDER (i : Nat) : Fref := ⟨CAP_TDM_CFG i, 1, 1⟩
def CAP_TDM_CFG_SLOTS (i : Nat) : Fref := ⟨CAP_TDM_CFG i, 2, 5⟩
def CAP_TDM_CFG_RATE (i : Nat) : Fref := ⟨CAP_TDM_CFG i, 7, 2⟩
def CAP_TDM_CFG_START_TRIG (i : Nat) : Fref := ⟨CAP_TDM_CFG i, 9, 6⟩
def SCH_CTX_CFG_FUNC (i : Nat) : Fref := ⟨SCH_CTX_CFG i, 0, 5⟩
def SCH_CTX_CFG_PART (i : Nat) : Fref := ⟨SCH_CTX_CFG i, 5, 6⟩
def SCH_CTX_CFG_CRIT (i : Nat) : Fref := ⟨SCH_CTX_CFG i, 11, 2⟩
def SCH_CTX_CFG_PRIO (i : Nat) : Fref := ⟨SCH_CTX_CFG i, 13, 3⟩
def SCH_CTX_CFG_GRAN (i : Nat) : Fref := ⟨SCH_CTX_CFG i, 16, 10⟩
def SCH_CTX_CFG_RX_GRAN (i : Nat) : Fref := ⟨SCH_CTX_CFG i, 26, 4⟩
def SCH_CTX_CFG_VSLOTS (i : Nat) : Fref := ⟨SCH_CTX_CFG i, 30, 4⟩
def SCH_CTX_CFG_VLM_4K (i : Nat) : Fref := ⟨SCH_CTX_CFG i, 34, 7⟩
def SCH_CTX_CFG_VCLUSTERS (i : Nat) : Fref := ⟨SCH_CTX_CFG i, 41, 4⟩
def SCH_CTX_CFG_CMD (i : Nat) : Fref := ⟨SCH_CTX_CFG i, 45, 2⟩
def SCH_CTX_STAT_STATE (i : Nat) : Fref := ⟨SCH_CTX_STAT i, 0, 3⟩
def SCH_CTX_STAT_REASON (i : Nat) : Fref := ⟨SCH_CTX_STAT i, 3, 4⟩
def SCH_CTX_STAT_GRAN_BASE (i : Nat) : Fref := ⟨SCH_CTX_STAT i, 8, 9⟩
def SCH_CTX_STAT_RX_PEND (i : Nat) : Fref := ⟨SCH_CTX_STAT i, 32, 16⟩
def SCH_CFG_FRAME_US : Fref := ⟨SCH_CFG, 0, 17⟩
def SCH_CFG_PHASE_US : Fref := ⟨SCH_CFG, 17, 17⟩
def SCH_CFG_DL_CHECK_US : Fref := ⟨SCH_CFG, 34, 10⟩
def SCH_CFG_TP_EN : Fref := ⟨SCH_CFG, 44, 1⟩
def SCH_WIN_START_US (i : Nat) (j : Nat) : Fref := ⟨SCH_WIN i j, 0, 17⟩
def SCH_WIN_LEN_US (i : Nat) (j : Nat) : Fref := ⟨SCH_WIN i j, 17, 17⟩
def SCH_WIN_PART (i : Nat) (j : Nat) : Fref := ⟨SCH_WIN i j, 34, 6⟩
def SCH_WIN_SLACK (i : Nat) (j : Nat) : Fref := ⟨SCH_WIN i j, 40, 1⟩
def SCH_WIN_EN (i : Nat) (j : Nat) : Fref := ⟨SCH_WIN i j, 41, 1⟩
def SCH_DWIN_EN (i : Nat) : Fref := ⟨SCH_DWIN i, 0, 1⟩
def SCH_DWIN_PART (i : Nat) : Fref := ⟨SCH_DWIN i, 1, 6⟩
def SCH_DWIN_ENG (i : Nat) : Fref := ⟨SCH_DWIN i, 7, 8⟩
def SCH_DWIN_LEN_US (i : Nat) : Fref := ⟨SCH_DWIN i, 15, 16⟩
def SCH_JOB_W0_PQ (i : Nat) : Fref := ⟨SCH_JOB_W0 i, 0, 14⟩
def SCH_JOB_W0_FQ (i : Nat) : Fref := ⟨SCH_JOB_W0 i, 14, 14⟩
def SCH_JOB_W0_N_M1 (i : Nat) : Fref := ⟨SCH_JOB_W0 i, 28, 16⟩
def SCH_JOB_W0_SEM_BASE (i : Nat) : Fref := ⟨SCH_JOB_W0 i, 44, 12⟩
def SCH_JOB_W0_SEM_CNT (i : Nat) : Fref := ⟨SCH_JOB_W0 i, 56, 8⟩
def SCH_JOB_W1_EST_US (i : Nat) : Fref := ⟨SCH_JOB_W1 i, 0, 32⟩
def SCH_JOB_W1_FEST_US (i : Nat) : Fref := ⟨SCH_JOB_W1 i, 32, 32⟩
def SCH_JOB_W2_MARGIN_PCT (i : Nat) : Fref := ⟨SCH_JOB_W2 i, 0, 8⟩
def SCH_JOB_W2_EN (i : Nat) : Fref := ⟨SCH_JOB_W2 i, 8, 1⟩
def SCH_JOB_W2_FB_EN (i : Nat) : Fref := ⟨SCH_JOB_W2 i, 9, 1⟩
def SCH_JOB_W3_RUNS (i : Nat) : Fref := ⟨SCH_JOB_W3 i, 0, 4⟩
def SCH_JOB_W3_EST_NOW_US (i : Nat) : Fref := ⟨SCH_JOB_W3 i, 4, 32⟩
def SCH_JOB_W3_STATE (i : Nat) : Fref := ⟨SCH_JOB_W3 i, 36, 2⟩
def SCH_JOB_W3_DONE (i : Nat) : Fref := ⟨SCH_JOB_W3 i, 38, 16⟩
def SCH_SWITCH_LOG0_JOB : Fref := ⟨SCH_SWITCH_LOG0, 0, 8⟩
def SCH_SWITCH_LOG0_DONE : Fref := ⟨SCH_SWITCH_LOG0, 8, 16⟩
def SCH_SWITCH_LOG0_LATE_US : Fref := ⟨SCH_SWITCH_LOG0, 24, 32⟩
def SCH_SWITCH_LOG1_TIME : Fref := ⟨SCH_SWITCH_LOG1, 0, 64⟩
def SCH_CNT_STOPS_COUNT : Fref := ⟨SCH_CNT_STOPS, 0, 64⟩
def SCH_CNT_ACC_BLOCK_COUNT : Fref := ⟨SCH_CNT_ACC_BLOCK, 0, 32⟩
def SCH_CNT_DWIN_DENIED_COUNT : Fref := ⟨SCH_CNT_DWIN_DENIED, 0, 32⟩
def SCH_CNT_DEFERRED_COUNT : Fref := ⟨SCH_CNT_DEFERRED, 0, 32⟩
def SCH_CNT_SWITCH_COUNT : Fref := ⟨SCH_CNT_SWITCH, 0, 32⟩
def SCH_CNT_PRED_MISS_COUNT : Fref := ⟨SCH_CNT_PRED_MISS, 0, 32⟩
def QOS_PART_EN (i : Nat) : Fref := ⟨QOS_PART i, 0, 1⟩
def QOS_PART_CRIT (i : Nat) : Fref := ⟨QOS_PART i, 1, 2⟩
def QOS_PART_W (i : Nat) : Fref := ⟨QOS_PART i, 3, 1⟩
def QOS_PART_FUNC (i : Nat) : Fref := ⟨QOS_PART i, 4, 5⟩
def QOS_CFG_WIN_US : Fref := ⟨QOS_CFG, 0, 10⟩
def QOS_STAT_CAP_UNITS : Fref := ⟨QOS_STAT, 0, 24⟩
def QOS_STAT_GUAR_UNITS : Fref := ⟨QOS_STAT, 24, 24⟩
def QOS_STAT_OVERCOMMIT : Fref := ⟨QOS_STAT, 48, 1⟩
def QOS_IRQ_VECTOR : Fref := ⟨QOS_IRQ, 0, 11⟩
def QOS_IRQ_EN : Fref := ⟨QOS_IRQ, 11, 1⟩
def QOS_IRQ_GUARANTEE_MISS : Fref := ⟨QOS_IRQ, 12, 1⟩
def QOS_IRQ_OVERCOMMIT : Fref := ⟨QOS_IRQ, 13, 1⟩
def QOS_PORT_BUDGET (i : Nat) (j : Nat) : Fref := ⟨QOS_PORT i j, 0, 24⟩
def QOS_PORT_GUAR (i : Nat) (j : Nat) : Fref := ⟨QOS_PORT i j, 32, 24⟩
def QOS_PORT_CTL_FCLASS (i : Nat) : Fref := ⟨QOS_PORT_CTL i, 0, 2⟩
def QOS_PORT_CTL_EXEMPT (i : Nat) : Fref := ⟨QOS_PORT_CTL i, 2, 1⟩
def QOS_PORT_STAT_HELD (i : Nat) : Fref := ⟨QOS_PORT_STAT i, 0, 3⟩
def QOS_PORT_STAT_MISS0 (i : Nat) : Fref := ⟨QOS_PORT_STAT i, 8, 8⟩
def QOS_PORT_STAT_MISS1 (i : Nat) : Fref := ⟨QOS_PORT_STAT i, 16, 8⟩
def QOS_PORT_STAT_MISS2 (i : Nat) : Fref := ⟨QOS_PORT_STAT i, 24, 8⟩
def QOS_PORT_BYTES_COUNT (i : Nat) : Fref := ⟨QOS_PORT_BYTES i, 0, 64⟩
def QOS_PORT_HOLDWIN_COUNT (i : Nat) : Fref := ⟨QOS_PORT_HOLDWIN i, 0, 64⟩
def QOS_MISS_LOG0_PORT : Fref := ⟨QOS_MISS_LOG0, 0, 7⟩
def QOS_MISS_LOG0_CLASS : Fref := ⟨QOS_MISS_LOG0, 7, 2⟩
def QOS_MISS_LOG0_USED : Fref := ⟨QOS_MISS_LOG0, 9, 24⟩
def QOS_MISS_LOG0_GUAR : Fref := ⟨QOS_MISS_LOG0, 33, 24⟩
def QOS_MISS_LOG1_TIME : Fref := ⟨QOS_MISS_LOG1, 0, 64⟩
def QOS_CNT_MISS_COUNT : Fref := ⟨QOS_CNT_MISS, 0, 32⟩
def FN_INFO_QCNT (i : Nat) : Fref := ⟨FN_INFO i, 0, 11⟩
def FN_INFO_CQCNT (i : Nat) : Fref := ⟨FN_INFO i, 11, 11⟩
def FN_INFO_CTXCNT (i : Nat) : Fref := ⟨FN_INFO i, 22, 9⟩
def FN_INFO_VECCNT (i : Nat) : Fref := ⟨FN_INFO i, 31, 12⟩
def FN_INFO_SEMCNT (i : Nat) : Fref := ⟨FN_INFO i, 43, 13⟩
def FN_HB_BEAT (i : Nat) : Fref := ⟨FN_HB i, 0, 32⟩
def FN_EVT_QUIESCED (i : Nat) : Fref := ⟨FN_EVT i, 0, 1⟩
def FN_EVT_RESUMED (i : Nat) : Fref := ⟨FN_EVT i, 1, 1⟩
def FN_EVT_MEM_EVENT (i : Nat) : Fref := ⟨FN_EVT i, 2, 1⟩
def FN_EVT_BRIDGE_ERR (i : Nat) : Fref := ⟨FN_EVT i, 3, 1⟩
def FN_EVT_CFG_VECTOR (i : Nat) : Fref := ⟨FN_EVT_CFG i, 0, 11⟩
def FN_EVT_CFG_EN (i : Nat) : Fref := ⟨FN_EVT_CFG i, 11, 1⟩
def FN_STATE_ARMED (i : Nat) : Fref := ⟨FN_STATE i, 0, 1⟩
def FN_STATE_QUIESCED (i : Nat) : Fref := ⟨FN_STATE i, 1, 1⟩
def FN_STATE_FLR_BUSY (i : Nat) : Fref := ⟨FN_STATE i, 2, 1⟩
def VIRT_CFG_EVT_VECTOR : Fref := ⟨VIRT_CFG, 0, 11⟩
def VIRT_CFG_EVT_EN : Fref := ⟨VIRT_CFG, 11, 1⟩
def VIRT_CFG_NUM_VF : Fref := ⟨VIRT_CFG, 12, 5⟩
def VIRT_FN_W0_QBASE (i : Nat) : Fref := ⟨VIRT_FN_W0 i, 0, 14⟩
def VIRT_FN_W0_QCNT (i : Nat) : Fref := ⟨VIRT_FN_W0 i, 14, 11⟩
def VIRT_FN_W0_CQBASE (i : Nat) : Fref := ⟨VIRT_FN_W0 i, 25, 10⟩
def VIRT_FN_W0_CQCNT (i : Nat) : Fref := ⟨VIRT_FN_W0 i, 35, 11⟩
def VIRT_FN_W1_SEMBASE (i : Nat) : Fref := ⟨VIRT_FN_W1 i, 0, 12⟩
def VIRT_FN_W1_SEMCNT (i : Nat) : Fref := ⟨VIRT_FN_W1 i, 12, 13⟩
def VIRT_FN_W1_CTXBASE (i : Nat) : Fref := ⟨VIRT_FN_W1 i, 25, 8⟩
def VIRT_FN_W1_CTXCNT (i : Nat) : Fref := ⟨VIRT_FN_W1 i, 33, 9⟩
def VIRT_FN_W2_VECBASE (i : Nat) : Fref := ⟨VIRT_FN_W2 i, 0, 11⟩
def VIRT_FN_W2_VECCNT (i : Nat) : Fref := ⟨VIRT_FN_W2 i, 11, 12⟩
def VIRT_FN_W2_GRAN_MAX (i : Nat) : Fref := ⟨VIRT_FN_W2 i, 23, 10⟩
def VIRT_FN_W3_PLANES (i : Nat) : Fref := ⟨VIRT_FN_W3 i, 0, 32⟩
def VIRT_FN_W3_HB_MS (i : Nat) : Fref := ⟨VIRT_FN_W3 i, 32, 16⟩
def VIRT_FN_W3_FETCH_WT (i : Nat) : Fref := ⟨VIRT_FN_W3 i, 48, 4⟩
def VIRT_FN_W3_FLR_MODE (i : Nat) : Fref := ⟨VIRT_FN_W3 i, 52, 1⟩
def VIRT_FN_W4_QUIESCE (i : Nat) : Fref := ⟨VIRT_FN_W4 i, 0, 1⟩
def VIRT_FN_W4_RESUME (i : Nat) : Fref := ⟨VIRT_FN_W4 i, 1, 1⟩
def VIRT_FN_W5_CFG_ERR (i : Nat) : Fref := ⟨VIRT_FN_W5 i, 0, 1⟩
def VIRT_FN_W5_QUIESCED (i : Nat) : Fref := ⟨VIRT_FN_W5 i, 1, 1⟩
def VIRT_FN_W5_FLR_BUSY (i : Nat) : Fref := ⟨VIRT_FN_W5 i, 2, 1⟩
def VIRT_FN_W5_ARMED (i : Nat) : Fref := ⟨VIRT_FN_W5 i, 3, 1⟩
def VIRT_FN_W5_HB_LATE (i : Nat) : Fref := ⟨VIRT_FN_W5 i, 4, 1⟩
def VIRT_FN_W5_GRAN_USED (i : Nat) : Fref := ⟨VIRT_FN_W5 i, 8, 10⟩
def VIRT_FN_W6_DIRTY_EN (i : Nat) : Fref := ⟨VIRT_FN_W6 i, 0, 1⟩
def VIRT_FN_W6_SWAP (i : Nat) : Fref := ⟨VIRT_FN_W6 i, 1, 1⟩
def VIRT_FN_W6_SWAP_BUSY (i : Nat) : Fref := ⟨VIRT_FN_W6 i, 2, 1⟩
def VIRT_FN_W6_ACTIVE (i : Nat) : Fref := ⟨VIRT_FN_W6 i, 3, 1⟩
def VIRT_FN_W6_OOR (i : Nat) : Fref := ⟨VIRT_FN_W6 i, 4, 1⟩
def VIRT_FN_W6_SPAN_LOG2 (i : Nat) : Fref := ⟨VIRT_FN_W6 i, 8, 6⟩
def VIRT_FN_W7_LOG_BASE (i : Nat) : Fref := ⟨VIRT_FN_W7 i, 12, 52⟩
def VIRT_FN_BMAP_BMAP (i : Nat) (j : Nat) : Fref := ⟨VIRT_FN_BMAP i j, 12, 52⟩
def VIRT_FN_W10_COUNT (i : Nat) : Fref := ⟨VIRT_FN_W10 i, 0, 64⟩
def SAF_CFG_FTTI_MS : Fref := ⟨SAF_CFG, 0, 9⟩
def SAF_CFG_ARR_SLOT_US : Fref := ⟨SAF_CFG, 9, 10⟩
def SAF_CFG_VCL_SLOT_US : Fref := ⟨SAF_CFG, 19, 10⟩
def SAF_CTL_ATTEMPTS : Fref := ⟨SAF_CTL, 0, 3⟩
def SAF_CTL_RATE_CNT : Fref := ⟨SAF_CTL, 3, 8⟩
def SAF_CTL_RATE_MS : Fref := ⟨SAF_CTL, 11, 16⟩
def SAF_CTL_CHK_N : Fref := ⟨SAF_CTL, 27, 4⟩
def SAF_CTL_CHK_M : Fref := ⟨SAF_CTL, 31, 12⟩
def SAF_CTL_INJECT_EN : Fref := ⟨SAF_CTL, 43, 1⟩
def SAF_CTL_ACK_EN : Fref := ⟨SAF_CTL, 44, 1⟩
def SAF_CTL_LOCK : Fref := ⟨SAF_CTL, 63, 1⟩
def SAF_REACT_REACT : Fref := ⟨SAF_REACT, 0, 36⟩
def SAF_STATUS_SAFETY_READY : Fref := ⟨SAF_STATUS, 0, 1⟩
def SAF_STATUS_FAULT : Fref := ⟨SAF_STATUS, 1, 1⟩
def SAF_STATUS_SAFE_REQ : Fref := ⟨SAF_STATUS, 2, 1⟩
def SAF_STATUS_DEBUG : Fref := ⟨SAF_STATUS, 3, 1⟩
def SAF_STATUS_PAIRS : Fref := ⟨SAF_STATUS, 4, 3⟩
def SAF_STATUS_SEQ : Fref := ⟨SAF_STATUS, 32, 32⟩
def SAF_EVT_PEND : Fref := ⟨SAF_EVT, 0, 18⟩
def SAF_IRQ_VECTOR : Fref := ⟨SAF_IRQ, 0, 11⟩
def SAF_IRQ_EN : Fref := ⟨SAF_IRQ, 11, 1⟩
def SAF_GT_VER_VER : Fref := ⟨SAF_GT_VER, 0, 32⟩
def SAF_EVT_LOG0_CODE : Fref := ⟨SAF_EVT_LOG0, 0, 5⟩
def SAF_EVT_LOG0_INJ : Fref := ⟨SAF_EVT_LOG0, 5, 1⟩
def SAF_EVT_LOG0_ISLAND : Fref := ⟨SAF_EVT_LOG0, 6, 6⟩
def SAF_EVT_LOG0_DETAIL : Fref := ⟨SAF_EVT_LOG0, 32, 32⟩
def SAF_EVT_LOG1_TIME : Fref := ⟨SAF_EVT_LOG1, 0, 64⟩
def SAF_CNT_COUNT (i : Nat) : Fref := ⟨SAF_CNT i, 0, 32⟩
def SAF_GT_STAT_RESULT (i : Nat) : Fref := ⟨SAF_GT_STAT i, 0, 2⟩
def SAF_GT_STAT_CLOCKS (i : Nat) : Fref := ⟨SAF_GT_STAT i, 16, 16⟩
def SAF_GT_STAT_WIN (i : Nat) : Fref := ⟨SAF_GT_STAT i, 32, 32⟩
def SAF_CHK_HIST_COUNT (i : Nat) : Fref := ⟨SAF_CHK_HIST i, 0, 4⟩
def SAF_CHK_HIST_LAST_WIN (i : Nat) : Fref := ⟨SAF_CHK_HIST i, 32, 32⟩
def LNT_MB_CTL_GO : Fref := ⟨LNT_MB_CTL, 0, 1⟩
def LNT_MB_CTL_BUSY : Fref := ⟨LNT_MB_CTL, 1, 1⟩
def LNT_MB_CTL_DONE : Fref := ⟨LNT_MB_CTL, 2, 1⟩
def LNT_MB_CTL_IRQ_EN : Fref := ⟨LNT_MB_CTL, 3, 1⟩
def LNT_MB_CTL_SEQ : Fref := ⟨LNT_MB_CTL, 4, 16⟩
def LNT_MB_CTL_VECTOR : Fref := ⟨LNT_MB_CTL, 20, 11⟩
def LNT_INFO_LIFECYCLE : Fref := ⟨LNT_INFO, 0, 2⟩
def LNT_INFO_IDENTITY : Fref := ⟨LNT_INFO, 2, 2⟩
def LNT_INFO_READY : Fref := ⟨LNT_INFO, 4, 1⟩
def LNT_SEC_ISL_ISL : Fref := ⟨LNT_SEC_ISL, 0, 38⟩
def LNT_TAMPER_VOLT : Fref := ⟨LNT_TAMPER, 0, 1⟩
def LNT_TAMPER_CLK : Fref := ⟨LNT_TAMPER, 1, 1⟩
def LNT_TAMPER_TEMP : Fref := ⟨LNT_TAMPER, 2, 1⟩
def LNT_TAMPER_ACCESS : Fref := ⟨LNT_TAMPER, 3, 1⟩
def LNT_TAMPER_ERASE_WRAP : Fref := ⟨LNT_TAMPER, 4, 1⟩
def LNT_TAMPER_ERASED : Fref := ⟨LNT_TAMPER, 5, 1⟩
def LNT_RST_CAUSE_POR : Fref := ⟨LNT_RST_CAUSE, 0, 1⟩
def LNT_RST_CAUSE_SWDG : Fref := ⟨LNT_RST_CAUSE, 1, 1⟩
def LNT_SWDG_PERIOD_MS : Fref := ⟨LNT_SWDG, 0, 14⟩
def LNT_SWDG_EXPIRIES : Fref := ⟨LNT_SWDG, 16, 16⟩
def LNT_SEC_EVT_CNT_COUNT : Fref := ⟨LNT_SEC_EVT_CNT, 0, 32⟩
def LNT_SEC_EVT_LOG0_OFFSET : Fref := ⟨LNT_SEC_EVT_LOG0, 0, 26⟩
def LNT_SEC_EVT_LOG0_SRC : Fref := ⟨LNT_SEC_EVT_LOG0, 26, 2⟩
def LNT_SEC_EVT_LOG0_KIND : Fref := ⟨LNT_SEC_EVT_LOG0, 28, 4⟩
def LNT_SEC_EVT_LOG0_ISLAND : Fref := ⟨LNT_SEC_EVT_LOG0, 32, 6⟩
def LNT_SEC_EVT_LOG1_TIME : Fref := ⟨LNT_SEC_EVT_LOG1, 0, 64⟩
def LNT_SQ_SECURE (i : Nat) : Fref := ⟨LNT_SQ i, 0, 64⟩
def TOP_ID_PART : Fref := ⟨TOP_ID, 0, 16⟩
def TOP_ID_STEP : Fref := ⟨TOP_ID, 16, 8⟩
def TOP_FW_VER_MAJOR : Fref := ⟨TOP_FW_VER, 0, 8⟩
def TOP_FW_VER_MINOR : Fref := ⟨TOP_FW_VER, 8, 8⟩
def TOP_FW_VER_PATCH : Fref := ⟨TOP_FW_VER, 16, 16⟩
def TOP_FW_VER_SVN : Fref := ⟨TOP_FW_VER, 32, 8⟩
def TOP_HIF_VER_HIF_MAJOR : Fref := ⟨TOP_HIF_VER, 0, 16⟩
def TOP_HIF_VER_HIF_MINOR : Fref := ⟨TOP_HIF_VER, 16, 16⟩
def TOP_HIF_VER_WIN_LAYOUT : Fref := ⟨TOP_HIF_VER, 32, 8⟩
def TOP_FW_STAT_READY : Fref := ⟨TOP_FW_STAT, 0, 1⟩
def TOP_FW_STAT_PAUSE : Fref := ⟨TOP_FW_STAT, 1, 1⟩
def TOP_FW_STAT_RECOVERY : Fref := ⟨TOP_FW_STAT, 2, 1⟩
def TOP_FW_STAT_ACT_COUNT : Fref := ⟨TOP_FW_STAT, 16, 16⟩
def KPR_PAIR_STAT_STATE (i : Nat) : Fref := ⟨KPR_PAIR_STAT i, 0, 3⟩
def KPR_PAIR_STAT_BLOCKS (i : Nat) : Fref := ⟨KPR_PAIR_STAT i, 3, 9⟩
def KPR_PAIR_STAT_RESTARTS (i : Nat) : Fref := ⟨KPR_PAIR_STAT i, 12, 16⟩
def KPR_QOWN_OWNER (i : Nat) : Fref := ⟨KPR_QOWN i, 0, 64⟩
def KPR_TAKE_LOG0_FROM : Fref := ⟨KPR_TAKE_LOG0, 0, 2⟩
def KPR_TAKE_LOG0_TO : Fref := ⟨KPR_TAKE_LOG0, 2, 2⟩
def KPR_TAKE_LOG0_CAUSE : Fref := ⟨KPR_TAKE_LOG0, 4, 2⟩
def KPR_TAKE_LOG0_BLOCKS : Fref := ⟨KPR_TAKE_LOG0, 6, 9⟩
def KPR_TAKE_LOG0_TOOK_US : Fref := ⟨KPR_TAKE_LOG0, 32, 32⟩
def KPR_TAKE_LOG1_TIME : Fref := ⟨KPR_TAKE_LOG1, 0, 64⟩
def KPR_CNT_TAKEOVER_COUNT : Fref := ⟨KPR_CNT_TAKEOVER, 0, 32⟩
def KPR_CNT_SVC_DISCARD_COUNT : Fref := ⟨KPR_CNT_SVC_DISCARD, 0, 32⟩
def KPR_CNT_SVC_AUTH_COUNT : Fref := ⟨KPR_CNT_SVC_AUTH, 0, 32⟩
def BOOT_STAT_ACTIVE_SLOT : Fref := ⟨BOOT_STAT, 0, 1⟩
def BOOT_STAT_DIR_SLOT : Fref := ⟨BOOT_STAT, 1, 1⟩
def BOOT_STAT_RECOVERY : Fref := ⟨BOOT_STAT, 2, 1⟩
def BOOT_STAT_STRAP : Fref := ⟨BOOT_STAT, 3, 1⟩
def BOOT_STAT_PRELOAD : Fref := ⟨BOOT_STAT, 4, 2⟩
def BOOT_STAT_ACT_RESULT : Fref := ⟨BOOT_STAT, 6, 4⟩
def BOOT_STAT_ACT_DONE : Fref := ⟨BOOT_STAT, 10, 1⟩
def BOOT_STAT_PAUSE_US : Fref := ⟨BOOT_STAT, 32, 16⟩
def BOOT_SLOT_STATE (i : Nat) : Fref := ⟨BOOT_SLOT i, 0, 2⟩
def BOOT_SLOT_SVN (i : Nat) : Fref := ⟨BOOT_SLOT i, 8, 8⟩
def BOOT_SLOT_MAJOR (i : Nat) : Fref := ⟨BOOT_SLOT i, 16, 8⟩
def BOOT_SLOT_MINOR (i : Nat) : Fref := ⟨BOOT_SLOT i, 24, 8⟩
def BOOT_SLOT_PATCH (i : Nat) : Fref := ⟨BOOT_SLOT i, 32, 16⟩
def BOOT_SLOT_HIF_MAJOR (i : Nat) : Fref := ⟨BOOT_SLOT i, 48, 16⟩
def BOOT_ACT_SLOT : Fref := ⟨BOOT_ACT, 0, 1⟩
def BOOT_ACT_ACT_NOW : Fref := ⟨BOOT_ACT, 1, 1⟩
def BOOT_CFG_VECTOR : Fref := ⟨BOOT_CFG, 0, 11⟩
def BOOT_CFG_EN : Fref := ⟨BOOT_CFG, 11, 1⟩
def BCN_CFG_SRC : Fref := ⟨BCN_CFG, 0, 2⟩
def BCN_CFG_DOMAIN : Fref := ⟨BCN_CFG, 2, 2⟩
def BCN_CFG_PEER_ID : Fref := ⟨BCN_CFG, 4, 6⟩
def BCN_CFG_INIT_FORCE : Fref := ⟨BCN_CFG, 10, 1⟩
def BCN_CFG_GM_CAPABLE : Fref := ⟨BCN_CFG, 11, 1⟩
def BCN_CFG_PRIORITY1 : Fref := ⟨BCN_CFG, 12, 8⟩
def BCN_JUMP_LIMIT_LIMIT_NS : Fref := ⟨BCN_JUMP_LIMIT, 0, 32⟩
def BCN_RATE_RATE : Fref := ⟨BCN_RATE, 0, 40⟩
def BCN_OFFSET_OFFSET : Fref := ⟨BCN_OFFSET, 0, 64⟩
def BCN_OFFSET_FRAC_FRAC : Fref := ⟨BCN_OFFSET_FRAC, 0, 32⟩
def BCN_STEP_DELTA_DELTA : Fref := ⟨BCN_STEP_DELTA, 0, 64⟩
def BCN_STEP_CTL_GO : Fref := ⟨BCN_STEP_CTL, 0, 1⟩
def BCN_STEP_CTL_FORCE : Fref := ⟨BCN_STEP_CTL, 1, 1⟩
def BCN_STEP_CTL_RESULT : Fref := ⟨BCN_STEP_CTL, 2, 2⟩
def BCN_NOW_NOW : Fref := ⟨BCN_NOW, 0, 64⟩
def BCN_RAW_RAW : Fref := ⟨BCN_RAW, 0, 64⟩
def BCN_RAW_AT_NOW_RAW : Fref := ⟨BCN_RAW_AT_NOW, 0, 64⟩
def BCN_STATUS_STATE : Fref := ⟨BCN_STATUS, 0, 2⟩
def BCN_STATUS_SRC_ACTIVE : Fref := ⟨BCN_STATUS, 2, 2⟩
def BCN_STATUS_LAST_ERR : Fref := ⟨BCN_STATUS, 16, 32⟩
def BCN_EVT_REFUSED : Fref := ⟨BCN_EVT, 0, 1⟩
def BCN_EVT_FORCED : Fref := ⟨BCN_EVT, 1, 1⟩
def BCN_EVT_STATE_CHG : Fref := ⟨BCN_EVT, 2, 1⟩
def BCN_EVT_RATE_ERR : Fref := ⟨BCN_EVT, 3, 1⟩
def BCN_EVT_LATE : Fref := ⟨BCN_EVT, 4, 1⟩
def BCN_IRQ_VECTOR : Fref := ⟨BCN_IRQ, 0, 11⟩
def BCN_IRQ_EN : Fref := ⟨BCN_IRQ, 11, 1⟩
def BCN_GM_ID_ID : Fref := ⟨BCN_GM_ID, 0, 64⟩
def BCN_CNT_STEP_COUNT (i : Nat) : Fref := ⟨BCN_CNT_STEP i, 0, 32⟩
def BCN_TRIG_W0_TIME (i : Nat) : Fref := ⟨BCN_TRIG_W0 i, 0, 64⟩
def BCN_TRIG_W1_PERIOD_NS (i : Nat) : Fref := ⟨BCN_TRIG_W1 i, 0, 32⟩
def BCN_TRIG_W2_EN (i : Nat) : Fref := ⟨BCN_TRIG_W2 i, 0, 1⟩
def BCN_TRIG_W2_MODE (i : Nat) : Fref := ⟨BCN_TRIG_W2 i, 1, 1⟩
def BCN_TRIG_W2_IRQ (i : Nat) : Fref := ⟨BCN_TRIG_W2 i, 2, 1⟩
def BCN_TRIG_W2_SNAP (i : Nat) : Fref := ⟨BCN_TRIG_W2 i, 3, 1⟩
def BCN_TRIG_W2_LATE (i : Nat) : Fref := ⟨BCN_TRIG_W2 i, 4, 1⟩
def BCN_TRIG_W2_SKIPPED (i : Nat) : Fref := ⟨BCN_TRIG_W2 i, 16, 16⟩
def BCN_TRIG_W3_LAST (i : Nat) : Fref := ⟨BCN_TRIG_W3 i, 0, 64⟩
def BCN_TRIG_STAT_FIRED : Fref := ⟨BCN_TRIG_STAT, 0, 64⟩
def BCN_PULSE_EN (i : Nat) : Fref := ⟨BCN_PULSE i, 0, 1⟩
def BCN_PULSE_TRIG (i : Nat) : Fref := ⟨BCN_PULSE i, 1, 6⟩
def BCN_PULSE_WIDTH_US (i : Nat) : Fref := ⟨BCN_PULSE i, 7, 16⟩
def BCN_PULSE_POL (i : Nat) : Fref := ⟨BCN_PULSE i, 23, 1⟩
def LNK_CFG_DEV_ID : Fref := ⟨LNK_CFG, 0, 6⟩
def LNK_CFG_TOPO : Fref := ⟨LNK_CFG, 6, 2⟩
def LNK_CFG_DIM_X : Fref := ⟨LNK_CFG, 8, 7⟩
def LNK_CFG_DIM_Y : Fref := ⟨LNK_CFG, 15, 7⟩
def LNK_CFG_TIMEOUT_US : Fref := ⟨LNK_CFG, 32, 16⟩
def LNK_IMPORT_PARTS : Fref := ⟨LNK_IMPORT, 0, 64⟩
def LNK_SEC_SEC_EN : Fref := ⟨LNK_SEC, 0, 1⟩
def LNK_RSEM_BASE : Fref := ⟨LNK_RSEM, 0, 12⟩
def LNK_RSEM_CNT : Fref := ⟨LNK_RSEM, 12, 13⟩
def LNK_CNT_LATE_RSP_COUNT : Fref := ⟨LNK_CNT_LATE_RSP, 0, 32⟩
def LNK_CNT_REFUSED_IN_COUNT : Fref := ⟨LNK_CNT_REFUSED_IN, 0, 32⟩
def LNK_ERR_LOG0_STATUS : Fref := ⟨LNK_ERR_LOG0, 0, 8⟩
def LNK_ERR_LOG0_PORT : Fref := ⟨LNK_ERR_LOG0, 8, 2⟩
def LNK_ERR_LOG0_DEV : Fref := ⟨LNK_ERR_LOG0, 10, 6⟩
def LNK_ERR_LOG1_TIME : Fref := ⟨LNK_ERR_LOG1, 0, 64⟩
def LNK_PORT_CFG_EN (i : Nat) : Fref := ⟨LNK_PORT_CFG i, 0, 1⟩
def LNK_PORT_STAT_STATE (i : Nat) : Fref := ⟨LNK_PORT_STAT i, 0, 3⟩
def LNK_PORT_STAT_LANES (i : Nat) : Fref := ⟨LNK_PORT_STAT i, 3, 4⟩
def LNK_PORT_STAT_NEIGH_ID (i : Nat) : Fref := ⟨LNK_PORT_STAT i, 7, 6⟩
def LNK_PORT_STAT_NEIGH_PORT (i : Nat) : Fref := ⟨LNK_PORT_STAT i, 13, 2⟩
def LNK_CNT_TX_COUNT (i : Nat) : Fref := ⟨LNK_CNT_TX i, 0, 64⟩
def LNK_CNT_RX_COUNT (i : Nat) : Fref := ⟨LNK_CNT_RX i, 0, 64⟩
def LNK_CNT_FWD_COUNT (i : Nat) : Fref := ⟨LNK_CNT_FWD i, 0, 64⟩
def LNK_CNT_RETRY_COUNT (i : Nat) : Fref := ⟨LNK_CNT_RETRY i, 0, 32⟩
def LNK_CNT_CRC_COUNT (i : Nat) : Fref := ⟨LNK_CNT_CRC i, 0, 32⟩
def LNK_CNT_LANE_ERR_LANE0 (i : Nat) : Fref := ⟨LNK_CNT_LANE_ERR i, 0, 16⟩
def LNK_CNT_LANE_ERR_LANE1 (i : Nat) : Fref := ⟨LNK_CNT_LANE_ERR i, 16, 16⟩
def LNK_CNT_LANE_ERR_LANE2 (i : Nat) : Fref := ⟨LNK_CNT_LANE_ERR i, 32, 16⟩
def LNK_CNT_LANE_ERR_LANE3 (i : Nat) : Fref := ⟨LNK_CNT_LANE_ERR i, 48, 16⟩
def GW_CAN_CFG_EN (i : Nat) : Fref := ⟨GW_CAN_CFG i, 0, 1⟩
def GW_CAN_CFG_FD (i : Nat) : Fref := ⟨GW_CAN_CFG i, 1, 1⟩
def GW_CAN_CFG_BRS_EN (i : Nat) : Fref := ⟨GW_CAN_CFG i, 2, 1⟩
def GW_CAN_CFG_LISTEN (i : Nat) : Fref := ⟨GW_CAN_CFG i, 3, 1⟩
def GW_CAN_CFG_NBRP (i : Nat) : Fref := ⟨GW_CAN_CFG i, 4, 8⟩
def GW_CAN_CFG_NTSEG1 (i : Nat) : Fref := ⟨GW_CAN_CFG i, 12, 8⟩
def GW_CAN_CFG_NTSEG2 (i : Nat) : Fref := ⟨GW_CAN_CFG i, 20, 7⟩
def GW_CAN_CFG_NSJW (i : Nat) : Fref := ⟨GW_CAN_CFG i, 27, 7⟩
def GW_CAN_CFG_DBRP (i : Nat) : Fref := ⟨GW_CAN_CFG i, 34, 5⟩
def GW_CAN_CFG_DTSEG1 (i : Nat) : Fref := ⟨GW_CAN_CFG i, 39, 5⟩
def GW_CAN_CFG_DTSEG2 (i : Nat) : Fref := ⟨GW_CAN_CFG i, 44, 4⟩
def GW_CAN_CFG_DSJW (i : Nat) : Fref := ⟨GW_CAN_CFG i, 48, 4⟩
def GW_CAN_CFG_TDCO (i : Nat) : Fref := ⟨GW_CAN_CFG i, 52, 7⟩
def GW_CAN_STAT_STATE (i : Nat) : Fref := ⟨GW_CAN_STAT i, 0, 3⟩
def GW_CAN_STAT_TEC (i : Nat) : Fref := ⟨GW_CAN_STAT i, 3, 8⟩
def GW_CAN_STAT_REC (i : Nat) : Fref := ⟨GW_CAN_STAT i, 11, 8⟩
def GW_CAN_CNT_COUNT (i : Nat) (j : Nat) : Fref := ⟨GW_CAN_CNT i j, 0, 32⟩
def GW_ETH_PORT_EN (i : Nat) : Fref := ⟨GW_ETH_PORT i, 0, 1⟩
def GW_ETH_PORT_SPEED (i : Nat) : Fref := ⟨GW_ETH_PORT i, 1, 3⟩
def GW_ETH_PORT_AS_EN (i : Nat) : Fref := ⟨GW_ETH_PORT i, 4, 1⟩
def GW_ETH_PORT_PHY_RX_NS (i : Nat) : Fref := ⟨GW_ETH_PORT i, 16, 10⟩
def GW_ETH_PORT_PHY_TX_NS (i : Nat) : Fref := ⟨GW_ETH_PORT i, 26, 10⟩
def GW_ETH_QBV_CYCLE_NS (i : Nat) : Fref := ⟨GW_ETH_QBV i, 0, 30⟩
def GW_ETH_QBV_LEN (i : Nat) : Fref := ⟨GW_ETH_QBV i, 30, 9⟩
def GW_ETH_QBV_EN (i : Nat) : Fref := ⟨GW_ETH_QBV i, 39, 1⟩
def GW_ETH_QBV_BASE_BASE (i : Nat) : Fref := ⟨GW_ETH_QBV_BASE i, 0, 64⟩
def GW_GCL_GATES (i : Nat) (j : Nat) : Fref := ⟨GW_GCL i j, 0, 8⟩
def GW_GCL_INTERVAL_NS (i : Nat) (j : Nat) : Fref := ⟨GW_GCL i j, 8, 30⟩
def GW_PSFP_SF_W0_DMAC (i : Nat) : Fref := ⟨GW_PSFP_SF_W0 i, 0, 48⟩
def GW_PSFP_SF_W0_VID (i : Nat) : Fref := ⟨GW_PSFP_SF_W0 i, 48, 12⟩
def GW_PSFP_SF_W0_ANY_VID (i : Nat) : Fref := ⟨GW_PSFP_SF_W0 i, 60, 1⟩
def GW_PSFP_SF_W0_EN (i : Nat) : Fref := ⟨GW_PSFP_SF_W0 i, 61, 1⟩
def GW_PSFP_SF_W1_PORTS (i : Nat) : Fref := ⟨GW_PSFP_SF_W1 i, 0, 8⟩
def GW_PSFP_SF_W1_PCP (i : Nat) : Fref := ⟨GW_PSFP_SF_W1 i, 8, 4⟩
def GW_PSFP_SF_W1_GATE (i : Nat) : Fref := ⟨GW_PSFP_SF_W1 i, 12, 6⟩
def GW_PSFP_SF_W1_GATE_EN (i : Nat) : Fref := ⟨GW_PSFP_SF_W1 i, 18, 1⟩
def GW_PSFP_SF_W1_METER_EN (i : Nat) : Fref := ⟨GW_PSFP_SF_W1 i, 19, 1⟩
def GW_PSFP_SF_W1_METER (i : Nat) : Fref := ⟨GW_PSFP_SF_W1 i, 20, 7⟩
def GW_PSFP_SF_W1_MAX_SDU (i : Nat) : Fref := ⟨GW_PSFP_SF_W1 i, 27, 11⟩
def GW_METER_W0_CIR_KBPS (i : Nat) : Fref := ⟨GW_METER_W0 i, 0, 24⟩
def GW_METER_W0_EIR_KBPS (i : Nat) : Fref := ⟨GW_METER_W0 i, 24, 24⟩
def GW_METER_W1_CBS (i : Nat) : Fref := ⟨GW_METER_W1 i, 0, 24⟩
def GW_METER_W1_EBS (i : Nat) : Fref := ⟨GW_METER_W1 i, 24, 24⟩
def GW_SGATE_EN (i : Nat) : Fref := ⟨GW_SGATE i, 0, 1⟩
def GW_SGATE_LEN (i : Nat) : Fref := ⟨GW_SGATE i, 1, 7⟩
def GW_SGL_GATES (i : Nat) (j : Nat) : Fref := ⟨GW_SGL i j, 0, 8⟩
def GW_SGL_INTERVAL_NS (i : Nat) (j : Nat) : Fref := ⟨GW_SGL i j, 8, 30⟩
def GW_ACF_W0_EN (i : Nat) : Fref := ⟨GW_ACF_W0 i, 0, 1⟩
def GW_ACF_W0_TALKER (i : Nat) : Fref := ⟨GW_ACF_W0 i, 1, 1⟩
def GW_ACF_W0_TSCF (i : Nat) : Fref := ⟨GW_ACF_W0 i, 2, 1⟩
def GW_ACF_W0_TAGGED (i : Nat) : Fref := ⟨GW_ACF_W0 i, 3, 1⟩
def GW_ACF_W0_PCP (i : Nat) : Fref := ⟨GW_ACF_W0 i, 4, 3⟩
def GW_ACF_W0_VID (i : Nat) : Fref := ⟨GW_ACF_W0 i, 7, 12⟩
def GW_ACF_W0_PERIOD_US (i : Nat) : Fref := ⟨GW_ACF_W0 i, 19, 20⟩
def GW_ACF_W0_TRANSIT_US (i : Nat) : Fref := ⟨GW_ACF_W0 i, 39, 16⟩
def GW_ACF_W1_STREAM_ID (i : Nat) : Fref := ⟨GW_ACF_W1 i, 0, 64⟩
def GW_ACF_W2_DMAC (i : Nat) : Fref := ⟨GW_ACF_W2 i, 0, 48⟩
def GW_ROUTE_W0_EN (i : Nat) : Fref := ⟨GW_ROUTE_W0 i, 0, 1⟩
def GW_ROUTE_W0_SRC_KIND (i : Nat) : Fref := ⟨GW_ROUTE_W0 i, 1, 2⟩
def GW_ROUTE_W0_SRC_IF (i : Nat) : Fref := ⟨GW_ROUTE_W0 i, 3, 5⟩
def GW_ROUTE_W0_DST_KIND (i : Nat) : Fref := ⟨GW_ROUTE_W0 i, 8, 2⟩
def GW_ROUTE_W0_DST_IF (i : Nat) : Fref := ⟨GW_ROUTE_W0 i, 10, 5⟩
def GW_ROUTE_W0_MODE (i : Nat) : Fref := ⟨GW_ROUTE_W0 i, 15, 1⟩
def GW_ROUTE_W0_REPEAT (i : Nat) : Fref := ⟨GW_ROUTE_W0 i, 16, 1⟩
def GW_ROUTE_W0_PERIOD_US (i : Nat) : Fref := ⟨GW_ROUTE_W0 i, 32, 32⟩
def GW_ROUTE_W1_ID (i : Nat) : Fref := ⟨GW_ROUTE_W1 i, 0, 29⟩
def GW_ROUTE_W1_IDE (i : Nat) : Fref := ⟨GW_ROUTE_W1 i, 29, 1⟩
def GW_ROUTE_W1_ID_MASK (i : Nat) : Fref := ⟨GW_ROUTE_W1 i, 32, 29⟩
def GW_ROUTE_W2_PHASE_US (i : Nat) : Fref := ⟨GW_ROUTE_W2 i, 0, 32⟩
def GW_ROUTE_W2_SLOT (i : Nat) : Fref := ⟨GW_ROUTE_W2 i, 32, 10⟩
def GW_ROUTE_W3_DST_ID (i : Nat) : Fref := ⟨GW_ROUTE_W3 i, 0, 29⟩
def GW_ROUTE_W3_DST_IDE (i : Nat) : Fref := ⟨GW_ROUTE_W3 i, 29, 1⟩
def GW_ROUTE_W3_DST_FD (i : Nat) : Fref := ⟨GW_ROUTE_W3 i, 30, 1⟩
def GW_ROUTE_W3_DST_BRS (i : Nat) : Fref := ⟨GW_ROUTE_W3 i, 31, 1⟩
def WBR_CFG_CPL_TO_MS : Fref := ⟨WBR_CFG, 0, 10⟩
def WBR_IRQ_VECTOR : Fref := ⟨WBR_IRQ, 0, 11⟩
def WBR_IRQ_EN : Fref := ⟨WBR_IRQ, 11, 1⟩
def WBR_IRQ_ERR : Fref := ⟨WBR_IRQ, 12, 1⟩
def WBR_IRQ_CFG_ERR : Fref := ⟨WBR_IRQ, 13, 1⟩
def WBR_ELOG_HEAD_NEXT : Fref := ⟨WBR_ELOG_HEAD, 0, 4⟩
def WBR_ELOG_HEAD_LOST : Fref := ⟨WBR_ELOG_HEAD, 16, 16⟩
def WBR_SEM_HOLDER (i : Nat) : Fref := ⟨WBR_SEM i, 0, 8⟩
def WBR_ELOG_W0_KIND (i : Nat) : Fref := ⟨WBR_ELOG_W0 i, 0, 3⟩
def WBR_ELOG_W0_CPL (i : Nat) : Fref := ⟨WBR_ELOG_W0 i, 3, 3⟩
def WBR_ELOG_W0_FUNC (i : Nat) : Fref := ⟨WBR_ELOG_W0 i, 6, 5⟩
def WBR_ELOG_W0_ISLAND (i : Nat) : Fref := ⟨WBR_ELOG_W0 i, 11, 6⟩
def WBR_ELOG_W0_CTX (i : Nat) : Fref := ⟨WBR_ELOG_W0 i, 17, 8⟩
def WBR_ELOG_W0_WIN (i : Nat) : Fref := ⟨WBR_ELOG_W0 i, 25, 6⟩
def WBR_ELOG_W1_ADDR (i : Nat) : Fref := ⟨WBR_ELOG_W1 i, 0, 48⟩
def WBR_ELOG_W2_BUS (i : Nat) : Fref := ⟨WBR_ELOG_W2 i, 0, 64⟩
def WBR_ELOG_W3_TIME (i : Nat) : Fref := ⟨WBR_ELOG_W3 i, 0, 64⟩
def WBR_WIN_W0_EN (i : Nat) : Fref := ⟨WBR_WIN_W0 i, 0, 1⟩
def WBR_WIN_W0_POSTED (i : Nat) : Fref := ⟨WBR_WIN_W0 i, 1, 1⟩
def WBR_WIN_W0_PREF (i : Nat) : Fref := ⟨WBR_WIN_W0 i, 2, 1⟩
def WBR_WIN_W0_INV (i : Nat) : Fref := ⟨WBR_WIN_W0 i, 3, 1⟩
def WBR_WIN_W0_ESIZE (i : Nat) : Fref := ⟨WBR_WIN_W0 i, 4, 2⟩
def WBR_WIN_W0_SEM_EN (i : Nat) : Fref := ⟨WBR_WIN_W0 i, 6, 1⟩
def WBR_WIN_W0_SEM (i : Nat) : Fref := ⟨WBR_WIN_W0 i, 7, 4⟩
def WBR_WIN_W0_FUNC (i : Nat) : Fref := ⟨WBR_WIN_W0 i, 11, 5⟩
def WBR_WIN_W0_PART (i : Nat) : Fref := ⟨WBR_WIN_W0 i, 16, 6⟩
def WBR_WIN_W0_W (i : Nat) : Fref := ⟨WBR_WIN_W0 i, 22, 1⟩
def WBR_WIN_W0_SIZE_LOG2 (i : Nat) : Fref := ⟨WBR_WIN_W0 i, 23, 6⟩
def WBR_WIN_W0_PREF_LINES (i : Nat) : Fref := ⟨WBR_WIN_W0 i, 29, 4⟩
def WBR_WIN_W1_DEV_BASE (i : Nat) : Fref := ⟨WBR_WIN_W1 i, 12, 35⟩
def WBR_WIN_W2_BUS_ADDR (i : Nat) : Fref := ⟨WBR_WIN_W2 i, 12, 52⟩
def DBG_ISL_W0_CLK_ON_NS (i : Nat) : Fref := ⟨DBG_ISL_W0 i, 0, 64⟩
def DBG_ISL_W1_GATED_NS (i : Nat) : Fref := ⟨DBG_ISL_W1 i, 0, 64⟩
def DBG_ISL_W2_ENERGY_UJ (i : Nat) : Fref := ⟨DBG_ISL_W2 i, 0, 64⟩
def DBG_ISL_W3_TEMP_NOW (i : Nat) : Fref := ⟨DBG_ISL_W3 i, 0, 16⟩
def DBG_ISL_W3_TEMP_MAX (i : Nat) : Fref := ⟨DBG_ISL_W3 i, 16, 16⟩
def DBG_TRACE_CFG_EN : Fref := ⟨DBG_TRACE_CFG, 0, 1⟩
def DBG_TRACE_CFG_WRAP : Fref := ⟨DBG_TRACE_CFG, 1, 1⟩
def DBG_TRACE_CFG_SIZE_LOG2 : Fref := ⟨DBG_TRACE_CFG, 2, 5⟩
def DBG_TRACE_CFG_TRACE_PART : Fref := ⟨DBG_TRACE_CFG, 7, 6⟩
def DBG_TRACE_FILT_ISL_MASK : Fref := ⟨DBG_TRACE_FILT, 0, 38⟩
def DBG_TRACE_KIND_KIND_MASK : Fref := ⟨DBG_TRACE_KIND, 0, 18⟩
def DBG_TRACE_BASE_BASE : Fref := ⟨DBG_TRACE_BASE, 6, 42⟩
def DBG_TRACE_STAT_WR_IDX : Fref := ⟨DBG_TRACE_STAT, 0, 32⟩
def DBG_TRACE_STAT_FROZEN : Fref := ⟨DBG_TRACE_STAT, 32, 1⟩
def DBG_TRACE_STAT_WRAPPED : Fref := ⟨DBG_TRACE_STAT, 33, 1⟩
def DBG_TRACE_STAT_WR_ERR : Fref := ⟨DBG_TRACE_STAT, 34, 1⟩
def DBG_TRACE_LOST_COUNT : Fref := ⟨DBG_TRACE_LOST, 0, 32⟩
def DBG_TRIG_W0_KIND (i : Nat) : Fref := ⟨DBG_TRIG_W0 i, 0, 8⟩
def DBG_TRIG_W0_ISLAND (i : Nat) : Fref := ⟨DBG_TRIG_W0 i, 8, 6⟩
def DBG_TRIG_W0_STATUS (i : Nat) : Fref := ⟨DBG_TRIG_W0 i, 14, 8⟩
def DBG_TRIG_W0_KIND_M (i : Nat) : Fref := ⟨DBG_TRIG_W0 i, 22, 8⟩
def DBG_TRIG_W0_ISL_M (i : Nat) : Fref := ⟨DBG_TRIG_W0 i, 30, 6⟩
def DBG_TRIG_W0_STATUS_M (i : Nat) : Fref := ⟨DBG_TRIG_W0 i, 36, 8⟩
def DBG_TRIG_W1_LAYER_ID (i : Nat) : Fref := ⟨DBG_TRIG_W1 i, 0, 16⟩
def DBG_TRIG_W1_OP_ID (i : Nat) : Fref := ⟨DBG_TRIG_W1 i, 16, 16⟩
def DBG_TRIG_W1_LAYER_M (i : Nat) : Fref := ⟨DBG_TRIG_W1 i, 32, 16⟩
def DBG_TRIG_W1_OP_M (i : Nat) : Fref := ⟨DBG_TRIG_W1 i, 48, 16⟩
def DBG_TRIG_W2_EN (i : Nat) : Fref := ⟨DBG_TRIG_W2 i, 0, 1⟩
def DBG_TRIG_W2_FREEZE (i : Nat) : Fref := ⟨DBG_TRIG_W2 i, 1, 1⟩
def DBG_TRIG_W2_IRQ (i : Nat) : Fref := ⟨DBG_TRIG_W2 i, 2, 1⟩
def DBG_TRIG_W2_SNAP (i : Nat) : Fref := ⟨DBG_TRIG_W2 i, 3, 1⟩
def DBG_TRIG_W2_POST_COUNT (i : Nat) : Fref := ⟨DBG_TRIG_W2 i, 4, 20⟩
def DBG_TRIG_STAT_HIT : Fref := ⟨DBG_TRIG_STAT, 0, 4⟩
def DBG_TRIG_STAT_FIRST : Fref := ⟨DBG_TRIG_STAT, 4, 2⟩
def DBG_TRIG_STAT_TRIG_IDX : Fref := ⟨DBG_TRIG_STAT, 32, 32⟩
def DBG_TRIG_TIME_TRIG_TIME : Fref := ⟨DBG_TRIG_TIME, 0, 64⟩
def DBG_SNAP_CTL_VIEW : Fref := ⟨DBG_SNAP_CTL, 0, 1⟩
def DBG_SNAP_CTL_HELD : Fref := ⟨DBG_SNAP_CTL, 1, 1⟩
def DBG_SNAP_TIME_TIME : Fref := ⟨DBG_SNAP_TIME, 0, 64⟩
def DBG_SNAP_MISSED_COUNT : Fref := ⟨DBG_SNAP_MISSED, 0, 32⟩
def DBG_HANG_CFG_HANG_MS : Fref := ⟨DBG_HANG_CFG, 0, 16⟩
def DBG_HANG_CFG_DUMP_ON_HANG : Fref := ⟨DBG_HANG_CFG, 16, 1⟩
def DBG_HANG_CFG_DUMP_ON_TAKE : Fref := ⟨DBG_HANG_CFG, 17, 1⟩
def DBG_HANG_CFG_DUMP_ON_FAULT : Fref := ⟨DBG_HANG_CFG, 18, 1⟩
def DBG_HANG_CFG_DUMP_NOW : Fref := ⟨DBG_HANG_CFG, 19, 1⟩
def DBG_DUMP_BASE_BASE : Fref := ⟨DBG_DUMP_BASE, 12, 36⟩
def DBG_DUMP_BASE_DUMP_PART : Fref := ⟨DBG_DUMP_BASE, 48, 6⟩
def DBG_DUMP_LEN_LEN : Fref := ⟨DBG_DUMP_LEN, 0, 32⟩
def DBG_DUMP_STAT_VALID : Fref := ⟨DBG_DUMP_STAT, 0, 1⟩
def DBG_DUMP_STAT_CAUSE : Fref := ⟨DBG_DUMP_STAT, 1, 2⟩
def DBG_DUMP_STAT_TRUNC : Fref := ⟨DBG_DUMP_STAT, 3, 1⟩
def DBG_DUMP_MISSED_COUNT : Fref := ⟨DBG_DUMP_MISSED, 0, 32⟩
def DBG_IRQ_VECTOR : Fref := ⟨DBG_IRQ, 0, 11⟩
def DBG_IRQ_EN : Fref := ⟨DBG_IRQ, 11, 1⟩
def DBG_IRQ_TRIG : Fref := ⟨DBG_IRQ, 12, 1⟩
def DBG_IRQ_HANG : Fref := ⟨DBG_IRQ, 13, 1⟩
def DBG_IRQ_DUMP : Fref := ⟨DBG_IRQ, 14, 1⟩
def DBG_RING_SEL_ISLAND : Fref := ⟨DBG_RING_SEL, 0, 6⟩
def DBG_RING_SEL_LATCH : Fref := ⟨DBG_RING_SEL, 6, 1⟩
def DBG_RING_SEL_HEAD : Fref := ⟨DBG_RING_SEL, 8, 6⟩
def PWR_CFG_LAT_TOL_US : Fref := ⟨PWR_CFG, 0, 23⟩
def PWR_CFG_DEEPEST : Fref := ⟨PWR_CFG, 24, 2⟩
def PWR_CFG_IDLE_US : Fref := ⟨PWR_CFG, 32, 16⟩
def PWR_CFG_DARK_MS : Fref := ⟨PWR_CFG, 48, 16⟩
def PWR_STAT_STATE : Fref := ⟨PWR_STAT, 0, 2⟩
def PWR_STAT_GATED : Fref := ⟨PWR_STAT, 8, 38⟩
def PWR_LIM_LIMIT_W : Fref := ⟨PWR_LIM, 0, 8⟩
def PWR_LIM_WIN_S : Fref := ⟨PWR_LIM, 8, 6⟩
def PWR_LIM_SEED_W : Fref := ⟨PWR_LIM, 14, 8⟩
def PWR_LIM_ARR_FLOOR_MHZ : Fref := ⟨PWR_LIM, 22, 10⟩
def PWR_LIM_VCL_FLOOR_MHZ : Fref := ⟨PWR_LIM, 32, 11⟩
def PWR_LIM_LTR_IDLE_US : Fref := ⟨PWR_LIM, 43, 16⟩
def PWR_AVG_AVG_MW : Fref := ⟨PWR_AVG, 0, 20⟩
def PWR_AVG_NOW_MW : Fref := ⟨PWR_AVG, 20, 20⟩
def PWR_AVG_ARR_CAP_MHZ : Fref := ⟨PWR_AVG, 40, 10⟩
def PWR_AVG_VCL_CAP_MHZ : Fref := ⟨PWR_AVG, 50, 11⟩
def THM_CFG_TJ_THROTTLE_C : Fref := ⟨THM_CFG, 0, 8⟩
def PWR_EVT_EMERG : Fref := ⟨PWR_EVT, 0, 1⟩
def PWR_EVT_BURST : Fref := ⟨PWR_EVT, 1, 1⟩
def PWR_EVT_FLOOR : Fref := ⟨PWR_EVT, 2, 1⟩
def PWR_EVT_THERM : Fref := ⟨PWR_EVT, 3, 1⟩
def PWR_EVT_CRIT : Fref := ⟨PWR_EVT, 4, 1⟩
def PWR_EVT_AGE : Fref := ⟨PWR_EVT, 5, 1⟩
def PWR_EVT_DRAM_HOT : Fref := ⟨PWR_EVT, 6, 1⟩
def PWR_IRQ_VECTOR : Fref := ⟨PWR_IRQ, 0, 11⟩
def PWR_IRQ_EN : Fref := ⟨PWR_IRQ, 11, 1⟩
def PWR_HOURS_HOURS : Fref := ⟨PWR_HOURS, 0, 32⟩
def PWR_AGE_CTL_LOAD : Fref := ⟨PWR_AGE_CTL, 0, 1⟩
def PWR_AGE_CTL_RESULT : Fref := ⟨PWR_AGE_CTL, 1, 2⟩
def PWR_ISL_W0_DEGR_PPM (i : Nat) : Fref := ⟨PWR_ISL_W0 i, 0, 20⟩
def PWR_ISL_W0_GUARD_MHZ (i : Nat) : Fref := ⟨PWR_ISL_W0 i, 20, 8⟩
def PWR_ISL_W0_VALID (i : Nat) : Fref := ⟨PWR_ISL_W0 i, 28, 1⟩
def PWR_ISL_W0_THERM_CAP_MHZ (i : Nat) : Fref := ⟨PWR_ISL_W0 i, 29, 11⟩
def PWR_ISL_W1_EOL_HOURS (i : Nat) : Fref := ⟨PWR_ISL_W1 i, 0, 32⟩
def PWR_ISL_W1_CNT_DROOP (i : Nat) : Fref := ⟨PWR_ISL_W1 i, 32, 32⟩
def CAP_CNT_FRAMES_COUNT (i : Nat) : Fref := ⟨CAP_CNT_FRAMES i, 0, 32⟩
def CAP_CNT_DROP_COUNT (i : Nat) : Fref := ⟨CAP_CNT_DROP i, 0, 32⟩
def CAP_CNT_ECC_CORR_COUNT (i : Nat) : Fref := ⟨CAP_CNT_ECC_CORR i, 0, 32⟩
def CAP_CNT_CRC_COUNT (i : Nat) : Fref := ⟨CAP_CNT_CRC i, 0, 32⟩
def CAP_CNT_UNKNOWN_DT_COUNT (i : Nat) : Fref := ⟨CAP_CNT_UNKNOWN_DT i, 0, 32⟩
def CAP_CNT_AUDIO_FRAMES_COUNT (i : Nat) : Fref := ⟨CAP_CNT_AUDIO_FRAMES i, 0, 32⟩
def CAP_CNT_AUDIO_DROP_COUNT (i : Nat) : Fref := ⟨CAP_CNT_AUDIO_DROP i, 0, 32⟩
def CAP_CNT_SLIP_COUNT (i : Nat) : Fref := ⟨CAP_CNT_SLIP i, 0, 32⟩
def GW_CNT_OVERWRITE_COUNT : Fref := ⟨GW_CNT_OVERWRITE, 0, 32⟩
def GW_CNT_DROP_LEN_COUNT : Fref := ⟨GW_CNT_DROP_LEN, 0, 32⟩
def GW_CNT_NO_RX_COUNT : Fref := ⟨GW_CNT_NO_RX, 0, 32⟩
def GW_CNT_ACF_SEQ_COUNT : Fref := ⟨GW_CNT_ACF_SEQ, 0, 32⟩
def GW_CNT_ACF_LATE_COUNT : Fref := ⟨GW_CNT_ACF_LATE, 0, 32⟩
def GW_CNT_ACF_DROP_COUNT : Fref := ⟨GW_CNT_ACF_DROP, 0, 32⟩
def GW_CNT_RTR_COUNT : Fref := ⟨GW_CNT_RTR, 0, 32⟩
def GW_CNT_PSFP_DROP_COUNT : Fref := ⟨GW_CNT_PSFP_DROP, 0, 32⟩
def GW_OWN_PART (i : Nat) : Fref := ⟨GW_OWN i, 0, 6⟩
def DDR_ERR_LOG0_ADDR (i : Nat) : Fref := ⟨DDR_ERR_LOG0 i, 0, 48⟩
def DDR_ERR_LOG0_STATUS (i : Nat) : Fref := ⟨DDR_ERR_LOG0 i, 48, 8⟩
def DDR_ERR_LOG0_PART (i : Nat) : Fref := ⟨DDR_ERR_LOG0 i, 56, 6⟩
def DDR_ERR_LOG0_W (i : Nat) : Fref := ⟨DDR_ERR_LOG0 i, 62, 1⟩
def DDR_ERR_LOG1_TIME (i : Nat) : Fref := ⟨DDR_ERR_LOG1 i, 0, 64⟩
def SAF_FIRST_LOG0_CODE : Fref := ⟨SAF_FIRST_LOG0, 0, 5⟩
def SAF_FIRST_LOG0_INJ : Fref := ⟨SAF_FIRST_LOG0, 5, 1⟩
def SAF_FIRST_LOG0_ISLAND : Fref := ⟨SAF_FIRST_LOG0, 6, 6⟩
def SAF_FIRST_LOG0_DETAIL : Fref := ⟨SAF_FIRST_LOG0, 32, 32⟩
def SAF_FIRST_LOG1_TIME : Fref := ⟨SAF_FIRST_LOG1, 0, 64⟩
def LNT_MB_REQ_DATA (i : Nat) : Fref := ⟨LNT_MB_REQ i, 0, 64⟩
def LNT_MB_RSP_DATA (i : Nat) : Fref := ⟨LNT_MB_RSP i, 0, 64⟩
def PWR_AGE_REC_DATA (i : Nat) : Fref := ⟨PWR_AGE_REC i, 0, 64⟩
def PWR_AGE_LOAD_DATA (i : Nat) : Fref := ⟨PWR_AGE_LOAD i, 0, 64⟩
def DBG_RING_WIN_DATA (i : Nat) (j : Nat) : Fref := ⟨DBG_RING_WIN i j, 0, 64⟩

end Sys2Proof.Machine
end

