-- ==== Sys2Proof/Machine/RegTable.lean ====
section
/-!
DEFINITION. The register tables of every block: per field the bits, access type, reset value and accepted encodings.
-/

namespace Sys2Proof.Machine

/-- The registers of block TOP. -/
def regsTOP : List RegSpec := [
  ⟨"TOP_ID", 0x0, 1, 0, 1, 0, 32, .none, false, [⟨0, 16, .ro, 29984, .any⟩, ⟨16, 8, .ro, Config.stepping, .any⟩]⟩,
  ⟨"TOP_FW_VER", 0x10, 1, 0, 1, 0, 64, .none, false, [⟨0, 8, .ro, 0, .any⟩, ⟨8, 8, .ro, 0, .any⟩, ⟨16, 16, .ro, 0, .any⟩, ⟨32, 8, .ro, 0, .any⟩]⟩,
  ⟨"TOP_HIF_VER", 0x18, 1, 0, 1, 0, 64, .none, false, [⟨0, 16, .ro, 0, .any⟩, ⟨16, 16, .ro, 0, .any⟩, ⟨32, 8, .ro, 0, .any⟩]⟩,
  ⟨"TOP_FW_STAT", 0x28, 1, 0, 1, 0, 32, .none, false, [⟨0, 1, .ro, 0, .any⟩, ⟨1, 1, .ro, 0, .any⟩, ⟨2, 1, .ro, 0, .any⟩, ⟨16, 16, .ro, 0, .any⟩]⟩,
  ⟨"TOP_FMT_CAP", 0x40, 1, 0, 1, 0, 32, .none, false, [⟨0, 15, .ro, 32767, .any⟩, ⟨16, 3, .ro, 7, .any⟩]⟩,
  ⟨"TOP_ERR_UNMAPPED", 0x100, 1, 0, 1, 0, 32, .none, true, [⟨0, 32, .w1c, 0, .any⟩]⟩,
  ⟨"TOP_ERR_ACCESS", 0x104, 1, 0, 1, 0, 32, .none, true, [⟨0, 32, .w1c, 0, .any⟩]⟩,
  ⟨"TOP_MODE_CTRL", 0x200, 1, 0, 1, 0, 32, .none, false, [⟨0, 16, .rw, 0, .any⟩, ⟨16, 8, .rw, 5, .range 1 255⟩, ⟨24, 1, .wo, 0, .any⟩, ⟨25, 1, .wo, 0, .any⟩, ⟨26, 1, .rw, 1, .any⟩]⟩,
  ⟨"TOP_MODE_UNITS", 0x208, 1, 0, 1, 0, 64, .none, false, [⟨0, 64, .rw, 0, .any⟩]⟩,
  ⟨"TOP_MODE_TIME", 0x210, 1, 0, 1, 0, 64, .none, false, [⟨0, 64, .rw, 0, .any⟩]⟩,
  ⟨"TOP_MODE_STATUS", 0x218, 1, 0, 1, 0, 64, .none, false, [⟨0, 2, .ro, 0, .any⟩, ⟨2, 4, .ro, 0, .any⟩, ⟨8, 6, .ro, 63, .any⟩, ⟨16, 6, .ro, 63, .any⟩, ⟨32, 16, .ro, 0, .any⟩, ⟨63, 1, .w1c, 0, .any⟩]⟩,
  ⟨"TOP_MODE_PEERS", 0x220, 1, 0, 1, 0, 64, .none, false, [⟨0, 64, .rw, 0, .any⟩]⟩,
  ⟨"TOP_IRQ", 0x228, 1, 0, 1, 0, 32, .none, false, [⟨0, 11, .rw, 0, .any⟩]⟩,
  ⟨"TOP_ISL_MODE", 0x400, 38, 8, 1, 0, 64, .none, false, [⟨0, 16, .ro, 0, .any⟩, ⟨16, 16, .ro, 0, .any⟩, ⟨32, 1, .ro, 0, .any⟩, ⟨33, 1, .ro, 0, .any⟩, ⟨34, 1, .w1c, 0, .any⟩, ⟨35, 1, .ro, 1, .any⟩]⟩]

/-- The registers of block CMD. -/
def regsCMD : List RegSpec := [
  ⟨"CMD_CQ_BASE", 0x140000, 1024, 32, 1, 0, 64, .none, false, [⟨12, 52, .rw, 0, .any⟩]⟩,
  ⟨"CMD_CQ_CFG", 0x140008, 1024, 32, 1, 0, 32, .none, false, [⟨0, 5, .rw, 4, .range 4 16⟩, ⟨5, 11, .rw, 0, .any⟩, ⟨16, 8, .rw, 0, .any⟩, ⟨24, 5, .rw, 0, .any⟩, ⟨29, 1, .rw, 0, .any⟩]⟩,
  ⟨"CMD_CQ_COAL", 0x14000C, 1024, 32, 1, 0, 32, .none, false, [⟨0, 16, .rw, 0, .any⟩]⟩,
  ⟨"CMD_CQ_PTR", 0x140010, 1024, 32, 1, 0, 64, .none, false, [⟨0, 16, .ro, 0, .any⟩, ⟨16, 16, .ro, 0, .any⟩, ⟨32, 1, .ro, 1, .any⟩, ⟨33, 1, .ro, 0, .any⟩, ⟨34, 1, .w1c, 0, .any⟩, ⟨35, 1, .w1c, 0, .any⟩]⟩,
  ⟨"CMD_SEM", 0x160000, 4096, 8, 1, 0, 64, .none, false, [⟨0, 32, .ro, 0, .any⟩, ⟨32, 1, .rw, 0, .any⟩, ⟨33, 5, .rw, 0, .any⟩, ⟨38, 1, .w1c, 0, .any⟩, ⟨39, 15, .ro, 0, .any⟩]⟩,
  ⟨"CMD_Q_BASE", 0x180000, 16384, 32, 1, 0, 64, .none, false, [⟨12, 52, .rw, 0, .any⟩]⟩,
  ⟨"CMD_Q_CFG", 0x180008, 16384, 32, 1, 0, 32, .none, false, [⟨0, 5, .rw, 4, .range 4 16⟩, ⟨8, 10, .rw, 0, .any⟩, ⟨18, 5, .rw, 0, .any⟩, ⟨24, 1, .rw, 0, .any⟩]⟩,
  ⟨"CMD_Q_LIMIT", 0x18000C, 16384, 32, 1, 0, 32, .none, false, [⟨0, 16, .rw, 0, .any⟩]⟩,
  ⟨"CMD_Q_PTR", 0x180010, 16384, 32, 1, 0, 64, .none, false, [⟨0, 16, .ro, 0, .any⟩, ⟨16, 16, .ro, 0, .any⟩, ⟨32, 3, .ro, 0, .any⟩, ⟨35, 16, .ro, 0, .any⟩]⟩,
  ⟨"CMD_Q_ERR", 0x180018, 16384, 32, 1, 0, 64, .none, false, [⟨0, 1, .w1c, 0, .any⟩, ⟨1, 1, .w1c, 0, .any⟩, ⟨2, 1, .w1c, 0, .any⟩, ⟨3, 1, .w1c, 0, .any⟩, ⟨32, 16, .ro, 0, .any⟩, ⟨63, 1, .wo, 0, .any⟩]⟩]

/-- The registers of block ARR. -/
def regsARR : List RegSpec := [
  ⟨"ARR_CLK_CFG", 0x200000, 4, 65536, 1, 0, 32, .perUnit 0, false, [⟨0, 10, .rw, 750, .any⟩]⟩,
  ⟨"ARR_CLK_STAT", 0x200008, 4, 65536, 1, 0, 32, .none, false, [⟨0, 10, .ro, 750, .any⟩, ⟨10, 10, .ro, Config.arrFmaxFused, .any⟩, ⟨20, 10, .ro, Config.arrFmaxFused, .any⟩]⟩,
  ⟨"ARR_CHK_CFG", 0x200010, 4, 65536, 1, 0, 32, .perUnit 0, false, [⟨0, 5, .rw, 16, .any⟩]⟩,
  ⟨"ARR_STATUS", 0x200018, 4, 65536, 1, 0, 32, .none, false, [⟨0, 1, .ro, 0, .any⟩, ⟨1, 1, .ro, 1, .any⟩, ⟨2, 2, .ro, 1, .any⟩, ⟨4, 8, .ro, 0, .any⟩, ⟨12, 16, .ro, 0, .any⟩]⟩,
  ⟨"ARR_CNT_PASSES", 0x200100, 4, 65536, 1, 0, 64, .none, true, [⟨0, 64, .ro, 0, .any⟩]⟩,
  ⟨"ARR_CNT_ROWS", 0x200108, 4, 65536, 1, 0, 64, .none, true, [⟨0, 64, .ro, 0, .any⟩]⟩,
  ⟨"ARR_CNT_BUSY_CLK", 0x200110, 4, 65536, 1, 0, 64, .none, true, [⟨0, 64, .ro, 0, .any⟩]⟩,
  ⟨"ARR_CNT_LOAD_STALL", 0x200118, 4, 65536, 1, 0, 64, .none, true, [⟨0, 64, .ro, 0, .any⟩]⟩,
  ⟨"ARR_CNT_CHK_RETRY", 0x200120, 4, 65536, 1, 0, 32, .none, true, [⟨0, 32, .w1c, 0, .any⟩]⟩,
  ⟨"ARR_CNT_CHK_FAIL", 0x200124, 4, 65536, 1, 0, 32, .none, true, [⟨0, 32, .w1c, 0, .any⟩]⟩,
  ⟨"ARR_CNT_SAT", 0x200128, 4, 65536, 1, 0, 32, .none, true, [⟨0, 32, .w1c, 0, .any⟩]⟩,
  ⟨"ARR_CNT_ACC_CORR", 0x20012C, 4, 65536, 1, 0, 32, .none, true, [⟨0, 32, .w1c, 0, .any⟩]⟩,
  ⟨"ARR_CNT_NANBLK", 0x200130, 4, 65536, 1, 0, 32, .none, true, [⟨0, 32, .w1c, 0, .any⟩]⟩,
  ⟨"ARR_CNT_UNCHECKED", 0x200134, 4, 65536, 1, 0, 32, .none, true, [⟨0, 32, .w1c, 0, .any⟩]⟩,
  ⟨"ARR_CNT_ACC_UNCORR", 0x200138, 4, 65536, 1, 0, 32, .none, true, [⟨0, 32, .w1c, 0, .any⟩]⟩,
  ⟨"ARR_CHK_LOG0", 0x200140, 4, 65536, 1, 0, 64, .none, false, [⟨0, 10, .ro, 0, .any⟩, ⟨10, 22, .ro, 0, .any⟩, ⟨32, 16, .ro, 0, .any⟩, ⟨48, 16, .ro, 0, .any⟩]⟩,
  ⟨"ARR_CHK_LOG1", 0x200148, 4, 65536, 1, 0, 64, .none, false, [⟨0, 64, .ro, 0, .any⟩]⟩]

/-- The registers of block WIN. -/
def regsWIN : List RegSpec := [
  ⟨"WIN_CFG", 0x300000, 4, 4096, 1, 0, 32, .perUnit 0, false, [⟨0, 1, .rw, 1, .any⟩]⟩,
  ⟨"WIN_STATUS", 0x300008, 4, 4096, 1, 0, 32, .none, false, [⟨0, 1, .ro, 0, .any⟩, ⟨1, 3, .ro, 0, .any⟩, ⟨4, 3, .ro, 0, .any⟩, ⟨8, 16, .ro, 0, .any⟩, ⟨24, 8, .ro, 0, .any⟩]⟩,
  ⟨"WIN_CNT_ROWS", 0x300100, 4, 4096, 1, 0, 64, .none, true, [⟨0, 64, .ro, 0, .any⟩]⟩,
  ⟨"WIN_CNT_PAD", 0x300108, 4, 4096, 1, 0, 64, .none, true, [⟨0, 64, .ro, 0, .any⟩]⟩,
  ⟨"WIN_CNT_RECOMP", 0x300110, 4, 4096, 1, 0, 64, .none, true, [⟨0, 64, .ro, 0, .any⟩]⟩,
  ⟨"WIN_CNT_WINO_TILES", 0x300118, 4, 4096, 1, 0, 64, .none, true, [⟨0, 64, .ro, 0, .any⟩]⟩,
  ⟨"WIN_CNT_DP_OPS", 0x300120, 4, 4096, 1, 0, 64, .none, true, [⟨0, 64, .ro, 0, .any⟩]⟩,
  ⟨"WIN_ERR_LOG0", 0x300140, 4, 4096, 1, 0, 32, .none, false, [⟨0, 8, .ro, 0, .any⟩, ⟨8, 3, .ro, 0, .any⟩, ⟨11, 16, .ro, 0, .any⟩]⟩,
  ⟨"WIN_ERR_LOG1", 0x300148, 4, 4096, 1, 0, 64, .none, false, [⟨0, 64, .ro, 0, .any⟩]⟩]

/-- The registers of block ATT. -/
def regsATT : List RegSpec := [
  ⟨"ATT_CFG", 0x400000, 4, 4096, 1, 0, 32, .perUnit 0, false, [⟨0, 3, .rw, 2, .any⟩, ⟨3, 1, .rw, 1, .any⟩]⟩,
  ⟨"ATT_STATUS", 0x400008, 4, 4096, 1, 0, 32, .none, false, [⟨0, 1, .ro, 0, .any⟩, ⟨1, 3, .ro, 0, .any⟩, ⟨4, 8, .ro, 0, .any⟩, ⟨16, 8, .ro, 0, .any⟩, ⟨24, 8, .ro, 0, .any⟩]⟩,
  ⟨"ATT_LAB_STAT", 0x400010, 4, 4096, 1, 0, 32, .none, false, [⟨0, 6, .ro, 0, .any⟩, ⟨6, 5, .ro, 0, .any⟩, ⟨11, 3, .ro, 0, .any⟩]⟩,
  ⟨"ATT_CNT_BLOCKS", 0x400100, 4, 4096, 1, 0, 64, .none, true, [⟨0, 64, .ro, 0, .any⟩]⟩,
  ⟨"ATT_CNT_SKIPPED", 0x400108, 4, 4096, 1, 0, 64, .none, true, [⟨0, 64, .ro, 0, .any⟩]⟩,
  ⟨"ATT_CNT_ROWS", 0x400110, 4, 4096, 1, 0, 64, .none, true, [⟨0, 64, .ro, 0, .any⟩]⟩,
  ⟨"ATT_CNT_LAB_HIT", 0x400118, 4, 4096, 1, 0, 64, .none, true, [⟨0, 64, .ro, 0, .any⟩]⟩,
  ⟨"ATT_CNT_LAB_MISS", 0x400120, 4, 4096, 1, 0, 64, .none, true, [⟨0, 64, .ro, 0, .any⟩]⟩,
  ⟨"ATT_CNT_PTE_LINES", 0x400128, 4, 4096, 1, 0, 64, .none, true, [⟨0, 64, .ro, 0, .any⟩]⟩,
  ⟨"ATT_CNT_RESCALE", 0x400130, 4, 4096, 1, 0, 64, .none, true, [⟨0, 64, .ro, 0, .any⟩]⟩,
  ⟨"ATT_CNT_EMPTY_ROW", 0x400138, 4, 4096, 1, 0, 64, .none, true, [⟨0, 64, .ro, 0, .any⟩]⟩,
  ⟨"ATT_CNT_REQUANT", 0x400140, 4, 4096, 1, 0, 64, .none, true, [⟨0, 64, .ro, 0, .any⟩]⟩,
  ⟨"ATT_ERR_LOG0", 0x400180, 4, 4096, 1, 0, 64, .none, false, [⟨0, 8, .ro, 0, .any⟩, ⟨8, 8, .ro, 0, .any⟩, ⟨16, 18, .ro, 0, .any⟩]⟩,
  ⟨"ATT_ERR_LOG1", 0x400188, 4, 4096, 1, 0, 64, .none, false, [⟨0, 64, .ro, 0, .any⟩]⟩]

/-- The registers of block SPD. -/
def regsSPD : List RegSpec := [
  ⟨"SPD_CFG", 0x500000, 1, 0, 1, 0, 32, .none, false, [⟨0, 16, .rw, 1000, .zeroOr 100 60000⟩]⟩,
  ⟨"SPD_RES", 0x500008, 1, 0, 1, 0, 32, .none, false, [⟨0, 10, .rw, 0, .any⟩, ⟨10, 10, .rw, 0, .any⟩]⟩,
  ⟨"SPD_OCC", 0x500010, 1, 0, 1, 0, 64, .none, false, [⟨0, 10, .ro, 512, .any⟩, ⟨10, 10, .ro, 0, .any⟩, ⟨20, 10, .ro, 0, .any⟩, ⟨30, 10, .ro, 0, .any⟩, ⟨40, 10, .ro, 0, .any⟩, ⟨50, 10, .ro, 0, .any⟩]⟩,
  ⟨"ACC_OWNER", 0x500040, 4, 8, 1, 0, 64, .none, false, [⟨0, 6, .ro, 0, .any⟩, ⟨6, 1, .ro, 0, .any⟩, ⟨7, 2, .ro, 0, .any⟩, ⟨9, 8, .ro, 0, .any⟩, ⟨17, 1, .ro, 0, .any⟩]⟩,
  ⟨"SPD_CNT_CORR", 0x500100, 1, 0, 1, 0, 32, .none, true, [⟨0, 32, .w1c, 0, .any⟩]⟩,
  ⟨"SPD_CNT_UNCORR", 0x500104, 1, 0, 1, 0, 32, .none, true, [⟨0, 32, .w1c, 0, .any⟩]⟩,
  ⟨"SPD_CNT_TAGV", 0x500108, 1, 0, 1, 0, 32, .none, true, [⟨0, 32, .w1c, 0, .any⟩]⟩,
  ⟨"SPD_CNT_REGV", 0x50010C, 1, 0, 1, 0, 32, .none, true, [⟨0, 32, .w1c, 0, .any⟩]⟩,
  ⟨"SPD_CNT_MISDIR", 0x500110, 1, 0, 1, 0, 32, .none, true, [⟨0, 32, .w1c, 0, .any⟩]⟩,
  ⟨"SPD_CNT_BANK_CONFLICT", 0x500118, 1, 0, 1, 0, 64, .none, true, [⟨0, 64, .ro, 0, .any⟩]⟩,
  ⟨"SPD_CNT_SPILL_BYTES", 0x500120, 1, 0, 1, 0, 64, .none, true, [⟨0, 64, .ro, 0, .any⟩]⟩,
  ⟨"SPD_CNT_RESTORE_BYTES", 0x500128, 1, 0, 1, 0, 64, .none, true, [⟨0, 64, .ro, 0, .any⟩]⟩,
  ⟨"SPD_ERR_LOG0", 0x500140, 1, 0, 1, 0, 64, .none, false, [⟨0, 48, .ro, 0, .any⟩, ⟨48, 8, .ro, 0, .any⟩, ⟨56, 6, .ro, 0, .any⟩, ⟨62, 1, .ro, 0, .any⟩]⟩,
  ⟨"SPD_ERR_LOG1", 0x500148, 1, 0, 1, 0, 64, .none, false, [⟨0, 64, .ro, 0, .any⟩]⟩,
  ⟨"SPD_RGN_ERR", 0x500150, 1, 0, 1, 0, 32, .none, false, [⟨0, 1, .w1c, 0, .any⟩, ⟨1, 7, .ro, 0, .any⟩]⟩,
  ⟨"SPD_CTX_SPILL", 0x501000, 256, 8, 1, 0, 64, .none, false, [⟨12, 36, .rw, 0, .any⟩, ⟨48, 10, .rw, 0, .range 0 512⟩]⟩,
  ⟨"SPD_GRAN", 0x504000, 512, 8, 1, 0, 64, .none, false, [⟨0, 3, .ro, 0, .any⟩, ⟨8, 8, .ro, 0, .any⟩, ⟨16, 6, .ro, 0, .any⟩, ⟨22, 1, .ro, 0, .any⟩, ⟨23, 2, .ro, 0, .any⟩, ⟨25, 9, .ro, 0, .any⟩]⟩,
  ⟨"MEM_RGN_W0", 0x510000, 128, 32, 1, 0, 64, .none, false, [⟨0, 1, .rw, 0, .any⟩, ⟨1, 1, .rw, 0, .any⟩, ⟨2, 1, .rw, 0, .any⟩, ⟨3, 2, .rw, 0, .any⟩, ⟨5, 6, .rw, 0, .any⟩, ⟨12, 36, .rw, 0, .any⟩]⟩,
  ⟨"MEM_RGN_W1", 0x510008, 128, 32, 1, 0, 64, .none, false, [⟨12, 36, .rw, 0, .any⟩]⟩,
  ⟨"MEM_RGN_W2", 0x510010, 128, 32, 1, 0, 64, .none, false, [⟨0, 64, .rw, 0, .any⟩]⟩]

/-- The registers of block DDR. -/
def regsDDR : List RegSpec := [
  ⟨"DDR_CFG", 0x600000, 8, 65536, 1, 0, 32, .none, false, [⟨0, 1, .ro, 0, .any⟩, ⟨1, 2, .ro, 0, .any⟩, ⟨3, 2, .ro, 0, .any⟩, ⟨5, 1, .ro, 0, .any⟩, ⟨6, 1, .ro, 0, .any⟩, ⟨7, 1, .ro, 0, .any⟩, ⟨8, 1, .ro, 0, .any⟩]⟩,
  ⟨"DDR_TIM", 0x600008, 8, 65536, 1, 0, 64, .none, false, [⟨0, 6, .ro, 0, .any⟩, ⟨6, 6, .ro, 0, .any⟩, ⟨12, 6, .ro, 0, .any⟩, ⟨18, 6, .ro, 0, .any⟩, ⟨24, 7, .ro, 0, .any⟩, ⟨32, 10, .ro, 0, .any⟩, ⟨42, 14, .ro, 0, .any⟩]⟩,
  ⟨"DDR_TRAIN", 0x600010, 8, 65536, 1, 0, 32, .none, false, [⟨0, 2, .ro, 0, .any⟩, ⟨2, 3, .ro, 0, .any⟩, ⟨16, 9, .ro, 0, .any⟩]⟩,
  ⟨"DDR_SCRUB", 0x600018, 8, 65536, 1, 0, 32, .none, false, [⟨0, 8, .rw, 24, .range 0 168⟩]⟩,
  ⟨"DDR_CNT_CORR", 0x600100, 8, 65536, 1, 0, 32, .none, true, [⟨0, 32, .w1c, 0, .any⟩]⟩,
  ⟨"DDR_CNT_UNCORR", 0x600104, 8, 65536, 1, 0, 32, .none, true, [⟨0, 32, .w1c, 0, .any⟩]⟩,
  ⟨"DDR_CNT_CAPAR", 0x600108, 8, 65536, 1, 0, 32, .none, true, [⟨0, 32, .w1c, 0, .any⟩]⟩,
  ⟨"DDR_CNT_MISDIR", 0x60010C, 8, 65536, 1, 0, 32, .none, true, [⟨0, 32, .w1c, 0, .any⟩]⟩,
  ⟨"DDR_CNT_TRANSIENT", 0x600110, 8, 65536, 1, 0, 32, .none, true, [⟨0, 32, .w1c, 0, .any⟩]⟩,
  ⟨"DDR_CNT_RD_BYTES", 0x600118, 8, 65536, 1, 0, 64, .none, true, [⟨0, 64, .ro, 0, .any⟩]⟩,
  ⟨"DDR_CNT_WR_BYTES", 0x600120, 8, 65536, 1, 0, 64, .none, true, [⟨0, 64, .ro, 0, .any⟩]⟩,
  ⟨"DDR_CNT_DECOMP_OUT", 0x600128, 8, 65536, 1, 0, 64, .none, true, [⟨0, 64, .ro, 0, .any⟩]⟩,
  ⟨"DDR_ERR_LOG0", 0x600140, 8, 65536, 1, 0, 64, .none, false, [⟨0, 48, .ro, 0, .any⟩, ⟨48, 8, .ro, 0, .any⟩, ⟨56, 6, .ro, 0, .any⟩, ⟨62, 1, .ro, 0, .any⟩]⟩,
  ⟨"DDR_ERR_LOG1", 0x600148, 8, 65536, 1, 0, 64, .none, false, [⟨0, 64, .ro, 0, .any⟩]⟩,
  ⟨"DDR_MAP", 0x608000, 8, 8, 1, 0, 64, .none, false, [⟨0, 1, .ro, 0, .any⟩, ⟨1, 8, .ro, 0, .any⟩, ⟨9, 9, .ro, 0, .any⟩, ⟨18, 9, .ro, 0, .any⟩, ⟨27, 6, .ro, 0, .any⟩]⟩]

/-- The registers of block VEC. -/
def regsVEC : List RegSpec := [
  ⟨"VEC_CLK_CFG", 0x700000, 4, 65536, 1, 0, 32, .perUnit 4, false, [⟨0, 11, .rw, 1200, .any⟩]⟩,
  ⟨"VEC_CLK_STAT", 0x700008, 4, 65536, 1, 0, 64, .none, false, [⟨0, 11, .ro, 1200, .any⟩, ⟨11, 11, .ro, Config.vclFmaxFused, .any⟩, ⟨32, 11, .ro, Config.vclFmaxFused, .any⟩]⟩,
  ⟨"VEC_STATUS", 0x700010, 4, 65536, 1, 0, 32, .none, false, [⟨0, 1, .ro, 1, .any⟩, ⟨1, 8, .ro, 0, .any⟩, ⟨9, 8, .ro, 0, .any⟩, ⟨17, 7, .ro, 0, .any⟩]⟩,
  ⟨"VEC_ISA", 0x700018, 1, 0, 1, 0, 32, .none, false, [⟨0, 8, .ro, 1, .any⟩, ⟨8, 8, .ro, 0, .any⟩]⟩,
  ⟨"VEC_CNT_ISSUE", 0x700100, 4, 65536, 1, 0, 64, .none, true, [⟨0, 64, .ro, 0, .any⟩]⟩,
  ⟨"VEC_CNT_LANES", 0x700108, 4, 65536, 1, 0, 64, .none, true, [⟨0, 64, .ro, 0, .any⟩]⟩,
  ⟨"VEC_CNT_LM_CONFLICT", 0x700110, 4, 65536, 1, 0, 64, .none, true, [⟨0, 64, .ro, 0, .any⟩]⟩,
  ⟨"VEC_CNT_DEV_RD", 0x700118, 4, 65536, 1, 0, 64, .none, true, [⟨0, 64, .ro, 0, .any⟩]⟩,
  ⟨"VEC_CNT_DEV_WR", 0x700120, 4, 65536, 1, 0, 64, .none, true, [⟨0, 64, .ro, 0, .any⟩]⟩,
  ⟨"VEC_CNT_TEXEL", 0x700128, 4, 65536, 1, 0, 64, .none, true, [⟨0, 64, .ro, 0, .any⟩]⟩,
  ⟨"VEC_CNT_ICACHE_MISS", 0x700130, 4, 65536, 1, 0, 64, .none, true, [⟨0, 64, .ro, 0, .any⟩]⟩,
  ⟨"VEC_CNT_CORR", 0x700138, 4, 65536, 1, 0, 32, .none, true, [⟨0, 32, .w1c, 0, .any⟩]⟩,
  ⟨"VEC_CNT_TRAP", 0x70013C, 4, 65536, 1, 0, 32, .none, true, [⟨0, 32, .w1c, 0, .any⟩]⟩,
  ⟨"VEC_ERR_LOG0", 0x700140, 4, 65536, 1, 0, 64, .none, false, [⟨0, 40, .ro, 0, .any⟩, ⟨40, 8, .ro, 0, .any⟩, ⟨48, 8, .ro, 0, .any⟩]⟩,
  ⟨"VEC_ERR_LOG1", 0x700148, 4, 65536, 1, 0, 64, .none, false, [⟨0, 64, .ro, 0, .any⟩]⟩,
  ⟨"VEC_CTX_SLOTS", 0x702000, 256, 8, 1, 0, 32, .none, false, [⟨0, 4, .ro, 0, .any⟩, ⟨4, 7, .ro, 0, .any⟩, ⟨11, 4, .ro, 0, .any⟩]⟩]

/-- The registers of block GFX. -/
def regsGFX : List RegSpec := [
  ⟨"GFX_CFG", 0x800000, 4, 65536, 1, 0, 32, .perUnit 4, false, [⟨0, 1, .rw, 1, .any⟩]⟩,
  ⟨"GFX_STATUS", 0x800008, 4, 65536, 1, 0, 32, .none, false, [⟨0, 1, .ro, 1, .any⟩, ⟨1, 1, .ro, 0, .any⟩, ⟨2, 3, .ro, 0, .any⟩, ⟨5, 4, .ro, 0, .any⟩, ⟨9, 8, .ro, 0, .any⟩]⟩,
  ⟨"GFX_CNT_PRIMS", 0x800100, 4, 65536, 1, 0, 64, .none, true, [⟨0, 64, .ro, 0, .any⟩]⟩,
  ⟨"GFX_CNT_CULLED", 0x800108, 4, 65536, 1, 0, 64, .none, true, [⟨0, 64, .ro, 0, .any⟩]⟩,
  ⟨"GFX_CNT_TILES", 0x800110, 4, 65536, 1, 0, 64, .none, true, [⟨0, 64, .ro, 0, .any⟩]⟩,
  ⟨"GFX_CNT_PIX_RAST", 0x800118, 4, 65536, 1, 0, 64, .none, true, [⟨0, 64, .ro, 0, .any⟩]⟩,
  ⟨"GFX_CNT_PIX_SHADED", 0x800120, 4, 65536, 1, 0, 64, .none, true, [⟨0, 64, .ro, 0, .any⟩]⟩,
  ⟨"GFX_CNT_TEX_L2_MISS", 0x800128, 4, 65536, 1, 0, 64, .none, true, [⟨0, 64, .ro, 0, .any⟩]⟩,
  ⟨"GFX_CNT_FLUSH", 0x800130, 4, 65536, 1, 0, 32, .none, true, [⟨0, 32, .w1c, 0, .any⟩]⟩,
  ⟨"GFX_CNT_TILE_CORR", 0x800134, 4, 65536, 1, 0, 32, .none, true, [⟨0, 32, .w1c, 0, .any⟩]⟩,
  ⟨"GFX_ERR_LOG0", 0x800140, 4, 65536, 1, 0, 64, .none, false, [⟨0, 48, .ro, 0, .any⟩, ⟨48, 8, .ro, 0, .any⟩, ⟨56, 8, .ro, 0, .any⟩]⟩,
  ⟨"GFX_ERR_LOG1", 0x800148, 4, 65536, 1, 0, 64, .none, false, [⟨0, 64, .ro, 0, .any⟩]⟩]

/-- The registers of block DISP. -/
def regsDISP : List RegSpec := [
  ⟨"DISP_TIM_H", 0x900000, 4, 4096, 1, 0, 64, .island 32, false, [⟨0, 14, .rw, 0, .any⟩, ⟨14, 12, .rw, 0, .any⟩, ⟨26, 12, .rw, 0, .any⟩, ⟨38, 12, .rw, 0, .any⟩, ⟨50, 1, .rw, 0, .any⟩]⟩,
  ⟨"DISP_TIM_V", 0x900008, 4, 4096, 1, 0, 64, .island 32, false, [⟨0, 14, .rw, 0, .any⟩, ⟨14, 12, .rw, 0, .any⟩, ⟨26, 12, .rw, 0, .any⟩, ⟨38, 12, .rw, 0, .any⟩, ⟨50, 1, .rw, 0, .any⟩]⟩,
  ⟨"DISP_TIM_CLK", 0x900010, 4, 4096, 1, 0, 32, .island 32, false, [⟨0, 20, .rw, 0, .any⟩, ⟨20, 2, .rw, 0, .range 0 2⟩, ⟨22, 2, .rw, 0, .any⟩, ⟨24, 1, .rw, 0, .any⟩, ⟨25, 1, .rw, 0, .any⟩]⟩,
  ⟨"DISP_CFG", 0x900018, 4, 4096, 1, 0, 32, .none, false, [⟨0, 16, .rw, 500, .range 1 65535⟩, ⟨16, 6, .rwl, 0, .any⟩, ⟨22, 4, .rw, 2, .range 1 15⟩, ⟨31, 1, .rwl, 0, .any⟩]⟩,
  ⟨"DISP_COLOUR", 0x900020, 4, 4096, 1, 0, 64, .none, false, [⟨0, 30, .rw, 0, .any⟩, ⟨32, 30, .rw, 0, .any⟩]⟩,
  ⟨"DISP_STAT", 0x900028, 4, 4096, 1, 0, 64, .none, false, [⟨0, 1, .ro, 0, .any⟩, ⟨1, 2, .ro, 0, .any⟩, ⟨3, 1, .ro, 1, .any⟩, ⟨4, 1, .w1c, 0, .any⟩, ⟨32, 32, .ro, 0, .any⟩]⟩,
  ⟨"DISP_CNT_HELD", 0x900100, 4, 4096, 1, 0, 32, .none, true, [⟨0, 32, .w1c, 0, .any⟩]⟩,
  ⟨"DISP_CNT_UNDERFLOW", 0x900104, 4, 4096, 1, 0, 32, .none, true, [⟨0, 32, .w1c, 0, .any⟩]⟩,
  ⟨"DISP_CNT_POISON", 0x900108, 4, 4096, 1, 0, 32, .none, true, [⟨0, 32, .w1c, 0, .any⟩]⟩,
  ⟨"DISP_CNT_CRC_FAIL", 0x90010C, 4, 4096, 1, 0, 32, .none, true, [⟨0, 32, .w1c, 0, .any⟩]⟩,
  ⟨"DISP_CRC_STAT", 0x900110, 4, 4096, 1, 0, 32, .none, false, [⟨0, 16, .w1c, 0, .any⟩]⟩,
  ⟨"DISP_CRC_VAL", 0x900200, 4, 4096, 16, 8, 64, .none, false, [⟨0, 32, .ro, 0, .any⟩, ⟨32, 32, .ro, 0, .any⟩]⟩]

/-- The registers of block CAP. -/
def regsCAP : List RegSpec := [
  ⟨"CAP_CSI_CFG", 0xA00000, 8, 4096, 1, 0, 32, .island 32, false, [⟨0, 1, .rw, 0, .any⟩, ⟨1, 2, .rw, 0, .any⟩, ⟨3, 12, .rw, 0, .any⟩, ⟨15, 1, .rw, 0, .any⟩, ⟨16, 6, .rw, 0, .any⟩]⟩,
  ⟨"CAP_CNT_FRAMES", 0xA00100, 8, 4096, 1, 0, 32, .none, true, [⟨0, 32, .w1c, 0, .any⟩]⟩,
  ⟨"CAP_CNT_DROP", 0xA00104, 8, 4096, 1, 0, 32, .none, true, [⟨0, 32, .w1c, 0, .any⟩]⟩,
  ⟨"CAP_CNT_ECC_CORR", 0xA00108, 8, 4096, 1, 0, 32, .none, true, [⟨0, 32, .w1c, 0, .any⟩]⟩,
  ⟨"CAP_CNT_CRC", 0xA0010C, 8, 4096, 1, 0, 32, .none, true, [⟨0, 32, .w1c, 0, .any⟩]⟩,
  ⟨"CAP_CNT_UNKNOWN_DT", 0xA00110, 8, 4096, 1, 0, 32, .none, true, [⟨0, 32, .w1c, 0, .any⟩]⟩,
  ⟨"CAP_TDM_CFG", 0xA08000, 4, 4096, 1, 0, 32, .island 32, false, [⟨0, 1, .rw, 0, .any⟩, ⟨1, 1, .rw, 0, .any⟩, ⟨2, 5, .rw, 8, .any⟩, ⟨7, 2, .rw, 3, .any⟩, ⟨9, 6, .rw, 0, .any⟩]⟩,
  ⟨"CAP_CNT_AUDIO_FRAMES", 0xA08100, 4, 4096, 1, 0, 32, .none, true, [⟨0, 32, .w1c, 0, .any⟩]⟩,
  ⟨"CAP_CNT_AUDIO_DROP", 0xA08104, 4, 4096, 1, 0, 32, .none, true, [⟨0, 32, .w1c, 0, .any⟩]⟩,
  ⟨"CAP_CNT_SLIP", 0xA08108, 4, 4096, 1, 0, 32, .none, true, [⟨0, 32, .w1c, 0, .any⟩]⟩]

/-- The registers of block SCH. -/
def regsSCH : List RegSpec := [
  ⟨"SCH_CFG", 0xB00000, 1, 0, 1, 0, 64, .island 36, false, [⟨0, 17, .rw, 10000, .any⟩, ⟨17, 17, .rw, 0, .any⟩, ⟨34, 10, .rw, 50, .any⟩, ⟨44, 1, .rw, 0, .any⟩]⟩,
  ⟨"SCH_DWIN", 0xB00100, 4, 8, 1, 0, 64, .island 36, false, [⟨0, 1, .rw, 0, .any⟩, ⟨1, 6, .rw, 0, .any⟩, ⟨7, 8, .rw, 0, .any⟩, ⟨15, 16, .rw, 0, .any⟩]⟩,
  ⟨"SCH_CNT_STOPS", 0xB00200, 1, 0, 1, 0, 64, .none, true, [⟨0, 64, .ro, 0, .any⟩]⟩,
  ⟨"SCH_CNT_ACC_BLOCK", 0xB00208, 1, 0, 1, 0, 32, .none, true, [⟨0, 32, .w1c, 0, .any⟩]⟩,
  ⟨"SCH_CNT_DWIN_DENIED", 0xB0020C, 1, 0, 1, 0, 32, .none, true, [⟨0, 32, .w1c, 0, .any⟩]⟩,
  ⟨"SCH_CNT_DEFERRED", 0xB00210, 1, 0, 1, 0, 32, .none, true, [⟨0, 32, .w1c, 0, .any⟩]⟩,
  ⟨"SCH_CNT_SWITCH", 0xB00214, 1, 0, 1, 0, 32, .none, true, [⟨0, 32, .w1c, 0, .any⟩]⟩,
  ⟨"SCH_CNT_PRED_MISS", 0xB00218, 1, 0, 1, 0, 32, .none, true, [⟨0, 32, .w1c, 0, .any⟩]⟩,
  ⟨"SCH_SWITCH_LOG0", 0xB00240, 1, 0, 1, 0, 64, .none, false, [⟨0, 8, .ro, 0, .any⟩, ⟨8, 16, .ro, 0, .any⟩, ⟨24, 32, .ro, 0, .any⟩]⟩,
  ⟨"SCH_SWITCH_LOG1", 0xB00248, 1, 0, 1, 0, 64, .none, false, [⟨0, 64, .ro, 0, .any⟩]⟩,
  ⟨"SCH_CTX_CFG", 0xB01000, 256, 16, 1, 0, 64, .none, false, [⟨0, 5, .rw, 0, .any⟩, ⟨5, 6, .rw, 0, .any⟩, ⟨11, 2, .rw, 0, .any⟩, ⟨13, 3, .rw, 0, .any⟩, ⟨16, 10, .rw, 0, .any⟩, ⟨26, 4, .rw, 0, .any⟩, ⟨30, 4, .rw, 0, .any⟩, ⟨34, 7, .rw, 0, .any⟩, ⟨41, 4, .rw, 0, .any⟩, ⟨45, 2, .wo, 0, .any⟩]⟩,
  ⟨"SCH_CTX_STAT", 0xB01008, 256, 16, 1, 0, 64, .none, false, [⟨0, 3, .ro, 0, .any⟩, ⟨3, 4, .ro, 0, .any⟩, ⟨8, 9, .ro, 0, .any⟩, ⟨32, 16, .ro, 0, .any⟩]⟩,
  ⟨"SCH_WIN", 0xB04000, 8, 256, 32, 8, 64, .island 36, false, [⟨0, 17, .rw, 0, .any⟩, ⟨17, 17, .rw, 0, .any⟩, ⟨34, 6, .rw, 0, .any⟩, ⟨40, 1, .rw, 0, .any⟩, ⟨41, 1, .rw, 0, .any⟩]⟩,
  ⟨"SCH_JOB_W0", 0xB08000, 256, 32, 1, 0, 64, .none, false, [⟨0, 14, .rw, 0, .any⟩, ⟨14, 14, .rw, 0, .any⟩, ⟨28, 16, .rw, 0, .any⟩, ⟨44, 12, .rw, 0, .any⟩, ⟨56, 8, .rw, 0, .any⟩]⟩,
  ⟨"SCH_JOB_W1", 0xB08008, 256, 32, 1, 0, 64, .none, false, [⟨0, 32, .rw, 0, .any⟩, ⟨32, 32, .rw, 0, .any⟩]⟩,
  ⟨"SCH_JOB_W2", 0xB08010, 256, 32, 1, 0, 64, .none, false, [⟨0, 8, .rw, 10, .any⟩, ⟨8, 1, .rw, 0, .any⟩, ⟨9, 1, .rw, 0, .any⟩]⟩,
  ⟨"SCH_JOB_W3", 0xB08018, 256, 32, 1, 0, 64, .none, false, [⟨0, 4, .ro, 0, .any⟩, ⟨4, 32, .ro, 0, .any⟩, ⟨36, 2, .ro, 0, .any⟩, ⟨38, 16, .ro, 0, .any⟩]⟩]

/-- The registers of block QOS. -/
def regsQOS : List RegSpec := [
  ⟨"QOS_CFG", 0xC00000, 1, 0, 1, 0, 32, .island 36, false, [⟨0, 10, .rw, 100, .any⟩]⟩,
  ⟨"QOS_STAT", 0xC00008, 1, 0, 1, 0, 64, .none, false, [⟨0, 24, .ro, 0, .any⟩, ⟨24, 24, .ro, 0, .any⟩, ⟨48, 1, .ro, 0, .any⟩]⟩,
  ⟨"QOS_IRQ", 0xC00010, 1, 0, 1, 0, 32, .none, false, [⟨0, 11, .rw, 0, .any⟩, ⟨11, 1, .rw, 0, .any⟩, ⟨12, 1, .w1c, 0, .any⟩, ⟨13, 1, .w1c, 0, .any⟩]⟩,
  ⟨"QOS_MISS_LOG0", 0xC00040, 1, 0, 1, 0, 64, .none, false, [⟨0, 7, .ro, 0, .any⟩, ⟨7, 2, .ro, 0, .any⟩, ⟨9, 24, .ro, 0, .any⟩, ⟨33, 24, .ro, 0, .any⟩]⟩,
  ⟨"QOS_MISS_LOG1", 0xC00048, 1, 0, 1, 0, 64, .none, false, [⟨0, 64, .ro, 0, .any⟩]⟩,
  ⟨"QOS_CNT_MISS", 0xC00050, 1, 0, 1, 0, 32, .none, true, [⟨0, 32, .w1c, 0, .any⟩]⟩,
  ⟨"QOS_PART", 0xC00100, 64, 8, 1, 0, 64, .none, false, [⟨0, 1, .rw, 0, .any⟩, ⟨1, 2, .rw, 0, .range 0 2⟩, ⟨3, 1, .srw, 0, .any⟩, ⟨4, 5, .rw, 0, .any⟩]⟩,
  ⟨"QOS_PORT", 0xC01000, 75, 32, 3, 8, 64, .island 36, false, [⟨0, 24, .rw, 16777215, .not 0⟩, ⟨32, 24, .rw, 0, .any⟩]⟩,
  ⟨"QOS_PORT_CTL", 0xC01018, 75, 32, 1, 0, 64, .none, false, [⟨0, 2, .rw, 0, .range 0 2⟩, ⟨2, 1, .ro, 0, .any⟩]⟩,
  ⟨"QOS_PORT_STAT", 0xC04000, 75, 8, 1, 0, 64, .none, true, [⟨0, 3, .ro, 0, .any⟩, ⟨8, 8, .w1c, 0, .any⟩, ⟨16, 8, .w1c, 0, .any⟩, ⟨24, 8, .w1c, 0, .any⟩]⟩,
  ⟨"QOS_PORT_BYTES", 0xC05000, 75, 8, 1, 0, 64, .none, true, [⟨0, 64, .ro, 0, .any⟩]⟩,
  ⟨"QOS_PORT_HOLDWIN", 0xC05400, 75, 8, 1, 0, 64, .none, true, [⟨0, 64, .ro, 0, .any⟩]⟩]

/-- The registers of block VIRT. -/
def regsVIRT : List RegSpec := [
  ⟨"VIRT_CFG", 0xD00000, 1, 0, 1, 0, 32, .none, false, [⟨0, 11, .rw, 0, .any⟩, ⟨11, 1, .rw, 0, .any⟩, ⟨12, 5, .ro, 0, .any⟩]⟩,
  ⟨"FN_INFO", 0xD00800, 32, 33554432, 1, 0, 64, .none, false, [⟨0, 11, .ro, 0, .any⟩, ⟨11, 11, .ro, 0, .any⟩, ⟨22, 9, .ro, 0, .any⟩, ⟨31, 12, .ro, 0, .any⟩, ⟨43, 13, .ro, 0, .any⟩]⟩,
  ⟨"FN_HB", 0xD00808, 32, 33554432, 1, 0, 32, .none, false, [⟨0, 32, .wo, 0, .any⟩]⟩,
  ⟨"FN_EVT", 0xD00810, 32, 33554432, 1, 0, 32, .none, false, [⟨0, 1, .w1c, 0, .any⟩, ⟨1, 1, .w1c, 0, .any⟩, ⟨2, 1, .w1c, 0, .any⟩, ⟨3, 1, .w1c, 0, .any⟩]⟩,
  ⟨"FN_EVT_CFG", 0xD00818, 32, 33554432, 1, 0, 32, .none, false, [⟨0, 11, .rw, 0, .any⟩, ⟨11, 1, .rw, 0, .any⟩]⟩,
  ⟨"FN_STATE", 0xD00820, 32, 33554432, 1, 0, 32, .none, false, [⟨0, 1, .ro, 0, .any⟩, ⟨1, 1, .ro, 0, .any⟩, ⟨2, 1, .ro, 0, .any⟩]⟩,
  ⟨"VIRT_FN_W0", 0xD01000, 32, 128, 1, 0, 64, .none, false, [⟨0, 14, .rw, 0, .any⟩, ⟨14, 11, .rw, 0, .range 0 1024⟩, ⟨25, 10, .rw, 0, .any⟩, ⟨35, 11, .rw, 0, .range 0 1024⟩]⟩,
  ⟨"VIRT_FN_W1", 0xD01008, 32, 128, 1, 0, 64, .none, false, [⟨0, 12, .rw, 0, .any⟩, ⟨12, 13, .rw, 0, .range 0 4096⟩, ⟨25, 8, .rw, 0, .any⟩, ⟨33, 9, .rw, 0, .range 0 256⟩]⟩,
  ⟨"VIRT_FN_W2", 0xD01010, 32, 128, 1, 0, 64, .none, false, [⟨0, 11, .rw, 0, .any⟩, ⟨11, 12, .rw, 0, .range 0 1984⟩, ⟨23, 10, .rw, 0, .range 0 512⟩]⟩,
  ⟨"VIRT_FN_W3", 0xD01018, 32, 128, 1, 0, 64, .none, false, [⟨0, 32, .rw, 0, .any⟩, ⟨32, 16, .rw, 0, .any⟩, ⟨48, 4, .rw, 1, .range 1 15⟩, ⟨52, 1, .rw, 0, .any⟩]⟩,
  ⟨"VIRT_FN_W4", 0xD01020, 32, 128, 1, 0, 64, .none, false, [⟨0, 1, .wo, 0, .any⟩, ⟨1, 1, .wo, 0, .any⟩]⟩,
  ⟨"VIRT_FN_W5", 0xD01028, 32, 128, 1, 0, 64, .none, false, [⟨0, 1, .ro, 0, .any⟩, ⟨1, 1, .ro, 0, .any⟩, ⟨2, 1, .ro, 0, .any⟩, ⟨3, 1, .ro, 0, .any⟩, ⟨4, 1, .w1c, 0, .any⟩, ⟨8, 10, .ro, 0, .any⟩]⟩,
  ⟨"VIRT_FN_W6", 0xD01030, 32, 128, 1, 0, 64, .none, false, [⟨0, 1, .rw, 0, .any⟩, ⟨1, 1, .wo, 0, .any⟩, ⟨2, 1, .ro, 0, .any⟩, ⟨3, 1, .ro, 0, .any⟩, ⟨4, 1, .w1c, 0, .any⟩, ⟨8, 6, .rw, 12, .range 12 36⟩]⟩,
  ⟨"VIRT_FN_W7", 0xD01038, 32, 128, 1, 0, 64, .none, false, [⟨12, 52, .rw, 0, .any⟩]⟩,
  ⟨"VIRT_FN_BMAP", 0xD01040, 32, 128, 2, 8, 64, .none, false, [⟨12, 52, .rw, 0, .any⟩]⟩,
  ⟨"VIRT_FN_W10", 0xD01050, 32, 128, 1, 0, 64, .none, true, [⟨0, 64, .ro, 0, .any⟩]⟩]

/-- The registers of block SAF. -/
def regsSAF : List RegSpec := [
  ⟨"SAF_CFG", 0xE00000, 1, 0, 1, 0, 32, .island 36, false, [⟨0, 9, .rw, 100, .any⟩, ⟨9, 10, .rw, 40, .any⟩, ⟨19, 10, .rw, 10, .any⟩]⟩,
  ⟨"SAF_CTL", 0xE00008, 1, 0, 1, 0, 64, .none, false, [⟨0, 3, .rwl, 3, .range 1 7⟩, ⟨3, 8, .rwl, 16, .range 1 255⟩, ⟨11, 16, .rwl, 1000, .range 1 65535⟩, ⟨27, 4, .rwl, 3, .range 1 15⟩, ⟨31, 12, .rwl, 100, .range 1 4095⟩, ⟨43, 1, .rwl, 0, .any⟩, ⟨44, 1, .rwl, 1, .any⟩, ⟨63, 1, .rwl, 0, .any⟩]⟩,
  ⟨"SAF_REACT", 0xE00010, 1, 0, 1, 0, 64, .none, false, [⟨0, 36, .rwl, 67489397152, .any⟩]⟩,
  ⟨"SAF_STATUS", 0xE00018, 1, 0, 1, 0, 64, .none, false, [⟨0, 1, .ro, 0, .any⟩, ⟨1, 1, .ro, 0, .any⟩, ⟨2, 1, .ro, 0, .any⟩, ⟨3, 1, .ro, 0, .any⟩, ⟨4, 3, .ro, 0, .any⟩, ⟨32, 32, .ro, 0, .any⟩]⟩,
  ⟨"SAF_EVT", 0xE00020, 1, 0, 1, 0, 32, .none, false, [⟨0, 18, .w1c, 0, .any⟩]⟩,
  ⟨"SAF_IRQ", 0xE00028, 1, 0, 1, 0, 32, .none, false, [⟨0, 11, .rw, 0, .any⟩, ⟨11, 1, .rw, 0, .any⟩]⟩,
  ⟨"SAF_GT_VER", 0xE00030, 1, 0, 1, 0, 32, .none, false, [⟨0, 32, .ro, 0, .any⟩]⟩,
  ⟨"SAF_EVT_LOG0", 0xE00040, 1, 0, 1, 0, 64, .none, false, [⟨0, 5, .ro, 0, .any⟩, ⟨5, 1, .ro, 0, .any⟩, ⟨6, 6, .ro, 63, .any⟩, ⟨32, 32, .ro, 0, .any⟩]⟩,
  ⟨"SAF_EVT_LOG1", 0xE00048, 1, 0, 1, 0, 64, .none, false, [⟨0, 64, .ro, 0, .any⟩]⟩,
  ⟨"SAF_FIRST_LOG0", 0xE00050, 1, 0, 1, 0, 64, .none, false, [⟨0, 5, .ro, 0, .any⟩, ⟨5, 1, .ro, 0, .any⟩, ⟨6, 6, .ro, 63, .any⟩, ⟨32, 32, .ro, 0, .any⟩]⟩,
  ⟨"SAF_FIRST_LOG1", 0xE00058, 1, 0, 1, 0, 64, .none, false, [⟨0, 64, .ro, 0, .any⟩]⟩,
  ⟨"SAF_CNT", 0xE00100, 18, 4, 1, 0, 32, .none, true, [⟨0, 32, .w1c, 0, .any⟩]⟩,
  ⟨"SAF_GT_STAT", 0xE00200, 8, 8, 1, 0, 64, .none, false, [⟨0, 2, .ro, 0, .any⟩, ⟨16, 16, .ro, 0, .any⟩, ⟨32, 32, .ro, 0, .any⟩]⟩,
  ⟨"SAF_CHK_HIST", 0xE00300, 4, 8, 1, 0, 64, .none, false, [⟨0, 4, .ro, 0, .any⟩, ⟨32, 32, .ro, 0, .any⟩]⟩]

/-- The registers of block LNT. -/
def regsLNT : List RegSpec := [
  ⟨"LNT_MB_CTL", 0xF00000, 1, 0, 1, 0, 32, .none, false, [⟨0, 1, .wo, 0, .any⟩, ⟨1, 1, .ro, 0, .any⟩, ⟨2, 1, .w1c, 0, .any⟩, ⟨3, 1, .rw, 0, .any⟩, ⟨4, 16, .rw, 0, .any⟩, ⟨20, 11, .rw, 0, .any⟩]⟩,
  ⟨"LNT_INFO", 0xF00008, 1, 0, 1, 0, 32, .none, false, [⟨0, 2, .ro, Config.lifecycle, .any⟩, ⟨2, 2, .ro, 0, .any⟩, ⟨4, 1, .ro, 0, .any⟩]⟩,
  ⟨"LNT_SEC_ISL", 0xF00010, 1, 0, 1, 0, 64, .none, false, [⟨0, 38, .ro, 0, .any⟩]⟩,
  ⟨"LNT_TAMPER", 0xF00018, 1, 0, 1, 0, 32, .none, false, [⟨0, 1, .ro, 0, .any⟩, ⟨1, 1, .ro, 0, .any⟩, ⟨2, 1, .ro, 0, .any⟩, ⟨3, 1, .ro, 0, .any⟩, ⟨4, 1, .ro, 0, .any⟩, ⟨5, 1, .ro, 0, .any⟩]⟩,
  ⟨"LNT_RST_CAUSE", 0xF00020, 1, 0, 1, 0, 32, .none, false, [⟨0, 1, .ro, 1, .any⟩, ⟨1, 1, .ro, 0, .any⟩]⟩,
  ⟨"LNT_SWDG", 0xF00028, 1, 0, 1, 0, 32, .none, false, [⟨0, 14, .srw, 1000, .any⟩, ⟨16, 16, .ro, 0, .any⟩]⟩,
  ⟨"LNT_SEC_EVT_CNT", 0xF00030, 1, 0, 1, 0, 32, .none, false, [⟨0, 32, .w1c, 0, .any⟩]⟩,
  ⟨"LNT_SEC_EVT_LOG0", 0xF00040, 1, 0, 1, 0, 64, .none, false, [⟨0, 26, .ro, 0, .any⟩, ⟨26, 2, .ro, 0, .any⟩, ⟨28, 4, .ro, 0, .any⟩, ⟨32, 6, .ro, 63, .any⟩]⟩,
  ⟨"LNT_SEC_EVT_LOG1", 0xF00048, 1, 0, 1, 0, 64, .none, false, [⟨0, 64, .ro, 0, .any⟩]⟩,
  ⟨"LNT_MB_REQ", 0xF01000, 512, 8, 1, 0, 64, .none, false, [⟨0, 64, .rw, 0, .any⟩]⟩,
  ⟨"LNT_MB_RSP", 0xF04000, 2048, 8, 1, 0, 64, .none, false, [⟨0, 64, .ro, 0, .any⟩]⟩,
  ⟨"LNT_SQ", 0xF08000, 256, 8, 1, 0, 64, .none, false, [⟨0, 64, .srw, 0, .any⟩]⟩]

/-- The registers of block KPR. -/
def regsKPR : List RegSpec := [
  ⟨"KPR_PAIR_STAT", 0x1000000, 4, 8, 1, 0, 64, .none, false, [⟨0, 3, .ro, 1, .any⟩, ⟨3, 9, .ro, 0, .any⟩, ⟨12, 16, .ro, 0, .any⟩]⟩,
  ⟨"KPR_QOWN", 0x1000100, 8, 8, 1, 0, 64, .none, false, [⟨0, 64, .ro, 0, .any⟩]⟩,
  ⟨"KPR_TAKE_LOG0", 0x1000200, 1, 0, 1, 0, 64, .none, false, [⟨0, 2, .ro, 0, .any⟩, ⟨2, 2, .ro, 0, .any⟩, ⟨4, 2, .ro, 0, .any⟩, ⟨6, 9, .ro, 0, .any⟩, ⟨32, 32, .ro, 0, .any⟩]⟩,
  ⟨"KPR_TAKE_LOG1", 0x1000208, 1, 0, 1, 0, 64, .none, false, [⟨0, 64, .ro, 0, .any⟩]⟩,
  ⟨"KPR_CNT_TAKEOVER", 0x1000210, 1, 0, 1, 0, 32, .none, true, [⟨0, 32, .w1c, 0, .any⟩]⟩,
  ⟨"KPR_CNT_SVC_DISCARD", 0x1000214, 1, 0, 1, 0, 32, .none, true, [⟨0, 32, .w1c, 0, .any⟩]⟩,
  ⟨"KPR_CNT_SVC_AUTH", 0x1000218, 1, 0, 1, 0, 32, .none, true, [⟨0, 32, .w1c, 0, .any⟩]⟩]

/-- The registers of block BOOT. -/
def regsBOOT : List RegSpec := [
  ⟨"BOOT_STAT", 0x1700000, 1, 0, 1, 0, 64, .none, false, [⟨0, 1, .ro, 0, .any⟩, ⟨1, 1, .ro, 0, .any⟩, ⟨2, 1, .ro, 0, .any⟩, ⟨3, 1, .ro, 0, .any⟩, ⟨4, 2, .ro, 0, .any⟩, ⟨6, 4, .ro, 0, .any⟩, ⟨10, 1, .w1c, 0, .any⟩, ⟨32, 16, .ro, 0, .any⟩]⟩,
  ⟨"BOOT_SLOT", 0x1700010, 2, 8, 1, 0, 64, .none, false, [⟨0, 2, .ro, 0, .any⟩, ⟨8, 8, .ro, 0, .any⟩, ⟨16, 8, .ro, 0, .any⟩, ⟨24, 8, .ro, 0, .any⟩, ⟨32, 16, .ro, 0, .any⟩, ⟨48, 16, .ro, 0, .any⟩]⟩,
  ⟨"BOOT_ACT", 0x1700020, 1, 0, 1, 0, 32, .island 36, false, [⟨0, 1, .rw, 0, .any⟩, ⟨1, 1, .wo, 0, .any⟩]⟩,
  ⟨"BOOT_CFG", 0x1700028, 1, 0, 1, 0, 32, .none, false, [⟨0, 11, .rw, 0, .any⟩, ⟨11, 1, .rw, 0, .any⟩]⟩]

/-- The registers of block BCN, part 1. -/
def regsBCN1 : List RegSpec := [
  ⟨"BCN_CFG", 0x1100000, 1, 0, 1, 0, 32, .island 36, false, [⟨0, 2, .rw, 0, .any⟩, ⟨2, 2, .rw, 0, .any⟩, ⟨4, 6, .rw, 0, .any⟩, ⟨10, 1, .rw, 1, .any⟩, ⟨11, 1, .rw, 0, .any⟩, ⟨12, 8, .rw, 248, .any⟩]⟩,
  ⟨"BCN_JUMP_LIMIT", 0x1100008, 1, 0, 1, 0, 32, .none, false, [⟨0, 32, .rw, 1000, .any⟩]⟩,
  ⟨"BCN_RATE", 0x1100010, 1, 0, 1, 0, 64, .none, false, [⟨0, 40, .rw, 5368709120, .any⟩]⟩,
  ⟨"BCN_OFFSET", 0x1100018, 1, 0, 1, 0, 64, .none, false, [⟨0, 64, .ro, 0, .any⟩]⟩,
  ⟨"BCN_OFFSET_FRAC", 0x1100020, 1, 0, 1, 0, 32, .none, false, [⟨0, 32, .ro, 0, .any⟩]⟩,
  ⟨"BCN_STEP_DELTA", 0x1100028, 1, 0, 1, 0, 64, .none, false, [⟨0, 64, .rw, 0, .any⟩]⟩,
  ⟨"BCN_STEP_CTL", 0x1100030, 1, 0, 1, 0, 32, .none, false, [⟨0, 1, .wo, 0, .any⟩, ⟨1, 1, .wo, 0, .any⟩, ⟨2, 2, .ro, 0, .any⟩]⟩,
  ⟨"BCN_NOW", 0x1100040, 1, 0, 1, 0, 64, .none, false, [⟨0, 64, .ro, 0, .any⟩]⟩,
  ⟨"BCN_RAW", 0x1100048, 1, 0, 1, 0, 64, .none, false, [⟨0, 64, .ro, 0, .any⟩]⟩,
  ⟨"BCN_RAW_AT_NOW", 0x1100050, 1, 0, 1, 0, 64, .none, false, [⟨0, 64, .ro, 0, .any⟩]⟩,
  ⟨"BCN_STATUS", 0x1100058, 1, 0, 1, 0, 64, .none, false, [⟨0, 2, .ro, 0, .any⟩, ⟨2, 2, .ro, 0, .any⟩, ⟨16, 32, .ro, 0, .any⟩]⟩,
  ⟨"BCN_EVT", 0x1100060, 1, 0, 1, 0, 32, .none, false, [⟨0, 1, .w1c, 0, .any⟩, ⟨1, 1, .w1c, 0, .any⟩, ⟨2, 1, .w1c, 0, .any⟩, ⟨3, 1, .w1c, 0, .any⟩, ⟨4, 1, .w1c, 0, .any⟩]⟩,
  ⟨"BCN_IRQ", 0x1100068, 1, 0, 1, 0, 32, .none, false, [⟨0, 11, .rw, 0, .any⟩, ⟨11, 1, .rw, 0, .any⟩]⟩,
  ⟨"BCN_GM_ID", 0x1100070, 1, 0, 1, 0, 64, .none, false, [⟨0, 64, .ro, 0, .any⟩]⟩,
  ⟨"BCN_CNT_STEP", 0x1100080, 3, 4, 1, 0, 32, .none, true, [⟨0, 32, .w1c, 0, .any⟩]⟩,
  ⟨"BCN_TRIG_STAT", 0x1100100, 1, 0, 1, 0, 64, .none, true, [⟨0, 64, .w1c, 0, .any⟩]⟩,
  ⟨"BCN_TRIG_W0", 0x1101000, 64, 32, 1, 0, 64, .none, false, [⟨0, 64, .rw, 0, .any⟩]⟩,
  ⟨"BCN_TRIG_W1", 0x1101008, 64, 32, 1, 0, 32, .none, false, [⟨0, 32, .rw, 1000000000, .range 1000 4294967295⟩]⟩,
  ⟨"BCN_TRIG_W2", 0x1101010, 64, 32, 1, 0, 32, .none, true, [⟨0, 1, .rw, 0, .any⟩, ⟨1, 1, .rw, 0, .any⟩, ⟨2, 1, .rw, 0, .any⟩, ⟨3, 1, .rw, 0, .any⟩, ⟨4, 1, .w1c, 0, .any⟩, ⟨16, 16, .w1c, 0, .any⟩]⟩,
  ⟨"BCN_TRIG_W3", 0x1101018, 64, 32, 1, 0, 64, .none, false, [⟨0, 64, .ro, 0, .any⟩]⟩]

/-- The registers of block BCN, part 2. -/
def regsBCN2 : List RegSpec := [
  ⟨"BCN_PULSE", 0x1102000, 8, 8, 1, 0, 32, .none, false, [⟨0, 1, .rw, 0, .any⟩, ⟨1, 6, .rw, 0, .any⟩, ⟨7, 16, .rw, 1, .range 1 65535⟩, ⟨23, 1, .rw, 0, .any⟩]⟩]

/-- The registers of block BCN. -/
def regsBCN : List RegSpec := regsBCN1 ++ regsBCN2

/-- The registers of block LNK. -/
def regsLNK : List RegSpec := [
  ⟨"LNK_CFG", 0x1200000, 1, 0, 1, 0, 64, .none, false, [⟨0, 6, .rw, 0, .any⟩, ⟨6, 2, .rw, 0, .range 0 2⟩, ⟨8, 7, .rw, 1, .range 1 64⟩, ⟨15, 7, .rw, 1, .range 1 32⟩, ⟨32, 16, .rw, 100, .range 10 65535⟩]⟩,
  ⟨"LNK_IMPORT", 0x1200008, 1, 0, 1, 0, 64, .none, false, [⟨0, 64, .rw, 0, .any⟩]⟩,
  ⟨"LNK_SEC", 0x1200010, 1, 0, 1, 0, 32, .none, false, [⟨0, 1, .srw, 0, .any⟩]⟩,
  ⟨"LNK_RSEM", 0x1200018, 1, 0, 1, 0, 32, .none, false, [⟨0, 12, .rw, 0, .any⟩, ⟨12, 13, .rw, 0, .range 0 4096⟩]⟩,
  ⟨"LNK_CNT_LATE_RSP", 0x1200020, 1, 0, 1, 0, 32, .none, true, [⟨0, 32, .w1c, 0, .any⟩]⟩,
  ⟨"LNK_CNT_REFUSED_IN", 0x1200024, 1, 0, 1, 0, 32, .none, true, [⟨0, 32, .w1c, 0, .any⟩]⟩,
  ⟨"LNK_ERR_LOG0", 0x1200040, 1, 0, 1, 0, 64, .none, false, [⟨0, 8, .ro, 0, .any⟩, ⟨8, 2, .ro, 0, .any⟩, ⟨10, 6, .ro, 0, .any⟩]⟩,
  ⟨"LNK_ERR_LOG1", 0x1200048, 1, 0, 1, 0, 64, .none, false, [⟨0, 64, .ro, 0, .any⟩]⟩,
  ⟨"LNK_PORT_CFG", 0x1201000, 4, 256, 1, 0, 32, .none, false, [⟨0, 1, .rw, 0, .any⟩]⟩,
  ⟨"LNK_PORT_STAT", 0x1201008, 4, 256, 1, 0, 32, .none, false, [⟨0, 3, .ro, 0, .any⟩, ⟨3, 4, .ro, 0, .any⟩, ⟨7, 6, .ro, 0, .any⟩, ⟨13, 2, .ro, 0, .any⟩]⟩,
  ⟨"LNK_CNT_TX", 0x1201040, 4, 256, 1, 0, 64, .none, true, [⟨0, 64, .ro, 0, .any⟩]⟩,
  ⟨"LNK_CNT_RX", 0x1201048, 4, 256, 1, 0, 64, .none, true, [⟨0, 64, .ro, 0, .any⟩]⟩,
  ⟨"LNK_CNT_FWD", 0x1201050, 4, 256, 1, 0, 64, .none, true, [⟨0, 64, .ro, 0, .any⟩]⟩,
  ⟨"LNK_CNT_RETRY", 0x1201058, 4, 256, 1, 0, 32, .none, true, [⟨0, 32, .w1c, 0, .any⟩]⟩,
  ⟨"LNK_CNT_CRC", 0x120105C, 4, 256, 1, 0, 32, .none, true, [⟨0, 32, .w1c, 0, .any⟩]⟩,
  ⟨"LNK_CNT_LANE_ERR", 0x1201060, 4, 256, 1, 0, 64, .none, true, [⟨0, 16, .w1c, 0, .any⟩, ⟨16, 16, .w1c, 0, .any⟩, ⟨32, 16, .w1c, 0, .any⟩, ⟨48, 16, .w1c, 0, .any⟩]⟩]

/-- The registers of block GW, part 1. -/
def regsGW1 : List RegSpec := [
  ⟨"GW_CNT_OVERWRITE", 0x1300040, 1, 0, 1, 0, 32, .none, true, [⟨0, 32, .w1c, 0, .any⟩]⟩,
  ⟨"GW_CNT_DROP_LEN", 0x1300044, 1, 0, 1, 0, 32, .none, true, [⟨0, 32, .w1c, 0, .any⟩]⟩,
  ⟨"GW_CNT_NO_RX", 0x1300048, 1, 0, 1, 0, 32, .none, true, [⟨0, 32, .w1c, 0, .any⟩]⟩,
  ⟨"GW_CNT_ACF_SEQ", 0x130004C, 1, 0, 1, 0, 32, .none, true, [⟨0, 32, .w1c, 0, .any⟩]⟩,
  ⟨"GW_CNT_ACF_LATE", 0x1300050, 1, 0, 1, 0, 32, .none, true, [⟨0, 32, .w1c, 0, .any⟩]⟩,
  ⟨"GW_CNT_ACF_DROP", 0x1300054, 1, 0, 1, 0, 32, .none, true, [⟨0, 32, .w1c, 0, .any⟩]⟩,
  ⟨"GW_CNT_RTR", 0x1300058, 1, 0, 1, 0, 32, .none, true, [⟨0, 32, .w1c, 0, .any⟩]⟩,
  ⟨"GW_CNT_PSFP_DROP", 0x130005C, 1, 0, 1, 0, 32, .none, true, [⟨0, 32, .w1c, 0, .any⟩]⟩,
  ⟨"GW_OWN", 0x1300100, 33, 8, 1, 0, 64, .none, false, [⟨0, 6, .rw, 0, .any⟩]⟩,
  ⟨"GW_CAN_CFG", 0x1301000, 16, 256, 1, 0, 64, .none, false, [⟨0, 1, .rw, 0, .any⟩, ⟨1, 1, .rw, 0, .any⟩, ⟨2, 1, .rw, 0, .any⟩, ⟨3, 1, .rw, 0, .any⟩, ⟨4, 8, .rw, 0, .any⟩, ⟨12, 8, .rw, 0, .any⟩, ⟨20, 7, .rw, 0, .any⟩, ⟨27, 7, .rw, 0, .any⟩, ⟨34, 5, .rw, 0, .any⟩, ⟨39, 5, .rw, 0, .any⟩, ⟨44, 4, .rw, 0, .any⟩, ⟨48, 4, .rw, 0, .any⟩, ⟨52, 7, .rw, 0, .any⟩]⟩,
  ⟨"GW_CAN_STAT", 0x1301008, 16, 256, 1, 0, 32, .none, false, [⟨0, 3, .ro, 0, .any⟩, ⟨3, 8, .ro, 0, .any⟩, ⟨11, 8, .ro, 0, .any⟩]⟩,
  ⟨"GW_CAN_CNT", 0x1301040, 16, 256, 4, 4, 32, .none, true, [⟨0, 32, .w1c, 0, .any⟩]⟩,
  ⟨"GW_ETH_PORT", 0x1303000, 8, 256, 1, 0, 64, .none, false, [⟨0, 1, .rw, 0, .any⟩, ⟨1, 3, .rw, 0, .range 0 5⟩, ⟨4, 1, .rw, 0, .any⟩, ⟨16, 10, .rw, 0, .any⟩, ⟨26, 10, .rw, 0, .any⟩]⟩,
  ⟨"GW_ETH_QBV", 0x1303008, 8, 256, 1, 0, 64, .island 33, false, [⟨0, 30, .rw, 0, .any⟩, ⟨30, 9, .rw, 0, .any⟩, ⟨39, 1, .rw, 0, .any⟩]⟩,
  ⟨"GW_ETH_QBV_BASE", 0x1303010, 8, 256, 1, 0, 64, .island 33, false, [⟨0, 64, .rw, 0, .any⟩]⟩,
  ⟨"GW_ACF_W0", 0x1306000, 32, 32, 1, 0, 64, .none, false, [⟨0, 1, .rw, 0, .any⟩, ⟨1, 1, .rw, 0, .any⟩, ⟨2, 1, .rw, 0, .any⟩, ⟨3, 1, .rw, 0, .any⟩, ⟨4, 3, .rw, 0, .any⟩, ⟨7, 12, .rw, 0, .any⟩, ⟨19, 20, .rw, 0, .any⟩, ⟨39, 16, .rw, 0, .any⟩]⟩,
  ⟨"GW_ACF_W1", 0x1306008, 32, 32, 1, 0, 64, .none, false, [⟨0, 64, .rw, 0, .any⟩]⟩,
  ⟨"GW_ACF_W2", 0x1306010, 32, 32, 1, 0, 64, .none, false, [⟨0, 48, .rw, 0, .any⟩]⟩,
  ⟨"GW_ROUTE_W0", 0x1310000, 1024, 32, 1, 0, 64, .none, false, [⟨0, 1, .rw, 0, .any⟩, ⟨1, 2, .rw, 0, .range 0 1⟩, ⟨3, 5, .rw, 0, .any⟩, ⟨8, 2, .rw, 0, .any⟩, ⟨10, 5, .rw, 0, .any⟩, ⟨15, 1, .rw, 0, .any⟩, ⟨16, 1, .rw, 0, .any⟩, ⟨32, 32, .rw, 0, .any⟩]⟩,
  ⟨"GW_ROUTE_W1", 0x1310008, 1024, 32, 1, 0, 64, .none, false, [⟨0, 29, .rw, 0, .any⟩, ⟨29, 1, .rw, 0, .any⟩, ⟨32, 29, .rw, 0, .any⟩]⟩]

/-- The registers of block GW, part 2. -/
def regsGW2 : List RegSpec := [
  ⟨"GW_ROUTE_W2", 0x1310010, 1024, 32, 1, 0, 64, .none, false, [⟨0, 32, .rw, 0, .any⟩, ⟨32, 10, .rw, 0, .any⟩]⟩,
  ⟨"GW_ROUTE_W3", 0x1310018, 1024, 32, 1, 0, 64, .none, false, [⟨0, 29, .rw, 0, .any⟩, ⟨29, 1, .rw, 0, .any⟩, ⟨30, 1, .rw, 0, .any⟩, ⟨31, 1, .rw, 0, .any⟩]⟩,
  ⟨"GW_GCL", 0x1340000, 8, 2048, 256, 8, 64, .island 33, false, [⟨0, 8, .rw, 255, .any⟩, ⟨8, 30, .rw, 0, .any⟩]⟩,
  ⟨"GW_PSFP_SF_W0", 0x1350000, 256, 16, 1, 0, 64, .none, false, [⟨0, 48, .rw, 0, .any⟩, ⟨48, 12, .rw, 0, .any⟩, ⟨60, 1, .rw, 0, .any⟩, ⟨61, 1, .rw, 0, .any⟩]⟩,
  ⟨"GW_PSFP_SF_W1", 0x1350008, 256, 16, 1, 0, 64, .none, false, [⟨0, 8, .rw, 0, .any⟩, ⟨8, 4, .rw, 8, .range 0 8⟩, ⟨12, 6, .rw, 0, .any⟩, ⟨18, 1, .rw, 0, .any⟩, ⟨19, 1, .rw, 0, .any⟩, ⟨20, 7, .rw, 0, .any⟩, ⟨27, 11, .rw, 2000, .range 64 2000⟩]⟩,
  ⟨"GW_SGATE", 0x1353000, 64, 8, 1, 0, 64, .island 33, false, [⟨0, 1, .rw, 0, .any⟩, ⟨1, 7, .rw, 0, .any⟩]⟩,
  ⟨"GW_SGL", 0x1354000, 64, 512, 64, 8, 64, .island 33, false, [⟨0, 8, .rw, 1, .any⟩, ⟨8, 30, .rw, 0, .any⟩]⟩,
  ⟨"GW_METER_W0", 0x1360000, 128, 16, 1, 0, 64, .none, false, [⟨0, 24, .rw, 0, .any⟩, ⟨24, 24, .rw, 0, .any⟩]⟩,
  ⟨"GW_METER_W1", 0x1360008, 128, 16, 1, 0, 64, .none, false, [⟨0, 24, .rw, 0, .any⟩, ⟨24, 24, .rw, 0, .any⟩]⟩]

/-- The registers of block GW. -/
def regsGW : List RegSpec := regsGW1 ++ regsGW2

/-- The registers of block WBR. -/
def regsWBR : List RegSpec := [
  ⟨"WBR_CFG", 0x1400000, 1, 0, 1, 0, 32, .none, false, [⟨0, 10, .rw, 50, .range 1 1000⟩]⟩,
  ⟨"WBR_IRQ", 0x1400008, 1, 0, 1, 0, 32, .none, false, [⟨0, 11, .rw, 0, .any⟩, ⟨11, 1, .rw, 0, .any⟩, ⟨12, 1, .w1c, 0, .any⟩, ⟨13, 1, .w1c, 0, .any⟩]⟩,
  ⟨"WBR_ELOG_HEAD", 0x1400010, 1, 0, 1, 0, 32, .none, false, [⟨0, 4, .ro, 0, .any⟩, ⟨16, 16, .w1c, 0, .any⟩]⟩,
  ⟨"WBR_SEM", 0x1400100, 16, 8, 1, 0, 32, .none, false, [⟨0, 8, .rw, 0, .any⟩]⟩,
  ⟨"WBR_ELOG_W0", 0x1400800, 16, 32, 1, 0, 64, .none, false, [⟨0, 3, .ro, 0, .any⟩, ⟨3, 3, .ro, 0, .any⟩, ⟨6, 5, .ro, 0, .any⟩, ⟨11, 6, .ro, 0, .any⟩, ⟨17, 8, .ro, 0, .any⟩, ⟨25, 6, .ro, 0, .any⟩]⟩,
  ⟨"WBR_ELOG_W1", 0x1400808, 16, 32, 1, 0, 64, .none, false, [⟨0, 48, .ro, 0, .any⟩]⟩,
  ⟨"WBR_ELOG_W2", 0x1400810, 16, 32, 1, 0, 64, .none, false, [⟨0, 64, .ro, 0, .any⟩]⟩,
  ⟨"WBR_ELOG_W3", 0x1400818, 16, 32, 1, 0, 64, .none, false, [⟨0, 64, .ro, 0, .any⟩]⟩,
  ⟨"WBR_WIN_W0", 0x1401000, 64, 32, 1, 0, 64, .none, false, [⟨0, 1, .rw, 0, .any⟩, ⟨1, 1, .rw, 0, .any⟩, ⟨2, 1, .rw, 0, .any⟩, ⟨3, 1, .rw, 0, .any⟩, ⟨4, 2, .rw, 0, .range 0 2⟩, ⟨6, 1, .rw, 0, .any⟩, ⟨7, 4, .rw, 0, .any⟩, ⟨11, 5, .rw, 0, .any⟩, ⟨16, 6, .rw, 0, .any⟩, ⟨22, 1, .srw, 0, .any⟩, ⟨23, 6, .rw, 12, .range 12 46⟩, ⟨29, 4, .rw, 0, .range 0 8⟩]⟩,
  ⟨"WBR_WIN_W1", 0x1401008, 64, 32, 1, 0, 64, .none, false, [⟨12, 35, .rw, 0, .any⟩]⟩,
  ⟨"WBR_WIN_W2", 0x1401010, 64, 32, 1, 0, 64, .none, false, [⟨12, 52, .rw, 0, .any⟩]⟩]

/-- The registers of block DBG, part 1. -/
def regsDBG1 : List RegSpec := [
  ⟨"DBG_TRACE_CFG", 0x1500000, 1, 0, 1, 0, 32, .none, false, [⟨0, 1, .rw, 0, .any⟩, ⟨1, 1, .rw, 1, .any⟩, ⟨2, 5, .rw, 12, .range 12 30⟩, ⟨7, 6, .rw, 0, .any⟩]⟩,
  ⟨"DBG_TRACE_FILT", 0x1500008, 1, 0, 1, 0, 64, .none, false, [⟨0, 38, .rw, 274877906943, .any⟩]⟩,
  ⟨"DBG_TRACE_KIND", 0x1500010, 1, 0, 1, 0, 32, .none, false, [⟨0, 18, .rw, 262142, .any⟩]⟩,
  ⟨"DBG_TRACE_BASE", 0x1500018, 1, 0, 1, 0, 64, .none, false, [⟨6, 42, .rw, 0, .any⟩]⟩,
  ⟨"DBG_TRACE_STAT", 0x1500020, 1, 0, 1, 0, 64, .none, false, [⟨0, 32, .ro, 0, .any⟩, ⟨32, 1, .ro, 0, .any⟩, ⟨33, 1, .ro, 0, .any⟩, ⟨34, 1, .w1c, 0, .any⟩]⟩,
  ⟨"DBG_TRACE_LOST", 0x1500028, 1, 0, 1, 0, 32, .none, true, [⟨0, 32, .w1c, 0, .any⟩]⟩,
  ⟨"DBG_TRIG_W0", 0x1500100, 4, 32, 1, 0, 64, .none, false, [⟨0, 8, .rw, 0, .any⟩, ⟨8, 6, .rw, 0, .any⟩, ⟨14, 8, .rw, 0, .any⟩, ⟨22, 8, .rw, 0, .any⟩, ⟨30, 6, .rw, 0, .any⟩, ⟨36, 8, .rw, 0, .any⟩]⟩,
  ⟨"DBG_TRIG_W1", 0x1500108, 4, 32, 1, 0, 64, .none, false, [⟨0, 16, .rw, 0, .any⟩, ⟨16, 16, .rw, 0, .any⟩, ⟨32, 16, .rw, 0, .any⟩, ⟨48, 16, .rw, 0, .any⟩]⟩,
  ⟨"DBG_TRIG_W2", 0x1500110, 4, 32, 1, 0, 64, .none, false, [⟨0, 1, .rw, 0, .any⟩, ⟨1, 1, .rw, 0, .any⟩, ⟨2, 1, .rw, 0, .any⟩, ⟨3, 1, .rw, 0, .any⟩, ⟨4, 20, .rw, 0, .any⟩]⟩,
  ⟨"DBG_TRIG_STAT", 0x1500180, 1, 0, 1, 0, 64, .none, false, [⟨0, 4, .w1c, 0, .any⟩, ⟨4, 2, .ro, 0, .any⟩, ⟨32, 32, .ro, 0, .any⟩]⟩,
  ⟨"DBG_TRIG_TIME", 0x1500188, 1, 0, 1, 0, 64, .none, false, [⟨0, 64, .ro, 0, .any⟩]⟩,
  ⟨"DBG_SNAP_CTL", 0x1500200, 1, 0, 1, 0, 32, .none, false, [⟨0, 1, .rw, 0, .any⟩, ⟨1, 1, .w1c, 0, .any⟩]⟩,
  ⟨"DBG_SNAP_TIME", 0x1500208, 1, 0, 1, 0, 64, .none, false, [⟨0, 64, .ro, 0, .any⟩]⟩,
  ⟨"DBG_SNAP_MISSED", 0x1500210, 1, 0, 1, 0, 32, .none, true, [⟨0, 32, .w1c, 0, .any⟩]⟩,
  ⟨"DBG_HANG_CFG", 0x1500300, 1, 0, 1, 0, 32, .none, false, [⟨0, 16, .rw, 100, .not 1⟩, ⟨16, 1, .rw, 1, .any⟩, ⟨17, 1, .rw, 0, .any⟩, ⟨18, 1, .rw, 1, .any⟩, ⟨19, 1, .wo, 0, .any⟩]⟩,
  ⟨"DBG_DUMP_BASE", 0x1500308, 1, 0, 1, 0, 64, .none, false, [⟨12, 36, .rw, 0, .any⟩, ⟨48, 6, .rw, 0, .any⟩]⟩,
  ⟨"DBG_DUMP_LEN", 0x1500310, 1, 0, 1, 0, 32, .none, false, [⟨0, 32, .rw, 262144, .any⟩]⟩,
  ⟨"DBG_DUMP_STAT", 0x1500318, 1, 0, 1, 0, 32, .none, false, [⟨0, 1, .w1c, 0, .any⟩, ⟨1, 2, .ro, 0, .any⟩, ⟨3, 1, .ro, 0, .any⟩]⟩,
  ⟨"DBG_DUMP_MISSED", 0x1500320, 1, 0, 1, 0, 32, .none, true, [⟨0, 32, .w1c, 0, .any⟩]⟩,
  ⟨"DBG_IRQ", 0x1500380, 1, 0, 1, 0, 32, .none, false, [⟨0, 11, .rw, 0, .any⟩, ⟨11, 1, .rw, 0, .any⟩, ⟨12, 1, .w1c, 0, .any⟩, ⟨13, 1, .w1c, 0, .any⟩, ⟨14, 1, .w1c, 0, .any⟩]⟩]

/-- The registers of block DBG, part 2. -/
def regsDBG2 : List RegSpec := [
  ⟨"DBG_RING_SEL", 0x1500400, 1, 0, 1, 0, 32, .none, false, [⟨0, 6, .rw, 0, .any⟩, ⟨6, 1, .wo, 0, .any⟩, ⟨8, 6, .ro, 0, .any⟩]⟩,
  ⟨"DBG_RING_WIN", 0x1500800, 64, 32, 4, 8, 64, .none, false, [⟨0, 64, .ro, 0, .any⟩]⟩,
  ⟨"DBG_ISL_W0", 0x1502000, 38, 32, 1, 0, 64, .none, true, [⟨0, 64, .ro, 0, .any⟩]⟩,
  ⟨"DBG_ISL_W1", 0x1502008, 38, 32, 1, 0, 64, .none, true, [⟨0, 64, .ro, 0, .any⟩]⟩,
  ⟨"DBG_ISL_W2", 0x1502010, 38, 32, 1, 0, 64, .none, true, [⟨0, 64, .ro, 0, .any⟩]⟩,
  ⟨"DBG_ISL_W3", 0x1502018, 38, 32, 1, 0, 64, .none, true, [⟨0, 16, .ro, 0, .any⟩, ⟨16, 16, .ro, 32768, .any⟩]⟩]

/-- The registers of block DBG. -/
def regsDBG : List RegSpec := regsDBG1 ++ regsDBG2

/-- The registers of block PWR. -/
def regsPWR : List RegSpec := [
  ⟨"PWR_CFG", 0x1600000, 1, 0, 1, 0, 64, .none, false, [⟨0, 23, .rw, 0, .any⟩, ⟨24, 2, .rw, 3, .any⟩, ⟨32, 16, .rw, 500, .range 10 65535⟩, ⟨48, 16, .rw, 10, .range 1 65535⟩]⟩,
  ⟨"PWR_STAT", 0x1600008, 1, 0, 1, 0, 64, .none, false, [⟨0, 2, .ro, 0, .any⟩, ⟨8, 38, .ro, 0, .any⟩]⟩,
  ⟨"PWR_LIM", 0x1600010, 1, 0, 1, 0, 64, .none, false, [⟨0, 8, .rw, 110, .range 40 135⟩, ⟨8, 6, .rw, 10, .range 1 60⟩, ⟨14, 8, .rw, 0, .range 0 180⟩, ⟨22, 10, .rw, 375, .multiple 200 750 25⟩, ⟨32, 11, .rw, 650, .multiple 200 1200 50⟩, ⟨43, 16, .rw, 1000, .range 10 65535⟩]⟩,
  ⟨"PWR_AVG", 0x1600018, 1, 0, 1, 0, 64, .none, false, [⟨0, 20, .ro, 0, .any⟩, ⟨20, 20, .ro, 0, .any⟩, ⟨40, 10, .ro, 860, .any⟩, ⟨50, 11, .ro, 1400, .any⟩]⟩,
  ⟨"THM_CFG", 0x1600020, 1, 0, 1, 0, 32, .none, false, [⟨0, 8, .rw, 105, .range 85 115⟩]⟩,
  ⟨"PWR_EVT", 0x1600028, 1, 0, 1, 0, 32, .none, false, [⟨0, 1, .w1c, 0, .any⟩, ⟨1, 1, .w1c, 0, .any⟩, ⟨2, 1, .w1c, 0, .any⟩, ⟨3, 1, .w1c, 0, .any⟩, ⟨4, 1, .w1c, 0, .any⟩, ⟨5, 1, .w1c, 0, .any⟩, ⟨6, 1, .w1c, 0, .any⟩]⟩,
  ⟨"PWR_IRQ", 0x1600030, 1, 0, 1, 0, 32, .none, false, [⟨0, 11, .rw, 0, .any⟩, ⟨11, 1, .rw, 0, .any⟩]⟩,
  ⟨"PWR_HOURS", 0x1600038, 1, 0, 1, 0, 32, .none, false, [⟨0, 32, .ro, 0, .any⟩]⟩,
  ⟨"PWR_AGE_CTL", 0x1600040, 1, 0, 1, 0, 32, .none, false, [⟨0, 1, .wo, 0, .any⟩, ⟨1, 2, .ro, 0, .any⟩]⟩,
  ⟨"PWR_ISL_W0", 0x1600100, 8, 16, 1, 0, 64, .none, false, [⟨0, 20, .ro, 0, .any⟩, ⟨20, 8, .ro, Config.guardMhz, .any⟩, ⟨28, 1, .ro, 0, .any⟩, ⟨29, 11, .ro, 2047, .any⟩]⟩,
  ⟨"PWR_ISL_W1", 0x1600108, 8, 16, 1, 0, 64, .none, true, [⟨0, 32, .ro, 4294967295, .any⟩, ⟨32, 32, .w1c, 0, .any⟩]⟩,
  ⟨"PWR_AGE_REC", 0x1601000, 64, 8, 1, 0, 64, .none, false, [⟨0, 64, .ro, 0, .any⟩]⟩,
  ⟨"PWR_AGE_LOAD", 0x1601200, 64, 8, 1, 0, 64, .none, false, [⟨0, 64, .wo, 0, .any⟩]⟩]

/-- The block that holds a BAR0 offset (R16). -/
def blockTable (off : Nat) : List RegSpec :=
  if off ≥ 0x1800000 then regsVIRT else
  match off / 0x100000 with
  | 0 => regsTOP
  | 1 => regsCMD
  | 2 => regsARR
  | 3 => regsWIN
  | 4 => regsATT
  | 5 => regsSPD
  | 6 => regsDDR
  | 7 => regsVEC
  | 8 => regsGFX
  | 9 => regsDISP
  | 10 => regsCAP
  | 11 => regsSCH
  | 12 => regsQOS
  | 13 => regsVIRT
  | 14 => regsSAF
  | 15 => regsLNT
  | 16 => regsKPR
  | 17 => regsBCN
  | 18 => regsLNK
  | 19 => regsGW
  | 20 => regsWBR
  | 21 => regsDBG
  | 22 => regsPWR
  | 23 => regsBOOT
  | _ => []

end Sys2Proof.Machine
end

