-- ==== Sys2Proof/Machine/State.lean ====
section
/-!
DEFINITION. The state of the block as plain data, the reasons a step can stop, and the state after reset.
Every BAR0 register lives in `regs` (staged registers have a second, active copy in `active`); the rest is the state
the chapters give the machine behind its registers.
-/

namespace Sys2Proof.Machine

/-- Faults: steps the spec gives no way to perform. None of the rows stops with a fault on every path. -/
inductive Fault where
  /-- Raised by no meaning of the present rows; kept so that the type has a value. Safe. -/
  | unspecified
deriving DecidableEq, Repr

/-- Refusals. -/
inductive Refusal where
  /-- Raised by an arm of exec whose row has no meaning yet. Safe. -/
  | notModelled (mnemonic : String)
deriving DecidableEq, Repr

/-- A sparse map in canonical form: keys strictly rising, no entry equal to the default of its key. -/
abbrev SMap (β : Type) := List (Nat × β)

/-- Error of a stored codeword (R18, R22): the bits in which the 288 stored bits differ from the codeword that its data, tag
and address form, and whether the error was injected (R435). -/
structure EccErr where
  mask : BitVec 288
  inj : Bool
deriving DecidableEq, Repr

/-- An armed commit as latched by an accepted arm (R33), the acknowledgements frozen at the cut-off and the READY
exchange (R34). -/
structure Armed where
  gen : Nat
  guardUs : Nat
  units : Nat
  time : Nat
  peers : Nat
  frozen : Option Nat
  ready : List Nat
  readySent : Bool
deriving DecidableEq, Repr

/-- State of one engine's part of a dispatched descriptor (R350, R352). -/
inductive PartSt where
  | notStarted | running | stopping | stopped | done
deriving DecidableEq, Repr

/-- One engine's part of a descriptor: island, engine or channel number, state, status and DETAIL reported, order of
stopping or finishing (R631), cause of the last stop (R573), counter values of its stop request, of its start and of its last
progress (R579), `busyC` the counter value up to which its busy time is counted (R128); `worked` says that its share of the work is done, `waited` that a wait for accumulator rows was counted
(R351), and `row` is the DMA row it holds (R226). -/
structure Part where
  isl : Nat
  eng : Nat
  st : PartSt
  status : Nat
  detail : Nat
  fin : Nat
  stopCause : Nat
  stopC : Nat
  runC : Nat
  progC : Nat
  busyC : Nat
  worked : Bool
  waited : Bool
  row : Nat
deriving DecidableEq, Repr

/-- Phase of a commit record (R474, R69): fetched, waiting on its semaphore, wait satisfied, dispatched, or ended and
waiting for a completion slot (R60). -/
inductive DPhase where
  | fetched | waiting | ready | dispatched | ended
deriving DecidableEq, Repr

/-- A commit record of Keeper memory: the descriptor as fetched, its queue, index and times, its phase and engine parts,
the result of one that ended, the job run it belongs to (R359), its reserved record slot (R60), declared outputs (R27) and
accumulator rows (R351); `ending` is the status of one being stopped to end, `step` counts the progress of a command of
several steps, `squashed` ends without a record (R398), `flushing` waits for writes to become visible (R23), `doneT` is the
Beacon time of a completion that an activation pause holds back (R493), `doneC` the counter then. -/
structure Desc where
  id : Nat
  q : Nat
  idx : Nat
  bytes : List Byte
  fetchC : Nat
  phase : DPhase
  waitC : Nat
  dispC : Nat
  parts : List Part
  status : Nat
  detail : Nat
  unitId : Nat
  fb : Bool
  job : Option Nat
  join : Bool
  program : Bool
  slot : Bool
  outs : List (Nat × Nat)
  rows : List (Nat × Nat × Nat)
  ending : Option (Nat × Nat)
  step : Nat
  effected : Bool
  poisoned : Bool
  squashed : Bool
  noSignal : Bool
  flushing : Bool
  doneT : Nat
  doneC : Nat
deriving DecidableEq, Repr

/-- The signal that last added to a semaphore, for WAIT_RELEASE and dumps (R574, R582). -/
structure Signaller where
  q : Nat
  dev : Nat
  layer : Nat
  op : Nat
  time : Nat
deriving DecidableEq, Repr

/-- A trace event (R572). -/
structure Event where
  t : Nat
  kind : Nat
  isl : Nat
  q : Nat
  ctx : Nat
  status : Nat
  idx : Nat
  layer : Nat
  op : Nat
  a : Nat
  b : Nat
deriving DecidableEq, Repr

/-- Trace writer state (R575 to R578): events queued to the writer in arrival order (at most 32 of one island), drops
not yet reported per island, records still to write before a freeze, the last-64 ring of each island, the islands whose
ring is stopped, and a dump being written (cause, island, descriptor). -/
structure TraceSt where
  queue : List Event
  drops : SMap Nat
  post : Option Nat
  rings : SMap (List Event)
  stopped : List Nat
  dump : Option (Nat × Nat × Nat)
deriving DecidableEq, Repr

/-- A packet sent on the links: operation, destination, tag, offset, status, ARG, ARG2, partition, world, class (R528), CMP of each
codeword, and data. -/
structure LnkPkt where
  op : Nat
  dst : Nat
  tag : Nat
  addr : Nat
  len : Nat
  status : Nat
  arg : Nat
  arg2 : Nat
  part : Nat
  w : Bool
  cls : Nat
  cmps : List Nat
  data : List Byte
deriving DecidableEq, Repr

/-- An outstanding peer request: tag, device, descriptor, operation, offset, length, counter value when sent; a deferred read
has its place in the receive area (R358). -/
structure LnkOut where
  tag : Nat
  dev : Nat
  desc : Nat
  op : Nat
  addr : Nat
  len : Nat
  sentC : Nat
  deferred : Bool
  rx : Nat
deriving DecidableEq, Repr

/-- Data that a peer read returned, kept until its reader takes it (R358, R528); `rx` is the place in the receive area of a
deferred read, and `land` says that it is still to be written there. -/
structure PeerData where
  desc : Nat
  dev : Nat
  addr : Nat
  data : List Byte
  cmps : List Nat
  err : Option (Nat × Nat)
  land : Bool
  rx : Option Nat
deriving DecidableEq, Repr

/-- An outstanding zero-length read behind a host-window write (R562). -/
structure TrailRd where
  desc : Nat
  win : Nat
  addr : Nat
  bus : Nat
  isl : Nat
  ctx : Nat
  nonPosted : Bool
deriving DecidableEq, Repr

/-- A line of a dirty bitmap held by the device (R402): function, bitmap, bus address, bits. -/
structure DirtyLine where
  fn : Nat
  bmap : Nat
  bus : Nat
  bits : Nat
deriving DecidableEq, Repr

/-- Link port state (R526 to R534): receive and send sequence numbers, credits held per buffer, flits in the replay
buffer (their sequence numbers), own packets and forwarded flits held for credit, consecutive failures of the flit after the one last named by a
NAK, whether a NAK is out, counter value of the last enable. -/
structure PortSt where
  rxSeq : Nat
  txSeq : Nat
  credits : List Nat
  replay : List Nat
  queued : List LnkPkt
  fwd : List FwdFlit
  fails : Nat
  lastNak : Option Nat
  nakSent : Bool
  enC : Nat
deriving DecidableEq, Repr

/-- An AUX request as it leaves a display output (R334): engine, command, address, length and the bytes written. -/
structure AuxReq where
  eng : Nat
  cmd : Nat
  addr : Nat
  len : Nat
  data : List Byte
deriving DecidableEq, Repr

/-- A DRAM request at its master port or at its DDR4 controller (R373, R376): port, class, descriptor (0 for none), island, a
secure requester, write, address, bytes, 64-byte units still to be served, and the index of the regulation window in which it
issued. -/
structure BusReq where
  port : Nat
  cls : Nat
  desc : Nat
  isl : Nat
  sec : Bool
  wr : Bool
  addr : Nat
  len : Nat
  units : Nat
  win : Nat
deriving DecidableEq, Repr

/-- What the device has put out, oldest first: MSI-X messages (function, vector), LTR messages, link packets and forwarded flits by port,
Ethernet and CAN frames, service frames, READY packets, AER reports, pins. -/
structure Outputs where
  msix : List (Nat × Nat)
  ltr : List Nat
  lnk : List (Nat × LnkPkt)
  fwd : List (Nat × FwdFlit)
  can : List (Nat × CanFrame)
  eth : List (Nat × EthFrame)
  sync : List (Nat × Nat)
  acf : List (Nat × AcfFrame)
  uart : List (List Byte)
  aer : Nat
  faultN : Bool
  safeReqN : Bool
  bcnOut : List Bool
  camFsync : SMap Nat
  aux : List AuxReq
  unsupported : Nat
deriving DecidableEq, Repr

/-- PCI Express configuration state of the endpoint (R385, R386, R393): `table` is the MSI-X pool, for pool entry i the
address at 2i, and at 2i + 1 the data in the low half and the mask bit in bit 32. -/
structure PcieSt where
  vfEnable : Bool
  numVf : Nat
  busMaster : List Nat
  linkUp : Bool
  table : SMap Word64
  pendingBits : List (Nat × Nat)
deriving DecidableEq, Repr

/-- Interrupt coalescing of one completion group (R62): unsignalled records and the counter value of the first. -/
structure Coal where
  cnt : Nat
  since : Nat
deriving DecidableEq, Repr

/-- A translation held by an attention unit (R183): context, world, table base, page or root index, the entry's bits. -/
structure LabEnt where
  ctx : Nat
  w : Bool
  table : Nat
  idx : Nat
  pte : Nat
  lock : Bool
deriving DecidableEq, Repr

/-- Look-aside buffer and root cache of an attention unit (R183), most recently used first; the lock of an entry is that of R183. -/
structure AttSt where
  lab : List LabEnt
  roots : List LabEnt
deriving DecidableEq, Repr

/-- A job's run (R359 to R362): counter time of its opening, absolute deadline on the counter, descriptors fetched into it, the
last measured runs in µs, a counted predicted miss, the stage of a switch (0 none, 1 ending the run, 2 fallback program,
3 join), the slots of the fallback queue still to fetch, and the monitor periods evaluated since the opening (R361). -/
structure JobSt where
  c0 : Nat
  dl : Option Nat
  ids : List Nat
  meas : List Nat
  missed : Bool
  stage : Nat
  next : Nat
  stop : Nat
  checks : Nat
deriving DecidableEq, Repr

/-- A spilled granule (R205, R207): losing context, its slot, the granule, order of borrowing; 0 spilling, 1 spilled,
2 restoring. -/
structure Spill where
  ctx : Nat
  slot : Nat
  gran : Nat
  seq : Nat
  st : Nat
deriving DecidableEq, Repr

/-- A grant that waits for spills (R204, R345): context, the SPD_BORROW descriptor or a moor, granules granted with their
slots, granules still spilling with the slots they will take. -/
structure Grant where
  ctx : Nat
  desc : Option Nat
  got : List (Nat × Nat)
  victims : List (Nat × Nat)
deriving DecidableEq, Repr

/-- Golden test of a scheduled engine (R413 to R419): in a slot of a window or a rerun, runs done, counter value at which
the current run began, whether the engine has stopped so that the test runs, and whether a failed run was injected. -/
structure Gold where
  slot : Bool
  rerun : Bool
  runs : Nat
  startC : Nat
  live : Bool
  inj : Bool
  chkInj : Bool
deriving DecidableEq, Repr

/-- A kernel that a launch runs (R268, R271), or a shader of a pass: descriptor, image and its header, argument block,
texture table, grid, threads and local memory of a workgroup, budget, declared outputs, the next workgroup to be dealt. -/
structure Kern where
  desc : Nat
  image : Nat
  entry : Nat
  code : Nat
  arg : Nat
  textab : Nat
  gx : Nat
  gy : Nat
  gz : Nat
  threads : Nat
  lm4k : Nat
  budget : Nat
  outs : List (Nat × Nat)
  next : Nat
deriving DecidableEq, Repr

/-- A workgroup on a core (R241, R246): descriptor, core, coordinates, the slots of its threads in order, the bytes of
its local memory (an unlisted byte is zero), 4 KiB units allotted, instructions issued, and per word of local memory the bits
in error of its 39 stored bits (R247). -/
structure WgSt where
  desc : Nat
  core : Nat
  x : Nat
  y : Nat
  z : Nat
  slots : List Nat
  lm : SMap Byte
  lm4k : Nat
  issued : Nat
  err : SMap (BitVec 39)
deriving DecidableEq, Repr

/-- A thread in a slot (R241): index in its workgroup, PC, vector registers by 32 × register + lane, scalar and mask
registers (an unlisted one is zero), waiting at a BAR, ended, the latched high half of Beacon time (R251), and the
device loads whose data are still to return (R267): codeword requests made (R240), vector register cells with their values,
oldest load first. `err` holds the bits in error of the register words (R247): vector cell 32 × register + lane, 2048 + scalar
register, 2080 + mask register. -/
structure ThrSt where
  desc : Nat
  idx : Nat
  pc : Nat
  vr : SMap Word32
  sr : SMap Word32
  mr : SMap Word32
  bar : Bool
  ended : Bool
  hi : Option Nat
  loads : List (Nat × List (Nat × Word32))
  err : SMap (BitVec 39)
deriving DecidableEq, Repr

/-- A cache line of 64 bytes, tagged with its context (R269, R304); bits in error of its 32-bit words (R247). -/
structure CLine where
  ctx : Nat
  addr : Nat
  data : List Byte
  err : SMap (BitVec 39)
deriving DecidableEq, Repr

/-- A target record of a pass (R307). -/
structure Tgt where
  addr : Nat
  stride : Nat
  fmt : Nat
  swz : Bool
  load : Nat
  store : Bool
  clear : List Nat
deriving DecidableEq, Repr

/-- The parameter block of a pass (R307). -/
structure Pass where
  pool : Nat
  flush : Nat
  draws : Nat
  depth : Nat
  w : Nat
  h : Nat
  n : Nat
  ns : Nat
  dfmt : Bool
  ntgt : Nat
  units : Nat
  dload : Bool
  dstore : Bool
  chunks : Nat
  dstride : Nat
  dclear : Nat
  tgts : List Tgt
deriving DecidableEq, Repr

/-- A draw record (R308). -/
structure Draw where
  vs : Nat
  ps : Nat
  arg : Nat
  idx : Nat
  textab : Nat
  cnt : Nat
  first : Nat
  inst : Nat
  attrs : Nat
  strip : Bool
  idx16 : Bool
  cull : Nat
  cw : Bool
  kind : Nat
  dw : Bool
  df : Nat
  vlm : Nat
  plm : Nat
  x0 : Nat
  y0 : Nat
  x1 : Nat
  y1 : Nat
  blend : List Nat
  vp : List Nat
deriving DecidableEq, Repr

/-- A triangle as binned: snapped vertices with z, 1/w and attributes, and its facing. -/
structure Piece where
  v : List (Int × Int × Nat × Nat)
  av : List Nat
  front : Bool
deriving DecidableEq, Repr

/-- Allocation in the pool: next free chunk, per unit the chunk of primitive records with its slots used and the run of
attribute chunks with its bytes used, per tile and unit HEAD, TAIL and entries of the last chunk. Free chunks are taken in
ascending order (log 18). -/
structure Pool where
  next : Nat
  prim : SMap (Nat × Nat)
  attr : SMap (Nat × Nat)
  dir : SMap (Nat × Nat × Nat)
deriving DecidableEq, Repr

/-- A primitive as read back from the pool. -/
structure Prim where
  no : Nat
  t : Piece
  seq : Nat
  draw : Nat
  attr : Nat
deriving DecidableEq, Repr

/-- A tile slot (R285, R292, R295): raster unit, tile, shading core, the tile's sequence and the position in it, the visible tags
still pending (sample to position), depth per sample, per target four channels per sample in its internal format, and bits in
error of its 32-bit words (R247, R311). -/
structure TileSlot where
  unit' : Nat
  tile : Nat
  core : Nat
  seq : List Prim
  pos : Nat
  tags : SMap Nat
  dep : List Nat
  col : List (List (List Nat))
  err : SMap (BitVec 39)
deriving DecidableEq, Repr

/-- A pass in progress (R283, R296): its phase (1 geometry, 2 tile, 3 flushing), the draws read so far, what is left of the
current draw (triangles of the instance at hand, all of them, instances begun), triangles of the batch still to be binned, next SEQ
and batch, the bin pool, flushed tiles, one more than the batch in which the pool was last cleared, per unit the next tile of the
phase, and the tile slots. -/
structure PassSt where
  desc : Nat
  p : Pass
  phase : Nat
  draws : List (Draw × Kern × Kern)
  left : List (Nat × Nat × Nat)
  tris : List (Nat × Nat × Nat)
  inst : Nat
  bins : List (List Piece)
  seq : Nat
  batch : Nat
  pool : Pool
  flushed : List Nat
  cleared : Nat
  next : SMap Nat
  slots : List TileSlot
deriving DecidableEq, Repr

/-- Supply, clock and reset pins (R611 to R617, R620): VIN valid, system clock present, held in cold reset, PERST_N low,
and the straps sampled at the last release. -/
structure PinSt where
  vin : Bool
  clk : Bool
  held : Bool
  perst : Bool
  straps : Straps
deriving DecidableEq, Repr

/-- A plane as a DISP_FLIP set it (R335): its 32-byte record, and the partition, world and context of the descriptor. -/
structure PlaneRec where
  bytes : List Byte
  part : Nat
  w : Bool
  ctx : Nat
deriving DecidableEq, Repr

/-- A safety region (R336), with EXPECT as it stands, LEARN still to be done, the running CRC, its value at the end of the
region's last line, and mismatches in a row (R325, R326). -/
structure Region where
  x0 : Nat
  y0 : Nat
  x1 : Nat
  y1 : Nat
  expect : Nat
  en : Bool
  learn : Bool
  crc : Nat
  fails : Nat
deriving DecidableEq, Repr

/-- A display engine (R315 to R340): the flip it holds and the parameter block that its dispatch read (R57), the flip latched for
the next frame, the planes of the frame being scanned and those that govern the next one, the regions in effect and those of the
next frame start, the next line, the line last composed (packed as R325 says), failed trainings in a row. -/
structure DispSt where
  held : Option Nat
  pb : List Byte
  taken : Option Nat
  planes : List (Option PlaneRec)
  next : List (Option PlaneRec)
  regions : List Region
  nextRegions : List Region
  row : Nat
  line : List Nat
  trainFails : Nat
  scanning : Bool
deriving DecidableEq, Repr

/-- An AUX transaction (R334, R337): engine, defers and timeouts seen, the last reply code. -/
structure AuxSt where
  desc : Nat
  eng : Nat
  defers : Nat
  timeouts : Nat
  last : Nat
deriving DecidableEq, Repr

/-- A dispatched CAP_FRAME (R328 to R330): whether its frame has started, stamps, frame number, lines and bytes received,
the lengths of its first lines (R327), ERR, whether packets came after the buffer was full. -/
structure CapBuf where
  desc : Nat
  on : Bool
  tfs : Nat
  frameNo : Nat
  lines : Nat
  stored : Nat
  lens : List Nat
  err : Nat
  overrun : Bool
deriving DecidableEq, Repr

/-- A dispatched CAP_AUDIO (R333): frames stored, Beacon time and count of the first. -/
structure AudBuf where
  desc : Nat
  frames : Nat
  first : Nat
  idx : Nat
deriving DecidableEq, Repr

/-- An image slot of the boot flash (R480): its plaintext header, empty when absent, and the encrypted image. -/
structure ImgSlot where
  hdr : List Byte
  body : List Byte
deriving DecidableEq, Repr

/-- The boot flash (R478 to R480): the two directory copies with their DSEQ and slot where valid, and the two slots. -/
structure FlashSt where
  dirs : List (Option (Nat × Nat))
  slots : List ImgSlot
deriving DecidableEq, Repr

/-- A slot write through Lantern (R480, R490): slot, image length, IV, plaintext so far. -/
structure StoreSt where
  slot : Nat
  len : Nat
  iv : List Byte
  plain : List Byte
deriving DecidableEq, Repr

/-- Lantern (R442 to R469, R481, R482): OTP (lifecycle, UDS, HSCK, security-version floor, boot count), the volatile HSCK,
whether the keys are zeroised, an alarm since cold reset, BOOT_NONCE, the low half of the last accepted CTR, random draws
made, measurements of the running image, its LANTERN version, the answer of the Keeper mailbox, a slot write, the service
session key, the context that SEC_MOOR or SEC_RELEASE waits for, the SEQ written with the last GO, whether the host mailbox
comes next where both hold a request (R445). -/
structure LntSt where
  life : Nat
  uds : List Byte
  hsckOtp : Option (List Byte)
  svnFloor : Nat
  boots : Nat
  hsck : Option (List Byte)
  zeroised : Bool
  tampered : Bool
  nonce : Nat
  ctr : Nat
  draws : Nat
  mKeeper : List Byte
  mLantern : List Byte
  mGolden : List Byte
  version : Nat
  kStatus : Nat
  kData : List Byte
  store : Option StoreSt
  sk : Option (List Byte)
  wait : Option Nat
  goSeq : Nat
  turn : Bool
deriving DecidableEq, Repr

/-- An update over the service port (R484, R497): recovery stream or delta, target slot, length announced, bytes received. -/
structure UpdSt where
  recov : Bool
  slot : Nat
  len : Nat
  data : List Byte
deriving DecidableEq, Repr

/-- The service port (R485 to R490): rate code, whether a session is open, last SEQ, its cached response, counter value of
the last valid frame, the update in progress, one more than the counter value of a RECOVER_END that ended well, the SEQ
that the next request of the session must bear, an ACTIVATE whose response waits for the activation's end. -/
structure SvcSt where
  baud : Nat
  opened : Bool
  seq : Nat
  cached : Option (List Byte)
  lastC : Nat
  upd : Option UpdSt
  resetC : Nat
  next : Nat
  actWait : Bool
deriving DecidableEq, Repr

/-- An activation in progress (R493): slot, counter value of its start. -/
structure ActSt where
  slot : Nat
  c0 : Nat
deriving DecidableEq, Repr

/-- A frame pending at a CAN controller (R542, R554, R558): order in which it became pending, the route that sent it, or the
descriptor and record. -/
structure CanPend where
  f : CanFrame
  seq : Nat
  route : Option Nat
  tx : Option (Nat × Nat)
deriving DecidableEq, Repr

/-- A CAN controller: pending frames, bus-offs since a frame was last sent. -/
structure CanSt where
  pend : List CanPend
  offs : Nat
deriving DecidableEq, Repr

/-- A record of a GW_TX (R557, R558): descriptor, index, byte offset, interface, launch time, class, form of a CAN frame,
identifier, data; 0 waits for its launch time, 1 pending, 2 sent or dropped. -/
structure TxRec where
  desc : Nat
  idx : Nat
  off : Nat
  ifc : Nat
  t : Nat
  tc : Nat
  f : CanFrame
  st : Nat
deriving DecidableEq, Repr

/-- A GW_RX buffer (R558): descriptor, bytes written, one more than the counter value of the first record. -/
structure RxBuf where
  desc : Nat
  used : Nat
  first : Nat
deriving DecidableEq, Repr

/-- A latest-value route (R554): the frame held with its stamp, whether it arrived since the last instant, the last instant
served. -/
structure RouteSt where
  value : Option (CanFrame × Nat)
  fresh : Bool
  lastT : Nat
deriving DecidableEq, Repr

/-- An ACF stream (R550, R551): sequence number to send, or expected; whether one was received; messages collected; messages
that wait for their presentation time; the last talker instant served. -/
structure AcfSt where
  seq : Nat
  live : Bool
  msgs : List AcfMsg
  pres : List (Nat × List AcfMsg)
  lastT : Nat
deriving DecidableEq, Repr

/-- A flow meter (R548): tokens of the committed and the excess bucket in bit-microseconds' worth of bytes, last update. -/
structure MeterSt where
  c : Nat
  e : Nat
  at' : Nat
deriving DecidableEq, Repr

/-- The gateway (R541 to R559): controllers, transmit records, receive buffers, routes, signal slots (their 96-byte
records), streams, learned addresses (address, VLAN, port), frames waiting at an egress port with their class,
the frame that a port sends with the counter value at which the port may start the next, meters, the
gate lists that a commit replaced, and one more than the Beacon instant from which the new ones of a port (8: of the stream
gates) apply. -/
structure GwSt where
  can : SMap CanSt
  tx : List TxRec
  rx : List RxBuf
  routes : SMap RouteSt
  slots : SMap (List Byte)
  acf : SMap AcfSt
  macs : List (Nat × Nat × Nat)
  ethQ : List (Nat × Nat × EthFrame)
  busy : List (Nat × Nat × EthFrame)
  meters : SMap MeterSt
  live : SMap Word64
  swT : SMap Nat
deriving DecidableEq, Repr

/-- Beacon's own state (R506 to R518): next instants of the enabled comparators, one more than the counter value at which a
pulse ends, the servo's refusal (R512), counter value of the last exchange with the master. -/
structure BcnSt where
  next : SMap (Option Nat)
  pulse : SMap Nat
  refused : Bool
  lastC : Nat
deriving DecidableEq, Repr

/-- Power and ageing (R587 to R605): one more than the counter value since which a scheduled island has been idle, power-gated
islands, fast limits in force (bit 0 peak, bit 1 burst), samples above the peak limit in a row, one more than the counter
value since which samples stay above the burst limit, the running average in mW × 2^20 and whether it has started, floors
reached, caps of ISL_POWER and the requests Lantern defers, islands in a thermal episode, droops in progress, counter value
of the last busy moment of LTR, ageing sums by island (n, Σx, Σy, Σxx, Σxy as FP32), hourly sample taken, counter value up
to which the islands' times are counted. -/
structure PwrSt where
  idle : SMap Nat
  off : List Nat
  fast : Nat
  peaks : Nat
  burst : Nat
  avg : Nat
  started : Bool
  floored : Bool
  cap : SMap Nat
  defer' : List (Nat × Nat × Nat)
  therm : List Nat
  droop : List Nat
  ltrC : Nat
  age : SMap (List Nat)
  sampled : Bool
  tickC : Nat
deriving DecidableEq, Repr

/-- The whole state. -/
structure State where
  /-- The free-running counter c (R500), 1.25 ns per tick. -/
  now : Word64
  /-- The model's own counter of free values (log 7). -/
  fresh : Nat
  /-- Commands waiting, first in, first out. -/
  pending : List Instr
  /-- The answer of the last read the device performed for a requester. -/
  rdata : Word64
  /-- Register contents by storage offset; an unlisted register holds its reset value (R4). -/
  regs : SMap Word64
  /-- Active copies of staged registers (R33). -/
  active : SMap Word64
  /-- Shadows of counter registers (R570). -/
  shadow : SMap Word64
  /-- Low-half latches (R8): register, requester, high half. -/
  latches : List (Nat × Nat × Word32)
  /-- Data bytes of scratchpad, accumulator memory and DRAM by device-internal address. -/
  mem : List Host.Cell
  /-- Tags by codeword index (address / 32). -/
  tags : SMap (BitVec 12)
  /-- Codewords with bits in error or a wrong address parity, by codeword index. -/
  ecc : SMap (Option EccErr)
  /-- Host memory by bus address. -/
  host : List Host.Cell
  /-- What the device has sent and the levels of its output pins. -/
  out : Outputs
  pins : PinSt
  arm : Option Armed
  /-- Commit records, in fetch order (R474). -/
  descs : List Desc
  nextId : Nat
  /-- Latched doorbells (R49): queue, tail. -/
  dbLatch : SMap Nat
  coal : SMap Coal
  /-- Last signaller per semaphore (R574). -/
  signallers : SMap (Option Signaller)
  /-- Times of transient failures per channel key (R28), newest first. -/
  transients : SMap (List Nat)
  /-- Retired channels by channel key (R29). -/
  retired : List Nat
  trace : TraceSt
  pcie : PcieSt
  lnkOut : List LnkOut
  peerData : List PeerData
  trail : List TrailRd
  /-- By descriptor: reads of host memory without completion (R28, R564). -/
  cplTries : SMap Nat
  /-- Last write of each descriptor to each posted window: descriptor, window, device address, island (R562). -/
  posted : List (Nat × Nat × Nat × Nat)
  dirty : List DirtyLine
  ports : SMap PortSt
  /-- Attempts of the next pass of an array that an injection makes fail (R435). -/
  chkInject : SMap Nat
  /-- Look-aside buffers and root caches of the attention units. -/
  att : SMap AttSt
  /-- Order numbers: of finishing, borrowing and the like. -/
  seq : Nat
  /-- Queues stopped on an error (R65, R66), also while quiesced. -/
  stoppedQ : List Nat
  /-- The function whose descriptors firmware is fetching, and how many it has taken of it in this turn (R390). -/
  fetchFn : Nat
  fetchTaken : Nat
  jobs : SMap JobSt
  spills : List Spill
  grants : List Grant
  /-- Order in which borrowed granules were granted (R204). -/
  borrowSeq : SMap Nat
  /-- Open display windows (R356). -/
  dwins : List Nat
  gold : SMap (Option Gold)
  /-- Consecutive faults: of commands of DDR4 channel n at n (R220), of frames of a camera input at its channel key (R28). -/
  consec : SMap Nat
  /-- Next codeword of each scrubber (R219): 0 scratchpad, 1 + n channel n. -/
  scrub : SMap Nat
  /-- Held words 1 and 2 of MEM_RGN entries (R209). -/
  rgnHeld : SMap Word64
  /-- Secure entries whose relocation firmware has asked of Lantern (R221): entry, new base page, disabled. -/
  reloc : List (Nat × Nat × Bool)
  /-- Memory events reported to the PF driver (R221): entry, old base, new base. -/
  memEvents : List (Nat × Nat × Nat)
  /-- Counter value of the last short ZQ calibration (R217). -/
  zqLast : Nat
  kerns : List Kern
  wgs : List WgSt
  /-- Thread slots by 8 × core + slot. -/
  thr : SMap (Option ThrSt)
  /-- Caches, most recently used line first: texture L1 of core n at n, texture L2 of cluster k at 32 + k, instruction
  cache of core n at 64 + n. -/
  caches : SMap (List CLine)
  /-- Passes in progress (R283, R299). -/
  passes : List PassSt
  /-- The cluster that ran a context's last launch or pass (R349). -/
  lastCl : SMap Nat
  /-- Display engines. -/
  disps : SMap (Option DispSt)
  auxs : List AuxSt
  caps : List CapBuf
  auds : List AudBuf
  /-- TDM frames of a port since it started (R333), plus one; 0 before it starts. -/
  tdm : SMap Nat
  /-- One more than the Beacon time of the first clock edge of a TDM port that provides its clock (R332); 0 = none. -/
  tdmT0 : SMap Nat
  /-- One more than the counter value at which the frame-sync pulse of a camera input ends (R331); 0 = none. -/
  fsyncEnd : SMap Nat
  /-- Beacon time of the last frame-sync pulse of a camera input (R329); 0 = none. -/
  fsync : SMap Nat
  /-- The first descriptor number after the release of a context was commanded (R346). -/
  relC : SMap Nat
  /-- Islands that are being woken (R589). -/
  waking : List Nat
  /-- Engines already counted as denied to a display window in this display frame (R356): display, engine. -/
  denied : List (Nat × Nat)
  /-- What holds the clocks of the scheduled islands stopped: 0 temperature (R600), 1 coolant (R602). -/
  clkOff : List Nat
  /-- USED of each port class (R373) by 4 × port + class, 64-byte units; requests held at their ports, oldest first; ports
  that held a request in this window; the window's index; the set that the regulators apply (R378). -/
  qosUsed : SMap Nat
  qosHeld : List BusReq
  qosHold : List Nat
  qosWin : Nat
  qosLive : SMap Word64
  /-- Units that a descriptor has issued at a port class, and how far the present run of its work has come in them, by
  512 × descriptor + 4 × port + class (log 29): work that waits is run again, and its issued requests are not charged twice. -/
  qosPaid : SMap Nat
  qosCur : SMap Nat
  /-- Requests waiting at each DDR4 controller, oldest first (R376); open row of each bank, one more than its number, by
  64 × channel + bank; bursts that passed an older request; spill units served in the window, by 2 × channel + direction. -/
  ddrQ : SMap (List BusReq)
  ddrRow : SMap Nat
  ddrPass : SMap Nat
  ddrSpill : SMap Nat
  /-- Counter value at which a function's heartbeat expires (R395, R504); 0 = none. -/
  hbDue : SMap Nat
  /-- One more than the counter value at which a function-level reset began (R398); 0 = none. -/
  flrC : SMap Nat
  /-- Functions whose reset squashes, and functions that their reset removes (R400; 0 = the PF's own reset). -/
  flrSq : List Nat
  flrGone : List Nat
  /-- Arrays whose latest failed row failed its own check, not an injected one (R419, R435). -/
  chkReal : List Nat
  /-- Lockstep mismatches of a pair in consecutive runs (R425). -/
  pairRuns : SMap Nat
  /-- Beacon times at which the current FTTI window began (R407, R408) and its golden slots opened (R413, R495). -/
  fttiT : Nat
  slotT : Nat
  /-- No window begins at a boundary before this Beacon time: the instant of a change of FTTI_MS (R408). -/
  fttiFrom : Nat
  /-- The window's safety cycle has not yet advanced SEQ. -/
  cycle : Bool
  /-- Last advance of SEQ: counter value (moved on by a pause, R409), Beacon time (R433), FTTI_MS then; the watchdog has
  fired since. -/
  seqC : Nat
  seqT : Nat
  seqF : Nat
  wdgHit : Bool
  /-- Golden-test runs of an engine that an injection makes fail (R435). -/
  gtInject : SMap Nat
  /-- Windows of the disagreements of an array (R419). -/
  chkHist : SMap (List Nat)
  /-- Running SAF_GOLDEN_RUN descriptors: descriptor, engines still to test, engines that failed. -/
  gtReq : List (Nat × Nat × Nat)
  /-- Engines to be tested when they wake (R415). -/
  wakeTest : List Nat
  /-- The status block latched by the last fast read of the status target (R432). -/
  sst : List Byte
  /-- The boot flash, Lantern, the service port, an activation in progress, the plaintext of the running image, and of the
  image in the staging area with its slot. -/
  flash : FlashSt
  lnt : LntSt
  svc : SvcSt
  actv : Option ActSt
  runImg : List Byte
  stageImg : Option (Nat × List Byte)
  gw : GwSt
  bcn : BcnSt
  pwr : PwrSt
deriving DecidableEq, Repr

/-- The state after reset: the part is held in cold reset with its supply and clock good (R611 to R616), every register at
its reset value (R4), nothing listed in any memory, nothing fetched, sent or waiting. COLD_RESET_RELEASE starts it. -/
def State.reset : State where
  now := 0
  fresh := 0
  pending := []
  rdata := 0
  regs := []
  active := []
  shadow := []
  latches := []
  mem := []
  tags := []
  ecc := []
  host := []
  out := { msix := [], ltr := [], lnk := [], fwd := [], can := [], eth := [], sync := [], acf := [], uart := [], aer := 0, faultN := false,
           safeReqN := false, bcnOut := List.replicate 8 false, camFsync := [], aux := [], unsupported := 0 }
  pins := ⟨true, true, true, false, ⟨false, false⟩⟩
  arm := none
  descs := []
  nextId := 1
  dbLatch := []
  coal := []
  signallers := []
  transients := []
  retired := []
  trace := ⟨[], [], none, [], [], none⟩
  pcie := ⟨false, 0, List.range 32, true, [], []⟩
  lnkOut := []
  peerData := []
  trail := []
  cplTries := []
  posted := []
  dirty := []
  ports := []
  chkInject := []
  att := []
  seq := 0
  stoppedQ := []
  fetchFn := 0
  fetchTaken := 0
  jobs := []
  spills := []
  grants := []
  borrowSeq := []
  dwins := []
  gold := []
  consec := []
  scrub := []
  rgnHeld := []
  reloc := []
  memEvents := []
  zqLast := 0
  kerns := []
  wgs := []
  thr := []
  caches := []
  passes := []
  lastCl := []
  disps := []
  auxs := []
  caps := []
  auds := []
  tdm := []
  tdmT0 := []
  fsyncEnd := []
  fsync := []
  relC := []
  waking := []
  denied := []
  clkOff := []
  qosUsed := []
  qosHeld := []
  qosHold := []
  qosWin := 0
  qosLive := []
  qosPaid := []
  qosCur := []
  ddrQ := []
  ddrRow := []
  ddrPass := []
  ddrSpill := []
  hbDue := []
  flrC := []
  flrSq := []
  flrGone := []
  chkReal := []
  pairRuns := []
  fttiT := 0
  slotT := 0
  fttiFrom := 0
  cycle := false
  seqC := 0
  seqT := 0
  seqF := 100
  wdgHit := false
  gtInject := []
  chkHist := []
  gtReq := []
  wakeTest := []
  sst := []
  flash := ⟨[Config.factoryDir 0, Config.factoryDir 1], [⟨Config.factoryHdr 0, Config.factoryBody 0⟩, ⟨Config.factoryHdr 1, Config.factoryBody 1⟩]⟩
  lnt := { life := Config.lifecycle, uds := Config.uds, hsckOtp := none, svnFloor := 0, boots := 0, hsck := none,
           zeroised := false, tampered := false, nonce := 0, ctr := 0, draws := 0, mKeeper := [], mLantern := [],
           mGolden := [], version := 0, kStatus := 0, kData := [], store := none, sk := none, wait := none, goSeq := 0, turn := false }
  svc := ⟨0, false, 0, none, 0, none, 0, 1, false⟩
  actv := none
  runImg := []
  stageImg := none
  gw := ⟨[], [], [], [], [], [], [], [], [], [], [], []⟩
  bcn := ⟨[], [], false, 0⟩
  pwr := { idle := [], off := [], fast := 0, peaks := 0, burst := 0, avg := 0, started := false, floored := false, cap := [],
           defer' := [], therm := [], droop := [], ltrC := 0, age := [], sampled := false, tickC := 0 }

end Sys2Proof.Machine
end

