-- ==== Sys2Proof/Machine/Ops.lean ====
section
/-!
DEFINITION. The named operations over registers, time and memory: sparse maps, register and field access, Beacon time,
the tagged codeword memories with their checks (R14 to R22, R27, R201, R208, R211, R212), host windows (R560 to R565).
-/

namespace Sys2Proof.Machine

/-! ### Sparse maps in canonical form -/

/-- The value at key `k`; an unlisted key has the default `d k`. -/
def mget {β : Type} (d : Nat → β) : SMap β → Nat → β
  | [], k => d k
  | (j, v) :: m, k => if k = j then v else mget d m k

/-- Insertion of a listed value, keeping keys rising. -/
def mins {β : Type} (k : Nat) (v : β) : SMap β → SMap β
  | [] => [(k, v)]
  | (j, w) :: m => if k = j then (k, v) :: m else if k < j then (k, v) :: (j, w) :: m else (j, w) :: mins k v m

/-- Removal of a key. -/
def mdel {β : Type} (k : Nat) : SMap β → SMap β
  | [] => []
  | (j, w) :: m => if k = j then mdel k m else (j, w) :: mdel k m

/-- Writing a value: the default removes the entry, so equal maps are equal lists. -/
def mset {β : Type} [DecidableEq β] (d : Nat → β) (m : SMap β) (k : Nat) (v : β) : SMap β :=
  if v = d k then mdel k m else mins k v m

/-- Keys strictly rising from above `b`. -/
def msorted {β : Type} : Option Nat → SMap β → Bool
  | _, [] => true
  | none, (j, _) :: m => msorted (some j) m
  | some b, (j, _) :: m => decide (b < j) && msorted (some j) m

/-- The canonical form. -/
def mwf {β : Type} [DecidableEq β] (d : Nat → β) (m : SMap β) : Bool :=
  msorted none m && m.all (fun e => decide (e.2 ≠ d e.1))

/-- Removal of every key in `[lo, hi)`. -/
def mclear {β : Type} (lo hi : Nat) (m : SMap β) : SMap β :=
  m.filter (fun e => e.1 < lo || hi ≤ e.1)

/-- The same value at every key of `[lo, lo + n)`. -/
def mfill {β : Type} [DecidableEq β] (d : Nat → β) (lo n : Nat) (v : β) (m : SMap β) : SMap β :=
  m.filter (fun e => e.1 < lo) ++
    ((List.range n).map (fun i => (lo + i, v))).filter (fun e => decide (e.2 ≠ d e.1)) ++
    m.filter (fun e => lo + n ≤ e.1)

/-! ### Register tables -/

/-- Offset of `off` within the element of a register set, when the set covers it. -/
def RegSpec.within (sp : RegSpec) (off : Nat) : Option Nat :=
  if off < sp.off then none else
  let o := off - sp.off
  let i := if sp.s1 = 0 then 0 else o / sp.s1
  let r := if sp.s1 = 0 then o else o % sp.s1
  let j := if sp.s2 = 0 then 0 else r / sp.s2
  let r2 := if sp.s2 = 0 then r else r % sp.s2
  if i < sp.n1 ∧ j < sp.n2 ∧ r2 < sp.bits / 8 then some r2 else none

/-- First and second index of an offset in a register set. -/
def RegSpec.index (sp : RegSpec) (off : Nat) : Nat × Nat :=
  let o := off - sp.off
  let i := if sp.s1 = 0 then 0 else o / sp.s1
  let r := if sp.s1 = 0 then o else o % sp.s1
  (i, if sp.s2 = 0 then 0 else r / sp.s2)

/-- The register that holds offset `off`, and the offset of its first byte. -/
def regAt (off : Nat) : Option (RegSpec × Nat) :=
  let rec go : List RegSpec → Option (RegSpec × Nat)
    | [] => none
    | sp :: sps =>
      match sp.within off with
      | some r => some (sp, off - r)
      | none => go sps
  go (blockTable off)

/-- Bits of the reset value that the tables give by index: partition 0 enabled (R366), exempt ports (R372),
the planes and fetch weight of the PF (R389, R405). -/
def resetByIndex (base : Nat) : Nat :=
  if base = QOS_PART 0 then 1
  else if base = QOS_PORT_CTL 40 ∨ base = QOS_PORT_CTL 72 ∨ base = QOS_PORT_CTL 73 then 4
  else if base = VIRT_FN_W3 0 then 0xFFFFFFFF
  else 0

/-- Reset value of the register whose first byte is at `base` (R4). -/
def regReset (base : Nat) : Word64 :=
  match regAt base with
  | none => 0
  | some (sp, _) =>
    BitVec.ofNat 64 (sp.flds.foldl (fun a f => a + f.rst % 2 ^ f.w * 2 ^ f.lo) 0 + resetByIndex base)

/-- The island of a staged register at `base`, if it is one (R33). -/
def stagedIsland (off : Nat) : Option Nat :=
  match regAt off with
  | none => none
  | some (sp, b) =>
    match sp.staging with
    | .none => none
    | .island n => some n
    | .perUnit n => some (n + (sp.index b).1)

/-! ### Registers in the state -/

def State.reg (s : State) (base : Nat) : Word64 := mget regReset s.regs base

def State.setReg (s : State) (base : Nat) (v : Word64) : State :=
  { s with regs := mset regReset s.regs base v }

/-- The active copy of a staged register. -/
def State.act (s : State) (base : Nat) : Word64 := mget regReset s.active base

def State.setAct (s : State) (base : Nat) (v : Word64) : State :=
  { s with active := mset regReset s.active base v }

/-- Value of a field. -/
def State.get (s : State) (f : Fref) : Nat := bitsOf (s.reg f.off).toNat f.lo f.w

/-- A count of an allotment (R388): zero after a failed check. -/
def State.cnt (s : State) (f : Fref) : Nat :=
  if s.get (VIRT_FN_W5_CFG_ERR ((f.off - VIRT_FN_W0 0) / 128)) = 1 then 0 else s.get f

/-- Value of a field in the active copy. -/
def State.getA (s : State) (f : Fref) : Nat := bitsOf (s.act f.off).toNat f.lo f.w

/-- Field set to the low bits of `v`; other bits kept. -/
def State.put (s : State) (f : Fref) (v : Nat) : State :=
  s.setReg f.off (BitVec.ofNat 64 (putBits (s.reg f.off).toNat f.lo f.w v))

/-- A one-bit field. -/
def State.flag (s : State) (f : Fref) : Bool := s.get f == 1
def State.flagA (s : State) (f : Fref) : Bool := s.getA f == 1

/-- Nothing runs: the part is held in cold reset, or its clock generators have no system clock (R611, R612). -/
def State.dead (s : State) : Bool := s.pins.held || !s.pins.clk

/-! ### Time (R500 to R504) -/

/-- The free-running counter as a number. -/
def State.c (s : State) : Nat := s.now.toNat

/-- Beacon offset as a signed 64.32 fixed-point number. -/
def State.offFix (s : State) : Int :=
  sgn 64 (s.get (BCN_OFFSET_OFFSET)) * 4294967296 + (s.get BCN_OFFSET_FRAC_FRAC : Int)

/-- Beacon time at counter value `c` (R501). -/
def State.beaconAt (s : State) (c : Nat) : Nat :=
  (((s.offFix + (c : Int) * (s.get BCN_RATE_RATE : Int)) / 4294967296) % 18446744073709551616).toNat

/-- Beacon time now. -/
def State.beacon (s : State) : Nat := s.beaconAt s.c

/-- Ticks of a duration in ns at the nominal 1.25 ns (R504). -/
def nsTicks (ns : Nat) : Nat := ns * 4 / 5
/-- ns of a number of ticks. -/
def ticksNs (t : Nat) : Nat := t * 5 / 4
def usTicks (us : Nat) : Nat := us * 800
def msTicks (ms : Nat) : Nat := ms * 800000

/-- ns elapsed on the counter since `c0`. -/
def State.sinceNs (s : State) (c0 : Nat) : Nat := ticksNs (s.c - c0)

/-! ### Address spaces (R14, R15) -/

def spdEnd : Nat := 0x8000000
def accBase : Nat := 0x10000000
def accEnd : Nat := 0x10800000
def dramBase : Nat := 0x10000000000
def dramEnd : Nat := 0x14000000000
def peerBase : Nat := 0x400000000000
def hostBase : Nat := 0x800000000000
def addrEnd : Nat := 0x1000000000000

/-- The kinds of target of R14. -/
inductive Space where
  | spd
  | acc (a : Nat)
  | dram
  | peer (dev : Nat)
  | host
  | hole
deriving DecidableEq, Repr

def spaceOf (a : Nat) : Space :=
  if a < spdEnd then .spd
  else if accBase ≤ a ∧ a < accEnd then .acc ((a - accBase) / 0x200000)
  else if dramBase ≤ a ∧ a < dramEnd then .dram
  else if peerBase ≤ a ∧ a < hostBase then .peer ((a - peerBase) / 0x10000000000)
  else if hostBase ≤ a ∧ a < addrEnd then .host
  else .hole

/-- The enabled DDR_MAP range that covers DRAM offset `d` (R215). -/
def State.ddrRange (s : State) (d : Nat) : Option Nat :=
  (List.range 8).find? (fun i =>
    s.flag (DDR_MAP_EN i) && decide (s.get (DDR_MAP_BASE_GB i) * 2 ^ 30 ≤ d) &&
      decide (d < (s.get (DDR_MAP_BASE_GB i) + s.get (DDR_MAP_SIZE_GB i)) * 2 ^ 30))

/-- End of the mapped DRAM run that starts in a range, following contiguous ranges. -/
def State.ddrRunEnd (s : State) : Nat → Nat → Nat
  | 0, d => d
  | n + 1, d =>
    match s.ddrRange d with
    | none => d
    | some i => s.ddrRunEnd n ((s.get (DDR_MAP_BASE_GB i) + s.get (DDR_MAP_SIZE_GB i)) * 2 ^ 30)

/-- Set bits of a mask below `n`, ascending. -/
def maskBits (n m : Nat) : List Nat := (List.range n).filter (fun i => bitOf m i)

/-- Number of set bits. -/
def popc (n m : Nat) : Nat := (maskBits n m).length

/-- Channel and local address of DRAM offset `d` (R215). -/
def State.ddrMap (s : State) (d : Nat) : Nat × Nat :=
  match s.ddrRange d with
  | none => (0, d)
  | some i =>
    let chans := maskBits 8 (s.get (DDR_MAP_CHMASK i))
    let n := max 1 chans.length
    let u := (d - s.get (DDR_MAP_BASE_GB i) * 2 ^ 30) / 4096
    (nth 0 chans (u % n), s.get (DDR_MAP_CHOFF_GB i) * 2 ^ 30 + u / n * 4096 + d % 4096)

/-- Bank and row of a scratchpad address (R199): slice, bank within the slice, codeword row. -/
def spdBank (a : Nat) : Nat × Nat × Nat :=
  let b := Nat.xor (a / 64 % 512) (a / 32768 % 512)
  (b % 16, b / 16, 2 * (a / 32768 % 4096) + a / 32 % 2)

/-- DRAM coordinates of a local address (R216): column bits [9:3], bank group, bank, rank, row. -/
def State.ddrCoord (s : State) (ch l : Nat) : Nat × Nat × Nat × Nat × Nat :=
  let two := s.get (DDR_CFG_RANKS ch)
  if s.get (DDR_CFG_WIDTH ch) = 1 then
    let r := l / 131072
    (l / 64 % 128, l / 8192 % 2, l / 16384 % 2 + 2 * (l / 32768 % 2),
      (if two = 1 then r % 2 else 0), l / 65536 % 2 + 2 * (if two = 1 then r / 2 else r))
  else
    let r := l / 131072
    (l / 64 % 128, l / 8192 % 4, l / 32768 % 4, (if two = 1 then r % 2 else 0), if two = 1 then r / 2 else r)

/-- The first address outside the mapped range that holds `a`, or none when `a` itself is unmapped (R15).
Host windows are checked by R560 and peer windows by size. -/
def State.mappedEnd (s : State) (a : Nat) : Option Nat :=
  match spaceOf a with
  | .spd => some spdEnd
  | .acc n => if s.retired.contains n then none else some (accBase + (n + 1) * 0x200000)
  | .dram => if (s.ddrRange (a - dramBase)).isSome then some (dramBase + s.ddrRunEnd 8 (a - dramBase)) else none
  | .peer dev => if dev = s.get LNK_CFG_DEV_ID then none else
      let o := a % 0x10000000000
      if o < 0x8000000 then some (a - o + 0x8000000)
      else if 0x10000000 ≤ o ∧ o < 0x10800000 then some (a - o % 0x200000 + 0x200000)
      else if 0x4000000000 ≤ o ∧ o < 0x8000000000 then some (a - o + 0x8000000000)
      else none
  | .host => some addrEnd
  | .hole => none

/-- The first address of `[a, a+len)` outside the mapped ranges (R15). -/
def State.addrError (s : State) (a len : Nat) : Option Nat :=
  match s.mappedEnd a with
  | none => some a
  | some e => if a + len ≤ e then none else some e

/-! ### Tags (R19) -/

/-- The tag of a codeword that is not listed: partition 0, normal world, CMP 7, poisoned (log 6). -/
def tagDefault : Nat → BitVec 12 := fun _ => 0xE00

def State.tag (s : State) (cw : Nat) : Nat := (mget tagDefault s.tags cw).toNat

def tagPart (t : Nat) : Nat := t % 64
def tagW (t : Nat) : Nat := t / 64 % 2
def tagCrit (t : Nat) : Nat := t / 128 % 4
def tagCmp (t : Nat) : Nat := t / 512
def mkTag (part w crit cmp : Nat) : Nat := part % 64 + w % 2 * 64 + crit % 4 * 128 + cmp % 8 * 512

def State.setTag (s : State) (cw t : Nat) : State :=
  { s with tags := mset tagDefault s.tags cw (BitVec.ofNat 12 t) }

/-- Set bits among the low `n` bits of `v`. -/
def onesBelow (n v : Nat) : Nat := ((List.range n).filter (fun i => bitOf v i)).length

/-- The codeword of 32 bytes, a tag and an address as it is stored (R18): data, tag, 18 check bits, overall parity over bits
[285:0], and even parity over address bits [47:5]. -/
def formWord (data : List Byte) (tag addr : Nat) : BitVec 288 :=
  let body := leNat data % 2 ^ 256 + tag % 2 ^ 12 * 2 ^ 256
  let v := body + (Config.bchCheck (BitVec.ofNat 268 body)).toNat * 2 ^ 268
  BitVec.ofNat 288 (v + onesBelow 286 v % 2 * 2 ^ 286 + onesBelow 48 (addr / 32 * 32) % 2 * 2 ^ 287)

/-- Bits in error in the data, tag, check and overall-parity fields (R22). -/
def EccErr.bits (e : EccErr) : Nat := onesBelow 287 e.mask.toNat

/-- The stored address parity does not match (R22). -/
def EccErr.misdir (e : EccErr) : Bool := bitOf e.mask.toNat 287

/-- An injected error of `n` bits (R435): the lowest ones, since the spec names none (log 31). -/
def injectedErr (n : Nat) : EccErr := ⟨BitVec.ofNat 288 (2 ^ n - 1), true⟩

def eccDefault : Nat → Option EccErr := fun _ => none

def State.eccAt (s : State) (cw : Nat) : Option EccErr := mget eccDefault s.ecc cw

def State.setEcc (s : State) (cw : Nat) (e : Option EccErr) : State :=
  { s with ecc := mset eccDefault s.ecc cw e }

/-! ### Bytes -/

/-- What an unlisted byte reads as (log 6). -/
def memDefault : Nat → Byte := fun _ => 0

/-- The canonical form of a byte memory. -/
def Memory.wf (m : List Host.Cell) : Bool := mwf memDefault m

def State.byte (s : State) (a : Nat) : Byte := mget memDefault s.mem a

def State.rawBytes (s : State) (a : Nat) : Nat → List Byte
  | 0 => []
  | n + 1 => s.byte a :: s.rawBytes (a + 1) n

/-- Store a byte string without checks. -/
def storeBytes (m : List Host.Cell) (a : Nat) : List Byte → List Host.Cell
  | [] => m
  | b :: bs => storeBytes (mset memDefault m a b) (a + 1) bs

def State.hostByte (s : State) (a : Nat) : Byte := mget memDefault s.host a

def State.hostBytes (s : State) (a : Nat) : Nat → List Byte
  | 0 => []
  | n + 1 => s.hostByte a :: s.hostBytes (a + 1) n

/-- The 288 bits stored for codeword `cw` (R18). -/
def State.stored (s : State) (cw : Nat) : BitVec 288 :=
  let w := formWord (s.rawBytes (32 * cw) 32) (s.tag cw) (32 * cw)
  match s.eccAt cw with
  | none => w
  | some e => w ^^^ e.mask

/-! ### Requesters and checks (R21) -/

/-- A memory requester: partition, world, island, context, function, and the descriptor it works for. -/
structure MReq where
  part : Nat
  w : Bool
  isl : Nat
  ctx : Nat
  desc : Option Nat
deriving DecidableEq, Repr

/-- Why an access did not happen: a status code of R63 with its DETAIL address, or data not yet returned by a peer. -/
inductive MErr where
  | fail (status detail : Nat)
  | wait
deriving DecidableEq, Repr

/-- The enabled MEM_RGN entry that decides a DRAM address (R208): the lowest-numbered that covers it. -/
def State.rgnOf (s : State) (a : Nat) : Option Nat :=
  (List.range 128).find? (fun i =>
    s.flag (MEM_RGN_W0_EN i) && decide (s.get (MEM_RGN_W0_BASE i) ≤ a / 4096) &&
      decide (a / 4096 ≤ s.get (MEM_RGN_W1_LIMIT i)))

/-- Region check in front of the memory that holds `a` (R201, R208, R212). -/
def State.regionOk (s : State) (r : MReq) (wr : Bool) (a : Nat) : Bool :=
  match spaceOf a with
  | .spd =>
    let g := a / 0x40000
    let st := s.get (SPD_GRAN_STATE g)
    (st == 1 || st == 2) && s.get (SPD_GRAN_PART g) == r.part && (s.get (SPD_GRAN_W g) == 0 || r.w)
  | .acc n =>
    s.flag (ACC_OWNER_VALID n) && s.get (ACC_OWNER_PART n) == r.part && (s.get (ACC_OWNER_W n) == 0 || r.w)
  | .dram =>
    match s.rgnOf a with
    | none => false
    | some i =>
      (s.get (MEM_RGN_W0_W i) == 0 || r.w) &&
      (if wr then s.get (MEM_RGN_W0_PART i) == r.part && s.flag (MEM_RGN_W0_WR i)
       else s.get (MEM_RGN_W0_PART i) == r.part || bitOf (s.get (MEM_RGN_W2_SHARE_RD i)) r.part)
  | _ => true

/-- Tag check of one codeword for a read (R21). -/
def State.tagReadOk (s : State) (r : MReq) (a : Nat) : Bool :=
  let t := s.tag (a / 32)
  let shared := match spaceOf a with
    | .dram => match s.rgnOf a with
      | some i => bitOf (s.get (MEM_RGN_W2_SHARE_RD i)) r.part
      | none => false
    | _ => false
  (tagPart t == r.part || shared) && (tagW t == 0 || r.w) && tagCrit t != 3

/-- Tag check of one codeword for a write (R21). -/
def State.tagWriteOk (s : State) (r : MReq) (a : Nat) : Bool :=
  let t := s.tag (a / 32)
  tagPart t == r.part && (tagW t == 0 || r.w)

/-- The codeword-aligned addresses that `[a, a+len)` touches. -/
def cwAddrs (a len : Nat) : List Nat :=
  if len = 0 then [] else
  (List.range ((a + len - 1) / 32 - a / 32 + 1)).map (fun i => (a / 32 + i) * 32)

/-- First address of the access within a codeword. -/
def firstIn (a cw : Nat) : Nat := max a cw

end Sys2Proof.Machine
end

