-- ==== Sys2Proof/Machine/Flags.lean ====
section
/-!
DEFINITION. Status bits, saturating counters, interrupt messages, error logs, trace events, snapshots, safety events,
transient-failure accounting and retirement: the flag computations that every family shares.
-/

namespace Sys2Proof.Machine

/-! ### Counters -/

/-- Add to a counter or field, saturating at its largest value. -/
def State.bump (s : State) (f : Fref) (n : Nat) : State := s.put f (satN f.w (s.get f + n))

/-- Subtract from a field, stopping at zero. -/
def State.drop (s : State) (f : Fref) (n : Nat) : State := s.put f (s.get f - n)

/-! ### Messages (R393, R394) -/

/-- Pool vector of a function's local vector (R393). -/
def State.poolVec (s : State) (fn v : Nat) : Nat :=
  if fn = 0 then v else s.get (VIRT_FN_W2_VECBASE fn) + v

/-- Send an MSI-X message of function `fn`: nothing while its function-level reset is in progress (R398), a pending
bit when the vector is masked. -/
def State.msix (s : State) (fn v : Nat) : State :=
  if s.flag (VIRT_FN_W5_FLR_BUSY fn) then s
  else if bitOf (mget (fun _ => 0) s.pcie.table (2 * s.poolVec fn v + 1)).toNat 32 then
    if s.pcie.pendingBits.contains (fn, v) then s
    else { s with pcie := { s.pcie with pendingBits := s.pcie.pendingBits ++ [(fn, v)] } }
  else { s with out := { s.out with msix := s.out.msix ++ [(fn, s.poolVec fn v)] } }

/-- A PF message on `vec` when `en` is set. -/
def State.pfIrq (s : State) (vec en : Fref) : State :=
  if s.flag en then s.msix 0 (s.get vec) else s

/-- Set bits of FN_EVT and send the function's message (R392, R394). -/
def State.fnEvt (s : State) (fn bit : Nat) : State :=
  let s := s.put ⟨FN_EVT fn, bit, 1⟩ 1
  if s.flag (FN_EVT_CFG_EN fn) then s.msix fn (s.get (FN_EVT_CFG_VECTOR fn)) else s

/-- The PF event of R394. -/
def State.pfEvt (s : State) : State := s.pfIrq VIRT_CFG_EVT_VECTOR VIRT_CFG_EVT_EN

/-! ### Time and energy of the islands (R569) -/

/-- Bring the islands' times up to now: the clock of an island ran, or the island was gated; stopped clocks (R600, R602) are
neither. The energy drawn since is what the current monitors measured, which is open (log 7). -/
def State.accTime (s : State) : State :=
  let dt := s.c * 5 / 4 - s.pwr.tickC * 5 / 4
  if dt = 0 then s else
  let gated := s.get ⟨PWR_STAT, 8, 38⟩
  let s := (List.range 38).foldl (fun s i =>
    let s := if bitOf gated i then s.bump (DBG_ISL_W1_GATED_NS i) dt
      else if i < 8 && !s.clkOff.isEmpty then s
      else s.bump (DBG_ISL_W0_CLK_ON_NS i) dt
    s.bump (DBG_ISL_W2_ENERGY_UJ i) (Config.freeNat (s.fresh + i))) s
  { s with fresh := s.fresh + 38, pwr := { s.pwr with tickC := s.c } }

/-! ### Descriptor header fields (R50) -/

/-- Value of `n` bytes of a descriptor at offset `o`. -/
def Desc.u (d : Desc) (o n : Nat) : Nat := leNat ((d.bytes.drop o).take n)

def Desc.opc (d : Desc) : Nat := d.u 0 1
def Desc.ctxF (d : Desc) : Nat := d.u 1 1
def Desc.qid (d : Desc) : Nat := bitsOf (d.u 0 4) 16 14
def Desc.irq (d : Desc) : Bool := bitOf (d.u 0 4) 30
def Desc.fence (d : Desc) : Bool := bitOf (d.u 0 4) 31
def Desc.layerId (d : Desc) : Nat := d.u 4 2
def Desc.opId (d : Desc) : Nat := d.u 6 2
def Desc.waitIdx (d : Desc) : Nat := bitsOf (d.u 8 4) 0 12
def Desc.sigIdx (d : Desc) : Nat := bitsOf (d.u 8 4) 12 12
def Desc.deadline (d : Desc) : Nat := bitsOf (d.u 8 4) 24 8
def Desc.waitTgt (d : Desc) : Nat := d.u 12 2
def Desc.sigVal (d : Desc) : Nat := d.u 14 2

/-- The owning function of a queue (R40). -/
def State.qFn (s : State) (q : Nat) : Nat := s.get (CMD_Q_CFG_FUNC q)

/-- Global context of a descriptor (R387): local CTX plus CTXBASE for a VF's queue. -/
def State.ctxOf (s : State) (d : Desc) : Nat :=
  let f := s.qFn d.q
  if f = 0 then d.ctxF else s.get (VIRT_FN_W1_CTXBASE f) + d.ctxF

/-- Global semaphore of a local index in a descriptor (R387). -/
def State.semOf (s : State) (d : Desc) (i : Nat) : Nat :=
  let f := s.qFn d.q
  if f = 0 then i else s.get (VIRT_FN_W1_SEMBASE f) + i

/-- The world of a context: that of its partition (R366, R450). -/
def State.ctxW (s : State) (c : Nat) : Bool := s.flag (QOS_PART_W (s.get (SCH_CTX_CFG_PART c)))

/-- A descriptor of a secure context (R452). -/
def State.secureDesc (s : State) (d : Desc) : Bool := s.ctxW (s.ctxOf d)

/-- The islands that are secure-assigned: array islands that hold a secure descriptor, clusters that a secure context's
vector share names, DMA channels that move a row of one (R453 ff.). -/
def State.secIsl (s : State) (isl : Nat) : Bool :=
  if 4 ≤ isl ∧ isl < 8 then
    (List.range 256).any (fun c => [2, 3, 4].contains (s.get (SCH_CTX_STAT_STATE c)) && s.ctxW c &&
      bitOf (s.get (SCH_CTX_CFG_VCLUSTERS c)) (isl - 4))
  else
    s.descs.any (fun d => d.phase == .dispatched && s.secureDesc d &&
      d.parts.any (fun p => p.isl == isl && p.st != .notStarted && p.st != .done))

/-! ### Busy time of the arrays (R128) -/

/-- A part on its engine. -/
def Part.active (p : Part) : Bool := p.st == .running || p.st == .stopping

/-- Clocks of a scheduled island in a number of ticks. -/
def State.islClocks (s : State) (isl t : Nat) : Nat :=
  t * (if isl < 4 then s.get (ARR_CLK_STAT_FREQ_ACTIVE isl) else s.get (VEC_CLK_STAT_FREQ_ACTIVE (isl - 4))) / 800

/-- Bring ARR_CNT_BUSY_CLK up to now for the parts that run on arrays. -/
def State.accBusy (s : State) : State :=
  let on (d : Desc) (p : Part) : Bool := d.phase == .dispatched && decide (p.isl < 4) && p.active
  let s1 := s.descs.foldl (fun t d => if s.secureDesc d then t else
    (d.parts.filter (on d)).foldl (fun t p => t.bump (ARR_CNT_BUSY_CLK_COUNT p.isl) (s.islClocks p.isl (s.c - p.busyC))) t) s
  { s1 with descs := s.descs.map (fun d => { d with parts := d.parts.map (fun (p : Part) =>
      if on d p then { p with busyC := s.c } else p) }) }

/-! ### Snapshots (R570, R571) -/

/-- The counters as they stand now are copied; what is counted by time is brought up to date in the copy. -/
def State.snapshot (s : State) : State :=
  if s.flag DBG_SNAP_CTL_HELD then s.bump DBG_SNAP_MISSED_COUNT 1
  else
    let s := s.accTime
    let s := { s with shadow := s.accBusy.regs }
    (s.put DBG_SNAP_CTL_HELD 1).put DBG_SNAP_TIME_TIME s.beacon

/-- The memory requester of a descriptor on an island. -/
def State.mreq (s : State) (d : Desc) (isl : Nat) : MReq :=
  let c := s.ctxOf d
  ⟨s.get (SCH_CTX_CFG_PART c), s.ctxW c, isl, c, some d.id⟩

def State.desc? (s : State) (i : Nat) : Option Desc := s.descs.find? (fun d => d.id == i)

def State.updDesc (s : State) (i : Nat) (f : Desc → Desc) : State :=
  { s with descs := s.descs.map (fun d => if d.id = i then f d else d) }

/-- A descriptor goes, with the buffers and requests that display and capture hold of it. -/
def State.delDesc (s : State) (i : Nat) : State :=
  { s with descs := s.descs.filter (fun d => d.id != i)
           caps := s.caps.filter (fun b => b.desc != i)
           auds := s.auds.filter (fun b => b.desc != i)
           auxs := s.auxs.filter (fun b => b.desc != i) }

/-! ### Trace (R572 to R578) -/

/-- Does trigger `t` match the event (R577)? -/
def State.trigMatch (s : State) (t : Nat) (e : Event) : Bool :=
  let same (x y m : Nat) : Bool := Nat.land (Nat.xor x y) m == 0
  s.flag (DBG_TRIG_W2_EN t) &&
  same e.kind (s.get (DBG_TRIG_W0_KIND t)) (s.get (DBG_TRIG_W0_KIND_M t)) &&
  same e.isl (s.get (DBG_TRIG_W0_ISLAND t)) (s.get (DBG_TRIG_W0_ISL_M t)) &&
  same e.status (s.get (DBG_TRIG_W0_STATUS t)) (s.get (DBG_TRIG_W0_STATUS_M t)) &&
  same e.layer (s.get (DBG_TRIG_W1_LAYER_ID t)) (s.get (DBG_TRIG_W1_LAYER_M t)) &&
  same e.op (s.get (DBG_TRIG_W1_OP_ID t)) (s.get (DBG_TRIG_W1_OP_M t))

/-- The effect of a match of trigger `t`. -/
def State.trigFire (s : State) (t : Nat) (e : Event) : State :=
  let hit := s.get DBG_TRIG_STAT_HIT
  let freezing := s.trace.post.isSome || s.flag DBG_TRACE_STAT_FROZEN
  let s1 := s.put DBG_TRIG_STAT_HIT (Nat.lor hit (2 ^ t))
  if freezing || bitOf hit t then s1
  else
    let s1 := if hit = 0 then
      (s1.put DBG_TRIG_STAT_TRIG_IDX (s.get DBG_TRACE_STAT_WR_IDX)).put DBG_TRIG_TIME_TRIG_TIME e.t else s1
    let s1 := if s.flag (DBG_TRIG_W2_FREEZE t) then
        let n := s.get (DBG_TRIG_W2_POST_COUNT t)
        let s1 := s1.put DBG_TRIG_STAT_FIRST t
        if n = 0 then s1.put DBG_TRACE_STAT_FROZEN 1 else { s1 with trace := { s1.trace with post := some n } }
      else s1
    let s1 := if s.flag (DBG_TRIG_W2_IRQ t) then
        (s1.put DBG_IRQ_TRIG 1).pfIrq DBG_IRQ_VECTOR DBG_IRQ_EN else s1
    if s.flag (DBG_TRIG_W2_SNAP t) then s1.snapshot else s1

/-- Record an event: the island's ring, then the triggers, then the queue to the trace writer (R575 to R578). -/
def State.emit (s : State) (e : Event) : State :=
  let ring := mget (fun _ => []) s.trace.rings e.isl
  let ring2 := (ring ++ [e]).drop (ring.length + 1 - 64)
  let s := if s.trace.stopped.contains e.isl then s else
    { s with trace := { s.trace with rings := mset (fun _ => []) s.trace.rings e.isl ring2 } }
  let admitted := (bitOf (s.get DBG_TRACE_KIND_KIND_MASK) e.kind || e.kind == 0x11) &&
    bitOf (s.get DBG_TRACE_FILT_ISL_MASK) e.isl
  if !admitted then s else
  let s := (List.range 4).foldl (fun s t => if s.trigMatch t e then s.trigFire t e else s) s
  if !s.flag DBG_TRACE_CFG_EN then s
  else if s.flag DBG_TRACE_STAT_FROZEN then
    if !s.flag DBG_TRACE_CFG_WRAP && decide (2 ^ (s.get DBG_TRACE_CFG_SIZE_LOG2 - 5) ≤ s.get DBG_TRACE_STAT_WR_IDX) then
      s.bump DBG_TRACE_LOST_COUNT 1 else s
  else if (s.trace.queue.filter (fun x => x.isl == e.isl)).length ≥ 32 then
    let s := s.bump DBG_TRACE_LOST_COUNT 1
    let n := mget (fun _ => 0) s.trace.drops e.isl + 1
    { s with trace := { s.trace with drops := mset (fun _ => 0) s.trace.drops e.isl n } }
  else { s with trace := { s.trace with queue := s.trace.queue ++ [e] } }

/-- An event that concerns no descriptor (R572). -/
def State.emitPlain (s : State) (isl kind a b : Nat) : State :=
  s.emit ⟨s.beacon, kind, isl, 0x3FFF, 0, 0, 0, 0, 0, a, b⟩

/-- An event of a descriptor; secure descriptors emit none (R453, R574). -/
def State.emitDesc (s : State) (d : Desc) (isl kind status a b : Nat) : State :=
  if s.secureDesc d then s
  else s.emit ⟨s.beacon, kind, isl, d.q, s.ctxOf d, status, d.idx, d.layerId, d.opId, a % 2 ^ 32, b % 2 ^ 64⟩

/-- The ERROR event of an entry written to an error log (R573). -/
def State.emitError (s : State) (isl block b : Nat) : State := s.emitPlain isl 0x0B (block % 2 ^ 26) b

/-! ### Safety events (R427 to R430) -/

/-- Fixed reactions (R427). -/
def fixedReaction (code : Nat) : Bool := [6, 9, 14, 16, 17].contains code

/-- The reaction of an event code; a fixed one is FAULT whatever the register holds. -/
def State.reaction (s : State) (code : Nat) : Nat :=
  if fixedReaction code then 3 else bitsOf (s.get SAF_REACT_REACT) (2 * code) 2

/-- The reaction that an event code takes now, the loss of the last array or cluster included (R421). -/
def State.reactionNow (s : State) (code : Nat) : Nat :=
  if code == 2 && (List.range 4).all (fun i => s.retired.contains i) then 3
  else if code == 3 && (List.range 4).all (fun i => s.retired.contains (4 + i)) then 3
  else s.reaction code

/-- SAFE_REQ_N and its status bit (R430). -/
def State.refreshSafe (s : State) : State :=
  let pend := s.get SAF_EVT_PEND
  let need := s.flag SAF_STATUS_SAFETY_READY &&
    ((List.range 18).any (fun n => bitOf pend n && decide (2 ≤ s.reactionNow n)) || !s.out.faultN)
  { s.put SAF_STATUS_SAFE_REQ (b2n need) with out := { s.out with safeReqN := !need } }

/-- Does the new event replace the one in SAF_EVT_LOG0 (R428)? Only an event of the same instant with a higher
reaction, or the same reaction and a lower code, keeps its place. -/
def State.logWins (s : State) (code react : Nat) : Bool :=
  let old := s.get SAF_EVT_LOG0_CODE
  !(s.get SAF_EVT_LOG1_TIME == s.beacon && s.get (SAF_CNT_COUNT old) != 0 &&
    (decide (react < s.reactionNow old) || (react == s.reactionNow old && decide (old < code))))

/-- Start a fog-signal dump (R580, R581): cause, island, descriptor. It is written at DUMP_WRITTEN. -/
def State.startDump (s : State) (cause isl d : Nat) : State :=
  if !((List.range 4).any (fun p => s.get (KPR_PAIR_STAT_STATE p) == 2)) then s
  else if s.flag DBG_DUMP_STAT_VALID || s.trace.dump.isSome then s.bump DBG_DUMP_MISSED_COUNT 1
  else { s with trace := { s.trace with dump := some (cause, isl, d) } }

/-- Raise a safety event with the given reaction (R428). -/
def State.safetyReact (s : State) (code react isl detail : Nat) (inj : Bool) : State :=
  let s := s.emitPlain 36 0x0F code detail
  let wins := s.logWins code react
  let s := s.bump (SAF_CNT_COUNT code) 1
  let s := s.put ⟨SAF_EVT, code, 1⟩ 1
  let setLog (s : State) (l0 l1 : Nat) : State :=
    ((((s.put ⟨l0, 0, 5⟩ code).put ⟨l0, 5, 1⟩ (b2n inj)).put ⟨l0, 6, 6⟩ isl).put ⟨l0, 32, 32⟩ detail).put ⟨l1, 0, 64⟩ s.beacon
  let s := if wins then setLog s SAF_EVT_LOG0 SAF_EVT_LOG1 else s
  let s := if react ≥ 1 then s.pfIrq SAF_IRQ_VECTOR SAF_IRQ_EN else s
  let s := if react ≥ 3 then
      let s := if s.flag SAF_STATUS_FAULT then s else setLog s SAF_FIRST_LOG0 SAF_FIRST_LOG1
      let s := s.put SAF_STATUS_FAULT 1
      let s := { s with out := { s.out with faultN := false } }
      if s.flag DBG_HANG_CFG_DUMP_ON_FAULT then s.startDump 3 63 0 else s
    else s
  s.refreshSafe

/-- A safety event with its configured reaction. -/
def State.safety (s : State) (code isl detail : Nat) (inj : Bool) : State :=
  s.safetyReact code (s.reaction code) isl detail inj

/-! ### Transient and permanent faults (R28 to R30, R420) -/

/-- Keys of the channels of R29. -/
def chIsl (n : Nat) : Nat := n
def chCan (n : Nat) : Nat := 0x100 + n
def chDisp (n : Nat) : Nat := 0x200 + n
def chCam (n : Nat) : Nat := 0x300 + n
def chDma (n : Nat) : Nat := 0x400 + n
def chLane (p l : Nat) : Nat := 0x500 + 4 * p + l
def chPort (p : Nat) : Nat := 0x600 + p
def chBank (b : Nat) : Nat := 0x10000 + b
def chPair (p : Nat) : Nat := 0x700 + p

def State.isRetired (s : State) (k : Nat) : Bool := s.retired.contains k

/-- Count one transient failure of a channel; the failures of the last RATE_MS, newest first (R28, R420). -/
def State.transient (s : State) (k : Nat) : State :=
  let old := mget (fun _ => []) s.transients k
  let keep := old.filter (fun t => decide (s.c - t < msTicks (s.get SAF_CTL_RATE_MS)))
  { s with transients := mset (fun _ => []) s.transients k (s.c :: keep) }

/-- The rate condition of R28: more than RATE_CNT failures within RATE_MS. -/
def State.rateHit (s : State) (k : Nat) : Bool :=
  decide ((mget (fun _ => []) s.transients k).length > s.get SAF_CTL_RATE_CNT)

/-- Put a channel on the retired list and raise its event (R29, R30, R421, R427). `why` is the DETAIL, `inj` that an injected
fault caused it (R435). -/
def State.retireBy (s : State) (k why : Nat) (inj : Bool) : State :=
  if s.isRetired k then s else
  let s := { s with retired := s.retired ++ [k] }
  if k < 4 then
    let s := ((s.put (TOP_ISL_MODE_PRESENT k) 0).put (ARR_STATUS_PRESENT k) 0)
    s.safetyReact 2 (s.reactionNow 2) k why inj
  else if k < 8 then
    let s := ((s.put (TOP_ISL_MODE_PRESENT k) 0).put (VEC_STATUS_PRESENT (k - 4)) 0).put (GFX_STATUS_PRESENT (k - 4)) 0
    s.safetyReact 3 (s.reactionNow 3) k why inj
  else if k < 64 then (s.put (TOP_ISL_MODE_PRESENT k) 0).safety 4 k why inj
  else s.safety 4 (if k / 0x100 = 1 then 33 else if k / 0x100 = 4 then 8 + k % 16
    else if k / 0x100 = 5 then 34 else 32) why inj

/-- A retirement that no injection caused. -/
def State.retire (s : State) (k why : Nat) : State := s.retireBy k why false

/-! ### Security events (R442, R469) -/

/-- Source code of a requester in LNT_SEC_EVT_LOG0. -/
def rqSrc : Requester → Nat
  | .fn _ => 0
  | .keeper => 1
  | .debug => 2
  | .lantern => 0

/-- Log a security event. -/
def State.secEvent (s : State) (off : Nat) (rq : Requester) (kind isl : Nat) : State :=
  let s := s.bump LNT_SEC_EVT_CNT_COUNT 1
  let s := (((s.put LNT_SEC_EVT_LOG0_OFFSET off).put LNT_SEC_EVT_LOG0_SRC (rqSrc rq)).put LNT_SEC_EVT_LOG0_KIND kind).put
    LNT_SEC_EVT_LOG0_ISLAND isl
  let s := s.put LNT_SEC_EVT_LOG1_TIME s.beacon
  s.emitError 37 0xF00000 (s.reg LNT_SEC_EVT_LOG0).toNat

/-! ### Free values (log 7) -/

/-- Take a fresh index of the free values. -/
def State.freshen (s : State) (n : Nat) : State := { s with fresh := s.fresh + n }

end Sys2Proof.Machine
end

