-- ==== Sys2Proof/Machine/Qos.lean ====
section
/-!
DEFINITION. Bandwidth regulation (R369 to R384): master ports, charges, windows, misses and the guarantee capacity.
-/

namespace Sys2Proof.Machine

/-- Data rate in MT/s of a RATE code (R236). -/
def ddrRate (code : Nat) : Nat :=
  match code with
  | 0 => 3200
  | 1 => 2933
  | 2 => 2666
  | _ => 2400

/-! ### Capacity (R377, R381, R382) -/

/-- Channels that are present. -/
def State.ddrPresent (s : State) : List Nat := (List.range 8).filter (fun ch => s.flag (DDR_CFG_PRESENT ch))

/-- Guarantee capacity in 64-byte units for a window of `us`: the channel peak is eight bytes per transfer. -/
def State.guarCap (s : State) (us : Nat) : Nat :=
  match s.ddrPresent with
  | [] => 0
  | ch :: cs => (cs.length + 1) * 9 * (8 * ddrRate (s.get (DDR_CFG_RATE ch))) * us / 16 / 64

/-- Sum of GUAR over all ports and classes, by a read of one field. -/
def guarSum (f : Nat → Nat → Nat) : Nat :=
  (List.range 75).foldl (fun n p => n + f p 0 + f p 1 + f p 2) 0

/-- QOS_STAT as the active set and the channels stand. -/
def State.refreshQos (s : State) : State :=
  (s.put QOS_STAT_CAP_UNITS (s.guarCap (s.getA QOS_CFG_WIN_US))).put QOS_STAT_GUAR_UNITS
    (guarSum (fun p c => s.getA (QOS_PORT_GUAR p c)))

/-- The check after a channel is lost (R381): over the capacity, the PF is told. -/
def State.overcommit (s : State) : State :=
  let s := s.refreshQos
  if s.get QOS_STAT_CAP_UNITS < s.get QOS_STAT_GUAR_UNITS then
    ((s.put QOS_STAT_OVERCOMMIT 1).put QOS_IRQ_OVERCOMMIT 1).pfIrq QOS_IRQ_VECTOR QOS_IRQ_EN
  else s.put QOS_STAT_OVERCOMMIT 0

/-! ### Ports and classes (R369 to R372) -/

/-- The master port of a request to DRAM. A requester's island above 63 carries the unit within the island: 64 × (n + 1) +
32 display engine n, 64 × (p + 1) + 34 link port p, 64 + 4 + k the texture units of cluster k, 64 + 33 the switch, 64 + a the
key-value port of array a, 64 × (ch + 1) + a DMA island the decompression engine in controller ch. -/
def State.portOf (s : State) (r : MReq) (wr : Bool) : Option Nat :=
  let d := r.desc.bind s.desc?
  let opc := match d with
    | some d => d.opc
    | none => 0
  let i := r.isl % 64
  let k := r.isl / 64
  if i < 4 then
    if k ≠ 0 then some (4 + i) else if wr then some (8 + i) else some i
  else if i < 8 then
    if k ≠ 0 then some (12 + i) else if opc = 0xA0 then some (16 + i) else some (8 + i)
  else if i < 24 then
    if k ≠ 0 then some (40 + k) else some (16 + i)
  else if i = 32 then
    if k ≠ 0 then some (48 + k) else
    match d with
    | some d => if d.opc = 0xB8 then some (53 + bitsOf (d.u 28 2) 0 3) else if d.opc = 0xB9 then some (61 + bitsOf (d.u 28 1) 0 2) else none
    | none => none
  else if i = 33 then some (if k = 0 then 65 else 66)
  else if i = 34 then (if k = 0 then none else some (67 + k))
  else if i = 36 then some (if r.desc.isSome then 72 else 74)
  else if i = 37 then some 73
  else none

/-- Ports that no budget holds (R372). -/
def exemptPort (p : Nat) : Bool := p == 40 || p == 72 || p == 73

/-- The class of a request (R371): that of the descriptor's context; of an arriving peer request, the CLASS of its header, which
its requester bears in place of a context; FCLASS for the ports without a descriptor. -/
def State.classOf (s : State) (r : MReq) (p : Nat) : Nat :=
  if p = 65 ∨ p = 66 ∨ p = 67 ∨ p = 74 then s.get (QOS_PORT_CTL_FCLASS p)
  else if 68 ≤ p ∧ p < 72 then r.ctx % 4
  else s.get (SCH_CTX_CFG_CRIT r.ctx)

/-- 64-byte units charged for an access (R370): a partial write of a burst counts twice. -/
def burstUnits (wr : Bool) (a len : Nat) : Nat :=
  if len = 0 then 0 else
  let lo := a / 64
  let hi := (a + len - 1) / 64
  let part := b2n (a % 64 != 0) + b2n ((a + len) % 64 != 0 && (hi != lo || a % 64 == 0))
  hi - lo + 1 + (if wr then part else 0)

def qosKey (p c : Nat) : Nat := 4 * p + c

def zeroN : Nat → Nat := fun _ => 0

/-- A field of the set that the regulators apply (R378). -/
def State.getL (s : State) (f : Fref) : Nat := bitsOf (mget regReset s.qosLive f.off).toNat f.lo f.w

/-- USED of a port class (R373). -/
def State.qosUse (s : State) (p c : Nat) : Nat := mget zeroN s.qosUsed (qosKey p c)

/-- Does class `c` of port `p` have requests held? -/
def State.holdsClass (s : State) (p c : Nat) : Bool := s.qosHeld.any (fun q => q.port == p && q.cls == c)

/-- HELD of a port shows the classes that have requests held now (R384). -/
def State.refreshHeld (s : State) (p : Nat) : State :=
  (List.range 3).foldl (fun s c => s.put ⟨QOS_PORT_STAT p, c, 1⟩ (b2n (s.holdsClass p c))) s

/-! ### The controllers' queues (R376) -/

/-- The pieces of an access in the 4 KiB units between which the map interleaves (R215): address and bytes. -/
def pieces4k (a len : Nat) : List (Nat × Nat) :=
  if len = 0 then [] else
  (List.range ((a + len - 1) / 4096 - a / 4096 + 1)).map (fun i =>
    (max a ((a / 4096 + i) * 4096), min (a + len) ((a / 4096 + i + 1) * 4096) - max a ((a / 4096 + i) * 4096)))

def noReqs : Nat → List BusReq := fun _ => []

def State.ddrWait (s : State) (ch : Nat) : List BusReq := mget noReqs s.ddrQ ch

/-- A request that has issued waits at the controllers of its channels. -/
def State.enqueue (s : State) (q : BusReq) : State :=
  (pieces4k q.addr q.len).foldl (fun s p =>
    let ch := (s.ddrMap (p.1 - dramBase)).1
    { s with ddrQ := mset noReqs s.ddrQ ch (s.ddrWait ch ++
        [{ q with addr := p.1, len := p.2, units := burstUnits q.wr p.1 p.2, win := s.qosWin }]) }) s

/-- Spill units that a channel serves ahead of all others in a window, in each direction: 6.4 GB/s (R206). -/
def State.spillShare (s : State) : Nat := 100 * s.getL QOS_CFG_WIN_US

/-- The level of a waiting request (R376). -/
def State.reqLevel (s : State) (ch : Nat) (q : BusReq) : Nat :=
  if q.port = 40 then (if mget zeroN s.ddrSpill (2 * ch + b2n q.wr) < s.spillShare then 1 else 4)
  else if !exemptPort q.port && decide (s.qosUse q.port q.cls < s.getL (QOS_PORT_GUAR q.port q.cls)) then
    (if 49 ≤ q.port ∧ q.port ≤ 60 then 2 else 3)
  else 4

/-- Bank and row of a request's next burst (R216). -/
def State.bankRow (s : State) (ch : Nat) (q : BusReq) : Nat × Nat :=
  let (_, g, b, r, row) := s.ddrCoord ch (s.ddrMap (q.addr - dramBase)).2
  (64 * ch + g + 4 * b + 16 * r, row + 1)

/-- The next request of a channel: of the lowest level that waits, the oldest; one to an open row passes older ones of its
level for at most 32 bursts (log 29). The Boolean says that it passed. -/
def State.ddrPick (s : State) (ch : Nat) : Option (BusReq × Bool) :=
  let qs := s.ddrWait ch
  let lvl := qs.foldl (fun m q => min m (s.reqLevel ch q)) 4
  match qs.filter (fun q => s.reqLevel ch q == lvl) with
  | [] => none
  | old :: more =>
    let isOpen (q : BusReq) : Bool := let (b, row) := s.bankRow ch q; mget zeroN s.ddrRow b == row
    if isOpen old ∨ 32 ≤ mget zeroN s.ddrPass ch then some (old, false)
    else match more.find? isOpen with
      | some q => some (q, true)
      | none => some (old, false)

/-- A controller serves one burst. -/
def State.ddrServe (s : State) (ch : Nat) : State :=
  match s.ddrPick ch with
  | none => s
  | some (q, passed) =>
    let (b, row) := s.bankRow ch q
    let qs := if q.units ≤ 1 then (s.ddrWait ch).erase q
      else (s.ddrWait ch).map (fun x => if x = q then { q with addr := q.addr + 64, units := q.units - 1 } else x)
    { s with ddrQ := mset noReqs s.ddrQ ch qs, ddrRow := mset zeroN s.ddrRow b row,
             ddrPass := mset zeroN s.ddrPass ch (if passed then mget zeroN s.ddrPass ch + 1 else 0)
             ddrSpill := if q.port = 40 then mset zeroN s.ddrSpill (2 * ch + b2n q.wr) (mget zeroN s.ddrSpill (2 * ch + b2n q.wr) + 1)
               else s.ddrSpill }

/-- One period of c at the controllers: each serves at its channel's peak, eight bytes per transfer (R377). -/
def State.ddrTick (s : State) : State :=
  if s.ddrQ.isEmpty then s else
  (List.range 8).foldl (fun s ch =>
    let r := ddrRate (s.get (DDR_CFG_RATE ch))
    if (s.c - 1) * r / 6400 < s.c * r / 6400 then s.ddrServe ch else s) s

/-! ### Charges (R370, R373) -/

/-- A request of a descriptor on a scheduled engine or DMA channel: the engine's work stands while it is held. -/
def BusReq.waits (q : BusReq) : Bool := q.desc != 0 && decide (q.isl < 24)

def paidKey (q : BusReq) : Nat := 512 * q.desc + qosKey q.port q.cls

/-- A request issues: it is charged and goes to the controllers. `now` says that the work at hand makes it. -/
def State.issueReq (s : State) (q : BusReq) (now : Bool) : State :=
  let s := if q.sec then s else s.bump (QOS_PORT_BYTES_COUNT q.port) (64 * q.units)
  let k := qosKey q.port q.cls
  let s := { s with qosUsed := mset zeroN s.qosUsed k (mget zeroN s.qosUsed k + q.units) }
  let s := if q.waits then
      { s with qosPaid := mset zeroN s.qosPaid (paidKey q) (mget zeroN s.qosPaid (paidKey q) + q.units)
               qosCur := if now then mset zeroN s.qosCur (paidKey q) (mget zeroN s.qosCur (paidKey q) + q.units) else s.qosCur }
    else s
  s.enqueue q

/-- A request stays at its port until a later window; a held one of the same work is held once. -/
def State.holdReq (s : State) (q : BusReq) : State :=
  if q.waits && s.qosHeld.any (fun x => x.desc == q.desc && x.port == q.port && x.cls == q.cls) then s else
  { s with qosHeld := s.qosHeld ++ [q]
           qosHold := if q.sec || s.qosHold.contains q.port then s.qosHold else s.qosHold ++ [q.port] }.refreshHeld q.port

/-- Does a request fit into the budget of its port class? -/
def State.reqFits (s : State) (q : BusReq) : Bool :=
  let b := s.getL (QOS_PORT_BUDGET q.port q.cls)
  b == 0xFFFFFF || decide (s.qosUse q.port q.cls + q.units ≤ b)

/-- Charge an access: false when it is held and the engine's work must wait (R373). A requester that cannot wait has its
request held at the port all the same (log 29). -/
def State.charge (s : State) (r : MReq) (wr : Bool) (a len : Nat) : State × Bool :=
  match spaceOf a, s.portOf r wr with
  | .dram, some p =>
    let q : BusReq := ⟨p, if exemptPort p then 0 else s.classOf r p, r.desc.getD 0, r.isl % 64, r.w, wr, a, len, burstUnits wr a len, s.qosWin⟩
    if exemptPort p then (s.enqueue q, true)
    else if q.cls = 3 then (s, true)
    else
      let cur := mget zeroN s.qosCur (paidKey q)
      if q.waits && decide (cur + q.units ≤ mget zeroN s.qosPaid (paidKey q)) then
        ({ s with qosCur := mset zeroN s.qosCur (paidKey q) (cur + q.units) }, true)
      else if !s.holdsClass p q.cls && s.reqFits q then (s.issueReq q true, true)
      else (s.holdReq q, !q.waits)
  | _, _ => (s, true)

/-- What a descriptor that ends leaves at the ports is dropped. -/
def State.dropReqs (s : State) (d : Nat) : State :=
  let mine := s.qosHeld.filter (fun q => q.desc == d)
  let s := { s with qosHeld := s.qosHeld.filter (fun q => q.desc != d)
                    qosPaid := s.qosPaid.filter (fun e => e.1 / 512 != d), qosCur := s.qosCur.filter (fun e => e.1 / 512 != d) }
  mine.foldl (fun s q => s.refreshHeld q.port) s

/-- Does a port of a scheduled engine or DMA channel serve a secure context? Its counters are frozen then (R384). -/
def State.portSecure (s : State) (p : Nat) : Bool :=
  if p < 12 then s.secIsl (p % 4) else if p < 24 then s.secIsl (4 + p % 4) else if p < 40 then s.secIsl (p - 16) else false

/-! ### Windows (R373, R380) -/

/-- A miss. -/
def State.qosMiss (s : State) (p c used guar : Nat) : State :=
  let s := (s.bump ⟨QOS_PORT_STAT p, 8 + 8 * c, 8⟩ 1).bump QOS_CNT_MISS_COUNT 1
  let s := (((s.put QOS_MISS_LOG0_PORT p).put QOS_MISS_LOG0_CLASS c).put QOS_MISS_LOG0_USED used).put QOS_MISS_LOG0_GUAR guar
  let s := (s.put QOS_MISS_LOG1_TIME s.beacon).put QOS_IRQ_GUARANTEE_MISS 1
  if c = 2 then s.safety 11 36 p false else s

/-- Has a request that a port class issued in the window not yet been served? -/
def State.unserved (s : State) (p c : Nat) : Bool :=
  s.ddrQ.any (fun e => e.2.any (fun q => q.port == p && q.cls == c && q.win == s.qosWin))

/-- The check of one port class at the end of a window. -/
def State.qosCheck (s : State) (k used : Nat) : State × Bool :=
  let g := s.getL (QOS_PORT_GUAR (k / 4) (k % 4))
  if used < g ∧ s.unserved (k / 4) (k % 4) then (s.qosMiss (k / 4) (k % 4) used g, true) else (s, false)

/-- Index of the regulation window at a Beacon time. -/
def State.qosIndex (s : State) (t : Nat) : Nat := t / (max 1 (s.getL QOS_CFG_WIN_US) * 1000)

/-- Held requests issue first in the new window, oldest first: the first of a class whatever its size, the others while the
budget lasts. -/
def State.qosRefill (s : State) (q : BusReq) : State :=
  let q := { q with win := s.qosWin }
  if !s.holdsClass q.port q.cls && (s.qosUse q.port q.cls == 0 || s.reqFits q) then (s.issueReq q false).refreshHeld q.port
  else s.holdReq q

/-- A new regulation window: the check of the old one, every USED at zero, the active set in force. -/
def State.newWindow (s : State) : State :=
  let (s, any) := s.qosUsed.foldl (fun (x : State × Bool) e =>
    let (s, b) := x.1.qosCheck e.1 e.2
    (s, x.2 || b)) (s, false)
  let s := if any then s.pfIrq QOS_IRQ_VECTOR QOS_IRQ_EN else s
  let s := s.qosHold.foldl (fun s p => if s.portSecure p then s else s.bump (QOS_PORT_HOLDWIN_COUNT p) 1) s
  let held := s.qosHeld
  let s := { s with qosUsed := [], qosHold := [], qosHeld := [], ddrSpill := []
                    qosLive := s.active.filter (fun e => 0xC00000 ≤ e.1 && e.1 < 0xC04000) }
  let s := { s with qosWin := s.qosIndex s.beacon }
  held.foldl State.qosRefill s

/-- REGULATION_WINDOW: a window boundary has come. -/
def execRegulationWindow (s : State) : Host.Outcome State Fault Refusal :=
  .next (if s.dead || s.qosIndex s.beacon == s.qosWin then s else s.newWindow)

end Sys2Proof.Machine
end

