-- ==== Sys2Proof/Machine/Memory.lean ====
section
/-!
DEFINITION. Checked memory access: the codeword decoder (R22), reads and writes with poison and merging (R21, R27, R211,
R264), host windows (R560 to R565), dirty-page logging (R401, R402), peer windows (R525 to R535).
-/

namespace Sys2Proof.Machine

/-! ### Error logs of the memories (R21, R235, R238) -/

/-- Write the error log of the memory that holds `a`; a secure requester leaves only STATUS and TIME (R457). -/
def State.memLog (s : State) (r : MReq) (status a : Nat) : State :=
  let sp := spaceOf a
  let base := match sp with
    | .dram => DDR_ERR_LOG0 (s.ddrMap (a - dramBase)).1
    | _ => SPD_ERR_LOG0
  let isl := match sp with
    | .spd => 8 + (spdBank a).1
    | .acc n => n
    | .dram => 24 + (s.ddrMap (a - dramBase)).1
    | _ => 36
  let v := if r.w then status * 2 ^ 48 else a % 2 ^ 48 + status * 2 ^ 48 + r.part * 2 ^ 56
  let s := (s.setReg base (BitVec.ofNat 64 v)).setReg (base + 8) (BitVec.ofNat 64 s.beacon)
  if r.w then s else s.emitError isl (base / 0x10000 * 0x10000) v

/-- Count and log a refused access (R235). -/
def State.refuseAccess (s : State) (r : MReq) (status a : Nat) : State :=
  let s := if status = 0x21 then s.bump SPD_CNT_TAGV_COUNT 1 else s.bump SPD_CNT_REGV_COUNT 1
  s.memLog r status a

/-! ### The decoder (R22) -/

/-- Count a corrected codeword. -/
def State.countCorr (s : State) (a : Nat) : State :=
  match spaceOf a with
  | .spd => s.bump SPD_CNT_CORR_COUNT 1
  | .acc n => s.bump (ARR_CNT_ACC_CORR_COUNT n) 1
  | .dram => s.bump (DDR_CNT_CORR_COUNT (s.ddrMap (a - dramBase)).1) 1
  | _ => s

/-- Count an uncorrectable codeword, its log, its events and its bank or channel (R22, R220, R427). -/
def State.countUncorr (s : State) (r : MReq) (a : Nat) (e : EccErr) : State :=
  let crit := tagCrit (s.tag (a / 32))
  let s := s.memLog r 0x23 a
  let s := match spaceOf a with
    | .spd =>
      let s := s.bump SPD_CNT_UNCORR_COUNT 1
      let s := if e.misdir then s.bump SPD_CNT_MISDIR_COUNT 1 else s
      let (sl, bk, _) := spdBank a
      let s := s.transient (chBank (sl + 16 * bk))
      if s.rateHit (chBank (sl + 16 * bk)) && !s.isRetired (chBank (sl + 16 * bk)) then
        { s.safety 12 (8 + sl) (sl + 16 * bk) e.inj with retired := s.retired ++ [chBank (sl + 16 * bk)] }
      else s
    | .acc n => s.bump (ARR_CNT_ACC_UNCORR_COUNT n) 1
    | .dram =>
      let ch := (s.ddrMap (a - dramBase)).1
      let s := s.bump (DDR_CNT_UNCORR_COUNT ch) 1
      let s := if e.misdir then s.bump (DDR_CNT_MISDIR_COUNT ch) 1 else s
      (s.bump (DDR_CNT_TRANSIENT_COUNT ch) 1).transient (chIsl (24 + ch))
    | _ => s
  let isl := match spaceOf a with
    | .spd => 8 + (spdBank a).1
    | .acc n => n
    | .dram => 24 + (s.ddrMap (a - dramBase)).1
    | _ => 63
  if crit = 2 then s.safety 13 isl (a % 2 ^ 32) e.inj else s

/-- Decode the codeword at `a` (R22): corrected words are written back, uncorrectable ones are poisoned keeping PART, W
and CRIT; the Boolean says that the data is delivered. -/
def State.decodeCw (s : State) (r : MReq) (a : Nat) : State × Bool :=
  match s.eccAt (a / 32) with
  | none => (s, true)
  | some e =>
    if e.bits ≤ 2 && !e.misdir then ((s.setEcc (a / 32) none).countCorr a, true)
    else
      let s := s.countUncorr r a e
      let t := s.tag (a / 32)
      ((s.setEcc (a / 32) none).setTag (a / 32) (mkTag (tagPart t) (tagW t) (tagCrit t) 7), false)

/-! ### Local accesses -/

/-- First codeword of the access that a check of R21 refuses, with the status. `own` marks accumulator writes of the
owning island, which skip the tag check (R212). -/
def State.firstRefused (s : State) (r : MReq) (wr own : Bool) : List Nat → Option (Nat × Nat)
  | [] => none
  | a :: as =>
    if !s.regionOk r wr a then some (0x22, a)
    else if !own && !(if wr then s.tagWriteOk r a else s.tagReadOk r a) then some (0x21, a)
    else s.firstRefused r wr own as

/-- The tag of ACC_OWNER with which the owning island writes accumulator codewords (R212). -/
def State.ownerTag (s : State) (r : MReq) (a : Nat) : Nat :=
  mkTag r.part (b2n r.w) (match spaceOf a with | .acc n => s.get (ACC_OWNER_CRIT n) | _ => 0) 0

/-- First codeword of a write of accumulator rows by the owning island that would carry another PART, W or CRIT than the other
codeword of its 64-byte block, which the write leaves (R20). -/
def State.firstUneven (s : State) (r : MReq) (a len : Nat) : List Nat → Option Nat
  | [] => none
  | x :: xs =>
    let y := if x % 64 = 0 then x + 32 else x - 32
    if (y + 32 ≤ a ∨ a + len ≤ y) ∧ s.tag (y / 32) % 512 ≠ s.ownerTag r a then some x
    else s.firstUneven r a len xs

/-- Decode and poison check of the codewords of a read. -/
def State.readCws (s : State) (r : MReq) : List Nat → State × Option MErr
  | [] => (s, none)
  | a :: as =>
    let (s, ok) := s.decodeCw r a
    if !ok then (s, some (.fail 0x23 a))
    else if tagCmp (s.tag (a / 32)) = 7 then (s, some (.fail 0x24 a))
    else s.readCws r as

/-- A read of scratchpad, accumulator memory or DRAM; one that its port holds waits (R373). -/
def State.readLocal (s : State) (r : MReq) (a len : Nat) : State × Except MErr (List Byte) :=
  match s.firstRefused r false false (cwAddrs a len) with
  | some (st, x) => (s.refuseAccess r st x, .error (.fail st x))
  | none =>
    match s.charge r false a len with
    | (s, false) => (s, .error .wait)
    | (s, true) =>
      match s.readCws r (cwAddrs a len) with
      | (s, some e) => (s, .error e)
      | (s, none) => (s, .ok (s.rawBytes a len))

/-- Bytes of DRAM traffic on a channel (R238); a command that passes ends a row of consecutive command faults (R220). -/
def State.countChannel (s : State) (wr : Bool) (ch n : Nat) : State :=
  let s := { s with consec := mdel ch s.consec }
  s.bump (if wr then DDR_CNT_WR_BYTES_COUNT ch else DDR_CNT_RD_BYTES_COUNT ch) n

/-- Bytes of DRAM traffic (R238), each on its channel. -/
def State.countDdr (s : State) (wr : Bool) (a len : Nat) : State :=
  match spaceOf a with
  | .dram => (pieces4k a len).foldl (fun s p => s.countChannel wr (s.ddrMap (p.1 - dramBase)).1 p.2) s
  | _ => s

/-- The tag of a codeword after a write (R27, R211, R264): a whole codeword takes `cmp`, a partial one keeps its CMP;
PART, W and CRIT are kept, or replaced by `owner` for the owning island (R212). -/
def State.tagAfter (s : State) (whole : Bool) (cmp : Nat) (owner : Option Nat) (cw : Nat) : Nat :=
  let t := s.tag cw
  match owner with
  | some o => mkTag (tagPart o) (tagW o) (tagCrit o) (if whole then cmp else tagCmp t)
  | none => mkTag (tagPart t) (tagW t) (tagCrit t) (if whole then cmp else tagCmp t)

/-- Store bytes and retag the codewords they cover, without checks. A partial write first decodes the codeword. -/
def State.storeCws (s : State) (r : MReq) (a len cmp : Nat) (owner : Option Nat) : List Nat → State
  | [] => s
  | cw :: cws =>
    let whole := decide (a ≤ cw) && decide (cw + 32 ≤ a + len)
    let s := if whole then s.setEcc (cw / 32) none else (s.decodeCw r cw).1
    let s := s.setTag (cw / 32) (s.tagAfter whole cmp owner (cw / 32))
    s.storeCws r a len cmp owner cws

/-- A write of scratchpad, accumulator memory or DRAM. -/
def State.writeLocal (s : State) (r : MReq) (own : Bool) (a cmp : Nat) (bytes : List Byte) : State × Option MErr :=
  let len := bytes.length
  match s.firstRefused r true own (cwAddrs a len) with
  | some (st, x) => (s.refuseAccess r st x, some (.fail st x))
  | none =>
    match (if own then s.firstUneven r a len (cwAddrs a len) else none) with
    | some x => (s.refuseAccess r 0x21 x, some (.fail 0x21 x))
    | none =>
    match s.charge r true a len with
    | (s, false) => (s, some .wait)
    | (s, true) =>
      let owner := if own then some (s.ownerTag r a) else none
      let s := s.storeCws r a len cmp owner (cwAddrs a len)
      (({ s with mem := storeBytes s.mem a bytes }).countDdr true a len, none)

/-! ### Host memory: bus accesses, dirty logging -/

/-- Can the function reach host memory? Bus mastering enabled and the link up (R62, R562). -/
def State.busOk (s : State) (fn : Nat) : Bool := s.pcie.linkUp && s.pcie.busMaster.contains fn

/-- Write back one held line of a dirty bitmap (R402): bits are only ever set. -/
def writeLine (h : List Host.Cell) (l : DirtyLine) : List Host.Cell :=
  storeBytes h l.bus (leBytes 64 l.bits)

/-- Write back all lines of a function's bitmap. -/
def State.flushDirty (s : State) (fn : Nat) : State :=
  let mine := s.dirty.filter (fun l => l.fn == fn)
  { s.bump (VIRT_FN_W10_COUNT fn) mine.length with
           host := mine.foldl writeLine s.host
           dirty := s.dirty.filter (fun l => l.fn != fn) }

/-- Set one bit of the active bitmap (R401, R402): at most 16 lines of a function are held. -/
def State.markPage (s : State) (fn page : Nat) : State :=
  let b := s.get (VIRT_FN_W6_ACTIVE fn)
  let bus := s.get (VIRT_FN_BMAP_BMAP fn b) * 4096 + page / 512 * 64
  let bit := 2 ^ (page % 512)
  if s.dirty.any (fun l => l.fn == fn && l.bus == bus && l.bmap == b) then
    { s with dirty := s.dirty.map (fun l =>
        if l.fn = fn ∧ l.bus = bus ∧ l.bmap = b then { l with bits := Nat.lor l.bits bit } else l) }
  else
    let mine := s.dirty.filter (fun l => l.fn == fn)
    let s := if mine.length < 16 then s else
      match mine with
      | [] => s
      | l :: _ => { s.bump (VIRT_FN_W10_COUNT fn) 1 with host := writeLine s.host l, dirty := s.dirty.erase l }
    { s with dirty := s.dirty ++ [⟨fn, b, bus, Nat.lor (leNat (s.hostBytes bus 64)) bit⟩] }

/-- Log the pages that a host write of function `fn` touches (R401). -/
def State.logDirty (s : State) (fn bus len : Nat) : State :=
  if !s.flag (VIRT_FN_W6_DIRTY_EN fn) || len = 0 then s else
  let base := s.get (VIRT_FN_W7_LOG_BASE fn) * 4096
  let span := 2 ^ s.get (VIRT_FN_W6_SPAN_LOG2 fn)
  (List.range ((bus + len - 1) / 4096 - bus / 4096 + 1)).foldl (fun s i =>
    let p := bus / 4096 + i
    if base / 4096 ≤ p ∧ p - base / 4096 < span then s.markPage fn (p - base / 4096)
    else s.put (VIRT_FN_W6_OOR fn) 1) s

/-- A host-memory write by the device for function `fn`; false when it could not be issued. -/
def State.hostWrite (s : State) (fn bus : Nat) (bytes : List Byte) : State × Bool :=
  if !s.busOk fn then ({ s with out := { s.out with aer := s.out.aer + 1 } }, false)
  else (({ s with host := storeBytes s.host bus bytes }).logDirty fn bus bytes.length, true)

/-! ### Host windows (R560 to R565) -/

/-- The enabled window that covers a host-window address. -/
def State.winOf (s : State) (a : Nat) : Option Nat :=
  (List.range 64).find? (fun w =>
    let b := s.get (WBR_WIN_W1_DEV_BASE w) * 4096
    s.flag (WBR_WIN_W0_EN w) && decide (b ≤ a - hostBase) &&
      decide (a - hostBase < b + 2 ^ s.get (WBR_WIN_W0_SIZE_LOG2 w)))

/-- Reverse the bytes of each aligned unit of `n` bytes (R565). -/
def swapUnits (n : Nat) : Nat → List Byte → List Byte
  | 0, bs => bs
  | k + 1, bs => if bs.isEmpty then [] else (bs.take n).reverse ++ swapUnits n k (bs.drop n)

/-- Bytes as they cross a window (R565). -/
def State.winBytes (s : State) (w : Nat) (bs : List Byte) : List Byte :=
  if s.flag (WBR_WIN_W0_INV w) then swapUnits (2 ^ (s.get (WBR_WIN_W0_ESIZE w) + 1)) bs.length bs else bs

/-- Add an entry to the bridge error log (R563). -/
def State.wbrLog (s : State) (kind cpl w isl ctx addr bus : Nat) : State :=
  let i := s.get WBR_ELOG_HEAD_NEXT
  let s := if s.get (WBR_ELOG_W0_KIND i) ≠ 0 then s.bump WBR_ELOG_HEAD_LOST 1 else s
  let fn := s.get (WBR_WIN_W0_FUNC w)
  let s := ((((((s.put (WBR_ELOG_W0_KIND i) kind).put (WBR_ELOG_W0_CPL i) cpl).put (WBR_ELOG_W0_FUNC i) fn).put
    (WBR_ELOG_W0_ISLAND i) isl).put (WBR_ELOG_W0_CTX i) ctx).put (WBR_ELOG_W0_WIN i) w)
  let s := ((s.put (WBR_ELOG_W1_ADDR i) addr).put (WBR_ELOG_W2_BUS i) bus).put (WBR_ELOG_W3_TIME i) s.beacon
  let s := s.put WBR_ELOG_HEAD_NEXT ((i + 1) % 16)
  let s := s.emitError 33 0x1400000 addr
  let s := (s.put WBR_IRQ_ERR 1).pfIrq WBR_IRQ_VECTOR WBR_IRQ_EN
  s.fnEvt fn 3

/-- Check of a host-window access: the window and the bus address, or the failure (R15, R560, R565). -/
def State.winCheck (s : State) (r : MReq) (a len : Nat) : Except (Nat × Nat) (Nat × Nat) :=
  match s.winOf a with
  | none => .error (0x20, a)
  | some w =>
    let b := s.get (WBR_WIN_W1_DEV_BASE w) * 4096
    let e := hostBase + b + 2 ^ s.get (WBR_WIN_W0_SIZE_LOG2 w)
    let u := 2 ^ (s.get (WBR_WIN_W0_ESIZE w) + 1)
    if e < a + len then .error (0x20, e)
    else if r.part ≠ s.get (WBR_WIN_W0_PART w) ∨ (s.flag (WBR_WIN_W0_W w) ∧ ¬ r.w) then .error (0x22, a)
    else if s.flag (WBR_WIN_W0_INV w) ∧ (a % u ≠ 0 ∨ len % u ≠ 0) then .error (0x25, a)
    else .ok (w, s.get (WBR_WIN_W2_BUS_ADDR w) * 4096 + (a - hostBase - b))

/-- A read through a host window. A read that cannot be issued fails and is logged (R563); with PREF = 1 the further tries of R564
come to the same end. -/
def State.readHost (s : State) (r : MReq) (a len : Nat) : State × Except MErr (List Byte) :=
  match s.winCheck r a len with
  | .error (st, x) => (s, .error (.fail st x))
  | .ok (w, bus) =>
    if !s.busOk (s.get (WBR_WIN_W0_FUNC w)) then (s.wbrLog 2 1 w (r.isl % 64) r.ctx a bus, .error (.fail 0x25 a))
    else (s, .ok (s.winBytes w (s.hostBytes bus len)))

/-- A write through a host window: dirty pages are logged, and the trailing reads of R562 are noted. -/
def State.writeHost (s : State) (r : MReq) (a : Nat) (bytes : List Byte) : State × Option MErr :=
  match s.winCheck r a bytes.length with
  | .error (st, x) => (s, some (.fail st x))
  | .ok (w, bus) =>
    let fn := s.get (WBR_WIN_W0_FUNC w)
    let last := a + bytes.length - 1
    let d := r.desc.getD 0
    let (s, ok) := s.hostWrite fn bus (s.winBytes w bytes)
    if s.flag (WBR_WIN_W0_POSTED w) then
      ({ s with posted := s.posted.filter (fun p => !(p.1 == d && p.2.1 == w)) ++ [(d, w, last, r.isl % 64)] }, none)
    else if !ok then (s.wbrLog 2 1 w (r.isl % 64) r.ctx a bus, some (.fail 0x25 a))
    else
      ({ s with trail := s.trail ++ [⟨d, w, last, bus + bytes.length - 1, r.isl % 64, r.ctx, true⟩] }, none)

/-! ### Peer routing (R523, R525) -/

/-- The two ports of dimension x (0) or y (1): positive, negative. -/
def dimPorts (dim : Nat) : Nat × Nat := (2 * dim, 2 * dim + 1)

/-- Is a port up (STATE 2 or 3)? -/
def State.portUp (s : State) (p : Nat) : Bool :=
  let st := s.get (LNK_PORT_STAT_STATE p)
  st == 2 || st == 3

/-- The dimension and the preferred port towards device `dev` for target offset `o`, when it is in the topology. -/
def State.prefPort (s : State) (dev o : Nat) : Option Nat :=
  let xs := max 1 (s.get LNK_CFG_DIM_X)
  let ys := max 1 (s.get LNK_CFG_DIM_Y)
  let me := s.get LNK_CFG_DEV_ID
  let pick (dim from' to' n : Nat) : Nat :=
    let fwd := (to' + n - from') % n
    let back := n - fwd
    if fwd < back ∨ (fwd = back ∧ ¬ bitOf o 12) then (dimPorts dim).1 else (dimPorts dim).2
  if s.get LNK_CFG_TOPO = 0 ∨ xs * ys ≤ dev then none
  else if me % xs ≠ dev % xs then some (pick 0 (me % xs) (dev % xs) xs)
  else if me / xs ≠ dev / xs then some (pick 1 (me / xs) (dev / xs) ys)
  else none

/-- The port a new request takes: the preferred one, else the other direction of the dimension, else none. -/
def State.routePort (s : State) (dev o : Nat) : Option Nat :=
  match s.prefPort dev o with
  | none => none
  | some p =>
    let other := if p % 2 = 0 then p + 1 else p - 1
    if s.portUp p then some p else if s.portUp other then some other else none

/-- A link failure is logged (R538, R539). -/
def State.lnkFail (s : State) (status port dev : Nat) : State :=
  let s := ((s.put LNK_ERR_LOG0_STATUS status).put LNK_ERR_LOG0_PORT port).put LNK_ERR_LOG0_DEV dev
  let s := s.put LNK_ERR_LOG1_TIME s.beacon
  s.emitError 34 0x1200000 (s.reg LNK_ERR_LOG0).toNat

/-- VC of an operation (R528). -/
def opVc (op : Nat) : Nat :=
  if op = 0 ∨ op = 1 ∨ op = 4 ∨ op = 6 then 0 else if op = 9 ∨ op = 10 then 2 else 1

def portDefault : Nat → PortSt := fun _ => ⟨0, 0, [64, 64, 64, 64, 64, 64], [], [], [], 0, none, false, 0⟩

def State.port (s : State) (p : Nat) : PortSt := mget portDefault s.ports p

def State.setPort (s : State) (p : Nat) (x : PortSt) : State := { s with ports := mset portDefault s.ports p x }

/-- Flits of a packet: header and one DATA flit per two codewords. -/
def pktFlits (k : LnkPkt) : Nat := if k.op = 1 ∨ (k.op = 2 ∧ k.status = 0) then 1 + (k.len + 1) / 2 else 1

/-- The plane in which a packet leaves on port `p` when it comes in plane `pl`: plane 1 from coordinate 0 in the dimension that
it travels (R525). -/
def State.planeOn (s : State) (p pl : Nat) : Nat :=
  let xs := max 1 (s.get LNK_CFG_DIM_X)
  let me := s.get LNK_CFG_DEV_ID
  if (if p < 2 then me % xs else me / xs) = 0 then 1 else pl

/-- `n` flits leave a port in buffer `b`: sequence numbers, replay buffer of 512 flits, credits and the counter. -/
def State.sendFlits (s : State) (p b n : Nat) : State :=
  let t := s.port p
  let rep := t.replay ++ (List.range n).map (fun i => (t.txSeq + i) % 4096)
  (s.setPort p { t with txSeq := (t.txSeq + n) % 4096, replay := rep.drop (rep.length - 512),
                        credits := putNth t.credits b (nth 0 t.credits b - n) }).bump (LNK_CNT_TX_COUNT p) n

/-- Transmit on a port. A packet enters plane 0 of its VC; it waits behind the earlier ones of its VC, and for credits, at most
the 64 that a buffer has (R529). -/
def State.txPkt (s : State) (p : Nat) (k : LnkPkt) : State :=
  let t := s.port p
  let b := 2 * opVc k.op + s.planeOn p 0
  let n := pktFlits k
  if k.op = 8 then { s with out := { s.out with lnk := s.out.lnk ++ [(p, k)] } }
  else if nth 0 t.credits b < min n 64 || t.queued.any (fun q => opVc q.op == opVc k.op) then s.setPort p { t with queued := t.queued ++ [k] }
  else
    let s := s.sendFlits p b n
    { s with out := { s.out with lnk := s.out.lnk ++ [(p, k)] } }

/-- A fresh transaction tag. -/
def State.newTag (s : State) : Nat :=
  (s.lnkOut.foldl (fun m o => max m (o.tag + 1)) 0) % 65536

/-- Issue one peer request for a descriptor; false when no route exists (R525). -/
def State.peerIssue (s : State) (r : MReq) (op dev o units arg arg2 cmp : Nat) (data : List Byte) : State × Bool :=
  match s.routePort dev o with
  | none => (s.lnkFail 0xC0 ((s.prefPort dev o).getD 0) dev, false)
  | some p =>
    let tag := s.newTag
    let s := { s with lnkOut := s.lnkOut ++ [(⟨tag, dev, r.desc.getD 0, op, o, units, s.c, false, 0⟩ : LnkOut)] }
    (s.txPkt p ⟨op, dev, tag, o, units, 0, arg, arg2, r.part, r.w, s.get (SCH_CTX_CFG_CRIT r.ctx), if data.isEmpty then [] else List.replicate units cmp, data⟩, true)

/-- The chunks of at most 4 KiB, on codeword boundaries, of a peer access. -/
def peerChunks (a len : Nat) : List (Nat × Nat) :=
  let lo := a / 32 * 32
  let hi := (a + len + 31) / 32 * 32
  (List.range ((hi - lo + 4095) / 4096)).map (fun i => (lo + 4096 * i, min 4096 (hi - lo - 4096 * i)))

/-- Take or request the chunks of a peer read; what a deferred receive brought stands in the receive area (R358). -/
def State.peerGather (s : State) (r : MReq) (dev : Nat) : List (Nat × Nat) → State × Except MErr (List Byte)
  | [] => (s, .ok [])
  | (a, n) :: cs =>
    let o := a % 0x10000000000
    match s.peerData.find? (fun p => p.desc == r.desc.getD 0 && p.dev == dev && p.addr == o && p.data.length == n) with
    | some p =>
      match p.err with
      | some (st, x) => (s, .error (.fail st x))
      | none =>
        if p.cmps.contains 7 then (s, .error (.fail 0x24 a)) else
        let (s, own) : State × Except MErr (List Byte) := match p.rx with
          | some x => s.readLocal r x n
          | none => (s, .ok p.data)
        match own with
        | .error e => (s, .error e)
        | .ok data =>
          match s.peerGather r dev cs with
          | (s, .ok bs) => (s, .ok (data ++ bs))
          | e => e
    | none =>
      if s.lnkOut.any (fun q => q.op == 0 && q.desc == r.desc.getD 0 && q.dev == dev && q.addr == o) then
        match s.peerGather r dev cs with
        | (s, .ok _) => (s, .error .wait)
        | e => e
      else
        match s.peerIssue r 0 dev o (n / 32) 0 0 0 [] with
        | (s, false) => (s, .error (.fail 0xC0 dev))
        | (s, true) =>
          match s.peerGather r dev cs with
          | (s, .ok _) => (s, .error .wait)
          | e => e

/-- A read of a peer window: requests go out, and the read waits until every response is here. -/
def State.readPeer (s : State) (r : MReq) (dev a len : Nat) : State × Except MErr (List Byte) :=
  match s.peerGather r dev (peerChunks a len) with
  | (s, .ok bs) => (s, .ok ((bs.drop (a % 32)).take len))
  | e => e

/-- Issue the write requests of a peer write. -/
def State.peerSend (s : State) (r : MReq) (dev cmp : Nat) (bytes : List Byte) : List (Nat × Nat) → State × Option MErr
  | [] => (s, none)
  | (a, n) :: cs =>
    match s.peerIssue r 1 dev (a % 0x10000000000) (n / 32) 0 0 cmp (bytes.take n) with
    | (s, false) => (s, some (.fail 0xC0 dev))
    | (s, true) => s.peerSend r dev cmp (bytes.drop n) cs

/-- A write of a peer window. Codewords that it covers in part are read and merged first (log 9). -/
def State.writePeer (s : State) (r : MReq) (dev cmp a : Nat) (bytes : List Byte) : State × Option MErr :=
  let len := bytes.length
  let cs := peerChunks a len
  if a % 32 = 0 ∧ len % 32 = 0 then s.peerSend r dev cmp bytes cs
  else
    match s.peerGather r dev cs with
    | (s, .ok old) => s.peerSend r dev cmp (old.take (a % 32) ++ bytes ++ old.drop (a % 32 + len)) cs
    | (s, .error e) => (s, some e)

/-! ### The one read and the one write of every engine -/

/-- A read by a requester, whole or not at all (R15, R21, R22, R27). -/
def State.readMem (s : State) (r : MReq) (a len : Nat) : State × Except MErr (List Byte) :=
  if len = 0 then (s, .ok []) else
  match s.addrError a len with
  | some x => (s, .error (.fail 0x20 x))
  | none =>
    match spaceOf a with
    | .host => s.readHost r a len
    | .peer dev => s.readPeer r dev a len
    | _ =>
      match s.readLocal r a len with
      | (s, .ok bs) => (s.countDdr false a len, .ok bs)
      | e => e

/-- A write by a requester, whole or not at all. `own` marks accumulator writes of the owning island (R212); `cmp` is
the CMP given to whole codewords. -/
def State.writeMem (s : State) (r : MReq) (own : Bool) (cmp a : Nat) (bytes : List Byte) : State × Option MErr :=
  if bytes.length = 0 then (s, none) else
  match s.addrError a bytes.length with
  | some x => (s, some (.fail 0x20 x))
  | none =>
    match spaceOf a with
    | .host => s.writeHost r a bytes
    | .peer dev => s.writePeer r dev cmp a bytes
    | _ => s.writeLocal r own a cmp bytes

/-- Would the write be admitted? Nothing is counted or written (R204, R209). -/
def State.canWrite (s : State) (r : MReq) (a len : Nat) : Option (Nat × Nat) :=
  match s.addrError a len with
  | some x => some (0x20, x)
  | none =>
    match spaceOf a with
    | .host => match s.winCheck r a len with
      | .error e => some e
      | .ok _ => none
    | .peer _ => none
    | _ => s.firstRefused r true false (cwAddrs a len)

/-- Poison every codeword of an output range that the requester may write (R27): CMP becomes 7 and the rest of the tag
stays; `own` is for the accumulator rows of an island that the requester owns (R212). A peer's codewords are written over
the link. Host memory holds no tag (R561). -/
def State.poison (s : State) (r : MReq) (own : Bool) (a len : Nat) : State :=
  match spaceOf a with
  | .spd | .acc _ | .dram =>
    (cwAddrs a len).foldl (fun s x =>
      if (s.addrError x 32).isNone && s.regionOk r true x &&
          (if own then (s.firstUneven r a len [x]).isNone else s.tagWriteOk r x) then
        (s.setEcc (x / 32) none).setTag (x / 32)
          (s.tagAfter true 7 (if own then some (s.ownerTag r a) else none) (x / 32))
      else s) s
  | .peer dev =>
    if (s.addrError a len).isSome || len = 0 then s
    else (s.peerSend r dev 7 (List.replicate ((len + a % 32 + 31) / 32 * 32) 0) (peerChunks a len)).1
  | _ => s

end Sys2Proof.Machine
end

