-- ==== Sys2Proof/Machine/Operands.lean ====
section
/-!
DEFINITION. Descriptor bodies and parameter blocks as operands: reserved bits, the verdict of the pre-dispatch check
(R56, R57, R63, R65), the engines a descriptor names (R349, R350), and the frame in which an engine's work runs.
-/

namespace Sys2Proof.Machine

abbrev Out := Host.Outcome State Fault Refusal

/-! ### Checks of a layout -/

/-- A named field of a body or block: byte offset, lowest bit at that offset, width. -/
abbrev FieldAt := Nat × Nat × Nat

/-- The lowest set bit below `n`. -/
def lowBit (n v : Nat) : Option Nat := (List.range n).find? (fun i => bitOf v i)

/-- The byte of the lowest reserved bit that is set in bytes `[lo, lo + len)` of a layout (R63). -/
def reservedAt (lo len : Nat) (named : List FieldAt) (bytes : List Byte) : Option Nat :=
  let v := leNat ((bytes.drop lo).take len)
  let masked := named.foldl (fun v f => putBits v (8 * (f.1 - lo) + f.2.1) f.2.2 0) v
  (lowBit (8 * len) masked).map (fun b => lo + b / 8)

/-- The lowest byte among the violations of a list of (violated, byte). -/
def firstBad : List (Bool × Nat) → Option Nat
  | [] => none
  | (b, o) :: rest =>
    match firstBad rest with
    | none => if b then some o else none
    | some p => if b then some (min o p) else some p

/-- The smaller of two offsets, where present. -/
def minOff : Option Nat → Option Nat → Option Nat
  | none, y => y
  | x, none => x
  | some a, some b => some (min a b)

/-- A little-endian number of `n` bytes in a block. -/
def u (bs : List Byte) (o n : Nat) : Nat := leNat ((bs.drop o).take n)

/-! ### The verdict of the pre-dispatch check -/

/-- A dispatch plan: the islands named, or how firmware chooses them; the accumulator rows used by a choice of arrays;
the declared outputs. -/
structure Plan where
  /-- Islands named; empty where firmware chooses. -/
  isls : List Nat := []
  /-- 0 as named; 1 every free array (R349); 2 one cluster; 3 a DMA channel; 4 one array. -/
  auto : Nat := 0
  /-- Units of the island that the work holds: bit 0 array or cores, bit 1 window unit or raster unit, bit 2 attention unit. -/
  units : Nat := 1
  /-- Smallest number of arrays for which the rows fit. -/
  least : Nat := 1
  /-- Array, first row, rows, for the arrays that take part out of those chosen (R114). -/
  rows : List Nat → List (Nat × Nat × Nat) := fun as => as.map (fun a => (a, 0, 0))
  /-- The arrays of a choice that get work (R114). -/
  uses : List Nat → List Nat := fun as => as
  /-- Declared output ranges for a choice of arrays. -/
  outs : List Nat → List (Nat × Nat) := fun _ => []
  /-- DMA: the preferred slice island of each of the first rows (R349); as many rows as there are channels at most. -/
  near : List (Option Nat) := []

/-- Outcome of the check. -/
inductive Verdict where
  | go (p : Plan)
  /-- Malformed in the sense of R65: the queue stops. -/
  | stop (code detail : Nat)
  /-- The block could not be read (R57): ends undispatched, the queue goes on, nothing is poisoned. -/
  | pbRead (code detail : Nat)
  /-- Not started, outputs poisoned, the queue goes on. -/
  | refuse (code detail : Nat) (outs : List (Nat × Nat))
  /-- The block lies in peer memory and has not arrived. -/
  | wait

def malformed (o : Nat) : Verdict := .stop 0x10 o
def pbInvalid (o : Nat) : Verdict := .stop 0x13 o

/-! ### Parameter blocks (R56, R57) -/

def Desc.pbAddr (d : Desc) : Nat := bitsOf (d.u 16 8) 0 48
def Desc.pbLen (d : Desc) : Nat := bitsOf (d.u 16 8) 48 16

/-- The pointer's rules (R56): alignment and a length of at least 1; `len` states the opcode's own rule. -/
def Desc.pbBad (d : Desc) (lenOk : Nat → Bool) (named : List FieldAt) : Option Nat :=
  minOff (firstBad [(d.pbAddr % 64 != 0, 16), (d.pbLen == 0 || !lenOk d.pbLen, 22)])
    (reservedAt 16 48 ((16, 0, 64) :: named) d.bytes)

/-- Read a descriptor's parameter block as Keeper firmware (R57). -/
def State.readPb (s : State) (d : Desc) : State × Except MErr (List Byte) :=
  s.readMem (s.mreq d 36) d.pbAddr (64 * d.pbLen)

/-- The check of an opcode with a parameter block: pointer, read, then the block's own check. -/
def State.checkPb (s : State) (d : Desc) (lenOk : Nat → Bool) (named : List FieldAt) (k : State → List Byte → Verdict) :
    State × Verdict :=
  match d.pbBad lenOk named with
  | some o => (s, malformed o)
  | none =>
    match s.readPb d with
    | (s, .error (.fail c x)) => (s, .pbRead c x)
    | (s, .error .wait) => (s, .wait)
    | (s, .ok pb) => (s, k s pb)

/-! ### Engine work -/

/-- Work of an engine over the state; an exception ends the part with a status, or waits for peer data. -/
abbrev Eng := ExceptT MErr (StateM State)

def eRead (r : MReq) (a len : Nat) : Eng (List Byte) :=
  ExceptT.mk (m := StateM State) fun s => let (s, x) := s.readMem r a len; (x, s)

def eWrite (r : MReq) (own : Bool) (cmp a : Nat) (bs : List Byte) : Eng Unit :=
  ExceptT.mk (m := StateM State) fun s =>
    match s.writeMem r own cmp a bs with
    | (s, none) => (.ok (), s)
    | (s, some e) => (.error e, s)

def eFail {α : Type} (code detail : Nat) : Eng α := throw (.fail code detail)

/-- Change of the state that cannot fail. -/
def eMod (f : State → State) : Eng Unit := modify f

def eGet : Eng State := get

/-- Run one part; a status is reported, a wait for peer data goes on outward. -/
def eTry {α : Type} (x : Eng α) : Eng (Except (Nat × Nat) α) :=
  ExceptT.mk (m := StateM State) fun s =>
    match x.run.run s with
    | (.ok a, s) => (.ok (.ok a), s)
    | (.error (.fail c d), s) => (.ok (.error (c, d)), s)
    | (.error .wait, s) => (.error .wait, s)

/-- Result of one part: island, status, DETAIL. -/
abbrev PartRes := Nat × Nat × Nat

/-- The islands whose parts are on their engine with their share of the work still to do (R350). -/
def Desc.todo (d : Desc) : List Nat := (d.parts.filter (fun p => p.active && !p.worked)).map (fun p => p.isl)

/-- A descriptor that its engines are running: dispatched, with a part started whose share is not yet done. -/
def Desc.runnable (d : Desc) (opc : Nat) : Bool :=
  d.phase == .dispatched && d.opc == opc && !d.effected && !d.todo.isEmpty

/-- The parts that the work of the engines in `todo` completes: nobody else has work left, so that what needs all engines'
results can follow. -/
def Desc.lastShare (d : Desc) : Bool := d.parts.all (fun p => p.worked || p.active)

/-- Do the clocks that a descriptor's islands need run (R600, R602)? -/
def State.clocked (s : State) (d : Desc) : Bool := !s.dead && (s.clkOff.isEmpty || d.parts.any (fun p => decide (8 ≤ p.isl)))

/-- Record the results of the parts that have done their share; the descriptor's work is done when all have. -/
def State.setResults (s : State) (i : Nat) (rs : List PartRes) : State :=
  s.updDesc i (fun d =>
    let ps := d.parts.map (fun (p : Part) =>
      match rs.find? (fun r => r.1 == p.isl) with
      | some (_, st, dt) =>
        if 0x10 ≤ p.status then { p with progC := s.c, worked := true }
        else { p with status := st, detail := dt, progC := s.c, worked := true }
      | none => p)
    { d with effected := ps.all (fun p => p.worked), parts := ps })

/-- Registers of the regulators and of the links. -/
def requestReg (off : Nat) : Bool :=
  (decide (0xC00000 ≤ off) && decide (off < 0xC06000)) || (decide (0x1200000 ≤ off) && decide (off < 0x1300000))

/-- The state in which a wait for peer data or for a held request leaves the device: only the requests have gone out, and what
has issued is not charged again when the work is run anew. -/
def State.keepRequests (s s1 : State) : State :=
  { s with lnkOut := s1.lnkOut, ports := s1.ports, out := s1.out, qosUsed := s1.qosUsed, qosHeld := s1.qosHeld,
           qosHold := s1.qosHold, qosPaid := s1.qosPaid, ddrQ := s1.ddrQ,
           regs := (s1.regs.filter (fun e => requestReg e.1)).foldl (fun m e => mins e.1 e.2 m)
             (s.regs.filter (fun e => !requestReg e.1)) }

/-- A counter that stands still during secure issue (R457): those of the engines, displays and capture, and of the ports. -/
def frozenCounter (off : Nat) : Bool :=
  ((decide (0x200000 ≤ off) && decide (off < 0x500000)) || (decide (0x700000 ≤ off) && decide (off < 0xB00000)) ||
    (decide (0xC04000 ≤ off) && decide (off < 0xC06000))) &&
  (match regAt off with
   | some (sp, _) => sp.cnt
   | none => false)

/-- `s1` with the frozen counters as they stood in `s` (R457). -/
def State.keepCounters (s s1 : State) : State :=
  let new := s1.regs.filter (fun e => !frozenCounter e.1)
  { s1 with regs := (s.regs.filter (fun e => frozenCounter e.1)).foldl (fun m e => mins e.1 e.2 m) new }

/-- The work of opcode `opc` for descriptor `i` on the engines that run it, each engine's share done as one step once it has
its part (R350); nothing otherwise. A status that no part reports stands for all of these. -/
def State.runWork (s : State) (i opc : Nat) (work : Desc → Eng (List PartRes)) : State :=
  match s.desc? i with
  | none => s
  | some d =>
    if !d.runnable opc || !s.clocked d then s else
    let cnt (s1 : State) : State := if s.secureDesc d then s.keepCounters s1 else s1
    match (work d).run.run s with
    | (.ok rs, s1) => (cnt s1).setResults i rs
    | (.error (.fail c x), s1) => (cnt s1).setResults i (d.todo.map (fun a => (a, c, x)))
    | (.error .wait, s1) => s.keepRequests s1

/-- Islands that take part in a descriptor. -/
def Desc.isls (d : Desc) : List Nat := d.parts.map (fun p => p.isl)

end Sys2Proof.Machine
end

