-- ==== Sys2Proof/Machine/Arrays.lean ====
section
/-!
DEFINITION. Matrix arrays (R100 to R130): the GEMM parameter block, the split over the arrays, 2:4 sparse weights,
accumulation, the checksum restart, the drain through the output stage, and the accumulator clear.
-/

namespace Sys2Proof.Machine

/-! ### Cell modes (R100) -/

/-- Depth KT of a pairing: dual 256, single 128, half 64, eighth 16. -/
def cellDepth (a w : Nat) : Nat :=
  if a = 9 ∨ w = 9 then 16
  else if isHalf a ∨ isHalf w then 64
  else if (a = 0 ∧ w = 0) ∨ (a = 0xA ∧ w = 0xA) then 256
  else 128

/-- MODE of ARR_STATUS (R127). -/
def cellMode (a w : Nat) : Nat :=
  match cellDepth a w with
  | 256 => 0 | 128 => 1 | 64 => 2 | _ => 3

/-- Address of an accumulator row (R114). -/
def accRow (a r : Nat) : Nat := accBase + a * 0x200000 + r * 2048

/-- Bytes of `n` elements as stored. -/
def eltBytes (fmt n : Nat) : Nat := if isMx fmt then (n + 31) / 32 * mxBlockBytes fmt else (fmtBits fmt * n + 7) / 8

/-! ### The drain section (R119, R120) -/

/-- The drain's parameters. -/
structure Drain where
  dst : Nat
  stride : Nat
  rowBase : Nat
  rows : Nat
  mask : Nat
  fp : Bool
  act : Nat
  cols : Nat
  colBase : Nat
  cvt : Nat
  zp : Int
  sb : Nat
  mult : Int
  shift : Nat
  clear : Bool
  sstride : Nat
  scale : Nat
deriving DecidableEq, Repr

/-- The drain as it stands at byte `o` of a block (bytes 16 to 63 of ARR_ACC_DRAIN). -/
def drainOf (bs : List Byte) (o : Nat) : Drain :=
  let w3 := u bs (o + 12) 4
  let w4 := u bs (o + 16) 4
  let w9 := u bs (o + 36) 4
  ⟨bitsOf (u bs o 8) 0 48, u bs (o + 8) 4, bitsOf w3 0 10, bitsOf w3 10 11, bitsOf w3 21 4, bitOf w3 25, bitsOf w3 26 4,
   bitsOf w4 0 10, bitsOf w4 10 9, bitsOf w4 24 8, sgn 32 (u bs (o + 20) 4), bitsOf (u bs (o + 24) 8) 0 48,
   sgn 32 (u bs (o + 32) 4), bitsOf w9 0 6, bitOf w9 6, bitsOf w9 16 16, bitsOf (u bs (o + 40) 8) 0 48⟩

/-- Named bits of the drain section. -/
def drainFields (o : Nat) : List FieldAt :=
  [(o, 0, 48), (o + 8, 0, 32), (o + 12, 0, 30), (o + 16, 0, 10), (o + 16, 10, 9), (o + 16, 24, 8), (o + 20, 0, 32),
   (o + 24, 0, 48), (o + 32, 0, 32), (o + 36, 0, 7), (o + 36, 16, 16), (o + 40, 0, 48)]

/-- The drain takes the integer path of R89. -/
def Drain.intPath (p : Drain) : Bool := !p.fp && isInt (cvtFmt p.cvt)

/-- Violations of the rules that hold in both places (R86, R89, R120, R121). -/
def Drain.bad (p : Drain) (o : Nat) : List (Bool × Nat) :=
  let (lo, hi) := intRange (cvtFmt p.cvt)
  let mx := isMx (cvtFmt p.cvt)
  [(!cvtOk p.cvt, o + 19),
   (decide (6 < p.act) || (p.intPath && decide (1 < p.act)), o + 15),
   (if p.intPath then decide (p.zp < lo ∨ hi < p.zp) else p.zp != 0, o + 20),
   (!mx && p.scale != 0, o + 40), (mx && p.dst % 32 != 0, o), (mx && p.scale % 32 != 0, o + 40)]

/-- A SHIFT above 62 that the drain uses: PB_INVALID wherever the field lies (R89). -/
def Drain.badShift (p : Drain) : Bool := p.sb == 0 && p.intPath && decide (62 < p.shift)

/-- Violations of a stand-alone drain's own ranges (R120). -/
def Drain.badOwn (p : Drain) (o : Nat) : List (Bool × Nat) :=
  [(p.rows == 0 || decide (1024 < p.rows) || decide (1024 < p.rowBase + p.rows), o + 13),
   (p.mask == 0, o + 14), (p.cols == 0 || decide (512 < p.cols), o + 16),
   (decide (512 < p.colBase + p.cols) || (isMx (cvtFmt p.cvt) && p.colBase % 32 != 0), o + 17)]

/-- Fields that must be zero in a fused drain (R119). -/
def Drain.badFused (p : Drain) (o : Nat) : List (Bool × Nat) :=
  [(p.rowBase != 0, o + 12), (p.rows != 0, o + 13), (p.mask != 0, o + 14), (p.fp, o + 15), (p.cols != 0, o + 16),
   (p.colBase != 0, o + 17)]

/-- Output ranges of `rows` rows of `cols` columns. -/
def Drain.outs (p : Drain) (rows cols : Nat) : List (Nat × Nat) :=
  let fmt := cvtFmt p.cvt
  (List.range rows).map (fun r => (p.dst + r * p.stride, eltBytes fmt cols)) ++
    (if isMx fmt then (List.range rows).map (fun r => (p.scale + r * p.sstride, (cols + 31) / 32)) else [])

/-- One element through the output stage (R88, R89, R120): the value before a floating-point conversion as FP32 bits. -/
def Drain.fpStage (p : Drain) (fp : Bool) (acc : Nat) (sb : Option (Nat × Nat)) : Nat :=
  let x := if fp then acc else f32 (.ofInt (sgn 32 acc))
  let y := match sb with
    | some (sc, bi) => f32Add (f32Mul x sc) bi
    | none => x
  actF32 p.act y

/-- One element on the path of R89. -/
def Drain.intStage (p : Drain) (acc : Nat) (ms : Int × Nat) : Nat :=
  let fmt := cvtFmt p.cvt
  let y := requant fmt (cvtRnd p.cvt) (sgn 32 acc) ms.1 ms.2 p.zp
  unsgn (fmtBits fmt) (if p.act = 1 then max (max p.zp (intRange fmt).1) y else y)

/-- Lists of 32 values along a row, the last padded with zeros (R120). -/
def blocks32 : Nat → List Val → List (List Val)
  | 0, _ => []
  | n + 1, xs => if xs.isEmpty then [] else
      (let b := xs.take 32; b ++ List.replicate (32 - b.length) vzero) :: blocks32 n (xs.drop 32)

/-- Codes of one row of outputs with the scale bytes of a Microscaling target: accumulators with their table entries
(R88, R89, R120). -/
def Drain.stageRow (p : Drain) (fp : Bool) (accs : List Nat) (tab : List (List Byte)) : List Nat × List Nat :=
  let fmt := cvtFmt p.cvt
  let idx := (List.range accs.length).zip accs
  if !fp && isInt fmt then
    (idx.map (fun (j, a) =>
      p.intStage a (match tab[j]? with
        | some e => (sgn 32 (u e 0 4), bitsOf (u e 4 1) 0 6)
        | none => (p.mult, p.shift))), [])
  else
    let vals := idx.map (fun (j, a) => ofF32 (p.fpStage fp a ((tab[j]?).map (fun e => (u e 0 4, u e 4 4)))))
    if isMx fmt then
      let qs := (blocks32 vals.length vals).map (mxQuant fmt (cvtRnd p.cvt))
      (qs.flatMap (·.2), qs.map (·.1))
    else (vals.map (encFmt fmt (cvtRnd p.cvt) (cvtSat p.cvt)), [])

/-- Write a row of codes and scales, counting the NaN blocks of R85 against array `arr`. -/
def writeCodes (rq : MReq) (arr fmt elts scales : Nat) (row : List Nat × List Nat) : Eng Unit := do
  eWrite rq false 0 elts (packCodes (fmtBits fmt) row.1)
  if isMx fmt then
    eMod (fun s => s.bump (ARR_CNT_NANBLK_COUNT arr) (row.2.filter (· == 255)).length)
    eWrite rq false 0 scales (row.2.map (BitVec.ofNat 8))

/-- Write one drained row at output row `r`, first column `c0` (R120). -/
def Drain.writeRow (p : Drain) (rq : MReq) (arr : Nat) (fp : Bool) (r c0 : Nat) (accs : List Nat)
    (tab : List (List Byte)) : Eng Unit :=
  let fmt := cvtFmt p.cvt
  let off := if isMx fmt then c0 / 32 * mxBlockBytes fmt else fmtBits fmt * c0 / 8
  writeCodes rq arr fmt (p.dst + r * p.stride + off) (p.scale + r * p.sstride + c0 / 32) (p.stageRow fp accs tab)

/-- Sum of the arrays' accumulators in ascending order, in the accumulator format (R120), with the number of saturations
(R91). -/
def sumAccs (fp : Bool) (xs : List Nat) : Nat × Nat :=
  match xs with
  | [] => (0, 0)
  | x :: rest => rest.foldl (fun (a : Nat × Nat) b =>
      if fp then (accAdd a.1 b, a.2)
      else let r := sat32 (sgn 32 a.1 + sgn 32 b); (unsgn 32 r.1, a.2 + b2n r.2)) (x, 0)

/-- The 32-bit accumulators of a byte string. -/
def words32 : Nat → List Byte → List Nat
  | 0, _ => []
  | n + 1, bs => u bs 0 4 :: words32 n (bs.drop 4)

/-- What violates the layout of a table entry on the R89 path: a SHIFT above 62, or bytes 5 to 7 not zero (R120, log 22); the
byte of the entry. -/
def entryBad (e : List Byte) : Option Nat :=
  if 62 < bitsOf (u e 4 1) 0 6 then some 4 else ([5, 6, 7].find? (fun i => u e i 1 != 0))

/-- Entries of the per-column table. -/
def Drain.table (p : Drain) (rq : MReq) (c0 n : Nat) : Eng (List (List Byte)) := do
  if p.sb = 0 then return [] else
  let bs ← eRead rq (p.sb + 8 * c0) (8 * n)
  let es := (List.range n).map (fun j => (bs.drop (8 * j)).take 8)
  match if p.intPath then ((List.range n).zip es).findSome? (fun (j, e) => (entryBad e).map (fun i => 8 * (c0 + j) + i)) else none with
  | some o => eFail 0x13 o
  | none => return es

/-- Drain accumulator rows `rows` (pairs of accumulator row and output row) of the arrays named, columns `cb` to
`cb + n`, to output columns from `c0`. The counters of a sum over several arrays are those of the lowest (log 22). -/
def Drain.run (p : Drain) (rq : MReq) (as : List Nat) (fp : Bool) (rows : List (Nat × Nat)) (cb n c0 t0 : Nat) : Eng Unit := do
  let tab ← p.table rq t0 n
  for (r, out) in rows do
    let mut per : List (List Nat) := []
    for a in as do
      let bs ← eRead rq (accRow a r + 4 * cb) (4 * n)
      per := per ++ [words32 n bs]
    let accs := (List.range n).map (fun j => sumAccs fp (per.map (fun l => nth 0 l j)))
    eMod (fun s => s.bump (ARR_CNT_SAT_COUNT (nth 0 as 0)) ((accs.map (·.2)).foldl (· + ·) 0))
    p.writeRow rq (nth 0 as 0) fp out c0 (accs.map (·.1)) tab
    if p.clear then
      for a in as do
        eWrite { rq with isl := a } true 0 (accRow a r + 4 * cb) (List.replicate (4 * n) 0)

/-! ### The GEMM parameter block (R118) -/

structure Gemm where
  a : Nat
  aScale : Nat
  w : Nat
  wScale : Nat
  wMeta : Nat
  m : Nat
  n : Nat
  k : Nat
  aFmt : Nat
  wFmt : Nat
  aStride : Nat
  wStride : Nat
  aSs : Nat
  wSs : Nat
  mStride : Nat
  rowBase : Nat
  arrays : Nat
  split : Nat
  accMode : Bool
  sparse : Bool
  drain : Bool
  dr : Drain
deriving DecidableEq, Repr

def gemmOf (pb : List Byte) : Gemm :=
  let w64 := u pb 64 4
  ⟨bitsOf (u pb 0 8) 0 48, bitsOf (u pb 8 8) 0 48, bitsOf (u pb 16 8) 0 48, bitsOf (u pb 24 8) 0 48,
   bitsOf (u pb 32 8) 0 48, u pb 40 2, u pb 42 2, bitsOf (u pb 44 4) 0 24, bitsOf (u pb 44 4) 24 4,
   bitsOf (u pb 44 4) 28 4, u pb 48 4, u pb 52 4, u pb 56 2, u pb 58 2, u pb 60 3, bitsOf w64 0 10, bitsOf w64 10 4,
   bitsOf w64 14 2, bitOf w64 16, bitOf w64 17, bitOf w64 18, drainOf pb 80⟩

def gemmFields : List FieldAt :=
  [(0, 0, 48), (8, 0, 48), (16, 0, 48), (24, 0, 48), (32, 0, 48), (40, 0, 64), (48, 0, 64), (56, 0, 56), (64, 0, 19)] ++
    drainFields 80

/-- Logical rows per pass (R105, R109). -/
def Gemm.depth (g : Gemm) : Nat := cellDepth g.aFmt g.wFmt * (if g.sparse then 2 else 1)

/-- Column blocks and passes along K. -/
def Gemm.nb (g : Gemm) : Nat := (g.n + 511) / 512
def Gemm.np (g : Gemm) : Nat := (g.k + g.depth - 1) / g.depth

/-- Accumulator rows used per array when `c` arrays take part (R114). -/
def Gemm.rowsUsed (g : Gemm) (c : Nat) : Nat :=
  match g.split with
  | 0 => g.m * cdiv g.nb c
  | 1 => cdiv g.m c * g.nb
  | _ => g.m * g.nb

/-- The part of the work of one array: array, column blocks with their order on it, first row and rows, row pitch of
a block, first pass and passes. -/
structure Slice where
  arr : Nat
  blocks : List (Nat × Nat)
  m0 : Nat
  mc : Nat
  pitch : Nat
  p0 : Nat
  pc : Nat
deriving DecidableEq, Repr

/-- The slices of a choice of arrays, in ascending order; arrays left without work do not appear (R114). With SPLIT 1 the pitch
of a column block is that of the longest part on every array (log 22). -/
def Gemm.slices (g : Gemm) (as : List Nat) : List Slice :=
  let c := as.length
  let all := (List.range g.nb).map (fun b => (b, b))
  (((List.range c).zip as).map (fun (i, a) =>
    match g.split with
    | 0 => (⟨a, ((List.range g.nb).filter (fun b => b % c == i)).map (fun b => (b, b / c)), 0, g.m, g.m, 0, g.np⟩ : Slice)
    | 1 => let p := cdiv g.m c; ⟨a, all, i * p, min p (g.m - i * p), p, 0, g.np⟩
    | _ => let p := cdiv g.np c; ⟨a, all, 0, g.m, g.m, i * p, min p (g.np - i * p)⟩)).filter
      (fun sl => !sl.blocks.isEmpty && sl.mc != 0 && sl.pc != 0)

/-- The arrays that take part out of a choice (R114). -/
def Gemm.users (g : Gemm) (as : List Nat) : List Nat := (g.slices as).map (fun sl => sl.arr)

/-- Rows of a slice: lowest accumulator row and count, for R351. -/
def Slice.rows (sl : Slice) (base : Nat) : Nat × Nat × Nat :=
  (sl.arr, base, sl.blocks.length * sl.pitch)

/-- An address may be an operand: scratchpad or DRAM, or unmapped (which fails at run time, R15). -/
def operandOk (a : Nat) : Bool :=
  match spaceOf a with
  | .acc _ | .peer _ | .host => false
  | _ => true

/-- Rows of `len` bytes may be operands: the first and the last byte, and every row where a stride leads from one memory into
another (log 22). -/
def rowsOk (a stride n len : Nat) : Bool :=
  let last := a + (n - 1) * stride + (len - 1)
  operandOk a && operandOk last &&
    (spaceOf a == spaceOf last || (List.range n).all (fun r => operandOk (a + r * stride) && operandOk (a + r * stride + (len - 1))))

/-- Weight formats that may be sparse (R106). -/
def sparseFmt (f : Nat) : Bool := f == 1 || f == 5 || f == 6 || isMx f

/-- The block check of R90, R104, R106, R114, R118, R119. -/
def Gemm.badAt (g : Gemm) (pb : List Byte) (count : Nat) : Option Nat :=
  let aMx := isMx g.aFmt
  let wMx := isMx g.wFmt
  let stored := if g.sparse then g.k / 2 else g.k
  let wBytes := if wMx ∧ g.sparse then (g.k + 31) / 32 * (mxBlockBytes g.wFmt / 2) else eltBytes g.wFmt stored
  let ks := (g.k + 31) / 32
  let fp := !pairInt g.wFmt g.aFmt
  let dr := { g.dr with fp := fp }
  minOff (reservedAt 0 128 gemmFields pb) (firstBad ([
    (!rowsOk g.a g.aStride g.m (eltBytes g.aFmt g.k) || (aMx && g.a % 32 != 0), 0),
    ((!aMx && g.aScale != 0) || (aMx && (g.aScale % 32 != 0 || !rowsOk g.aScale g.aSs g.m ks)), 8),
    (!rowsOk g.w g.wStride g.n wBytes || (wMx && g.w % 32 != 0), 16),
    ((!wMx && g.wScale != 0) || (wMx && (g.wScale % 32 != 0 || !rowsOk g.wScale g.wSs g.n ks)), 24),
    ((!g.sparse && g.wMeta != 0) || (g.sparse && !rowsOk g.wMeta g.mStride g.n (g.k / 8)), 32),
    (g.m == 0, 40), (g.n == 0, 42), (g.k == 0 || (g.sparse && g.k % 32 != 0), 44),
    (g.aFmt == 15 || g.wFmt == 15 || !pairOk g.wFmt g.aFmt, 47),
    (g.sparse && (!sparseFmt g.wFmt || cellDepth g.aFmt g.wFmt == 16), 47),
    (decide (g.aStride < eltBytes g.aFmt g.k), 48), (decide (g.wStride < wBytes), 52),
    (aMx && decide (g.aSs < ks), 56), (wMx && decide (g.wSs < ks), 58),
    (g.sparse && decide (g.mStride < g.k / 8), 60),
    (decide (1024 - g.rowBase < g.rowsUsed (max 1 count)), 64), (g.split == 3, 65)] ++
    (if g.drain then (dr.badShift, 116) :: dr.bad 80 ++ g.dr.badFused 80
     else [((lowBit 384 (leNat ((pb.drop 80).take 48))).isSome,
       80 + ((lowBit 384 (leNat ((pb.drop 80).take 48))).getD 0) / 8)])))

/-- Arrays present. -/
def State.arraysPresent (s : State) : List Nat := (List.range 4).filter (fun a => !s.isRetired a)

/-- Declared outputs of a GEMM on a choice of arrays (R113). -/
def Gemm.outs (g : Gemm) (as : List Nat) : List (Nat × Nat) :=
  (g.slices as).map (fun sl => (accRow sl.arr g.rowBase, sl.blocks.length * sl.pitch * 2048)) ++
    (if g.drain then g.dr.outs g.m g.n else [])

/-- The pre-dispatch check of ARR_GEMM. -/
def State.gemmCheck (s : State) (pb : List Byte) : Verdict :=
  let g := gemmOf pb
  let named := maskBits 4 g.arrays
  let count := if g.arrays = 0 then s.arraysPresent.length else named.length
  match g.badAt pb count with
  | some o => pbInvalid o
  | none =>
    let gone := named.filter s.isRetired
    if !gone.isEmpty then .refuse 0x89 ((gone.map (fun a => 2 ^ a)).foldl (· + ·) 0) (g.outs named)
    else
      let least := ((List.range 4).map (· + 1)).find? (fun c => decide (g.rowsUsed c ≤ 1024 - g.rowBase))
      .go { isls := g.users named, units := 1, auto := if g.arrays = 0 then 1 else 0, least := least.getD 1, uses := g.users,
            rows := fun as => (g.slices as).map (fun sl => sl.rows g.rowBase), outs := g.outs }

/-! ### Operand rows -/

/-- Values of elements `[k0, k1)` of a row: element bytes and scale bytes already read. -/
def rowVals (fmt k0 k1 : Nat) (bs scs : List Byte) : List Val :=
  (List.range (k1 - k0)).map (fun i =>
    let c := eltCode (fmtBits fmt) bs i
    if isMx fmt then mxVal fmt (nth 0 (scs.map (·.toNat)) (i / 32)) c else decElt fmt c)

/-- Read a row's elements `[k0, k1)`; `k0` is a multiple of 16, and of 32 for a Microscaling format. -/
def readRow (rq : MReq) (fmt addr scale k0 k1 : Nat) : Eng (List Val) := do
  let w := fmtBits fmt
  let bs ← eRead rq (addr + w * k0 / 8) ((w * k1 + 7) / 8 - w * k0 / 8)
  let scs ← if isMx fmt then eRead rq (scale + k0 / 32) ((k1 + 31) / 32 - k0 / 32) else pure []
  return rowVals fmt k0 k1 bs scs

/-- The positions of a valid nibble (R108). -/
def nibbleOk (x : Nat) : Bool := [0x4, 0x8, 0xC, 0x9, 0xD, 0xE].contains x

/-- Read the weights of output column `n` for rows `[k0, k1)`: pairs of row and weight. -/
def Gemm.readCol (g : Gemm) (rq : MReq) (n k0 k1 : Nat) : Eng (List (Nat × Val)) := do
  if g.n ≤ n then return (List.range (k1 - k0)).map (fun i => (k0 + i, vzero))
  else if !g.sparse then
    let vs ← readRow rq g.wFmt (g.w + n * g.wStride) (g.wScale + n * g.wSs) k0 k1
    return ((List.range (k1 - k0)).map (k0 + ·)).zip vs
  else
    let wb := fmtBits g.wFmt
    let mAddr := g.wMeta + n * g.mStride + k0 / 8
    let mb ← eRead rq mAddr ((k1 + 7) / 8 - k0 / 8)
    let nib := fun q => eltCode 4 mb q
    match (List.range ((k1 - k0) / 4)).find? (fun q => !nibbleOk (nib q)) with
    | some q => eFail 0x88 (mAddr + q / 2)
    | none =>
      let bs ← eRead rq (g.w + n * g.wStride + wb * (k0 / 2) / 8) ((wb * (k1 / 2) + 7) / 8 - wb * (k0 / 2) / 8)
      let scs ← if isMx g.wFmt then eRead rq (g.wScale + n * g.wSs + k0 / 32) ((k1 + 31) / 32 - k0 / 32) else pure []
      return (List.range ((k1 - k0) / 2)).map (fun i =>
        let c := eltCode wb bs i
        let v := if isMx g.wFmt then mxVal g.wFmt (nth 0 (scs.map (·.toNat)) (i / 16)) c else decElt g.wFmt c
        (k0 + i / 2 * 4 + (if i % 2 = 0 then nib (i / 2) % 4 else nib (i / 2) / 4), v))

/-! ### Accumulation -/

/-- Products of one pass of one output. -/
def passProds (k0 : Nat) (xs : List Val) (col : List (Nat × Val)) : List (Nat × Val) :=
  col.map (fun (k, w) => (k, vmul (nth vzero xs (k - k0)) w))

/-- Products gathered into the groups of 32 along K (R92). -/
def groupProds (ps : List (Nat × Val)) : List (List Val) :=
  let lo := ps.foldl (fun m p => min m (p.1 / 32)) 0x1000000
  let hi := ps.foldl (fun m p => max m (p.1 / 32)) 0
  ((List.range (hi + 1 - lo)).map (fun i => (ps.filter (fun p => p.1 / 32 == lo + i)).map (·.2))).filter
    (fun l => !l.isEmpty)

/-- Whole exact value of a product list of an integer pairing. -/
def intSum (ps : List (Nat × Val)) : Int := roundInt 1 (vsum (ps.map (·.2)))

/-- INT32 accumulation over the passes with the number of saturations (R91). -/
def accInt (start : Int) (passes : List (List (Nat × Val))) : Int × Nat :=
  passes.foldl (fun a p => let r := sat32 (a.1 + intSum p); (r.1, a.2 + b2n r.2)) (start, 0)

/-- FP32 accumulation (R92, R93). `key` stands for what the order may depend on: the number of arrays used and the split (R95). -/
def accFp (aFmt wFmt key start : Nat) (passes : List (List (Nat × Val))) : Nat :=
  accGroups key start ((groupProds (passes.flatMap id)).map (groupSum (pairAligned aFmt wFmt) (aFmt == 9 || wFmt == 9) 0))

/-! ### The checksum column (R110 to R113, R28, R420) -/

/-- Neighbours added in FP32, RNE. -/
def pairUp : List Nat → List Nat
  | a :: b :: r => f32Add a b :: pairUp r
  | l => l

/-- A sum in FP32 in the device's fixed tree order, which the spec does not give: free keys order the leaves of a balanced
tree (log 22). -/
def treeF32 (xs : List Nat) : Nat :=
  let leaves := (((List.range xs.length).zip xs).foldr (fun x l => insOrd xs.length x l) []).map (fun p => p.2)
  nth 0 ((List.range 25).foldl (fun l _ => pairUp l) leaves) 0

/-- A sum as the checksum column forms it (R110): exact for integer pairings, in FP32 otherwise. -/
def chkSum (fp : Bool) (vs : List Val) : Val := if fp then ofF32 (treeF32 (vs.map f32)) else vsum vs

/-- A loaded tile: its first logical row, the weights of its columns, c_k and a_k of its rows (R110), and whether every weight is
finite. -/
structure Tile where
  k0 : Nat
  cols : List (List (Nat × Val))
  sums : List (Val × Val)
  finite : Bool

/-- The sums of R110 over a tile's columns. -/
def mkTile (fp : Bool) (k0 n : Nat) (cols : List (List (Nat × Val))) : Tile :=
  ⟨k0, cols, (List.range n).map (fun i =>
     let ws := cols.filterMap (fun c => (c.find? (fun q => q.1 == k0 + i)).map (fun q => q.2))
     (chkSum fp ws, chkSum fp (ws.map Val.abs))),
   cols.all (fun c => c.all (fun q => q.2.finite))⟩

/-- Outcome of the check of one activation row. -/
inductive RowCheck where
  | passes | unchecked | fails
deriving DecidableEq, Repr

/-- The check of R111: activations, and the row's partial outputs. -/
def Tile.check (t : Tile) (fp : Bool) (tol : Nat) (xs ys : List Val) : RowCheck :=
  let rd (v : Val) : Val := if fp then ofF32 (f32 v) else v
  let z := chkSum fp ((xs.zip t.sums).map (fun p => rd (vmul p.1 p.2.1)))
  let a := chkSum fp ((xs.zip t.sums).map (fun p => rd (vmul p.1.abs p.2.2)))
  let s := chkSum fp ys
  if !fp then (if veq s z then .passes else .fails)
  else if !t.finite || xs.any (fun x => !x.finite) || !a.finite then .unchecked
  else if s.finite && z.finite && !vlt (vadd (a.scale (-(tol : Int))) (.fin false 1 (-100))) (vsub s z).abs then .passes
  else .fails

/-- One failed attempt of activation row `row` of pass `pass` of the descriptor (R129): counted, logged, traced. -/
def State.chkFailed (s : State) (d : Desc) (a row pass : Nat) (again : Bool) : State :=
  let sec := s.secureDesc d
  let s := s.setReg (ARR_CHK_LOG0 a) (BitVec.ofNat 64 (if sec then 0 else
    row % 2 ^ 10 + pass % 2 ^ 22 * 2 ^ 10 + d.layerId * 2 ^ 32 + d.opId * 2 ^ 48))
  let s := s.put (ARR_CHK_LOG1_TIME a) s.beacon
  let s := if sec then s else s.emitError a (0x200000 + a * 0x10000) (s.reg (ARR_CHK_LOG0 a)).toNat
  let s := s.transient (chIsl a)
  if again then (s.bump (ARR_CNT_CHK_RETRY_COUNT a) 1).emitDesc d a 0x0A 0 0 a else s

/-- Attempts of a row: the injected failures of the array, or every one where the row's own sums fail. A status when the last
attempt also fails, or when the rate of R28 retires the array. -/
def State.chkAttempts (s : State) (d : Desc) (a row pass : Nat) (bad : Bool) : State × Option (Nat × Nat) :=
  let att := s.get SAF_CTL_ATTEMPTS
  let n := if bad then att else mget (fun _ => 0) s.chkInject a
  if n = 0 then (s, none) else
  let others := s.chkReal.filter (· != a)
  let s := if bad then { s with chkReal := others ++ [a] }
    else { s with chkInject := mset (fun _ => 0) s.chkInject a 0, chkReal := others }
  let fails := min n att
  let s := (List.range fails).foldl (fun s i => s.chkFailed d a row pass (i + 1 < att)) s
  if s.rateHit (chIsl a) then (s.retireBy (chIsl a) 3 (!bad), some (0x31, a))
  else if att ≤ n then (s.bump (ARR_CNT_CHK_FAIL_COUNT a) 1, some (0x30, a))
  else (s, none)

/-- The check of one row of array `a` as engine work. -/
def eRowCheck (d : Desc) (a row pass : Nat) (v : RowCheck) : Eng Unit :=
  if v = .unchecked then eMod (fun s => s.bump (ARR_CNT_UNCHECKED_COUNT a) 1)
  else ExceptT.mk (m := StateM State) fun s =>
    match s.chkAttempts d a row pass (v = .fails) with
    | (s, some (c, x)) => (.error (.fail c x), s)
    | (s, none) => (.ok (), s)

/-! ### The work of ARR_GEMM -/

/-- Load time L of a tile of `cols` columns and `ks` logical rows (R101); the rows that exist are loaded (log 22). -/
def loadTime (fmt : Nat) (sparse : Bool) (cols ks : Nat) : Nat :=
  let st := if sparse then ks / 2 else ks
  let bytes := cols * ((st * fmtBits fmt + 7) / 8) + (if isMx fmt then cols * cdiv ks 32 else 0) +
    (if sparse then cols * (ks / 8) else 0)
  cdiv bytes 512 + 3

/-- A pass of `ms` rows begins: the clocks it waits for its tile of load time `l` (R102), the first pass all of them. -/
def State.passLoad (s : State) (a l ms : Nat) (first : Bool) : State :=
  s.bump (ARR_CNT_LOAD_STALL_COUNT a) (if first then l else l + 1 - ms)

/-- The partial outputs of a row of a pass: per column its products, and their sum in the accumulator format. -/
def partials (fp : Bool) (aFmt wFmt key k0 : Nat) (xs : List Val) (cols : List (List (Nat × Val))) :
    List (List (Nat × Val)) × List Val :=
  let ps := cols.map (passProds k0 xs)
  (ps, ps.map (fun p => if fp then ofF32 (accFp aFmt wFmt key 0x80000000 [p]) else vsum (p.map (fun q => q.2))))

/-- The slice of one array: for each column block and pass the tile is loaded and its rows streamed and checked, and the
accumulator rows are then written whole (R105, R110 to R112). -/
def Gemm.runSlice (g : Gemm) (d : Desc) (rq : MReq) (key : Nat) (sl : Slice) : Eng Unit := do
  let fp := !pairInt g.wFmt g.aFmt
  let spans := (List.range sl.pc).map (fun i => (sl.p0 + i, (sl.p0 + i) * g.depth, min g.k ((sl.p0 + i + 1) * g.depth)))
  let mut first := true
  for (b, j) in sl.blocks do
    let mut passes : List (List (List (List (Nat × Val)))) := []
    for (p, k0, k1) in spans do
      let mut cols : List (List (Nat × Val)) := []
      for c in List.range 512 do
        let col ← g.readCol rq (512 * b + c) k0 k1
        cols := cols ++ [col]
      let tile := mkTile fp k0 (k1 - k0) cols
      let l := loadTime g.wFmt g.sparse (min 512 (g.n - 512 * b)) (k1 - k0)
      let isFirst := first
      eMod (fun s => s.passLoad sl.arr l sl.mc isFirst)
      first := false
      let mut rows : List (List (List (Nat × Val))) := []
      for i in List.range sl.mc do
        let m := sl.m0 + i
        let xs ← readRow rq g.aFmt (g.a + m * g.aStride) (g.aScale + m * g.aSs) k0 k1
        let (ps, ys) := partials fp g.aFmt g.wFmt key k0 xs cols
        eMod (fun s => s.bump (ARR_CNT_ROWS_COUNT sl.arr) 1)
        let s ← eGet
        eRowCheck d sl.arr i (b * g.np + p) (tile.check fp (s.getA (ARR_CHK_CFG_TOL_EXP sl.arr)) xs ys)
        rows := rows ++ [ps]
      eMod (fun s => s.bump (ARR_CNT_PASSES_COUNT sl.arr) 1)
      passes := passes ++ [rows]
    for i in List.range sl.mc do
      let row := g.rowBase + j * sl.pitch + i
      let old ← if g.accMode then eRead rq (accRow sl.arr row) 2048 else pure []
      let accs := (List.range 512).map (fun c =>
        let ps := passes.map (fun rows => nth [] (nth [] rows i) c)
        let st := u old (4 * c) 4
        if fp then (accFp g.aFmt g.wFmt key (if g.accMode then st else 0x80000000) ps, 0)
        else let r := accInt (sgn 32 st) ps; (unsgn 32 r.1, r.2))
      eMod (fun s => s.bump (ARR_CNT_SAT_COUNT sl.arr) ((accs.map (·.2)).foldl (· + ·) 0))
      eWrite rq true 0 (accRow sl.arr row) (accs.flatMap (fun x => leBytes 4 x.1))

/-- The fused drain of one slice (R119). -/
def Gemm.drainSlice (g : Gemm) (rq : MReq) (as : List Nat) (sl : Slice) : Eng Unit := do
  let fp := !pairInt g.wFmt g.aFmt
  let dr := { g.dr with fp := fp }
  for (b, j) in sl.blocks do
    dr.run rq as fp ((List.range sl.mc).map (fun i => (g.rowBase + j * sl.pitch + i, sl.m0 + i))) 0
      (min 512 (g.n - 512 * b)) (512 * b) (512 * b)

/-- The results of the arrays that run their part (R350): each array's slice with its status. With SPLIT 2 the array that
takes its part last drains the sum, when every slice has succeeded. -/
def gemmWork (g : Gemm) (d : Desc) : Eng (List PartRes) := do
  let s ← eGet
  let sls := g.slices d.isls
  let key := sls.length * 4 + g.split
  let mut rs : List PartRes := []
  for sl in sls.filter (fun sl => d.todo.contains sl.arr) do
    let rq := s.mreq d sl.arr
    eMod (fun s => s.put (ARR_STATUS_MODE sl.arr) (cellMode g.aFmt g.wFmt))
    let r ← eTry (do
      g.runSlice d rq key sl
      if g.drain && g.split != 2 then g.drainSlice rq [sl.arr] sl)
    rs := rs ++ [match r with
      | .ok _ => (sl.arr, 0, 0)
      | .error (c, x) => (sl.arr, c, x)]
  if g.drain && g.split == 2 && d.lastShare && rs.all (fun r => r.2.1 == 0) && d.parts.all (fun p => p.status == 0) then
    let lead := nth 0 d.todo 0
    let all : Slice := ⟨lead, (List.range g.nb).map (fun b => (b, b)), 0, g.m, g.m, 0, g.np⟩
    let r ← eTry (g.drainSlice (s.mreq d lead) (sls.map (·.arr)) all)
    match r with
    | .ok _ => return rs
    | .error (c, x) => return rs.map (fun q => if q.1 = lead then (lead, c, x) else q)
  else return rs

/-- What the engine of 0x20 does (see execArrGemm). -/
def workArrGemm (x : Desc) : Eng (List PartRes) := do
    let s ← eGet
    let pb ← eRead (s.mreq x 36) x.pbAddr (64 * x.pbLen)
    gemmWork (gemmOf pb) x

/-- ARR_GEMM. -/
def execArrGemm (d : Nat) (s : State) : Out := .next (s.runWork d 0x20 workArrGemm)

/-! ### ARR_ACC_DRAIN and ARR_ACC_CLEAR (R120, R122) -/

/-- The check of ARR_ACC_DRAIN: malformed fields lie in the descriptor; a SHIFT above 62 is PB_INVALID there too (R89). -/
def State.drainCheck (s : State) (d : Desc) : Verdict :=
  let p := drainOf d.bytes 16
  match minOff (reservedAt 16 48 (drainFields 16) d.bytes) (firstBad (p.bad 16 ++ p.badOwn 16)) with
  | some o => malformed o
  | none =>
    if p.badShift then pbInvalid 52 else
    let named := maskBits 4 p.mask
    let here := named.filter (fun a => !s.isRetired a)
    let outs := p.outs p.rows p.cols
    if here.isEmpty then .refuse 0x20 (accRow (nth 0 named 0) p.rowBase) outs
    else .go { isls := here, rows := fun as => as.map (fun a => (a, p.rowBase, p.rows)), outs := fun _ => outs }

/-- What the engine of 0x21 does (see execArrAccDrain): the array that takes its part last drains the sum. -/
def workArrAccDrain (x : Desc) : Eng (List PartRes) := do
    let s ← eGet
    let p := drainOf x.bytes 16
    if x.lastShare then
      p.run (s.mreq x (nth 0 x.todo 0)) (maskBits 4 p.mask) p.fp
        ((List.range p.rows).map (fun r => (p.rowBase + r, r))) p.colBase p.cols 0 0
    return x.todo.map (fun a => (a, 0, 0))

/-- ARR_ACC_DRAIN. -/
def execArrAccDrain (d : Nat) (s : State) : Out := .next (s.runWork d 0x21 workArrAccDrain)

def clrArrays (d : Desc) : Nat := bitsOf (d.u 16 4) 0 4
def clrBase (d : Desc) : Nat := bitsOf (d.u 16 4) 4 10
def clrRows (d : Desc) : Nat := bitsOf (d.u 16 4) 14 11

/-- The check of ARR_ACC_CLEAR. -/
def State.clearCheck (s : State) (d : Desc) : Verdict :=
  match minOff (reservedAt 16 48 [(16, 0, 25)] d.bytes)
      (firstBad [(clrArrays d == 0, 16), (clrRows d == 0 || decide (1024 < clrRows d), 17)]) with
  | some o => malformed o
  | none =>
    let named := maskBits 4 (clrArrays d)
    let outs := fun (as : List Nat) => as.map (fun a => (accRow a (clrBase d), min (clrRows d) (1024 - clrBase d) * 2048))
    let gone := named.filter s.isRetired
    if !gone.isEmpty then .refuse 0x89 ((gone.map (fun a => 2 ^ a)).foldl (· + ·) 0) (outs named)
    else .go { isls := named, units := 1, rows := fun as => as.map (fun a => (a, clrBase d, clrRows d)), outs := outs }

/-- What the engine of 0x22 does (see execArrAccClear). -/
def workArrAccClear (x : Desc) : Eng (List PartRes) := do
    let s ← eGet
    let mut rs : List PartRes := []
    for a in x.todo do
      let r ← eTry (eWrite (s.mreq x a) true 0 (accRow a (clrBase x)) (List.replicate (clrRows x * 2048) 0))
      rs := rs ++ [match r with
        | .ok _ => (a, 0, 0)
        | .error (c, y) => (a, c, y)]
    return rs

/-- ARR_ACC_CLEAR. -/
def execArrAccClear (d : Nat) (s : State) : Out := .next (s.runWork d 0x22 workArrAccClear)

end Sys2Proof.Machine
end

