-- ==== Sys2Proof/Machine/Window.lean ====
section
/-!
DEFINITION. Window units (R131 to R164): convolution, Winograd layers, depthwise and pooling, fused groups by stripes,
and the preparation of transformed weights.
-/

namespace Sys2Proof.Machine

/-! ### The parameter block (R156, R157) -/

structure WHdr where
  inA : Nat
  inS : Nat
  outA : Nat
  outS : Nat
  ws : Nat
  inR : Nat
  outR : Nat
  inP : Nat
  outP : Nat
  wsStride : Nat
  layers : Nat
  arrays : Nat
  stripe : Nat
deriving DecidableEq, Repr

def whdrOf (pb : List Byte) : WHdr :=
  let w := u pb 56 4
  ⟨bitsOf (u pb 0 8) 0 48, bitsOf (u pb 8 8) 0 48, bitsOf (u pb 16 8) 0 48, bitsOf (u pb 24 8) 0 48,
   bitsOf (u pb 32 8) 0 48, u pb 40 4, u pb 44 4, u pb 48 2, u pb 50 2, u pb 52 4, bitsOf w 0 3 + 1, bitsOf w 3 4,
   bitsOf w 7 10⟩

structure WLayer where
  w : Nat
  ws : Nat
  wMeta : Nat
  sb : Nat
  wStride : Nat
  wSs : Nat
  mStride : Nat
  ih : Nat
  iw : Nat
  oh : Nat
  ow : Nat
  ci : Nat
  co : Nat
  kind : Nat
  sparse : Bool
  aFmt : Nat
  wFmt : Nat
  fh : Nat
  fw : Nat
  act : Nat
  sy : Nat
  sx : Nat
  dy : Nat
  dx : Nat
  pt : Nat
  pb : Nat
  pl : Nat
  pr : Nat
  mode : Nat
  padV : Nat
  cvt : Nat
  shift : Nat
  avgExcl : Bool
  mult : Nat
  zp : Nat
  tiles : Nat
deriving DecidableEq, Repr

/-- Layer record at byte `o`. -/
def wlayerOf (b : List Byte) (o : Nat) : WLayer :=
  let w56 := u b (o + 56) 4
  let w60 := u b (o + 60) 4
  let w68 := u b (o + 68) 4
  ⟨bitsOf (u b o 8) 0 48, bitsOf (u b (o + 8) 8) 0 48, bitsOf (u b (o + 16) 8) 0 48, bitsOf (u b (o + 24) 8) 0 48,
   u b (o + 32) 4, u b (o + 36) 2, u b (o + 40) 3, u b (o + 44) 2, u b (o + 46) 2, u b (o + 48) 2, u b (o + 50) 2,
   u b (o + 52) 2, u b (o + 54) 2, bitsOf w56 0 3, bitOf w56 3, bitsOf w56 4 4, bitsOf w56 8 4, bitsOf w56 12 6,
   bitsOf w56 18 6, bitsOf w56 24 4, bitsOf w60 0 3 + 1, bitsOf w60 3 3 + 1, bitsOf w60 6 4 + 1, bitsOf w60 10 4 + 1,
   bitsOf w60 14 4, bitsOf w60 18 4, bitsOf w60 22 4, bitsOf w60 26 4, bitsOf w60 30 2, u b (o + 64) 4,
   bitsOf w68 0 8, bitsOf w68 8 6, bitOf w68 14, u b (o + 72) 4, u b (o + 76) 4, bitsOf (u b (o + 80) 4) 0 11⟩

def whdrFields : List FieldAt :=
  [(0, 0, 48), (8, 0, 48), (16, 0, 48), (24, 0, 48), (32, 0, 48), (40, 0, 64), (48, 0, 64), (56, 0, 17)]

def wlayerFields (o : Nat) : List FieldAt :=
  [(o, 0, 48), (o + 8, 0, 48), (o + 16, 0, 48), (o + 24, 0, 48), (o + 32, 0, 48), (o + 40, 0, 24), (o + 44, 0, 96),
   (o + 56, 0, 28), (o + 60, 0, 32), (o + 64, 0, 32), (o + 68, 0, 15), (o + 72, 0, 64), (o + 80, 0, 11)]

/-- A layer that runs on the array. -/
def WLayer.onArray (l : WLayer) : Bool := decide (l.kind ≤ 1)

/-- Reduction length of a layer. -/
def WLayer.k (l : WLayer) : Nat := if l.kind ≤ 1 then l.fh * l.fw * l.ci else l.fh * l.fw

/-- Output format and bytes of one output or input pixel. -/
def WLayer.oFmt (l : WLayer) : Nat := cvtFmt l.cvt
def WLayer.oPix (l : WLayer) : Nat := eltBytes l.oFmt l.co
def WLayer.iPix (l : WLayer) : Nat := eltBytes l.aFmt l.ci

/-- Padding in force at the top and the left: derived in ZERO mode (R138). -/
def zeroTot (o s f d n : Nat) : Nat := (o - 1) * s + (f - 1) * d + 1 - n
def WLayer.top (l : WLayer) : Nat := if l.mode = 0 then zeroTot l.oh l.sy l.fh l.dy l.ih / 2 else l.pt
def WLayer.left (l : WLayer) : Nat := if l.mode = 0 then zeroTot l.ow l.sx l.fw l.dx l.iw / 2 else l.pl

/-- Native output size of R136, 0 where there is none. -/
def nativeOut (n p q f d s : Nat) : Nat := if n + p + q < (f - 1) * d + 1 then 0 else (n + p + q - (f - 1) * d - 1) / s + 1

/-- Accumulator of a layer is FP32. -/
def WLayer.fp (l : WLayer) : Bool := !pairInt l.wFmt l.aFmt

/-- The output stage of a layer as a drain (R141). -/
def WLayer.drain (l : WLayer) : Drain :=
  ⟨0, 0, 0, 0, 0, l.fp, l.act, 0, 0, l.cvt, sgn 32 l.zp, l.sb, sgn 32 l.mult, l.shift, false, 0, 0⟩

/-- Weight bytes of a stored row. -/
def WLayer.wRow (l : WLayer) : Nat :=
  if l.sparse then (if isMx l.wFmt then (l.k + 31) / 32 * (mxBlockBytes l.wFmt / 2) else eltBytes l.wFmt (l.k / 2))
  else eltBytes l.wFmt l.k

/-- Pairings a CONV_WINO layer may have (R143). -/
def winoPair (a w : Nat) : Bool :=
  ((a == 1 || a == 2) && (w == 1 || w == 2)) || (isFp8 a && isFp8 w) || (isHalf a && isHalf w)

/-- Bytes of a transformed-weight buffer (R146). -/
def winoBytes (a w ci co : Nat) : Nat :=
  64 + 36 * (cdiv ci (cellDepth a w) * cellDepth a w) * (cdiv co 512 * 512) * (fmtBits w / 8)

/-- Violations of one layer record at byte `o` (R131 to R138, R143, R148, R157, R158). -/
def WLayer.bad (l : WLayer) (o : Nat) : List (Bool × Nat) :=
  let pool := l.kind == 3 || l.kind == 4
  let aMx := isMx l.aFmt
  let wMx := isMx l.wFmt
  let out (n : Nat) : Bool := n == 0 || decide (16384 < n)
  let fmax := if l.kind = 0 then 33 else if l.kind = 1 then 3 else 11
  let big (t : Nat) : Bool := decide (30 < t)
  let mir := l.mode == 2
  let conv := l.kind == 0
  [(pool && l.w != 0 || !pool && (!(if l.kind = 1 then rowsOk l.w 0 1 (winoBytes l.aFmt l.wFmt l.ci l.co)
       else rowsOk l.w l.wStride l.co l.wRow) || (wMx && l.w % 32 != 0)), o),
   (if pool || !wMx || l.kind == 1 then l.ws != 0 else l.ws % 32 != 0 || !rowsOk l.ws l.wSs l.co ((l.k + 31) / 32), o + 8),
   (if l.sparse then !rowsOk l.wMeta l.mStride l.co (l.k / 8) else l.wMeta != 0, o + 16),
   (if pool then l.sb != 0 else l.sb != 0 && !rowsOk l.sb 0 1 (8 * l.co), o + 24),
   (!pool && l.kind != 1 && decide (l.wStride < l.wRow), o + 32),
   (conv && wMx && decide (l.wSs < (l.k + 31) / 32), o + 36), (conv && l.sparse && decide (l.mStride < l.k / 8), o + 40),
   (out l.ih || (mir && decide (l.ih ≤ max l.pt l.pb)), o + 44),
   (out l.iw || (mir && decide (l.iw ≤ max l.pl l.pr)), o + 46),
   (out l.oh || (l.mode != 0 && l.oh != nativeOut l.ih l.pt l.pb l.fh l.dy l.sy) ||
     (l.mode == 0 && big (zeroTot l.oh l.sy l.fh l.dy l.ih)), o + 48),
   (out l.ow || (l.mode != 0 && l.ow != nativeOut l.iw l.pl l.pr l.fw l.dx l.sx) ||
     (l.mode == 0 && big (zeroTot l.ow l.sx l.fw l.dx l.iw)), o + 50),
   (l.ci == 0 || (fmtBits l.aFmt == 4 && l.ci % 2 != 0) || (fmtBits l.aFmt == 6 && l.ci % 4 != 0) || (aMx && l.ci % 32 != 0) ||
     (conv && decide (16777215 < l.k)), o + 52),
   (l.co == 0 || (fmtBits l.oFmt == 4 && l.co % 2 != 0) || (fmtBits l.oFmt == 6 && l.co % 4 != 0) ||
     (isMx l.oFmt && l.co % 32 != 0) || (decide (2 ≤ l.kind) && l.co != l.ci), o + 54),
   (decide (5 ≤ l.kind) || (l.sparse && (!conv || !sparseFmt l.wFmt || cellDepth l.aFmt l.wFmt == 16 || l.k % 32 != 0)) ||
     l.aFmt == 15 || (decide (l.kind ≤ 2) && l.wFmt == 15) || (pool && aMx) || (decide (l.kind ≤ 2) && !pairOk l.wFmt l.aFmt) ||
     (l.kind == 1 && !winoPair l.aFmt l.wFmt) ||
     (l.kind == 2 && (aMx || wMx || l.aFmt == 9 || l.wFmt == 9)), o + 56),
   (pool && l.wFmt != 0, o + 57),
   (l.fh == 0 || decide (fmax < l.fh) || (l.kind == 1 && l.fh != 3), o + 57),
   (l.fw == 0 || decide (fmax < l.fw) || (l.kind == 1 && l.fw != 3), o + 58),
   (decide (6 < l.act) || (!pool && l.drain.intPath && decide (1 < l.act)), o + 59),
   (l.kind == 1 && (l.sy != 1 || l.sx != 1 || l.dy != 1), o + 60), (l.kind == 1 && l.dx != 1, o + 61),
   (l.mode == 0 && l.pt != 0, o + 61), (l.mode == 0 && l.pb != 0, o + 62), (l.mode == 0 && l.pl != 0, o + 62),
   (l.mode == 0 && l.pr != 0, o + 63),
   ((l.mode != 1 && l.padV != 0) ||
     (l.mode == 1 && (if aMx then decide (65536 ≤ l.padV) || decide (2 ^ fmtBits l.aFmt ≤ l.padV % 256)
       else decide (2 ^ fmtBits l.aFmt ≤ l.padV))), o + 64),
   (!cvtOk l.cvt, o + 68), (pool && l.shift != 0 || (!pool && l.sb == 0 && l.drain.intPath && decide (62 < l.shift)), o + 69),
   (pool && l.mult != 0, o + 72),
   (if pool then l.zp != 0 else if l.drain.intPath then
      (let r := intRange l.oFmt; decide (sgn 32 l.zp < r.1 ∨ r.2 < sgn 32 l.zp)) else l.zp != 0, o + 76),
   (decide (1024 < l.tiles) || (l.kind != 1 && l.tiles != 0), o + 80)]

/-- Two address ranges share a byte. -/
def overlaps (a n b m : Nat) : Bool := n != 0 && m != 0 && decide (a < b + m) && decide (b < a + n)

/-- A strided tensor: address, rows and pixels of a row, their strides, bytes of a pixel. -/
structure Span where
  a : Nat
  h : Nat
  w : Nat
  rs : Nat
  ps : Nat
  pix : Nat
deriving DecidableEq, Repr

/-- Bytes from a tensor's first to its last. -/
def Span.len (t : Span) : Nat := if t.h = 0 ∨ t.w = 0 ∨ t.pix = 0 then 0 else (t.h - 1) * t.rs + (t.w - 1) * t.ps + t.pix

/-- Contiguous bytes as a tensor. -/
def Span.flat (a n : Nat) : Span := ⟨a, 1, 1, n, n, n⟩

/-- Does a row of pixels share a byte with `[b, b + n)`? The first pixel that ends above `b` decides. -/
def Span.rowHits (t : Span) (r b n : Nat) : Bool :=
  let x := t.a + r * t.rs
  let p := if t.ps = 0 ∨ b < x + t.pix then 0 else (b - x - t.pix) / t.ps + 1
  decide (p < t.w) && decide (x + p * t.ps < b + n) && decide (b < x + p * t.ps + t.pix)

/-- Does the tensor share a byte with `[b, b + n)`? Rows that do not overlap one another: the first row that ends above `b` and
the next decide; else every row is looked at. -/
def Span.hits (t : Span) (b n : Nat) : Bool :=
  let row := (t.w - 1) * t.ps + t.pix
  if n = 0 ∨ t.len = 0 then false
  else if 0 < t.rs ∧ row ≤ t.rs ∧ n ≤ t.rs then
    let r := if b < t.a + row then 0 else (b - t.a - row) / t.rs + 1
    (List.range 2).any (fun i => decide (r + i < t.h) && t.rowHits (r + i) b n)
  else (List.range t.h).any (fun r => t.rowHits r b n)

/-- Two tensors share a byte: none where their spans are apart. -/
def Span.meets (t u : Span) : Bool :=
  overlaps t.a t.len u.a u.len &&
    (List.range u.h).any (fun r =>
      if u.ps = u.pix then t.hits (u.a + r * u.rs) (u.w * u.pix)
      else (List.range u.w).any (fun p => t.hits (u.a + r * u.rs + p * u.ps) u.pix))

/-! ### Stripes (R150 to R152) -/

/-- Coordinate folded by MIRROR or REPLICATE (R137). -/
def foldCoord (mode : Nat) (v : Int) (n : Nat) : Int :=
  if mode = 2 then
    let w := if v < 0 then -v else v
    if (n : Int) ≤ w then 2 * ((n : Int) - 1) - w else w
  else clampI 0 ((n : Int) - 1) v

/-- First and last row of a range; none where the last lies below the first. -/
abbrev Rows := Int × Int

def Rows.count (r : Rows) : Nat := (r.2 + 1 - r.1).toNat

/-- Rows of layer l's input that rows `[lo, hi]` of its output need, mirror and replicate included (R150). -/
def WLayer.needRows (l : WLayer) (lo hi : Int) : Rows :=
  let a := max (lo * l.sy - l.top) 0
  let b := min (hi * l.sy - l.top + (l.fh - 1 : Nat) * l.dy) ((l.ih : Int) - 1)
  if l.mode < 2 then (a, b)
  else
    let rows := (List.range (hi + 1 - lo).toNat).flatMap (fun (i : Nat) => (List.range l.fh).map (fun (fy : Nat) =>
      let iy : Int := (lo + (i : Int)) * l.sy + ((fy * l.dy : Nat) : Int) - l.top
      if 0 ≤ iy ∧ iy < l.ih then iy else foldCoord l.mode iy l.ih))
    (rows.foldl min a, rows.foldl max b)

/-- Winograd rows widen to tiles of 4 (R150). -/
def WLayer.widen (l : WLayer) (wino : Bool) (lo hi : Int) : Rows :=
  if l.kind = 1 ∧ wino then (4 * (lo / 4), min (4 * (hi / 4) + 3) ((l.oh : Int) - 1)) else (lo, hi)

/-- Row ranges of the group input and of every layer for the last layer's rows `[lo, hi]`: the list is in layer order,
the group input first. `ls` is in reverse layer order. -/
def stripeRows (wino : Bool) : List WLayer → Int → Int → List Rows
  | [], lo, hi => [(lo, hi)]
  | l :: rest, lo, hi =>
    let (lo, hi) := l.widen wino lo hi
    let (a, b) := l.needRows lo hi
    stripeRows wino rest a b ++ [(lo, hi)]

/-- The stripes of a group: first and last row of the last layer. -/
def WHdr.stripes (h : WHdr) (oh : Nat) : List (Nat × Nat) :=
  if h.stripe = 0 then [(0, oh - 1)]
  else (List.range (cdiv oh h.stripe)).map (fun s => (s * h.stripe, min ((s + 1) * h.stripe) oh - 1))

def align4k (n : Nat) : Nat := cdiv n 4096 * 4096

/-- Bytes of `rows` rows of a layer's output, packed (R149). -/
def WLayer.packed (l : WLayer) (rows : Nat) : Nat :=
  let e := rows * l.ow * l.oPix
  if isMx l.oFmt then cdiv e 32 * 32 + rows * l.ow * (l.co / 32) else e

/-- Sizes of buffer 0, buffer 1 and the transform area of a workspace slot (R152). -/
def wsAreas (wino : Bool) (h : WHdr) (ls : List WLayer) : Nat × Nat × Nat :=
  let last := nth 1 (ls.map (·.oh)) (ls.length - 1)
  let rows := (h.stripes last).map (fun s => stripeRows wino ls.reverse s.1 s.2)
  let size (par : Nat) : Nat := (rows.flatMap (fun rs =>
    ((List.range (ls.length - 1)).filter (fun i => i % 2 == par)).map (fun i =>
      match ls[i]?, rs[i + 1]? with
      | some l, some r => l.packed (Rows.count r)
      | _, _ => 0))).foldl max 0
  let t := ((ls.filter (fun l => l.kind == 1)).map (fun l => if l.tiles = 0 then 144 else l.tiles)).foldl max 0
  (align4k (size 0), align4k (size 1), if wino then align4k (36 * t * 2048) else 0)

/-- Rows of group input beyond R × Π SY that the tallest interior stripe needs (R151). -/
def haloRows (wino : Bool) (h : WHdr) (ls : List WLayer) : Nat :=
  let last := nth 1 (ls.map (·.oh)) (ls.length - 1)
  let st := h.stripes last
  let inner := if 2 < st.length then (st.drop 1).take (st.length - 2) else st
  let prod := (ls.map (·.sy)).foldl (· * ·) 1
  (inner.map (fun s => match stripeRows wino ls.reverse s.1 s.2 with
    | r :: _ => Rows.count r - h.stripe * prod
    | [] => 0)).foldl max 0

/-! ### The check of WIN_GROUP (R158) -/

/-- Weights of a layer: elements, scales and metadata. -/
def WLayer.wSpans (l : WLayer) : List Span :=
  if l.kind = 1 then [.flat l.w (winoBytes l.aFmt l.wFmt l.ci l.co)]
  else if l.kind ≤ 2 then
    [⟨l.w, l.co, 1, l.wStride, 0, l.wRow⟩,
     ⟨l.ws, l.co, 1, l.wSs, 0, if isMx l.wFmt then cdiv l.k 32 else 0⟩,
     ⟨l.wMeta, l.co, 1, l.mStride, 0, if l.sparse then l.k / 8 else 0⟩]
  else []

/-- Violations of the chain of R149 for layer `i` from the layer before it. -/
def chainBad (p l : WLayer) (o : Nat) : List (Bool × Nat) :=
  [(l.ih != p.oh, o + 44), (l.iw != p.ow, o + 46), (l.ci != p.co, o + 52), (l.aFmt != p.oFmt, o + 56)]

def WHdr.winBad (h : WHdr) (ls : List WLayer) (pb : List Byte) (slots : Nat) (len : Nat) : Option Nat :=
  match ls, ls.reverse with
  | f :: _, z :: _ =>
    let n := ls.length
    let needWs := n ≥ 2 || ls.any (fun l => l.kind == 1)
    let inT : Span := ⟨h.inA, f.ih, f.iw, h.inR, h.inP, f.iPix⟩
    let outT : Span := ⟨h.outA, z.oh, z.ow, h.outR, h.outP, z.oPix⟩
    let wsN := slots * h.wsStride
    let insT := Span.flat h.inS (if isMx f.aFmt then f.ih * f.iw * (f.ci / 32) else 0)
    let outsT := Span.flat h.outS (if isMx z.oFmt then z.oh * z.ow * (z.co / 32) else 0)
    let others := [inT, insT, outT, outsT] ++ ls.flatMap WLayer.wSpans
    let mxMid := (ls.take (n - 1)).any (fun l => isMx l.oFmt)
    minOff (reservedAt 0 (64 + 128 * n) (whdrFields ++ (List.range n).flatMap (fun i => wlayerFields (64 + 128 * i))) pb)
      (firstBad ([
        (!rowsOk h.inA h.inR f.ih ((f.iw - 1) * h.inP + f.iPix) || (isMx f.aFmt && h.inA % 32 != 0), 0),
        (if isMx f.aFmt then h.inS % 32 != 0 || !rowsOk h.inS 0 1 insT.pix else h.inS != 0, 8),
        ((isMx z.oFmt && h.outA % 32 != 0) || inT.meets outT || insT.meets outT, 16),
        ((if isMx z.oFmt then h.outS % 32 != 0 else h.outS != 0) || inT.meets outsT || insT.meets outsT, 24),
        ((!needWs && h.ws != 0) || (mxMid && h.ws % 32 != 0) ||
          (needWs && (decide (spdEnd < h.ws + wsN) || others.any (fun t => t.meets (.flat h.ws wsN)))), 32),
        (mxMid && decide (2 ≤ slots) && h.wsStride % 32 != 0, 52),
        (decide (h.inR < f.iw * h.inP), 40), (decide (h.outR < z.ow * h.outP), 44), (decide (h.inP < f.iPix), 48),
        (decide (h.outP < z.oPix), 50), (len != 1 + 2 * h.layers, 56), (h.stripe == 0 && decide (2 ≤ n), 56)] ++
        ((List.range n).zip ls).flatMap (fun (i, l) => l.bad (64 + 128 * i)) ++
        ((List.range n).zip (ls.zip (ls.drop 1))).flatMap (fun (i, p, l) => chainBad p l (64 + 128 * (i + 1)))))
  | _, _ => some 56

/-- Layers of a block. -/
def layersOf (pb : List Byte) : List WLayer :=
  (List.range (whdrOf pb).layers).map (fun i => wlayerOf pb (64 + 128 * i))

/-- Output ranges of a group: its rows, pixel by pixel where bytes that are no output lie between, with the scale rows. -/
def WHdr.outs (h : WHdr) (z : WLayer) : List (Nat × Nat) :=
  (if h.outP = z.oPix then (List.range z.oh).map (fun y => (h.outA + y * h.outR, z.ow * z.oPix))
   else (List.range z.oh).flatMap (fun y => (List.range z.ow).map (fun x => (h.outA + y * h.outR + x * h.outP, z.oPix)))) ++
    (if isMx z.oFmt then [(h.outS, z.oh * z.ow * (z.co / 32))] else [])

/-- WINO_EN of the islands a group may use: the Winograd path is taken per island (R143, R161). -/
def State.winoEn (s : State) (a : Nat) : Bool := s.flagA (WIN_CFG_WINO_EN a)

def State.winCheck2 (s : State) (d : Desc) (pb : List Byte) : Verdict :=
  let h := whdrOf pb
  let ls := layersOf pb
  let named := maskBits 4 h.arrays
  let slots := if h.arrays = 0 then s.arraysPresent.length else named.length
  match h.winBad ls pb slots d.pbLen, ls.reverse with
  | some o, _ => pbInvalid o
  | none, [] => pbInvalid 56
  | none, z :: _ =>
    let outs := h.outs z
    let gone := named.filter s.isRetired
    let (b0, b1, tr) := wsAreas (ls.any (fun l => l.kind == 1)) h ls
    let halo := haloRows (ls.any (fun l => l.kind == 1)) h ls
    if !gone.isEmpty then .refuse 0x89 ((gone.map (fun a => 2 ^ a)).foldl (· + ·) 0) outs
    else if h.stripe != 0 && decide (256 < halo) then .refuse 0x92 halo outs
    else if h.wsStride < b0 + b1 + tr then .refuse 0x91 (b0 + b1 + tr) outs
    else
      let arr := ls.any (fun l => l.onArray)
      .go { isls := named, auto := if h.arrays = 0 then 1 else 0, units := if arr then 3 else 2,
            rows := fun as => as.map (fun a => (a, 0, if arr then 1024 else 0)), outs := fun _ => outs }

/-! ### Taps (R137) -/

/-- Where a layer reads its input: element base, row and pixel strides, scale base, first row held and the row after the last. -/
structure WSrc where
  base : Nat
  rs : Nat
  ps : Nat
  sbase : Nat
  y0 : Nat
  y1 : Nat
deriving DecidableEq, Repr

/-- A coordinate of the input, or its substitute; none is the padding value. The flag says substituted. -/
def WLayer.coord (l : WLayer) (iy ix : Int) : Option (Nat × Nat) × Bool :=
  let inY := decide (0 ≤ iy ∧ iy < l.ih)
  let inX := decide (0 ≤ ix ∧ ix < l.iw)
  if inY && inX then (some (iy.toNat, ix.toNat), false)
  else if l.mode < 2 then (none, true)
  else (some ((if inY then iy else foldCoord l.mode iy l.ih).toNat, (if inX then ix else foldCoord l.mode ix l.iw).toNat), true)

/-- Input coordinates of a tap (R137). -/
def WLayer.tapAt (l : WLayer) (oy ox fy fx : Nat) : Int × Int :=
  ((oy * l.sy + fy * l.dy : Nat) - (l.top : Int), (ox * l.sx + fx * l.dx : Nat) - (l.left : Int))

/-- The padding value of every channel (R137). -/
def WLayer.padVal (l : WLayer) : Val :=
  let v := if l.mode = 1 then l.padV else 0
  if isMx l.aFmt then mxVal l.aFmt (if l.mode = 1 then l.padV / 256 % 256 else 0) (v % 256) else decElt l.aFmt v

/-- Values of the channels at one input coordinate. A row that the source does not hold lies under discarded outputs only. -/
def readTap (rq : MReq) (un : Nat) (l : WLayer) (src : WSrc) (at' : Int × Int) : Eng (List Val) := do
  match l.coord at'.1 at'.2 with
  | (none, _) =>
    eMod (fun s => s.bump (WIN_CNT_PAD_COUNT un) l.ci)
    return List.replicate l.ci l.padVal
  | (some (y, x), sub) =>
    if sub then eMod (fun s => s.bump (WIN_CNT_PAD_COUNT un) l.ci)
    if y < src.y0 ∨ src.y1 ≤ y then return List.replicate l.ci vzero
    let bs ← eRead rq (src.base + (y - src.y0) * src.rs + x * src.ps) l.iPix
    let scs ← if isMx l.aFmt then eRead rq (src.sbase + ((y - src.y0) * l.iw + x) * (l.ci / 32)) (l.ci / 32) else pure []
    return rowVals l.aFmt 0 l.ci bs scs

/-- Pieces of a filter larger than 11 × 11 in row-major order: the taps of each (R139). -/
def WLayer.pieces (l : WLayer) : List (List (Nat × Nat)) :=
  (List.range (cdiv l.fh 11)).flatMap (fun i => (List.range (cdiv l.fw 11)).map (fun j =>
    (List.range (min 11 (l.fh - 11 * i))).flatMap (fun a => (List.range (min 11 (l.fw - 11 * j))).map (fun b =>
      (11 * i + a, 11 * j + b)))))

/-! ### One pixel -/

/-- Weights of one piece for one output channel: position along the piece's reduction and weight. -/
def pieceCol (l : WLayer) (taps : List (Nat × Nat)) (col : List (Nat × Val)) : List (Nat × Val) :=
  col.filterMap (fun (k, w) =>
    match taps.findIdx? (· == (k / l.ci / l.fw, k / l.ci % l.fw)) with
    | some i => some (i * l.ci + k % l.ci, w)
    | none => none)

/-- FP32 accumulation in ascending order: fixed whatever the arrays (R142). -/
def accFixed (aFmt wFmt : Nat) (prods : List (List (Nat × Val))) : Nat :=
  (prods.flatMap (fun ps => (groupProds ps).map (groupSum (pairAligned aFmt wFmt) (aFmt == 9 || wFmt == 9) 0))).foldl
    accAdd 0x80000000

/-- A number that names the operands of an approximation. -/
def keyOf (vs : List Val) : Nat := vs.foldl (fun a v => a * 2 ^ 32 + f32 v) 1

/-- The Winograd result for exact products: inside the bound of R97 around the direct result (log 10), with the number of
saturations (R91). -/
def winoAcc (l : WLayer) (prods : List Val) : Nat × Nat :=
  let direct := vsum prods
  let mag := vsum (prods.map Val.abs)
  if l.fp then
    (if !direct.finite then f32 direct
     else approxPick 1 (keyOf prods) direct
       ((vmul mag (.fin false (cdiv (9 * l.ci) 32 + 64) 0)).scale (-24)), 0)
  else
    let y := roundInt 1 direct
    let p := sgn 32 (Config.approx 2 (keyOf prods))
    let tol := (roundInt 1 mag).natAbs / 512 + 1
    if (p - y).natAbs ≤ tol then (unsgn 32 p, 0) else (unsgn 32 (sat32 y).1, b2n (sat32 y).2)

/-- Where a layer writes: element base, strides, scale base, first row, whether the scale plane is that of the group. -/
abbrev WDst := WSrc

/-- Write one pixel's channels from `n0`. -/
def putPix (rq : MReq) (un : Nat) (l : WLayer) (dst : WDst) (y x n0 : Nat) (row : List Nat × List Nat) : Eng Unit :=
  let fmt := l.oFmt
  let off := if isMx fmt then n0 / 32 * mxBlockBytes fmt else fmtBits fmt * n0 / 8
  writeCodes rq un fmt (dst.base + (y - dst.y0) * dst.rs + x * dst.ps + off)
    (dst.sbase + ((y - dst.y0) * l.ow + x) * (l.co / 32) + n0 / 32) row

/-- The layer's weights as a GEMM side, so that sparse and Microscaling rows are read in one place (R133). -/
def WLayer.gemm (l : WLayer) : Gemm :=
  { gemmOf [] with w := l.w, wScale := l.ws, wMeta := l.wMeta, n := l.co, k := l.k, aFmt := l.aFmt, wFmt := l.wFmt,
                   wStride := l.wStride, wSs := l.wSs, mStride := l.mStride, sparse := l.sparse }

/-- Bytes of a transformed-weight body at offset `o` under or out of the device's own mask (log 11). -/
def winoMasked (o : Nat) (bs : List Byte) : List Byte :=
  ((List.range bs.length).zip bs).map (fun (i, b) => b ^^^ Config.winoMask (o + i))

/-- Weights of a CONV_WINO layer from the transformed buffer; the layout is the device's own (log 11): the nine taps
stand in positions 0 to 8, under the mask. -/
def winoCol (rq : MReq) (l : WLayer) (n : Nat) : Eng (List (Nat × Val)) := do
  let kt := cellDepth l.aFmt l.wFmt
  let ci2 := cdiv l.ci kt * kt
  let co2 := cdiv l.co 512 * 512
  let e := fmtBits l.wFmt / 8
  let mut out : List (Nat × Val) := []
  for t in List.range 9 do
    let o := (t * co2 + n) * ci2 * e
    let raw ← eRead rq (l.w + 64 + o) (l.ci * e)
    let bs := winoMasked o raw
    out := out ++ (List.range l.ci).map (fun c => (t * l.ci + c, decElt l.wFmt (eltCode (fmtBits l.wFmt) bs c)))
  return out

/-- The header check of R146. -/
def winoHdrOk (l : WLayer) (bs : List Byte) : Bool :=
  u bs 0 2 == 0x5749 && bitsOf (u bs 0 4) 16 4 == l.wFmt && bitsOf (u bs 0 4) 20 4 == l.aFmt && u bs 4 2 == l.ci &&
    u bs 6 2 == l.co

/-! ### One layer over rows [lo, hi] (R140, R144, R147, R148) -/

/-- Tiles of at most 512 consecutive output pixels (R140). -/
def pixTiles (pix : List (Nat × Nat)) : List (List (Nat × Nat)) :=
  (List.range (cdiv pix.length 512)).map (fun i => (pix.drop (512 * i)).take 512)

/-- The tile grid of a region in row-major order, aligned to multiples of 4 (R143). -/
def winoGrid (pix : List (Nat × Nat)) : List (Nat × Nat) := (pix.map (fun p => (p.1 / 4, p.2 / 4))).eraseDups

/-- T of a layer (R157). -/
def WLayer.groupT (l : WLayer) : Nat := if l.tiles = 0 then 144 else l.tiles

/-- The pixels of groups of T Winograd tiles (R144). -/
def winoGroups (l : WLayer) (pix : List (Nat × Nat)) : List (List (Nat × Nat)) :=
  let ts := winoGrid pix
  (List.range (cdiv ts.length l.groupT)).map (fun i =>
    ((ts.drop (l.groupT * i)).take l.groupT).flatMap (fun q => pix.filter (fun p => (p.1 / 4, p.2 / 4) == q)))

/-- Free bytes from index `k` (log 7). -/
def freeBytes (k n : Nat) : List Byte := (List.range n).map (fun i => Config.freeByte (k + i))

/-- Leave unspecified contents in a range that the requester may write. -/
def eScribble (rq : MReq) (own : Bool) (a n : Nat) : Eng Unit := do
  let s ← eGet
  eMod (fun s => s.freshen n)
  eWrite rq own 0 a (freeBytes s.fresh n)

/-- A list of engine results, in order. -/
def eMap {α β : Type} (f : α → Eng β) : List α → Eng (List β)
  | [] => return []
  | a :: as => do
    let b ← f a
    let bs ← eMap f as
    return b :: bs

/-- What a layer on an array runs with: requester, descriptor, unit, layer index, layer, source and destination. -/
structure ConvEnv where
  rq : MReq
  d : Desc
  un : Nat
  li : Nat
  l : WLayer
  src : WSrc
  dst : WSrc

/-- A pass begins: its tile of `cols` columns and `ks` rows is loaded for `ms` activation rows (R101, R102). -/
def ConvEnv.load (e : ConvEnv) (pass cols ks ms : Nat) : Eng Unit :=
  eMod (fun s => ((s.passLoad e.un (loadTime e.l.wFmt e.l.sparse cols ks) ms (pass == 0)).bump (WIN_CNT_ROWS_COUNT e.un) ms).bump
    (ARR_CNT_ROWS_COUNT e.un) ms)

/-- A block of output channels: its weights, its table and its width. -/
def ConvEnv.block (e : ConvEnv) (b : Nat) : Eng (List (List (Nat × Val)) × List (List Byte)) := do
  let nc := min 512 (e.l.co - 512 * b)
  let tab ← e.l.drain.table e.rq (512 * b) nc
  let cols ← eMap (fun c => if e.l.kind = 1 then winoCol e.rq e.l (512 * b + c) else e.l.gemm.readCol e.rq (512 * b + c) 0 e.l.k)
    (List.range nc)
  return (cols, tab)

/-- Accumulators of one pixel through the output stage, with their saturations counted. -/
def ConvEnv.put (e : ConvEnv) (p : Nat × Nat) (b : Nat) (accs : List (Nat × Nat)) (tab : List (List Byte)) : Eng Unit := do
  eMod (fun s => s.bump (ARR_CNT_SAT_COUNT e.un) ((accs.map (·.2)).foldl (· + ·) 0))
  putPix e.rq e.un e.l e.dst p.1 p.2 (512 * b) (e.l.drain.stageRow e.l.fp (accs.map (·.1)) tab)

/-- One tile of output pixels on the direct path (R134, R139, R140): the inputs of each pixel are read once; for each block of
channels and each piece the passes run, every row checked, and the tile is drained. Answers the passes run so far. -/
def ConvEnv.direct (e : ConvEnv) (tile : List (Nat × Nat)) (pass0 : Nat) : Eng Nat := do
  let l := e.l
  let kt := cellDepth l.aFmt l.wFmt * (if l.sparse then 2 else 1)
  let pieces := l.pieces
  let mut pass := pass0
  let xs ← eMap (fun (p : Nat × Nat) => eMap (fun taps => do
    let vs ← eMap (fun (t : Nat × Nat) => readTap e.rq e.un l e.src (l.tapAt p.1 p.2 t.1 t.2)) taps
    return vs.flatten) pieces) tile
  for b in List.range (cdiv l.co 512) do
    let (cols, tab) ← e.block b
    let mut prods : List (List (List (List (Nat × Val)))) := []
    for (i, taps) in (List.range pieces.length).zip pieces do
      let kp := taps.length * l.ci
      let pcols := cols.map (pieceCol l taps)
      for q in List.range (cdiv kp kt) do
        let k0 := q * kt
        let ks := min kt (kp - k0)
        let tcols := pcols.map (fun c => c.filter (fun w => decide (k0 ≤ w.1) && decide (w.1 < k0 + ks)))
        let w := mkTile l.fp k0 ks tcols
        e.load pass cols.length ks tile.length
        let ps ← eMap (fun (m, x) => do
          let act := ((nth [] x i).drop k0).take ks
          let pr := tcols.map (passProds k0 act)
          let ys := pr.map (fun p => if l.fp then ofF32 (accFixed l.aFmt l.wFmt [p]) else vsum (p.map (·.2)))
          let s ← eGet
          eRowCheck e.d e.un m pass (w.check l.fp (s.getA (ARR_CHK_CFG_TOL_EXP e.un)) act ys)
          return pr) ((List.range xs.length).zip xs)
        eMod (fun s => s.bump (ARR_CNT_PASSES_COUNT e.un) 1)
        prods := prods ++ [ps]
        pass := pass + 1
    for (m, p) in (List.range tile.length).zip tile do
      e.put p b ((List.range cols.length).map (fun c =>
        let ps := prods.map (fun rows => nth [] (nth [] rows m) c)
        if l.fp then (accFixed l.aFmt l.wFmt (mergePieces pieces.length l.ci kt pieces ps), 0)
        else let r := accInt 0 ps; (unsgn 32 r.1, r.2))) tab
  return pass
where
  /-- The passes of each piece put together again, since groups of 32 run along a piece (R92, R139). -/
  mergePieces (_n ci kt : Nat) : List (List (Nat × Nat)) → List (List (Nat × Val)) → List (List (Nat × Val))
    | [], _ => []
    | taps :: rest, ps =>
      let n := cdiv (taps.length * ci) kt
      (ps.take n).flatten :: mergePieces _n ci kt rest (ps.drop n)

/-- One group of Winograd tiles (R143, R144): the 36 inputs of every tile are read once, those under discarded outputs too; the
rows (t, p) of the transform area take unspecified contents; the passes count and their rows are checked. Transformed values
are not visible, so a row fails only by an injected fault (log 10). -/
def ConvEnv.winograd (e : ConvEnv) (area : Nat) (tile : List (Nat × Nat)) (pass0 : Nat) : Eng Nat := do
  let l := e.l
  let kt := cellDepth l.aFmt l.wFmt
  let grid := winoGrid tile
  let mut pass := pass0
  let patches ← eMap (fun (q : Nat × Nat) =>
    eMap (fun i => readTap e.rq e.un l e.src ((4 * q.1 + i / 6 : Nat) - (l.top : Int), (4 * q.2 + i % 6 : Nat) - (l.left : Int)))
      (List.range 36)) grid
  for p in List.range 36 do
    eScribble e.rq false (area + p * l.groupT * 2048) (grid.length * 2048)
  for b in List.range (cdiv l.co 512) do
    let (cols, tab) ← e.block b
    for sl in List.range (cdiv l.ci kt) do
      let ks := min kt (l.ci - sl * kt)
      let wOk := !l.fp || cols.all (fun c => c.all (fun w => decide (w.1 % l.ci / kt ≠ sl) || w.2.finite))
      for _ in List.range 36 do
        e.load pass cols.length ks grid.length
        for (t, vs) in (List.range patches.length).zip patches do
          let ok := !l.fp || (wOk && vs.all (fun v => ((v.drop (sl * kt)).take ks).all Val.finite))
          eRowCheck e.d e.un t pass (if ok then .passes else .unchecked)
        eMod (fun s => s.bump (ARR_CNT_PASSES_COUNT e.un) 1)
        pass := pass + 1
    for (y, x) in tile do
      let vs := nth [] patches ((grid.findIdx? (· == (y / 4, x / 4))).getD 0)
      e.put (y, x) b (cols.map (fun col => winoAcc l (col.map (fun (k, w) =>
        let t := k / l.ci
        vmul (nth vzero (nth [] vs (6 * (y % 4 + t / 3) + (x % 4 + t % 3))) (k % l.ci)) w)))) tab
  eMod (fun s => s.bump (WIN_CNT_WINO_TILES_COUNT e.un) grid.length)
  return pass

/-- Array layers over a list of output pixels (R140, R144). -/
def runConv (e : ConvEnv) (wino : Bool) (area : Nat) (pix : List (Nat × Nat)) (pass0 : Nat) : Eng Nat := do
  eMod (fun s => s.put (ARR_STATUS_MODE e.un) (cellMode e.l.aFmt e.l.wFmt))
  if e.l.kind == 1 then
    let hd ← eRead e.rq e.l.w 64
    if !winoHdrOk e.l hd then eFail 0x90 e.li
  let mut pass := pass0
  if e.l.kind == 1 && wino then
    for tile in winoGroups e.l pix do
      pass ← e.winograd area tile pass
  else
    for tile in pixTiles pix do
      pass ← e.direct tile pass
  return pass

/-- FP32 bits of a pooled value through ACT and CVT (R148). -/
def poolStage (l : WLayer) (v : Val) : Nat :=
  let w := if l.act = 0 then v else ofF32 (actF32 l.act (f32 v))
  encFmt l.oFmt (cvtRnd l.cvt) (cvtSat l.cvt) w

/-- Largest value of a window, compared exactly; a NaN gives the NaN (R148). -/
def maxPool (xs : List Val) : Val :=
  if xs.any Val.isNan then .nan
  else match xs with
    | [] => vzero
    | x :: rest => rest.foldl (fun a b => if vlt a b then b else a) x

/-- INT32 sum of a window with the number of saturations (R91, R148). -/
def poolSum (xs : List Val) : Int × Nat :=
  xs.foldl (fun (a : Int × Nat) x => let r := sat32 (a.1 + roundInt 1 x); (r.1, a.2 + b2n r.2)) (0, 0)

/-- Average of a window (R148); the reciprocal of an empty count is not stated (log 7). -/
def avgPool (fmt count : Nat) (xs : List Val) : Val :=
  let sum : Nat := if isInt fmt then f32 (.ofInt (poolSum xs).1)
    else xs.foldl (fun a x => f32Add a (f32 x)) 0x80000000
  let rcp : Nat := if count = 0 then Config.approx 40 fmt % 2 ^ 32 else f32 (.fin false (2 ^ 64 / count * 2 + 1) (-65))
  ofF32 (f32Mul sum rcp)

/-- Datapath layers (R147, R148). -/
def runDatapath (rq : MReq) (un : Nat) (l : WLayer) (src : WSrc) (dst : WDst) (pix : List (Nat × Nat)) : Eng Unit := do
  let taps := (List.range (l.fh * l.fw)).map (fun t => (t / l.fw, t % l.fw))
  let dr := l.drain
  let tab ← if l.kind = 2 then dr.table rq 0 l.co else pure []
  let mut rows : List (List Val) := []
  if l.kind = 2 then
    for c in List.range l.co do
      let r ← readRow rq l.wFmt (l.w + c * l.wStride) 0 0 l.k
      rows := rows ++ [r]
  for (y, x) in pix do
    let xs ← eMap (fun (t : Nat × Nat) => readTap rq un l src (l.tapAt y x t.1 t.2)) taps
    let inside := (taps.filter (fun (fy, fx) => let c := l.tapAt y x fy fx; !(l.coord c.1 c.2).2)).length
    let chan (c : Nat) : List Val := xs.map (fun t => nth vzero t c)
    if l.kind = 2 then
      let accs := (List.range l.co).map (fun c =>
        let ps := (List.range l.k).zip (((chan c).zip (nth [] rows c)).map (fun (a, w) => vmul a w))
        if l.fp then (accFixed l.aFmt l.wFmt [ps], 0) else let r := accInt 0 [ps]; (unsgn 32 r.1, r.2))
      eMod (fun s => s.bump (ARR_CNT_SAT_COUNT un) ((accs.map (·.2)).foldl (· + ·) 0))
      putPix rq un l dst y x 0 (dr.stageRow l.fp (accs.map (·.1)) tab)
    else
      if l.kind = 4 && isInt l.aFmt then
        eMod (fun s => s.bump (ARR_CNT_SAT_COUNT un) (((List.range l.co).map (fun c => (poolSum (chan c)).2)).foldl (· + ·) 0))
      let vals := (List.range l.co).map (fun c =>
        if l.kind = 3 then maxPool (chan c) else avgPool l.aFmt (if l.avgExcl then inside else taps.length) (chan c))
      let row := if isMx l.oFmt then
          let qs := (blocks32 vals.length (vals.map (fun v => if l.act = 0 then v else ofF32 (actF32 l.act (f32 v))))).map
            (mxQuant l.oFmt (cvtRnd l.cvt))
          (qs.flatMap (·.2), qs.map (·.1))
        else (vals.map (poolStage l), [])
      putPix rq un l dst y x 0 row
  eMod (fun s => s.bump (WIN_CNT_DP_OPS_COUNT un) (pix.length * l.co * taps.length))

/-! ### The group (R149 to R154) -/

/-- All pixels of a range of rows, row-major. -/
def pixelsOf (w : Nat) (r : Rows) : List (Nat × Nat) :=
  (List.range (Rows.count r)).flatMap (fun i => (List.range w).map (fun x => (r.1.toNat + i, x)))

/-- Layers of one stripe on one array, in layer order; answers the passes that the array has run. -/
def runStripe (d : Desc) (rq : MReq) (un : Nat) (wino : Bool) (h : WHdr) (ls : List WLayer) (slot : Nat) (idx : Nat)
    (rows : List Rows) (px : List (Nat × Nat)) (pass0 : Nat) : Eng Nat := do
  let (b0, b1, _) := wsAreas (ls.any (fun l => l.kind == 1)) h ls
  let n := ls.length
  let mut pass := pass0
  let buf (i : Nat) (l : WLayer) (r : Rows) : WSrc :=
    let base := slot + (if i % 2 = 0 then 0 else b0)
    ⟨base, l.ow * l.oPix, l.oPix, base + cdiv (Rows.count r * l.ow * l.oPix) 32 * 32, r.1.toNat, r.1.toNat + Rows.count r⟩
  for (i, l) in (List.range n).zip ls do
    let r := nth (0, -1) rows (i + 1)
    let input : WSrc := ⟨h.inA, h.inR, h.inP, h.inS, 0, l.ih⟩
    let src : WSrc := match i, ls[i - 1]? with
      | 0, _ => input
      | _, some p => buf (i - 1) p (nth (0, -1) rows i)
      | _, none => input
    let dst : WSrc := if i + 1 = n then ⟨h.outA, h.outR, h.outP, h.outS, 0, l.oh⟩ else buf i l r
    eMod (fun s => ((s.put (WIN_STATUS_KIND un) l.kind).put (WIN_STATUS_LAYER un) i).put (WIN_STATUS_STRIPE un) idx)
    let pix := if px.isEmpty then pixelsOf l.ow r else px
    if l.onArray then pass ← runConv ⟨rq, d, un, i, l, src, dst⟩ wino (slot + b0 + b1) pix pass
    else runDatapath rq un l src dst pix
  return pass

/-- Intermediate rows that a stripe computes again (R163): those that the stripe before it had computed too. -/
def recomputed (prev cur : List Rows) : Nat :=
  ((prev.zip cur).drop 1).dropLast.foldl (fun n (p, c) => n + Rows.count (max p.1 c.1, min p.2 c.2)) 0

/-- The error log of a window unit (R164). -/
def State.winLog (s : State) (sec : Bool) (un status layer stripe : Nat) : State :=
  if sec then (s.setReg (WIN_ERR_LOG0 un) (BitVec.ofNat 64 status)).put (WIN_ERR_LOG1_TIME un) s.beacon else
  let s := ((s.put (WIN_ERR_LOG0_STATUS un) status).put (WIN_ERR_LOG0_LAYER un) layer).put (WIN_ERR_LOG0_STRIPE un) stripe
  (s.put (WIN_ERR_LOG1_TIME un) s.beacon).emitError un 0x300000 (s.reg (WIN_ERR_LOG0 un)).toNat

/-- The stripes of a group, or the tiles of a one-layer group with STRIPE_ROWS = 0 (R153): rows, and the pixels of a tile. -/
def WHdr.jobs (h : WHdr) (z : WLayer) (wino : Bool) : List (Rows × List (Nat × Nat)) :=
  if h.stripe = 0 then
    let whole := pixelsOf z.ow (0, (z.oh : Int) - 1)
    (if z.kind == 1 && wino then winoGroups z whole else pixTiles whole).map (fun t => ((0, (z.oh : Int) - 1), t))
  else (h.stripes z.oh).map (fun (a, b) => (((a : Int), (b : Int)), []))

/-- The work of WIN_GROUP: stripes or tiles in ascending order, each on one array that runs its part (R153). The first ones go
to these arrays in ascending order; which array is free for a later one is open (log 7). An array that has failed takes no
further one, the others finish (R113). -/
def winWork (pb : List Byte) (d : Desc) : Eng (List PartRes) := do
  let h := whdrOf pb
  let ls := layersOf pb
  let s0 ← eGet
  let as := d.isls
  let here := d.todo
  match (ls.reverse).head? with
  | none => return as.map (fun a => (a, 0, 0))
  | some z =>
    let jobs := h.jobs z (as.any s0.winoEn)
    let mut res : List PartRes := here.map (fun a => (a, 0, 0))
    let mut passes : List (Nat × Nat) := here.map (fun a => (a, 0))
    let mut dealt := 0
    for (i, r, px) in ((List.range jobs.length).zip jobs).drop d.step do
      let free := (res.filter (fun q => q.2.1 == 0)).map (fun q => q.1)
      if free.isEmpty then continue
      let s ← eGet
      let k := if dealt < here.length then dealt else Config.freeNat s.fresh
      eMod (fun s => (s.freshen 1).updDesc d.id (fun x => { x with step := i + 1 }))
      dealt := dealt + 1
      let a := nth 0 free (k % free.length)
      let j := (as.findIdx? (· == a)).getD 0
      let wino := s0.winoEn a
      let rows := stripeRows true ls.reverse r.1 r.2
      let prev := match jobs[i - 1]? with
        | some q => if h.stripe = 0 ∨ i = 0 then [] else stripeRows true ls.reverse q.1.1 q.1.2
        | none => []
      let n := ((passes.find? (fun p => p.1 == a)).map (fun p => p.2)).getD 0
      match ← eTry (do
        if !prev.isEmpty then eMod (fun s => s.bump (WIN_CNT_RECOMP_COUNT a) (recomputed prev rows))
        runStripe d (s0.mreq d a) a wino h ls (h.ws + j * h.wsStride) i rows px n) with
      | .ok m => passes := passes.map (fun p => if p.1 = a then (a, m) else p)
      | .error (c, x) =>
        res := res.map (fun q => if q.1 = a then (a, c, x) else q)
        eMod (fun s => s.winLog (s.secureDesc d) a c (s.get (WIN_STATUS_LAYER a)) (s.get (WIN_STATUS_STRIPE a)))
    if ls.any (fun l => l.onArray) then
      for a in here do
        eScribble (s0.mreq d a) true (accRow a 0) 0x200000
    return res ++ ((d.parts.filter (fun p => p.st == .notStarted && !p.worked)).map (fun p => (p.isl, 0, 0)))

/-- What the engine of 0x40 does (see execWinGroup). -/
def workWinGroup (x : Desc) : Eng (List PartRes) := do
    let s ← eGet
    let pb ← eRead (s.mreq x 36) x.pbAddr (64 * x.pbLen)
    winWork pb x

/-- WIN_GROUP. -/
def execWinGroup (d : Nat) (s : State) : Out := .next (s.runWork d 0x40 workWinGroup)

/-! ### WIN_WINO_PREP (R159) -/

def prepFields : List FieldAt := [(16, 0, 48), (24, 0, 48), (32, 0, 64), (40, 0, 8)]

def State.prepCheck (s : State) (d : Desc) : Verdict :=
  let wf := bitsOf (d.u 40 4) 0 4
  let af := bitsOf (d.u 40 4) 4 4
  let ci := d.u 36 2
  let co := d.u 38 2
  let dst := bitsOf (d.u 24 8) 0 48
  match minOff (reservedAt 16 48 prepFields d.bytes) (firstBad
      [(dst % 64 != 0, 24), (ci == 0, 36), (co == 0, 38), (!winoPair af wf, 40),
       (decide (d.u 32 4 < 9 * ci * (fmtBits wf / 8)), 32),
       (!rowsOk (bitsOf (d.u 16 8) 0 48) (d.u 32 4) co (9 * ci * (fmtBits wf / 8)), 16),
       (!rowsOk dst 0 1 (winoBytes af wf ci co), 24)]) with
  | some o => malformed o
  | none =>
    match s.arraysPresent with
    | [] => .refuse 0x89 15 [(dst, winoBytes af wf ci co)]
    | a :: _ => .go { isls := [a], units := 2, rows := fun as => as.map (fun a => (a, 0, 0)),
                      outs := fun _ => [(dst, winoBytes af wf ci co)] }

/-- Work whose error status is logged before it is reported. -/
def eLogged {α : Type} (log : Nat → Nat → State → State) (x : Eng α) : Eng α := do
  match ← eTry x with
  | .ok a => return a
  | .error (c, y) => do
    eMod (log c y)
    eFail c y

/-- The body of the transformed buffer: the device's own layout (log 11). -/
def prepWork (d : Desc) : Eng (List PartRes) := do
  let s ← eGet
  let un := nth 0 d.isls 0
  let rq := s.mreq d un
  eLogged (fun c _ s => s.winLog (s.secureDesc d) un c 0 0) do
  let wf := bitsOf (d.u 40 4) 0 4
  let af := bitsOf (d.u 40 4) 4 4
  let ci := d.u 36 2
  let co := d.u 38 2
  let e := fmtBits wf / 8
  let kt := cellDepth af wf
  let ci2 := cdiv ci kt * kt
  let co2 := cdiv co 512 * 512
  let mut rows : List (List Byte) := []
  for n in List.range co do
    let r ← eRead rq (bitsOf (d.u 16 8) 0 48 + n * d.u 32 4) (9 * ci * e)
    rows := rows ++ [r]
  let pad (bs : List Byte) : List Byte := bs ++ List.replicate (ci2 * e - bs.length) 0
  let body := (List.range 36).flatMap (fun p => (List.range co2).flatMap (fun n =>
    if p < 9 ∧ n < co then pad (((nth [] rows n).drop (p * ci * e)).take (ci * e)) else List.replicate (ci2 * e) 0))
  let hdr := leBytes 4 (0x5749 + wf * 2 ^ 16 + af * 2 ^ 20) ++ leBytes 4 (ci + co * 2 ^ 16) ++ List.replicate 56 0
  eWrite rq false 0 (bitsOf (d.u 24 8) 0 48) (hdr ++ winoMasked 0 body)
  return [(un, 0, 0)]

/-- WIN_WINO_PREP. -/
def execWinWinoPrep (d : Nat) (s : State) : Out := .next (s.runWork d 0x41 prepWork)

end Sys2Proof.Machine
end

