-- ==== Sys2Proof/Machine/Attention.lean ====
section
/-!
DEFINITION. Attention units (R165 to R198): the page walker with its look-aside buffer, the online softmax over blocks
of 512 tokens, the merge of parts, appending to the paged cache, and the invalidation of translations.
-/

namespace Sys2Proof.Machine

/-! ### The page walker (R180 to R184) -/

def attDefault : Nat → AttSt := fun _ => ⟨[], []⟩

def State.attU (s : State) (un : Nat) : AttSt := mget attDefault s.att un

/-- Replace a unit's buffers; ATT_LAB_STAT follows (R196). -/
def State.setAtt (s : State) (un : Nat) (x : AttSt) : State :=
  let s := { s with att := mset attDefault s.att un x }
  ((s.put (ATT_LAB_STAT_VALID un) x.lab.length).put (ATT_LAB_STAT_ROOT_VALID un) x.roots.length).put
    (ATT_LAB_STAT_LOCKED un) (x.lab.filter (fun e => e.lock)).length

/-- The entry of a list with the given tags. -/
def labFind (l : List LabEnt) (ctx : Nat) (w : Bool) (table idx : Nat) : Option LabEnt :=
  l.find? (fun e => e.ctx == ctx && e.w == w && e.table == table && e.idx == idx)

/-- Drop the least recently used unlocked entry. -/
def labDrop : List LabEnt → List LabEnt
  | [] => []
  | e :: es => if e.lock || es.any (fun x => !x.lock) then e :: labDrop es else es

/-- Make an entry the most recently used of at most `n`. -/
def labUse (n : Nat) (l : List LabEnt) (e : LabEnt) : List LabEnt :=
  let l := e :: l.filter (fun x => !(x.ctx == e.ctx && x.w == e.w && x.table == e.table && x.idx == e.idx))
  if n < l.length then labDrop l else l

/-- Lock the entries that satisfy `f`, and no others (R183). -/
def State.lockLab (s : State) (un : Nat) (f : LabEnt → Bool) : State :=
  s.setAtt un { s.attU un with lab := (s.attU un).lab.map (fun (e : LabEnt) => { e with lock := f e }) }

def pteV (e : Nat) : Bool := bitOf e 0
def pteTbl (e : Nat) : Bool := bitOf e 1
def pteAddr (e : Nat) : Nat := bitsOf e 6 42 * 64

/-- DETAIL of 0x98 and 0x99 (R193). -/
def pageDetail (page head : Nat) (root : Bool) : Nat := page * 64 % 2 ^ 18 + head * 2 ^ 18 + b2n root * 2 ^ 26

/-- A leaf entry satisfies R180 and R181 for the format and dimension of the descriptor. -/
def leafOk (e fmt d32 : Nat) : Bool :=
  !pteTbl e && bitsOf e 2 4 == fmt && bitsOf e 48 3 == d32 && bitsOf e 51 13 == 0

/-- A root entry satisfies R180 and R181. -/
def rootOk (e : Nat) : Bool := pteTbl e && bitsOf e 2 4 == 0 && bitsOf e 48 16 == 0 && pteAddr e % 4096 == 0

/-- A request at the key-value port of an array (R369). -/
def MReq.kv (r : MReq) : MReq := { r with isl := 64 + r.isl }

/-- Read a page-table line, unless it is at hand (R183). The array waits for a line that was not read ahead, for a time that the
spec does not give (log 7). -/
def eLine (rq : MReq) (un a : Nat) (late : Bool) (lines : List (Nat × List Byte)) : Eng (List Byte × List (Nat × List Byte)) := do
  match lines.find? (fun l => l.1 == a) with
  | some l => return (l.2, lines)
  | none =>
    let bs ← eRead rq.kv a 64
    eMod (fun s =>
      let s := s.bump (ATT_CNT_PTE_LINES_COUNT un) 1
      if late then (s.bump (ARR_CNT_LOAD_STALL_COUNT un) (Config.freeNat s.fresh)).freshen 1 else s)
    return (bs, (a, bs) :: lines)

/-- What a translation needs: table base, levels, format, D / 32 − 1, head group. -/
structure Walk where
  table : Nat
  two : Bool
  fmt : Nat
  d32 : Nat
  head : Nat
deriving DecidableEq, Repr

/-- The leaf table that maps a page, through the root cache (R181, R183). -/
def eRoot (rq : MReq) (un : Nat) (k : Walk) (page : Nat) (late : Bool) (lines : List (Nat × List Byte)) :
    Eng (Nat × List (Nat × List Byte)) := do
  if !k.two then return (k.table, lines) else
  let s ← eGet
  let i := page / 512
  match labFind (s.attU un).roots rq.ctx rq.w k.table i with
  | some e =>
    eMod (fun s => s.setAtt un { s.attU un with roots := labUse 4 (s.attU un).roots e })
    return (pteAddr e.pte, lines)
  | none =>
    let (bs, lines) ← eLine rq un (k.table + i / 8 * 64) late lines
    let e := u bs (i % 8 * 8) 8
    if !pteV e then eFail 0x98 (pageDetail page k.head true)
    else if !rootOk e then eFail 0x99 (pageDetail page k.head true)
    else if !operandOk (pteAddr e) then eFail 0x13 32
    else
      eMod (fun s => s.setAtt un { s.attU un with roots := labUse 4 (s.attU un).roots ⟨rq.ctx, rq.w, k.table, i, e, false⟩ })
      return (pteAddr e, lines)

/-- Translate one page (R182, R183): the page address and the lines at hand. An entry that fails a check is not installed. -/
def eTranslate (rq : MReq) (un : Nat) (k : Walk) (page : Nat) (late : Bool) (lines : List (Nat × List Byte)) :
    Eng (Nat × List (Nat × List Byte)) := do
  let s ← eGet
  let labOn := s.flagA (ATT_CFG_LAB_EN un)
  match (if labOn then labFind (s.attU un).lab rq.ctx rq.w k.table page else none) with
  | some e =>
    eMod (fun s => (s.setAtt un { s.attU un with lab := labUse 32 (s.attU un).lab e }).bump (ATT_CNT_LAB_HIT_COUNT un) 1)
    if leafOk e.pte k.fmt k.d32 then return (pteAddr e.pte, lines) else eFail 0x99 (pageDetail page k.head false)
  | none =>
    eMod (fun s => s.bump (ATT_CNT_LAB_MISS_COUNT un) 1)
    let (leaf, lines) ← eRoot rq un k page late lines
    let i := if k.two then page % 512 else page
    let (bs, lines) ← eLine rq un (leaf + i / 8 * 64) late lines
    let e := u bs (i % 8 * 8) 8
    if !pteV e then eFail 0x98 (pageDetail page k.head false)
    else if !leafOk e k.fmt k.d32 then eFail 0x99 (pageDetail page k.head false)
    else if !operandOk (pteAddr e) then eFail 0x13 32
    else
      if labOn then
        eMod (fun s => s.setAtt un { s.attU un with lab := labUse 32 (s.attU un).lab ⟨rq.ctx, rq.w, k.table, page, e, true⟩ })
      return (pteAddr e, lines)

/-- Translate a list of pages with the lines at hand. Without the look-aside buffer every page access reads its own line
(R194). -/
def eTranslateAll (rq : MReq) (un : Nat) (k : Walk) (late : Bool) (pages : List Nat) (lines : List (Nat × List Byte)) :
    Eng (List Nat × List (Nat × List Byte)) := do
  let s ← eGet
  let labOn := s.flagA (ATT_CFG_LAB_EN un)
  let mut lines := if labOn then lines else []
  let mut out : List Nat := []
  for p in pages do
    let (a, ls) ← eTranslate rq un k p late lines
    lines := if labOn then ls else []
    out := out ++ [a]
  return (out, lines)

/-- Read one further line ahead, that of page `page`; what is wrong with it shows when a page of it is needed (R183, R194). -/
def eAheadLine (rq : MReq) (un : Nat) (k : Walk) (page : Nat) (lines : List (Nat × List Byte)) : Eng (List (Nat × List Byte)) := do
  let i := if k.two then page % 512 else page
  match ← eTry (do
    let (leaf, ls) ← eRoot rq un k page false lines
    eLine rq un (leaf + i / 8 * 64) false ls) with
  | .ok (_, ls) => return ls
  | .error _ => return lines

/-! ### Pages (R178, R179) -/

/-- Sizes of the scale planes of a page. -/
def planeScale (fmt d : Nat) : Nat := if fmt = 0xD then 2 * d else if fmt = 1 then 256 else 0

/-- Value of FP32 bits in memory. -/
def u32v (bs : List Byte) (o : Nat) : Val := ofF32 (u bs o 4)

/-- Keys of slots 0 to `n` of a page: values and key scales. -/
def readKeys (rq : MReq) (fmt d page n : Nat) : Eng (List (List Val × Nat)) := do
  let bs ← eRead rq.kv page (n * d)
  let sc ← if fmt = 0xD then eRead rq.kv (page + 64 * d) (n * (d / 32))
    else if fmt = 1 then eRead rq.kv (page + 64 * d) (4 * n) else pure []
  return (List.range n).map (fun t =>
    ((List.range d).map (fun i =>
      let c := u bs (t * d + i) 1
      if fmt = 0xD then mxVal fmt (u sc (t * (d / 32) + i / 32) 1) c else decElt fmt c),
     if fmt = 1 then u sc (4 * t) 4 else 0x3F800000))

/-- Values of slots 0 to `n` of a page, dimension-major, and the value scales of the slots. -/
def readValues (rq : MReq) (fmt d page n : Nat) : Eng (List (List Val) × List Nat) := do
  let base := page + 64 * d + planeScale fmt d
  let sc ← if fmt = 0xD then eRead rq.kv (page + 128 * d + planeScale fmt d) (2 * d) else pure []
  let mut cols : List (List Val) := []
  for i in List.range d do
    let bs ← eRead rq.kv (base + 64 * i) n
    cols := cols ++ [(List.range n).map (fun t =>
      let c := u bs t 1
      if fmt = 0xD then mxVal fmt (u sc (2 * i + t / 32) 1) c else decElt fmt c)]
  let vs ← if fmt = 1 then eRead rq.kv (page + 128 * d + planeScale fmt d) (4 * n) else pure []
  return (cols, (List.range n).map (fun t => if fmt = 1 then u vs (4 * t) 4 else 0x3F800000))

/-! ### The ATT_RUN block (R188) -/

structure Att where
  q : Nat
  qScale : Nat
  out : Nat
  outScale : Nat
  pt : Nat
  qH : Nat
  outH : Nat
  ptH : Nat
  qR : Nat
  outR : Nat
  qpos : Nat
  scale : Nat
  kvBegin : Nat
  kvEnd : Nat
  qLen : Nat
  g : Nat
  d32 : Nat
  heads : Nat
  qFmt : Nat
  kvFmt : Nat
  pFmt : Nat
  mask : Nat
  arrays : Nat
  split : Bool
  outMode : Bool
  two : Bool
  cvt : Nat
  window : Nat
  accBase : Nat
  qS : Nat
  outS : Nat
deriving DecidableEq, Repr

def attOf (pb : List Byte) : Att :=
  let w72 := u pb 72 4
  let w76 := u pb 76 4
  let w80 := u pb 80 4
  ⟨bitsOf (u pb 0 8) 0 48, bitsOf (u pb 8 8) 0 48, bitsOf (u pb 16 8) 0 48, bitsOf (u pb 24 8) 0 48,
   bitsOf (u pb 32 8) 0 48, u pb 40 4, u pb 44 4, u pb 48 4, u pb 52 2, u pb 54 2, u pb 56 4, u pb 60 4,
   bitsOf (u pb 64 4) 0 18, bitsOf (u pb 68 4) 0 18, bitsOf w72 0 10, bitsOf w72 10 7, bitsOf w72 17 3,
   bitsOf w72 20 8 + 1, bitsOf w76 0 4, bitsOf w76 4 4, bitsOf w76 8 4, bitsOf w76 12 2, bitsOf w76 14 4, bitOf w76 18,
   bitOf w76 19, bitOf w76 20, bitsOf w76 24 8, bitsOf w80 0 18, bitsOf w80 18 10, u pb 84 2, u pb 86 2⟩

def attFields : List FieldAt :=
  [(0, 0, 48), (8, 0, 48), (16, 0, 48), (24, 0, 48), (32, 0, 48), (40, 0, 64), (48, 0, 64), (56, 0, 64), (64, 0, 18),
   (68, 0, 18), (72, 0, 28), (76, 0, 21), (76, 24, 8), (80, 0, 28), (84, 0, 32)]

def Att.d (p : Att) : Nat := 32 * (p.d32 + 1)
def Att.mq (p : Att) : Nat := p.g * p.qLen
def Att.nb (p : Att) : Nat := cdiv (p.kvEnd - p.kvBegin) 512

/-- Entries of a page table up to the last one that the descriptor needs (R181). -/
def Att.tabEntries (p : Att) : Nat := if p.two then (p.kvEnd - 1) / 64 / 512 + 1 else (p.kvEnd - 1) / 64 + 1

/-- Accumulator rows on each array (R169). -/
def Att.rows (p : Att) : Nat := if p.split then (p.heads + 1) * p.mq else 2 * p.mq

/-- The combinations of R167. -/
def attCombo (q kv p : Nat) : Bool :=
  let q8 := isFp8 q || q == 0xD
  let k8 := isFp8 kv || kv == 0xD
  (q8 && k8 && (p == 5 || isHalf p)) || (isHalf q && (k8 || kv == 1) && isHalf p) ||
  (q == 1 && kv == 1 && (p == 2 || isHalf p))

/-- Bytes of a record of a partial buffer (R176). -/
def partRec (d : Nat) : Nat := 64 * cdiv (4 * d + 8) 64

/-- An output address that is neither accumulator memory nor a host window (R189). -/
def outOk (a : Nat) : Bool :=
  match spaceOf a with
  | .acc _ | .host => false
  | _ => true

/-- The block check of R165 to R169, R175, R188, R189. -/
def Att.badAt (p : Att) (pb : List Byte) : Option Nat :=
  let qMx := p.qFmt == 0xD
  let oMx := isMx (cvtFmt p.cvt)
  let heads (f : Nat → Bool) : Bool := (List.range p.heads).all f
  let scales (n h : Nat) : Bool := rowsOk (p.qScale + h * p.mq * p.qS) p.qS p.mq n
  minOff (reservedAt 0 128 attFields pb) (firstBad
    [(!heads (fun h => rowsOk (p.q + h * p.qH) p.qR p.mq (eltBytes p.qFmt p.d)) || (qMx && p.q % 32 != 0), 0),
     (if qMx then p.qScale % 32 != 0 || !heads (scales (p.d / 32)) else if p.qFmt = 1 then !heads (scales 4) else p.qScale != 0, 8),
     (!outOk p.out || (oMx && p.out % 32 != 0), 16),
     (if oMx && !p.outMode then p.outScale % 32 != 0 else p.outScale != 0, 24),
     (p.pt % 64 != 0 || !heads (fun h => rowsOk (p.pt + h * p.ptH) 0 1 (8 * p.tabEntries)), 32), (p.outMode && p.outH != 0, 44), (p.outMode && p.outR != 0, 54),
     (p.kvBegin % 64 != 0, 64),
     (decide (p.kvEnd ≤ p.kvBegin) || decide (131072 < p.kvEnd) || (!p.two && decide (65536 < p.kvEnd)), 68),
     (p.qLen == 0 || decide (512 < p.qLen) || decide (512 < p.mq), 72), (p.g == 0 || decide (64 < p.g), 73),
     (!attCombo p.qFmt p.kvFmt p.pFmt, 76), (p.mask == 3, 77), (if p.outMode then p.cvt != 0 else !cvtOk p.cvt, 79),
     (if p.mask = 2 then p.window == 0 || decide (131072 < p.window) else p.window != 0, 80),
     (decide (1024 - p.accBase < p.rows), 82)])

/-- Declared outputs. -/
def Att.outs (p : Att) : List (Nat × Nat) :=
  if p.outMode then [(p.out, 64 + p.heads * p.mq * partRec p.d)]
  else (List.range p.heads).flatMap (fun h => (List.range p.mq).flatMap (fun r =>
    (p.out + h * p.outH + r * p.outR, eltBytes (cvtFmt p.cvt) p.d) ::
      (if isMx (cvtFmt p.cvt) then [(p.outScale + (h * p.mq + r) * p.outS, p.d / 32)] else [])))

/-- The check of ATT_RUN before dispatch. -/
def State.attCheck (s : State) (pb : List Byte) : Verdict :=
  let p := attOf pb
  match p.badAt pb with
  | some o => pbInvalid o
  | none =>
    let named := maskBits 4 p.arrays
    let gone := named.filter s.isRetired
    if !gone.isEmpty then .refuse 0x89 ((gone.map (fun a => 2 ^ a)).foldl (· + ·) 0) p.outs
    else .go { isls := named, auto := if p.arrays = 0 then 1 else 0, units := 5,
               rows := fun as => as.map (fun a => (a, p.accBase, p.rows)), outs := fun _ => p.outs }

/-! ### The softmax datapath (R166, R170, R171) -/

def f32Inf (neg : Bool) : Nat := f32 (.inf neg)

/-- Masked by R166: row position, token. -/
def Att.masked (p : Att) (r t : Nat) : Bool :=
  let qp := p.qpos + r / p.g
  match p.mask with
  | 0 => false
  | 1 => decide (qp < t)
  | _ => decide (qp < t) || decide (t + p.window ≤ qp)

/-- exp of the attention unit. -/
def aexp (b : Nat) : Nat := expF32 3 b

/-- reciprocal of the attention unit. -/
def arcp (b : Nat) : Nat := rcpF32 4 b

/-- FP32 bits with every NaN canonical (R77). -/
def canonF32 (b : Nat) : Nat := if (ofF32 b).isNan then fF32.nanCode else b

/-- Largest FP32 number of a list; with a NaN among them the spec names no result, which is then free (log 7): a function of the
operands, so that it repeats (R95), and canonical where it is a NaN. -/
def fmaxList (xs : List Nat) : Nat :=
  if xs.any (fun x => (ofF32 x).isNan) then canonF32 (Config.freeMax xs).toNat
  else xs.foldl (fun a b => if vlt (ofF32 a) (ofF32 b) then b else a) (f32Inf true)

/-- The running state of a row. -/
structure ARow where
  m : Nat
  l : Nat
  o : List Nat
deriving DecidableEq, Repr

/-- Probabilities of one pass converted to P_FMT (R171): their values, and the factor f. -/
def convP (fmt : Nat) (ps : List Nat) : List Val × Nat :=
  if fmt = 2 then
    let mx := fmaxList (0 :: ps)
    match ofF32 mx with
    | .fin _ m e =>
      if m = 0 then (ps.map (fun _ => vzero), 0)
      else
        (ps.map (fun p => match ofF32 p with
          | .fin _ n f => .ofInt (roundInt 0 (.fin false (255 * n * 2 ^ 400 / m * 2 + b2n (255 * n * 2 ^ 400 % m != 0)) (f - e - 401)))
          | _ => vzero),
         f32 (.fin false (m * 2 ^ 100 / 255 * 2 + b2n (m * 2 ^ 100 % 255 != 0)) (e - 101)))
    | _ => (ps.map (fun _ => vzero), mx)
  else (ps.map (fun p => decElt fmt (encFmt fmt 0 true (ofF32 p))), 0x3F800000)

/-- A row after the softmax of a block: m, l and the factor of the output so far, whether m rose, and the converted
probabilities of each P·V pass with the factor f. -/
structure SoftRow where
  m : Nat
  l : Nat
  alpha : Nat
  rose : Bool
  passes : List (List Val × Nat)
deriving DecidableEq, Repr

/-- One row through the softmax of one block (R170, R171), for P·V passes of depth `kt`. -/
def softRow (p : Att) (kt : Nat) (first : Bool) (scores vs : List Nat) (row : ARow) : SoftRow :=
  let mNew := fmaxList (row.m :: scores)
  let dead := mNew == f32Inf true
  let alpha := if dead then 0x3F800000 else aexp (f32Sub row.m mNew)
  let ps := scores.map (fun x => if dead then 0 else aexp (f32Sub x mNew))
  let pq := if p.kvFmt = 1 then (ps.zip vs).map (fun (x, v) => f32Mul x v) else ps
  ⟨mNew, f32Add (f32Mul alpha row.l) (ps.foldl f32Add 0), alpha, !first && vlt (ofF32 row.m) (ofF32 mNew),
   (List.range (cdiv pq.length kt)).map (fun i => convP p.pFmt ((pq.drop (i * kt)).take kt))⟩

/-- One P·V pass of a row: the partial outputs, and the output row with them added (R170, R171) and its saturations. -/
def Att.pvPass (p : Att) (key k0 : Nat) (us : List Val) (f : Nat) (cols : List (List (Nat × Val))) (o : List Nat) :
    List Val × List Nat × Nat :=
  let fp := p.pFmt != 2
  let (ps, ys) := partials fp p.pFmt p.kvFmt key k0 us cols
  if fp then (ys, (ps.zip o).map (fun (x, a) => accFp p.pFmt p.kvFmt key a [x]), 0)
  else
    let rs := ps.map (fun x => sat32 (intSum x))
    (ys, (rs.zip o).map (fun (r, a) => f32Add a (f32Mul (f32 (.ofInt r.1)) f)), (rs.filter (fun r => r.2)).length)

/-! ### The work of ATT_RUN -/

/-- Query row `r` of head group `h`: values and its scale. -/
def Att.query (p : Att) (rq : MReq) (h r : Nat) : Eng (List Val × Nat) := do
  let vs ← readRow rq p.qFmt (p.q + h * p.qH + r * p.qR) (p.qScale + (h * p.mq + r) * p.qS) 0 p.d
  let sc ← if p.qFmt = 1 then eRead rq (p.qScale + (h * p.mq + r) * p.qS) 4 else pure []
  return (vs, if p.qFmt = 1 then u sc 0 4 else 0x3F800000)

/-- Passes of depth `kt` over `n` positions: index, first position, positions. -/
def spansOf (kt n : Nat) : List (Nat × Nat × Nat) :=
  (List.range (cdiv n kt)).map (fun i => (i, i * kt, min kt (n - i * kt)))

/-- The score pairing is a floating-point one. -/
def Att.fpScores (p : Att) : Bool := !pairInt p.kvFmt p.qFmt

/-- Accumulator word of a score from the products of its passes (R166, R168), with its saturations. -/
def Att.dot (p : Att) (key : Nat) (passes : List (List (Nat × Val))) : Nat × Nat :=
  if p.fpScores then (accFp p.qFmt p.kvFmt key 0x80000000 passes, 0)
  else let r := accInt 0 passes; (unsgn 32 r.1, r.2)

/-- The score of R166 from the accumulator. -/
def Att.score (p : Att) (acc qs ks : Nat) : Nat :=
  let a := if pairInt p.kvFmt p.qFmt then f32 (.ofInt (sgn 32 acc)) else acc
  f32Mul (f32Mul (f32Mul a qs) ks) p.scale

/-- First score row on an array (R169). -/
def Att.scoreBase (p : Att) : Nat := p.accBase + (if p.split then p.heads else 1) * p.mq

/-- First output row of a head group on an array. -/
def Att.outBase (p : Att) (h : Nat) : Nat := p.accBase + (if p.split then h else 0) * p.mq

/-- First token and tokens of a block. -/
def Att.block (p : Att) (b : Nat) : Nat × Nat := (p.kvBegin + 512 * b, min 512 (p.kvEnd - (p.kvBegin + 512 * b)))

/-- Pages of a block. -/
def Att.blockPages (p : Att) (b : Nat) : List Nat :=
  (List.range (cdiv (p.block b).2 64)).map (fun i => (p.block b).1 / 64 + i)

/-- A block in which every score is masked (R168). -/
def Att.skips (p : Att) (b : Nat) : Bool :=
  (List.range p.mq).all (fun r => (List.range (p.block b).2).all (fun i => p.masked r ((p.block b).1 + i)))

def Att.walk (p : Att) (h : Nat) : Walk := ⟨p.pt + h * p.ptH, p.two, p.kvFmt, p.d32, h⟩

/-- Translations of a block made ahead of it, or the status that they met; with the page-table lines at hand. -/
structure Ahead where
  pages : Except (Nat × Nat) (List Nat)
  lines : List (Nat × List Byte)

/-- Translate the pages of block `b` of head group `h`, and read PREFETCH further lines of its table below page `stop`
(R183, R194). -/
def Att.ahead (p : Att) (rq : MReq) (a : Nat) (late : Bool) (h b stop : Nat) (lines : List (Nat × List Byte)) : Eng Ahead := do
  let s ← eGet
  let k := p.walk h
  match ← eTry (eTranslateAll rq a k late (p.blockPages b) lines) with
  | .error e => return ⟨.error e, lines⟩
  | .ok (as, ls) =>
    let n := if s.flagA (ATT_CFG_LAB_EN a) then s.getA (ATT_CFG_PREFETCH a) else 0
    let line0 := ((p.block b).1 + (p.block b).2 - 1) / 64 / 8
    let mut ls := ls
    for j in List.range n do
      let pg := (line0 + 1 + j) * 8
      if pg < stop then
        ls ← eAheadLine rq a k pg ls
    return ⟨.ok as, ls.take (n + 5)⟩

/-- The score passes of a block (R166, R168, R173): per row the accumulator words; answers the passes run. -/
def Att.scorePasses (p : Att) (d : Desc) (a key pass : Nat) (qs keys : List (List Val × Nat)) : Eng (List (List Nat) × Nat) := do
  let fp := p.fpScores
  let spans := spansOf (cellDepth p.qFmt p.kvFmt) p.d
  let mut prods : List (List (List (List (Nat × Val)))) := []
  for (i, k0, kn) in spans do
    let cols := keys.map (fun kk => (List.range kn).map (fun j => (k0 + j, nth vzero kk.1 (k0 + j))))
    let tile := mkTile fp k0 kn cols
    eMod (fun s => s.passLoad a (loadTime p.kvFmt false keys.length kn) p.mq (i == 0))
    let mut rows : List (List (List (Nat × Val))) := []
    for (r, q) in (List.range qs.length).zip qs do
      let xs := (q.1.drop k0).take kn
      let (ps, ys) := partials fp p.qFmt p.kvFmt key k0 xs cols
      let s ← eGet
      eMod (fun s => s.bump (ARR_CNT_ROWS_COUNT a) 1)
      eRowCheck d a r (pass + i) (tile.check fp (s.getA (ARR_CHK_CFG_TOL_EXP a)) xs ys)
      rows := rows ++ [ps]
    eMod (fun s => s.bump (ARR_CNT_PASSES_COUNT a) 1)
    prods := prods ++ [rows]
  let accs := (List.range qs.length).map (fun r => (List.range keys.length).map (fun c =>
    p.dot key (prods.map (fun rows => nth [] (nth [] rows r) c))))
  eMod (fun s => s.bump (ARR_CNT_SAT_COUNT a) ((accs.flatMap (fun r => r.map (fun (x : Nat × Nat) => x.2))).foldl (· + ·) 0))
  return (accs.map (fun r => r.map (fun (x : Nat × Nat) => x.1)), spans.length)

/-- The P·V passes of a block (R168, R170, R173): `vals` holds the values per dimension; answers the outputs and the passes
run. -/
def Att.pvPasses (p : Att) (d : Desc) (a key pass n : Nat) (soft : List SoftRow) (first : Bool) (outs : List (List Nat))
    (vals : List (List Val)) : Eng (List (List Nat) × Nat) := do
  let fp := p.pFmt != 2
  let spans := spansOf (cellDepth p.pFmt p.kvFmt) n
  let mut outs : List (List Nat) := (soft.zip outs).map (fun (sr, o) =>
    o.map (fun x => if first then (if fp then 0x80000000 else 0) else f32Mul sr.alpha x))
  for (i, k0, kn) in spans do
    let cols := vals.map (fun v => (List.range kn).map (fun j => (k0 + j, nth vzero v (k0 + j))))
    let tile := mkTile fp k0 kn cols
    eMod (fun s => s.passLoad a (loadTime p.kvFmt false p.d kn) p.mq (i == 0))
    let mut next : List (List Nat) := []
    for (r, sr, o) in (List.range soft.length).zip (soft.zip outs) do
      let (us, f) := nth ([], 0) sr.passes i
      let (ys, o2, sat) := p.pvPass key k0 us f cols o
      let s ← eGet
      eMod (fun s => (s.bump (ARR_CNT_ROWS_COUNT a) 1).bump (ARR_CNT_SAT_COUNT a) sat)
      eRowCheck d a r (pass + i) (tile.check fp (s.getA (ARR_CHK_CFG_TOL_EXP a)) us ys)
      next := next ++ [o2]
    eMod (fun s => s.bump (ARR_CNT_PASSES_COUNT a) 1)
    outs := next
  return (outs, spans.length)

/-- One block of head group `h` on array `a`, its pages translated; answers the rows and the passes run. -/
def Att.runBlock (p : Att) (d : Desc) (rq : MReq) (a key h b pass : Nat) (first : Bool) (qs : List (List Val × Nat))
    (pages : List Nat) (lines : List (Nat × List Byte)) (rows : List ARow) : Eng (List ARow × Nat) := do
  let (t0, n) := p.block b
  let left (i : Nat) : Nat := min 64 (n - 64 * i)
  eMod (fun s => s.put (ATT_STATUS_PHASE a) 1)
  let mut keys : List (List Val × Nat) := []
  for (i, pg) in (List.range pages.length).zip pages do
    let ks ← readKeys rq p.kvFmt p.d pg (left i)
    keys := keys ++ ks
  let (accs, n1) ← p.scorePasses d a key pass qs keys
  for (r, acc) in (List.range p.mq).zip accs do
    eWrite rq true 0 (accRow a (p.scoreBase + r)) ((acc ++ List.replicate (512 - n) 0).flatMap (leBytes 4))
  eMod (fun s => (s.put (ATT_STATUS_PHASE a) 2).bump (ATT_CNT_ROWS_COUNT a) p.mq)
  let scores := ((List.range p.mq).zip (qs.zip accs)).map (fun (r, q, acc) =>
    ((List.range n).zip (acc.zip keys)).map (fun (i, x, kk) =>
      if p.masked r (t0 + i) then f32Inf true else p.score x q.2 kk.2))
  let (at2, _) ← eTranslateAll rq a (p.walk h) true (p.blockPages b) lines
  eMod (fun s => s.put (ATT_STATUS_PHASE a) 3)
  let mut cols : List (List Val) := List.replicate p.d []
  let mut vs : List Nat := []
  for (i, pg) in (List.range at2.length).zip at2 do
    let (c, v) ← readValues rq p.kvFmt p.d pg (left i)
    cols := (cols.zip c).map (fun (x, y) => x ++ y)
    vs := vs ++ v
  let soft := (scores.zip rows).map (fun (sc, row) => softRow p (cellDepth p.pFmt p.kvFmt) first sc vs row)
  let (outs, n2) ← p.pvPasses d a key (pass + n1) n soft first (rows.map (fun r => r.o)) cols
  eMod (fun s => (s.bump (ATT_CNT_RESCALE_COUNT a) (soft.filter (fun x => x.rose)).length).bump (ATT_CNT_BLOCKS_COUNT a) 1)
  return ((soft.zip outs).map (fun (sr, o) => ⟨sr.m, sr.l, o⟩), n1 + n2)

/-- Blocks `[b0, b1)` of head group `h` on array `a`: the walker translates the next block's pages while a block computes, and
the entries of both are locked (R183). Answers the rows, the passes run so far, and what has been made ahead for the next head
group `h2`. -/
def Att.part (p : Att) (d : Desc) (rq : MReq) (a key h b0 b1 pass0 : Nat) (h2 : Option Nat) (pre : Option Ahead) :
    Eng (List ARow × Nat × Option Ahead) := do
  let mut qs : List (List Val × Nat) := []
  for r in List.range p.mq do
    let q ← p.query rq h r
    qs := qs ++ [q]
  let mut rows : List ARow := List.replicate p.mq ⟨f32Inf true, 0, List.replicate p.d 0⟩
  let mut first := true
  let mut pass := pass0
  let mut pre := pre
  let stop := (p.block (b1 - 1)).1 / 64 + cdiv (p.block (b1 - 1)).2 64
  let work := (List.range (b1 - b0)).map (fun i => b0 + i) |>.filter (fun b => !p.skips b)
  for b in (List.range (b1 - b0)).map (b0 + ·) do
    eMod (fun s => (s.put (ATT_STATUS_HEAD a) h).put (ATT_STATUS_BLOCK a) (b - b0))
    if p.skips b then eMod (fun s => s.bump (ATT_CNT_SKIPPED_COUNT a) 1)
    else
      let cur ← match pre with
        | some x => pure x
        | none => p.ahead rq a true h b stop []
      match cur.pages with
      | .error (c, x) => eFail c x
      | .ok pages =>
        let s ← eGet
        let next := match work.find? (fun x => decide (b < x)) with
          | some x => some (h, x)
          | none => h2.bind (fun g => work.head?.map (fun x => (g, x)))
        let after ← match next with
          | some (g, x) => if s.flagA (ATT_CFG_LAB_EN a) then (do
              let y ← p.ahead rq a false g x stop cur.lines
              return some y) else pure none
          | none => pure none
        eMod (fun s => s.lockLab a (fun e => e.ctx == rq.ctx && e.w == rq.w &&
          ((e.table == (p.walk h).table && (p.blockPages b).contains e.idx) ||
           (match next with
            | some (g, x) => e.table == (p.walk g).table && (p.blockPages x).contains e.idx
            | none => false))))
        let (rs, n) ← p.runBlock d rq a key h b pass first qs pages cur.lines rows
        rows := rs
        first := false
        pass := pass + n
        pre := after
  for (r, row) in (List.range p.mq).zip rows do
    eWrite rq true 0 (accRow a (p.outBase h + r))
      ((row.o ++ List.replicate (510 - p.d) 0 ++ [row.m, row.l]).flatMap (leBytes 4))
  return (rows, pass, pre)

/-- The merge of R177 for one row: m, l and o before normalisation. -/
def mergeRows (d : Nat) (ps : List ARow) : ARow :=
  let m := fmaxList (ps.map (·.m))
  if m = f32Inf true then ⟨m, 0, List.replicate d 0⟩
  else
    let ws := ps.map (fun p => aexp (f32Sub p.m m))
    let sum (xs : List Nat) : Nat :=
      match xs with
      | [] => 0
      | x :: rest => rest.foldl f32Add x
    ⟨m, sum ((ws.zip ps).map (fun (w, p) => f32Mul w p.l)),
     (List.range d).map (fun i => sum ((ws.zip ps).map (fun (w, p) => f32Mul w (nth 0 p.o i))))⟩

/-- Normalised outputs of a row; a row with l = 0 is zero (R172). -/
def ARow.outs (r : ARow) : List Nat :=
  match ofF32 r.l with
  | .fin _ 0 _ => r.o.map (fun _ => 0)
  | _ => if r.m = f32Inf true then r.o.map (fun _ => 0) else let k := arcp r.l; r.o.map (fun x => f32Mul x k)

/-- A row without weight: counted in ATT_CNT_EMPTY_ROW. -/
def ARow.isEmpty (r : ARow) : Bool :=
  match ofF32 r.l with
  | .fin _ 0 _ => true
  | _ => false

/-- Write a row of FP32 results through CVT, counting NaN blocks against array `arr` (R85). -/
def writeVals (rq : MReq) (arr cvt a sa : Nat) (xs : List Nat) : Eng Unit :=
  let fmt := cvtFmt cvt
  let vals := xs.map ofF32
  let qs := (blocks32 vals.length vals).map (mxQuant fmt (cvtRnd cvt))
  writeCodes rq arr fmt a sa (if isMx fmt then (qs.flatMap (·.2), qs.map (·.1))
    else (vals.map (encFmt fmt (cvtRnd cvt) (cvtSat cvt)), []))

/-- Bytes of a record of a partial buffer (R176). -/
def recBytes (d : Nat) (r : ARow) : List Byte :=
  let b := (r.o ++ [r.m, r.l]).flatMap (leBytes 4)
  b ++ List.replicate (partRec d - b.length) 0

/-- Deliver row `r` of head group `h`: to the output planes or to the partial buffer. -/
def Att.deliver (p : Att) (rq : MReq) (a h r : Nat) (row : ARow) : Eng Unit := do
  if p.outMode then eWrite rq false 0 (p.out + 64 + (h * p.mq + r) * partRec p.d) (recBytes p.d row)
  else
    if row.isEmpty then eMod (fun s => s.bump (ATT_CNT_EMPTY_ROW_COUNT a) 1)
    writeVals rq a p.cvt (p.out + h * p.outH + r * p.outR) (p.outScale + (h * p.mq + r) * p.outS) row.outs

/-- Header of a partial buffer. -/
def Att.header (p : Att) (t : Nat) : List Byte :=
  leBytes 4 0x4150 ++ leBytes 4 (p.mq + (p.heads - 1) * 2 ^ 10 + p.d32 * 2 ^ 18) ++ leBytes 8 t ++ List.replicate 48 0

/-- The error log of an attention unit (R198), with the first token of the block or page at hand; a secure descriptor leaves STATUS and TIME (R457). -/
def State.attLog (s : State) (sec : Bool) (un status dt token : Nat) : State :=
  let tok := if status = 0x98 ∨ status = 0x99 then dt % 2 ^ 18 else token
  let hd := if status = 0x98 ∨ status = 0x99 then dt / 2 ^ 18 % 256 else s.get (ATT_STATUS_HEAD un)
  let v := if sec then status else status + hd * 256 + tok * 2 ^ 16
  let s := (s.setReg (ATT_ERR_LOG0 un) (BitVec.ofNat 64 v)).put (ATT_ERR_LOG1_TIME un) s.beacon
  if sec then s else s.emitError un 0x400000 v

/-- Read an output row back from accumulator memory (R177). -/
def readARow (rq : MReq) (d a r : Nat) : Eng ARow := do
  let bs ← eRead rq (accRow a r) 2048
  return ⟨u bs 2040 4, u bs 2044 4, (List.range d).map (fun i => u bs (4 * i) 4)⟩

/-- The share of array number `i` of `c` (R175): head groups dealt round-robin, or contiguous blocks of every head group. -/
def Att.share (p : Att) (c i : Nat) : List Nat × Nat × Nat :=
  let per := cdiv p.nb c
  ((List.range p.heads).filter (fun h => p.split || h % c == i), if p.split then min p.nb (i * per) else 0,
   if p.split then min p.nb ((i + 1) * per) else p.nb)

/-- One array's share. -/
def Att.runShare (p : Att) (d : Desc) (rq : MReq) (a key c i : Nat) : Eng Unit := do
  let (hs, b0, b1) := p.share c i
  if b1 ≤ b0 then return
  let mut pass := 0
  let mut pre : Option Ahead := none
  for (j, h) in (List.range hs.length).zip hs do
    let (rows, n, nx) ← p.part d rq a key h b0 b1 pass (hs[j + 1]?) pre
    pass := n
    pre := nx
    if !p.split then
      for (r, row) in (List.range p.mq).zip rows do
        p.deliver rq a h r row

/-- The merge of the arrays' parts by the lowest one (R175, R177). -/
def Att.merge (p : Att) (as : List Nat) (rq : MReq) (lead : Nat) : Eng Unit := do
  let c := max 1 as.length
  let worked := (as.zip (List.range c)).filter (fun (_, i) => decide ((p.share c i).2.1 < (p.share c i).2.2))
  eMod (fun s => s.put (ATT_STATUS_PHASE lead) 4)
  for h in List.range p.heads do
    eMod (fun s => s.put (ATT_STATUS_HEAD lead) h)
    for r in List.range p.mq do
      let mut ps : List ARow := []
      for (a, _) in worked do
        let x ← readARow rq p.d a (p.outBase h + r)
        ps := ps ++ [x]
      p.deliver rq lead h r (mergeRows p.d ps)

/-- The work of the arrays that run their parts. With SPLIT 1 the lowest array does its share when every array has its part,
and then merges; with OUT_MODE 1 the array that takes its part last completes the buffer. -/
def attWork (p : Att) (d : Desc) : Eng (List PartRes) := do
  let s ← eGet
  let as := d.isls
  let c := max 1 as.length
  let key := if p.split then c else 0
  let lead := if p.split then nth 0 as 0 else nth 0 d.todo 0
  let mut rs : List PartRes := []
  for (i, a) in ((List.range as.length).zip as).filter (fun x => d.todo.contains x.2 && (d.lastShare || !p.split || x.2 != lead)) do
    let rq := s.mreq d a
    eMod (fun s => s.put (ARR_STATUS_MODE a) (cellMode p.qFmt p.kvFmt))
    match ← eTry (p.runShare d rq a key c i) with
    | .ok _ => rs := rs ++ [(a, 0, 0)]
    | .error (c', x) =>
      eMod (fun s => s.attLog (s.secureDesc d) a c' x (p.kvBegin + 512 * ((p.share c i).2.1 + s.get (ATT_STATUS_BLOCK a))))
      rs := rs ++ [(a, c', x)]
  if !d.lastShare || rs.any (fun r => r.2.1 != 0) || d.parts.any (fun q => q.status != 0) then return rs else
  let rq := s.mreq d lead
  match ← eTry (do
    if p.split then p.merge as rq lead
    if p.outMode then
      let s ← eGet
      eWrite rq false 0 p.out (p.header s.beacon)) with
  | .ok _ => return rs
  | .error (c', x) =>
    eMod (fun s => s.attLog (s.secureDesc d) lead c' x p.kvBegin)
    return rs.map (fun q => if q.1 = lead then (lead, c', x) else q)

/-- What the engine of 0x60 does (see execAttRun). -/
def workAttRun (x : Desc) : Eng (List PartRes) := do
    let s ← eGet
    let pb ← eRead (s.mreq x 36) x.pbAddr (64 * x.pbLen)
    attWork (attOf pb) x

/-- ATT_RUN. -/
def execAttRun (d : Nat) (s : State) : Out := .next (s.runWork d 0x60 workAttRun)

/-! ### ATT_MERGE (R177, R190) -/

structure Merge where
  out : Nat
  outScale : Nat
  outH : Nat
  outR : Nat
  outS : Nat
  n : Nat
  cvt : Nat
  parts : List Nat
deriving DecidableEq, Repr

def mergeOf (pb : List Byte) : Merge :=
  let w := u pb 24 4
  ⟨bitsOf (u pb 0 8) 0 48, bitsOf (u pb 8 8) 0 48, u pb 16 4, u pb 20 2, u pb 22 2, bitsOf w 0 4 + 1, bitsOf w 4 8,
   (List.range 16).map (fun i => bitsOf (u pb (32 + 8 * i) 8) 0 48)⟩

def mergeFields : List FieldAt :=
  [(0, 0, 48), (8, 0, 48), (16, 0, 64), (24, 0, 12)] ++ (List.range 16).map (fun i => (32 + 8 * i, 0, 48))

def Merge.badAt (p : Merge) (pb : List Byte) : Option Nat :=
  let oMx := isMx (cvtFmt p.cvt)
  minOff (reservedAt 0 192 mergeFields pb) (firstBad
    ([(oMx && p.out % 32 != 0, 0), (if oMx then p.outScale % 32 != 0 else p.outScale != 0, 8),
      (!cvtOk p.cvt, 24)] ++
     (List.range 16).map (fun i =>
       (if i < p.n then nth 0 p.parts i % 64 != 0 else nth 0 p.parts i != 0, 32 + 8 * i))))

/-- The plan of a command of the attention unit of the lowest-numbered island present. -/
def State.lowUnit (s : State) (outs : List (Nat × Nat)) : Verdict :=
  match s.arraysPresent with
  | [] => .refuse 0x89 15 outs
  | a :: _ => .go { isls := [a], units := 4, outs := fun _ => outs }

/-- The check of ATT_MERGE. -/
def State.mergeCheck (s : State) (pb : List Byte) : Verdict :=
  match (mergeOf pb).badAt pb with
  | some o => pbInvalid o
  | none => s.lowUnit []

/-- Outputs of a merge whose buffers have the given shape. -/
def Merge.outs (p : Merge) (heads rows d : Nat) : List (Nat × Nat) :=
  (List.range heads).flatMap (fun h => (List.range rows).flatMap (fun r =>
    (p.out + h * p.outH + r * p.outR, eltBytes (cvtFmt p.cvt) d) ::
      (if isMx (cvtFmt p.cvt) then [(p.outScale + (h * rows + r) * p.outS, d / 32)] else [])))

/-- The merge: headers first, then every row in ascending part order. -/
def mergeWork (p : Merge) (d : Desc) : Eng (List PartRes) := do
  let s ← eGet
  let un := nth 0 d.isls 0
  let rq := s.mreq d un
  let r ← eTry (do
    eMod (fun s => s.put (ATT_STATUS_PHASE un) 4)
    let mut hdrs : List (List Byte) := []
    for a in p.parts.take p.n do
      let h ← eRead rq a 64
      hdrs := hdrs ++ [h]
    let h0 := u (nth [] hdrs 0) 4 4
    let rows := bitsOf h0 0 10
    let heads := bitsOf h0 10 8 + 1
    let dim := 32 * (bitsOf h0 18 3 + 1)
    if u (nth [] hdrs 0) 0 2 = 0x4150 then
      eMod (fun s => s.updDesc d.id (fun x => { x with outs := p.outs heads rows dim }))
    match (List.range p.n).find? (fun i =>
        u (nth [] hdrs i) 0 2 != 0x4150 || bitsOf (u (nth [] hdrs i) 4 4) 0 21 != bitsOf h0 0 21) with
    | some i => eFail 0x9A i
    | none =>
      for h in List.range heads do
        for r in List.range rows do
          let mut ps : List ARow := []
          for a in p.parts.take p.n do
            let bs ← eRead rq (a + 64 + (h * rows + r) * partRec dim) (4 * dim + 8)
            ps := ps ++ [⟨u bs (4 * dim) 4, u bs (4 * dim + 4) 4, (List.range dim).map (fun i => u bs (4 * i) 4)⟩]
          let row := mergeRows dim ps
          if row.isEmpty then eMod (fun s => s.bump (ATT_CNT_EMPTY_ROW_COUNT un) 1)
          writeVals rq un p.cvt (p.out + h * p.outH + r * p.outR) (p.outScale + (h * rows + r) * p.outS) row.outs)
  match r with
  | .ok _ => return [(un, 0, 0)]
  | .error (c, x) =>
    eMod (fun s => s.attLog (s.secureDesc d) un c x 0)
    return [(un, c, x)]

/-- What the engine of 0x61 does (see execAttMerge). -/
def workAttMerge (x : Desc) : Eng (List PartRes) := do
    let s ← eGet
    let pb ← eRead (s.mreq x 36) x.pbAddr (64 * x.pbLen)
    mergeWork (mergeOf pb) x

/-- ATT_MERGE. -/
def execAttMerge (d : Nat) (s : State) : Out := .next (s.runWork d 0x61 workAttMerge)

/-! ### ATT_KV_APPEND (R185, R191) -/

structure Append where
  k : Nat
  v : Nat
  pt : Nat
  pos : Nat
  rs : Nat
  hs : Nat
  ptH : Nat
  n : Nat
  heads : Nat
  d32 : Nat
  fmt : Nat
  src : Nat
  two : Bool
deriving DecidableEq, Repr

def appendOf (d : Desc) : Append :=
  let w := d.u 56 4
  ⟨bitsOf (d.u 16 8) 0 48, bitsOf (d.u 24 8) 0 48, bitsOf (d.u 32 8) 0 48, d.u 40 4, d.u 44 2, d.u 48 4, d.u 52 4,
   bitsOf w 0 10, bitsOf w 10 8 + 1, bitsOf w 18 3, bitsOf w 21 4, bitsOf w 25 4, bitOf w 29⟩

def appendFields : List FieldAt :=
  [(16, 0, 48), (24, 0, 48), (32, 0, 48), (40, 0, 48), (48, 0, 64), (56, 0, 30)]

def Append.d (p : Append) : Nat := 32 * (p.d32 + 1)

/-- The check of ATT_KV_APPEND: it declares no outputs until its pages are translated (R185). -/
def State.appendCheck (s : State) (d : Desc) : Verdict :=
  let p := appendOf d
  match minOff (reservedAt 16 48 appendFields d.bytes) (firstBad
      [(p.pt % 64 != 0 || !operandOk p.pt, 32),
       (decide (131072 < p.pos + p.n) || (!p.two && decide (65536 < p.pos + p.n)), 40),
       (p.n == 0 || decide (512 < p.n), 56), (!([1, 5, 6, 0xD].contains p.fmt), 58), (!([7, 8, 9].contains p.src), 59)]) with
  | some o => malformed o
  | none => s.lowUnit []

/-- A write of page codewords, all of them with CMP 0b011 (R179). -/
def eWritePage (rq : MReq) (a : Nat) (bs : List Byte) : Eng Unit := do
  eWrite rq.kv false 3 a bs
  eMod (fun s => (cwAddrs a bs.length).foldl (fun s x =>
    let t := s.tag (x / 32)
    if tagCmp t = 7 then s else s.setTag (x / 32) (mkTag (tagPart t) (tagW t) (tagCrit t) 3)) s)

/-- INT8 conversion of a row (R185): FP32 scale and element codes; with a NaN in the row the scale is free (log 7). -/
def int8Row (xs : List Val) : Nat × List Nat :=
  let amax := xs.foldl vmaxAbs vzero
  let sc := if xs.any Val.isNan then canonF32 (Config.freeMax (xs.map f32)).toNat
    else match amax with
      | .fin _ 0 _ => 0x3F800000
      | x => f32 (vquot x (.fin false 127 0))
  (sc, xs.map (fun x => unsgn 8 (toIntFmt 1 0 (vquot x (ofF32 sc)))))

/-- Page slots of the tokens of one page: first slot, number, index of the first among the new rows. -/
def Append.span (p : Append) (page : Nat) : Nat × Nat × Nat :=
  let a := max p.pos (64 * page)
  let b := min (p.pos + p.n) (64 * page + 64)
  (a % 64, b - a, a - p.pos)

/-- Ranges that an append writes in a page: for poison (R27). -/
def Append.pageOuts (p : Append) (page addr : Nat) : List (Nat × Nat) :=
  let (t, n, _) := p.span page
  let d := p.d
  let ks := planeScale p.fmt d
  let vb := addr + 64 * d + ks
  [(addr + t * d, n * d)] ++ (List.range d).map (fun i => (vb + 64 * i + t, n)) ++
    (if p.fmt = 0xD then
      [(addr + 64 * d + t * (d / 32), n * (d / 32))] ++
      (List.range d).map (fun i => (vb + 64 * d + 2 * i + t / 32, (t + n - 1) / 32 - t / 32 + 1))
    else if p.fmt = 1 then [(addr + 64 * d + 4 * t, 4 * n), (vb + 64 * d + 4 * t, 4 * n)] else [])

/-- Write the new rows of one page: `ks` and `vs` are the source rows of its slots. -/
def Append.writePage (p : Append) (rq : MReq) (un page addr : Nat) (ks vs : List (List Val)) : Eng Unit := do
  let (t, n, _) := p.span page
  let d := p.d
  let vb := addr + 64 * d + planeScale p.fmt d
  let b8 (c : Nat) : Byte := BitVec.ofNat 8 c
  let col (rows : List (List Nat)) (i : Nat) : List Byte := rows.map (fun r => b8 (nth 0 r i))
  if p.fmt = 1 then
    let kq := ks.map int8Row
    let vq := vs.map int8Row
    eWritePage rq (addr + t * d) (kq.flatMap (fun q => q.2.map b8))
    eWritePage rq (addr + 64 * d + 4 * t) (kq.flatMap (fun q => leBytes 4 q.1))
    for i in List.range d do
      eWritePage rq (vb + 64 * i + t) (col (vq.map (·.2)) i)
    eWritePage rq (vb + 64 * d + 4 * t) (vq.flatMap (fun q => leBytes 4 q.1))
  else if p.fmt = 0xD then
    let kq := ks.map (fun x => (blocks32 x.length x).map (mxQuant 0xD 0))
    eMod (fun s => s.bump (ARR_CNT_NANBLK_COUNT un) (kq.flatMap (fun q => q.filter (fun x => x.1 == 255))).length)
    eWritePage rq (addr + t * d) (kq.flatMap (fun q => (q.flatMap (·.2)).map b8))
    eWritePage rq (addr + 64 * d + t * (d / 32)) (kq.flatMap (fun q => q.map (fun x => b8 x.1)))
    for i in List.range d do
      for j in (List.range 2).filter (fun j => decide (32 * j < t + n) && decide (t < 32 * j + 32)) do
        let old ← eRead rq.kv (vb + 64 * i + 32 * j) 32
        let sc ← eRead rq.kv (vb + 64 * d + 2 * i + j) 1
        let xs := (List.range 32).map (fun x =>
          let slot := 32 * j + x
          if t ≤ slot ∧ slot < t + n then nth vzero (nth [] vs (slot - t)) i
          else mxVal 0xD (u sc 0 1) (u old x 1))
        let q := mxQuant 0xD 0 xs
        if q.1 = 255 then eMod (fun s => s.bump (ARR_CNT_NANBLK_COUNT un) 1)
        let kept := (List.range 32).any (fun x => decide (t + n ≤ 32 * j + x) && u old x 1 != 0)
        if u sc 0 1 < q.1 && (decide (32 * j < t) || kept) then eMod (fun s => s.bump (ATT_CNT_REQUANT_COUNT un) 1)
        eWritePage rq (vb + 64 * i + 32 * j) (q.2.map b8)
        eWritePage rq (vb + 64 * d + 2 * i + j) [b8 q.1]
  else
    let enc := fun (x : List Val) => x.map (encFmt p.fmt 0 true)
    eWritePage rq (addr + t * d) (ks.flatMap (fun x => (enc x).map b8))
    for i in List.range d do
      eWritePage rq (vb + 64 * i + t) (col (vs.map enc) i)

/-- The append: every page translated before anything is written. -/
def appendWork (d : Desc) : Eng (List PartRes) := do
  let p := appendOf d
  let s ← eGet
  let un := nth 0 d.isls 0
  let rq := s.mreq d un
  let pages := (List.range ((p.pos + p.n - 1) / 64 - p.pos / 64 + 1)).map (p.pos / 64 + ·)
  let r ← eTry (do
    eMod (fun s => s.put (ATT_STATUS_PHASE un) 5)
    let mut at1 : List (List Nat) := []
    for h in List.range p.heads do
      let (as, _) ← eTranslateAll rq un ⟨p.pt + h * p.ptH, p.two, p.fmt, p.d32, h⟩ false pages []
      eMod (fun s => s.lockLab un (fun _ => false))
      at1 := at1 ++ [as]
    let outs := at1.flatMap (fun as => (pages.zip as).flatMap (fun (pg, a) => p.pageOuts pg a))
    eMod (fun s => s.updDesc d.id (fun x => { x with outs := outs }))
    for (h, as) in (List.range p.heads).zip at1 do
      eMod (fun s => s.put (ATT_STATUS_HEAD un) h)
      for (pg, a) in pages.zip as do
        let (_, n, i0) := p.span pg
        let mut ks : List (List Val) := []
        let mut vs : List (List Val) := []
        for i in List.range n do
          let o := h * p.hs + (i0 + i) * p.rs
          let kr ← readRow rq p.src (p.k + o) 0 0 p.d
          let vr ← readRow rq p.src (p.v + o) 0 0 p.d
          ks := ks ++ [kr]
          vs := vs ++ [vr]
        p.writePage rq un pg a ks vs)
  match r with
  | .ok _ => return [(un, 0, 0)]
  | .error (c, x) =>
    eMod (fun s => s.attLog (s.secureDesc d) un c x p.pos)
    return [(un, c, x)]

/-- ATT_KV_APPEND. -/
def execAttKvAppend (d : Nat) (s : State) : Out := .next (s.runWork d 0x62 appendWork)

/-! ### ATT_TLB_INVAL (R192) and the drop at a release (R184) -/

/-- Keep only the translations of a unit that satisfy `f`. -/
def State.keepLab (s : State) (un : Nat) (f : LabEnt → Bool) : State :=
  s.setAtt un ⟨(s.attU un).lab.filter f, (s.attU un).roots.filter f⟩

/-- The check of ATT_TLB_INVAL: each unit applies it at its own block boundary, whatever else it
runs, so that its part (bit 3) holds no other one off. -/
def State.tlbCheck (s : State) (d : Desc) : Verdict :=
  match minOff (reservedAt 16 48 [(16, 0, 2), (16, 8, 8), (24, 0, 48), (32, 0, 32)] d.bytes)
      (firstBad [(bitsOf (d.u 16 1) 0 2 == 3, 16)]) with
  | some o => malformed o
  | none => .go { isls := s.arraysPresent, units := 8 }

/-- Global context named in an invalidation: a VF's local number is based like the header's (R387). -/
def State.tlbCtx (s : State) (d : Desc) : Nat :=
  let f := s.qFn d.q
  if f = 0 then d.u 17 1 else s.get (VIRT_FN_W1_CTXBASE f) + d.u 17 1

/-- What the engine of 0x63 does (see execAttTlbInval). -/
def workAttTlbInval (x : Desc) : Eng (List PartRes) := do
    let scope := bitsOf (x.u 16 1) 0 2
    let a := bitsOf (x.u 24 8) 0 48
    let n := x.u 32 4
    for un in x.todo do
      eMod (fun s => s.keepLab un (fun e =>
        if scope = 0 then false
        else if scope = 1 then e.ctx != s.tlbCtx x
        else !(decide (a ≤ e.table) && decide (e.table < a + n))))
    return x.todo.map (fun i => (i, 0, 0))

/-- ATT_TLB_INVAL. -/
def execAttTlbInval (d : Nat) (s : State) : Out := .next (s.runWork d 0x63 workAttTlbInval)

end Sys2Proof.Machine
end

