-- ==== Sys2Proof/Machine/Boot.lean ====
section
/-!
DEFINITION. Lantern's keys (R464), the layout and verification of image slots and of the directory (R478 to R482), deltas
(R483), the measurements (R465).
-/

namespace Sys2Proof.Machine

/-- Bytes of an ASCII text. -/
def ascii (x : String) : List Byte := x.toList.map (fun c => BitVec.ofNat 8 c.toNat)

def bytesAt (bs : List Byte) (o n : Nat) : List Byte := (bs.drop o).take n
def numAt (bs : List Byte) (o n : Nat) : Nat := leNat (bytesAt bs o n)

/-- A byte string cut or filled with zeros to a length. -/
def fitTo (n : Nat) (bs : List Byte) : List Byte := (bs ++ List.replicate n 0).take n

/-! ### Keys (R464) -/

/-- Is the UDS erased: programmed to all ones (R462)? -/
def State.erased (s : State) : Bool := s.lnt.uds == List.replicate 32 0xFF#8

def State.storeKey (s : State) : List Byte := Config.shake256 (s.lnt.uds ++ ascii "KZ-ST") 32
def State.idSeed (s : State) : List Byte := Config.shake256 (s.lnt.uds ++ ascii "KZ-ID") 32
def State.aliasSeed (s : State) : List Byte :=
  Config.shake256 (s.idSeed ++ Config.sha3 (Config.romDigest ++ s.lnt.mLantern ++ s.lnt.mKeeper)) 32
def State.deviceId (s : State) : List Byte := Config.sha3 (Config.mldsaPub s.idSeed)

/-- A draw of the random generator. -/
def State.draw (s : State) (n : Nat) : State × List Byte :=
  ({ s with lnt := { s.lnt with draws := s.lnt.draws + 1 } }, (Config.random s.lnt.draws n).take n)

/-! ### Images (R481) -/

structure Section where
  type' : Nat
  off : Nat
  len : Nat
deriving DecidableEq, Repr

def imgSection (img : List Byte) (i : Nat) : Section :=
  ⟨numAt img (64 + 16 * i) 1, numAt img (68 + 16 * i) 4, numAt img (72 + 16 * i) 4⟩

def imgSections (img : List Byte) : List Section := [imgSection img 0, imgSection img 1, imgSection img 2]

/-- Bytes of the section of a type. -/
def sectionOf (img : List Byte) (ty : Nat) : List Byte :=
  match (imgSections img).find? (fun x => x.type' == ty) with
  | some x => bytesAt img x.off x.len
  | none => []

def sectionMax (ty : Nat) : Nat := if ty = 1 then 786432 else if ty = 2 then 393216 else 1179648

/-- The rules of R481 on a plaintext image. -/
def imgRules (img : List Byte) : Bool :=
  let n := numAt img 4 4
  let ss := imgSections img
  numAt img 0 2 == 0x4B49 && numAt img 2 1 == 1 && n == img.length && decide (8192 ≤ n) && decide (n ≤ 6287360) &&
    [1, 2, 3].all (fun ty => (ss.filter (fun x => x.type' == ty)).length == 1) &&
    ss.all (fun x => x.off % 4096 == 0 && decide (4096 ≤ x.off) && decide (x.len ≤ sectionMax x.type') &&
      decide (x.off + x.len + 4627 ≤ n)) &&
    (List.range 3).all (fun i => (List.range i).all (fun j =>
      let a := imgSection img i
      let b := imgSection img j
      decide (a.off + a.len ≤ b.off) || decide (b.off + b.len ≤ a.off)))

def imgMajor (img : List Byte) : Nat := numAt img 8 1
def imgMinor (img : List Byte) : Nat := numAt img 9 1
def imgPatch (img : List Byte) : Nat := numAt img 10 2
def imgSvn (img : List Byte) : Nat := numAt img 12 1
def imgRaise (img : List Byte) : Bool := bitOf (numAt img 13 1) 0
def imgHifMajor (img : List Byte) : Nat := numAt img 16 2
def imgHifMinor (img : List Byte) : Nat := numAt img 18 2
def imgLayout (img : List Byte) : Nat := numAt img 20 1
def imgHandover (img : List Byte) : Nat := numAt img 21 1
def imgHandoverMin (img : List Byte) : Nat := numAt img 22 1
def imgVendor (img : List Byte) : List Byte := bytesAt img 512 2592

/-- The signature over all but the last 4,627 bytes. -/
def signedOk (pk bs : List Byte) : Bool :=
  let n := bs.length - 4627
  Config.mldsaVerify pk (Config.sha3 (bs.take n)) (bs.drop n)

/-! ### Slots (R480, R482) -/

def slot0 : ImgSlot := ⟨[], []⟩
def State.slot (s : State) (i : Nat) : ImgSlot := nth slot0 s.flash.slots i
def State.setSlot (s : State) (i : Nat) (x : ImgSlot) : State :=
  { s with flash := { s.flash with slots := putNth s.flash.slots i x } }

/-- A header in force: MAGIC and CRC. -/
def hdrOk (h : List Byte) : Bool :=
  h.length == 4096 && numAt h 0 2 == 0x534C && numAt h 4092 4 == crc32c (h.take 4092)

/-- The plaintext of a slot under the store key. -/
def State.slotPlain (s : State) (x : ImgSlot) : Option (List Byte) :=
  Config.gcmOpen s.storeKey (bytesAt x.hdr 16 12) (x.hdr.take 16) (x.body.take (numAt x.hdr 4 4) ++ bytesAt x.hdr 32 16)

/-- The step of R482 that fails, or 0, and the plaintext. -/
def State.verifySlot (s : State) (x : ImgSlot) : Nat × List Byte :=
  if !hdrOk x.hdr then (1, [])
  else match s.slotPlain x with
    | none => (2, [])
    | some img =>
      if Config.sha3 img ≠ bytesAt x.hdr 64 64 then (3, img)
      else if !imgRules img then (4, img)
      else if Config.sha3 (imgVendor img) ≠ Config.vendorDigest then (5, img)
      else if !signedOk (imgVendor img) img then (6, img)
      else if imgSvn img < s.lnt.svnFloor then (7, img)
      else (0, img)

/-- A header for a written image (R480). -/
def makeHdr (iv tag img : List Byte) : List Byte :=
  let h := leBytes 2 0x534C ++ leBytes 2 0 ++ leBytes 4 img.length ++ List.replicate 8 0 ++ iv ++ List.replicate 4 0 ++ tag ++
    List.replicate 16 0 ++ Config.sha3 img
  let h := (h ++ List.replicate 4092 0).take 4092
  h ++ leBytes 4 (crc32c h)

/-- The additional data of a slot of `n` bytes. -/
def hdrAad (n : Nat) : List Byte := leBytes 2 0x534C ++ leBytes 2 0 ++ leBytes 4 n ++ List.replicate 8 0

/-- BOOT_SLOT of a slot: its state and the versions of its image. -/
def State.showSlot (s : State) (i st : Nat) (img : List Byte) : State :=
  let s := s.setReg (BOOT_SLOT i) 0
  let s := s.put (BOOT_SLOT_STATE i) st
  if st ≠ 1 then s else
  ((((s.put (BOOT_SLOT_SVN i) (imgSvn img)).put (BOOT_SLOT_MAJOR i) (imgMajor img)).put (BOOT_SLOT_MINOR i) (imgMinor img)).put
    (BOOT_SLOT_PATCH i) (imgPatch img)).put (BOOT_SLOT_HIF_MAJOR i) (imgHifMajor img)

/-- BOOT_SLOT after a verification. -/
def State.refreshSlot (s : State) (i : Nat) : State :=
  if !hdrOk (s.slot i).hdr then s.showSlot i 0 []
  else
    let (k, img) := s.verifySlot (s.slot i)
    s.showSlot i (if k = 0 then 1 else 2) img

/-! ### The directory (R479) -/

/-- The copy in force: the valid one with the higher DSEQ. -/
def State.dirCopy (s : State) : Option Nat :=
  match nth none s.flash.dirs 0, nth none s.flash.dirs 1 with
  | some (a, _), some (b, _) => some (if a < b then 1 else 0)
  | some _, none => some 0
  | none, some _ => some 1
  | none, none => none

def State.dirSlot (s : State) : Nat :=
  match s.dirCopy with
  | some c => match nth none s.flash.dirs c with
    | some (_, x) => x % 2
    | none => 0
  | none => 0

/-- Change the directory: the other copy takes DSEQ + 1. -/
def State.writeDir (s : State) (slot : Nat) : State :=
  let c := (s.dirCopy).getD 1
  let q := match nth none s.flash.dirs c with
    | some (q, _) => q + 1
    | none => 1
  { s with flash := { s.flash with dirs := putNth s.flash.dirs (1 - c) (some (q % 2 ^ 32, slot)) } }.put BOOT_STAT_DIR_SLOT slot

/-! ### Deltas (R483) -/

/-- The operations of a delta: the target they write, or none for a format error. `fuel` bounds their number. -/
def deltaOps (base : List Byte) : Nat → List Byte → List Byte → Option (List Byte)
  | 0, _, _ => none
  | n + 1, ops, out =>
    match numAt ops 0 1, ops with
    | _, [] => none
    | 0, _ => if ops.length = 1 then some out else none
    | 1, _ =>
      let a := numAt ops 1 4
      let len := numAt ops 5 4
      if ops.length < 9 ∨ base.length < a + len then none else deltaOps base n (ops.drop 9) (out ++ bytesAt base a len)
    | 2, _ =>
      let len := numAt ops 1 4
      if ops.length < 5 + len then none else deltaOps base n (ops.drop (5 + len)) (out ++ bytesAt ops 5 len)
    | _, _ => none

/-- A whole delta against a base image: the target, or the DETAIL of DELTA_INVALID. -/
def deltaApply (base pk d : List Byte) : Except Nat (List Byte) :=
  if d.length < 144 + 4627 ∨ numAt d 0 2 ≠ 0x444C ∨ numAt d 2 1 ≠ 1 ∨ numAt d 4 4 ≠ d.length then .error 1
  else match deltaOps base d.length (bytesAt d 144 (d.length - 4627 - 144)) [] with
    | none => .error 1
    | some img =>
      if !signedOk pk d then .error 2
      else if img.length ≠ numAt d 8 4 then .error 1
      else if Config.sha3 img ≠ bytesAt d 80 64 then .error 3
      else .ok img

end Sys2Proof.Machine
end

