-- ==== Sys2Proof/Machine/Dma.lean ====
section
/-!
DEFINITION. DMA descriptors (R222 to R226): strided copies and fills, DRAM claims (R210) and weight decompression (R222 to R224),
checked, and what one row of each does.
-/

namespace Sys2Proof.Machine

/-- The device writes every codeword of a range with zero data and one tag (R202, R210). -/
def State.wipe (s : State) (a len tag : Nat) : State :=
  { s with mem := mclear a (a + len) s.mem
           tags := mfill tagDefault (a / 32) (len / 32) (BitVec.ofNat 12 tag) s.tags
           ecc := mclear (a / 32) ((a + len) / 32) s.ecc }

/-! ### Rows -/

/-- Start addresses of strided rows. -/
def rowAddrs (a stride rows : Nat) : List Nat := (List.range rows).map (fun r => a + r * stride)

/-- The slice island of an address, when it lies in scratchpad. -/
def sliceIsl (a : Nat) : Option Nat := if a < spdEnd then some (8 + (spdBank a).1) else none

/-- The preferred island of a row: that of its source in scratchpad, else that of its destination there (R349). -/
def rowPref (src : Option Nat) (dst : Nat) : Option Nat :=
  match src.bind sliceIsl with
  | some i => some i
  | none => sliceIsl dst

/-- Preferred islands of the first rows. -/
def rowPrefs (rows : List (Option Nat × Nat)) : List (Option Nat) := (rows.take 16).map (fun p => rowPref p.1 p.2)

/-- The plan of a DMA descriptor. -/
def dmaPlan (outs : List (Nat × Nat)) (rows : List (Option Nat × Nat)) : Verdict :=
  .go { isls := [], auto := 3, outs := fun _ => outs, near := rowPrefs rows }

def rowBytesBad (n : Nat) : Bool := n == 0 || n % 32 != 0

/-! ### DMA_COPY (R226) -/

structure Copy where
  src : Nat
  dst : Nat
  n : Nat
  rows : Nat
  ss : Nat
  ds : Nat
deriving DecidableEq, Repr

def copyOf (d : Desc) : Copy :=
  ⟨bitsOf (d.u 16 8) 0 48, bitsOf (d.u 24 8) 0 48, d.u 32 4, d.u 36 2, d.u 40 4, d.u 44 4⟩

/-- The check of DMA_COPY (R225). -/
def Desc.copyCheck (d : Desc) : Verdict :=
  let p := copyOf d
  match minOff (reservedAt 16 48 [(16, 0, 48), (24, 0, 48), (32, 0, 32), (36, 0, 16), (40, 0, 64)] d.bytes)
      (firstBad [(p.src % 32 != 0, 16), (p.dst % 32 != 0, 24), (rowBytesBad p.n, 32), (p.rows == 0, 36),
        (p.ss % 32 != 0, 40), (p.ds % 32 != 0, 44)]) with
  | some o => malformed o
  | none => dmaPlan ((rowAddrs p.dst p.ds p.rows).map (fun a => (a, p.n)))
      ((List.range (min 16 p.rows)).map (fun r => (some (p.src + r * p.ss), p.dst + r * p.ds)))

/-- Does a row of `n` bytes at `a` overlap a destination row? The first destination row that ends above `a` decides. -/
def Copy.hits (p : Copy) (a : Nat) : Bool :=
  let j := if p.ds = 0 ∨ a < p.dst + p.n then 0 else min (p.rows - 1) ((a - p.dst - p.n) / p.ds + 1)
  let b := p.dst + j * p.ds
  decide (b < a + p.n) && decide (a < b + p.n)

/-- Source and destination ranges overlap. -/
def Copy.overlap (p : Copy) : Bool := (rowAddrs p.src p.ss p.rows).any p.hits

/-- CMP of the codewords of a source range that was read: the stored tags, those that came with a peer's response, zero
for host memory (R561). -/
def State.cmpsOf (s : State) (r : MReq) (a len : Nat) : List Nat :=
  match spaceOf a with
  | .host | .hole => List.replicate (len / 32) 0
  | .peer dev =>
    (peerChunks a len).flatMap (fun (b, n) =>
      match s.peerData.find? (fun p => p.desc == r.desc.getD 0 && p.dev == dev && p.addr == b % 0x10000000000 &&
        p.data.length == n) with
      | some p => p.cmps
      | none => List.replicate (n / 32) 0)
  | _ => (cwAddrs a len).map (fun x => tagCmp (s.tag (x / 32)))

/-- Runs of equal values: value and length. -/
def runsOf : List Nat → List (Nat × Nat)
  | [] => []
  | c :: cs =>
    match runsOf cs with
    | (e, n) :: rest => if c = e then (e, n + 1) :: rest else (c, 1) :: (e, n) :: rest
    | [] => [(c, 1)]

/-- A write of whole codewords, each with its own CMP; a refused write writes nothing. -/
def eWriteCmps (rq : MReq) (a : Nat) (bs : List Byte) (cmps : List Nat) : Eng Unit := do
  let s ← eGet
  if (s.canWrite rq a bs.length).isSome then eWrite rq false 0 a bs
  else
    let mut x := a
    let mut rest := bs
    for (c, n) in runsOf cmps do
      eWrite rq false c x (rest.take (32 * n))
      x := x + 32 * n
      rest := rest.drop (32 * n)

/-! ### DMA_FILL (R225) -/

/-- The check of DMA_FILL. -/
def Desc.fillCheck (d : Desc) : Verdict :=
  let dst := bitsOf (d.u 16 8) 0 48
  match minOff (reservedAt 16 48 [(16, 0, 48), (24, 0, 32), (32, 0, 32), (36, 0, 16), (40, 0, 32)] d.bytes)
      (firstBad [(dst % 32 != 0, 16), (rowBytesBad (d.u 32 4), 32), (d.u 36 2 == 0, 36), (d.u 40 4 % 32 != 0, 40)]) with
  | some o => malformed o
  | none => dmaPlan ((rowAddrs dst (d.u 40 4) (d.u 36 2)).map (fun a => (a, d.u 32 4)))
      ((rowAddrs dst (d.u 40 4) (min 16 (d.u 36 2))).map (fun a => (none, a)))

/-! ### DMA_CLAIM (R210) -/

/-- The check of DMA_CLAIM. A claim has no declared outputs. -/
def Desc.claimCheck (d : Desc) : Verdict :=
  let a := bitsOf (d.u 16 8) 0 48
  let n := d.u 24 4
  match minOff (reservedAt 16 48 [(16, 0, 48), (24, 0, 32)] d.bytes)
      (firstBad [(a % 4096 != 0, 16), (n == 0 || decide (0x4000000 < n), 24)]) with
  | some o => malformed o
  | none => dmaPlan [] [(none, a)]

/-- The first address of a DRAM range that the claim check refuses (R210). -/
def State.claimRefused (s : State) (r : MReq) (a pages : Nat) : Option Nat :=
  let page := (List.range pages).find? (fun i => !s.regionOk r true (a + 4096 * i))
  let sec := if r.w then none else
    s.tags.find? (fun e => decide (a / 32 ≤ e.1) && decide (e.1 < (a + 4096 * pages) / 32) && tagW e.2.toNat == 1)
  minOff (page.map (fun i => a + 4096 * i)) (sec.map (fun e => 32 * e.1))

/-- The tag that a claim gives the page at `a`: PART, W and CRIT of the entry that covers it, CMP 0. -/
def State.claimTag (s : State) (a : Nat) : Nat :=
  match s.rgnOf a with
  | some i => mkTag (s.get (MEM_RGN_W0_PART i)) (s.get (MEM_RGN_W0_W i)) (s.get (MEM_RGN_W0_CRIT i)) 0
  | none => 0

/-- Claim pages one after another. -/
def eClaimPages (r : MReq) (a : Nat) : Nat → Eng Unit
  | 0 => return ()
  | n + 1 => do
    let s ← eGet
    let (s, ok) := s.charge r true a 4096
    eMod (fun _ => if ok then (s.wipe a 4096 (s.claimTag a)).countDdr true a 4096 else s)
    if !ok then throw .wait
    eClaimPages r (a + 4096) n

/-! ### DMA_WLOAD (R222 to R224) -/

/-- The check of DMA_WLOAD. -/
def Desc.wloadCheck (d : Desc) : Verdict :=
  let dst := bitsOf (d.u 24 8) 0 48
  match minOff (reservedAt 16 48 [(16, 0, 48), (24, 0, 48), (32, 0, 32)] d.bytes)
      (firstBad [(bitsOf (d.u 16 8) 0 48 % 64 != 0, 16), (dst % 32 != 0, 24)]) with
  | some o => malformed o
  | none => dmaPlan [(dst, d.u 32 4)] [(none, dst)]

/-- Canonical codes (R223): symbol, length and code, in order of length and then symbol. -/
def canonCodes (lens : List Nat) : List (Nat × Nat × Nat) :=
  let step (acc : List (Nat × Nat × Nat) × Nat) (l : Nat) : List (Nat × Nat × Nat) × Nat :=
    ((List.range lens.length).zip lens).foldl (fun (acc : List (Nat × Nat × Nat) × Nat) (q : Nat × Nat) =>
      if q.2 = l then (acc.1 ++ [(q.1, l, acc.2)], acc.2 + 1) else acc) (acc.1, acc.2 * 2)
  ((List.range 15).foldl (fun acc i => step acc (i + 1)) ([], 0)).1

/-- Kraft sum of the present symbols, in units of 2^-15. -/
def kraft (lens : List Nat) : Nat := lens.foldl (fun n l => if l = 0 then n else n + 2 ^ (15 - l)) 0

/-- A stream being decoded: its address, block number, end of the block (none for the last), codeword bytes read. -/
structure WBlock where
  base : Nat
  j : Nat
  off : Nat
  stop : Option Nat

/-- The requester of a decompression engine: that of the channel which holds address `a` (R224, R369). -/
def State.decReq (s : State) (r : MReq) (a : Nat) : MReq := { r with isl := 64 * ((s.ddrMap (a - dramBase)).1 + 1) + r.isl }

/-- Bytes of the block up to `n`, read a burst at a time where a whole burst is known to belong to it, else by codewords;
running past the next block's start is DECOMP_LENGTH. -/
def WBlock.need (b : WBlock) (rq : MReq) (buf : List Byte) : Nat → Nat → Eng (List Byte)
  | 0, _ => return buf
  | k + 1, n => do
    if n ≤ buf.length then return buf
    match b.stop with
    | some e => if e ≤ b.off + buf.length then eFail 0x81 b.j
    | none => pure ()
    let a := b.base + b.off + buf.length
    let more : Bool := match b.stop with
      | some e => decide (b.off + buf.length + 64 ≤ e)
      | none => decide (buf.length + 32 < n)
    let bs ← eRead rq a (if a % 64 = 0 ∧ more then 64 else 32)
    b.need rq (buf ++ bs) k n

/-- Decode one symbol at bit `pos`: the symbol, the next bit and the bytes read so far. -/
def WBlock.symbol (b : WBlock) (rq : MReq) (codes : List (Nat × Nat × Nat)) (len code : Nat) :
    Nat → Nat → List Byte → Eng (Nat × Nat × List Byte)
  | 0, _, _ => eFail 0x80 b.j
  | k + 1, pos, buf => do
    let buf ← b.need rq buf 2 (pos / 8 + 1)
    let bit := bitsOf (u buf (pos / 8) 1) (pos % 8) 1
    let c := 2 * code + bit
    match codes.find? (fun q => q.2.1 == len + 1 && q.2.2 == c) with
    | some q => return (q.1, pos + 1, buf)
    | none => b.symbol rq codes (len + 1) c k (pos + 1) buf

/-- The output bytes of a block. -/
def WBlock.decode (b : WBlock) (rq : MReq) (mode : Nat) (codes : List (Nat × Nat × Nat)) (n : Nat) : Eng (List Byte) := do
  let mut pos := 0
  let mut buf : List Byte := []
  let mut syms : List Nat := []
  for _ in List.range (if mode = 1 then 2 * n else n) do
    let (s, p, bf) ← b.symbol rq codes 0 0 15 pos buf
    pos := p
    buf := bf
    syms := syms ++ [s]
  let out := syms
  return (List.range n).map (fun i =>
    if mode = 1 then BitVec.ofNat 8 (nth 0 out (2 * i) + 16 * nth 0 out (2 * i + 1)) else BitVec.ofNat 8 (nth 0 out i))

/-- The addresses stay in the memories that the row names (R225). -/
def eIn (ok : Space) (a : Nat) : Eng Unit := if spaceOf a = ok then pure () else eFail 0x20 a

/-- The whole load. A length that differs from the stream's is reported against the header. -/
def wloadWork (rq : MReq) (src dst len : Nat) : Eng Unit := do
  eIn .dram src
  let s ← eGet
  let dq (a : Nat) : MReq := s.decReq rq a
  let h ← eRead (dq src) src 64
  let mode := bitsOf (u h 0 4) 16 2
  if u h 0 2 ≠ 0x5744 ∨ mode = 0 ∨ mode = 3 then eFail 0x80 0xFFFFFFFF
  let lb ← eRead (dq src) (src + 16) (if mode = 1 then 8 else 128)
  let lens := (List.range (if mode = 1 then 16 else 256)).map (fun i => bitsOf (u lb (i / 2) 1) (4 * (i % 2)) 4)
  if 2 ^ 15 < kraft lens then eFail 0x80 0xFFFFFFFF
  let out := u h 4 4
  if len ≠ out then eFail 0x81 0xFFFFFFFF
  let codes := canonCodes lens
  let hlen := if mode = 1 then 64 else 192
  let nb := cdiv out 4096
  let first := hlen + cdiv (4 * nb) 32 * 32
  let mut low := first
  for j in List.range nb do
    let e ← eRead (dq src) (src + hlen + 4 * j) (if j + 1 < nb then 8 else 4)
    let off := 32 * bitsOf (u e 0 4) 0 28
    if off < low then eFail 0x80 j
    low := off
    let b : WBlock := ⟨src, j, off, if j + 1 < nb then some (32 * bitsOf (u e 4 4) 0 28) else none⟩
    let n := min 4096 (out - 4096 * j)
    let bs ← if bitOf (u e 0 4) 31 then
        (do let q ← b.need (dq (src + off)) [] 129 n
            return q.take n)
      else b.decode (dq (src + off)) mode codes n
    eIn .spd (dst + 4096 * j)
    eWrite rq false 0 (dst + 4096 * j) bs
    eMod (fun s => s.bump (DDR_CNT_DECOMP_OUT_COUNT (s.ddrMap (src + off - dramBase)).1) n)

end Sys2Proof.Machine
end

