-- ==== Sys2Proof/Machine/Blocks.lean ====
section
/-!
DEFINITION. Decoding of ETC2, EAC and ASTC blocks (R301), as the Khronos Data Format Specification 1.3 defines them: from
general knowledge of that standard (log 14).
-/

namespace Sys2Proof.Machine

/-! ### ETC2 and EAC -/

/-- A big-endian 64-bit block. -/
def be64 (bs : List Byte) : Nat := (bs.take 8).foldl (fun n b => n * 256 + b.toNat) 0

def clamp255 (x : Int) : Nat := (max 0 (min 255 x)).toNat

/-- Widen a channel of 4, 5, 6 or 7 bits to 8 by repeating its high bits. -/
def widen8 (w v : Nat) : Nat := v * 2 ^ (8 - w) + v / 2 ^ (2 * w - 8)

def etcMods : List (Nat × Nat) := [(2, 8), (5, 17), (9, 29), (13, 42), (18, 60), (24, 80), (33, 106), (47, 183)]
def etcDist : List Nat := [3, 6, 11, 16, 23, 32, 41, 64]

/-- Add to the three channels of a colour. -/
def shiftRgb (c : List Nat) (d : Int) : List Nat := c.map (fun (x : Nat) => clamp255 ((x : Int) + d))

/-- Index bits of texel (x, y) of a block. -/
def etcIndex (w x y : Nat) : Nat := bitsOf w (4 * x + y) 1 + 2 * bitsOf w (16 + 4 * x + y) 1

/-- A subblock's colour with the modifier of the texel's index. -/
def etcPaint (w x y : Nat) (base : List Nat) (table : Nat) : List Nat :=
  let (a, b) := nth (0, 0) etcMods table
  let i := etcIndex w x y
  let m : Int := ((if i % 2 = 0 then a else b : Nat) : Int)
  shiftRgb base (if i < 2 then m else -m)

/-- The T mode: two colours, the second with a distance. -/
def etcT (w x y : Nat) : List Nat :=
  let e (v : Nat) : Nat := widen8 4 v
  let c1 := [e (bitsOf w 59 2 * 4 + bitsOf w 56 2), e (bitsOf w 52 4), e (bitsOf w 48 4)]
  let c2 := [e (bitsOf w 44 4), e (bitsOf w 40 4), e (bitsOf w 36 4)]
  let d : Int := ((nth 0 etcDist (bitsOf w 34 2 * 2 + bitsOf w 32 1) : Nat) : Int)
  match etcIndex w x y with
  | 0 => c1
  | 1 => shiftRgb c2 d
  | 2 => c2
  | _ => shiftRgb c2 (-d)

/-- The H mode: two colours, each with a distance. -/
def etcH (w x y : Nat) : List Nat :=
  let r1 := bitsOf w 59 4
  let g1 := bitsOf w 56 3 * 2 + bitsOf w 52 1
  let b1 := bitsOf w 51 1 * 8 + bitsOf w 47 3
  let r2 := bitsOf w 43 4
  let g2 := bitsOf w 39 4
  let b2 := bitsOf w 35 4
  let ord := b2n (decide (r2 * 256 + g2 * 16 + b2 ≤ r1 * 256 + g1 * 16 + b1))
  let d : Int := ((nth 0 etcDist (bitsOf w 34 1 * 4 + bitsOf w 32 1 * 2 + ord) : Nat) : Int)
  let i := etcIndex w x y
  shiftRgb ((if i < 2 then [r1, g1, b1] else [r2, g2, b2]).map (widen8 4)) (if i % 2 = 0 then d else -d)

/-- The planar mode. -/
def etcPlanar (w x y : Nat) : List Nat :=
  let go (o h v : Nat) : Nat :=
    let t : Int := (x : Int) * ((h : Int) - (o : Int)) + (y : Int) * ((v : Int) - (o : Int)) + 4 * (o : Int) + 2
    clamp255 (t / 4)
  [go (widen8 6 (bitsOf w 57 6)) (widen8 6 (bitsOf w 34 5 * 2 + bitsOf w 32 1)) (widen8 6 (bitsOf w 13 6)),
   go (widen8 7 (bitsOf w 56 1 * 64 + bitsOf w 49 6)) (widen8 7 (bitsOf w 25 7)) (widen8 7 (bitsOf w 6 7)),
   go (widen8 6 (bitsOf w 48 1 * 32 + bitsOf w 43 2 * 8 + bitsOf w 39 3)) (widen8 6 (bitsOf w 19 6)) (widen8 6 (bitsOf w 0 6))]

/-- An ETC2 colour block: R, G, B of texel (x, y). -/
def etcRgb (bs : List Byte) (x y : Nat) : List Nat :=
  let w := be64 bs
  let second := if bitOf w 32 then decide (2 ≤ y) else decide (2 ≤ x)
  let table := if second then bitsOf w 34 3 else bitsOf w 37 3
  if !bitOf w 33 then
    etcPaint w x y ((if second then [bitsOf w 56 4, bitsOf w 48 4, bitsOf w 40 4]
      else [bitsOf w 60 4, bitsOf w 52 4, bitsOf w 44 4]).map (widen8 4)) table
  else
    let sum (lo : Nat) : Int := ((bitsOf w (lo + 3) 5 : Nat) : Int) + sgn 3 (bitsOf w lo 3)
    let out (v : Int) : Bool := decide (v < 0) || decide (31 < v)
    if out (sum 56) then etcT w x y
    else if out (sum 48) then etcH w x y
    else if out (sum 40) then etcPlanar w x y
    else etcPaint w x y (([56, 48, 40] : List Nat).map (fun lo =>
      widen8 5 (if second then (sum lo).toNat else bitsOf w (lo + 3) 5))) table

def eacMods : List (List Int) :=
  [[-3, -6, -9, -15, 2, 5, 8, 14], [-3, -7, -10, -13, 2, 6, 9, 12], [-2, -5, -8, -13, 1, 4, 7, 12], [-2, -4, -6, -13, 1, 3, 5, 12],
   [-3, -6, -8, -12, 2, 5, 7, 11], [-3, -7, -9, -11, 2, 6, 8, 10], [-4, -7, -8, -11, 3, 6, 7, 10], [-3, -5, -8, -11, 2, 4, 7, 10]] ++
  [[-2, -6, -8, -10, 1, 5, 7, 9], [-2, -5, -8, -10, 1, 4, 7, 9], [-2, -4, -8, -10, 1, 3, 7, 9], [-2, -5, -7, -10, 1, 4, 6, 9],
   [-3, -4, -7, -10, 2, 3, 6, 9], [-1, -2, -3, -10, 0, 1, 2, 9], [-4, -6, -8, -9, 3, 5, 7, 8], [-3, -5, -7, -9, 2, 4, 6, 8]]

/-- The modifier of texel (x, y) of an EAC block. -/
def eacMod (w x y : Nat) : Int := nth 0 (nth [] eacMods (bitsOf w 48 4)) (bitsOf w (45 - 3 * (4 * x + y)) 3)

/-- The alpha of an EAC block, 8 bits. -/
def eacAlpha (bs : List Byte) (x y : Nat) : Nat :=
  let w := be64 bs
  clamp255 (((bitsOf w 56 8 : Nat) : Int) + eacMod w x y * ((bitsOf w 52 4 : Nat) : Int))

/-- A channel of R11 or RG11, 11 bits. -/
def eac11 (bs : List Byte) (x y : Nat) : Nat :=
  let w := be64 bs
  let m := bitsOf w 52 4
  (max 0 (min 2047 (((8 * bitsOf w 56 8 + 4 : Nat) : Int) + eacMod w x y * ((if m = 0 then 1 else 8 * m : Nat) : Int)))).toNat

/-! ### ASTC: integer sequences -/

/-- How a range of levels is coded: with a trit, with a quint, and with how many bits. -/
structure Bise where
  trit : Bool
  quint : Bool
  bits : Nat
deriving DecidableEq, Repr

/-- Ranges in ascending order of their number of levels: 2, 3, 4, 5, 6, 8, 10, … 256. -/
def biseRanges : List Bise :=
  [⟨false, false, 1⟩, ⟨true, false, 0⟩, ⟨false, false, 2⟩, ⟨false, true, 0⟩, ⟨true, false, 1⟩, ⟨false, false, 3⟩, ⟨false, true, 1⟩] ++
  [⟨true, false, 2⟩, ⟨false, false, 4⟩, ⟨false, true, 2⟩, ⟨true, false, 3⟩, ⟨false, false, 5⟩, ⟨false, true, 3⟩, ⟨true, false, 4⟩] ++
  [⟨false, false, 6⟩, ⟨false, true, 4⟩, ⟨true, false, 5⟩, ⟨false, false, 7⟩, ⟨false, true, 5⟩, ⟨true, false, 6⟩, ⟨false, false, 8⟩]

/-- Bits of `n` values. -/
def Bise.size (r : Bise) (n : Nat) : Nat := r.bits * n + (if r.trit then cdiv (8 * n) 5 else if r.quint then cdiv (7 * n) 3 else 0)

/-- The five trits of T. -/
def trits (t : Nat) : List Nat :=
  let b (i : Nat) : Nat := bitsOf t i 1
  let (c, t4, t3) : Nat × Nat × Nat :=
    if bitsOf t 2 3 = 7 then (bitsOf t 5 3 * 4 + bitsOf t 0 2, 2, 2)
    else if bitsOf t 5 2 = 3 then (bitsOf t 0 5, 2, b 7) else (bitsOf t 0 5, b 7, bitsOf t 5 2)
  let d (i : Nat) : Nat := bitsOf c i 1
  if bitsOf c 0 2 = 3 then [2 * d 3 + d 2 * (1 - d 3), d 4, 2, t3, t4]
  else if bitsOf c 2 2 = 3 then [bitsOf c 0 2, 2, 2, t3, t4]
  else [2 * d 1 + d 0 * (1 - d 1), bitsOf c 2 2, d 4, t3, t4]

/-- The three quints of Q. -/
def quints (q : Nat) : List Nat :=
  let b (i : Nat) : Nat := bitsOf q i 1
  if bitsOf q 1 2 = 3 ∧ bitsOf q 5 2 = 0 then [4, 4, 4 * b 0 + 2 * (b 4 * (1 - b 0)) + b 3 * (1 - b 0)]
  else
    let (q2, c) : Nat × Nat :=
      if bitsOf q 1 2 = 3 then (4, bitsOf q 3 2 * 8 + (3 - bitsOf q 5 2) * 2 + b 0) else (bitsOf q 5 2, bitsOf q 0 5)
    if bitsOf c 0 3 = 5 then [bitsOf c 3 2, 4, q2] else [bitsOf c 0 3, bitsOf c 3 2, q2]

/-- One block of values at the foot of `w`: each value's low bits and its trit or quint; `cuts` are the bits of T or Q that
follow each value's bits. -/
def biseBlock (r : Bise) (w : Nat) (cuts : List Nat) : List (Nat × Nat) :=
  let x := cuts.foldl (fun (a : Nat × Nat × Nat × List Nat) k =>
    let (pos, t, sh, ms) := a
    (pos + r.bits + k, t + bitsOf w (pos + r.bits) k * 2 ^ sh, sh + k, ms ++ [bitsOf w pos r.bits])) (0, 0, 0, [])
  let ds := if r.trit then trits x.2.1 else quints x.2.1
  x.2.2.2.zip ds

/-- `n` values at the foot of `w` (bits beyond the sequence are zero): low bits and trit or quint. -/
def biseVals (r : Bise) (w n : Nat) : List (Nat × Nat) :=
  let w := w % 2 ^ r.size n
  if r.trit then
    ((List.range (cdiv n 5)).flatMap (fun i => biseBlock r (w / 2 ^ (i * (5 * r.bits + 8))) [2, 2, 1, 2, 1])).take n
  else if r.quint then
    ((List.range (cdiv n 3)).flatMap (fun i => biseBlock r (w / 2 ^ (i * (3 * r.bits + 7))) [3, 2, 2])).take n
  else (List.range n).map (fun i => (bitsOf w (i * r.bits) r.bits, 0))

/-- Repeat a value of `b` bits until `w` bits are filled, the high bits first. -/
def fillBits (b w v : Nat) : Nat :=
  ((List.range w).foldl (fun acc i => 2 * acc + bitsOf v (b - 1 - i % b) 1) 0)

/-- Places of the bits of B, from its highest: 0 for none, else one more than the index of the bit of the value. -/
def bPlaces (places : List Nat) (m : Nat) : Nat := places.foldl (fun n p => 2 * n + (if p = 0 then 0 else bitsOf m (p - 1) 1)) 0

/-- C and the places of B of a colour range with a trit or a quint. -/
def colourCB (r : Bise) : Nat × List Nat :=
  if r.trit then
    match r.bits with
    | 1 => (204, []) | 2 => (93, [2, 0, 0, 0, 2, 0, 2, 2, 0]) | 3 => (44, [3, 2, 0, 0, 0, 3, 2, 3, 2])
    | 4 => (22, [4, 3, 2, 0, 0, 0, 4, 3, 2]) | 5 => (11, [5, 4, 3, 2, 0, 0, 0, 5, 4]) | _ => (5, [6, 5, 4, 3, 2, 0, 0, 0, 6])
  else
    match r.bits with
    | 1 => (113, []) | 2 => (54, [2, 0, 0, 0, 0, 2, 2, 0, 0]) | 3 => (26, [3, 2, 0, 0, 0, 0, 3, 2, 3])
    | 4 => (13, [4, 3, 2, 0, 0, 0, 0, 4, 3]) | _ => (6, [5, 4, 3, 2, 0, 0, 0, 0, 5])

/-- A colour value unquantised to 8 bits. -/
def colourVal (r : Bise) (v : Nat × Nat) : Nat :=
  if r.trit || r.quint then
    let (c, ps) := colourCB r
    let a := bitsOf v.1 0 1 * 511
    let t := Nat.xor (v.2 * c + bPlaces ps v.1) a
    Nat.land a 0x80 + t % 512 / 4
  else fillBits r.bits 8 v.1

/-- A weight unquantised to 0 to 64. -/
def weightVal (r : Bise) (v : Nat × Nat) : Nat :=
  let x :=
    if (r.trit || r.quint) && r.bits == 0 then nth 0 (if r.trit then [0, 32, 63] else [0, 16, 32, 47, 63]) v.2
    else if r.trit || r.quint then
      let (c, ps) : Nat × List Nat := if r.trit then
          (match r.bits with | 1 => (50, []) | 2 => (23, [2, 0, 0, 0, 2, 0, 2]) | _ => (11, [3, 2, 0, 0, 0, 3, 2]))
        else (match r.bits with | 1 => (28, []) | _ => (13, [2, 0, 0, 0, 0, 2, 0]))
      let a := bitsOf v.1 0 1 * 127
      let t := Nat.xor (v.2 * c + bPlaces ps v.1) a
      Nat.land a 0x20 + t % 128 / 4
    else fillBits r.bits 6 v.1
  if 32 < x then x + 1 else x

/-! ### ASTC: block mode, partitions, endpoints -/

/-- The weight grid of a block: width, height, range, two planes. -/
structure Grid where
  w : Nat
  h : Nat
  range : Bise
  dual : Bool
deriving DecidableEq, Repr

/-- The block mode; none where it is reserved. -/
def astcMode (m : Nat) : Option Grid :=
  let a := bitsOf m 5 2
  let b := bitsOf m 7 2
  let mk (w h r : Nat) (dual p : Bool) : Option Grid :=
    if r < 2 then none
    else some ⟨w, h, nth ⟨false, false, 1⟩ biseRanges (if p then r + 4 else r - 2), dual⟩
  let d := bitOf m 10
  let p := bitOf m 9
  if bitsOf m 0 2 ≠ 0 then
    let r := bitsOf m 4 1 + 2 * bitsOf m 0 2
    match bitsOf m 2 2 with
    | 0 => mk (b + 4) (a + 2) r d p
    | 1 => mk (b + 8) (a + 2) r d p
    | 2 => mk (a + 2) (b + 8) r d p
    | _ => if bitOf m 8 then mk (bitsOf m 7 1 + 2) (a + 2) r d p else mk (a + 2) (bitsOf m 7 1 + 6) r d p
  else if bitsOf m 2 2 = 0 then none
  else
    let r := bitsOf m 4 1 + 2 * bitsOf m 2 2
    match b with
    | 0 => mk 12 (a + 2) r d p
    | 1 => mk (a + 2) 12 r d p
    | 2 => mk (a + 6) (bitsOf m 9 2 + 6) r false false
    | _ => if a = 0 then mk 6 10 r d p else if a = 1 then mk 10 6 r d p else none

/-- The hash of a partition seed. -/
def astcHash (p : Nat) : Nat :=
  let m (x : Nat) : Nat := x % 2 ^ 32
  let p := Nat.xor p (p / 2 ^ 15)
  let p := m (p + 2 ^ 32 - m (p * 2 ^ 17))
  let p := m (p + p * 2 ^ 7)
  let p := m (p + p * 2 ^ 4)
  let p := Nat.xor p (p / 2 ^ 5)
  let p := m (p + p * 2 ^ 16)
  let p := Nat.xor p (p / 2 ^ 7)
  let p := Nat.xor p (p / 2 ^ 3)
  let p := Nat.xor p (m (p * 2 ^ 6))
  Nat.xor p (p / 2 ^ 17)

/-- The partition of texel (x, y) of a block with `n` partitions. -/
def astcPart (seed n x y : Nat) (small : Bool) : Nat :=
  if n = 1 then 0 else
  let x := if small then 2 * x else x
  let y := if small then 2 * y else y
  let r := astcHash (seed + 1024 * (n - 1))
  let sq (lo : Nat) : Nat := let v := bitsOf r lo 4; v * v
  let one := if bitOf seed 1 then 4 else 5
  let two := if n = 3 then 6 else 5
  let (sh1, sh2) := if bitOf seed 0 then (one, two) else (two, one)
  let val (i j k : Nat) : Nat := (sq i / 2 ^ sh1 * x + sq j / 2 ^ sh2 * y + r / 2 ^ k) % 64
  let a := val 0 4 14
  let b := val 8 12 10
  let c := if n < 3 then 0 else val 16 20 6
  let d := if n < 4 then 0 else val 24 28 2
  if b ≤ a ∧ c ≤ a ∧ d ≤ a then 0 else if c ≤ b ∧ d ≤ b then 1 else if d ≤ c then 2 else 3

/-- The transfer of a bit from a base value to a signed offset: offset and base. -/
def bitTransfer (a b : Nat) : Int × Nat :=
  (let x := a / 2 % 64; if 32 ≤ x then (x : Int) - 64 else (x : Int), b / 2 + Nat.land a 0x80)

def blueContract (c : List Int) : List Int :=
  let g (i : Nat) : Int := nth 0 c i
  [(g 0 + g 2) / 2, (g 1 + g 2) / 2, g 2, g 3]

/-- The two endpoints of a colour endpoint mode, channels 0 to 255; none for the HDR modes. -/
def astcEnds (mode : Nat) (v : List Nat) : Option (List Nat × List Nat) :=
  let n (i : Nat) : Nat := nth 0 v i
  let z (i : Nat) : Int := ((n i : Nat) : Int)
  let ok (a b : List Int) : Option (List Nat × List Nat) := some (a.map clamp255, b.map clamp255)
  let scaled (i : Nat) : Int := ((n i * n 3 / 256 : Nat) : Int)
  let direct (a0 a1 : Int) : Option (List Nat × List Nat) :=
    if n 0 + n 2 + n 4 ≤ n 1 + n 3 + n 5 then ok [z 0, z 2, z 4, a0] [z 1, z 3, z 5, a1]
    else ok (blueContract [z 1, z 3, z 5, a1]) (blueContract [z 0, z 2, z 4, a0])
  let offset (a0 a1 : Int) : Option (List Nat × List Nat) :=
    let (d0, b0) := bitTransfer (n 1) (n 0)
    let (d1, b1) := bitTransfer (n 3) (n 2)
    let (d2, b2) := bitTransfer (n 5) (n 4)
    let lo : List Int := [(b0 : Int), (b1 : Int), (b2 : Int), a0]
    let hi : List Int := [(b0 : Int) + d0, (b1 : Int) + d1, (b2 : Int) + d2, a1]
    if 0 ≤ d0 + d1 + d2 then ok lo hi else ok (blueContract hi) (blueContract lo)
  match mode with
  | 0 => ok [z 0, z 0, z 0, 255] [z 1, z 1, z 1, 255]
  | 1 =>
    let l : Int := ((n 0 / 4 + Nat.land (n 1) 0xC0 : Nat) : Int)
    let h : Int := l + ((n 1 % 64 : Nat) : Int)
    ok [l, l, l, 255] [h, h, h, 255]
  | 4 => ok [z 0, z 0, z 0, z 2] [z 1, z 1, z 1, z 3]
  | 5 =>
    let (d0, b0) := bitTransfer (n 1) (n 0)
    let (d1, b1) := bitTransfer (n 3) (n 2)
    ok [(b0 : Int), (b0 : Int), (b0 : Int), (b1 : Int)]
      [(b0 : Int) + d0, (b0 : Int) + d0, (b0 : Int) + d0, (b1 : Int) + d1]
  | 6 => ok [scaled 0, scaled 1, scaled 2, 255] [z 0, z 1, z 2, 255]
  | 8 => direct 255 255
  | 9 => offset 255 255
  | 10 => ok [scaled 0, scaled 1, scaled 2, z 4] [z 0, z 1, z 2, z 5]
  | 12 => direct (z 6) (z 7)
  | 13 =>
    let (d3, b3) := bitTransfer (n 7) (n 6)
    offset (b3 : Int) ((b3 : Int) + d3)
  | _ => none

/-! ### ASTC: texels -/

/-- The weight of texel (x, y) of a footprint, from a grid's weights. -/
def astcWeight (g : Grid) (bw bh x y : Nat) (w : Nat → Nat) : Nat :=
  let gs := ((1024 + bw / 2) / (bw - 1) * x * (g.w - 1) + 32) / 64
  let gt := ((1024 + bh / 2) / (bh - 1) * y * (g.h - 1) + 32) / 64
  let fs := gs % 16
  let ft := gt % 16
  let v := gs / 16 + gt / 16 * g.w
  let w11 := (fs * ft + 8) / 16
  (w v * (16 + w11 - fs - ft) + w (v + 1) * (fs - w11) + w (v + g.w) * (ft - w11) + w (v + g.w + 1) * w11 + 8) / 16

/-- The low `n` bits of a block read from its highest bit down. -/
def revBits (w n : Nat) : Nat := (List.range n).foldl (fun acc i => acc + bitsOf w (127 - i) 1 * 2 ^ i) 0

/-- The error colour: R, G, B, A in 16 bits. -/
def astcError : List Nat := [65535, 0, 65535, 65535]

/-- A void-extent block. -/
def astcVoid (w : Nat) : List Nat :=
  let e (i : Nat) : Nat := bitsOf w (12 + 13 * i) 13
  let all := e 0 = 8191 ∧ e 1 = 8191 ∧ e 2 = 8191 ∧ e 3 = 8191
  if bitOf w 9 || bitsOf w 10 2 ≠ 3 || (!decide all && (decide (e 1 ≤ e 0) || decide (e 3 ≤ e 2))) then astcError
  else (List.range 4).map (fun c => bitsOf w (64 + 16 * c) 16)

/-- Colour endpoint modes of the partitions, with the bits that they take below the weights; `top` is the first weight bit. -/
def astcCems (w np top : Nat) : List Nat × Nat :=
  if np = 1 then ([bitsOf w 13 4], 0)
  else if bitsOf w 23 2 = 0 then (List.replicate np (bitsOf w 25 4), 0)
  else
    let more := 3 * np - 4
    let x := bitsOf w 25 4 + bitsOf w (top - more) more * 16
    ((List.range np).map (fun i => (bitsOf w 23 2 - 1 + bitsOf x i 1) * 4 + bitsOf x (np + 2 * i) 2), more)

/-- R, G, B, A of texel (x, y) in 16 bits: `srgb` widens colour endpoints with 0x80. -/
def astcTexel (bs : List Byte) (bw bh x y : Nat) (srgb : Bool) : List Nat :=
  let w := leNat (bs.take 16)
  if bitsOf w 0 9 = 0x1FC then astcVoid w else
  match astcMode (bitsOf w 0 11) with
  | none => astcError
  | some g =>
    let np := bitsOf w 11 2 + 1
    let nw := g.w * g.h * (if g.dual then 2 else 1)
    let wb := g.range.size nw
    if bw < g.w ∨ bh < g.h ∨ 64 < nw ∨ wb < 24 ∨ 96 < wb ∨ (g.dual ∧ np = 4) then astcError else
    let top := 128 - wb
    let (cems, more) := astcCems w np top
    let below := top - more - (if g.dual then 2 else 0)
    let start := if np = 1 then 17 else 29
    let nv := cems.foldl (fun n c => n + 2 * (c / 4 + 1)) 0
    let room := below - start
    if 18 < nv ∨ below < start ∨ room < cdiv (13 * nv) 5 then astcError else
    match (biseRanges.drop 4).reverse.find? (fun r => decide (r.size nv ≤ room)) with
    | none => astcError
    | some cr =>
      let vals := (biseVals cr (w / 2 ^ start) nv).map (colourVal cr)
      let part := astcPart (bitsOf w 13 10) np x y (decide (bw * bh < 31))
      let skip := (cems.take part).foldl (fun n c => n + 2 * (c / 4 + 1)) 0
      match astcEnds (nth 0 cems part) (vals.drop skip) with
      | none => astcError
      | some (e0, e1) =>
        let ws := (biseVals g.range (revBits w wb) nw).map (weightVal g.range)
        let plane (k : Nat) : Nat := astcWeight g bw bh x y (fun i => if g.dual then nth 0 ws (2 * i + k) else nth 0 ws i)
        let ccs := bitsOf w below 2
        (List.range 4).map (fun c =>
          let i := if g.dual ∧ c = ccs then plane 1 else plane 0
          let wide (v : Nat) : Nat := v * 256 + (if srgb ∧ c < 3 then 0x80 else v)
          (wide (nth 0 e0 c) * (64 - i) + wide (nth 0 e1 c) * i + 32) / 64)

/-- A linear ASTC channel: 1.0 at the top, else the 16 bits over 65,536 as FP16, rounded towards zero; as FP32. -/
def astcLinear (v : Nat) : Nat := if v = 65535 then 0x3F800000 else f32 (decElt 7 (encFmt 7 1 false (.fin false v (-16))))

end Sys2Proof.Machine
end

