-- ==== Sys2Proof/Machine/Texture.lean ====
section
/-!
DEFINITION. Textures: the caches (R304, R305), table entries (R300), formats (R301), the swizzled layout (R302) and
sampling (R303).
-/

namespace Sys2Proof.Machine

/-! ### Caches -/

/-- A counter of a cluster's units, which stands still while a secure context issues there (R457). -/
def State.vecFrozen (s : State) (k : Nat) : Bool :=
  s.wgs.any (fun w => w.core / 8 == k && (match s.desc? w.desc with
    | some d => s.secureDesc d && d.parts.any (fun p => p.isl == 4 + k && p.st == .running)
    | none => false))

def State.vbump (s : State) (k : Nat) (f : Fref) (n : Nat) : State := if s.vecFrozen k then s else s.bump f n

/-- A cache of `ways` × `sets` lines: the line of `ctx` at `a`, with the cache after the use; a set is least recently
used (log 12). -/
def cacheHit (ls : List CLine) (ctx a : Nat) : Option (CLine × List CLine) :=
  match ls.find? (fun l => l.ctx == ctx && l.addr == a) with
  | some l => some (l, l :: ls.filter (fun x => !(x.ctx == ctx && x.addr == a)))
  | none => none

/-- Keep the first `ways` lines of the set that address `a` falls into. -/
def cacheTrim (ways sets a : Nat) (ls : List CLine) : List CLine :=
  let same (l : CLine) : Bool := l.addr / 64 % sets == a / 64 % sets
  match (ls.filter same).drop ways with
  | [] => ls
  | out => ls.filter (fun l => !out.contains l)

def noLines : Nat → List CLine := fun _ => []

def State.cache (s : State) (i : Nat) : List CLine := mget noLines s.caches i
def State.setCache (s : State) (i : Nat) (ls : List CLine) : State := { s with caches := mset noLines s.caches i ls }

/-- Read a line through a cache, with `fill` behind it; the Boolean says that it was filled. -/
def cacheRead (i ways sets ctx a : Nat) (fill : Eng (List Byte)) : Eng (List Byte × Bool) := do
  let s ← eGet
  match cacheHit (s.cache i) ctx a with
  | some (l, ls) =>
    eMod (fun s => s.setCache i ls)
    return (l.data, false)
  | none =>
    let bs ← fill
    eMod (fun s => s.setCache i (cacheTrim ways sets a (⟨ctx, a, bs, []⟩ :: s.cache i)))
    return (bs, true)

/-- A line of texture data on a core: L1 16 KiB four-way, L2 256 KiB sixteen-way (R304). Each fill of L2 is checked. -/
def texLine (rq : MReq) (core a : Nat) : Eng (List Byte) := do
  let k := core / 8
  let (bs, _) ← cacheRead core 4 64 rq.ctx a (do
    let (bs, new) ← cacheRead (32 + k) 16 256 rq.ctx a (eRead { rq with isl := 64 + rq.isl } a 64)
    if new then eMod (fun s => s.vbump k (GFX_CNT_TEX_L2_MISS_COUNT k) 1)
    return bs)
  return bs

/-- `n` bytes at `a` through the texture caches. -/
def texBytes (rq : MReq) (core a n : Nat) : Eng (List Byte) := do
  let mut out : List Byte := []
  for i in List.range ((a + n - 1) / 64 - a / 64 + 1) do
    let l ← texLine rq core ((a / 64 + i) * 64)
    out := out ++ l
  return (out.drop (a % 64)).take n

/-! ### Formats (R301) -/

/-- Bytes per block and block size of an uncompressed, ETC2, EAC or ASTC format. -/
def texBlk (fmt aw ah : Nat) : Nat × Nat × Nat :=
  match fmt with
  | 0 => (1, 1, 1) | 1 => (2, 1, 1) | 2 | 3 | 4 | 5 => (4, 1, 1) | 6 | 7 => (2, 1, 1) | 8 => (4, 1, 1)
  | 9 => (2, 1, 1) | 10 => (4, 1, 1) | 11 => (8, 1, 1) | 12 => (4, 1, 1) | 13 => (16, 1, 1)
  | 14 | 15 => (8, 4, 4) | 16 | 17 => (16, 4, 4) | 18 => (8, 4, 4) | 19 => (16, 4, 4)
  | _ => (16, aw, ah)

/-- A ratio as FP32 bits: n / d correctly rounded. -/
def f32Ratio (n d : Nat) : Nat :=
  f32 (.fin false (n * 2 ^ 160 / d * 2 + b2n (n * 2 ^ 160 % d != 0)) (-161))

/-- A UNORM channel of `w` bits as FP32 bits. -/
def unorm (w v : Nat) : Nat := f32Ratio v (2 ^ w - 1)

/-- The sRGB channel of 8 bits decoded to linear light: v/12.92, or ((v + 0.055)/1.055)^2.4 (log 13). -/
def srgbDec (v : Nat) : Nat :=
  if v ≤ 10 then f32Ratio (v * 100) (255 * 1292)
  else
    let lg := fxLog2 ((v * 1000 + 55 * 255) * 2 ^ 100 / (255 * 1055)) (-100)
    f32 (fxExp (fxMul (24 * lg / 10) fxLn2))

/-- Channels R, G, B, A of a texel as FP32 bits: 0 for a channel that is lacking, 1 for a lacking alpha. -/
def texelOf (fmt : Nat) (bs : List Byte) : List Nat :=
  let one := 0x3F800000
  let b (i : Nat) : Nat := u bs i 1
  let h (i : Nat) : Nat := f32 (fF16.dec (u bs (2 * i) 2))
  let v := u bs 0 4
  match fmt with
  | 0 => [unorm 8 (b 0), 0, 0, one]
  | 1 => [unorm 8 (b 0), unorm 8 (b 1), 0, one]
  | 2 => [unorm 8 (b 0), unorm 8 (b 1), unorm 8 (b 2), unorm 8 (b 3)]
  | 3 => [srgbDec (b 0), srgbDec (b 1), srgbDec (b 2), unorm 8 (b 3)]
  | 4 => [unorm 8 (b 2), unorm 8 (b 1), unorm 8 (b 0), unorm 8 (b 3)]
  | 5 => [srgbDec (b 2), srgbDec (b 1), srgbDec (b 0), unorm 8 (b 3)]
  | 6 => [unorm 5 (bitsOf v 11 5), unorm 6 (bitsOf v 5 6), unorm 5 (bitsOf v 0 5), one]
  | 7 => [unorm 4 (bitsOf v 12 4), unorm 4 (bitsOf v 8 4), unorm 4 (bitsOf v 4 4), unorm 4 (bitsOf v 0 4)]
  | 8 => [unorm 10 (bitsOf v 0 10), unorm 10 (bitsOf v 10 10), unorm 10 (bitsOf v 20 10), unorm 2 (bitsOf v 30 2)]
  | 9 => [h 0, 0, 0, one]
  | 10 => [h 0, h 1, 0, one]
  | 11 => [h 0, h 1, h 2, h 3]
  | 12 => [v, 0, 0, one]
  | _ => [v, u bs 4 4, u bs 8 4, u bs 12 4]

/-- Channels of texel `i` of a compressed block (R301, log 14). -/
def blockTexel (fmt aw ah : Nat) (bs : List Byte) (i : Nat) : List Nat :=
  let one := 0x3F800000
  let srgb := fmt == 15 || fmt == 17 || fmt == 21
  let c (v : Nat) : Nat := if srgb then srgbDec v else unorm 8 v
  if 20 ≤ fmt then
    let t := astcTexel bs aw ah (i % max 1 aw) (i / max 1 aw) srgb
    (List.range 4).map (fun j => if srgb ∧ j < 3 then srgbDec (nth 0 t j / 256) else astcLinear (nth 0 t j))
  else
    let x := i % 4
    let y := i / 4
    match fmt with
    | 18 => [unorm 11 (eac11 bs x y), 0, 0, one]
    | 19 => [unorm 11 (eac11 bs x y), unorm 11 (eac11 (bs.drop 8) x y), 0, one]
    | 14 | 15 => (etcRgb bs x y).map c ++ [one]
    | _ => (etcRgb (bs.drop 8) x y).map c ++ [unorm 8 (eacAlpha bs x y)]

/-! ### Table entries (R300) and layout (R302) -/

structure Tex where
  addr : Nat
  w : Nat
  h : Nat
  layers : Nat
  levels : Nat
  fmt : Nat
  swz : Bool
  aw : Nat
  ah : Nat
  stride : Nat
  magF : Nat
  minF : Nat
  mip : Nat
  au : Nat
  av : Nat
  bias : Nat
  border : List Nat
deriving DecidableEq, Repr

def texOf (e : List Byte) : Tex :=
  let w12 := u e 12 4
  let w20 := u e 20 4
  ⟨bitsOf (u e 0 8) 0 48, bitsOf (u e 8 4) 0 14 + 1, bitsOf (u e 8 4) 16 14 + 1, bitsOf w12 0 11 + 1, bitsOf w12 12 4 + 1,
   bitsOf w12 16 5, bitOf w12 21, bitsOf w12 22 4, bitsOf w12 26 4, u e 16 4, bitsOf w20 0 1, bitsOf w20 1 1, bitsOf w20 2 2,
   bitsOf w20 4 2, bitsOf w20 6 2, u e 24 4, (List.range 4).map (fun c => u e (32 + 4 * c) 4)⟩

/-- The footprints of ASTC. -/
def astcOk (w h : Nat) : Bool :=
  [(4, 4), (5, 4), (5, 5), (6, 5), (6, 6), (8, 5), (8, 6), (8, 8), (10, 5), (10, 6), (10, 8), (10, 10), (12, 10),
   (12, 12)].contains (w, h)

/-- An entry that keeps the rules of R300. -/
def texOk (e : List Byte) : Bool :=
  let t := texOf e
  (reservedAt 0 64 [(0, 0, 48), (8, 0, 14), (8, 16, 14), (12, 0, 30), (16, 0, 32), (20, 0, 8), (24, 0, 32), (32, 0, 128)]
    e).isNone &&
  decide (t.w ≤ 8192) && decide (t.h ≤ 8192) && decide (t.levels - 1 ≤ Nat.log2 (max t.w t.h)) && decide (t.fmt < 0x16) &&
  t.mip != 3 && (if t.swz then t.addr % 4096 == 0 && t.stride == 0 else t.layers == 1 && t.levels == 1 && decide (t.fmt < 14)) &&
  (if 0x14 ≤ t.fmt then astcOk t.aw t.ah else t.aw == 0 && t.ah == 0)

/-- Interleave the bits that both coordinates have; the wider one's high bits follow above (R302). -/
def morton (wx wy x y : Nat) : Nat :=
  let k := min wx wy
  (List.range k).foldl (fun m j => m + bitsOf x j 1 * 4 ^ j + bitsOf y j 1 * (2 * 4 ^ j)) 0 +
    (if wx ≤ wy then y / 2 ^ k else x / 2 ^ k) * 4 ^ k

/-- Blocks of a micro-tile by block bytes: log2 of width and height. -/
def microTile (b : Nat) : Nat × Nat :=
  match b with
  | 1 => (3, 3) | 2 => (3, 2) | 4 => (2, 2) | 8 => (2, 1) | _ => (1, 1)

def levelSize (n l : Nat) : Nat := max 1 (n / 2 ^ l)

/-- Bytes of a level of a swizzled texture. -/
def levelBytes (fmt aw ah w h l : Nat) : Nat :=
  let (b, bw, bh) := texBlk fmt aw ah
  let (mw, mh) := microTile b
  cdiv (cdiv (levelSize w l) bw) (8 * 2 ^ mw) * cdiv (cdiv (levelSize h l) bh) (8 * 2 ^ mh) * 4096

/-- Offset of block (bx, by) within a level of width `w` texels (R302). -/
def swizzleOff (fmt aw ah w bx by' : Nat) : Nat :=
  let (b, bw, _) := texBlk fmt aw ah
  let (mw, mh) := microTile b
  let pw := 8 * 2 ^ mw
  let ph := 8 * 2 ^ mh
  let pr := cdiv (cdiv w bw) pw
  (by' / ph * pr + bx / pw) * 4096 + morton 3 3 (bx % pw / 2 ^ mw) (by' % ph / 2 ^ mh) * 64 +
    morton mw mh (bx % 2 ^ mw) (by' % 2 ^ mh) * b

/-- Address of block (bx, by) of a level and layer. -/
def Tex.blockAddr (t : Tex) (bx by' l z : Nat) : Nat :=
  let (b, _, _) := texBlk t.fmt t.aw t.ah
  if t.swz then
    let size (j : Nat) : Nat := levelBytes t.fmt t.aw t.ah t.w t.h j
    let sum (n : Nat) : Nat := (List.range n).foldl (fun a j => a + size j) 0
    t.addr + z * sum t.levels + sum l + swizzleOff t.fmt t.aw t.ah (levelSize t.w l) bx by'
  else t.addr + by' * t.stride + bx * b

/-- A texel within its level. -/
def Tex.texel (t : Tex) (rq : MReq) (core x y z l : Nat) : Eng (List Nat) := do
  let (b, bw, bh) := texBlk t.fmt t.aw t.ah
  let bs ← texBytes rq core (t.blockAddr (x / bw) (y / bh) l z) b
  return if t.fmt < 14 then texelOf t.fmt bs else blockTexel t.fmt t.aw t.ah bs (y % bh * bw + x % bw)

/-! ### Sampling (R303) -/

/-- A texel coordinate under an addressing mode; none for the border. -/
def wrapCoord (mode n : Nat) (i : Int) : Option Nat :=
  match mode with
  | 0 => some (i % n).toNat
  | 1 => let j := (i % (2 * n : Nat)).toNat; some (if j < n then j else 2 * n - 1 - j)
  | 2 => some (min (n - 1) i.toNat)
  | _ => if 0 ≤ i ∧ i < n then some i.toNat else none

def Tex.wrapped (t : Tex) (rq : MReq) (core : Nat) (x y : Int) (z l : Nat) : Eng (List Nat) :=
  match wrapCoord t.au (levelSize t.w l) x, wrapCoord t.av (levelSize t.h l) y with
  | some i, some j => t.texel rq core i j z l
  | _, _ => return t.border

/-- A normalised coordinate in texels of a level with 8 fractional bits: floor(u × W × 256), a NaN or an infinity as 0
(log 15). -/
def texCoord (c n : Nat) : Int :=
  match vmul (ofF32 c) (Val.ofInt (n : Int)) with
  | .fin neg m e =>
    let q : Nat := if 0 ≤ e + 8 then m * pow2 (e + 8) else m / pow2 (-(e + 8))
    let rem : Bool := if 0 ≤ e + 8 then false else m % pow2 (-(e + 8)) != 0
    if neg then -(q : Int) - (if rem then 1 else 0) else q
  | _ => 0

/-- a + f/256 × (b − a) in FP32, RNE. -/
def lerp8 (f a b : Nat) : Nat := f32Add a (f32Mul (f32Ratio f 256) (f32 (vsub (ofF32 b) (ofF32 a))))

/-- One level, filtered. -/
def Tex.level (t : Tex) (rq : MReq) (core cu cv z l : Nat) (linear : Bool) : Eng (List Nat) := do
  let x := texCoord cu (levelSize t.w l)
  let y := texCoord cv (levelSize t.h l)
  if !linear then t.wrapped rq core (x / 256) (y / 256) z l
  else
    let x := x - 128
    let y := y - 128
    let fx := (x % 256).toNat
    let fy := (y % 256).toNat
    let a ← t.wrapped rq core (x / 256) (y / 256) z l
    let b ← t.wrapped rq core (x / 256 + 1) (y / 256) z l
    let c ← t.wrapped rq core (x / 256) (y / 256 + 1) z l
    let d ← t.wrapped rq core (x / 256 + 1) (y / 256 + 1) z l
    return (List.range 4).map (fun i =>
      lerp8 fy (lerp8 fx (nth 0 a i) (nth 0 b i)) (lerp8 fx (nth 0 c i) (nth 0 d i)))

/-- A layer coordinate: rounded RNE and clamped. -/
def Tex.layerOf (t : Tex) (c : Nat) : Nat :=
  match ofF32 c with
  | .fin n m e => min (t.layers - 1) (roundInt 0 (.fin n m e)).toNat
  | .inf n => if n then 0 else t.layers - 1
  | .nan => 0

/-- One level of detail in fixed point. -/
def lodOne : Int := 2 * fxOne

/-- Filtered value at a level of detail given before the clamp, with the number of levels filtered. -/
def Tex.filtered (t : Tex) (rq : MReq) (core cu cv cz : Nat) (lod : Int) : Eng (List Nat × Nat) := do
  let z := t.layerOf cz
  let lin := if lod ≤ 0 then t.magF == 1 else t.minF == 1
  let cut : Int := max 0 (min lod (((t.levels - 1 : Nat) : Int) * lodOne))
  let lc := (cut * 256 / lodOne).toNat
  if t.mip = 0 then
    let v ← t.level rq core cu cv z 0 lin
    return (v, 1)
  else if t.mip = 1 then
    let v ← t.level rq core cu cv z (min (t.levels - 1) ((cut + fxOne) / lodOne).toNat) lin
    return (v, 1)
  else
    let a ← t.level rq core cu cv z (lc / 256) lin
    if lc % 256 = 0 then return (a, 1)
    let b ← t.level rq core cu cv z (lc / 256 + 1) lin
    return ((List.range 4).map (fun i => lerp8 (lc % 256) (nth 0 a i) (nth 0 b i)), 2)

/-- log2 of the longer of two gradient vectors: half of log2 of the larger squared length. A zero gradient gives the most
negative level. -/
def lodOf (ux vx uy vy : Val) : Int :=
  let sq (a b : Val) : Val := vadd (vmul a a) (vmul b b)
  let a := sq ux vx
  let b := sq uy vy
  match (if vlt a b then b else a) with
  | .fin _ m e => if m = 0 then -(4096 * lodOne) else fxLog2 m e
  | .inf _ => 4096 * lodOne
  | .nan => -(4096 * lodOne)

/-- An FP32 number of levels; one too small for the fixed point keeps its sign. -/
def lodFix (b : Nat) : Int :=
  match ofF32 b with
  | .fin n m e =>
    let x := fxOf (.fin n m (e + 1))
    if x = 0 ∧ m ≠ 0 then (if n then -1 else 1) else x
  | .inf n => if n then -(4096 * lodOne) else 4096 * lodOne
  | .nan => 0

end Sys2Proof.Machine
end

