-- ==== Sys2Proof/Machine/VecDecode.lean ====
section
/-!
DEFINITION. Instruction words of the vector cores: the six formats (R248), the classes and functions (R250 to R259), and
the rules of legality (R249). The numbers of an SREAD are those of R251.
-/

namespace Sys2Proof.Machine

/-! ### Formats (R248) -/

def rFmt (w : Nat) : RFmt :=
  { mask := bitsOf w 12 3, mneg := bitOf w 15, d := bitsOf w 16 6, a := bitsOf w 22 6, b := bitsOf w 28 6,
    c := bitsOf w 34 6, ty := bitsOf w 40 4, sA := bitOf w 44, sB := bitOf w 45, sC := bitOf w 46, bU := bitOf w 47,
    cvt := bitsOf w 48 8 }

def iFmt (w : Nat) : IFmt :=
  { mask := bitsOf w 12 3, mneg := bitOf w 15, d := bitsOf w 16 6, a := bitsOf w 22 6, ty := bitsOf w 28 4,
    imm := BitVec.ofNat 32 (bitsOf w 32 32) }

def mFmt (w : Nat) : MFmt :=
  { mask := bitsOf w 12 3, mneg := bitOf w 15, d := bitsOf w 16 6, sb := bitsOf w 22 6, vx := bitsOf w 28 6,
    ty := bitsOf w 34 4, space := bitsOf w 38 2, pack := false, off := BitVec.ofNat 24 (bitsOf w 40 24) }

def bFmt (w : Nat) : BFmt := { sa := bitsOf w 16 6, sb := bitsOf w 22 6, off := BitVec.ofNat 32 (bitsOf w 32 32) }
def sFmt (w : Nat) : SFmt := { d := bitsOf w 16 6, a := bitsOf w 22 6, imm := BitVec.ofNat 32 (bitsOf w 32 32) }
def tFmt (w : Nat) : TFmt :=
  { mask := bitsOf w 12 3, mneg := bitOf w 15, d := bitsOf w 16 6, u := bitsOf w 22 6, tex := bitsOf w 28 6 }

/-- Reserved bits of a word that are set: BU belongs to DP4 alone and CVT to class VCVT alone. -/
def vecReserved (w : Nat) : Bool :=
  let cls := bitsOf w 0 6
  let fn := bitsOf w 6 6
  let fmtR := bitsOf w 56 8 != 0 || (bitOf w 47 && !(cls == 5 && fn == 4)) || (bitsOf w 48 8 != 0 && cls != 7)
  match cls with
  | 0 | 0xE => bitOf w 15 || bitsOf w 28 4 != 0
  | 2 | 4 | 0xA | 0xB | 0xC => false
  | 0xD => bitsOf w 34 30 != 0
  | _ => fmtR

/-! ### Classes and functions -/

/-- The instruction of a class and function in format S. -/
def sysOf (fn : Nat) (t : Thr) (f : SFmt) : Option Instr :=
  match fn with
  | 0 => some (.vecNop t f) | 1 => some (.vecEnd t f) | 2 => some (.vecBar t f) | 3 => some (.vecFence t f)
  | 4 => some (.vecSread t f) | 5 => some (.vecLaneid t f) | 6 => some (.vecTrap t f) | _ => none

def saluOf (fn : Nat) (t : Thr) (f : AluSrc) : Option Instr :=
  match fn with
  | 0 => some (.saluAdd t f) | 1 => some (.saluSub t f) | 2 => some (.saluMul t f) | 3 => some (.saluMulh t f)
  | 4 => some (.saluAnd t f) | 5 => some (.saluOr t f) | 6 => some (.saluXor t f) | 7 => some (.saluMov t f)
  | 8 => some (.saluShl t f) | 9 => some (.saluShr t f) | 10 => some (.saluSra t f) | 11 => some (.saluSlt t f)
  | 12 => some (.saluSltu t f) | 13 => some (.saluMin t f) | 14 => some (.saluMax t f) | _ => none

def valuOf (fn : Nat) (t : Thr) (f : AluSrc) : Option Instr :=
  match fn with
  | 0 => some (.valuAdd t f) | 1 => some (.valuSub t f) | 2 => some (.valuMul t f) | 3 => some (.valuMin t f)
  | 4 => some (.valuMax t f) | 5 => some (.valuAbs t f) | 6 => some (.valuNeg t f) | 7 => some (.valuAdds t f)
  | 8 => some (.valuSubs t f) | 9 => some (.valuMulhi t f) | 10 => some (.valuAnd t f) | 11 => some (.valuOr t f)
  | 12 => some (.valuXor t f) | 13 => some (.valuShl t f) | 14 => some (.valuShr t f) | 15 => some (.valuSra t f)
  | 16 => some (.valuMov t f)
  | 17 => (match f with | .r g => some (.valuSel t g) | .i _ => none)
  | 18 => some (.valuRint t f) | _ => none

def vfmaOf (fn : Nat) (t : Thr) (f : RFmt) : Option Instr :=
  match fn with
  | 0 => some (.vfmaFma t f) | 1 => some (.vfmaFms t f) | 2 => some (.vfmaFnma t f) | 3 => some (.vfmaMad t f)
  | 4 => some (.vfmaDp4 t f) | _ => none

def vcmpOf (fn : Nat) (t : Thr) (f : RFmt) : Option Instr :=
  match fn with
  | 0 => some (.vcmpEq t f) | 1 => some (.vcmpNe t f) | 2 => some (.vcmpLt t f) | 3 => some (.vcmpLe t f)
  | 4 => some (.vcmpGt t f) | 5 => some (.vcmpGe t f) | 6 => some (.vcmpLtu t f) | 7 => some (.vcmpGeu t f)
  | 8 => some (.vcmpIsnan t f) | _ => none

def vxlOf (fn : Nat) (t : Thr) (f : RFmt) : Option Instr :=
  match fn with
  | 0 => some (.vxlRadd t f) | 1 => some (.vxlRmin t f) | 2 => some (.vxlRmax t f) | 3 => some (.vxlScan t f)
  | 4 => some (.vxlPerm t f) | 5 => some (.vxlBcast t f) | 6 => some (.vxlExtract t f) | 7 => some (.vxlShiftup t f)
  | 8 => some (.vxlCompress t f) | 9 => some (.vxlSort t f) | _ => none

def vtransOf (fn : Nat) (t : Thr) (f : RFmt) : Option Instr :=
  match fn with
  | 0 => some (.vtransExp t f) | 1 => some (.vtransExp2 t f) | 2 => some (.vtransLog2 t f) | 3 => some (.vtransRcp t f)
  | 4 => some (.vtransRsqrt t f) | 5 => some (.vtransSqrt t f) | 6 => some (.vtransSin t f) | 7 => some (.vtransCos t f)
  | 8 => some (.vtransTanh t f) | _ => none

/-- LD: bits [1:0] of FUNC give the form, bit 5 is PACK. -/
def ldOf (fn : Nat) (t : Thr) (f : MFmt) : Option Instr :=
  let g := { f with pack := bitOf fn 5 }
  match fn % 32 with
  | 0 => some (.ldUnit t g) | 1 => some (.ldStrided t g) | 2 => some (.ldGather t g) | 3 => some (.ldBroadcast t g)
  | _ => none

def stOf (fn : Nat) (t : Thr) (f : MFmt) : Option Instr :=
  let g := { f with pack := bitOf fn 5 }
  match fn % 32 with
  | 0 => some (.stUnit t g) | 1 => some (.stStrided t g) | 2 => some (.stScatter t g) | _ => none

def atomOf (fn : Nat) (t : Thr) (f : MFmt) : Option Instr :=
  match fn with
  | 0 => some (.atomAdd t f) | 1 => some (.atomMin t f) | 2 => some (.atomMax t f) | 3 => some (.atomAnd t f)
  | 4 => some (.atomOr t f) | 5 => some (.atomXor t f) | 6 => some (.atomExch t f) | 7 => some (.atomCas t f)
  | _ => none

def texIOf (fn : Nat) (t : Thr) (f : TFmt) : Option Instr :=
  match fn with
  | 0 => some (.texSample t f) | 1 => some (.texSampleL t f) | 2 => some (.texFetch t f) | _ => none

def brOf (fn : Nat) (t : Thr) (f : BFmt) : Option Instr :=
  match fn with
  | 0 => some (.brJmp t f) | 1 => some (.brBeq t f) | 2 => some (.brBne t f) | 3 => some (.brBlt t f)
  | 4 => some (.brBge t f) | 5 => some (.brBltu t f) | 6 => some (.brBgeu t f) | 7 => some (.brBany t f)
  | 8 => some (.brBnone t f) | 9 => some (.brBall t f) | 10 => some (.brJal t f) | 11 => some (.brJr t f) | _ => none

def maskOf (fn : Nat) (t : Thr) (f : RFmt) : Option Instr :=
  match fn with
  | 0 => some (.maskMand t f) | 1 => some (.maskMor t f) | 2 => some (.maskMxor t f) | 3 => some (.maskMandn t f)
  | 4 => some (.maskMnot t f) | 5 => some (.maskMtos t f) | 6 => some (.maskStom t f) | 7 => some (.maskMpop t f)
  | 8 => some (.maskMfirst t f) | _ => none

/-- The instruction of a word by class and function (R250). -/
def vecParse (w : Nat) (t : Thr) : Option Instr :=
  let fn := bitsOf w 6 6
  match bitsOf w 0 6 with
  | 0 => sysOf fn t (sFmt w)
  | 1 => saluOf fn t (.r (rFmt w))
  | 2 => saluOf fn t (.i (iFmt w))
  | 3 => valuOf fn t (.r (rFmt w))
  | 4 => valuOf fn t (.i (iFmt w))
  | 5 => vfmaOf fn t (rFmt w)
  | 6 => vcmpOf fn t (rFmt w)
  | 7 => if fn = 0 then some (.vcvtConvert t (rFmt w)) else none
  | 8 => vxlOf fn t (rFmt w)
  | 9 => vtransOf fn t (rFmt w)
  | 10 => ldOf fn t (mFmt w)
  | 11 => stOf fn t (mFmt w)
  | 12 => atomOf fn t (mFmt w)
  | 13 => texIOf fn t (tFmt w)
  | 14 => brOf fn t (bFmt w)
  | 15 => maskOf fn t (rFmt w)
  | _ => none

/-! ### Legality (R249) -/

def packedTy (ty : Nat) : Bool := ty == 3 || ty == 7 || ty == 8
def wideTy (ty : Nat) : Bool := ty == 4 || ty == 9
def regTy (ty : Nat) : Bool := packedTy ty || wideTy ty
def intTy (ty : Nat) : Bool := ty == 3 || ty == 4
def fltTy (ty : Nat) : Bool := ty == 7 || ty == 8 || ty == 9
/-- Formats that loads, stores and conversions accept (R256, R259). -/
def memTy (ty : Nat) : Bool := decide (1 ≤ ty) && decide (ty ≤ 9)
/-- A scalar register that exists (log 16). -/
def sReg (r : Nat) : Bool := decide (r < 32)

/-- Scalar operands named by AS, BS and CS exist. -/
def rSrcs (f : RFmt) : Bool := (!f.sA || sReg f.a) && (!f.sB || sReg f.b) && (!f.sC || sReg f.c)

/-- A VALU source of an accepted type. -/
def valuLegal (ok : Nat → Bool) : AluSrc → Bool
  | .r f => ok f.ty && rSrcs f
  | .i f => ok f.ty

/-- A SALU instruction; MOV names no register A. -/
def saluLegal (mov : Bool) : AluSrc → Bool
  | .r f => f.ty == 4 && f.mask == 0 && sReg f.d && (mov || sReg f.a) && sReg f.b
  | .i f => f.ty == 4 && f.mask == 0 && sReg f.d && (mov || sReg f.a)

def vcmpLegal (ok : Nat → Bool) (f : RFmt) : Bool :=
  ok f.ty && rSrcs f && f.d % 8 != 0 && (!packedTy f.ty || f.d % 8 != 7)

def vxlLegal (toS : Bool) (f : RFmt) : Bool := wideTy f.ty && rSrcs f && (!toS || sReg f.d)

/-- An address operand: SPACE, its base register or even pair, and the pair of the strided form. -/
def memLegal (f : MFmt) : Bool :=
  decide (f.space < 2) && sReg f.sb && (f.space == 0 || f.sb % 2 == 0)

/-- A conversion: both formats, and the pairs it needs. -/
def cvtLegal (f : RFmt) : Bool :=
  let dst := cvtFmt f.cvt
  memTy f.ty && memTy dst && cvtOk f.cvt && rSrcs f &&
    (if packedTy f.ty ∧ ¬ packedTy dst then decide (f.d < 63) else true) &&
    (if ¬ packedTy f.ty ∧ packedTy dst then (if f.sA then sReg (f.a + 1) else decide (f.a < 63)) else true)

/-- Is the target of a relative branch at `pc` inside the code? -/
def branchIn (pc code : Nat) (f : BFmt) : Bool :=
  let x : Int := (pc : Int) + f.off.toInt
  decide (0 ≤ x) && decide (x < code)

/-- The legality of an instruction at `pc` of an image of `code` instructions. -/
def vecLegal (pc code : Nat) : Instr → Bool
  | .vecNop _ _ | .vecEnd _ _ | .vecBar _ _ | .vecFence _ _ | .vecLaneid _ _ | .vecTrap _ _ => true
  | .vecSread _ f => sReg f.d && decide (f.imm.toNat ≤ 12)
  | .saluAdd _ f | .saluSub _ f | .saluMul _ f | .saluMulh _ f | .saluAnd _ f | .saluOr _ f | .saluXor _ f | .saluShl _ f
  | .saluShr _ f | .saluSra _ f | .saluSlt _ f | .saluSltu _ f | .saluMin _ f | .saluMax _ f => saluLegal false f
  | .saluMov _ f => saluLegal true f
  | .valuAdd _ f | .valuSub _ f | .valuMul _ f | .valuMin _ f | .valuMax _ f | .valuAbs _ f | .valuNeg _ f
  | .valuMov _ f => valuLegal regTy f
  | .valuAdds _ f | .valuSubs _ f | .valuMulhi _ f | .valuAnd _ f | .valuOr _ f | .valuXor _ f | .valuShl _ f
  | .valuShr _ f | .valuSra _ f => valuLegal intTy f
  | .valuRint _ f => valuLegal fltTy f
  | .valuSel _ f => regTy f.ty && rSrcs f
  | .vfmaFma _ f | .vfmaFms _ f | .vfmaFnma _ f => fltTy f.ty && rSrcs f
  | .vfmaMad _ f => intTy f.ty && rSrcs f
  | .vfmaDp4 _ f => (f.ty == 1 || f.ty == 2) && rSrcs f
  | .vcmpEq _ f | .vcmpNe _ f | .vcmpLt _ f | .vcmpLe _ f | .vcmpGt _ f | .vcmpGe _ f => vcmpLegal regTy f
  | .vcmpLtu _ f | .vcmpGeu _ f => vcmpLegal intTy f
  | .vcmpIsnan _ f => vcmpLegal fltTy f
  | .vcvtConvert _ f => cvtLegal f
  | .vxlRadd _ f | .vxlRmin _ f | .vxlRmax _ f => vxlLegal true f
  | .vxlExtract _ f => vxlLegal true f && sReg f.b
  | .vxlBcast _ f | .vxlShiftup _ f => vxlLegal false f && sReg f.b
  | .vxlScan _ f | .vxlPerm _ f | .vxlCompress _ f => vxlLegal false f
  | .vxlSort _ f => vxlLegal false f && decide (f.d < 63)
  | .vtransExp _ f | .vtransExp2 _ f | .vtransLog2 _ f | .vtransRcp _ f | .vtransRsqrt _ f | .vtransSqrt _ f
  | .vtransSin _ f | .vtransCos _ f | .vtransTanh _ f => f.ty == 9 && rSrcs f
  | .ldUnit _ f | .stUnit _ f => memLegal f && memTy f.ty && (!f.pack || packedTy f.ty)
  | .ldStrided _ f | .stStrided _ f => memLegal f && memTy f.ty && !f.pack && sReg f.vx
  | .ldGather _ f | .ldBroadcast _ f | .stScatter _ f => memLegal f && memTy f.ty && !f.pack
  | .atomAdd _ f | .atomMin _ f | .atomMax _ f => memLegal f && wideTy f.ty
  | .atomAnd _ f | .atomOr _ f | .atomXor _ f | .atomExch _ f => memLegal f && f.ty == 4
  | .atomCas _ f => memLegal f && f.ty == 4 && decide (f.d < 63)
  | .texSample _ f => decide (f.u < 62) && decide (f.d < 61)
  | .texSampleL _ f | .texFetch _ f => decide (f.u < 61) && decide (f.d < 61)
  | .brJmp _ f => branchIn pc code f
  | .brBeq _ f | .brBne _ f | .brBlt _ f | .brBge _ f | .brBltu _ f | .brBgeu _ f =>
    branchIn pc code f && sReg f.sa && sReg f.sb
  | .brBany _ f | .brBnone _ f | .brBall _ f => branchIn pc code f
  | .brJal _ f => branchIn pc code f && sReg f.sa
  | .brJr _ f => sReg f.sa && f.off == 0
  | .maskMand _ f | .maskMor _ f | .maskMxor _ f | .maskMandn _ f =>
    f.mask == 0 && f.d != 0 && decide (f.d < 8) && decide (f.a < 8) && decide (f.b < 8)
  | .maskMnot _ f => f.mask == 0 && f.d != 0 && decide (f.d < 8) && decide (f.a < 8)
  | .maskMtos _ f | .maskMpop _ f | .maskMfirst _ f => f.mask == 0 && sReg f.d && decide (f.a < 8)
  | .maskStom _ f => f.mask == 0 && f.d != 0 && decide (f.d < 8) && sReg f.a
  | _ => false

/-- The instruction at `pc` of an image of `code` instructions, none where the word is illegal (R249). MASK is zero in the
classes without predication. -/
def vecDecode (pc code w : Nat) (t : Thr) : Option Instr :=
  if vecReserved w then none
  else if (bitsOf w 0 6 = 0 ∨ bitsOf w 0 6 = 0xE) ∧ bitsOf w 12 3 ≠ 0 then none
  else match vecParse w t with
    | some i => if vecLegal pc code i then some i else none
    | none => none

/-! ### Registers that an instruction waits for (R267) -/

def rVregs (f : RFmt) (pairA pairD : Bool) : List Nat :=
  (if f.sA then [] else if pairA then [f.a, f.a + 1] else [f.a]) ++ (if f.sB then [] else [f.b]) ++
    (if f.sC then [] else [f.c]) ++ (if pairD then [f.d, f.d + 1] else [f.d])

/-- Vector registers of a load, store or atomic: data, and the index of the gathering forms. -/
def mVregs (f : MFmt) (idx : Bool) : List Nat := f.d :: (if idx then [f.vx] else [])

/-- Vector registers that an instruction reads or writes, where it may touch one. -/
def vecRegs : Instr → List Nat
  | .valuAdd _ f | .valuSub _ f | .valuMul _ f | .valuMin _ f | .valuMax _ f | .valuAbs _ f | .valuNeg _ f
  | .valuMov _ f | .valuAdds _ f | .valuSubs _ f | .valuMulhi _ f | .valuAnd _ f | .valuOr _ f | .valuXor _ f
  | .valuShl _ f | .valuShr _ f | .valuSra _ f | .valuRint _ f =>
    (match f with
     | .r g => rVregs { g with sC := true } false false
     | .i g => [g.d, g.a])
  | .valuSel _ f => rVregs { f with sC := true } false false
  | .vfmaFma _ f | .vfmaFms _ f | .vfmaFnma _ f | .vfmaMad _ f | .vfmaDp4 _ f => rVregs f false false
  | .vcmpEq _ f | .vcmpNe _ f | .vcmpLt _ f | .vcmpLe _ f | .vcmpGt _ f | .vcmpGe _ f | .vcmpLtu _ f | .vcmpGeu _ f
  | .vcmpIsnan _ f => (if f.sA then [] else [f.a]) ++ (if f.sB then [] else [f.b])
  | .vcvtConvert _ f => rVregs { f with sB := true, sC := true } true true
  | .vxlRadd _ f | .vxlRmin _ f | .vxlRmax _ f | .vxlExtract _ f => if f.sA then [] else [f.a]
  | .vxlScan _ f | .vxlBcast _ f | .vxlShiftup _ f | .vxlCompress _ f =>
    rVregs { f with sB := true, sC := true } false false
  | .vxlPerm _ f => rVregs { f with sC := true } false false
  | .vxlSort _ f => rVregs { f with sB := true, sC := true } false true
  | .vtransExp _ f | .vtransExp2 _ f | .vtransLog2 _ f | .vtransRcp _ f | .vtransRsqrt _ f | .vtransSqrt _ f
  | .vtransSin _ f | .vtransCos _ f | .vtransTanh _ f => rVregs { f with sB := true, sC := true } false false
  | .ldUnit _ f | .ldStrided _ f | .ldBroadcast _ f | .stUnit _ f | .stStrided _ f => mVregs f false
  | .ldGather _ f | .stScatter _ f | .atomAdd _ f | .atomMin _ f | .atomMax _ f | .atomAnd _ f | .atomOr _ f
  | .atomXor _ f | .atomExch _ f => mVregs f true
  | .atomCas _ f => (f.d + 1) :: mVregs f true
  | .texSample _ f | .texSampleL _ f | .texFetch _ f => [f.u, f.u + 1, f.u + 2, f.u + 3, f.d, f.d + 1, f.d + 2, f.d + 3]
  | .vecLaneid _ f => [f.d]
  | _ => []

/-! ### Register words that an instruction reads (R247) -/

/-- Cells of a vector, scalar and mask register: 32 × register + lane, 2048 + register, 2080 + register. -/
def cellsV (r : Nat) : List Nat := (List.range 32).map (fun i => 32 * r + i)
def cellsS (r : Nat) : List Nat := [2048 + r]
def cellsM (r : Nat) : List Nat := [2080 + r]

def cellsOf (scalar : Bool) (r : Nat) : List Nat := if scalar then cellsS r else cellsV r
def cellsA (f : RFmt) : List Nat := cellsOf f.sA f.a ++ cellsM f.mask
def cellsAB (f : RFmt) : List Nat := cellsA f ++ cellsOf f.sB f.b

/-- Address registers of a load, store or atomic. -/
def cellsAddr (f : MFmt) : List Nat := cellsM f.mask ++ cellsS f.sb ++ (if f.space = 1 then cellsS (f.sb + 1) else [])

/-- Register words that an instruction reads. -/
def vecReads : Instr → List Nat
  | .saluAdd _ f | .saluSub _ f | .saluMul _ f | .saluMulh _ f | .saluAnd _ f | .saluOr _ f | .saluXor _ f | .saluMov _ f
  | .saluShl _ f | .saluShr _ f | .saluSra _ f | .saluSlt _ f | .saluSltu _ f | .saluMin _ f | .saluMax _ f =>
    (match f with
     | .r g => cellsS g.a ++ cellsS g.b
     | .i g => cellsS g.a)
  | .valuAdd _ f | .valuSub _ f | .valuMul _ f | .valuMin _ f | .valuMax _ f | .valuAbs _ f | .valuNeg _ f
  | .valuMov _ f | .valuAdds _ f | .valuSubs _ f | .valuMulhi _ f | .valuAnd _ f | .valuOr _ f | .valuXor _ f
  | .valuShl _ f | .valuShr _ f | .valuSra _ f | .valuRint _ f =>
    (match f with
     | .r g => cellsAB g
     | .i g => cellsV g.a ++ cellsM g.mask)
  | .valuSel _ f => cellsAB f ++ cellsM (f.c % 8)
  | .vfmaFma _ f | .vfmaFms _ f | .vfmaFnma _ f | .vfmaMad _ f | .vfmaDp4 _ f => cellsAB f ++ cellsOf f.sC f.c
  | .vcmpEq _ f | .vcmpNe _ f | .vcmpLt _ f | .vcmpLe _ f | .vcmpGt _ f | .vcmpGe _ f | .vcmpLtu _ f | .vcmpGeu _ f
  | .vcmpIsnan _ f => cellsAB f ++ cellsM (f.d % 8) ++ (if packedTy f.ty then cellsM (f.d % 8 + 1) else [])
  | .vcvtConvert _ f => cellsA f ++ (if packedTy (cvtFmt f.cvt) && !packedTy f.ty then cellsOf f.sA (f.a + 1) else [])
  | .vxlRadd _ f | .vxlRmin _ f | .vxlRmax _ f | .vxlScan _ f | .vxlCompress _ f | .vxlSort _ f => cellsA f
  | .vxlPerm _ f => cellsAB f
  | .vxlExtract _ f | .vxlBcast _ f | .vxlShiftup _ f => cellsA f ++ cellsS f.b
  | .vtransExp _ f | .vtransExp2 _ f | .vtransLog2 _ f | .vtransRcp _ f | .vtransRsqrt _ f | .vtransSqrt _ f
  | .vtransSin _ f | .vtransCos _ f | .vtransTanh _ f => cellsA f
  | .ldUnit _ f | .ldBroadcast _ f => cellsAddr f
  | .ldStrided _ f => cellsAddr f ++ cellsS f.vx
  | .ldGather _ f => cellsAddr f ++ cellsV f.vx
  | .stUnit _ f => cellsAddr f ++ cellsV f.d
  | .stStrided _ f => cellsAddr f ++ cellsS f.vx ++ cellsV f.d
  | .stScatter _ f => cellsAddr f ++ cellsV f.vx ++ cellsV f.d
  | .atomAdd _ f | .atomMin _ f | .atomMax _ f | .atomAnd _ f | .atomOr _ f | .atomXor _ f | .atomExch _ f =>
    cellsAddr f ++ cellsV f.vx ++ cellsV f.d
  | .atomCas _ f => cellsAddr f ++ cellsV f.vx ++ cellsV f.d ++ cellsV (f.d + 1)
  | .texSample _ f | .texSampleL _ f | .texFetch _ f =>
    cellsM f.mask ++ cellsV f.u ++ cellsV (f.u + 1) ++ cellsV (f.u + 2) ++ cellsV (f.u + 3)
  | .brBeq _ f | .brBne _ f | .brBlt _ f | .brBge _ f | .brBltu _ f | .brBgeu _ f => cellsS f.sa ++ cellsS f.sb
  | .brBany _ f | .brBnone _ f | .brBall _ f => cellsM (f.sa % 8)
  | .brJr _ f => cellsS f.sa
  | .maskMand _ f | .maskMor _ f | .maskMxor _ f | .maskMandn _ f => cellsM f.a ++ cellsM f.b
  | .maskMnot _ f | .maskMtos _ f | .maskMpop _ f | .maskMfirst _ f => cellsM f.a
  | .maskStom _ f => cellsS f.a
  | _ => []

end Sys2Proof.Machine
end

