-- ==== Sys2Proof/Machine/Vector.lean ====
section
/-!
DEFINITION. Vector cores: thread registers (R241 to R243), the instruction set (R251 to R264, R303), issue (R249, R261,
R267, R269), launches and workgroups (R268 to R273), faults (R275).
-/

namespace Sys2Proof.Machine

/-! ### Registers of a thread -/

def word0 : Nat → Word32 := fun _ => 0

def ThrSt.v (t : ThrSt) (r lane : Nat) : Nat := (mget word0 t.vr (32 * r + lane)).toNat
/-- s0 reads zero. -/
def ThrSt.s (t : ThrSt) (r : Nat) : Nat := if r = 0 then 0 else (mget word0 t.sr r).toNat
/-- m0 reads all ones. -/
def ThrSt.m (t : ThrSt) (r : Nat) : Nat := if r = 0 then 0xFFFFFFFF else (mget word0 t.mr r).toNat
/-- A written word is stored with fresh check bits. -/
def ThrSt.putV (t : ThrSt) (r lane x : Nat) : ThrSt :=
  { t with vr := mset word0 t.vr (32 * r + lane) (BitVec.ofNat 32 x), err := mdel (32 * r + lane) t.err }
/-- s0 ignores writes. -/
def ThrSt.putS (t : ThrSt) (r x : Nat) : ThrSt :=
  if r = 0 then t else { t with sr := mset word0 t.sr r (BitVec.ofNat 32 x), err := mdel (2048 + r) t.err }
/-- m0 cannot be written. -/
def ThrSt.putM (t : ThrSt) (r x : Nat) : ThrSt :=
  if r = 0 then t else { t with mr := mset word0 t.mr r (BitVec.ofNat 32 x), err := mdel (2080 + r) t.err }

def lanes : List Nat := List.range 32

/-- Acting lanes under MASK and MNEG (R261). -/
def ThrSt.acting (t : ThrSt) (mask : Nat) (mneg : Bool) : List Nat := lanes.filter (fun i => bitOf (t.m mask) i != mneg)

/-- Write the acting lanes of a register from a list of 32 lane words. -/
def ThrSt.setV (t : ThrSt) (r : Nat) (act ws : List Nat) : ThrSt := act.foldl (fun t i => t.putV r i (nth 0 ws i)) t

def ThrSt.reg (t : ThrSt) (r : Nat) : List Nat := lanes.map (t.v r)

/-- A source operand lane by lane: a scalar register is broadcast to all lanes (R248). -/
def ThrSt.src (t : ThrSt) (scalar : Bool) (r : Nat) : List Nat := if scalar then lanes.map (fun _ => t.s r) else t.reg r

def ThrSt.srcA (t : ThrSt) : AluSrc → List Nat
  | .r f => t.src f.sA f.a
  | .i f => t.reg f.a

/-- Side B: an immediate of a 16-bit type stands in both halves (R248). -/
def ThrSt.srcB (t : ThrSt) : AluSrc → List Nat
  | .r f => t.src f.sB f.b
  | .i f => lanes.map (fun _ => if packedTy f.ty then f.imm.toNat % 65536 * 65537 else f.imm.toNat)

def aluTy : AluSrc → Nat
  | .r f => f.ty
  | .i f => f.ty

def aluD : AluSrc → Nat
  | .r f => f.d
  | .i f => f.d

def ThrSt.aluAct (t : ThrSt) : AluSrc → List Nat
  | .r f => t.acting f.mask f.mneg
  | .i f => t.acting f.mask f.mneg

/-! ### Elements (R243) -/

def tyBits (ty : Nat) : Nat := if packedTy ty then 16 else 32

/-- One lane of a function of two elements: both halves of a packed type. -/
def lane2 (ty : Nat) (g : Nat → Nat → Nat) (a b : Nat) : Nat :=
  if packedTy ty then g (a % 65536) (b % 65536) % 65536 + g (a / 65536) (b / 65536) % 65536 * 65536 else g a b

def lane3 (ty : Nat) (g : Nat → Nat → Nat → Nat) (a b c : Nat) : Nat :=
  if packedTy ty then
    g (a % 65536) (b % 65536) (c % 65536) % 65536 + g (a / 65536) (b / 65536) (c / 65536) % 65536 * 65536
  else g a b c

def zip3 (xs ys zs : List Nat) : List (Nat × Nat × Nat) := xs.zip (ys.zip zs)

/-- Floating-point result, rounded once, RNE (R260). -/
def fpOut (ty : Nat) (v : Val) : Nat := encFmt ty 0 false v

/-- Arithmetic of a register type: exact on integers and wrapped, exact on floats and rounded once. -/
def arith (fi : Int → Int → Int) (ff : Val → Val → Val) (ty a b : Nat) : Nat :=
  if intTy ty then unsgn (tyBits ty) (fi (sgn (tyBits ty) a) (sgn (tyBits ty) b))
  else fpOut ty (ff (decElt ty a) (decElt ty b))

/-- MIN and MAX (R253): signed integers; a NaN yields the other operand; −0 is below +0. -/
def minMax (isMax : Bool) (ty a b : Nat) : Nat :=
  if intTy ty then
    let lt := decide (sgn (tyBits ty) a < sgn (tyBits ty) b)
    if lt != isMax then a else b
  else
    let x := decElt ty a
    let y := decElt ty b
    if x.isNan then (if y.isNan then fpOut ty .nan else b)
    else if y.isNan then a
    else if vlt x y then (if isMax then b else a)
    else if vlt y x then (if isMax then a else b)
    else if bitOf a (tyBits ty - 1) != isMax then a else b

def negate (ty a : Nat) : Nat :=
  if intTy ty then unsgn (tyBits ty) (-(sgn (tyBits ty) a))
  else if (decElt ty a).isNan then fpOut ty .nan else Nat.xor a (2 ^ (tyBits ty - 1))

def absolute (ty a : Nat) : Nat :=
  if intTy ty then unsgn (tyBits ty) (sgn (tyBits ty) a).natAbs
  else if (decElt ty a).isNan then fpOut ty .nan else a % 2 ^ (tyBits ty - 1)

/-- Saturating addition or subtraction of integers. -/
def satArith (sub : Bool) (ty a b : Nat) : Nat :=
  let w := tyBits ty
  let y := if sub then -(sgn w b) else sgn w b
  unsgn w (clampI (-(2 ^ (w - 1) : Nat)) ((2 ^ (w - 1) : Nat) - 1) (sgn w a + y))

def mulHi (w a b : Nat) : Nat := unsgn w (sgn w a * sgn w b / (2 ^ w : Nat))

/-- Shifts by B mod element width: 0 left, 1 right, 2 arithmetic right. -/
def shift (k w a b : Nat) : Nat :=
  let n := b % w
  match k with
  | 0 => a * 2 ^ n % 2 ^ w
  | 1 => a / 2 ^ n
  | _ => unsgn w (sgn w a / (2 ^ n : Nat))

/-- Rounding to an integral value, RNE; the sign of a zero result is kept. -/
def rint (ty a : Nat) : Nat :=
  match decElt ty a with
  | .fin n m e => fpOut ty (.fin n (roundInt 0 (.fin false m e)).natAbs 0)
  | v => fpOut ty v

/-! ### Operations -/

/-- Where an instruction runs: memory requester, core, slot, kernel and descriptor. -/
structure VEnv where
  rq : MReq
  core : Nat
  slot : Nat
  k : Kern
  d : Desc

/-- The effect of an instruction on its thread and workgroup; `pc` already stands at the next instruction. -/
abbrev VOp := VEnv → ThrSt → WgSt → Eng (ThrSt × WgSt)

/-- An operation on the thread's registers alone. -/
def vPure (g : ThrSt → ThrSt) : VOp := fun _ t w => return (g t, w)

def nop : VOp := vPure id

/-- Faults of R275; the DETAIL is formed at issue. -/
def vFault {α : Type} (code : Nat) : Eng α := eFail code 0

/-! ### Check bits (R247) -/

/-- Reading words that the single-error-correcting, double-error-detecting code of R247 protects: the errors left and the number of
words corrected, or none where one is uncorrectable. -/
def secded (m : SMap (BitVec 39)) (ws : List Nat) : Option (SMap (BitVec 39) × Nat) :=
  let bad := m.filter (fun e => ws.contains e.1)
  if bad.any (fun e => decide (2 ≤ popc 39 e.2.toNat)) then none
  else some (m.filter (fun e => !ws.contains e.1), (bad.filter (fun e => e.2 != 0)).length)

/-- Read words of core `core`: corrected ones are written back and counted, an uncorrectable one fails the launch. -/
def eWords (core : Nat) (m : SMap (BitVec 39)) (ws : List Nat) : Eng (SMap (BitVec 39)) := do
  match secded m ws with
  | none => vFault 0xA3
  | some (m, n) =>
    if n ≠ 0 then eMod (fun s => s.vbump (core / 8) (VEC_CNT_CORR_COUNT (core / 8)) n)
    return m

/-! ### SYS (R251) -/

def opEnd : VOp := vPure (fun t => { t with ended := true, loads := [] })
def opBar : VOp := vPure (fun t => { t with bar := true })
def opLaneid (f : SFmt) : VOp := vPure (fun t => t.setV f.d lanes lanes)
def opTrap (f : SFmt) : VOp := fun _ _ _ => eFail 0xA4 (f.imm.toNat % 65536)

/-- The special registers of R251; 7 latches 8 as R8 states. -/
def opSread (f : SFmt) : VOp := fun e t w => do
  let s ← eGet
  let n := f.imm.toNat
  let b := s.beacon
  let x := match n with
    | 0 => w.x | 1 => w.y | 2 => w.z
    | 3 => t.idx | 4 => e.k.threads | 5 => e.core | 6 => s.ctxOf e.d
    | 7 => b % 2 ^ 32
    | 8 => t.hi.getD (b / 2 ^ 32)
    | 9 => e.k.arg % 2 ^ 32 | 10 => e.k.arg / 2 ^ 32
    | 11 => e.d.layerId | _ => e.d.opId
  let t := if n = 7 then { t with hi := some (b / 2 ^ 32) } else if n = 8 then { t with hi := none } else t
  return (t.putS f.d x, w)

/-! ### SALU (R252) -/

def opSalu (g : Nat → Nat → Nat) (f : AluSrc) : VOp := vPure (fun t =>
  match f with
  | .r f => t.putS f.d (g (t.s f.a) (t.s f.b))
  | .i f => t.putS f.d (g (t.s f.a) f.imm.toNat))

/-- Unsigned arithmetic modulo 2^32. -/
def mod32 (i : Int) : Nat := unsgn 32 i

/-! ### VALU (R253), VFMA (R254), VCMP (R255), VCVT (R256) -/

/-- An operation lane by lane on A and B. -/
def opValu (g : Nat → Nat → Nat → Nat) (f : AluSrc) : VOp := vPure (fun t =>
  t.setV (aluD f) (t.aluAct f) (((t.srcA f).zip (t.srcB f)).map (fun (a, b) => lane2 (aluTy f) (g (aluTy f)) a b)))

/-- SEL takes A where the lane's bit of m[C] is set. -/
def opSel (f : RFmt) : VOp := vPure (fun t =>
  t.setV f.d (t.acting f.mask f.mneg)
    ((zip3 lanes (t.src f.sA f.a) (t.src f.sB f.b)).map (fun (i, a, b) => if bitOf (t.m (f.c % 8)) i then a else b)))

/-- Three operands. -/
def opVfma (ty : Nat) (g : Nat → Nat → Nat → Nat) (f : RFmt) : VOp := vPure (fun t =>
  t.setV f.d (t.acting f.mask f.mneg)
    ((zip3 (t.src f.sA f.a) (t.src f.sB f.b) (t.src f.sC f.c)).map (fun (a, b, c) => lane3 ty g a b c)))

/-- A × B + C with signs: exact, rounded once. -/
def fma (nprod nadd : Bool) (ty a b c : Nat) : Nat :=
  let p := vmul (decElt ty a) (decElt ty b)
  let q := decElt ty c
  fpOut ty (vadd (if nprod then p.negate else p) (if nadd then q.negate else q))

def mad (ty a b c : Nat) : Nat := (a * b + c) % 2 ^ tyBits ty

/-- C + Σ over the bytes, exact, saturated as R91. -/
def dp4 (aU bU : Bool) (a b c : Nat) : Nat :=
  let el (un : Bool) (x j : Nat) : Int := if un then (bitsOf x (8 * j) 8 : Int) else sgn 8 (bitsOf x (8 * j) 8)
  unsgn 32 (sat32 ((List.range 4).foldl (fun z j => z + el aU a j * el bU b j) (sgn 32 c))).1

/-- A comparison of two codes: integers signed, floats with NaN false. -/
def cmpOf (ci : Int → Int → Bool) (cf : Val → Val → Bool) (ty a b : Nat) : Bool :=
  if intTy ty then ci (sgn (tyBits ty) a) (sgn (tyBits ty) b) else cf (decElt ty a) (decElt ty b)

/-- One bit per element; disabled lanes keep their old bits. -/
def opVcmp (p : Nat → Nat → Nat → Bool) (f : RFmt) : VOp := vPure (fun t =>
  let act := t.acting f.mask f.mneg
  let ab := (t.src f.sA f.a).zip (t.src f.sB f.b)
  let put (t : ThrSt) (r : Nat) (h : Nat → Nat) : ThrSt :=
    t.putM r (act.foldl (fun m i => let x := nth (0, 0) ab i; putBits m i 1 (b2n (p f.ty (h x.1) (h x.2)))) (t.m r))
  if packedTy f.ty then put (put t (f.d % 8) (· % 65536)) (f.d % 8 + 1) (· / 65536) else put t (f.d % 8) id)

/-- Elements 0 to 31 or 32 to 63 of a source of a conversion. -/
def cvtIn (packed : Bool) (ty : Nat) (lo hi : List Nat) : List Nat × List Nat :=
  if packed then (lo.map (· % 65536), lo.map (· / 65536)) else
  let cut (l : List Nat) : List Nat := if ty = 4 ∨ ty = 9 then l else l.map (· % 256)
  (cut lo, cut hi)

/-- VCVT by R86 and R87: a packed source or target spreads over a register pair against a wide one. -/
def opVcvt (f : RFmt) : VOp := vPure (fun t =>
  let act := t.acting f.mask f.mneg
  let dst := cvtFmt f.cvt
  let (lo, hi) := cvtIn (packedTy f.ty) f.ty (t.src f.sA f.a) (t.src f.sA (f.a + 1))
  let cv (l : List Nat) : List Nat := l.map (fun x => encFmt dst (cvtRnd f.cvt) (cvtSat f.cvt) (decElt f.ty x))
  let los := cv lo
  let his := cv hi
  if packedTy dst then t.setV f.d act ((los.zip his).map (fun (a, b) => a + 65536 * b))
  else if packedTy f.ty then (t.setV f.d act los).setV (f.d + 1) act his
  else t.setV f.d act los)

/-! ### VXL (R257) -/

/-- Pairwise tree sum. -/
def treeSum (add : Nat → Nat → Nat) : Nat → List Nat → List Nat
  | 0, xs => xs
  | n + 1, xs =>
    let rec pairs : List Nat → List Nat
      | a :: b :: r => add a b :: pairs r
      | r => r
    treeSum add n (pairs xs)

def addTy (ty a b : Nat) : Nat := arith (· + ·) vadd ty a b

/-- RADD: a fixed tree over the 32 lanes with inactive lanes as zero. -/
def opRadd (f : RFmt) : VOp := vPure (fun t =>
  let act := t.acting f.mask f.mneg
  let a := t.src f.sA f.a
  t.putS f.d (nth 0 (treeSum (addTy f.ty) 5 (lanes.map (fun i => if act.contains i then nth 0 a i else 0))) 0))

/-- RMIN and RMAX; with no active lane the result is not stated (log 7). -/
def opRed (isMax : Bool) (f : RFmt) : VOp := fun _ t w => do
  let s ← eGet
  match t.acting f.mask f.mneg with
  | [] =>
    eMod (fun s => s.freshen 1)
    return (t.putS f.d (Config.freeWord s.fresh).toNat, w)
  | i :: is =>
    let a := t.src f.sA f.a
    return (t.putS f.d (is.foldl (fun x j => minMax isMax f.ty x (nth 0 a j)) (nth 0 a i)), w)

/-- SCAN: running sums in ascending order. -/
def opScan (f : RFmt) : VOp := vPure (fun t =>
  let act := t.acting f.mask f.mneg
  let a := t.src f.sA f.a
  let r := act.foldl (fun (p : Option Nat × List (Nat × Nat)) i =>
    let x := match p.1 with
      | none => nth 0 a i
      | some y => addTy f.ty y (nth 0 a i)
    (some x, p.2 ++ [(i, x)])) (none, [])
  r.2.foldl (fun t (i, x) => t.putV f.d i x) t)

/-- A source lane; what a disabled lane gives is not stated (log 7). -/
def srcLane (s : State) (act a : List Nat) (i j : Nat) : Nat :=
  if act.contains j then nth 0 a j else (Config.freeWord (s.fresh + i)).toNat

/-- Lane i takes lane `sel i` of A, or zero. -/
def opLanes (sel : ThrSt → Nat → Option Nat) (f : RFmt) : VOp := fun _ t w => do
  let s ← eGet
  let act := t.acting f.mask f.mneg
  let a := t.src f.sA f.a
  eMod (fun s => s.freshen 32)
  return (t.setV f.d act (lanes.map (fun i => match sel t i with
    | some j => srcLane s act a i j
    | none => 0)), w)

/-- EXTRACT. -/
def opExtract (f : RFmt) : VOp := fun _ t w => do
  let s ← eGet
  eMod (fun s => s.freshen 1)
  return (t.putS f.d (srcLane s (t.acting f.mask f.mneg) (t.src f.sA f.a) 0 (t.s f.b % 32)), w)

/-- COMPRESS: the active lanes to lanes 0 onwards, the remaining lanes zero; it writes every lane (log 17). -/
def opCompress (f : RFmt) : VOp := vPure (fun t =>
  let a := t.src f.sA f.a
  t.setV f.d lanes ((t.acting f.mask f.mneg).map (fun i => nth 0 a i)))

/-- Order of SORT: ascending, NaN last. -/
def sortLt (ty a b : Nat) : Bool :=
  if ty = 4 then decide (sgn 32 a < sgn 32 b)
  else if (decElt ty a).isNan then false
  else if (decElt ty b).isNan then true else vlt (decElt ty a) (decElt ty b)

/-- Stable insertion. -/
def sortIns (ty : Nat) (x : Nat × Nat) : List (Nat × Nat) → List (Nat × Nat)
  | [] => [x]
  | y :: ys => if sortLt ty x.1 y.1 then x :: y :: ys else y :: sortIns ty x ys

/-- SORT: the active lanes in order with their lane numbers, the inactive ones after them (log 17). -/
def opSort (f : RFmt) : VOp := vPure (fun t =>
  let act := t.acting f.mask f.mneg
  let a := t.src f.sA f.a
  let on := act.foldl (fun l i => sortIns f.ty (nth 0 a i, i) l) []
  let all := on ++ (lanes.filter (fun i => !act.contains i)).map (fun i => (nth 0 a i, i))
  (t.setV f.d lanes (all.map (·.1))).setV (f.d + 1) lanes (all.map (·.2)))

/-! ### VTRANS (R258, R99) -/

/-- An exponent that is even, with the mantissa scaled to it. -/
def evenExp (m : Nat) (e : Int) : Nat × Int := if e % 2 = 0 then (m, e) else (2 * m, e - 1)

/-- Square root with a sticky bit, so that one rounding is exact. -/
def sqrtVal (m : Nat) (e : Int) : Val :=
  let (m, e) := evenExp m e
  let n := m * 2 ^ 400
  let r := isqrt n
  .fin false (2 * r + b2n (r * r != n)) (e / 2 - 201)

def exp2F32 (b : Nat) : Nat :=
  if b % 2 ^ 31 = 0 then f32 (.fin false 1 0) else
  match ofF32 b with
  | .nan => fF32.nanCode
  | .inf n => if n then 0 else f32 (.inf false)
  | v =>
    if vlt (.fin false 128 0) v then f32 (.inf false)
    else if vlt v (.fin true 160 0) then 0
    else
      let x := fxOf v
      let y := (fxExp (fxMul (x % fxOne) fxLn2)).scale (x / fxOne)
      approxPick 33 b y (relTol 22 y)

def log2F32 (b : Nat) : Nat :=
  match ofF32 b with
  | .nan => fF32.nanCode
  | .inf n => if n then fF32.nanCode else f32 (.inf false)
  | .fin n m e =>
    if m = 0 then f32 (.inf true)
    else if n then fF32.nanCode
    else
      let y := fxVal (fxLog2 m e)
      let near := !vlt (.fin false m e) (.fin false 1 (-1)) && !vlt (.fin false 2 0) (.fin false m e)
      approxPick 34 b y (if near then .fin false 1 (-22) else relTol 22 y)

def rsqrtF32 (b : Nat) : Nat :=
  match ofF32 b with
  | .nan => fF32.nanCode
  | .inf n => if n then fF32.nanCode else 0
  | .fin n m e =>
    if m = 0 then f32 (.inf n)
    else if n then fF32.nanCode
    else
      let (m, e) := evenExp m e
      let y := Val.fin false (isqrt (2 ^ 400 / m)) (-200 - e / 2)
      approxPick 36 b y (relTol 22 y)

def sqrtF32 (b : Nat) : Nat :=
  match ofF32 b with
  | .nan => fF32.nanCode
  | .inf n => if n then fF32.nanCode else b
  | .fin n m e => if m = 0 then b else if n then fF32.nanCode else f32 (sqrtVal m e)

/-- SIN and COS within abs(x) ≤ 2^20, NaN beyond. -/
def trigF32 (isCos : Bool) (b : Nat) : Nat :=
  match ofF32 b with
  | .fin n m e =>
    if vlt (.fin false 1 20) (.fin false m e) then fF32.nanCode
    else
      let x := fxOf (.fin n m e) % (2 * fxPi)
      let x := if fxPi < x then x - 2 * fxPi else x
      if isCos then approxPick 39 b (fxVal (fxCos x)) (.fin false 1 (-21))
      else keepZero b (approxPick 38 b (fxVal (fxSin x)) (.fin false 1 (-21)))
  | _ => fF32.nanCode

def tanhF32 (b : Nat) : Nat :=
  match ofF32 b with
  | .nan => fF32.nanCode
  | .inf n => f32 (.fin n 1 0)
  | .fin n m e =>
    let y := if vlt (.fin false 128 0) (.fin false m e) then Val.fin n 1 0 else fxVal (fxTanh (fxOf (.fin n m e)))
    keepZero b (approxPick 40 b y (.fin false 1 (-21)))

def opVtrans (g : Nat → Nat) (f : RFmt) : VOp := vPure (fun t =>
  t.setV f.d (t.acting f.mask f.mneg) ((t.src f.sA f.a).map g))

/-! ### Memory (R245, R246, R259, R262 to R264) -/

/-- Signed reading of a stride register. -/
def strideOf (x : Nat) : Int := sgn 32 x

/-- Base address plus OFF in local or device memory. -/
def ThrSt.base (t : ThrSt) (f : MFmt) : Int :=
  (if f.space = 0 then (t.s f.sb : Int) else ((t.s f.sb + t.s (f.sb + 1) % 65536 * 2 ^ 32 : Nat) : Int)) + f.off.toInt

/-- An address in its space: 32 bits local, 48 bits device. -/
def spaceAddr (f : MFmt) (x : Int) : Nat := unsgn (if f.space = 0 then 32 else 48) x

/-- Elements that an access touches: packed position or lane, and address. -/
def ThrSt.elems (t : ThrSt) (f : MFmt) (form : Nat) : List (Nat × Nat) :=
  let act := t.acting f.mask f.mneg
  let n := fmtBits f.ty / 8
  let at' (x : Int) : Nat := spaceAddr f (t.base f + x)
  match form with
  | 0 => if f.pack then
      ((List.range 64).filter (fun e => act.contains (e % 32))).map (fun e => (e, at' ((e * n : Nat) : Int)))
    else act.map (fun i => (i, at' ((i * n : Nat) : Int)))
  | 1 => act.map (fun i => (i, at' ((i : Int) * strideOf (t.s f.vx))))
  | 2 => act.map (fun i => (i, at' (t.v f.vx i : Int)))
  | _ => act.map (fun i => (i, at' 0))

/-- Alignment of every element (R262) and the end of local memory (R246). -/
def vCheck (f : MFmt) (w : WgSt) (es : List (Nat × Nat)) : Eng Unit := do
  let n := fmtBits f.ty / 8
  if es.any (fun e => e.2 % n != 0) then vFault 0xA1
  if f.space = 0 ∧ es.any (fun e => decide (w.lm4k * 4096 < e.2 + n)) then vFault 0xA2

def lm0 : Nat → Byte := fun _ => 0

def WgSt.lmGet (w : WgSt) (a n : Nat) : Nat := leNat ((List.range n).map (fun i => mget lm0 w.lm (a + i)))
def WgSt.lmPut (w : WgSt) (a n x : Nat) : WgSt :=
  { w with lm := ((List.range n).zip (leBytes n x)).foldl (fun m (i, b) => mset lm0 m (a + i) b) w.lm, err := mdel (a / 4) w.err }

/-- The words of local memory that elements lie in, read through their code. -/
def eLmWords (e : VEnv) (w : WgSt) (es : List (Nat × Nat)) : Eng WgSt := do
  let m ← eWords e.core w.err (es.map (fun x => x.2 / 4))
  return { w with err := m }

/-- Distinct items in order of first appearance. -/
def distinct (xs : List Nat) : List Nat := xs.foldl (fun l x => if l.contains x then l else l ++ [x]) []

/-- Clocks of a local access beyond the first (R245). -/
def lmExtra (form stride : Nat) (as : List Nat) : Nat :=
  match form with
  | 0 => 0
  | 1 => if stride / 4 = 0 then 0 else Nat.gcd (stride / 4) 32 - 1
  | 3 => 0
  | _ =>
    let ws := distinct (as.map (· / 4))
    max 4 ((List.range 32).foldl (fun m b => max m (ws.filter (fun x => x % 32 == b)).length) 0) - 1

/-- Count the conflict clocks of a local access. -/
def eLmCount (e : VEnv) (t : ThrSt) (f : MFmt) (form : Nat) (es : List (Nat × Nat)) : Eng Unit :=
  eMod (fun s => s.vbump (e.core / 8) (VEC_CNT_LM_CONFLICT_COUNT (e.core / 8))
    (lmExtra form (strideOf (t.s f.vx)).natAbs (es.map (·.2))))

/-- The codewords that a list of elements of `n` bytes lies in (R267). -/
def eltCws (n : Nat) (es : List (Nat × Nat)) : List Nat := distinct (es.flatMap (fun x => cwAddrs x.2 n))

/-- Read the codewords that a list of elements lies in, one request each; their bytes by codeword address. -/
def eReadCws (e : VEnv) (n : Nat) (es : List (Nat × Nat)) : Eng (List (Nat × List Byte)) := do
  let cws := eltCws n es
  let mut out : List (Nat × List Byte) := []
  for a in cws do
    let bs ← eRead e.rq a 32
    out := out ++ [(a, bs)]
  eMod (fun s => s.vbump (e.core / 8) (VEC_CNT_DEV_RD_COUNT (e.core / 8)) cws.length)
  return out

/-- An element out of codewords that were read. -/
def eltIn (cws : List (Nat × List Byte)) (a n : Nat) : Nat :=
  match cws.find? (fun c => c.1 == a / 32 * 32) with
  | some c => u c.2 (a % 32) n
  | none => 0

/-- A loaded element in a lane (R259): a float widens to FP32, an integer to INT32. -/
def widen (ty x : Nat) : Nat :=
  if isInt ty then unsgn 32 (roundInt 1 (decElt ty x)) else f32 (decElt ty x)

/-- Cells of a loaded register: each lane its widened element, or both halves of packed positions. -/
def loadCells (t : ThrSt) (f : MFmt) (vals : List (Nat × Nat)) : List (Nat × Word32) :=
  if f.pack then
    (distinct (vals.map (fun p => p.1 % 32))).map (fun i =>
      (32 * f.d + i, BitVec.ofNat 32 (vals.foldl (fun x p =>
        if p.1 % 32 = i then putBits x (16 * (p.1 / 32)) 16 p.2 else x) (t.v f.d i))))
  else vals.map (fun p => (32 * f.d + p.1, BitVec.ofNat 32 (widen f.ty p.2)))

/-- Loaded data go into their registers. -/
def ThrSt.putCells (t : ThrSt) (l : List (Nat × Word32)) : ThrSt :=
  { t with vr := l.foldl (fun m c => mset word0 m c.1 c.2) t.vr, err := l.foldl (fun m c => mdel c.1 m) t.err }

/-- The data of the oldest outstanding load go into the registers. -/
def ThrSt.land (t : ThrSt) : ThrSt :=
  match t.loads with
  | [] => t
  | l :: ls => { t with loads := ls }.putCells l.2
/-- LD: local data at once; device data when they return (R267). -/
def opLd (form : Nat) (f : MFmt) : VOp := fun e t w => do
  let n := fmtBits f.ty / 8
  let es := t.elems f form
  vCheck f w es
  if f.space = 0 then
    eLmCount e t f form es
    let w ← eLmWords e w es
    return (t.putCells (loadCells t f (es.map (fun (i, a) => (i, w.lmGet a n)))), w)
  else
    let cws ← eReadCws e n es
    return ({ t with loads := t.loads ++ [(cws.length, loadCells t f (es.map (fun (i, a) => (i, eltIn cws a n))))] }, w)

/-- The element that a lane stores: converted by R87 with RNE and SAT = 1, or raw in packed form. -/
def ThrSt.stElt (t : ThrSt) (f : MFmt) (i : Nat) : Nat :=
  if f.pack then t.v f.d (i % 32) / 65536 ^ (i / 32) % 65536
  else encFmt f.ty 0 true (decElt (if isInt f.ty then 4 else 9) (t.v f.d i))

/-- Inside the declared output ranges (R263). -/
def Kern.declares (k : Kern) (a n : Nat) : Bool := k.outs.any (fun o => decide (o.1 ≤ a) && decide (a + n ≤ o.1 + o.2))

/-- Maximal runs of listed bytes of a codeword. -/
def byteRuns (m : List (Nat × Byte)) (cw : Nat) : List (Nat × List Byte) :=
  (List.range 32).foldl (fun rs i =>
    match m.find? (fun b => b.1 == cw + i) with
    | none => rs
    | some b =>
      match rs.getLast? with
      | some r => if r.1 + r.2.length = cw + i then rs.dropLast ++ [(r.1, r.2 ++ [b.2])] else rs ++ [(cw + i, [b.2])]
      | none => [(cw + i, [b.2])]) []

/-- Store elements given in lane order; for one byte the highest lane's value stands (R264). One request per codeword. -/
def eStore (e : VEnv) (n : Nat) (es : List (Nat × Nat)) : Eng Unit := do
  let bytes := (es.flatMap (fun (a, x) => ((List.range n).zip (leBytes n x)).map (fun (j, b) => (a + j, b)))).reverse
  let cws := distinct (es.flatMap (fun x => cwAddrs x.1 n))
  for cw in cws do
    for (a, bs) in byteRuns bytes cw do
      eWrite e.rq false 0 a bs
  eMod (fun s => s.vbump (e.core / 8) (VEC_CNT_DEV_WR_COUNT (e.core / 8)) cws.length)

/-- ST. -/
def opSt (form : Nat) (f : MFmt) : VOp := fun e t w => do
  let n := fmtBits f.ty / 8
  let es := t.elems f form
  vCheck f w es
  let vals := es.map (fun (i, a) => (a, t.stElt f i))
  if f.space = 0 then
    eLmCount e t f form es
    let w ← if n < 4 then eLmWords e w es else pure w
    return (t, vals.foldl (fun w (a, x) => w.lmPut a n x) w)
  else
    if es.any (fun x => !e.k.declares x.2 n) then vFault 0xA7
    eStore e n vals
    return (t, w)

/-- An atomic in ascending lane order; each lane receives the value before its own update (R264). `g` takes the old value,
v[D] and v[D + 1]. -/
def opAtom (g : Nat → Nat → Nat → Nat → Nat) (f : MFmt) : VOp := fun e t w => do
  let es := t.elems f 2
  vCheck f w es
  if f.space = 0 then
    eLmCount e t f 2 es
    let w ← eLmWords e w es
    let r := es.foldl (fun (p : WgSt × List (Nat × Nat)) (x : Nat × Nat) =>
      let old := p.1.lmGet x.2 4
      (p.1.lmPut x.2 4 (g f.ty old (t.v f.d x.1) (t.v (f.d + 1) x.1)), p.2 ++ [(x.1, old)])) (w, [])
    return (r.2.foldl (fun t (i, x) => t.putV f.d i x) t, r.1)
  else
    if es.any (fun x => !e.k.declares x.2 4 || spaceOf x.2 != .spd) then vFault 0xA7
    let mut olds : List (Nat × Nat) := []
    for (i, a) in es do
      let bs ← eRead e.rq a 4
      eWrite e.rq false 0 a (leBytes 4 (g f.ty (leNat bs) (t.v f.d i) (t.v (f.d + 1) i)))
      olds := olds ++ [(i, leNat bs)]
    let n := (distinct (es.map (fun x => x.2 / 32))).length
    eMod (fun s => (s.vbump (e.core / 8) (VEC_CNT_DEV_RD_COUNT (e.core / 8)) n).vbump (e.core / 8)
      (VEC_CNT_DEV_WR_COUNT (e.core / 8)) n)
    return (olds.foldl (fun t (i, x) => t.putV f.d i x) t, w)

/-! ### TEX (R300, R303) -/

/-- The entry of the launch's table; one that breaks R300 is reported when first used. -/
def eTexEntry (e : VEnv) (f : TFmt) : Eng Tex := do
  if e.k.textab = 0 then vFault 0xA0
  let bs ← eRead e.rq (e.k.textab + 64 * f.tex) 64
  if texOk bs then return texOf bs else eFail 0xAA (f.tex + e.k.textab * 65536)

/-- Write the four channels of the acting lanes. -/
def putTexels (t : ThrSt) (d : Nat) (vals : List (Nat × List Nat)) : ThrSt :=
  vals.foldl (fun t (i, c) => (List.range 4).foldl (fun t j => t.putV (d + j) i (nth 0 c j)) t) t

/-- SAMPLE, or SAMPLE_L with the level in v[U + 3]. -/
def opSample (explicit : Bool) (f : TFmt) : VOp := fun e t w => do
  let x ← eTexEntry e f
  let act := t.acting f.mask f.mneg
  let mut vals : List (Nat × List Nat) := []
  let mut n := 0
  for i in act do
    let q := i / 4 * 4
    let dif (r b : Nat) (size : Nat) : Val :=
      vmul (vsub (ofF32 (t.v r b)) (ofF32 (t.v r q))) (Val.ofInt (size : Int))
    let lod := (if explicit then lodFix (t.v (f.u + 3) i)
      else lodOf (dif f.u (q + 1) x.w) (dif (f.u + 1) (q + 1) x.h) (dif f.u (q + 2) x.w) (dif (f.u + 1) (q + 2) x.h)) +
        lodFix x.bias
    let (c, k) ← x.filtered e.rq e.core (t.v f.u i) (t.v (f.u + 1) i) (t.v (f.u + 2) i) lod
    vals := vals ++ [(i, c)]
    n := n + k
  let total := n
  eMod (fun s => s.vbump (e.core / 8) (VEC_CNT_TEXEL_COUNT (e.core / 8)) total)
  return (putTexels t f.d vals, w)

/-- FETCH: INT32 coordinates, layer and level; zero out of range. -/
def opFetch (f : TFmt) : VOp := fun e t w => do
  let x ← eTexEntry e f
  let mut vals : List (Nat × List Nat) := []
  for i in t.acting f.mask f.mneg do
    let cx := sgn 32 (t.v f.u i)
    let cy := sgn 32 (t.v (f.u + 1) i)
    let cz := sgn 32 (t.v (f.u + 2) i)
    let cl := sgn 32 (t.v (f.u + 3) i)
    let l := cl.toNat
    if 0 ≤ cl ∧ cl < x.levels ∧ 0 ≤ cz ∧ cz < x.layers ∧ 0 ≤ cx ∧ cx < levelSize x.w l ∧ 0 ≤ cy ∧ cy < levelSize x.h l then
      let c ← x.texel e.rq e.core cx.toNat cy.toNat cz.toNat l
      vals := vals ++ [(i, c)]
    else vals := vals ++ [(i, [0, 0, 0, 0])]
  return (putTexels t f.d vals, w)

/-! ### BR and MASK (R259) -/

/-- Jump by OFF from the branch itself. -/
def jumpBy (f : BFmt) (t : ThrSt) : ThrSt := { t with pc := ((t.pc : Int) - 1 + f.off.toInt).toNat }

def opBr (p : Nat → Nat → Bool) (f : BFmt) : VOp := vPure (fun t => if p (t.s f.sa) (t.s f.sb) then jumpBy f t else t)
def opBrMask (p : Nat → Bool) (f : BFmt) : VOp := vPure (fun t => if p (t.m (f.sa % 8)) then jumpBy f t else t)
def opJal (f : BFmt) : VOp := vPure (fun t => jumpBy f (t.putS f.sa t.pc))

/-- JR: a target outside the code is an illegal instruction (R268). -/
def opJr (f : BFmt) : VOp := fun e t w =>
  if e.k.code ≤ t.s f.sa then vFault 0xA0 else return ({ t with pc := t.s f.sa }, w)

def opMask (g : Nat → Nat → Nat) (f : RFmt) : VOp := vPure (fun t => t.putM f.d (g (t.m f.a) (t.m f.b)))
def opMaskS (g : Nat → Nat) (f : RFmt) : VOp := vPure (fun t => t.putS f.d (g (t.m f.a)))

/-- The lowest set lane, or 32. -/
def lowLane (m : Nat) : Nat := (lowBit 32 m).getD 32

/-! ### The operation of an instruction -/

def ones : Nat := 0xFFFFFFFF

def vecOp : Instr → VOp
  | .vecEnd _ _ => opEnd
  | .vecBar _ _ => opBar
  | .vecSread _ f => opSread f
  | .vecLaneid _ f => opLaneid f
  | .vecTrap _ f => opTrap f
  | .saluAdd _ f => opSalu (fun a b => (a + b) % 2 ^ 32) f
  | .saluSub _ f => opSalu (fun a b => mod32 (a - b)) f
  | .saluMul _ f => opSalu (fun a b => a * b % 2 ^ 32) f
  | .saluMulh _ f => opSalu (mulHi 32) f
  | .saluAnd _ f => opSalu Nat.land f
  | .saluOr _ f => opSalu Nat.lor f
  | .saluXor _ f => opSalu Nat.xor f
  | .saluMov _ f => opSalu (fun _ b => b) f
  | .saluShl _ f => opSalu (shift 0 32) f
  | .saluShr _ f => opSalu (shift 1 32) f
  | .saluSra _ f => opSalu (shift 2 32) f
  | .saluSlt _ f => opSalu (fun a b => b2n (decide (sgn 32 a < sgn 32 b))) f
  | .saluSltu _ f => opSalu (fun a b => b2n (decide (a < b))) f
  | .saluMin _ f => opSalu (minMax false 4) f
  | .saluMax _ f => opSalu (minMax true 4) f
  | .valuAdd _ f => opValu addTy f
  | .valuSub _ f => opValu (arith (· - ·) vsub) f
  | .valuMul _ f => opValu (arith (· * ·) vmul) f
  | .valuMin _ f => opValu (minMax false) f
  | .valuMax _ f => opValu (minMax true) f
  | .valuAbs _ f => opValu (fun ty a _ => absolute ty a) f
  | .valuNeg _ f => opValu (fun ty a _ => negate ty a) f
  | .valuAdds _ f => opValu (satArith false) f
  | .valuSubs _ f => opValu (satArith true) f
  | .valuMulhi _ f => opValu (fun ty => mulHi (tyBits ty)) f
  | .valuAnd _ f => opValu (fun _ => Nat.land) f
  | .valuOr _ f => opValu (fun _ => Nat.lor) f
  | .valuXor _ f => opValu (fun _ => Nat.xor) f
  | .valuShl _ f => opValu (fun ty => shift 0 (tyBits ty)) f
  | .valuShr _ f => opValu (fun ty => shift 1 (tyBits ty)) f
  | .valuSra _ f => opValu (fun ty => shift 2 (tyBits ty)) f
  | .valuMov _ f => opValu (fun _ a _ => a) f
  | .valuSel _ f => opSel f
  | .valuRint _ f => opValu (fun ty a _ => rint ty a) f
  | .vfmaFma _ f => opVfma f.ty (fma false false f.ty) f
  | .vfmaFms _ f => opVfma f.ty (fma false true f.ty) f
  | .vfmaFnma _ f => opVfma f.ty (fma true false f.ty) f
  | .vfmaMad _ f => opVfma f.ty (mad f.ty) f
  | .vfmaDp4 _ f => opVfma 4 (dp4 (f.ty == 2) f.bU) f
  | .vcmpEq _ f => opVcmp (cmpOf (fun a b => decide (a = b)) veq) f
  | .vcmpNe _ f => opVcmp (cmpOf (fun a b => decide (a ≠ b)) (fun a b => !veq a b)) f
  | .vcmpLt _ f => opVcmp (cmpOf (fun a b => decide (a < b)) vlt) f
  | .vcmpLe _ f => opVcmp (cmpOf (fun a b => decide (a ≤ b)) (fun a b => vlt a b || veq a b)) f
  | .vcmpGt _ f => opVcmp (cmpOf (fun a b => decide (b < a)) (fun a b => vlt b a)) f
  | .vcmpGe _ f => opVcmp (cmpOf (fun a b => decide (b ≤ a)) (fun a b => vlt b a || veq a b)) f
  | .vcmpLtu _ f => opVcmp (fun _ a b => decide (a < b)) f
  | .vcmpGeu _ f => opVcmp (fun _ a b => decide (b ≤ a)) f
  | .vcmpIsnan _ f => opVcmp (fun ty a _ => (decElt ty a).isNan) f
  | .vcvtConvert _ f => opVcvt f
  | .vxlRadd _ f => opRadd f
  | .vxlRmin _ f => opRed false f
  | .vxlRmax _ f => opRed true f
  | .vxlScan _ f => opScan f
  | .vxlPerm _ f => opLanes (fun t i => some (nth 0 (t.src f.sB f.b) i % 32)) f
  | .vxlBcast _ f => opLanes (fun t _ => some (t.s f.b % 32)) f
  | .vxlExtract _ f => opExtract f
  | .vxlShiftup _ f => opLanes (fun t i => if i < t.s f.b then none else some (i - t.s f.b)) f
  | .vxlCompress _ f => opCompress f
  | .vxlSort _ f => opSort f
  | .vtransExp _ f => opVtrans (expF32 32) f
  | .vtransExp2 _ f => opVtrans exp2F32 f
  | .vtransLog2 _ f => opVtrans log2F32 f
  | .vtransRcp _ f => opVtrans (rcpF32 35) f
  | .vtransRsqrt _ f => opVtrans rsqrtF32 f
  | .vtransSqrt _ f => opVtrans sqrtF32 f
  | .vtransSin _ f => opVtrans (trigF32 false) f
  | .vtransCos _ f => opVtrans (trigF32 true) f
  | .vtransTanh _ f => opVtrans tanhF32 f
  | .ldUnit _ f => opLd 0 f
  | .ldStrided _ f => opLd 1 f
  | .ldGather _ f => opLd 2 f
  | .ldBroadcast _ f => opLd 3 f
  | .stUnit _ f => opSt 0 f
  | .stStrided _ f => opSt 1 f
  | .stScatter _ f => opSt 2 f
  | .atomAdd _ f => opAtom (fun ty o x _ => addTy ty o x) f
  | .atomMin _ f => opAtom (fun ty o x _ => minMax false ty o x) f
  | .atomMax _ f => opAtom (fun ty o x _ => minMax true ty o x) f
  | .atomAnd _ f => opAtom (fun _ o x _ => Nat.land o x) f
  | .atomOr _ f => opAtom (fun _ o x _ => Nat.lor o x) f
  | .atomXor _ f => opAtom (fun _ o x _ => Nat.xor o x) f
  | .atomExch _ f => opAtom (fun _ _ x _ => x) f
  | .atomCas _ f => opAtom (fun _ o x y => if o = x then y else o) f
  | .texSample _ f => opSample false f
  | .texSampleL _ f => opSample true f
  | .texFetch _ f => opFetch f
  | .brJmp _ f => opBr (fun _ _ => true) f
  | .brBeq _ f => opBr (fun a b => a == b) f
  | .brBne _ f => opBr (fun a b => a != b) f
  | .brBlt _ f => opBr (fun a b => decide (sgn 32 a < sgn 32 b)) f
  | .brBge _ f => opBr (fun a b => decide (sgn 32 b ≤ sgn 32 a)) f
  | .brBltu _ f => opBr (fun a b => decide (a < b)) f
  | .brBgeu _ f => opBr (fun a b => decide (b ≤ a)) f
  | .brBany _ f => opBrMask (fun m => m != 0) f
  | .brBnone _ f => opBrMask (fun m => m == 0) f
  | .brBall _ f => opBrMask (fun m => m == ones) f
  | .brJal _ f => opJal f
  | .brJr _ f => opJr f
  | .maskMand _ f => opMask Nat.land f
  | .maskMor _ f => opMask Nat.lor f
  | .maskMxor _ f => opMask Nat.xor f
  | .maskMandn _ f => opMask (fun a b => Nat.land a (Nat.xor b ones)) f
  | .maskMnot _ f => opMask (fun a _ => Nat.xor a ones) f
  | .maskMtos _ f => opMaskS id f
  | .maskStom _ f => vPure (fun t => t.putM f.d (t.s f.a))
  | .maskMpop _ f => opMaskS (popc 32) f
  | .maskMfirst _ f => opMaskS lowLane f
  | _ => nop

/-- Acting lanes that a vector instruction counts (R281); none for the classes without predication. -/
def ThrSt.laneCount (t : ThrSt) : Instr → Nat
  | .valuAdd _ f | .valuSub _ f | .valuMul _ f | .valuMin _ f | .valuMax _ f | .valuAbs _ f | .valuNeg _ f
  | .valuMov _ f | .valuAdds _ f | .valuSubs _ f | .valuMulhi _ f | .valuAnd _ f | .valuOr _ f | .valuXor _ f
  | .valuShl _ f | .valuShr _ f | .valuSra _ f | .valuRint _ f => (t.aluAct f).length
  | .valuSel _ f | .vfmaFma _ f | .vfmaFms _ f | .vfmaFnma _ f | .vfmaMad _ f | .vfmaDp4 _ f
  | .vcmpEq _ f | .vcmpNe _ f | .vcmpLt _ f | .vcmpLe _ f | .vcmpGt _ f | .vcmpGe _ f | .vcmpLtu _ f | .vcmpGeu _ f
  | .vcmpIsnan _ f | .vcvtConvert _ f | .vxlRadd _ f | .vxlRmin _ f | .vxlRmax _ f | .vxlExtract _ f
  | .vxlScan _ f | .vxlBcast _ f | .vxlShiftup _ f | .vxlCompress _ f | .vxlPerm _ f | .vxlSort _ f
  | .vtransExp _ f | .vtransExp2 _ f | .vtransLog2 _ f | .vtransRcp _ f | .vtransRsqrt _ f | .vtransSqrt _ f
  | .vtransSin _ f | .vtransCos _ f | .vtransTanh _ f => (t.acting f.mask f.mneg).length
  | .ldUnit _ f | .ldStrided _ f | .ldBroadcast _ f | .stUnit _ f | .stStrided _ f
  | .ldGather _ f | .stScatter _ f | .atomAdd _ f | .atomMin _ f | .atomMax _ f | .atomAnd _ f | .atomOr _ f
  | .atomXor _ f | .atomExch _ f | .atomCas _ f => (t.acting f.mask f.mneg).length
  | .texSample _ f | .texSampleL _ f | .texFetch _ f => (t.acting f.mask f.mneg).length
  | .vecLaneid _ _ => 32
  | _ => 0

/-! ### Fetch and issue -/

/-- The two words of an instruction in a line of the cache: corrected ones are counted, and a line with an uncorrectable one is
dropped, to be fetched again, and counted (R247). -/
def State.checkLine (s : State) (core ctx a : Nat) : State :=
  let ls := s.cache (64 + core)
  let here (l : CLine) : Bool := l.ctx == ctx && l.addr == a / 64 * 64
  match ls.find? here with
  | none => s
  | some l =>
    let count (s : State) (n : Nat) : State := s.vbump (core / 8) (VEC_CNT_CORR_COUNT (core / 8)) n
    match secded l.err [a % 64 / 4, a % 64 / 4 + 1] with
    | none => count (s.setCache (64 + core) (ls.filter (fun x => !here x))) 1
    | some (_, 0) => s
    | some (m, n) => count (s.setCache (64 + core) (ls.map (fun x => if here x then { x with err := m } else x))) n

/-- The word at the thread's PC through the instruction cache (R269): 512 lines of 64 bytes. -/
def eFetch (e : VEnv) (t : ThrSt) : Eng Nat := do
  if e.k.code ≤ t.pc then vFault 0xA0
  let a := e.k.image + 64 + 8 * t.pc
  eMod (fun s => s.checkLine e.core e.rq.ctx a)
  let (bs, miss) ← cacheRead (64 + e.core) 512 1 e.rq.ctx (a / 64 * 64) (eRead e.rq (a / 64 * 64) 64)
  if miss then eMod (fun s => s.vbump (e.core / 8) (VEC_CNT_ICACHE_MISS_COUNT (e.core / 8)) 1)
  return u bs (a % 64) 8

/-- The DETAIL of a fault of R275. -/
def vecDetail (e : VEnv) (pc trap : Nat) : Nat := pc + e.core * 2 ^ 32 + e.slot * 2 ^ 37 + trap * 2 ^ 48

/-- Can the instruction issue: its registers hold their data, and a FENCE of device memory finds no access outstanding
(R251, R267)? -/
def ThrSt.ready (t : ThrSt) (i : Instr) : Bool :=
  (match i with
   | .vecFence _ f => !bitOf f.imm.toNat 1 || t.loads.isEmpty
   | _ => true) &&
  t.loads.all (fun l => l.2.all (fun c => !(vecRegs i).contains (c.1 / 32)))

/-- Codeword requests that an instruction makes of device memory. -/
def ThrSt.requests (t : ThrSt) : Instr → Nat
  | .ldUnit _ f => if f.space = 0 then 0 else (eltCws (fmtBits f.ty / 8) (t.elems f 0)).length
  | .ldStrided _ f => if f.space = 0 then 0 else (eltCws (fmtBits f.ty / 8) (t.elems f 1)).length
  | .ldGather _ f => if f.space = 0 then 0 else (eltCws (fmtBits f.ty / 8) (t.elems f 2)).length
  | .ldBroadcast _ f => if f.space = 0 then 0 else (eltCws (fmtBits f.ty / 8) (t.elems f 3)).length
  | .stUnit _ f => if f.space = 0 then 0 else (eltCws (fmtBits f.ty / 8) (t.elems f 0)).length
  | .stStrided _ f => if f.space = 0 then 0 else (eltCws (fmtBits f.ty / 8) (t.elems f 1)).length
  | .stScatter _ f | .atomAdd _ f | .atomMin _ f | .atomMax _ f | .atomAnd _ f | .atomOr _ f | .atomXor _ f | .atomExch _ f
  | .atomCas _ f => if f.space = 0 then 0 else (eltCws (fmtBits f.ty / 8) (t.elems f 2)).length
  | _ => 0

/-- Issue of one decoded instruction: counters, budget (R275), the registers it reads (R247), effect. -/
def eIssue (e : VEnv) (i : Instr) (t : ThrSt) (w : WgSt) : Eng (ThrSt × WgSt) := do
  let k := e.core / 8
  if e.k.budget ≠ 0 ∧ e.k.budget * 1024 < w.issued + 1 then vFault 0xA5
  eMod (fun s => (s.vbump k (VEC_CNT_ISSUE_COUNT k) 1).vbump k (VEC_CNT_LANES_COUNT k) (t.laneCount i))
  let m ← eWords e.core t.err (vecReads i)
  vecOp i e { t with pc := t.pc + 1, err := m } { w with issued := w.issued + 1 }

/-! ### Launch state -/

def thr0 : Nat → Option ThrSt := fun _ => none

def State.thread (s : State) (t : Thr) : Option ThrSt := mget thr0 s.thr (8 * t.core + t.slot)
def State.setThread (s : State) (core slot : Nat) (x : Option ThrSt) : State :=
  { s with thr := mset thr0 s.thr (8 * core + slot) x }

def State.kern? (s : State) (d : Nat) : Option Kern := s.kerns.find? (fun k => k.desc == d)

def State.wg? (s : State) (t : Thr) : Option WgSt := s.wgs.find? (fun w => w.core == t.core && w.slots.contains t.slot)

def State.setWg (s : State) (w : WgSt) : State :=
  { s with wgs := s.wgs.map (fun x => if x.core = w.core ∧ x.slots = w.slots then w else x) }

/-- VEC_STATUS of cluster `k` as its slots stand (R278). -/
def State.refreshVec (s : State) (k : Nat) : State :=
  let run (w : WgSt) : Bool := match s.desc? w.desc with
    | some d => d.parts.any (fun p => p.isl == 4 + k && (p.st == .running || p.st == .stopping))
    | none => false
  let here := s.wgs.filter (fun w => w.core / 8 == k)
  let mask (p : WgSt → Bool) : Nat := (List.range 8).foldl (fun m j =>
    if here.any (fun w => w.core % 8 == j && p w) then m + 2 ^ j else m) 0
  ((s.put (VEC_STATUS_BUSY k) (mask run)).put (VEC_STATUS_STOPPED k) (mask (fun w => !run w))).put
    (VEC_STATUS_SLOTS_HELD k) (here.foldl (fun n w => n + w.slots.length) 0)

def State.refreshVecs (s : State) : State := (List.range 4).foldl State.refreshVec s

/-- Remove every thread and workgroup of a launch, and what a pass holds. -/
def State.dropLaunch (s : State) (d : Nat) : State :=
  { s with passes := s.passes.filter (fun x => x.desc != d)
           kerns := s.kerns.filter (fun k => k.desc != d)
           wgs := s.wgs.filter (fun w => w.desc != d)
           thr := s.thr.filter (fun e => (match e.2 with
             | some t => t.desc != d
             | none => true)) }.refreshVecs

/-- The error log of a cluster (R282); a secure descriptor leaves STATUS and TIME (R457). -/
def State.vecLog (s : State) (d : Desc) (k code detail : Nat) : State :=
  let sec := s.secureDesc d
  let s := ((s.put (VEC_ERR_LOG0_DETAIL k) (if sec then 0 else detail % 2 ^ 40)).put (VEC_ERR_LOG0_STATUS k) code).put
    (VEC_ERR_LOG0_CTX k) (if sec then 0 else s.ctxOf d)
  let s := s.put (VEC_ERR_LOG1_TIME k) s.beacon
  if sec then s else s.emitError (4 + k) (0x700000 + k * 0x10000) (s.reg (VEC_ERR_LOG0 k)).toNat

/-- A fault ends the launch (R275). -/
def State.launchFail (s : State) (d : Desc) (k code detail : Nat) : State :=
  let s := if 0xA0 ≤ code ∧ code ≤ 0xA7 then s.vbump k (VEC_CNT_TRAP_COUNT k) 1 else s
  ((s.vecLog d k code detail).dropLaunch d.id).setResults d.id
    (d.parts.map (fun p => if p.isl = 4 + k then (p.isl, code, detail) else (p.isl, 0, 0)))

/-- The launch completes when its last workgroup has ended (R272). -/
def State.launchEnd (s : State) (d : Nat) : State :=
  match s.kern? d with
  | none => s
  | some k =>
    if k.next < k.gx * k.gy * k.gz ∨ s.wgs.any (fun w => w.desc == d) then s
    else match s.desc? d with
      | none => s
      | some x => (s.dropLaunch d).setResults d (x.parts.map (fun p => (p.isl, 0, 0)))

/-- After an instruction: a BAR that every live thread has reached opens; a workgroup whose threads have all ended frees
its slots, cleared before (R455); that is the cluster's progress (R579). -/
def State.settleWg (s : State) (w : WgSt) : State :=
  let ts := w.slots.map (fun sl => s.thread ⟨w.core, sl⟩)
  let live := ts.filterMap (fun t => t.bind (fun x => if x.ended then none else some x))
  if live.isEmpty then
    let s := w.slots.foldl (fun s sl => s.setThread w.core sl none) s
    let s := s.updDesc w.desc (fun d => { d with parts := d.parts.map (fun (p : Part) =>
      if p.isl = 4 + w.core / 8 then { p with progC := s.c } else p) })
    ({ s with wgs := s.wgs.filter (fun x => !(x.core == w.core && x.slots == w.slots)) }.launchEnd w.desc).refreshVec (w.core / 8)
  else if live.all (fun t => t.bar) then
    w.slots.foldl (fun s sl => match s.thread ⟨w.core, sl⟩ with
      | some t => s.setThread w.core sl (some { t with bar := false })
      | none => s) s
  else s

/-- The thread in a slot that its descriptor lets issue, with all that belongs to it. -/
def State.issuing (s : State) (t : Thr) : Option (ThrSt × WgSt × VEnv) :=
  match s.thread t with
  | none => none
  | some x =>
    match s.desc? x.desc, s.wg? t, s.kern? x.desc with
    | some d, some w, some k =>
      if !x.bar && !x.ended && d.parts.any (fun p => p.isl == 4 + t.core / 8 && (p.st == .running || p.st == .stopping)) then
        some (x, w, ⟨s.mreq d (4 + t.core / 8), t.core, t.slot, k, d⟩)
      else none
    | _, _, _ => none

/-- Codeword requests of a core's threads that are outstanding (R240). -/
def State.coreReqs (s : State) (core : Nat) : Nat :=
  (List.range 8).foldl (fun n sl => match s.thread ⟨core, sl⟩ with
    | some t => t.loads.foldl (fun n l => n + l.1) n
    | none => n) 0

/-- The instruction of a command, when it is the one that the thread's PC holds: none while it must wait, for its registers or for
room among the core's 64 requests, or where the image holds another one. -/
def eThreadStep (t : Thr) (i : Instr) (op : VEnv → Instr → ThrSt → WgSt → Eng (ThrSt × WgSt)) (x : ThrSt) (w : WgSt)
    (e : VEnv) : Eng (Option (ThrSt × WgSt)) := do
  let word ← eFetch e x
  match vecDecode x.pc e.k.code word t with
  | none => vFault 0xA0
  | some j =>
    let s ← eGet
    if j ≠ i ∨ !x.ready i ∨ (x.requests i ≠ 0 ∧ 64 < s.coreReqs t.core + x.requests i) then return none
    let r ← op e i x w
    return some r

/-- Thread `t` issues instruction `i` (R267). Nothing happens unless the thread can issue and its image holds that
instruction at its PC; an illegal word there fails the launch (R249). -/
def State.issue (s : State) (t : Thr) (i : Instr) : State :=
  match (if s.clkOff.isEmpty then s.issuing t else none) with
  | none => s
  | some (x, w, e) =>
    match (eThreadStep t i eIssue x w e).run.run s with
    | (.ok none, _) => s
    | (.ok (some (x1, w1)), s1) =>
      ((s1.setThread t.core t.slot (some x1)).setWg w1).settleWg w1
    | (.error .wait, s1) => s.keepRequests s1
    | (.error (.fail c y), s1) =>
      let y := if 0xA0 ≤ c ∧ c ≤ 0xA7 then vecDetail e x.pc y else y
      s1.launchFail e.d (t.core / 8) c y

/-! ### VEC_LAUNCH (R268, R271 to R273) -/

def launchFields : List FieldAt :=
  [(0, 0, 48), (8, 0, 48), (16, 0, 48), (24, 0, 32), (28, 0, 24), (32, 0, 7), (36, 0, 32), (64, 0, 48), (72, 0, 32),
   (80, 0, 48), (88, 0, 32), (96, 0, 48), (104, 0, 32), (112, 0, 48), (120, 0, 32)]

/-- Declared output ranges of a launch. -/
def launchOuts (pb : List Byte) : List (Nat × Nat) :=
  (List.range 4).filterMap (fun i =>
    let n := u pb (72 + 16 * i) 4
    if n = 0 then none else some (bitsOf (u pb (64 + 16 * i) 8) 0 48, n))

/-- A range wholly in scratchpad or in the DRAM range. -/
def inSpdDram (a n : Nat) : Bool := decide (a + n ≤ spdEnd) || (decide (dramBase ≤ a) && decide (a + n ≤ dramEnd))

def launchThreads (pb : List Byte) : Nat := bitsOf (u pb 28 4) 16 4
def launchClusters (pb : List Byte) : Nat := bitsOf (u pb 28 4) 20 4

/-- The clusters present. -/
def State.clustersPresent (s : State) : List Nat := (List.range 4).filter (fun k => !s.isRetired (4 + k))

/-- Clusters that firmware may choose for a context: of its share and present; the one of its last work comes first. -/
def State.clusterChoice (s : State) (c : Nat) : List Nat :=
  let here := s.clustersPresent.filter (fun k => bitOf (s.get (VEC_CTX_SLOTS_CLUSTERS c)) k)
  match mget (fun _ => 4) s.lastCl c with
  | 4 => here
  | k => if here.contains k then k :: here.filter (· != k) else here

/-- The pre-dispatch check of VEC_LAUNCH. -/
def State.launchCheck (s : State) (d : Desc) (pb : List Byte) : Verdict :=
  let c := s.ctxOf d
  let th := launchThreads pb
  let cl := launchClusters pb
  let share := s.get (VEC_CTX_SLOTS_CLUSTERS c)
  let lm := bitsOf (u pb 32 4) 0 7
  let out (i : Nat) : List (Bool × Nat) :=
    let a := bitsOf (u pb (64 + 16 * i) 8) 0 48
    let n := u pb (72 + 16 * i) 4
    [(a % 32 != 0 || (n != 0 && !inSpdDram a n), 64 + 16 * i), (n % 32 != 0, 72 + 16 * i)]
  match minOff (reservedAt 0 128 launchFields pb) (firstBad ([
      (bitsOf (u pb 0 8) 0 48 % 64 != 0 || !operandOk (bitsOf (u pb 0 8) 0 48), 0), (u pb 24 2 == 0, 24), (u pb 26 2 == 0, 26),
      (u pb 28 2 == 0, 28), (th == 0 || decide (8 < th) || decide (s.get (VEC_CTX_SLOTS_SLOTS c) < th), 30),
      (Nat.land cl share != cl, 30), (decide (64 < lm) || decide (s.get (VEC_CTX_SLOTS_LM_4K c) < lm), 32)] ++
      out 0 ++ out 1 ++ out 2 ++ out 3)) with
  | some o => pbInvalid o
  | none =>
    let named := maskBits 4 cl
    match named.find? (fun k => s.isRetired (4 + k)) with
    | some k => .refuse 0x31 (4 + k) (launchOuts pb)
    | none =>
      if cl = 0 ∧ (s.clusterChoice c).isEmpty then .refuse 0x31 (4 + (lowBit 4 share).getD 0) (launchOuts pb)
      else .go { isls := named.map (· + 4), auto := if cl = 0 then 2 else 0, units := 0, outs := fun _ => launchOuts pb }

/-- Kernel image rules (R268): the header, and an image that lies in scratchpad or DRAM. -/
def imageBad (s : State) (im : Nat) (h : List Byte) : Bool :=
  !inSpdDram im (64 + 8 * u h 4 4) || u h 0 2 != 0x564B || u h 2 1 != 1 || decide (s.get VEC_ISA_MINOR < u h 3 1) || u h 4 4 == 0 ||
    decide (262144 < u h 4 4) || decide (u h 4 4 ≤ u h 8 4) || leNat (h.drop 12) != 0

def thrInit (d idx entry : Nat) : ThrSt := ⟨d, idx, entry, [], [], [], false, false, none, [], []⟩

/-- Slots and local-memory units that a context's workgroups hold on a core. -/
def State.shareUsed (s : State) (c core : Nat) : Nat × Nat :=
  (s.wgs.filter (fun w => w.core == core && (match s.desc? w.desc with
    | some d => s.ctxOf d == c
    | none => false))).foldl (fun (a : Nat × Nat) w => (a.1 + w.slots.length, a.2 + w.lm4k)) (0, 0)

/-- The lowest-numbered core of the running clusters of a launch with room in the context's share (R272). -/
def State.coreFor (s : State) (d : Desc) (k : Kern) : Option Nat :=
  let c := s.ctxOf d
  (List.range 32).find? (fun core =>
    d.parts.any (fun p => p.isl == 4 + core / 8 && p.st == .running) &&
    (let (sl, lm) := s.shareUsed c core
     decide (sl + k.threads ≤ s.get (VEC_CTX_SLOTS_SLOTS c)) && decide (lm + k.lm4k ≤ s.get (VEC_CTX_SLOTS_LM_4K c))))

/-- Start the next workgroup of a launch, if a core has room: cleared local memory and registers (R242, R246). -/
def State.startWg (s : State) (d : Nat) : State :=
  match s.desc? d, s.kern? d with
  | some x, some k =>
    if k.gx * k.gy * k.gz ≤ k.next ∨ x.effected then s else
    match s.coreFor x k with
    | none => s
    | some core =>
      let free := (List.range 8).filter (fun sl => (s.thread ⟨core, sl⟩).isNone)
      let slots := free.take k.threads
      if slots.length < k.threads then s else
      let n := k.next
      let s := ((List.range k.threads).zip slots).foldl (fun s (i, sl) => s.setThread core sl (some (thrInit d i k.entry))) s
      ({ s with wgs := s.wgs ++ [(⟨d, core, n % k.gx, n / k.gx % k.gy, n / (k.gx * k.gy), slots, [], k.lm4k, 0, []⟩ : WgSt)]
                kerns := s.kerns.map (fun (q : Kern) => if q.desc = d then { q with next := n + 1 } else q) }).refreshVec (core / 8)
  | _, _ => s

/-- Start workgroups while they fit. -/
def State.startWgs (s : State) (d : Nat) : Nat → State
  | 0 => s
  | n + 1 => (s.startWg d).startWgs d n

/-- The kernel of a launch, its image header checked. -/
def eKern (x : Desc) : Eng Kern := do
  let s ← eGet
  let pb ← eRead (s.mreq x 36) x.pbAddr (64 * x.pbLen)
  let im := bitsOf (u pb 0 8) 0 48
  let h ← eRead (s.mreq x (nth 4 x.isls 0)) im 64
  let s ← eGet
  if imageBad s im h then
    eMod (fun s => s.freshen 1)
    eFail 0xA6 (Config.freeNat s.fresh % 2 ^ 40)
  return ⟨x.id, im, u h 8 4, u h 4 4, bitsOf (u pb 8 8) 0 48, bitsOf (u pb 16 8) 0 48, u pb 24 2, u pb 26 2, u pb 28 2,
    launchThreads pb, bitsOf (u pb 32 4) 0 7, u pb 36 4, launchOuts pb, 0⟩

/-- VEC_LAUNCH: the header is checked and workgroups are placed. -/
def execVecLaunch (d : Nat) (s : State) : Out :=
  .next (match s.desc? d with
    | none => s
    | some x =>
      if !x.runnable 0x80 || !s.clkOff.isEmpty || (s.kern? d).isSome then s else
      match (eKern x).run.run s with
      | (.ok k, s1) =>
        let s1 := { s1 with kerns := s1.kerns ++ [k], lastCl := mset (fun _ => 4) s1.lastCl (s1.ctxOf x) (nth 4 x.isls 0 - 4) }
        s1.startWgs d (min 256 (k.gx * k.gy * k.gz))
      | (.error .wait, s1) => s.keepRequests s1
      | (.error (.fail c y), s1) => s1.launchFail x (nth 4 x.isls 0 - 4) c y)

/-- WORKGROUP_START. -/
def execWorkgroupStart (d : Nat) (s : State) : Out := .next (if s.clkOff.isEmpty then s.startWg d else s)

/-! ### VEC_ICACHE_INVAL (R270) and VEC_LOAD_RETURN (R267) -/

def State.icacheCheck (s : State) (d : Desc) : Verdict :=
  match minOff (reservedAt 16 48 [(16, 0, 2), (16, 8, 8)] d.bytes) (firstBad [(decide (2 ≤ d.u 16 1 % 4), 16)]) with
  | some o => malformed o
  | none => .go { isls := s.clustersPresent.map (· + 4), units := 0 }

/-- Drop instruction-cache lines. -/
def State.dropLines (s : State) (lo hi : Nat) (keep : CLine → Bool) : State :=
  let cs := s.caches.map (fun (e : Nat × List CLine) => if lo ≤ e.1 ∧ e.1 < hi then (e.1, e.2.filter keep) else e)
  { s with caches := cs.filter (fun e => !e.2.isEmpty) }

/-- What the engine of 0x81 does (see execVecIcacheInval). -/
def workVecIcacheInval (x : Desc) : Eng (List PartRes) := do
    let s ← eGet
    let f := s.qFn x.q
    let c := if f = 0 then x.u 17 1 else s.get (VIRT_FN_W1_CTXBASE f) + x.u 17 1
    eMod (fun s => x.todo.foldl (fun s i => s.dropLines (64 + 8 * (i - 4)) (72 + 8 * (i - 4))
      (fun l => x.u 16 1 % 4 == 1 && l.ctx != c)) s)
    return x.todo.map (fun i => (i, 0, 0))

/-- VEC_ICACHE_INVAL. -/
def execVecIcacheInval (d : Nat) (s : State) : Out := .next (s.runWork d 0x81 workVecIcacheInval)

/-- VEC_LOAD_RETURN. -/
def execVecLoadReturn (t : Thr) (s : State) : Out :=
  .next (match s.thread t with
    | some x => s.setThread t.core t.slot (some x.land)
    | none => s)

end Sys2Proof.Machine
end

