-- ==== Sys2Proof/Machine/Raster.lean ====
section
/-!
DEFINITION. Raster units: render passes (R283 to R299, R306 to R309), their bin pool (R290, R291), tiles and shader threads
(R288, R292 to R295), flushes (R296, R297), and the texture swizzle (R310).
-/

namespace Sys2Proof.Machine

/-! ### The parameter block (R307) -/

def passOf (pb : List Byte) : Pass :=
  let w36 := u pb 36 4
  let nt := bitsOf w36 18 3
  ⟨bitsOf (u pb 0 8) 0 48, bitsOf (u pb 8 8) 0 48, bitsOf (u pb 16 8) 0 48, bitsOf (u pb 24 8) 0 48,
   bitsOf (u pb 32 4) 0 13 + 1, bitsOf (u pb 32 4) 16 13 + 1, bitsOf w36 0 16, if bitOf w36 16 then 4 else 1, bitOf w36 17,
   nt, bitsOf w36 21 4, bitOf w36 25, bitOf w36 26, bitsOf (u pb 40 4) 0 24, u pb 44 4, u pb 48 4,
   (List.range (min 4 nt)).map (fun t =>
     let o := 64 + 32 * t
     let w := u pb (o + 12) 4
     ⟨bitsOf (u pb o 8) 0 48, u pb (o + 8) 4, bitsOf w 0 5, bitOf w 5, bitsOf w 6 2, bitOf w 8,
      (List.range 4).map (fun c => u pb (o + 16 + 4 * c) 4)⟩)⟩

def passFields (nt : Nat) : List FieldAt :=
  [(0, 0, 48), (8, 0, 48), (16, 0, 48), (24, 0, 48), (32, 0, 13), (32, 16, 13), (36, 0, 27), (40, 0, 24), (44, 0, 32), (48, 0, 32)] ++
    (List.range (min 4 nt)).flatMap (fun t => [(64 + 32 * t, 0, 48), (72 + 32 * t, 0, 32), (76 + 32 * t, 0, 9), (80 + 32 * t, 0, 128)])

/-- Tiles across and down (R284). -/
def Pass.tw (p : Pass) : Nat := cdiv p.w 32
def Pass.th (p : Pass) : Nat := cdiv p.h 32

/-- Bytes of one sample of a target in its internal format (R295). -/
def tgtSample (fmt : Nat) : Nat := if fmt = 12 ∨ fmt = 13 then 16 else 8

/-- Bytes of a tile slot (R295), and the pitch of the flush area (R296). -/
def Pass.slot (p : Pass) : Nat :=
  1024 * p.ns * ((if p.dfmt then 4 else 0) + (p.tgts.map (fun t => tgtSample t.fmt)).foldl (· + ·) 0)
def Pass.pitch (p : Pass) : Nat := cdiv p.slot 4096 * 4096

/-- Directory chunks (R290). -/
def Pass.dirChunks (p : Pass) : Nat := cdiv (p.tw * p.th * 32) 256

/-- Bytes of the rows of a linear image. -/
def imageRows (a stride w h b : Nat) : Span := ⟨a, h, 1, stride, w * b, w * b⟩

/-- Bytes of a target, of the depth image, of the pool and of the flush area, with the byte of its address field. -/
def Pass.extents (p : Pass) : List (Span × Nat) :=
  [(Span.flat p.pool (256 * p.chunks), 0)] ++
    (if p.flush = 0 then [] else [(Span.flat p.flush (p.tw * p.th * p.pitch), 8)]) ++
    (if p.dload || p.dstore then [(imageRows p.depth p.dstride p.w p.h 4, 24)] else []) ++
    ((List.range p.tgts.length).zip p.tgts).map (fun (i, t) =>
      (if t.swz then Span.flat t.addr (levelBytes t.fmt 0 0 p.w p.h 0) else imageRows t.addr t.stride p.w p.h (texBlk t.fmt 0 0).1,
        64 + 32 * i))

/-- Lowest address field among those whose bytes another's meet. -/
def overlapAt : List (Span × Nat) → Option Nat
  | [] => none
  | x :: xs => minOff (firstBad (xs.map (fun y => (x.1.meets y.1, min x.2 y.2)))) (overlapAt xs)

/-- Declared outputs: the targets and the depth image that are stored. -/
def Pass.outs (p : Pass) : List (Nat × Nat) :=
  p.tgts.flatMap (fun t =>
    if !t.store then []
    else if t.swz then [(t.addr, levelBytes t.fmt 0 0 p.w p.h 0)]
    else (rowAddrsOf t.addr t.stride p.h).map (fun a => (a, p.w * (texBlk t.fmt 0 0).1))) ++
  (if p.dstore then (rowAddrsOf p.depth p.dstride p.h).map (fun a => (a, 4 * p.w)) else [])
where
  rowAddrsOf (a stride rows : Nat) : List Nat := (List.range rows).map (fun r => a + r * stride)

/-- The pre-dispatch check of GFX_PASS (R309). -/
def State.passCheck (s : State) (d : Desc) (pb : List Byte) : Verdict :=
  let p := passOf pb
  let c := s.ctxOf d
  let share := s.get (VEC_CTX_SLOTS_CLUSTERS c)
  let nu := if p.units = 0 then 1 else popc 4 p.units
  let tgt (i : Nat) (t : Tgt) : List (Bool × Nat) :=
    [(!operandOk t.addr, 64 + 32 * i), (t.swz && t.stride != 0, 72 + 32 * i),
     (decide (13 < t.fmt) || t.load == 3 || (t.load == 1 && p.ns != 1), 76 + 32 * i)]
  match minOff (minOff (reservedAt 0 192 (passFields p.ntgt) pb) (overlapAt p.extents)) (firstBad ([
      (p.pool % 256 != 0 || !operandOk p.pool, 0), (p.flush % 4096 != 0 || !operandOk p.flush, 8),
      (p.draws % 64 != 0, 16), ((p.depth != 0 && !(p.dload || p.dstore)) || !operandOk p.depth, 24), (p.n == 0, 36),
      (decide (4 < p.ntgt) || decide (131072 < p.slot) || Nat.land p.units share != p.units, 38),
      ((p.dload || p.dstore) && p.ns != 1, 39), (decide (p.chunks < p.dirChunks + 512 * nu), 40)] ++
      ((List.range p.tgts.length).zip p.tgts).flatMap (fun (i, t) => tgt i t))) with
  | some o => pbInvalid o
  | none =>
    let named := maskBits 4 p.units
    match named.find? (fun k => s.isRetired (4 + k)) with
    | some k => .refuse 0x31 (4 + k) p.outs
    | none =>
      if p.units = 0 ∧ (s.clusterChoice c).isEmpty then .refuse 0x31 (4 + (lowBit 4 share).getD 0) p.outs
      else .go { isls := named.map (· + 4), auto := if p.units = 0 then 2 else 0, units := 2, outs := fun _ => p.outs }

/-! ### Draw records (R308) -/

def drawOf (b : List Byte) : Draw :=
  let w48 := u b 48 4
  let w52 := u b 52 4
  ⟨bitsOf (u b 0 8) 0 48, bitsOf (u b 8 8) 0 48, bitsOf (u b 16 8) 0 48, bitsOf (u b 24 8) 0 48, bitsOf (u b 32 8) 0 48,
   u b 40 4, u b 44 4, bitsOf w48 0 16, bitsOf w48 16 6, bitOf w48 22, bitOf w48 23, bitsOf w48 24 2, bitOf w48 26,
   bitsOf w48 27 2, bitOf w48 29, bitsOf w52 0 3, bitsOf w52 3 7, bitsOf w52 10 7, bitsOf (u b 56 4) 0 14,
   bitsOf (u b 56 4) 16 14, bitsOf (u b 60 4) 0 14, bitsOf (u b 60 4) 16 14, (List.range 4).map (fun t => u b (64 + 4 * t) 4),
   (List.range 4).map (fun i => u b (80 + 4 * i) 4)⟩

def drawFields : List FieldAt :=
  [(0, 0, 48), (8, 0, 48), (16, 0, 48), (24, 0, 48), (32, 0, 48), (40, 0, 64), (48, 0, 30), (52, 0, 17), (56, 0, 14), (56, 16, 14),
   (60, 0, 14), (60, 16, 14), (64, 0, 27), (68, 0, 27), (72, 0, 27), (76, 0, 27), (80, 0, 128)]

/-- A blend word without reserved codes. -/
def blendOk (b : Nat) : Bool :=
  decide (bitsOf b 0 4 ≤ 9) && decide (bitsOf b 4 4 ≤ 9) && decide (bitsOf b 8 3 ≤ 4) && decide (bitsOf b 11 4 ≤ 9) &&
    decide (bitsOf b 15 4 ≤ 9) && decide (bitsOf b 19 3 ≤ 4)

/-- A record that ends the pass with DRAW_INVALID (R309). -/
def State.drawBad (s : State) (c : Nat) (bs : List Byte) : Bool :=
  let p := drawOf bs
  let lm := s.get (VEC_CTX_SLOTS_LM_4K c)
  (reservedAt 0 128 drawFields bs).isSome || p.inst == 0 || decide (32 < p.attrs) || p.cull == 3 || p.kind == 3 ||
    decide (p.vlm < 2 ∨ 64 < p.vlm ∨ lm < p.vlm) || decide (p.plm < 1 ∨ 64 < p.plm ∨ lm < p.plm) ||
    p.vs % 64 != 0 || p.ps % 64 != 0 || p.blend.any (fun b => !blendOk b) ||
    (p.kind == 0 && p.blend.any (fun b => bitOf b 22))

/-! ### Shader threads (R288, R293) -/

/-- Instructions of a shader thread, and moves of a pass, that one command follows; a shader that has not ended then, or a pass,
makes no progress with that command. -/
def shaderFuel : Nat := 16777216

/-- Run one shader thread to its end; device loads land at once. -/
def runShader (e : VEnv) : Nat → ThrSt → WgSt → Eng WgSt
  | 0, _, _ => throw .wait
  | n + 1, t, w => do
    match ← eTry (do
      let word ← eFetch e t
      match vecDecode t.pc e.k.code word ⟨e.core, e.slot⟩ with
      | none => vFault 0xA0
      | some i => eIssue e i t w) with
    | .error (c, y) => eFail c (if 0xA0 ≤ c ∧ c ≤ 0xA7 then vecDetail e t.pc y else y)
    | .ok (t, w) =>
      if t.ended then return w
      else runShader e n { t.land with bar := false } w

/-- What the shaders of a pass share: pass, descriptor, kernels of each draw. -/
structure PEnv where
  p : Pass
  d : Desc
  draws : List (Draw × Kern × Kern)

/-- Room on a core for one more thread of the context's share with `lm4k` units: a slot of it (R272). -/
def State.shaderSlot (s : State) (c core lm4k : Nat) : Option Nat :=
  let (sl, lm) := s.shareUsed c core
  if sl + 1 ≤ s.get (VEC_CTX_SLOTS_SLOTS c) ∧ lm + lm4k ≤ s.get (VEC_CTX_SLOTS_LM_4K c) then
    (List.range 8).find? (fun sl => (s.thread ⟨core, sl⟩).isNone)
  else none

/-- One thread of a draw's shader on a core: local memory as given, back as the thread left it. It waits for room. -/
def shade (e : PEnv) (core : Nat) (k : Kern) (lm4k x y z : Nat) (words : List (Nat × Nat)) : Eng WgSt := do
  let s ← eGet
  match s.shaderSlot (s.ctxOf e.d) core lm4k with
  | none => throw .wait
  | some slot =>
    let w : WgSt := words.foldl (fun w (o, v) => w.lmPut o 4 v) ⟨e.d.id, core, x, y, z, [slot], [], lm4k, 0, []⟩
    runShader ⟨s.mreq e.d (4 + core / 8), core, slot, k, e.d⟩ shaderFuel (thrInit e.d.id 0 k.entry) w

/-- A shaded vertex: clip-space position and attributes as FP32 bits. -/
structure SVert where
  pos : List Nat
  av : List Nat
deriving DecidableEq, Repr

/-- The lowest core of a cluster with room for a vertex thread; its first one where none has. -/
def State.vertexCore (s : State) (c k lm4k : Nat) : Nat :=
  ((List.range 8).find? (fun j => (s.shaderSlot c (8 * k + j) lm4k).isSome)).getD 0 + 8 * k

/-- Shade the distinct vertices of a batch on a cluster, 32 to a thread (R288). -/
def shadeVerts (e : PEnv) (k di batch inst : Nat) (dr : Draw) (kv : Kern) : Nat → List Nat → Eng (List (Nat × SVert))
  | 0, _ => return []
  | n + 1, vs => do
    let now := vs.take 32
    if now.isEmpty then return []
    let m := now.length
    let s ← eGet
    let w ← shade e (s.vertexCore (s.ctxOf e.d) k dr.vlm) kv dr.vlm di batch 0
      (((List.range m).zip now).flatMap (fun (i, v) => [(4 * i, v), (0x80 + 4 * i, inst)]) ++ [(0x100, 2 ^ m - 1)])
    let out := ((List.range m).zip now).map (fun (i, v) =>
      (v, (⟨(List.range 4).map (fun c => w.lmGet (0x180 + 128 * c + 4 * i) 4),
            (List.range dr.attrs).map (fun a => w.lmGet (0x380 + 128 * a + 4 * i) 4)⟩ : SVert)))
    let rest ← shadeVerts e k di batch inst dr kv n (vs.drop 32)
    return out ++ rest

/-! ### Assembly (R286) -/

/-- Triangles of a list. -/
def listTris : Nat → List Nat → List (Nat × Nat × Nat)
  | n + 1, a :: b :: c :: r => (a, b, c) :: listTris n r
  | _, _ => []

/-- Triangles of strips: `cut` ends a strip; the first two of an odd triangle are swapped. -/
def stripTris (cut : Option Nat) : List Nat → Bool → List Nat → List (Nat × Nat × Nat)
  | _, _, [] => []
  | held, odd, x :: r =>
    if cut = some x then stripTris cut [] false r
    else match held with
      | [a, b] => (if odd then (b, a, x) else (a, b, x)) :: stripTris cut [b, x] (!odd) r
      | h => stripTris cut (h ++ [x]) false r

/-- The index stream of a draw. -/
def drawIndices (rq : MReq) (dr : Draw) : Eng (List Nat) := do
  if dr.idx = 0 then return (List.range dr.cnt).map (fun j => (dr.first + j) % 2 ^ 32)
  let n := if dr.idx16 then 2 else 4
  let bs ← eRead rq dr.idx (n * dr.cnt)
  return (List.range dr.cnt).map (fun j => u bs (n * j) n)

def drawTris (dr : Draw) (idx : List Nat) : List (Nat × Nat × Nat) :=
  if dr.strip then stripTris (if dr.idx = 0 then none else some (if dr.idx16 then 0xFFFF else 0xFFFFFFFF)) [] false idx
  else listTris idx.length idx

/-! ### Clipping and mapping (R289) -/

def fpOne : Nat := 0x3F800000

/-- a + t × (b − a), each operation rounded. -/
def fLerp (t a b : Nat) : Nat := f32Add a (f32Mul t (f32Sub b a))

/-- Is the FP32 number negative, or no number? -/
def fNeg (x : Nat) : Bool := (ofF32 x).isNan || vlt (ofF32 x) vzero

/-- Clip a polygon where `dist` is negative; `mid` makes the vertex at fraction t of an edge. -/
def clipPoly {α : Type} (dist : α → Nat) (mid : Nat → α → α → α) (poly : List α) : List α :=
  match poly.getLast? with
  | none => []
  | some z =>
    (poly.foldl (fun (acc : List α × α) v =>
      let a := dist acc.2
      let b := dist v
      let cross := if fNeg a != fNeg b then [mid (f32Div a (f32Sub a b)) acc.2 v] else []
      (acc.1 ++ cross ++ (if fNeg b then [] else [v]), v)) ([], z)).1

def midClip (t : Nat) (a b : SVert) : SVert :=
  ⟨(a.pos.zip b.pos).map (fun (x, y) => fLerp t x y), (a.av.zip b.av).map (fun (x, y) => fLerp t x y)⟩

/-- A vertex on the screen: x, y, z and 1/w as FP32 bits, attributes. -/
structure PVert where
  x : Nat
  y : Nat
  z : Nat
  iw : Nat
  av : List Nat
deriving DecidableEq, Repr

/-- Screen mapping, each operation in FP32, RNE. -/
def mapVert (vp : List Nat) (v : SVert) : PVert :=
  let c (i : Nat) : Nat := nth 0 v.pos i
  let half (x : Nat) : Nat := f32Div x 0x40000000
  ⟨f32Add (nth 0 vp 0) (half (f32Mul (f32Add (f32Div (c 0) (c 3)) fpOne) (nth 0 vp 2))),
   f32Add (nth 0 vp 1) (half (f32Mul (f32Sub fpOne (f32Div (c 1) (c 3))) (nth 0 vp 3))),
   f32Div (c 2) (c 3), f32Div fpOne (c 3), v.av⟩

/-- Along a screen edge z and 1/w are linear, attributes perspective-correct. -/
def midScreen (t : Nat) (a b : PVert) : PVert :=
  let iw := fLerp t a.iw b.iw
  ⟨fLerp t a.x b.x, fLerp t a.y b.y, fLerp t a.z b.z, iw,
   (a.av.zip b.av).map (fun (x, y) => f32Div (fLerp t (f32Mul x a.iw) (f32Mul y b.iw)) iw)⟩

/-- FP32 bits of the range limits −16,384 and 16,383. -/
def loLim : Nat := f32 (.fin true 16384 0)
def hiLim : Nat := f32 (.fin false 16383 0)

/-- The four sides of the range. -/
def clipRange (poly : List PVert) : List PVert :=
  [(fun (v : PVert) => f32Sub v.x loLim), (fun v => f32Sub hiLim v.x), (fun v => f32Sub v.y loLim),
   (fun v => f32Sub hiLim v.y)].foldl (fun p dist => clipPoly dist midScreen p) poly

/-- A fan of triangles. -/
def fan {α : Type} : List α → List (α × α × α)
  | a :: b :: r => ((b :: r).zip r).map (fun (x, y) => (a, x, y))
  | _ => []

/-- Snapped coordinate in 1/256 pixel. -/
def snap (x : Nat) : Int := roundInt 0 ((ofF32 x).scale 8)

/-- Twice the signed area; positive is clockwise on the screen, whose y grows downwards. -/
def area2 (a b c : Int × Int) : Int := (b.1 - a.1) * (c.2 - a.2) - (c.1 - a.1) * (b.2 - a.2)

/-- Pixel rectangle of the render area within the scissor, bounds inclusive. -/
def Pass.rect (p : Pass) (dr : Draw) : Nat × Nat × Nat × Nat :=
  (dr.x0, dr.y0, min dr.x1 (p.w - 1), min dr.y1 (p.h - 1))

/-- Bounding box of snapped vertices in whole pixels, bounds inclusive. -/
def boxOf (v : List (Int × Int)) : Int × Int × Int × Int :=
  match v with
  | [] => (0, 0, -1, -1)
  | a :: r => r.foldl (fun (b : Int × Int × Int × Int) q =>
      (min b.1 (q.1 / 256), min b.2.1 (q.2 / 256), max b.2.2.1 (q.1 / 256), max b.2.2.2 (q.2 / 256)))
      (a.1 / 256, a.2 / 256, a.1 / 256, a.2 / 256)

/-- The part of a box inside the rectangle, if any. -/
def clipBox (r : Nat × Nat × Nat × Nat) (b : Int × Int × Int × Int) : Option (Nat × Nat × Nat × Nat) :=
  let x0 := max (r.1 : Int) b.1
  let y0 := max (r.2.1 : Int) b.2.1
  let x1 := min (r.2.2.1 : Int) b.2.2.1
  let y1 := min (r.2.2.2 : Int) b.2.2.2
  if x0 ≤ x1 ∧ y0 ≤ y1 then some (x0.toNat, y0.toNat, x1.toNat, y1.toNat) else none

/-- Pixels (x0, y0) to (x1, y1). -/
abbrev PixBox := Nat × Nat × Nat × Nat

/-- The pixels of two boxes. -/
def PixBox.meet (a b : PixBox) : PixBox := (max a.1 b.1, max a.2.1 b.2.1, min a.2.2.1 b.2.2.1, min a.2.2.2 b.2.2.2)

/-- Do a snapped triangle and the pixels of a box share an inner point? No side of either keeps them apart. -/
def triMeets (a b c : Int × Int) (r : PixBox) : Bool :=
  let x0 : Int := 256 * (r.1 : Int)
  let y0 : Int := 256 * (r.2.1 : Int)
  let x1 : Int := 256 * ((r.2.2.1 : Int) + 1)
  let y1 : Int := 256 * ((r.2.2.2 : Int) + 1)
  let sg : Int := if 0 < area2 a b c then 1 else -1
  let side (p q : Int × Int) : Bool := [(x0, y0), (x1, y0), (x0, y1), (x1, y1)].any (fun k => decide (0 < sg * area2 p q k))
  decide (x0 < x1 ∧ y0 < y1) && [a, b, c].any (fun v => decide (x0 < v.1)) && [a, b, c].any (fun v => decide (v.1 < x1)) &&
    [a, b, c].any (fun v => decide (y0 < v.2)) && [a, b, c].any (fun v => decide (v.2 < y1)) && side a b && side b c && side c a

/-- The render area, and the scissor of a draw. -/
def Pass.area (p : Pass) : PixBox := (0, 0, p.w - 1, p.h - 1)
def Draw.scissor (dr : Draw) : PixBox := (dr.x0, dr.y0, dr.x1, dr.y1)

/-- The pieces of a triangle that are not culled (R289). -/
def Pass.pieces (p : Pass) (dr : Draw) (a b c : SVert) : List Piece :=
  let poly := clipPoly (fun v => nth 0 v.pos 2) midClip [a, b, c]
  let scr := poly.map (mapVert dr.vp)
  if scr.any (fun v => !(ofF32 v.x).finite || !(ofF32 v.y).finite) then [] else
  (fan (clipRange scr)).filterMap (fun (x, y, z) =>
    let q (v : PVert) : Int × Int := (snap v.x, snap v.y)
    let ar := area2 (q x) (q y) (q z)
    let front := decide (0 < ar) == dr.cw
    if ar = 0 ∨ (dr.cull = 1 ∧ !front) ∨ (dr.cull = 2 ∧ front) ∨ !triMeets (q x) (q y) (q z) p.area ∨
      !triMeets (q x) (q y) (q z) dr.scissor then none
    else some ⟨[x, y, z].map (fun v => (snap v.x, snap v.y, v.z, v.iw)), x.av ++ y.av ++ z.av, front⟩)

/-! ### The bin pool (R290, R291) -/

def noChunk : Nat := 0xFFFFFF

def dirEmpty : Nat → Nat × Nat × Nat := fun _ => (noChunk, noChunk, 0)

def Pool.fresh (p : Pass) : Pool := ⟨p.dirChunks, [], [], []⟩

/-- Bytes written to the pool: offset and bytes. -/
abbrev PoolOut := List (Nat × List Byte)

/-- Take `n` consecutive chunks. -/
def Pool.take (q : Pool) (p : Pass) (n : Nat) : Option (Nat × Pool) :=
  if q.next + n ≤ p.chunks then some (q.next, { q with next := q.next + n }) else none

/-- Room for `n` bytes of attributes of unit `j`, in 32-byte units within a run of eight chunks. -/
def Pool.attrRoom (q : Pool) (p : Pass) (j n : Nat) : Option (Nat × Pool) :=
  let (r, used) := mget (fun _ => (0, 2048)) q.attr j
  if used + n ≤ 2048 then some (r * 256 + used, { q with attr := mins j (r, used + n) q.attr })
  else match q.take p 8 with
    | none => none
    | some (c, q) => some (c * 256, { q with attr := mins j (c, n) q.attr })

/-- A primitive record slot of unit `j`. -/
def Pool.primRoom (q : Pool) (p : Pass) (j : Nat) : Option (Nat × Pool) :=
  let (c, used) := mget (fun _ => (0, 4)) q.prim j
  if used < 4 then some (4 * c + used, { q with prim := mins j (c, used + 1) q.prim })
  else match q.take p 1 with
    | none => none
    | some (c, q) => some (4 * c, { q with prim := mins j (c, 1) q.prim })

/-- Append an entry to the list of a tile. -/
def Pool.entry (q : Pool) (p : Pass) (j tile x : Nat) : Option (Pool × PoolOut) :=
  let key := 4 * tile + j
  let (h, t, n) := mget dirEmpty q.dir key
  if h = noChunk ∨ n = 63 then
    match q.take p 1 with
    | none => none
    | some (c, q) =>
      let h2 := if h = noChunk then c else h
      some ({ q with dir := mins key (h2, c, 1) q.dir },
        (if h = noChunk then [] else [(256 * t, leBytes 4 (c + 63 * 2 ^ 24))]) ++
          [(256 * c, leBytes 4 (noChunk + 2 ^ 24) ++ leBytes 4 x ++ List.replicate 248 0),
           (32 * tile + 8 * j, leBytes 8 (h2 + c * 2 ^ 24))])
  else some ({ q with dir := mins key (h, t, n + 1) q.dir },
    [(256 * t, leBytes 4 (noChunk + (n + 1) * 2 ^ 24)), (256 * t + 4 + 4 * n, leBytes 4 x)])

/-- Sample positions in 1/256 pixel (R289). -/
def sampleAt (ns i : Nat) : Nat × Nat := if ns = 1 then (128, 128) else nth (0, 0) [(96, 32), (224, 96), (32, 160), (160, 224)] i

/-- Edge values of a triangle, turned clockwise, at a point; and its doubled area. -/
def Piece.edges (t : Piece) (x y : Int) : Int × Int × Int × Int :=
  let q (i : Nat) : Int × Int := let v := nth (0, 0, 0, 0) t.v i; (v.1, v.2.1)
  let sg : Int := if 0 < area2 (q 0) (q 1) (q 2) then 1 else -1
  (sg * area2 (q 1) (q 2) (x, y), sg * area2 (q 2) (q 0) (x, y), sg * area2 (q 0) (q 1) (x, y), sg * area2 (q 0) (q 1) (q 2))

/-- Inside all three edges; on an edge only where it is a top or a left one (R289). -/
def Piece.covers (t : Piece) (x y : Int) : Bool :=
  let q (i : Nat) : Int × Int := let v := nth (0, 0, 0, 0) t.v (i % 3); (v.1, v.2.1)
  let cw := decide (0 < area2 (q 0) (q 1) (q 2))
  let (e0, e1, e2, _) := t.edges x y
  let on (e : Int) (a b : Int × Int) : Bool :=
    let (a, b) := if cw then (a, b) else (b, a)
    decide (0 < e) || (decide (e = 0) && (decide (b.2 < a.2) || (decide (a.2 = b.2) && decide (a.1 < b.1))))
  on e0 (q 1) (q 2) && on e1 (q 2) (q 0) && on e2 (q 0) (q 1)

/-- Point of sample `i` of pixel (px, py). -/
def samplePt (ns px py i : Nat) : Int × Int :=
  ((px * 256 + (sampleAt ns i).1 : Nat), (py * 256 + (sampleAt ns i).2 : Nat))

/-- FP32 barycentric weights of the three vertices at a point. -/
def Piece.bary (t : Piece) (x y : Int) : Nat × Nat × Nat :=
  let (e0, e1, e2, a) := t.edges x y
  let r (e : Int) : Nat := f32 (vquot (Val.ofInt e) (Val.ofInt a))
  (r e0, r e1, r e2)

/-- zs at a point, linear on the screen. -/
def Piece.zAt (t : Piece) (x y : Int) : Nat :=
  let z (i : Nat) : Nat := (nth (0, 0, 0, 0) t.v i).2.2.1
  let (_, b1, b2) := t.bary x y
  f32Add (f32Add (z 0) (f32Mul b1 (f32Sub (z 1) (z 0)))) (f32Mul b2 (f32Sub (z 2) (z 0)))

/-- Pixels of a tile inside the render area: local x, y. -/
def Pass.tilePixels (p : Pass) (tx ty : Nat) : List (Nat × Nat) :=
  ((List.range 1024).map (fun i => (i % 32, i / 32))).filter (fun q => decide (32 * tx + q.1 < p.w) && decide (32 * ty + q.2 < p.h))

/-- Samples of a tile that a primitive covers: local x, y, sample, zs. -/
def coveredSamples (p : Pass) (dr : Draw) (tx ty : Nat) (t : Piece) : List (Nat × Nat × Nat × Nat) :=
  let (x0, y0, x1, y1) := p.rect dr
  (List.range 1024).flatMap (fun i =>
    let px := 32 * tx + i % 32
    let py := 32 * ty + i / 32
    if px < x0 ∨ x1 < px ∨ py < y0 ∨ y1 < py then [] else
    (List.range p.ns).filterMap (fun k =>
      let q := samplePt p.ns px py k
      if !t.covers q.1 q.2 then none else
      let z := t.zAt q.1 q.2
      if (ofF32 z).isNan ∨ vlt (ofF32 z) vzero ∨ vlt (ofF32 fpOne) (ofF32 z) then none else some (i % 32, i / 32, k, z)))

/-- Every sample position of the tile, as far as it lies in the render area, is covered (R291). -/
def Pass.full (p : Pass) (dr : Draw) (tx ty : Nat) (t : Piece) : Bool :=
  (coveredSamples p dr tx ty t).length == (p.tilePixels tx ty).length * p.ns

/-- Bin one piece: attributes, primitive record, and an entry in every tile that it reaches within the scissor. -/
def Pool.bin (q : Pool) (p : Pass) (j di seq : Nat) (dr : Draw) (t : Piece) : Option (Pool × PoolOut) :=
  let n := cdiv (4 * t.av.length) 32 * 32
  match (if n = 0 then some (0, q) else q.attrRoom p j n) with
  | none => none
  | some (ao, q) =>
    match q.primRoom p j with
    | none => none
    | some (pr, q) =>
      let rec0 := (t.v.flatMap (fun v => leBytes 4 (unsgn 32 v.1) ++ leBytes 4 (unsgn 32 v.2.1) ++ leBytes 4 v.2.2.1 ++
        leBytes 4 v.2.2.2)) ++ leBytes 4 seq ++ leBytes 4 (di + b2n t.front * 65536) ++ leBytes 4 (ao / 32) ++ leBytes 4 0
      let w0 : PoolOut := (if n = 0 then [] else
        [(ao, let b := t.av.flatMap (leBytes 4); b ++ List.replicate (n - b.length) 0)]) ++ [(64 * pr, rec0)]
      match clipBox (p.rect dr) (boxOf (t.v.map (fun v => (v.1, v.2.1)))) with
      | none => some (q, w0)
      | some (x0, y0, x1, y1) =>
        let at' (i : Nat) : Int × Int := let v := nth (0, 0, 0, 0) t.v i; (v.1, v.2.1)
        let tiles := ((List.range (y1 / 32 - y0 / 32 + 1)).flatMap (fun b =>
          (List.range (x1 / 32 - x0 / 32 + 1)).map (fun a => (x0 / 32 + a, y0 / 32 + b)))).filter (fun (tx, ty) =>
            triMeets (at' 0) (at' 1) (at' 2) (PixBox.meet (p.rect dr) (32 * tx, 32 * ty, 32 * tx + 31, 32 * ty + 31)))
        tiles.foldl (fun acc (tx, ty) => match acc with
          | none => none
          | some (q, w) =>
            match q.entry p j (ty * p.tw + tx) (pr + b2n (p.full dr tx ty t) * 2 ^ 26) with
            | none => none
            | some (q, w2) => some (q, w ++ w2)) (some (q, w0))

/-- All pieces of a triangle, or none. -/
def Pool.binAll (q : Pool) (p : Pass) (j di seq : Nat) (dr : Draw) : List Piece → Option (Pool × PoolOut)
  | [] => some (q, [])
  | t :: ts =>
    match q.bin p j di seq dr t with
    | none => none
    | some (q, w) =>
      match Pool.binAll q p j di seq dr ts with
      | none => none
      | some (q, w2) => some (q, w ++ w2)

/-- Clear the directory. -/
def clearDir (rq : MReq) (p : Pass) : Eng Unit :=
  eWrite rq false 0 p.pool ((List.range (p.tw * p.th * 4)).flatMap (fun _ => leBytes 8 (noChunk + noChunk * 2 ^ 24)))

/-! ### Tiles (R292 to R295) -/

/-- Index of a sample in the slot. -/
def sampleIx (ns lx ly i : Nat) : Nat := (ly * 32 + lx) * ns + i

/-- A channel held in the internal format of a target, from FP32 and back (R295). -/
def toInner (fmt x : Nat) : Nat := if tgtSample fmt = 16 then x else encFmt 7 0 false (ofF32 x)
def ofInner (fmt x : Nat) : Nat := if tgtSample fmt = 16 then x else f32 (decElt 7 x)

/-- Read the bin lists of a tile and merge them by SEQ. -/
def readChunks (rq : MReq) (p : Pass) : Nat → Nat → Eng (List Nat)
  | 0, _ => return []
  | n + 1, c => do
    if c = noChunk then return []
    let b ← eRead rq (p.pool + 256 * c) 256
    let h := u b 0 4
    let here := (List.range (bitsOf h 24 6)).map (fun e => bitsOf (u b (4 + 4 * e) 4) 0 26)
    let rest ← readChunks rq p n (bitsOf h 0 24)
    return here ++ rest

def readPrim (rq : MReq) (p : Pass) (no : Nat) : Eng Prim := do
  let b ← eRead rq (p.pool + 64 * no) 64
  let v := (List.range 3).map (fun i =>
    (sgn 32 (u b (16 * i) 4), sgn 32 (u b (16 * i + 4) 4), u b (16 * i + 8) 4, u b (16 * i + 12) 4))
  return ⟨no, ⟨v, [], bitOf (u b 52 4) 16⟩, u b 48 4, u b 52 2, p.pool + 32 * u b 56 4⟩

def insSeq (x : Prim) : List Prim → List Prim
  | [] => [x]
  | y :: ys => if x.seq < y.seq then x :: y :: ys else y :: insSeq x ys

def tilePrims (rq : MReq) (p : Pass) (tile : Nat) : Eng (List Prim) := do
  let dir ← eRead rq (p.pool + 32 * tile) 32
  let mut out : List Prim := []
  for j in List.range 4 do
    let ns ← readChunks rq p p.chunks (bitsOf (u dir (8 * j) 8) 0 24)
    for no in ns do
      let x ← readPrim rq p no
      out := insSeq x out
  return out

/-- L1 and L2, perspective-correct. -/
def Piece.l12 (t : Piece) (x y : Int) : Nat × Nat :=
  let w (i : Nat) : Nat := (nth (0, 0, 0, 0) t.v i).2.2.2
  let (b0, b1, b2) := t.bary x y
  let q := f32Add (f32Add (f32Mul b0 (w 0)) (f32Mul b1 (w 1))) (f32Mul b2 (w 2))
  (f32Div (f32Mul b1 (w 1)) q, f32Div (f32Mul b2 (w 2)) q)

/-- DEPTH_FUNC on zs against the stored depth. -/
def depthTest (f z old : Nat) : Bool :=
  let a := ofF32 z
  let b := ofF32 old
  match f with
  | 0 => false | 1 => vlt a b | 2 => veq a b | 3 => vlt a b || veq a b
  | 4 => vlt b a | 5 => !veq a b | 6 => vlt b a || veq a b | _ => true

/-- Distinct pixels of a list of samples. -/
def pixelsOfSamples (xs : List (Nat × Nat × Nat × Nat)) : List (Nat × Nat) :=
  xs.foldl (fun l x => if l.contains (x.1, x.2.1) then l else l ++ [(x.1, x.2.1)]) []

/-- Blend factor of a channel (R308): source and destination channel, source and destination alpha. -/
def blendFactor (code s d sa da : Nat) : Nat :=
  match code with
  | 0 => 0 | 1 => fpOne | 2 => s | 3 => f32Sub fpOne s | 4 => sa | 5 => f32Sub fpOne sa | 6 => d
  | 7 => f32Sub fpOne d | 8 => da | _ => f32Sub fpOne da

/-- OP(src × SF, dst × DF). -/
def blendOp (op s sf d df : Nat) : Nat :=
  match op with
  | 0 => f32Add (f32Mul s sf) (f32Mul d df)
  | 1 => f32Sub (f32Mul s sf) (f32Mul d df)
  | 2 => f32Sub (f32Mul d df) (f32Mul s sf)
  | 3 => minMax false 9 s d
  | _ => minMax true 9 s d

/-- Clamp to 0 to 1. -/
def clamp01 (x : Nat) : Nat :=
  if vlt (ofF32 x) vzero then 0 else if vlt (ofF32 fpOne) (ofF32 x) then fpOne else x

/-- UNORM and sRGB targets clamp their source. -/
def unormFmt (fmt : Nat) : Bool := decide (fmt ≤ 8)

/-- The new channels of one sample of a target (R294). -/
def blendSample (fmt bw : Nat) (src old : List Nat) : List Nat :=
  let src := if unormFmt fmt then src.map clamp01 else src
  let dst := old.map (ofInner fmt)
  (List.range 4).map (fun c =>
    let s := nth 0 src c
    let d := nth 0 dst c
    if !bitOf bw (23 + c) then nth 0 old c
    else if !bitOf bw 22 then toInner fmt s
    else
      let o := if c = 3 then 11 else 0
      toInner fmt (blendOp (if c = 3 then bitsOf bw 19 3 else bitsOf bw 8 3) s
        (blendFactor (bitsOf bw o 4) s d (nth 0 src 3) (nth 0 dst 3)) d
        (blendFactor (bitsOf bw (o + 4) 4) s d (nth 0 src 3) (nth 0 dst 3))))

/-- Quads of a set of pixels in row-major order. -/
def quadsOf (px : List (Nat × Nat)) : List (Nat × Nat) :=
  (List.range 256).filterMap (fun i =>
    if px.any (fun q => q.1 / 2 == i % 16 && q.2 / 2 == i / 16) then some (i % 16, i / 16) else none)

/-- Pixel of lane 4q + n of a thread's quads. -/
def laneXY (qs : List (Nat × Nat)) (l : Nat) : Nat × Nat :=
  let q := nth (0, 0) qs (l / 4)
  (2 * q.1 + l % 2, 2 * q.2 + l / 2 % 2)

/-- 32-bit words of the slot before target `i`, and those of one sample there. -/
def Pass.tgtWord (p : Pass) (i : Nat) : Nat :=
  1024 * p.ns * ((if p.dfmt then 1 else 0) + ((p.tgts.take i).map (fun t => tgtSample t.fmt / 4)).foldl (· + ·) 0)
def Pass.sampleWords (p : Pass) (i ix : Nat) : List Nat :=
  match p.tgts[i]? with
  | none => []
  | some t => (List.range (tgtSample t.fmt / 4)).map (fun j => p.tgtWord i + ix * (tgtSample t.fmt / 4) + j)

/-- Read words of a tile slot: corrected ones are written back and counted, an uncorrectable one ends the pass (R311). -/
def eSlotWords (x : TileSlot) (ws : List Nat) : Eng TileSlot := do
  match secded x.err ws with
  | none => eFail 0xAB x.tile
  | some (m, n) =>
    if n ≠ 0 then eMod (fun s => s.bump (GFX_CNT_TILE_CORR_COUNT x.unit') n)
    return { x with err := m }

/-- Words written whole hold no error. -/
def TileSlot.wrote (x : TileSlot) (ws : List Nat) : TileSlot := { x with err := x.err.filter (fun e => !ws.contains e.1) }

/-- Coordinates of the tile of a slot. -/
def Pass.tileXY (p : Pass) (i : Nat) : Nat × Nat := (i % p.tw, i / p.tw)

/-- Depths of samples. -/
def TileSlot.setDepth (x : TileSlot) (ns : Nat) (own : List (Nat × Nat × Nat × Nat)) : TileSlot :=
  let ix (q : Nat × Nat × Nat × Nat) : Nat := sampleIx ns q.1 q.2.1 q.2.2.1
  { x with dep := own.foldl (fun d q => d.set (ix q) q.2.2.2) x.dep }.wrote (own.map ix)

/-- The outputs of a pixel thread on the samples `own` that live on: blended, or written, with their depth where `late`
(R292, R294). -/
def applyOutputs (p : Pass) (dr : Draw) (late : Bool) (out : Nat → Nat → Nat → List Nat)
    (own : List (Nat × Nat × Nat × Nat)) (sl : TileSlot) : Eng TileSlot := do
  let ix (q : Nat × Nat × Nat × Nat) : Nat := sampleIx p.ns q.1 q.2.1 q.2.2.1
  let ws := (List.range p.ntgt).flatMap (fun t => own.flatMap (fun q => p.sampleWords t (ix q)))
  let reads := (List.range p.ntgt).flatMap (fun t =>
    let b := nth 0 dr.blend t
    if bitOf b 22 || bitsOf b 23 4 != 15 then own.flatMap (fun q => p.sampleWords t (ix q)) else [])
  let sl ← eSlotWords sl reads
  let draw (x : Nat × Tgt × List (List Nat)) : List (List Nat) := own.foldl (fun c q =>
    c.set (ix q) (blendSample x.2.1.fmt (nth 0 dr.blend x.1) (out x.1 q.1 q.2.1) (nth [] c (ix q)))) x.2.2
  let sl := { sl with col := ((List.range p.ntgt).zip (p.tgts.zip sl.col)).map draw }.wrote ws
  return if late && p.dfmt then sl.setDepth p.ns own else sl

/-- Shade the owned samples of a primitive, eight quads to a thread, and apply the outputs in that order (R293, R294).
`late` writes depth for the samples that survive KILL (MASKED). -/
def shadePrim (e : PEnv) (pr : Prim) (late : Bool) : Nat → List (Nat × Nat) → List (Nat × Nat × Nat × Nat) → TileSlot → Eng TileSlot
  | 0, _, _, sl => return sl
  | n + 1, quads, own, sl => do
    let qs := quads.take 8
    if qs.isEmpty then return sl
    match e.draws[pr.draw]? with
    | none => return sl
    | some (dr, _, kp) =>
      let s ← eGet
      let rq := s.mreq e.d (4 + sl.unit')
      let (tx, ty) := e.p.tileXY sl.tile
      let ab ← eRead rq pr.attr (12 * dr.attrs)
      let lanesN := 4 * qs.length
      let smask (l : Nat) : Nat :=
        let q := laneXY qs l
        own.foldl (fun m x => if x.1 = q.1 ∧ x.2.1 = q.2 then Nat.lor m (2 ^ x.2.2.1) else m) 0
      let cover := (List.range lanesN).foldl (fun m l => if smask l = 0 then m else m + 2 ^ l) 0
      let words := [(0, cover), (4, pr.no), (8, pr.seq), (12, pr.draw), (16, b2n pr.t.front)] ++
        (List.range lanesN).flatMap (fun l =>
          let q := laneXY qs l
          let px := 32 * tx + q.1
          let py := 32 * ty + q.2
          let c := samplePt 1 px py 0
          let (l1, l2) := pr.t.l12 c.1 c.2
          [(0x20 + 4 * l, px), (0xA0 + 4 * l, py), (0x120 + 4 * l, pr.t.zAt c.1 c.2), (0x1A0 + 4 * l, l1),
           (0x220 + 4 * l, l2), (0x2A0 + 4 * l, smask l)]) ++
        (List.range (3 * dr.attrs)).map (fun i =>
          (0xB40 + 4 * (32 * (i / dr.attrs) + i % dr.attrs), u ab (4 * i) 4))
      eMod (fun s => s.bump (GFX_CNT_PIX_SHADED_COUNT sl.unit') (popc 32 cover))
      let w ← shade e sl.core kp dr.plm pr.draw tx ty words
      let kill := w.lmGet 0x320 4
      let live (q : Nat × Nat × Nat × Nat) : Option Nat := (List.range lanesN).find? (fun l =>
        laneXY qs l == (q.1, q.2.1) && !bitOf kill l)
      let out (t x y : Nat) : List Nat :=
        let l := ((List.range lanesN).find? (fun l => laneXY qs l == (x, y))).getD 0
        (List.range 4).map (fun ch => w.lmGet (0x340 + 128 * (4 * t + ch) + 4 * l) 4)
      let sl ← applyOutputs e.p dr late out (own.filter (fun q => (live q).isSome)) sl
      shadePrim e pr late n (quads.drop 8) own sl

/-- Shade the owned samples of a primitive. -/
def shadeOwned (e : PEnv) (pr : Prim) (late : Bool) (own : List (Nat × Nat × Nat × Nat)) (sl : TileSlot) : Eng TileSlot :=
  shadePrim e pr late 33 (quadsOf (pixelsOfSamples own)) own sl

/-- Shade the pending tags (sample index to the position of its triangle in the tile's sequence) in ascending SEQ. -/
def shadePending (e : PEnv) (sl : TileSlot) : Eng TileSlot := do
  let ns := e.p.ns
  let mut x := sl
  for (i, pr) in (List.range sl.seq.length).zip sl.seq do
    let own := (sl.tags.filter (fun t => t.2 == i)).map (fun t => (t.1 / ns % 32, t.1 / ns / 32, t.1 % ns, 0))
    if !own.isEmpty then
      let y ← shadeOwned e pr false own x
      x := y
  return { x with tags := [] }

/-- The next triangle of the tile's sequence (R292). -/
def tilePrim (e : PEnv) (pr : Prim) (hsr : Bool) (sl : TileSlot) : Eng TileSlot := do
  match e.draws[pr.draw]? with
  | none => return { sl with pos := sl.pos + 1 }
  | some (dr, _, _) =>
    let (tx, ty) := e.p.tileXY sl.tile
    let ix (x : Nat × Nat × Nat × Nat) : Nat := sampleIx e.p.ns x.1 x.2.1 x.2.2.1
    let cov := coveredSamples e.p dr tx ty pr.t
    eMod (fun s => s.bump (GFX_CNT_PIX_RAST_COUNT sl.unit') (pixelsOfSamples cov).length)
    let sl ← if dr.kind = 0 then pure sl else shadePending e sl
    let sl ← if e.p.dfmt then eSlotWords sl (cov.map ix) else pure sl
    let ok := cov.filter (fun x => !e.p.dfmt || depthTest dr.df x.2.2.2 (nth 0 sl.dep (ix x)))
    let pos := sl.pos
    let sl := { (if dr.kind ≠ 1 && dr.dw && e.p.dfmt then sl.setDepth e.p.ns ok else sl) with pos := pos + 1 }
    if dr.kind = 0 && hsr then return { sl with tags := ok.foldl (fun m x => mins (ix x) pos m) sl.tags }
    else shadeOwned e pr (dr.kind == 1) ok sl

/-! ### Loading and storing tiles (R295, R296) -/

/-- Address of a texel of a target. -/
def Pass.texelAddr (p : Pass) (t : Tgt) (x y : Nat) : Nat :=
  if t.swz then t.addr + swizzleOff t.fmt 0 0 p.w x y else t.addr + y * t.stride + x * (texBlk t.fmt 0 0).1

/-- A UNORM channel of `w` bits from FP32, RNE with saturation; a NaN gives 0 (R87). -/
def toUnorm (w x : Nat) : Nat :=
  match vmul (ofF32 (clamp01 x)) (.fin false (2 ^ w - 1) 0) with
  | .fin n m e => (roundInt 0 (.fin n m e)).toNat
  | _ => 0

/-- Encoding to an 8-bit sRGB channel (log 13). -/
def toSrgb (x : Nat) : Nat :=
  match ofF32 (clamp01 x) with
  | .fin _ m e =>
    if m = 0 then 0
    else
      let l := fxOf (.fin false m e)
      let y := if l ≤ 31308 * fxOne / 10000000 then 1292 * l / 100
        else 1055 * fxExpFx (fxMul (fxLog2 m e * 10 / 24) fxLn2) / 1000 - 55 * fxOne / 1000
      (roundInt 0 (fxVal (255 * y))).toNat
  | _ => 0

/-- The bytes of a texel from FP32 channels (R87, R295). -/
def texelBytes (fmt : Nat) (c : List Nat) : List Byte :=
  let q (i : Nat) : Nat := nth 0 c i
  let n (w i : Nat) : Nat := toUnorm w (q i)
  let h (i : Nat) : List Byte := leBytes 2 (encFmt 7 0 true (ofF32 (q i)))
  let f (i : Nat) : List Byte := leBytes 4 (encFmt 9 0 true (ofF32 (q i)))
  let b (x : Nat) : List Byte := leBytes 1 x
  match fmt with
  | 0 => b (n 8 0)
  | 1 => b (n 8 0) ++ b (n 8 1)
  | 2 => b (n 8 0) ++ b (n 8 1) ++ b (n 8 2) ++ b (n 8 3)
  | 3 => b (toSrgb (q 0)) ++ b (toSrgb (q 1)) ++ b (toSrgb (q 2)) ++ b (n 8 3)
  | 4 => b (n 8 2) ++ b (n 8 1) ++ b (n 8 0) ++ b (n 8 3)
  | 5 => b (toSrgb (q 2)) ++ b (toSrgb (q 1)) ++ b (toSrgb (q 0)) ++ b (n 8 3)
  | 6 => leBytes 2 (n 5 0 * 2048 + n 6 1 * 32 + n 5 2)
  | 7 => leBytes 2 (n 4 0 * 4096 + n 4 1 * 256 + n 4 2 * 16 + n 4 3)
  | 8 => leBytes 4 (n 10 0 + n 10 1 * 2 ^ 10 + n 10 2 * 2 ^ 20 + n 2 3 * 2 ^ 30)
  | 9 => h 0
  | 10 => h 0 ++ h 1
  | 11 => h 0 ++ h 1 ++ h 2 ++ h 3
  | 12 => f 0
  | _ => f 0 ++ f 1 ++ f 2 ++ f 3

/-- Items in ascending address, those of one address in their order. -/
def insItem {α : Type} (x : Nat × α) : List (Nat × α) → List (Nat × α)
  | [] => [x]
  | y :: ys => if x.1 < y.1 then x :: y :: ys else y :: insItem x ys

/-- Items of one tile image, `n` bytes each, that stand in one run of addresses. -/
def texelRuns {α : Type} (n : Nat) (xs : List (Nat × α)) : List (Nat × List α) :=
  ((xs.foldl (fun (acc : List (Nat × List α)) x =>
    match acc with
    | r :: rs => if r.1 + n * r.2.length = x.1 then (r.1, x.2 :: r.2) :: rs else (x.1, [x.2]) :: r :: rs
    | [] => [(x.1, [x.2])]) []).map (fun r => (r.1, r.2.reverse))).reverse

/-- Write texels: a swizzled target in ascending addresses, a linear one row by row; one request per run of them. -/
def eWriteTexels (rq : MReq) (swz : Bool) (n : Nat) (xs : List (Nat × List Byte)) : Eng Unit := do
  for (a, bs) in texelRuns n (if swz then xs.foldl (fun l x => insItem x l) [] else xs) do
    eWrite rq false (if swz then 4 else 0) a bs.flatten

/-- Read the texels at the given addresses, in the order of `eWriteTexels`, each with what it is for. -/
def eReadTexels {α : Type} (rq : MReq) (swz : Bool) (n : Nat) (xs : List (Nat × α)) : Eng (List (α × List Byte)) := do
  let mut out : List (α × List Byte) := []
  for (a, ts) in texelRuns n (if swz then xs.foldl (fun l x => insItem x l) [] else xs) do
    let bs ← eRead rq a (n * ts.length)
    out := out ++ ((List.range ts.length).zip ts).map (fun (i, t) => (t, (bs.drop (n * i)).take n))
  return out

/-- Internal colours of one target at a tile's start. -/
def loadTarget (rq : MReq) (p : Pass) (t : Tgt) (tx ty : Nat) : Eng (List (List Nat)) := do
  let n := 1024 * p.ns
  if t.load = 0 then return List.replicate n (t.clear.map (toInner t.fmt))
  if t.load = 2 then
    let s ← eGet
    eMod (fun s => s.freshen (4 * n))
    return (List.range n).map (fun i => (List.range 4).map (fun c =>
      (Config.freeWord (s.fresh + 4 * i + c)).toNat % 2 ^ (2 * tgtSample t.fmt)))
  let xs ← eReadTexels rq t.swz (texBlk t.fmt 0 0).1
    ((p.tilePixels tx ty).map (fun q => (p.texelAddr t (32 * tx + q.1) (32 * ty + q.2), q)))
  return xs.foldl (fun out (q, bs) => out.set (sampleIx p.ns q.1 q.2 0) ((texelOf t.fmt bs).map (toInner t.fmt)))
    (List.replicate n [0, 0, 0, 0])

/-- Address of a depth value. -/
def Pass.depthAddr (p : Pass) (x y : Nat) : Nat := p.depth + y * p.dstride + 4 * x

/-- Depth and colours of a tile as it starts: cleared, loaded or undefined. -/
def startTile (rq : MReq) (p : Pass) (tx ty : Nat) : Eng (List Nat × List (List (List Nat))) := do
  let mut dep : List Nat := if p.dfmt then List.replicate (1024 * p.ns) p.dclear else []
  if p.dfmt && p.dload then
    let xs ← eReadTexels rq false 4 ((p.tilePixels tx ty).map (fun q => (p.depthAddr (32 * tx + q.1) (32 * ty + q.2), q)))
    dep := xs.foldl (fun d (q, bs) => d.set (sampleIx p.ns q.1 q.2 0) (leNat bs)) dep
  let mut col : List (List (List Nat)) := []
  for t in p.tgts do
    let c ← loadTarget rq p t tx ty
    col := col ++ [c]
  return (dep, col)

/-- The slot in the flush area: depth, then the targets, samples in order (log 18). -/
def slotBytes (p : Pass) (sl : TileSlot) : List Byte :=
  sl.dep.flatMap (leBytes 4) ++
    (p.tgts.zip sl.col).flatMap (fun (t, c) => c.flatMap (fun x => x.flatMap (leBytes (tgtSample t.fmt / 4))))

def slotOf (p : Pass) (bs : List Byte) : List Nat × List (List (List Nat)) :=
  let n := 1024 * p.ns
  let d := if p.dfmt then n else 0
  let rec cols (o : Nat) : List Tgt → List (List (List Nat))
    | [] => []
    | t :: ts =>
      let b := tgtSample t.fmt / 4
      (List.range n).map (fun i => (List.range 4).map (fun c => u bs (o + (4 * i + c) * b) b)) :: cols (o + 4 * n * b) ts
  ((List.range d).map (fun i => u bs (4 * i) 4), cols (4 * d) p.tgts)

/-- Four-sample resolve: the average in FP32, RNE. -/
def resolve (fmt : Nat) (xs : List (List Nat)) : List Nat :=
  (List.range 4).map (fun c =>
    let v := xs.map (fun x => ofInner fmt (nth 0 x c))
    match v with
    | [a] => a
    | a :: r => f32Mul (r.foldl f32Add a) (f32Ratio 1 xs.length)
    | [] => 0)

/-- Store a finished tile. -/
def storeTile (rq : MReq) (p : Pass) (sl : TileSlot) : Eng Unit := do
  let (tx, ty) := p.tileXY sl.tile
  for (t, c) in p.tgts.zip sl.col do
    if t.store then
      eWriteTexels rq t.swz (texBlk t.fmt 0 0).1 ((p.tilePixels tx ty).map (fun (x, y) =>
        (p.texelAddr t (32 * tx + x) (32 * ty + y),
          texelBytes t.fmt (resolve t.fmt ((List.range p.ns).map (fun i => nth [] c (sampleIx p.ns x y i)))))))
  if p.dfmt && p.dstore then
    eWriteTexels rq false 4 ((p.tilePixels tx ty).map (fun (x, y) =>
      (p.depthAddr (32 * tx + x) (32 * ty + y), leBytes 4 (nth 0 sl.dep (sampleIx p.ns x y 0)))))

/-! ### The pass -/

/-- Named units in ascending order. -/
def Desc.passUnits (d : Desc) : List Nat := (List.range 4).filter (fun k => d.parts.any (fun p => p.isl == 4 + k))

/-- The unit at work is noted, for the error's island. -/
def eUnit (d : Desc) (k : Nat) : Eng Unit := eMod (fun s => s.updDesc d.id (fun x => { x with unitId := 4 + k }))

/-- Owner of a tile (R284). -/
def tileOwner (us : List Nat) (tx ty : Nat) : Nat := nth 0 us ((tx + 2 * ty) % max 1 us.length)

/-- The core of the owner's cluster with most free slots of the context's share (R284). -/
def State.shadingCore (s : State) (c k : Nat) : Nat :=
  (List.range 8).foldl (fun best j =>
    if (s.shareUsed c (8 * k + j)).1 < (s.shareUsed c best).1 then 8 * k + j else best) (8 * k)

/-- Unit `k` takes the next move of the pass: it waits where its part does not run (R299). -/
def eNeed (d : Desc) (k : Nat) : Eng MReq := do
  if !d.parts.any (fun p => p.isl == 4 + k && p.active) then throw .wait
  eUnit d k
  let s ← eGet
  return s.mreq d (4 + k)

/-- A draw's record and shaders, checked (R308, R309). -/
def eDraw (p : Pass) (d : Desc) (rq : MReq) (i : Nat) : Eng (Draw × Kern × Kern) := do
  let b ← eRead rq (p.draws + 128 * i) 128
  let s ← eGet
  if s.drawBad (s.ctxOf d) b then eFail 0xA9 i
  let dr := drawOf b
  let kern (im : Nat) : Eng Kern := do
    if !inSpdDram im 64 then eFail 0xA9 i
    let h ← eRead rq im 64
    if imageBad s im h then eFail 0xA9 i
    return ⟨d.id, im, u h 8 4, u h 4 4, dr.arg, dr.textab, 1, 1, 1, 1, 0, 0, p.outs, 0⟩
  let kv ← kern dr.vs
  let kp ← kern dr.ps
  return (dr, kv, kp)

/-- A pass as it starts, its directory cleared. -/
def passStart (d : Desc) : Eng PassSt := do
  let s ← eGet
  let pb ← eRead (s.mreq d 36) d.pbAddr (64 * d.pbLen)
  let p := passOf pb
  let rq ← eNeed d (nth 0 d.passUnits 0)
  clearDir rq p
  return ⟨d.id, p, 1, [], [], [], 0, [], 0, 0, Pool.fresh p, [], 1, [], []⟩

/-- The next draw: its record, its shaders and its triangles. -/
def geoDraw (d : Desc) (st : PassSt) : Eng PassSt := do
  let rq ← eNeed d (nth 0 d.passUnits 0)
  let x ← eDraw st.p d rq st.draws.length
  let idx ← drawIndices rq x.1
  return { st with draws := st.draws ++ [x], tris := drawTris x.1 idx, left := [], inst := 0 }

/-- The unit that a batch is dealt to (R288). -/
def PassSt.binner (st : PassSt) (us : List Nat) : Nat × Nat :=
  let j := st.batch % max 1 us.length
  (j, nth 0 us j)

/-- Shade and assemble the next batch of an instance (R288, R289). -/
def geoBatch (d : Desc) (st : PassSt) (dr : Draw) (kv : Kern) : Eng PassSt := do
  let k := (st.binner d.passUnits).2
  let _ ← eNeed d k
  let tris := st.left.take 32
  let vs ← shadeVerts ⟨st.p, d, st.draws⟩ k (st.draws.length - 1) st.batch (st.inst - 1) dr kv 4
    (distinct (tris.flatMap (fun t => [t.1, t.2.1, t.2.2])))
  let vert (i : Nat) : SVert := match vs.find? (fun v => v.1 == i) with
    | some v => v.2
    | none => ⟨[], []⟩
  return { st with left := st.left.drop 32, bins := tris.map (fun (a, b, c) => st.p.pieces dr (vert a) (vert b) (vert c)) }

/-- Bin the next triangle of the batch, with its SEQ; without a free chunk the pass flushes first, or ends (R287, R296, R297). -/
def geoBin (d : Desc) (st : PassSt) (dr : Draw) (ps : List Piece) (rest : List (List Piece)) : Eng PassSt := do
  let (j, k) := st.binner d.passUnits
  let rq ← eNeed d k
  let di := st.draws.length - 1
  if 0xFFFFFFFE < st.seq then eFail 0xA9 di
  let past := { st with bins := rest, seq := st.seq + 1, batch := if rest.isEmpty then st.batch + 1 else st.batch }
  if ps.isEmpty then
    eMod (fun s => s.bump (GFX_CNT_CULLED_COUNT k) 1)
    return past
  match st.pool.binAll st.p j di st.seq dr ps with
  | some (q, w) =>
    for (o, bs) in w do
      eWrite rq false 0 (st.p.pool + o) bs
    eMod (fun s => s.bump (GFX_CNT_PRIMS_COUNT k) 1)
    return { past with pool := q }
  | none =>
    if st.p.flush = 0 ∨ st.cleared = st.batch + 1 then eFail 0xA8 st.seq
    eMod (fun s => d.passUnits.foldl (fun s k => s.bump (GFX_CNT_FLUSH_COUNT k) 1) s)
    return { st with phase := 3, next := [] }

/-- A move of the geometry phase (R283, R286). -/
def geoMove (d : Desc) (st : PassSt) : Eng PassSt := do
  match st.draws.getLast? with
  | none => geoDraw d st
  | some (dr, kv, _) =>
    match st.bins with
    | ps :: rest => geoBin d st dr ps rest
    | [] =>
      if !st.left.isEmpty then geoBatch d st dr kv
      else if st.inst < dr.inst ∧ !st.tris.isEmpty then return { st with left := st.tris, inst := st.inst + 1 }
      else if st.draws.length < st.p.n then geoDraw d st
      else return { st with phase := 2, next := [] }

/-- The next tile that unit `k` owns and has not begun in this phase (R285). -/
def PassSt.tileAt (st : PassSt) (us : List Nat) (k : Nat) : Option Nat :=
  ((List.range (st.p.tw * st.p.th)).drop (mget (fun _ => 0) st.next k)).find? (fun i =>
    tileOwner us (i % st.p.tw) (i / st.p.tw) == k)

/-- The tiles that unit `k` holds, lowest first. -/
def PassSt.held (st : PassSt) (k : Nat) : List TileSlot := st.slots.filter (fun x => x.unit' == k)

/-- Unit `k` takes a tile: its sequence, its shading core, and its samples cleared, loaded or as the flush left them. A flush
passes over tiles without an entry (R284, R295, R296). -/
def tileBegin (d : Desc) (st : PassSt) (k i : Nat) : Eng PassSt := do
  let rq ← eNeed d k
  let seq ← tilePrims rq st.p i
  let st := { st with next := mins k (i + 1) st.next }
  if st.phase = 3 ∧ seq.isEmpty then return st
  let s ← eGet
  let (tx, ty) := st.p.tileXY i
  let (dep, col) ← if st.flushed.contains i then
      (do let bs ← eRead rq (st.p.flush + i * st.p.pitch) st.p.slot
          return slotOf st.p bs)
    else startTile rq st.p tx ty
  eMod (fun s => s.bump (GFX_CNT_TILES_COUNT k) 1)
  return { st with slots := st.slots ++ [⟨k, i, s.shadingCore (s.ctxOf d) k, seq, 0, [], dep, col, []⟩] }

/-- Unit `k` works on the lowest tile it holds: its next triangle, or its end: the pending tags are shaded, the tile is stored, or
at a flush goes to the flush area. -/
def tileWork (d : Desc) (st : PassSt) (k : Nat) (x : TileSlot) : Eng PassSt := do
  let rq ← eNeed d k
  let e : PEnv := ⟨st.p, d, st.draws⟩
  match x.seq[x.pos]? with
  | some pr =>
    let s ← eGet
    let y ← tilePrim e pr (s.getA (GFX_CFG_HSR_EN k) == 1) x
    return { st with slots := st.slots.map (fun z => if z.tile = x.tile then y else z) }
  | none =>
    let y ← shadePending e x
    let y ← eSlotWords y (y.err.map (fun w => w.1))
    if st.phase = 2 then storeTile rq st.p y
    else eWrite rq false 0 (st.p.flush + x.tile * st.p.pitch) (slotBytes st.p y)
    return { st with slots := st.slots.filter (fun z => z.tile != x.tile),
                     flushed := if st.phase = 2 ∨ st.flushed.contains x.tile then st.flushed else st.flushed ++ [x.tile] }

/-- What unit `k` has to do in a tile phase or a flush: it fills its eight slots first. -/
def tileMove (d : Desc) (st : PassSt) (k : Nat) : Eng PassSt :=
  match st.tileAt d.passUnits k, st.held k with
  | some i, hs => if hs.length < 8 then tileBegin d st k i else match hs with
    | x :: _ => tileWork d st k x
    | [] => return st
  | none, x :: _ => tileWork d st k x
  | none, [] => return st

/-- A move of a pass: one of the geometry phase, or one of the lowest unit that runs and has a tile left; none once every tile is
stored (R283, R296). -/
def passMove (d : Desc) : Option PassSt → Eng (Option PassSt)
  | none => do
    let st ← passStart d
    return some st
  | some st => do
    if st.phase = 1 then
      let st ← geoMove d st
      return some st
    let us := d.passUnits
    let busy := us.filter (fun k => (st.tileAt us k).isSome || !(st.held k).isEmpty)
    if busy.isEmpty then
      if st.phase = 2 then return none
      let rq ← eNeed d (nth 0 us 0)
      clearDir rq st.p
      return some { st with phase := 1, pool := Pool.fresh st.p, cleared := st.batch + 1, next := [] }
    match busy.find? (fun k => d.parts.any (fun p => p.isl == 4 + k && p.active)) with
    | none => throw .wait
    | some k =>
      let st ← tileMove d st k
      return some st

/-- The error log of a raster unit (R314). -/
def State.gfxLog (s : State) (d : Desc) (k code detail : Nat) : State :=
  let sec := s.secureDesc d
  let s := ((s.put (GFX_ERR_LOG0_DETAIL k) (if sec then 0 else detail % 2 ^ 48)).put (GFX_ERR_LOG0_STATUS k) code).put
    (GFX_ERR_LOG0_CTX k) (if sec then 0 else s.ctxOf d)
  let s := s.put (GFX_ERR_LOG1_TIME k) s.beacon
  if sec then s else s.emitError (4 + k) (0x800000 + k * 0x10000) (s.reg (GFX_ERR_LOG0 k)).toNat

def State.passOf? (s : State) (i : Nat) : Option PassSt := s.passes.find? (fun x => x.desc == i)

/-- Make one move of pass `i`; is it to go on? An error is that of the unit at work, and ends the pass on every unit. -/
def State.passStep (s : State) (d : Desc) : State × Bool :=
  let cnt (s1 : State) : State := if s.secureDesc d then s.keepCounters s1 else s1
  match (passMove d (s.passOf? d.id)).run.run s with
  | (.ok (some st), s1) =>
    let s1 := cnt s1
    ({ s1 with passes := s1.passes.filter (fun x => x.desc != d.id) ++ [st] }, true)
  | (.ok none, s1) =>
    let s1 := { s1 with lastCl := mset (fun _ => 4) s1.lastCl (s.ctxOf d) (nth 0 d.passUnits 0) }
    (((cnt s1).dropLaunch d.id).setResults d.id (d.parts.map (fun p => (p.isl, 0, 0))), false)
  | (.error .wait, s1) => (s.keepRequests s1, false)
  | (.error (.fail c y), s1) =>
    let isl := match s1.desc? d.id with
      | some x => x.unitId
      | none => 4
    ((((cnt s1).gfxLog d (isl - 4) c y).dropLaunch d.id).setResults d.id
      (d.parts.map (fun p => if p.isl = isl then (isl, c, y) else (p.isl, 0, 0))), false)

/-- GFX_STATUS of every unit (R313). -/
def State.refreshGfx (s : State) : State := (List.range 4).foldl (fun s k =>
  match s.descs.find? (fun d => d.phase == .dispatched && d.opc == 0xA0 &&
      d.parts.any (fun p => p.isl == 4 + k && (p.active || p.st == .stopped))) with
  | some d =>
    let stopped := d.parts.any (fun p => p.isl == 4 + k && p.st == .stopped)
    let (ph, n) := match s.passOf? d.id with
      | some x => (x.phase, (x.held k).length)
      | none => (1, 0)
    (((s.put (GFX_STATUS_BUSY k) 1).put (GFX_STATUS_CTX k) (s.ctxOf d)).put (GFX_STATUS_PHASE k) (if stopped then 4 else ph)).put
      (GFX_STATUS_SLOTS k) n
  | none => ((s.put (GFX_STATUS_BUSY k) 0).put (GFX_STATUS_PHASE k) 0).put (GFX_STATUS_SLOTS k) 0) s

/-- Move pass `i` on until it ends or no unit that runs can go on. -/
def State.passRun : Nat → Nat → State → State
  | 0, _, s => s
  | n + 1, i, s =>
    match s.desc? i with
    | none => s
    | some d =>
      if !d.runnable 0xA0 || !s.clocked d then s
      else if (s.passStep d).2 then State.passRun n i (s.passStep d).1 else (s.passStep d).1

/-- GFX_PASS: the pass runs on the units whose parts run; where one of them stops, or a request is held, it stands until the
command comes again. -/
def execGfxPass (i : Nat) (s : State) : Out := .next (s.passRun shaderFuel i).refreshGfx

/-! ### GFX_TEX_SWIZZLE (R310) -/

def swzFmt (d : Desc) : Nat := bitsOf (d.u 40 4) 0 5
def swzW (d : Desc) : Nat := bitsOf (d.u 36 4) 0 14 + 1
def swzH (d : Desc) : Nat := bitsOf (d.u 36 4) 16 14 + 1
def swzAw (d : Desc) : Nat := bitsOf (d.u 40 4) 5 4
def swzAh (d : Desc) : Nat := bitsOf (d.u 40 4) 9 4

def State.swizzleCheck (s : State) (d : Desc) : Verdict :=
  let dst := bitsOf (d.u 24 8) 0 48
  let astc := decide (0x14 ≤ swzFmt d)
  match minOff (reservedAt 16 48 [(16, 0, 48), (24, 0, 48), (32, 0, 32), (36, 0, 14), (36, 16, 14), (40, 0, 13)] d.bytes)
      (firstBad [(dst % 4096 != 0, 24), (decide (0x16 ≤ swzFmt d) || (if astc then !astcOk (swzAw d) (swzAh d) else swzAw d != 0), 40),
        (!astc && swzAh d != 0, 41)]) with
  | some o => malformed o
  | none =>
    let outs := [(dst, levelBytes (swzFmt d) (swzAw d) (swzAh d) (swzW d) (swzH d) 0)]
    match s.clustersPresent with
    | [] => .refuse 0x31 4 outs
    | k :: _ => .go { isls := [4 + k], units := 2, outs := fun _ => outs }

/-- What the engine of 0xA1 does (see execGfxTexSwizzle). -/
def workGfxTexSwizzle (x : Desc) : Eng (List PartRes) := do
    let s ← eGet
    let isl := nth 4 x.isls 0
    let rq := s.mreq x isl
    eLogged (fun c y s => s.gfxLog x (isl - 4) c y) do
    let fmt := swzFmt x
    let (b, bw, bh) := texBlk fmt (swzAw x) (swzAh x)
    let n := levelBytes fmt (swzAw x) (swzAh x) (swzW x) (swzH x) 0
    eMod (fun s => s.freshen n)
    let mut img : SMap Byte := []
    for r in List.range (cdiv (swzH x) bh) do
      let row ← eRead rq (bitsOf (x.u 16 8) 0 48 + r * x.u 32 4) (b * cdiv (swzW x) bw)
      for c in List.range (cdiv (swzW x) bw) do
        let o := swizzleOff fmt (swzAw x) (swzAh x) (swzW x) c r
        img := ((List.range b).zip ((row.drop (c * b)).take b)).foldl (fun m (i, v) => mins (o + i) v m) img
    let done := img
    for p in List.range (n / 4096) do
      eWrite rq false 4 (bitsOf (x.u 24 8) 0 48 + 4096 * p)
        ((List.range 4096).map (fun i => mget (fun k => Config.freeByte (s.fresh + k)) done (4096 * p + i)))
    return [(isl, 0, 0)]

/-- GFX_TEX_SWIZZLE: bytes of a page outside the image are open (log 7). -/
def execGfxTexSwizzle (d : Nat) (s : State) : Out := .next (s.runWork d 0xA1 workGfxTexSwizzle)

end Sys2Proof.Machine
end

