-- ==== Sys2Proof/Machine/Checks.lean ====
section
/-!
DEFINITION. The pre-dispatch check (R63, R65) of every opcode: the layouts that no earlier file holds, and the one verdict.
-/

namespace Sys2Proof.Machine

/-! ### Layouts of the common, scratchpad, display, capture, gateway, link, debug and safety opcodes -/

/-- A plan that holds no unit of its island. -/
def onIsland (isl : Nat) (outs : List (Nat × Nat)) : Verdict := .go { isls := [isl], units := 0, outs := fun _ => outs }

/-- A check over the body alone: reserved bits and violated fields. -/
def bodyCheck (d : Desc) (named : List FieldAt) (bad : List (Bool × Nat)) (v : Verdict) : Verdict :=
  match minOff (reservedAt 16 48 named d.bytes) (firstBad bad) with
  | some o => malformed o
  | none => v

def Desc.a16 (d : Desc) : Nat := bitsOf (d.u 16 8) 0 48
def Desc.a24 (d : Desc) : Nat := bitsOf (d.u 24 8) 0 48

/-- NOP, SEM_WRITE, TIMESTAMP (R55). -/
def nopCheck (d : Desc) : Verdict := bodyCheck d [] [] (onIsland 36 [])
def semWriteCheck (d : Desc) : Verdict :=
  bodyCheck d [(16, 0, 12), (16, 12, 2), (20, 0, 32)] [(bitOf (d.u 16 2) 13, 17)] (onIsland 36 [])
def stampCheck (d : Desc) : Verdict :=
  bodyCheck d [(16, 0, 48)] [(d.a16 % 8 != 0, 16)] (onIsland 36 [(d.a16, 8)])

/-- SPD_BORROW and SPD_RETURN (R225). -/
def Desc.count10 (d : Desc) : Nat := bitsOf (d.u 16 2) 0 10
def borrowCheck (d : Desc) : Verdict :=
  bodyCheck d [(16, 0, 10), (24, 0, 48)] [(d.count10 == 0 || decide (512 < d.count10), 16), (d.a24 % 8 != 0, 24)]
    (onIsland 36 [(d.a24, 8 * d.count10)])
def returnCheck (d : Desc) : Verdict :=
  bodyCheck d [(16, 0, 10), (24, 0, 48)] [(d.count10 == 0 || decide (512 < d.count10), 16), (d.a24 % 8 != 0, 24)]
    (onIsland 36 [])

/-- A plane record's fields (R335). -/
def planeFields (o : Nat) : List FieldAt :=
  [(o, 0, 48), (o + 8, 0, 48), (o + 16, 0, 32), (o + 20, 0, 13), (o + 20, 16, 13), (o + 24, 0, 13), (o + 24, 16, 13),
    (o + 28, 0, 13), (o + 28, 16, 13)]

/-- What a plane record violates (R318, R319, R335): `hact` and `vact` are none while the engine is off. -/
def planeBad (p : Nat) (area : Option (Nat × Nat)) (pb : List Byte) (o : Nat) : List (Bool × Nat) :=
  let fmt := bitsOf (u pb (o + 16) 4) 16 4
  let swz := bitOf (u pb (o + 16) 4) 20
  let sw := bitsOf (u pb (o + 20) 4) 0 13
  let sh := bitsOf (u pb (o + 20) 4) 16 13
  let dw := bitsOf (u pb (o + 28) 4) 0 13
  let dh := bitsOf (u pb (o + 28) 4) 16 13
  let scaleBad (s d : Nat) : Bool := if p < 4 then decide (4 * d < s) || decide (8 * s < d) else s != d
  [(fmt != 5 && fmt != 6 && bitsOf (u pb (o + 8) 8) 0 48 != 0, o + 8), (swz && u pb (o + 16) 2 != 0, o + 16),
   (decide (7 < fmt) || (decide (5 ≤ fmt) && (decide (4 ≤ p) || swz)), o + 18),
   (sw == 0 || decide (5120 < sw) || scaleBad sw dw, o + 20), (sh == 0 || decide (5120 < sh) || scaleBad sh dh, o + 22),
   (match area with
    | some (h, _) => decide (h < bitsOf (u pb (o + 24) 4) 0 13 + dw)
    | none => false, o + 24),
   (match area with
    | some (_, v) => decide (v < bitsOf (u pb (o + 24) 4) 16 13 + dh)
    | none => false, o + 26)]

/-- DISP_FLIP: the records of planes not marked are not read (R335). -/
def State.flipCheck (s : State) (pb : List Byte) : Verdict :=
  let n := bitsOf (u pb 0 4) 0 2
  let planes := maskBits 8 (bitsOf (u pb 0 4) 2 8)
  let area := if s.flagA (DISP_TIM_CLK_ENABLE n) then some (s.getA (DISP_TIM_H_HACT n), s.getA (DISP_TIM_V_VACT n)) else none
  match minOff (planes.foldl (fun m p => minOff m (reservedAt (64 + 32 * p) 32 (planeFields (64 + 32 * p)) pb))
      (reservedAt 0 64 [(0, 0, 10)] pb))
      (firstBad (planes.flatMap (fun p => planeBad p area pb (64 + 32 * p)))) with
  | some o => pbInvalid o
  | none => onIsland 32 []

/-- DISP_SAFETY (R336). -/
def State.safetyCheck (s : State) (pb : List Byte) : Verdict :=
  let n := bitsOf (u pb 0 4) 0 2
  let flds := (0, 0, 2) :: (List.range 16).flatMap (fun r =>
    let o := 64 + 16 * r
    [(o, 0, 13), (o, 16, 13), (o + 4, 0, 13), (o + 4, 16, 13), (o + 8, 0, 32), (o + 12, 0, 2)])
  match reservedAt 0 320 flds pb with
  | some o => pbInvalid o
  | none => if s.isRetired (chDisp n) then .refuse 0x31 n [] else onIsland 32 []

/-- DISP_AUX (R334). -/
def State.auxCheck (s : State) (d : Desc) : Verdict :=
  let n := bitsOf (d.u 16 1) 0 2
  let len := bitsOf (d.u 16 4) 24 5 + 1
  let outs := if bitOf (d.u 16 1) 2 then [] else [(d.a24, len)]
  bodyCheck d [(16, 0, 29), (24, 0, 48)] [(decide (16 < len), 19)]
    (if s.isRetired (chDisp n) then .refuse 0x31 n outs else onIsland 32 outs)

/-- CAP_FRAME (R334). -/
def State.capCheck (s : State) (d : Desc) : Verdict :=
  let outs := [(d.a16 + 64, d.u 24 4 - 64)]
  let i := bitsOf (d.u 28 2) 0 3
  bodyCheck d [(16, 0, 48), (24, 0, 32), (28, 0, 13), (32, 0, 64)]
    [(d.a16 % 64 != 0, 16), (decide (d.u 24 4 < 64 + d.u 36 2 * d.u 32 4), 24),
     (d.u 36 2 == 0 || decide (16384 < d.u 36 2), 36), (d.u 38 2 == 0, 38)]
    (if s.isRetired (chCam i) then .refuse 0x31 i outs else onIsland 32 outs)

def audMask (d : Desc) : Nat := bitsOf (d.u 28 4) 2 16
def audBytes (d : Desc) : Nat := d.u 24 3 * popc 16 (audMask d) * 4

/-- CAP_AUDIO: the buffer fits when it lies whole in one mapped range (R334). -/
def State.audioCheck (s : State) (d : Desc) : Verdict :=
  let p := bitsOf (d.u 28 1) 0 2
  bodyCheck d [(16, 0, 48), (24, 0, 24), (28, 0, 18)]
    [(d.a16 % 64 != 0 || (s.addrError d.a16 (64 + audBytes d)).isSome, 16), (d.u 24 3 == 0 || decide (65536 < d.u 24 3), 24),
     (audMask d == 0 || decide (2 ^ s.getA (CAP_TDM_CFG_SLOTS p) ≤ audMask d), 28)]
    (onIsland 32 [(d.a16 + 64, audBytes d)])

/-- GW_TX, GW_RX, GW_SIG_READ (R558). -/
def gwTxCheck (d : Desc) : Verdict :=
  bodyCheck d [(16, 0, 48), (24, 0, 48)] [(d.u 28 2 == 0, 28)] (onIsland 33 [])
def gwRxCheck (d : Desc) : Verdict :=
  bodyCheck d [(16, 0, 48), (24, 0, 48), (32, 0, 17)] [(d.a16 % 32 != 0, 16), (d.u 28 2 == 0, 28)]
    (onIsland 33 [(d.a16, d.u 24 4)])
def sigFirst (d : Desc) : Nat := bitsOf (d.u 24 4) 0 10
def sigCount (d : Desc) : Nat := bitsOf (d.u 24 4) 10 11
def sigReadCheck (d : Desc) : Verdict :=
  bodyCheck d [(16, 0, 48), (24, 0, 21)]
    [(decide (1024 < sigFirst d + sigCount d), 24), (sigCount d == 0 || decide (1024 < sigCount d), 25)]
    (onIsland 33 [(d.a16, 96 * sigCount d)])

/-- WBR_ATOMIC (R567). -/
def State.atomicCheck (s : State) (d : Desc) : Verdict :=
  let n := if bitOf (d.u 24 1) 2 then 8 else 4
  let semOff := match s.winOf d.a16 with
    | some w => !s.flag (WBR_WIN_W0_SEM_EN w)
    | none => false
  let res := bitsOf (d.u 48 8) 0 48
  bodyCheck d [(16, 0, 48), (24, 0, 3), (32, 0, 64), (40, 0, 64), (48, 0, 48)]
    [(d.a16 % n != 0 || spaceOf d.a16 != .host || semOff, 16), (bitsOf (d.u 24 1) 0 2 == 3, 24), (res % 8 != 0, 48)]
    (onIsland 33 [(res, 8)])

/-- LNK_SEM_SIGNAL and LNK_ECHO (R537). -/
def lnkDev (d : Desc) : Nat := bitsOf (d.u 16 1) 0 6
def State.lnkSignalCheck (s : State) (d : Desc) : Verdict :=
  bodyCheck d [(16, 0, 18), (20, 0, 32)] [(lnkDev d == s.get LNK_CFG_DEV_ID, 16), (d.u 20 4 == 0, 20)] (onIsland 34 [])
def State.echoCheck (s : State) (d : Desc) : Verdict :=
  bodyCheck d [(16, 0, 6), (24, 0, 48)] [(lnkDev d == s.get LNK_CFG_DEV_ID, 16), (d.a24 % 8 != 0, 24)]
    (onIsland 34 [(d.a24, 8)])

/-- DBG_SNAPSHOT, DBG_MARK, DBG_DUMP (R583). -/
def snapCheck (d : Desc) : Verdict := bodyCheck d [(16, 0, 64)] [] (onIsland 36 [])
def markCheck (d : Desc) : Verdict := bodyCheck d [(16, 0, 32), (24, 0, 64)] [] (onIsland 36 [])

/-- SAF_GOLDEN_RUN and SAF_INJECT (R434). -/
def State.goldenCheck (s : State) (d : Desc) : Verdict :=
  let m := d.u 16 1
  bodyCheck d [(16, 0, 8)] [(m == 0 || (maskBits 8 m).any s.isRetired, 16)] (onIsland 36 [])
def injKind (d : Desc) : Nat := bitsOf (d.u 16 2) 0 4
def injTarget (d : Desc) : Nat := bitsOf (d.u 16 2) 4 6
def injCount (d : Desc) : Nat := bitsOf (d.u 16 2) 10 3
def injectCheck (d : Desc) : Verdict :=
  let k := injKind d
  bodyCheck d [(16, 0, 13), (24, 0, 48)]
    [(decide (4 < k) || ((k == 0 || k == 3) && decide (3 < injTarget d)) || (k == 4 && decide (7 < injTarget d)), 16),
     ((k == 0 || k == 4) && injCount d == 0, 17), ((k == 1 || k == 2) && d.a24 % 32 != 0, 24)]
    (onIsland 36 [])

/-! ### The header (R50, R51, R63, R387) -/

/-- The local number of the queue that holds a descriptor. -/
def State.localQ (s : State) (q : Nat) : Nat := q - (if s.qFn q = 0 then 0 else s.get (VIRT_FN_W0_QBASE (s.qFn q)))

/-- The lowest offending byte of the header. -/
def State.headerBad (s : State) (d : Desc) : Option Nat :=
  firstBad [(d.qid != s.localQ d.q, 2), (decide (32 ≤ d.deadline) && d.deadline % 32 == 0, 11)]

/-- A queue marked secure (R452). -/
def State.secureQ (s : State) (q : Nat) : Bool := bitOf (s.get (LNT_SQ_SECURE (q / 64))) (q % 64)

/-- CTX_INVALID (R63, R346, R452). -/
def State.ctxBad (s : State) (d : Desc) : Bool :=
  let f := s.qFn d.q
  let c := s.ctxOf d
  let st := s.get (SCH_CTX_STAT_STATE c)
  (f != 0 && decide (s.cnt (VIRT_FN_W1_CTXCNT f) ≤ d.ctxF)) || decide (256 ≤ c) || s.get (SCH_CTX_CFG_FUNC c) != f ||
    !([2, 3].contains st || (st == 4 && decide (d.id < (mget (fun _ => 0) s.relC c)))) ||
    s.ctxW c != s.secureQ d.q

/-- A semaphore that the queue's function does not own (R63, R387). -/
def State.semBad (s : State) (d : Desc) (i : Nat) : Bool :=
  let f := s.qFn d.q
  (f != 0 && decide (s.cnt (VIRT_FN_W1_SEMCNT f) ≤ i)) || decide (4096 ≤ s.semOf d i) ||
    s.get (CMD_SEM_FUNC (s.semOf d i)) != f

/-- The first semaphore named that is not the function's: waited on, signalled, and SEM of SEM_WRITE. -/
def State.semInvalid (s : State) (d : Desc) : Option Nat :=
  ((if d.waitTgt ≠ 0 then [d.waitIdx] else []) ++ (if d.sigVal ≠ 0 then [d.sigIdx] else []) ++
    (if d.opc = 1 then [bitsOf (d.u 16 2) 0 12] else [])).find? (s.semBad d)

/-- The opcodes with a parameter block: the rule for PB_LEN. -/
def pbRule (opc : Nat) : Option (Nat → Bool) :=
  if opc = 0x20 ∨ opc = 0x60 ∨ opc = 0x80 then some (· == 2)
  else if opc = 0x61 ∨ opc = 0xA0 then some (· == 3)
  else if opc = 0xB0 ∨ opc = 0xB1 then some (· == 5)
  else if opc = 0x40 then some (fun _ => true)
  else none

/-- The check of a block that has been read. -/
def State.blockCheck (s : State) (d : Desc) (pb : List Byte) : Verdict :=
  match d.opc with
  | 0x20 => s.gemmCheck pb
  | 0x40 => s.winCheck2 d pb
  | 0x60 => s.attCheck pb
  | 0x61 => s.mergeCheck pb
  | 0x80 => s.launchCheck d pb
  | 0xA0 => s.passCheck d pb
  | 0xB0 => s.flipCheck pb
  | _ => s.safetyCheck pb

/-- The check of an opcode without a block; BAD_OPCODE for a reserved one. -/
def State.bodyVerdict (s : State) (d : Desc) : Verdict :=
  match d.opc with
  | 0x00 => nopCheck d
  | 0x01 => semWriteCheck d
  | 0x02 => stampCheck d
  | 0x10 => d.copyCheck
  | 0x11 => d.fillCheck
  | 0x12 => d.claimCheck
  | 0x13 => d.wloadCheck
  | 0x14 => borrowCheck d
  | 0x15 => returnCheck d
  | 0x21 => s.drainCheck d
  | 0x22 => s.clearCheck d
  | 0x41 => s.prepCheck d
  | 0x62 => s.appendCheck d
  | 0x63 => s.tlbCheck d
  | 0x81 => s.icacheCheck d
  | 0xA1 => s.swizzleCheck d
  | 0xB2 => s.auxCheck d
  | 0xB8 => s.capCheck d
  | 0xB9 => s.audioCheck d
  | 0xC0 => gwTxCheck d
  | 0xC1 => gwRxCheck d
  | 0xC2 => sigReadCheck d
  | 0xC3 => s.atomicCheck d
  | 0xD0 => s.lnkSignalCheck d
  | 0xD1 => s.echoCheck d
  | 0xE0 => snapCheck d
  | 0xE1 => markCheck d
  | 0xE2 => nopCheck d
  | 0xE8 => s.goldenCheck d
  | 0xE9 => injectCheck d
  | o => .stop 0x11 o

/-- The codes that stop the queue come before every other outcome, in ascending order (R63, R65). -/
def State.verdict (s : State) (d : Desc) : State × Verdict :=
  let body : Option Nat × Verdict :=
    match pbRule d.opc with
    | some lenOk => (d.pbBad lenOk [], .wait)
    | none => match s.bodyVerdict d with
      | .stop 0x10 o => (some o, .wait)
      | v => (none, v)
  match minOff (s.headerBad d) body.1 with
  | some o => (s, malformed o)
  | none =>
    match body.2 with
    | .stop c x => (s, .stop c x)
    | v =>
      if s.ctxBad d then (s, .stop 0x12 d.ctxF) else
      let (s, v) := match pbRule d.opc with
        | none => (s, v)
        | some _ =>
          match s.readPb d with
          | (s, .error (.fail c x)) => (s, .pbRead c x)
          | (s, .error .wait) => (s, .wait)
          | (s, .ok pb) => (s, s.blockCheck d pb)
      match v with
      | .stop 0x13 x => (s, .stop 0x13 x)
      | v => match s.semInvalid d with
        | some i => (s, .stop 0x14 i)
        | none => (s, v)

/-- The outputs that a descriptor would declare (R27), as its check finds them; none when the check does not pass. -/
def State.declOuts (s : State) (d : Desc) : State × List (Nat × Nat) :=
  match s.verdict d with
  | (s, .go p) => (s, p.outs (if p.isls.isEmpty then s.arraysPresent else p.isls))
  | (s, .refuse _ _ outs) => (s, outs)
  | (s, _) => (s, [])

end Sys2Proof.Machine
end

