-- ==== Sys2Proof/Machine/Gate.lean ====
section
/-!
DEFINITION. What stands in front of a register: does the block answer (R622), may this requester change it (R391, R442,
R458), which islands are secure-assigned (R453), and the local numbers of a function's view (R387, R391).
-/

namespace Sys2Proof.Machine

/-- LNT_SEC_ISL as the islands stand. -/
def State.secIslMask (s : State) : Nat :=
  ((List.range 24).filter s.secIsl).foldl (fun m i => m + 2 ^ i) 0

/-- Does the block that holds PF offset `off` answer (R622)? -/
def State.answers (s : State) (off : Nat) : Bool :=
  ((s.flag TOP_FW_STAT_READY || s.flag TOP_FW_STAT_PAUSE) && !s.flag TOP_FW_STAT_RECOVERY) || decide (off < 0x100000) ||
    decide (0xF00000 ≤ off ∧ off < 0x1000000) || decide (0x1700000 ≤ off ∧ off < 0x1800000)

/-- Can a requester's access reach BAR0 at all? Functions need the link, and VFs VF Enable; cold reset holds everything. -/
def State.reaches (s : State) (rq : Requester) : Bool :=
  !s.dead && (match rq with
    | .fn n => s.pcie.linkUp && (n == 0 || (s.pcie.vfEnable && decide (n ≤ s.pcie.numVf)))
    | _ => true)

/-- The island whose controls an offset holds: its staged registers and its PWR controls (R458). -/
def controlIsland (off : Nat) : Option Nat :=
  match stagedIsland off with
  | some i => if i < 24 then some i else none
  | none => none

/-- Why a register is shut to a requester: the kind and island of the security event (R442, R458, R469). -/
def State.shut (s : State) (rq : Requester) (off : Nat) : Option (Nat × Nat) :=
  if rq = .lantern then none
  else match controlIsland off with
    | some i => if s.secIsl i then some (1, i) else none
    | none =>
      if 0x510000 ≤ off ∧ off < 0x510200 then some (0, 0x3F) else none

/-- An access that no register answers (R17). -/
def State.unmapped (s : State) : State := s.bump TOP_ERR_UNMAPPED_COUNT 1

/-! ### A write by access type (R3, R5, R6) -/

/-- Is the value an encoding that is not reserved? -/
def Accept.ok : Accept → Nat → Bool
  | .any, _ => true
  | .range lo hi, v => decide (lo ≤ v) && decide (v ≤ hi)
  | .zeroOr lo hi, v => v == 0 || (decide (lo ≤ v) && decide (v ≤ hi))
  | .multiple lo hi k, v => decide (lo ≤ v) && decide (v ≤ hi) && v % k == 0
  | .not x, v => v != x

/-- The bits of a field that a write covers, taken from the written value; the others from the old one. -/
def FieldSpec.merge (f : FieldSpec) (old new mask : Nat) : Nat :=
  let m := bitsOf mask f.lo f.w
  Nat.lor (Nat.land (bitsOf new f.lo f.w) m) (bitsOf old f.lo f.w - Nat.land (bitsOf old f.lo f.w) m)

/-- The value of a field after a write of `new` under the bit mask `mask`. -/
def FieldSpec.after (f : FieldSpec) (locked secure : Bool) (old new mask : Nat) : Nat :=
  let x := bitsOf old f.lo f.w
  let m := f.merge old new mask
  let set := if f.ok.ok m then m else x
  match f.acc with
  | .rw => set
  | .ro => x
  | .w1c => x - Nat.land x (Nat.land (bitsOf new f.lo f.w) (bitsOf mask f.lo f.w))
  | .wo => 0
  | .rwl => if locked then x else set
  | .srw => if secure then set else x

/-- A register after a write (R3, R6): every field by its own access type. -/
def writeFields (fs : List FieldSpec) (locked secure : Bool) (old new mask : Nat) : Nat :=
  fs.foldl (fun v f => putBits v f.lo f.w (f.after locked secure old new mask)) old

/-- The fields of the register at a base. -/
def fieldsAt (base : Nat) : List FieldSpec :=
  match regAt base with
  | some (sp, _) => sp.flds
  | none => []

/-- Write a register by its access types, nothing more. -/
def State.plainWrite (s : State) (base v mask : Nat) : State :=
  s.setReg base (BitVec.ofNat 64 (writeFields (fieldsAt base) false false (s.reg base).toNat v mask))

def mask32 : Nat := 0xFFFFFFFF
def mask64 : Nat := 0xFFFFFFFFFFFFFFFF

/-- A normal-world write that covers an SRW field is logged, whatever value it carries (R3, R442, R469): `at'` is the
offset of the access. -/
def State.srwLog (s : State) (rq : Requester) (base at' mask : Nat) : State :=
  if rq != .lantern && (fieldsAt base).any (fun f => f.acc == .srw && bitsOf mask f.lo f.w != 0) then s.secEvent at' rq 0 0x3F
  else s

/-- A register write with its own command, by the PF, firmware, the debug port or Lantern: the gate, then the effect. -/
def State.guarded (s : State) (rq : Requester) (off : Nat) (f : State → State) : State :=
  if !s.reaches rq then s
  else if (match rq with | .fn n => n != 0 | _ => false) || !s.answers off then s.unmapped
  else match s.shut rq off with
    | some (k, i) => s.secEvent off rq k i
    | none => f (s.srwLog rq off off mask64)

/-- Global number of local index `i` of a requester whose allotment starts at `base` with `cnt` items (R387, R391): the
PF and the device's own requesters use global numbers. -/
def State.viewIdx (s : State) (rq : Requester) (base cnt : Nat → Fref) (i : Nat) : Option Nat :=
  match rq with
  | .fn 0 => some i
  | .fn n => if i < s.cnt (cnt n) then some (s.get (base n) + i) else none
  | _ => some i

def State.viewQ (s : State) (rq : Requester) (q : Nat) : Option Nat := s.viewIdx rq VIRT_FN_W0_QBASE VIRT_FN_W0_QCNT q
def State.viewG (s : State) (rq : Requester) (g : Nat) : Option Nat := s.viewIdx rq VIRT_FN_W0_CQBASE VIRT_FN_W0_CQCNT g
def State.viewC (s : State) (rq : Requester) (c : Nat) : Option Nat := s.viewIdx rq VIRT_FN_W1_CTXBASE VIRT_FN_W1_CTXCNT c

/-- A register write with its own command that a function's view also shows (R391): `idx` is the global number, none
outside the allotment. -/
def State.guardedView (s : State) (rq : Requester) (off : Nat) (idx : Option Nat) (f : Nat → State → State) : State :=
  if !s.reaches rq then s
  else if (match rq with | .fn n => n != 0 && s.flag (VIRT_FN_W5_FLR_BUSY n) | _ => false) then s
  else match idx with
    | none => s.unmapped
    | some i => if s.answers off then f i s else s.unmapped

end Sys2Proof.Machine
end

