-- ==== Sys2Proof/Machine/Engine.lean ====
section
/-!
DEFINITION. The life of a commit record: waits and semaphores (R68 to R74), placement, windows and stops (R347 to R354),
parts on engines (R350 to R352), jobs and the switch (R359 to R363), completion and its post (R23, R26, R27, R60 to R64, R71).
-/

namespace Sys2Proof.Machine

/-! ### Who runs -/

/-- Keeper firmware runs: started, not paused by an activation, and a pair online (R472, R476, R493). -/
def State.fwRuns (s : State) : Bool :=
  s.flag TOP_FW_STAT_READY && !s.flag TOP_FW_STAT_PAUSE && !s.dead &&
    (List.range 4).any (fun p => s.get (KPR_PAIR_STAT_STATE p) == 2)

/-- The pair that owns a queue's block (R473). -/
def State.qPair (s : State) (q : Nat) : Nat :=
  bitsOf (s.get (KPR_QOWN_OWNER (q / 64 / 32))) (2 * (q / 64 % 32)) 2

/-- Firmware serves queue `q`: its pair is online. -/
def State.fwFor (s : State) (q : Nat) : Bool := s.fwRuns && s.get (KPR_PAIR_STAT_STATE (s.qPair q)) == 2

/-- Insertion sort. -/
def insertBy {α : Type} (le : α → α → Bool) (a : α) : List α → List α
  | [] => [a]
  | b :: bs => if le a b then a :: b :: bs else b :: insertBy le a bs

def sortBy {α : Type} (le : α → α → Bool) : List α → List α
  | [] => []
  | a :: as => insertBy le a (sortBy le as)

/-! ### Queues and groups -/

/-- Usable slots of a group that are neither written nor reserved (R60). -/
def State.freeSlots (s : State) (g : Nat) : Nat :=
  let n := 2 ^ s.get (CMD_CQ_CFG_SIZE_LOG2 g)
  let used := (s.get (CMD_CQ_PTR_TAIL g) + n - s.get (CMD_CQ_PTR_HEAD g) % n) % n
  let res := (s.descs.filter (fun d => d.slot && s.get (CMD_Q_CFG_CQG d.q) == g)).length
  n - 1 - used - res

def State.qGroup (s : State) (q : Nat) : Nat := s.get (CMD_Q_CFG_CQG q)

/-- Records of a group that wait for a slot, in the order in which their descriptors ended. -/
def State.endedOf (s : State) (g : Nat) : List Desc :=
  sortBy (fun a b => decide (a.step ≤ b.step)) (s.descs.filter (fun d => d.phase == .ended && s.qGroup d.q == g))

/-- STALLED of a group. -/
def State.refreshGroup (s : State) (g : Nat) : State :=
  s.put (CMD_CQ_PTR_STALLED g)
    (b2n (s.flag (CMD_CQ_CFG_ENABLE g) && (s.freeSlots g == 0 || !(s.endedOf g).isEmpty)))

/-- A queue that an enabled job names as its fallback queue: it is fetched only in a switch (R363). -/
def State.fallbackQ (s : State) (q : Nat) : Bool :=
  s.regs.any (fun e => decide (0xB08000 ≤ e.1) && decide (e.1 < 0xB0A000) && e.1 % 32 == 16 && bitOf e.2.toNat 8 &&
    s.get (SCH_JOB_W0_FQ ((e.1 - 0xB08000) / 32)) == q)

/-- STATE of a queue (R40, R42, R396). -/
def State.refreshQueue (s : State) (q : Nat) : State :=
  let en := s.flag (CMD_Q_CFG_ENABLE q)
  let fl := s.get (CMD_Q_PTR_INFLIGHT q)
  s.put (CMD_Q_PTR_STATE q) (
    if !en then (if fl = 0 then 0 else 2)
    else if s.flag (VIRT_FN_W5_QUIESCED (s.qFn q)) then 4
    else if s.stoppedQ.contains q then 3
    else if fl ≠ 0 ∨ (s.get (CMD_Q_PTR_HEAD q) ≠ s.get (CMD_Q_PTR_TAIL q) ∧ ¬ s.fallbackQ q) then 2 else 1)

/-- Stop a queue on an error (R65, R66). -/
def State.stopQueue (s : State) (q idx : Nat) (flag : Fref) : State :=
  (({ s with stoppedQ := if s.stoppedQ.contains q then s.stoppedQ else s.stoppedQ ++ [q] }.put flag 1).put
    (CMD_Q_ERR_STOP_IDX q) idx).refreshQueue q

/-! ### Semaphores (R68 to R74) -/

/-- Descriptors waiting on a semaphore, in the order of R70. -/
def State.waitersOf (s : State) (i : Nat) : List Desc :=
  sortBy (fun a b => decide (a.waitC < b.waitC) || (a.waitC == b.waitC && decide (a.q ≤ b.q)))
    (s.descs.filter (fun d => d.phase == .waiting && s.semOf d d.waitIdx == i))

/-- A of a wait event: semaphore and target. -/
def waitA (i tgt : Nat) : Nat := i + tgt * 4096

/-- A wait is satisfied by the signal `g` (R69, R574). -/
def State.release (s : State) (d : Desc) (i : Nat) (g : Option Signaller) : State :=
  let b := match g with
    | some g => g.q + g.dev * 2 ^ 14 + g.layer * 2 ^ 20 + g.op * 2 ^ 36
    | none => 0x3FFF
  (s.updDesc d.id (fun d => { d with phase := .ready })).emitDesc d 36 0x07 0 (waitA i d.waitTgt) b

/-- Take a satisfied wait: a consuming semaphore subtracts the target. -/
def State.take (s : State) (d : Desc) (i : Nat) : State :=
  let s := if s.flag (CMD_SEM_MODE i) then s else s.drop (CMD_SEM_COUNT i) d.waitTgt
  s.release d i (mget (fun _ => none) s.signallers i)

/-- Serve the waiters of a semaphore (R70): on a consuming one an unsatisfied waiter holds back the later ones. -/
def State.serveList (s : State) (i : Nat) : List Desc → State
  | [] => s
  | d :: ds =>
    if d.waitTgt ≤ s.get (CMD_SEM_COUNT i) then ((s.take d i).drop (CMD_SEM_WAITERS i) 1).serveList i ds
    else if s.flag (CMD_SEM_MODE i) then s.serveList i ds
    else s

def State.serve (s : State) (i : Nat) : State := s.serveList i (s.waitersOf i)

/-- Add to a semaphore (R71, R73): saturation, the SIGNAL event by `src`, and the waiters served. The Boolean is the
saturation. -/
def State.semAdd (s : State) (i n src : Nat) (g : Signaller) (ev : State → Nat → Nat → State) : State × Bool :=
  let old := s.get (CMD_SEM_COUNT i)
  let sat := decide (0xFFFFFFFF < old + n)
  let s := s.put (CMD_SEM_COUNT i) (satN 32 (old + n))
  let s := if sat then s.put (CMD_SEM_SATURATED i) 1 else s
  let s := { s with signallers := mset (fun _ => none) s.signallers i (some g) }
  let s := ev s (i + src * 4096) (n % 2 ^ 32 + s.get (CMD_SEM_COUNT i) * 2 ^ 32)
  (s.serve i, sat)

/-- A signal or addition by a descriptor. -/
def State.descAdd (s : State) (d : Desc) (i n src : Nat) : State × Bool :=
  s.semAdd i n src ⟨d.q, s.get LNK_CFG_DEV_ID, d.layerId, d.opId, s.beacon⟩ (fun s a b => s.emitDesc d 36 0x08 0 a b)

/-- Set COUNT and serve the waiters (R55). -/
def State.semSet (s : State) (i v : Nat) : State := (s.put (CMD_SEM_COUNT i) v).serve i

/-! ### Order (R53, R70, R348) -/

def job0 : Nat → JobSt := fun _ => ⟨0, none, [], [], false, 0, 0, 0, 0⟩

def State.job (s : State) (j : Nat) : JobSt := mget job0 s.jobs j

/-- Absolute deadline on the counter, in quarters of a ns (R51, R504). -/
def Desc.due (d : Desc) : Option Nat :=
  if d.deadline = 0 then none else some (5 * d.fetchC + d.deadline % 32 * 4 ^ (d.deadline / 32) * 4000)

/-- Is the descriptor at its turn: everything before it in its queue dispatched, for FENCE completed? -/
def State.atTurn (s : State) (d : Desc) : Bool :=
  let before := s.descs.filter (fun x => x.q == d.q && decide (x.id < d.id) && x.program == d.program)
  before.all (fun x => x.phase == .dispatched || x.phase == .ended) && (!d.fence || before.isEmpty)

/-- Does `a` come before `b` in the order of R348? -/
def State.ranks (s : State) (a b : Desc) : Bool :=
  let ca := s.ctxOf a
  let cb := s.ctxOf b
  let ka := [3 - s.get (SCH_CTX_CFG_CRIT ca), 7 - s.get (SCH_CTX_CFG_PRIO ca), a.due.getD (2 ^ 65), a.id]
  let kb := [3 - s.get (SCH_CTX_CFG_CRIT cb), 7 - s.get (SCH_CTX_CFG_PRIO cb), b.due.getD (2 ^ 65), b.id]
  decide (ka < kb)

/-! ### Windows (R353 to R356, R413) -/

/-- Position within the major frame, in ns, at Beacon time `t`. -/
def State.framePos (s : State) (t : Nat) : Nat :=
  let f := s.getA SCH_CFG_FRAME_US * 1000
  let p := s.getA SCH_CFG_PHASE_US * 1000
  if f = 0 then 0 else (t + f - p % f) % f

/-- The frame window in force on engine `e`: partition and SLACK. -/
def State.frameWin (s : State) (e : Nat) : Option (Nat × Bool) :=
  if !s.flagA SCH_CFG_TP_EN then none else
  ((List.range 32).find? (fun w =>
    let a := s.getA (SCH_WIN_START_US e w) * 1000
    s.flagA (SCH_WIN_EN e w) && decide (a ≤ s.framePos s.beacon) &&
      decide (s.framePos s.beacon < a + s.getA (SCH_WIN_LEN_US e w) * 1000))).map
    (fun w => (s.getA (SCH_WIN_PART e w), s.flagA (SCH_WIN_SLACK e w)))

/-- Pixels of a line and lines of a frame of a display engine's active timing. -/
def State.dispTotals (s : State) (n : Nat) : Nat × Nat :=
  (s.getA (DISP_TIM_H_HACT n) + s.getA (DISP_TIM_H_HFP n) + s.getA (DISP_TIM_H_HSYNC n) + s.getA (DISP_TIM_H_HBP n),
   s.getA (DISP_TIM_V_VACT n) + s.getA (DISP_TIM_V_VFP n) + s.getA (DISP_TIM_V_VSYNC n) + s.getA (DISP_TIM_V_VBP n))

/-- Is the frame period of the active timing above `us`? The period is pixels over PCLK_KHZ, in ms. -/
def State.periodAbove (s : State) (n us : Nat) : Bool :=
  let t := s.dispTotals n
  decide (us * s.getA (DISP_TIM_CLK_PCLK_KHZ n) < t.1 * t.2 * 1000)

/-- A display window that may be open: windows are in force (R355), it is enabled, and not dormant (R356). -/
def State.dwinLive (s : State) (n : Nat) : Bool :=
  s.flagA SCH_CFG_TP_EN && s.flagA (SCH_DWIN_EN n) && s.flagA (DISP_TIM_CLK_ENABLE n) && !s.isRetired (chDisp n) &&
    s.periodAbove n (s.getA (SCH_DWIN_LEN_US n))

/-- The open display window that acts on engine `e`, the lowest display first. -/
def State.dispWin (s : State) (e : Nat) : Option Nat :=
  (s.dwins.find? (fun n => bitOf (s.getA (SCH_DWIN_ENG n)) e && s.dwinLive n)).map (fun n => s.getA (SCH_DWIN_PART n))

/-- The window in force (R356): a display window gives way to a frame window of a higher class. The Boolean pair is
SLACK, and whether it is a display window. -/
def State.winOn (s : State) (e : Nat) : Option (Nat × Bool × Bool) :=
  match s.dispWin e, s.frameWin e with
  | some p, some (q, sl) =>
    if s.get (QOS_PART_CRIT q) ≤ s.get (QOS_PART_CRIT p) then some (p, true, true) else some (q, sl, false)
  | some p, none => some (p, true, true)
  | none, some (q, sl) => some (q, sl, false)
  | none, none => none

def State.goldOn (s : State) (e : Nat) : Bool := (mget (fun _ => none) s.gold e).isSome

def State.descPart (s : State) (d : Desc) : Nat := s.get (SCH_CTX_CFG_PART (s.ctxOf d))

/-- The DMA channels that are present. -/
def State.dmaPresent (s : State) : List Nat :=
  (List.range 16).filterMap (fun i => if s.isRetired (chDma i) then none else some (8 + i))

/-- The islands a plan could use. -/
def State.candidates (s : State) (d : Desc) (p : Plan) : List Nat :=
  if !p.isls.isEmpty then p.isls
  else match p.auto with
    | 1 | 4 => s.arraysPresent
    | 2 => (s.clusterChoice (s.ctxOf d)).map (· + 4)
    | 3 => s.dmaPresent
    | _ => []

/-- The islands and units that a ready descriptor wants. -/
def State.wants (s : State) (d : Desc) : List Nat × Nat :=
  match (s.verdict d).2 with
  | .go p => (s.candidates d p, p.units)
  | _ => ([], 0)

/-- A context whose work may not run: stopped, or with granules that wait for their restore (R205, R357). -/
def State.ctxHeld (s : State) (c : Nat) : Bool :=
  s.get (SCH_CTX_STAT_STATE c) == 3 || s.spills.any (fun p => p.ctx == c)

/-- The join of a switched run waits until the fallback program has ended (R362). -/
def State.joinHeld (s : State) (d : Desc) : Bool :=
  d.join && (match d.job with
    | some j => (s.job j).stage == 1 || (s.job j).stage == 2
    | none => false)

/-- A queue that an error has stopped; a disabled one lets what it has fetched run (R42, R67). -/
def State.qStopped (s : State) (q : Nat) : Bool := s.flag (CMD_Q_CFG_ENABLE q) && s.stoppedQ.contains q

/-- May a ready descriptor be dispatched now as far as its queue, job and context go (R53, R67, R357, R362)? -/
def State.mayDispatch (s : State) (d : Desc) : Bool :=
  s.fwFor d.q && d.phase == .ready && s.atTurn d && !s.qStopped d.q && !s.joinHeld d && !s.ctxHeld (s.ctxOf d)

/-- Is a descriptor ready in the sense of R348: R53, R60 and R69 allow its dispatch? -/
def State.isReady (s : State) (d : Desc) : Bool :=
  s.mayDispatch d && s.freeSlots (s.qGroup d.q) != 0 && (s.endedOf (s.qGroup d.q)).isEmpty

/-- Work of partition `p` that is ready for engine `e`: a ready descriptor, or a part that waits to start or resume. -/
def State.ownerReady (s : State) (e p : Nat) : Bool :=
  s.descs.any (fun d => s.descPart d == p && !s.ctxHeld (s.ctxOf d) &&
    ((s.isReady d && (s.wants d).1.contains e) ||
     (d.phase == .dispatched && d.ending.isNone &&
       d.parts.any (fun x => x.isl == e && (x.st == .stopped || (x.st == .notStarted && !x.worked))))))

/-- Does the window of a scheduled engine admit a descriptor (R354)? -/
def State.admits (s : State) (e : Nat) (d : Desc) : Bool :=
  if 8 ≤ e then true
  else if s.goldOn e then false
  else match s.winOn e with
    | none => true
    | some (p, slack, _) => s.descPart d == p || (slack && !s.ownerReady e p)

/-! ### Parts -/

/-- Descriptors whose part runs on units of an island. -/
def State.holders (s : State) (isl units : Nat) : List Desc :=
  s.descs.filter (fun d => d.phase == .dispatched &&
    d.parts.any (fun p => p.isl == isl && p.active && Nat.land p.eng units != 0))

/-- Rows that other dispatched descriptors hold on an array (R351). -/
def State.rowsFree (s : State) (i : Nat) (r : Nat × Nat × Nat) : Bool :=
  !s.descs.any (fun d => d.id != i && d.phase == .dispatched &&
    d.parts.any (fun p => p.isl == r.1 && p.st != .done && p.st != .notStarted) &&
    d.rows.any (fun x => x.1 == r.1 && decide (x.2.1 < r.2.1 + r.2.2) && decide (r.2.1 < x.2.1 + x.2.2)))

/-- A stopped pass keeps the raster unit (R299, R351). -/
def State.passHeld (s : State) (isl units i : Nat) : Bool :=
  4 ≤ isl && isl < 8 && Nat.land units 2 != 0 &&
    s.descs.any (fun d => d.id != i && d.phase == .dispatched &&
      d.parts.any (fun p => p.isl == isl && p.st == .stopped && Nat.land p.eng 2 != 0))

def State.islOn (s : State) (isl : Nat) : Bool := !bitOf (s.get PWR_STAT_GATED) isl

def State.descClass (s : State) (d : Desc) : Nat := s.get (SCH_CTX_CFG_CRIT (s.ctxOf d))

/-- The class rule of R348 keeps a descriptor off an engine: outside every window, one of a higher class is ready for it, or
runs on it where several may (the slots of a cluster). -/
def State.yields (s : State) (d : Desc) (isl units : Nat) : Bool :=
  (decide (8 ≤ isl) || (s.winOn isl).isNone) &&
    s.descs.any (fun x => x.id != d.id && decide (s.descClass d < s.descClass x) &&
      ((x.phase == .ready && s.isReady x && (let w := s.wants x
          w.1.contains isl && (Nat.land w.2 units != 0 || (4 ≤ isl && isl < 8)))) ||
       (4 ≤ isl && isl < 8 && x.phase == .dispatched && x.parts.any (fun p => p.isl == isl && p.active))))

/-- Does the engine let the part in now: its window, its units, a pass held in it, rows held by others (R351, R354)? -/
def State.canTake (s : State) (d : Desc) (isl units : Nat) (rows : List (Nat × Nat × Nat)) : Bool :=
  s.admits isl d && (s.holders isl units).isEmpty && !s.passHeld isl units d.id &&
    (rows.filter (fun r => r.1 == isl)).all (s.rowsFree d.id)

/-- Islands whose work stops at once: display and capture, gateway, links, crypto. Keeper's own opcodes are not stopped. -/
def stopsAtOnce (isl : Nat) : Bool := decide (24 ≤ isl) && isl != 36

/-- A part's state after its stop: it ends where its descriptor is being ended. The order of the stop is kept (R631). -/
def Part.halt (p : Part) (ends : Bool) (n : Nat) : Part :=
  { p with st := if ends then .done else .stopped, fin := n }

/-- Ask an engine to stop a descriptor's part (R352, R573). -/
def State.stopPart (s : State) (i isl cause : Nat) : State :=
  match s.desc? i with
  | none => s
  | some d =>
    if !d.parts.any (fun p => p.isl == isl && p.st == .running) then s else
    if isl = 36 then s else
    let s := if stopsAtOnce isl then
        (s.updDesc i (fun d => { d with parts := d.parts.map (fun p =>
          if p.isl = isl ∧ p.st = .running then { p with stopCause := cause, stopC := s.c }.halt d.ending.isSome s.seq else p) })).emitDesc
          d isl 0x03 0 cause 0
      else s.updDesc i (fun d => { d with parts := d.parts.map (fun p =>
        if p.isl = isl ∧ p.st = .running then { p with st := .stopping, stopCause := cause, stopC := s.c } else p) })
    if isl < 8 then s.bump SCH_CNT_STOPS_COUNT 1 else s

/-- Stop every running part on an island that satisfies `f`. -/
def State.stopWhere (s : State) (isl cause : Nat) (f : Desc → Bool) : State :=
  (s.descs.filter f).foldl (fun s d => s.stopPart d.id isl cause) s

/-- Busy time of a part that leaves its engine (R128). -/
def State.countBusy (s : State) (d : Desc) (p : Part) : State :=
  if p.isl < 4 && p.active && !s.secureDesc d then
    s.bump (ARR_CNT_BUSY_CLK_COUNT p.isl) (s.islClocks p.isl (s.c - p.busyC)) else s

/-- Status registers of the scheduled islands as their parts stand (R127, R162, R195, R278, R313). -/
def State.refreshUnits (s : State) : State :=
  let holder (isl m : Nat) : Option Desc := (s.holders isl m).head?
  let s := (List.range 4).foldl (fun s a =>
    let s := match holder a 1 with
      | some d => ((s.put (ARR_STATUS_BUSY a) 1).put (ARR_STATUS_CTX a) (s.ctxOf d)).put (ARR_STATUS_LAYER_ID a) d.layerId
      | none => s.put (ARR_STATUS_BUSY a) 0
    let s := match (s.holders a 2).find? (fun d => d.opc == 0x40) with
      | some d => (s.put (WIN_STATUS_BUSY a) 1).put (WIN_STATUS_CTX a) (s.ctxOf d)
      | none => s.put (WIN_STATUS_BUSY a) 0
    match (s.holders a 4 ++ s.holders a 8).head? with
      | some d =>
        let s := (s.put (ATT_STATUS_BUSY a) 1).put (ATT_STATUS_CTX a) (s.ctxOf d)
        if d.parts.any (fun p => p.isl == a && p.worked) then s else s.put (ATT_STATUS_PHASE a)
          (match d.opc with
           | 0x60 => 1
           | 0x61 => 4
           | 0x62 => 5
           | _ => 6)
      | none => (s.put (ATT_STATUS_BUSY a) 0).put (ATT_STATUS_PHASE a) 0) s
  s.refreshGfx.refreshVecs

/-- A group takes its window unit: WIN_STATUS shows its first layer until the work advances it (R162). -/
def State.startGroup (s : State) (d : Desc) (a : Nat) : State :=
  if d.opc ≠ 0x40 then s else
  ((s.put (WIN_STATUS_KIND a) (wlayerOf (s.rawBytes d.pbAddr 192) 64).kind).put (WIN_STATUS_LAYER a) 0).put (WIN_STATUS_STRIPE a) 0

/-- A part starts (R350): the array's owner registers (R212), the DISPATCH event; a dispatch to a cluster drops the texture
lines of its context (R305). -/
def State.startPart (s : State) (i isl : Nat) : State :=
  match s.desc? i with
  | none => s
  | some d =>
    let c := s.ctxOf d
    let s := { s with pwr := { s.pwr with idle := mdel isl s.pwr.idle } }
    let s := s.updDesc i (fun d => { d with parts := d.parts.map (fun (p : Part) =>
      if p.isl = isl then { p with st := .running, runC := s.c, progC := s.c, busyC := s.c } else p) })
    let s := if isl < 4 && d.parts.any (fun p => p.isl == isl && p.eng != 0) then
        (((((s.put (ACC_OWNER_PART isl) (s.get (SCH_CTX_CFG_PART c))).put (ACC_OWNER_W isl) (b2n (s.ctxW c))).put
          (ACC_OWNER_CRIT isl) (s.get (SCH_CTX_CFG_CRIT c))).put (ACC_OWNER_CTX isl) c).put (ACC_OWNER_VALID isl) 1).startGroup d isl
      else if 4 ≤ isl ∧ isl < 8 then
        let k := isl - 4
        let drop (s : State) (lo hi : Nat) : State := s.dropLines lo hi (fun l => l.ctx != c)
        { drop (drop s (8 * k) (8 * k + 8)) (32 + k) (33 + k) with lastCl := mset (fun _ => 4) s.lastCl c k }
      else s
    s.emitDesc d isl 0x02 0 d.opc (2 ^ isl)

/-- A stopped DMA row moves to another channel (R226); a part of the descriptor that is done there leaves its result. -/
def State.moveRow (s : State) (i isl here : Nat) : State :=
  if isl = here then s else
  s.updDesc i (fun d =>
    let old := d.parts.find? (fun p => p.isl == here)
    { d with parts := (d.parts.filter (fun p => p.isl != here)).map (fun (p : Part) =>
        if p.isl = isl then { p with isl := here, status := (old.map (fun q => q.status)).getD 0,
                                     detail := (old.map (fun q => q.detail)).getD 0 } else p) })

/-- A stopped part resumes. -/
def State.resumePart (s : State) (i isl : Nat) : State :=
  match s.desc? i with
  | none => s
  | some d =>
    let s := s.updDesc i (fun d => { d with parts := d.parts.map (fun p =>
      if p.isl = isl then { p with st := .running, runC := s.c, progC := s.c, busyC := s.c } else p) })
    let c := s.ctxOf d
    let s := if isl < 4 && d.parts.any (fun p => p.isl == isl && p.eng != 0) then
        ((((s.put (ACC_OWNER_PART isl) (s.get (SCH_CTX_CFG_PART c))).put (ACC_OWNER_W isl) (b2n (s.ctxW c))).put
          (ACC_OWNER_CRIT isl) (s.get (SCH_CTX_CFG_CRIT c))).put (ACC_OWNER_CTX isl) c).put (ACC_OWNER_VALID isl) 1
      else s
    s.emitDesc d isl 0x04 0 0 0

/-- Drop the secure translations of an array island that returns to the normal world (R454). -/
def State.worldReturn (s : State) (isl : Nat) : State :=
  if isl < 4 && !s.secIsl isl then
    let a := mget (fun _ => ⟨[], []⟩) s.att isl
    if a.lab.any (fun e => e.w) || a.roots.any (fun e => e.w) then
      s.setAtt isl ⟨a.lab.filter (fun e => !e.w), a.roots.filter (fun e => !e.w)⟩
    else s
  else s

/-- A part finishes. -/
def State.partDone (s : State) (i isl : Nat) : State :=
  match s.desc? i with
  | none => s
  | some d =>
    let s := (d.parts.filter (fun p => p.isl == isl)).foldl (fun s p => s.countBusy d p) s
    let s := s.updDesc i (fun d => { d with parts := d.parts.map (fun p =>
      if p.isl = isl then { p with st := .done, fin := s.seq } else p) })
    let s := if isl < 4 && d.parts.any (fun p => p.isl == isl && bitOf p.eng 2) then s.lockLab isl (fun _ => false) else s
    if s.secureDesc d then s.worldReturn isl else s

/-- A part finishes with a result of its own (opcodes that no engine command runs). -/
def State.finishPart (s : State) (i isl status detail : Nat) : State :=
  (s.updDesc i (fun d => { d with effected := true, parts := d.parts.map (fun p =>
    if p.isl = isl then { p with status := status, detail := detail, worked := true } else p) })).partDone i isl

/-! ### Ends -/

/-- Poison declared outputs (R27): accumulator rows of the descriptor's own arrays with their owner. -/
def State.poisonOuts (s : State) (d : Desc) (outs : List (Nat × Nat)) : State :=
  outs.foldl (fun s o =>
    let own := match spaceOf o.1 with
      | .acc n => d.parts.any (fun p => p.isl == n && p.st != .notStarted)
      | _ => false
    s.poison (s.mreq d (nth 36 d.isls 0)) own o.1 o.2) s

/-- A descriptor ends without having been dispatched: its record takes the next free slot (R60). -/
def State.endUndisp (s : State) (i status detail : Nat) (outs : List (Nat × Nat)) (signal : Bool) : State :=
  match s.desc? i with
  | none => s
  | some d =>
    let i' := s.semOf d d.waitIdx
    let s := if d.phase = .waiting then s.drop (CMD_SEM_WAITERS i') 1 else s
    let s := s.poisonOuts { d with parts := [] } outs
    let s := { s with seq := s.seq + 1 }
    let s := s.updDesc i (fun d => { d with
      phase := .ended, status := status, detail := detail, unitId := 0xFF, step := s.seq, noSignal := !signal })
    if d.phase = .waiting then s.serve i' else s

/-- The status that a dispatched descriptor's parts give, with DETAIL and UNIT (R63, R631). -/
def Desc.outcome (d : Desc) : Nat × Nat × Nat :=
  let last := d.parts.foldl (fun (m : Nat × Nat) p =>
    if p.st == .done && (decide (m.1 < p.fin) || (m.1 == p.fin && decide (p.isl < m.2))) then (p.fin, p.isl) else m) (0, 36)
  match d.ending with
  | some (c, x) => (c, x, if c = 0x31 ∨ c = 0x32 then x else last.2)
  | none =>
    match sortBy (fun (a b : Part) => decide (a.isl ≤ b.isl)) (d.parts.filter (fun p => decide (0x10 ≤ p.status))) with
    | p :: _ => (p.status, p.detail, p.isl)
    | [] => match d.parts.filter (fun p => p.status != 0) with
      | p :: _ => (p.status, p.detail, last.2)
      | [] => (0, 0, last.2)

/-- Every part is done, or need not start any more. -/
def Desc.finished (d : Desc) : Bool :=
  d.phase == .dispatched && !d.flushing &&
    d.parts.all (fun p => p.st == .done || (p.st == .notStarted && (p.worked || d.ending.isSome)))

/-- Start the golden test of a scheduled engine after a stop of its work (R413, R416, R419, R435). -/
def State.wantGold (s : State) (e : Nat) (slot rerun : Bool) : State :=
  let s := match mget (fun _ => none) s.gold e with
    | some g => { s with gold := mset (fun _ => none) s.gold e (some { g with rerun := g.rerun || rerun, slot := g.slot || slot }) }
    | none => { s with gold := mset (fun _ => none) s.gold e (some ⟨slot, rerun, 0, s.c, false, false, false⟩) }
  s.stopWhere e 3 (fun _ => true)

/-- All engines are done: outputs are poisoned on an error, a block that only the work found invalid stops the queue (R65), zero-length reads of posted windows are issued, and the
completion waits until every write is visible (R23, R27, R562). -/
def State.conclude (s : State) (d : Desc) : State :=
  let (st, dt, un) := d.outcome
  let tests := if st = 0x30 then (d.parts.filter (fun p => p.status == 0x30)).map (fun p => p.isl) else []
  let s := if 0x10 ≤ st ∧ !d.poisoned then s.poisonOuts d d.outs else s
  let s := if st = 0x13 then (s.updDesc d.id (fun x => { x with noSignal := true })).stopQueue d.q d.idx (CMD_Q_ERR_MALFORMED d.q) else s
  let mine := s.posted.filter (fun p => p.1 == d.id)
  let s := { s with posted := s.posted.filter (fun p => p.1 != d.id), seq := s.seq + 1,
                    trail := s.trail ++ mine.map (fun (p : Nat × Nat × Nat × Nat) => (⟨d.id, p.2.1, p.2.2.1,
                      (match s.winCheck (s.mreq d p.2.2.2) p.2.2.1 1 with
                       | .ok (_, bus) => bus
                       | .error _ => 0), p.2.2.2, s.ctxOf d, false⟩ : TrailRd)) }
  let s := s.updDesc d.id (fun d => { d with
    status := st, detail := dt, unitId := un, flushing := true, poisoned := true
    doneT := if s.flag TOP_FW_STAT_PAUSE then s.beacon else 0
    doneC := s.c
    parts := d.parts.map (fun (p : Part) => { p with st := PartSt.done }) })
  tests.foldl (fun s e =>
    let s := s.wantGold e false true
    match mget (fun _ => none) s.gold e with
    | some g => { s with gold := mset (fun _ => none) s.gold e (some { g with chkInj := !s.chkReal.contains e }) }
    | none => s) s

/-- Are all writes of the descriptor visible (R23)? -/
def State.quiet (s : State) (d : Desc) : Bool :=
  !s.trail.any (fun t => t.desc == d.id && t.nonPosted) && !s.lnkOut.any (fun o => o.desc == d.id && o.op == 1)

/-! ### The post (R60 to R64, R71, R474) -/

/-- The time for which an activation pause has held the completion back (R493). -/
def State.heldNs (s : State) (d : Desc) : Nat := if d.doneT = 0 then 0 else s.sinceNs d.doneC

/-- Bytes of a record (R61). RUN_US runs to the completion; that of a descriptor never dispatched is 0 (log 27). -/
def State.recordBytes (s : State) (d : Desc) (st dt ph : Nat) : List Byte :=
  let sec := s.secureDesc d
  let undisp := d.unitId == 0xFF
  let run := if sec || undisp then 0 else satN 32 ((s.sinceNs d.dispC - s.heldNs d) / 1000)
  leBytes 4 (d.idx % 2 ^ 16 + s.localQ d.q * 2 ^ 16 + b2n d.fb * 2 ^ 30 + ph * 2 ^ 31) ++
  leBytes 4 (st + d.unitId * 2 ^ 8 + d.opc * 2 ^ 16 + d.ctxF * 2 ^ 24) ++
  leBytes 4 (if sec then 0 else d.u 4 4) ++ leBytes 4 run ++ leBytes 8 (if d.doneT = 0 then s.beacon else d.doneT) ++ leBytes 8 (if sec then 0 else dt)

/-- Interrupt of a group after a record (R62). -/
def State.coalesce (s : State) (g : Nat) (now : Bool) : State :=
  let x := mget (fun _ => ⟨0, 0⟩) s.coal g
  let n := x.cnt + 1
  if now || decide (s.get (CMD_CQ_CFG_COAL_CNT g) ≤ n) then
    { s with coal := mset (fun _ => ⟨0, 0⟩) s.coal g ⟨0, 0⟩ }.msix (s.get (CMD_CQ_CFG_FUNC g)) (s.get (CMD_CQ_CFG_VECTOR g))
  else { s with coal := mset (fun _ => ⟨0, 0⟩) s.coal g ⟨n, if x.cnt = 0 then s.c else x.since⟩ }

/-- Write a record at the group's tail; a failed write counts as written (R62). -/
def State.writeRecord (s : State) (d : Desc) (g st dt : Nat) : State :=
  let n := 2 ^ s.get (CMD_CQ_CFG_SIZE_LOG2 g)
  let t := s.get (CMD_CQ_PTR_TAIL g)
  let ph := s.get (CMD_CQ_PTR_PHASE g)
  let (s, ok) := s.hostWrite (s.get (CMD_CQ_CFG_FUNC g)) (s.get (CMD_CQ_BASE_ADDR g) * 4096 + 32 * t)
    (s.recordBytes d st dt ph)
  let s := if ok then s else s.put (CMD_CQ_PTR_REC_ERR g) 1
  let s := s.put (CMD_CQ_PTR_TAIL g) ((t + 1) % n)
  if t + 1 = n then s.put (CMD_CQ_PTR_PHASE g) (1 - ph) else s

/-! ### Jobs (R359 to R363) -/

def State.setJob (s : State) (j : Nat) (x : JobSt) : State := { s with jobs := mset job0 s.jobs j x }

/-- EST_NOW_US (R360). -/
def State.refreshEst (s : State) (j : Nat) : State :=
  s.put (SCH_JOB_W3_EST_NOW_US j)
    (if s.get (SCH_JOB_W3_RUNS j) < 8 then s.get (SCH_JOB_W1_EST_US j) else (s.job j).meas.foldl max 0)

/-- A fraction: numerator and denominator (zero counts as the number zero). -/
def fracLt (a b : Nat × Nat) : Bool := decide (a.1 * max 1 b.2 < b.1 * max 1 a.2)

/-- The prediction of R361 in ns over its denominator: added to now. -/
def State.predicted (s : State) (j : Nat) : Nat × Nat :=
  let n := s.get (SCH_JOB_W0_N_M1 j) + 1
  let done := s.get (SCH_JOB_W3_DONE j)
  let a := (s.get (SCH_JOB_W3_EST_NOW_US j) * 1000 * (n - done), n)
  let b := if done = 0 then (0, 1) else (5 * (s.c - (s.job j).c0) * (n - done), 4 * done)
  let m := if fracLt a b then b else a
  (m.1 * (100 + s.get (SCH_JOB_W2_MARGIN_PCT j)), m.2 * 100)

/-- Squash one member of a run at the switch (R362). -/
def State.switchOne (s : State) (i : Nat) : State :=
  match s.desc? i with
  | none => s
  | some d =>
    if d.join || d.program then s.updDesc i (fun d => { d with fb := true })
    else
      let s := s.updDesc i (fun d => { d with fb := true })
      match d.phase with
      | .ended => s
      | .dispatched =>
        if d.flushing then s else
        let s := s.updDesc i (fun d => { d with
          ending := if d.ending.isSome then d.ending else some (0x34, 0)
          parts := d.parts.map (fun (p : Part) => if p.st = .stopped then { p with st := .done } else p) })
        d.parts.foldl (fun s p => s.stopPart i p.isl 5) s
      | _ =>
        let (s, outs) := s.declOuts d
        s.endUndisp i 0x34 0 outs true

/-- The switch to the fallback (R362). -/
def State.switchJob (s : State) (j lateUs : Nat) : State :=
  let s := ((((s.put SCH_SWITCH_LOG0_JOB j).put SCH_SWITCH_LOG0_DONE (s.get (SCH_JOB_W3_DONE j))).put
    SCH_SWITCH_LOG0_LATE_US (satN 32 lateUs)).put SCH_SWITCH_LOG1_TIME s.beacon).bump SCH_CNT_SWITCH_COUNT 1
  let s := s.put (SCH_JOB_W3_STATE j) 2
  let s := s.emitPlain 36 0x0C j (satN 32 lateUs)
  let s := s.setJob j { s.job j with stage := 1 }
  (s.job j).ids.foldl State.switchOne s

/-- The monitor's evaluation of an open run (R361). -/
def State.jobEval (s : State) (j : Nat) : State :=
  if s.get (SCH_JOB_W3_STATE j) ≠ 1 then s else
  match (s.job j).dl with
  | none => s
  | some dl =>
    let p := s.predicted j
    let left : Int := (dl : Int) - (5 * s.c : Nat)
    if (4 * p.1 : Nat) ≤ left * (max 1 p.2 : Nat) then s
    else
      let f := (s.get (SCH_JOB_W1_FEST_US j) * 1000 * (100 + s.get (SCH_JOB_W2_MARGIN_PCT j)), 100)
      if s.flag (SCH_JOB_W2_FB_EN j) && fracLt f p then
        s.switchJob j ((((4 * p.1 : Nat) - left * (max 1 p.2 : Nat)) / ((max 1 p.2 : Nat) * 4000 : Int)).toNat)
      else if (s.job j).missed then s
      else (s.setJob j { s.job j with missed := true }).bump SCH_CNT_PRED_MISS_COUNT 1

/-- Close a run (R360, R362). -/
def State.closeRun (s : State) (j : Nat) : State :=
  let x := s.job j
  let us := (s.sinceNs x.c0 + 999) / 1000
  let measured := x.stage == 0
  let s := if measured then s.bump (SCH_JOB_W3_RUNS j) (if s.get (SCH_JOB_W3_RUNS j) < 8 then 1 else 0) else s
  let s := s.setJob j { job0 j with meas := if measured then (x.meas ++ [us]).drop (x.meas.length - 7) else x.meas }
  ((s.put (SCH_JOB_W3_STATE j) 0).put (SCH_JOB_W3_DONE j) 0).refreshEst j

/-- What a run does when one of its records has been posted. -/
def State.jobPosted (s : State) (d : Desc) : State :=
  match d.job with
  | none => s
  | some j =>
    if d.program then s
    else if d.join then s.closeRun j
    else (s.bump (SCH_JOB_W3_DONE j) 1).jobEval j

/-- Post a descriptor's completion: one step that writes the record, performs the signal and raises the interrupt (R474). -/
def State.post (s : State) (d : Desc) : State :=
  let g := s.qGroup d.q
  let late := match d.due with
    | some t =>
      let now := 5 * (if d.doneT = 0 then s.c else d.doneC)
      if t < now then some ((now - t) / 4) else none
    | none => none
  let sig := d.sigVal != 0 && !d.noSignal && !s.semBad d d.sigIdx
  let i := s.semOf d d.sigIdx
  let sat := sig && decide (0xFFFFFFFF < s.get (CMD_SEM_COUNT i) + d.sigVal)
  let (st, dt) : Nat × Nat :=
    if 0x10 ≤ d.status then (d.status, d.detail)
    else match late with
      | some n => (0x01, n)
      | none => if d.status ≠ 0 then (d.status, d.detail) else if sat then (0x02, d.sigIdx) else (0, 0)
  let s := (if s.dirty.isEmpty then s else (List.range 32).foldl State.flushDirty s).writeRecord d g st dt
  let s := (s.drop (CMD_Q_PTR_INFLIGHT d.q) 1).emitDesc d (if d.unitId = 0xFF then 36 else d.unitId) 0x05 st
    (if d.unitId = 0xFF then 0 else (s.sinceNs d.dispC - s.heldNs d) / 1000) dt
  let s := if sig then (s.descAdd d i d.sigVal 0).1 else s
  let s := s.coalesce g (decide (0x10 ≤ st) || d.irq)
  let s := { s with peerData := s.peerData.filter (fun p => p.desc != d.id), pwr := { s.pwr with ltrC := s.c } }
  let s := ((s.delDesc d.id).dropLaunch d.id).dropReqs d.id
  ((s.refreshQueue d.q).refreshGroup g).jobPosted d

/-- The end of a descriptor that leaves no record (R26, R398). -/
def State.vanish (s : State) (d : Desc) : State :=
  let s := { s with peerData := s.peerData.filter (fun p => p.desc != d.id), trail := s.trail.filter (fun t => t.desc != d.id),
                    lnkOut := s.lnkOut.map (fun (o : LnkOut) => if o.desc = d.id then { o with desc := 0 } else o) }
  let i := s.semOf d d.waitIdx
  let s := if d.phase = .waiting then s.drop (CMD_SEM_WAITERS i) 1 else s
  let s := (((s.delDesc d.id).dropLaunch d.id).dropReqs d.id).drop (CMD_Q_PTR_INFLIGHT d.q) 1
  let s := if d.phase = .waiting then s.serve i else s
  (s.refreshQueue d.q).refreshGroup (s.qGroup d.q)

/-! ### Settling -/

/-- A descriptor at its turn begins to wait; its semaphore then serves whom it can (R70, R362). -/
def State.beginWait (s : State) (d : Desc) : State :=
  let joinNow := d.join && (match d.job with
    | some j => (s.job j).stage == 3
    | none => false)
  let i := s.semOf d d.waitIdx
  if s.joinHeld d then s
  else if joinNow && d.waitTgt ≠ 0 then
    let s := if d.phase = .waiting then s.drop (CMD_SEM_WAITERS i) 1 else s
    s.release d i (some ⟨0x3FFF, 0x3F, 0, 0, 0⟩)
  else if d.phase ≠ .fetched then s
  else if d.waitTgt = 0 ∨ s.semBad d d.waitIdx then s.updDesc d.id (fun d => { d with phase := .ready })
  else
    let s := s.emitDesc d 36 0x06 0 (waitA i d.waitTgt) (s.get (CMD_SEM_COUNT i))
    ((s.updDesc d.id (fun d => { d with phase := .waiting, waitC := s.c })).bump (CMD_SEM_WAITERS i) 1).serve i

/-- Members of a switched run, the join apart, that have no record yet: fetched ones, and ones still to be fetched (R362). -/
def State.runLeft (s : State) (j : Nat) : Bool :=
  s.descs.any (fun d => d.job == some j && !d.join && !d.program) ||
    decide ((s.job j).ids.length < s.get (SCH_JOB_W0_N_M1 j))

/-- Stage transitions of a switched job (R362). -/
def State.jobStage (s : State) (j : Nat) : State :=
  let x := s.job j
  let left := s.runLeft j
  let prog := s.descs.any (fun d => d.job == some j && d.program)
  if x.stage = 1 ∧ !left then
    let s := (List.range (s.get (SCH_JOB_W0_SEM_CNT j))).foldl (fun s i =>
      s.put (CMD_SEM_COUNT ((s.get (SCH_JOB_W0_SEM_BASE j) + i) % 4096)) 0) s
    let fq := s.get (SCH_JOB_W0_FQ j)
    s.setJob j { x with stage := 2, next := s.get (CMD_Q_PTR_HEAD fq), stop := s.get (CMD_Q_PTR_TAIL fq) }
  else if x.stage = 2 ∧ x.next = x.stop ∧ !prog then s.setJob j { x with stage := 3 }
  else s

/-- May a stopped or not yet started part go on (R350, R354, R357, R358)? -/
def State.canGo (s : State) (d : Desc) (p : Part) : Bool :=
  let c := s.ctxOf d
  d.phase == .dispatched && d.ending.isNone && !d.flushing && !s.ctxHeld c && s.fwRuns &&
    (match p.st with
     | .stopped => s.get (SCH_CTX_STAT_RX_PEND c) == 0 && (stopsAtOnce p.isl || (s.admits p.isl d &&
         (s.holders p.isl p.eng).isEmpty && s.islOn p.isl && !s.yields d p.isl p.eng))
     | .notStarted => !p.worked && s.canTake d p.isl p.eng d.rows && s.islOn p.isl && !s.yields d p.isl p.eng
     | _ => false)

/-- The islands where a stopped part may resume, the first that can: its own one, and for a DMA row the lowest-numbered free
channel (R226). -/
def State.resumeAt (s : State) (d : Desc) (p : Part) : Option Nat :=
  (if 8 ≤ p.isl ∧ p.isl < 24 then p.isl :: s.dmaPresent.filter (fun i => !d.parts.any (fun q => q.isl == i && q.st != .done))
   else [p.isl]).find? (fun i => s.canGo d { p with isl := i })

/-- The action on the first descriptor, in the order of R348, that settling can move. -/
inductive Move where
  | finish (d : Desc)
  | post (d : Desc)
  | begin (d : Desc)
  | stage (j : Nat)
  | resume (d : Desc) (isl here : Nat)
  | start (d : Desc) (isl : Nat)

/-- The next thing that follows by itself, if any. -/
def State.nextMove (s : State) : Option Move :=
  match s.descs.find? (fun d => d.finished) with
  | some d => some (.finish d)
  | none =>
  match s.descs.find? (fun d => d.phase == .dispatched && d.flushing && s.quiet d && s.fwRuns) with
  | some d => some (.post d)
  | none =>
  match s.descs.find? (fun d => d.phase == .ended && s.fwRuns &&
      (((s.endedOf (s.qGroup d.q)).head?.map (fun x => x.id)) == some d.id) && s.freeSlots (s.qGroup d.q) != 0) with
  | some d => some (.post d)
  | none =>
  match (List.range 256).find? (fun j => let x := s.job j
      (x.stage == 1 && !s.runLeft j) ||
      (x.stage == 2 && x.next == x.stop && !s.descs.any (fun d => d.job == some j && d.program))) with
  | some j => some (.stage j)
  | none =>
  match (sortBy (fun a b => decide (a.q ≤ b.q)) (s.descs.filter (fun d => s.fwRuns && s.atTurn d &&
      ((d.phase == .fetched && !s.joinHeld d) ||
       (d.phase == .waiting && d.join && (match d.job with
          | some j => (s.job j).stage == 3
          | none => false)))))).head? with
  | some d => some (.begin d)
  | none =>
  let ordered := sortBy (fun a b => s.ranks a b) (s.descs.filter (fun d => d.phase == .dispatched))
  match ordered.findSome? (fun d => (d.parts.filter (fun p => p.st == .stopped)).findSome? (fun p =>
      (s.resumeAt d p).map (fun i => (d, p.isl, i)))) with
  | some (d, isl, here) => some (.resume d isl here)
  | none =>
  match ordered.findSome? (fun d => (d.parts.find? (fun p => p.st == .notStarted && s.canGo d p)).map (fun p => (d, p.isl))) with
  | some (d, isl) => some (.start d isl)
  | none => none

/-- A squashed descriptor leaves no record. -/
def State.finishOne (s : State) (d : Desc) : State :=
  if d.squashed then (s.conclude d).vanish d else s.conclude d

def State.move (s : State) : Move → State
  | .finish d => s.finishOne d
  | .post d => if d.squashed then s.vanish d else s.post d
  | .begin d => s.beginWait d
  | .stage j => s.jobStage j
  | .resume d isl here => (s.moveRow d.id isl here).resumePart d.id here
  | .start d isl => s.startPart d.id isl

/-- Let everything that follows by itself come about, in at most `n` moves. -/
def State.settleN : Nat → State → State
  | 0, s => s
  | n + 1, s =>
    match s.nextMove with
    | none => s
    | some m => settleN n (s.move m)

/-- The parts of a descriptor that are on retired engines end with UNIT_RETIRED (R63, R130); a launch or a pass ends with them on
all its clusters (R273, R309). -/
def Desc.loseParts (d : Desc) (gone : Nat → Bool) (n : Nat) : Desc :=
  if d.phase != .dispatched || d.flushing || !d.parts.any (fun p => p.st != .done && gone p.isl) then d else
  { d with parts := d.parts.map (fun (p : Part) =>
      if p.st = .done then p
      else if gone p.isl then { p with st := .done, status := 0x31, detail := p.isl, fin := n }
      else if d.opc = 0x80 ∨ d.opc = 0xA0 then { p with st := .done, fin := n } else p) }

/-- Parts left on an engine or DMA channel that has been retired end. -/
def State.dropRetired (s : State) : State :=
  let gone (e : Nat) : Bool := if e < 8 then s.isRetired e else e < 24 && s.isRetired (chDma (e - 8))
  if s.retired.isEmpty || !s.descs.any (fun d => d.phase == .dispatched && !d.flushing &&
      d.parts.any (fun p => p.st != .done && gone p.isl)) then s else
  { s with seq := s.seq + 1
           descs := s.descs.map (fun d => d.loseParts gone (s.seq + 1)) }

/-- Stop what an engine's window does not admit. -/
def State.stopStrangers (s : State) (e cause : Nat) : State :=
  s.stopWhere e cause (fun d => !s.admits e d)

/-- Outside every window a higher class stops a lower one on an engine that it needs; on a cluster that holds for everything
that runs there (R348). In a window, an owner's descriptor stops those that the window was lent to (R354). -/
def State.preempt (s : State) (d : Desc) (isl units : Nat) : State :=
  let rivals (x : Desc) : Bool := x.id != d.id && x.phase == .dispatched &&
    x.parts.any (fun p => p.isl == isl && p.active && (Nat.land p.eng units != 0 || (4 ≤ isl && isl < 8)))
  match (if isl < 8 then s.winOn isl else none) with
  | none => s.stopWhere isl 1 (fun x => rivals x && decide (s.descClass x < s.descClass d))
  | some (p, _, disp) =>
    if s.descPart d = p then s.stopWhere isl (if disp then 2 else 0) (fun x => rivals x && s.descPart x != p) else s

/-- What the engines that a dispatched descriptor still needs must give up for it. -/
def State.press (s : State) : State :=
  (s.descs.filter (fun d => d.phase == .dispatched && d.ending.isNone && !s.ctxHeld (s.ctxOf d))).foldl (fun s d =>
    (d.parts.filter (fun p => decide (p.isl < 24) && p.st != .done && !p.worked && (!p.active || (4 ≤ p.isl && p.isl < 8)))).foldl
      (fun s p => s.preempt d p.isl p.eng) s) s

/-- The windows in force stop what they do not admit, and a wait for rows held by a stopped descriptor is counted (R351,
R354). -/
def State.enforce (s : State) : State :=
  let busy := (List.range 8).filter (fun e => s.descs.any (fun d => d.parts.any (fun p => p.isl == e && p.st == .running)))
  let s := busy.foldl (fun s e =>
    if s.goldOn e then s.stopStrangers e 3
    else match s.winOn e with
      | some (_, _, disp) => s.stopStrangers e (if disp then 2 else 0)
      | none => s) s
  let blocked (d : Desc) (p : Part) : Bool := p.st == .notStarted && !p.worked && !p.waited && s.admits p.isl d &&
    (s.holders p.isl p.eng).isEmpty && !(d.rows.filter (fun r => r.1 == p.isl)).all (s.rowsFree d.id)
  (s.descs.filter (fun d => d.phase == .dispatched && d.ending.isNone)).foldl (fun s d =>
    let ws := d.parts.filter (blocked d)
    if ws.isEmpty then s else
    (s.updDesc d.id (fun d => { d with parts := d.parts.map (fun (p : Part) => if blocked d p then { p with waited := true } else p) })).bump
      SCH_CNT_ACC_BLOCK_COUNT ws.length) s

/-- Let everything that follows by itself come about (R53, R60, R69, R70, R348, R350, R351, R354, R362). -/
def State.settle (s : State) : State :=
  (State.settleN (8 * s.descs.length + 1024) s.dropRetired).press.enforce.refreshUnits

end Sys2Proof.Machine
end

