-- ==== Sys2Proof/Machine/Queue.lean ====
section
/-!
DEFINITION. Queues, doorbells, completion groups, fetch, dispatch and the common opcodes (R40 to R74, R348 to R351, R630).
-/

namespace Sys2Proof.Machine

/-! ### Latency tolerance messages (R591) -/

/-- Is anything going on: an active queue, a fetched descriptor, an outstanding bridge request? -/
def State.working (s : State) : Bool :=
  !s.descs.isEmpty || !s.trail.isEmpty ||
    s.regs.any (fun e => decide (0x180000 ≤ e.1) && decide (e.1 < 0x200000) && e.1 % 32 == 16 && bitsOf e.2.toNat 32 3 == 2)

/-- Send an LTR message when the value changes. -/
def State.sendLtr (s : State) (ns : Nat) : State :=
  if s.out.ltr.getLast? = some ns then s else { s with out := { s.out with ltr := s.out.ltr ++ [ns] } }

/-- While anything goes on the latency is 3 µs; the last moment at which it did is kept. -/
def State.refreshLtr (s : State) : State :=
  if s.working then { s.sendLtr 3000 with pwr := { s.pwr with ltrC := s.c } } else s

/-! ### Queue registers (R40 to R42, R67) -/

/-- A FUNC field that VF Enable holds (R388): the resource of an enabled VF. -/
def State.funcHeld (s : State) (f : Nat) : Bool := s.pcie.vfEnable && f != 0

/-- A write of CMD_Q_CFG (R40 to R42). The PF writes FUNC; a function's view gives CQG as a local value (R391). -/
def State.writeQCfg (s : State) (rq : Requester) (q : Nat) (v : Nat) : State :=
  let base := CMD_Q_CFG q
  let old := (s.reg base).toNat
  let on := bitOf v 24
  let (local', f) : Bool × Nat := match rq with
    | .fn 0 => (false, 0)
    | .fn n => (true, n)
    | _ => (false, 0)
  if s.flag (CMD_Q_CFG_ENABLE q) then
    if on then s else (s.put (CMD_Q_CFG_ENABLE q) 0).refreshQueue q
  else
    let busy := s.get (CMD_Q_PTR_INFLIGHT q) != 0
    let v1 := if local' then putBits (putBits v 18 5 f) 8 10 (bitsOf v 8 10 + s.get (VIRT_FN_W0_CQBASE f)) else v
    let keepFunc := local' || s.funcHeld (s.get (CMD_Q_CFG_FUNC q))
    let v2 := if keepFunc then putBits v1 18 5 (s.get (CMD_Q_CFG_FUNC q)) else v1
    let new := if busy then old else writeFields (fieldsAt base) false false old (putBits v2 24 1 0) mask32
    if !on then s.setReg base (BitVec.ofNat 64 new)
    else
      let g := bitsOf new 8 10
      let badG := local' && decide (s.cnt (VIRT_FN_W0_CQCNT f) ≤ bitsOf v 8 10)
      if badG || !s.flag (CMD_CQ_CFG_ENABLE g) || s.get (CMD_CQ_CFG_FUNC g) != bitsOf new 18 5 then s
      else
        let s := s.setReg base (BitVec.ofNat 64 (putBits new 24 1 1))
        (({ s with stoppedQ := s.stoppedQ.filter (· != q) }.put (CMD_Q_PTR_HEAD q) 0).put (CMD_Q_PTR_TAIL q) 0).refreshQueue q

/-- QUEUE_ENABLE. -/
def execQueueEnable (rq : Requester) (q : Nat) (v : Word32) (s : State) : Out :=
  .next (s.guardedView rq (CMD_Q_CFG q) (s.viewQ rq q) (fun q s => s.writeQCfg rq q v.toNat))

/-- QUEUE_DISABLE. -/
def execQueueDisable (rq : Requester) (q : Nat) (v : Word32) (s : State) : Out :=
  .next (s.guardedView rq (CMD_Q_CFG q) (s.viewQ rq q) (fun q s => s.writeQCfg rq q v.toNat))

/-- A write of CMD_Q_ERR (R40, R67): RESUME looks at the error bits as they stood before the write. -/
def State.writeQErr (s : State) (q v mask : Nat) : State :=
  let stuck := s.flag (CMD_Q_ERR_MALFORMED q) || s.flag (CMD_Q_ERR_FETCH_ERR q)
  let s := s.plainWrite (CMD_Q_ERR q) v mask
  if bitOf (Nat.land v mask) 63 && !stuck then ({ s with stoppedQ := s.stoppedQ.filter (· != q) }.refreshQueue q).refreshLtr
  else s

/-- QUEUE_RESUME. -/
def execQueueResume (rq : Requester) (q : Nat) (v : Word64) (s : State) : Out :=
  .next (s.guardedView rq (CMD_Q_ERR q) (s.viewQ rq q) (fun q s => s.writeQErr q v.toNat mask64))

/-! ### Doorbells (R45 to R49, R630) -/

/-- Can a doorbell of function `fn` arrive: the link is up, the part is out of reset, no function-level reset (R398). -/
def State.bellOk (s : State) (fn : Nat) : Bool := s.reaches (.fn fn) && !s.flag (VIRT_FN_W5_FLR_BUSY fn)

/-- A tail takes effect (R48). That of a fallback queue does nothing more (R363). -/
def State.acceptTail (s : State) (q t : Nat) : State :=
  if !s.flag (CMD_Q_CFG_ENABLE q) then s.put (CMD_Q_ERR_DB_DISABLED q) 1
  else if s.flag (VIRT_FN_W5_QUIESCED (s.qFn q)) then s
  else if 2 ^ s.get (CMD_Q_CFG_SIZE_LOG2 q) ≤ t then s.put (CMD_Q_ERR_BAD_TAIL q) 1
  else if s.fallbackQ q then s.put (CMD_Q_PTR_TAIL q) t
  else ((s.put (CMD_Q_PTR_TAIL q) t).refreshQueue q).refreshLtr

/-- A write of SQ_TAIL in page `q` of a function: during an activation pause the last tail is latched (R49). -/
def State.sqTail (s : State) (fn q v : Nat) : State :=
  if !s.bellOk fn then s else
    match s.viewQ (.fn fn) q with
    | none => s
    | some g =>
      let t := v % 65536
      if s.flag TOP_FW_STAT_PAUSE then { s with dbLatch := mset (fun _ => 65536) s.dbLatch g t } else s.acceptTail g t

/-- SQ_TAIL. -/
def execSqTail (fn q : Nat) (v : Word32) (s : State) : Out := .next (s.sqTail fn q v.toNat)

/-- The groups' registers, and head acceptance (R630). -/
def State.acceptHead (s : State) (g h : Nat) : State :=
  let n := 2 ^ s.get (CMD_CQ_CFG_SIZE_LOG2 g)
  let hd := s.get (CMD_CQ_PTR_HEAD g)
  if n ≤ h ∨ (s.get (CMD_CQ_PTR_TAIL g) + n - hd % n) % n < (h + n - hd % n) % n then s.put (CMD_CQ_PTR_BAD_HEAD g) 1
  else ((s.put (CMD_CQ_PTR_HEAD g) h).refreshGroup g).settle

/-- A write of CQ_HEAD in page `q` of a function. -/
def State.cqHead (s : State) (fn q v : Nat) : State :=
  if !s.bellOk fn then s else
    match s.viewQ (.fn fn) q with
    | none => s
    | some i =>
      let g := s.qGroup i
      if !s.flag (CMD_CQ_CFG_ENABLE g) || s.get (CMD_CQ_CFG_FUNC g) != s.qFn i then s
      else s.acceptHead g (v % 65536)

/-- CQ_HEAD. -/
def execCqHead (fn q : Nat) (v : Word32) (s : State) : Out := .next (s.cqHead fn q v.toNat)

/-- A read of offset `o` in the doorbell pages of a function (R45). -/
def State.bellRead (s : State) (fn o size : Nat) : Nat :=
  if size ≠ 4 then 0 else
    match s.viewQ (.fn fn) (o / 4096) with
    | none => 0
    | some i =>
      match o % 4096 with
      | 0 => s.get (CMD_Q_PTR_HEAD i) + s.get (CMD_Q_PTR_STATE i) * 65536
      | 8 => s.get (CMD_CQ_PTR_TAIL (s.qGroup i))
      | _ => 0

/-- A write of offset `o` in the doorbell pages of a function (R45). -/
def State.bellWrite (s : State) (fn o size v : Nat) : State :=
  if size ≠ 4 then s else
    match o % 4096 with
    | 0 => s.sqTail fn (o / 4096) v
    | 8 => s.cqHead fn (o / 4096) v
    | _ => s

/-! ### Completion groups (R58, R59) -/

/-- A queue still owes a record to the group (R59): one that names it and is enabled or has descriptors in flight. -/
def State.groupUsed (s : State) (g : Nat) : Bool :=
  (s.regs.any (fun e => decide (0x180000 ≤ e.1) && decide (e.1 < 0x200000) && e.1 % 32 == 8 &&
      bitsOf e.2.toNat 8 10 == g && bitOf e.2.toNat 24)) ||
    s.descs.any (fun d => s.qGroup d.q == g) ||
    s.regs.any (fun e => decide (0x180000 ≤ e.1) && decide (e.1 < 0x200000) && e.1 % 32 == 16 &&
      bitsOf e.2.toNat 35 16 != 0 && s.qGroup ((e.1 - 0x180000) / 32) == g)

/-- A write of CMD_CQ_CFG (R58, R59). -/
def State.writeGCfg (s : State) (rq : Requester) (g v : Nat) : State :=
  let base := CMD_CQ_CFG g
  let old := (s.reg base).toNat
  let on := bitOf v 29
  let local' := match rq with
    | .fn n => n != 0
    | _ => false
  if s.flag (CMD_CQ_CFG_ENABLE g) then
    if on then s
    else if s.groupUsed g then s
    else (s.put (CMD_CQ_CFG_ENABLE g) 0).refreshGroup g
  else
    let v1 := if local' || s.funcHeld (s.get (CMD_CQ_CFG_FUNC g)) then putBits v 24 5 (s.get (CMD_CQ_CFG_FUNC g)) else v
    let s := s.setReg base (BitVec.ofNat 64 (writeFields (fieldsAt base) false false old v1 mask32))
    if on then
      let s := ((s.put (CMD_CQ_PTR_TAIL g) 0).put (CMD_CQ_PTR_HEAD g) 0).put (CMD_CQ_PTR_PHASE g) 1
      ({ s with coal := mset (fun _ => ⟨0, 0⟩) s.coal g ⟨0, 0⟩ }).refreshGroup g
    else s

/-- CQ_GROUP_ENABLE. -/
def execCqGroupEnable (rq : Requester) (g : Nat) (v : Word32) (s : State) : Out :=
  .next (s.guardedView rq (CMD_CQ_CFG g) (s.viewG rq g) (fun g s => s.writeGCfg rq g v.toNat))

/-- CQ_GROUP_DISABLE. -/
def execCqGroupDisable (rq : Requester) (g : Nat) (v : Word32) (s : State) : Out :=
  .next (s.guardedView rq (CMD_CQ_CFG g) (s.viewG rq g) (fun g s => s.writeGCfg rq g v.toNat))

/-- COALESCE_TIMEOUT (R62). -/
def execCoalesceTimeout (g : Nat) (s : State) : Out :=
  .next (
    let x := mget (fun _ => ⟨0, 0⟩) s.coal g
    let us := s.get (CMD_CQ_COAL_COAL_US g)
    if us = 0 ∨ x.cnt = 0 ∨ s.c < x.since + usTicks us then s
    else { s with coal := mset (fun _ => ⟨0, 0⟩) s.coal g ⟨0, 0⟩ }.msix (s.get (CMD_CQ_CFG_FUNC g)) (s.get (CMD_CQ_CFG_VECTOR g)))

/-! ### Fetch (R43, R44, R66, R359, R362, R363, R390) -/

/-- A new commit record. -/
def State.newDesc (s : State) (q idx : Nat) (bytes : List Byte) : Desc :=
  { id := s.nextId, q := q, idx := idx, bytes := bytes, fetchC := s.c, phase := .fetched, waitC := 0,
    dispC := 0, parts := [], status := 0, detail := 0, unitId := 0xFF, fb := false, job := none, join := false,
    program := false, slot := false, outs := [], rows := [], ending := none, step := 0, effected := false,
    poisoned := false, squashed := false, noSignal := false, flushing := false, doneT := 0, doneC := 0 }

/-- The enabled job that names a queue as primary or fallback queue. -/
def State.jobOf (s : State) (f : Nat → Fref) (q : Nat) : Option Nat :=
  (List.range 256).find? (fun j => s.flag (SCH_JOB_W2_EN j) && s.get (f j) == q)

/-- A descriptor of a primary queue joins the open run, or opens one (R359). -/
def State.joinRun (s : State) (d : Desc) (j : Nat) : State × Desc :=
  let n := s.get (SCH_JOB_W0_N_M1 j) + 1
  let x := s.job j
  if s.get (SCH_JOB_W3_STATE j) = 0 then
    let s := (s.setJob j { x with c0 := s.c, dl := d.due, ids := [d.id], missed := false }).put (SCH_JOB_W3_STATE j) 1
    (s.put (SCH_JOB_W3_DONE j) 0, { d with job := some j, join := n == 1 })
  else if x.ids.length < n then
    (s.setJob j { x with ids := x.ids ++ [d.id] },
     { d with job := some j, join := x.ids.length + 1 == n, fb := x.stage != 0 })
  else (s, d)

/-- What the fetch of a queue takes: the slot, and the job whose fallback program it belongs to. -/
def State.fetchSlot (s : State) (q : Nat) : Option (Nat × Option Nat) :=
  if !s.fwFor q || s.flag (VIRT_FN_W5_FLR_BUSY (s.qFn q)) || !s.flag (CMD_Q_CFG_ENABLE q) || s.stoppedQ.contains q then none
  else match s.jobOf SCH_JOB_W0_FQ q with
    | some _ =>
      ((List.range 256).find? (fun j => s.flag (SCH_JOB_W2_EN j) && s.get (SCH_JOB_W0_FQ j) == q && (s.job j).stage == 2 &&
        (s.job j).next != (s.job j).stop)).map (fun j => ((s.job j).next, some j))
    | none =>
      if s.flag (VIRT_FN_W5_QUIESCED (s.qFn q)) || s.get (CMD_Q_PTR_HEAD q) == s.get (CMD_Q_PTR_TAIL q) then none
      else some (s.get (CMD_Q_PTR_HEAD q), none)

/-- A failed read of a descriptor (R66): a record, and the queue stops at the slot. -/
def State.fetchFailed (s : State) (q slot bus : Nat) (pj : Option Nat) : State :=
  let d := { s.newDesc q slot (List.replicate 64 0) with
    phase := .ended, status := 0x15, detail := bus, noSignal := true, step := s.seq + 1
    fb := pj.isSome, program := pj.isSome, job := pj }
  let s := { s with descs := s.descs ++ [d], nextId := s.nextId + 1, seq := s.seq + 1 }.bump (CMD_Q_PTR_INFLIGHT q) 1
  let s := s.stopQueue q slot (CMD_Q_ERR_FETCH_ERR q)
  match pj with
  | some j => s.setJob j { s.job j with stop := (s.job j).next }
  | none => s

/-- A descriptor has been copied. -/
def State.fetched (s : State) (q slot : Nat) (bytes : List Byte) (pj : Option Nat) : State :=
  let n := 2 ^ s.get (CMD_Q_CFG_SIZE_LOG2 q)
  let d := s.newDesc q slot bytes
  let (s, d) : State × Desc := match pj with
    | some j => (s.setJob j { s.job j with next := (slot + 1) % n }, { d with job := some j, program := true, fb := true })
    | none =>
      let s := s.put (CMD_Q_PTR_HEAD q) ((slot + 1) % n)
      match s.jobOf SCH_JOB_W0_PQ q with
      | some j => s.joinRun d j
      | none => (s, d)
  let s := { s with descs := s.descs ++ [d], nextId := s.nextId + 1 }.bump (CMD_Q_PTR_INFLIGHT q) 1
  let s := (s.refreshQueue q).emitDesc d 36 0x01 0 d.opc 0
  match d.job with
  | some j => if (s.job j).stage ≠ 0 ∧ !d.program then s.switchOne d.id else s
  | none => s

/-- The enabled queues that have a slot to fetch, in ascending order. -/
def State.fetchable (s : State) : List Nat :=
  (s.regs.filterMap (fun e =>
    if 0x180000 ≤ e.1 ∧ e.1 < 0x200000 ∧ e.1 % 32 = 8 ∧ bitOf e.2.toNat 24 then some ((e.1 - 0x180000) / 32) else none)).filter
    (fun q => (s.fetchSlot q).isSome)

/-- The function served next: the one whose turn it is while its weight lasts and it has work, else the next in ascending
order, cyclically, that has (R390). -/
def State.fetchTurn (s : State) : Option Nat :=
  let qs := s.fetchable
  let has (f : Nat) : Bool := qs.any (fun q => s.qFn q == f)
  if s.fetchTaken < s.get (VIRT_FN_W3_FETCH_WT s.fetchFn) && has s.fetchFn then some s.fetchFn
  else ((List.range 32).map (fun i => (s.fetchFn + 1 + i) % 32)).find? has

/-- The queue that firmware fetches from next: within the function, the lowest-numbered one with pending work. -/
def State.nextFetch (s : State) : Option Nat :=
  match s.fetchTurn with
  | some f => s.fetchable.find? (fun q => s.qFn q == f)
  | none => none

/-- One descriptor of function `f` is fetched. -/
def State.countFetch (s : State) (f : Nat) : State :=
  if s.fetchFn = f ∧ s.fetchTaken < s.get (VIRT_FN_W3_FETCH_WT f) then { s with fetchTaken := s.fetchTaken + 1 }
  else { s with fetchFn := f, fetchTaken := 1 }

/-- DESCRIPTOR_FETCH: firmware fetches from the queue whose turn it is (R390), and from no other. -/
def execDescriptorFetch (q : Nat) (ok : Bool) (s : State) : Out :=
  .next (match (if s.nextFetch = some q then s.fetchSlot q else none) with
    | none => s
    | some (slot, pj) =>
      let s := s.countFetch (s.qFn q)
      let bus := s.get (CMD_Q_BASE_ADDR q) * 4096 + 64 * slot
      let s := if ok && s.busOk (s.qFn q) then s.fetched q slot (s.hostBytes bus 64) pj else s.fetchFailed q slot bus pj
      s.settle.refreshLtr)

/-- The slots after a malformed descriptor count as not fetched (R65): HEAD stands after it, and the records of later
descriptors of its queue, none of them dispatched, are dropped (log 27). -/
def State.unfetch (s : State) (d : Desc) : State :=
  let later (x : Desc) : Bool := x.q == d.q && decide (d.id < x.id) && x.phase != .ended
  let gone := s.descs.filter later
  let s := { s with descs := s.descs.filter (fun x => !later x) }
  let s := gone.foldl (fun s x =>
    let s := s.drop (CMD_Q_PTR_INFLIGHT x.q) 1
    match x.job with
    | some j => if x.program then s else s.setJob j { s.job j with ids := (s.job j).ids.filter (· != x.id) }
    | none => s) s
  if d.program then s else s.put (CMD_Q_PTR_HEAD d.q) ((d.idx + 1) % 2 ^ s.get (CMD_Q_CFG_SIZE_LOG2 d.q))

/-! ### Dispatch (R53, R60, R65, R348 to R351) -/

/-- A parameter block as it stands, where it can be read. -/
def State.pbPeek (s : State) (d : Desc) : List Byte :=
  match (s.readPb d).2 with
  | .ok bs => bs
  | .error _ => []

def State.flipEng (s : State) (d : Desc) : Nat := bitsOf (u (s.pbPeek d) 0 4) 0 2

/-- Limits of the units that hold several descriptors (R322, R328, R558). -/
def State.unitFull (s : State) (d : Desc) : Bool :=
  let live := s.descs.filter (fun x => x.phase == .dispatched && x.opc == d.opc && !x.flushing)
  match d.opc with
  | 0xB0 => live.any (fun x => s.flipEng x == s.flipEng d)
  | 0xB8 => decide (8 ≤ (live.filter (fun x => bitsOf (x.u 28 2) 0 13 == bitsOf (d.u 28 2) 0 13)).length)
  | 0xC1 => decide (8 ≤ live.length)
  | _ => false

/-- Is another ready descriptor, which ranks before, in competition for one of these islands (R348)? -/
def State.outranked (s : State) (d : Desc) (isls : List Nat) (units : Nat) : Bool :=
  s.descs.any (fun x => x.phase == .ready && x.id != d.id && s.ranks x d && s.isReady x &&
    (let (ws, wu) := s.wants x
     Nat.land wu units != 0 && ws.any (fun i => isls.contains i && s.admits i x)))

/-- Wake gated islands for a descriptor (R589). -/
def State.wakeIsls (s : State) (isls : List Nat) : State :=
  isls.foldl (fun s i => if s.islOn i || s.waking.contains i then s else { s with waking := s.waking ++ [i] }) s

/-- The parts of a choice: those that can start do, the others wait for their engines (R350). -/
def State.place (s : State) (d : Desc) (p : Plan) (isls : List Nat) : Option (List Nat × List Nat) :=
  let free := isls.filter (fun i => s.canTake d i p.units (p.rows isls) && s.islOn i && !s.yields d i p.units)
  if isls.isEmpty ∨ free.isEmpty then none else some (isls, free)

/-- The engines of a chosen set that are awake start; the set waits until one is (R349, R589). -/
def State.awake (s : State) (isls : List Nat) : Option (List Nat × List Nat) :=
  let on := isls.filter s.islOn
  if on.isEmpty then none else some (isls, on)

/-- The largest set of arrays on which the rows that each holds in that set are free: arrays that are not drop out, until
none does. -/
def State.rowSet (s : State) (d : Desc) (p : Plan) : Nat → List Nat → List Nat
  | 0, as => as
  | n + 1, as =>
    let ok := as.filter (fun a => ((p.rows as).filter (fun r => r.1 == a)).all (s.rowsFree d.id))
    if ok.length = as.length then as else s.rowSet d p n ok

/-- The islands that a plan takes now: all of them, and those that start at once (R349, R350). -/
def State.choose (s : State) (d : Desc) (p : Plan) : Option (List Nat × List Nat) :=
  if !p.isls.isEmpty then
    if p.units = 0 then
      let free := p.isls.filter (fun i => 8 ≤ i || (s.admits i d && s.islOn i && !s.yields d i 0))
      if free.isEmpty then none else some (p.isls, free)
    else s.place d p p.isls
  else match p.auto with
    | 1 =>
      let ok := s.rowSet d p 4 (s.arraysPresent.filter (fun a => s.canTake d a p.units [] && !s.yields d a p.units))
      if ok.length < max 1 p.least then none else s.awake (p.uses ok)
    | 2 =>
      let free := (s.candidates d p).filter (fun i => !s.yields d i p.units &&
        (if p.units = 0 then s.admits i d else s.canTake d i p.units []))
      match free with
      | i :: _ => s.awake [i]
      | [] => none
    | 3 =>
      let free := s.dmaPresent.filter (fun i => s.canTake d i 1 [] && !s.yields d i 1)
      match free with
      | [] => none
      | _ =>
        let pick := p.near.foldl (fun (acc : List Nat × List Nat) w =>
          match acc.2 with
          | [] => acc
          | f :: _ =>
            let i := match w with
              | some x => if acc.2.contains x then x else f
              | none => f
            (acc.1 ++ [i], acc.2.filter (· != i))) ([], free)
        some (pick.1, pick.1)
    | _ =>
      let free := s.arraysPresent.filter (fun a => s.canTake d a p.units (p.rows [a]) && !s.yields d a p.units)
      let mine := free.filter (fun a => s.flag (ACC_OWNER_VALID a) && s.get (ACC_OWNER_CTX a) == s.ctxOf d)
      match mine ++ free with
      | a :: _ => s.awake [a]
      | [] => none

/-- The descriptor is dispatched: a record slot is reserved (R60), the parts that can start do, gated engines of the others
wake. A DMA descriptor's first rows are dealt, one to a channel (R226). -/
def State.dispatchOn (s : State) (d : Desc) (p : Plan) (all go : List Nat) : State :=
  let s := s.updDesc d.id (fun x => { x with
    phase := .dispatched, dispC := s.c, slot := true, step := if p.auto = 3 then all.length else 0, outs := p.outs all, rows := p.rows all
    parts := all.mapIdx (fun n i => (⟨i, p.units, .notStarted, 0, 0, 0, 0, 0, 0, 0, 0, false, false, n⟩ : Part)) })
  ((go.foldl (fun s i => s.startPart d.id i) s).wakeIsls (all.filter (fun i => decide (i < 8)))).refreshGroup (s.qGroup d.q)

/-- The descriptor waits: engines are woken, lower classes stopped on what it needs, which is one engine where firmware
chooses one, and a wait on accumulator rows counted once (R351). -/
def State.hold (s : State) (d : Desc) (p : Plan) : State :=
  let cands := s.candidates d p
  let one (l : List Nat) : List Nat := if p.isls.isEmpty && p.auto != 1 then l.take 1 else l
  let s := s.wakeIsls (one (cands.filter (fun i => decide (i < 8) &&
    (if p.units = 0 then s.admits i d else s.canTake d i p.units []))))
  let blocked := cands.any (fun i => (s.holders i p.units).isEmpty && s.admits i d &&
    !((p.rows cands).filter (fun r => r.1 == i)).all (s.rowsFree d.id))
  let s := if blocked && d.step == 0 then (s.updDesc d.id (fun d => { d with step := 1 })).bump SCH_CNT_ACC_BLOCK_COUNT 1 else s
  let below (i : Nat) : Bool := (s.holders i p.units).any (fun x => decide (s.descClass x < s.descClass d) || s.descPart x != s.descPart d)
  (one (cands.filter below)).foldl (fun s i => s.preempt d i p.units) s

/-- A group that its window unit refuses stands in the error log of the lowest unit that it could have used (R164, log 22). -/
def State.refusalLog (s : State) (d : Desc) (c : Nat) : State :=
  if c ≠ 0x91 ∧ c ≠ 0x92 then s else
  match (let m := maskBits 4 (whdrOf (s.pbPeek d)).arrays; if m.isEmpty then s.arraysPresent else m) with
  | un :: _ => s.winLog (s.secureDesc d) un c 0 0
  | [] => s

/-- DESCRIPTOR_DISPATCH: the check, then the engines. -/
def State.dispatch (s : State) (d : Desc) : State :=
  let g := s.qGroup d.q
  match s.verdict d with
  | (s, .stop c x) =>
    let s := ((s.endUndisp d.id c x [] false).unfetch d).stopQueue d.q d.idx (CMD_Q_ERR_MALFORMED d.q)
    match d.job with
    | some j => if d.program then s.setJob j { s.job j with stop := (s.job j).next } else s
    | none => s
  | (s, .pbRead c x) => s.endUndisp d.id c x [] true
  | (s, .refuse c x outs) => (s.refusalLog d c).endUndisp d.id c x outs true
  | (s, .wait) => s
  | (s, .go p) =>
    if s.freeSlots g = 0 ∨ !(s.endedOf g).isEmpty then s.refreshGroup g
    else if s.unitFull d then s
    else match s.choose d p with
      | none => s.hold d p
      | some (all, go) => if s.outranked d all p.units then s else s.dispatchOn d p all go

/-- DESCRIPTOR_DISPATCH. -/
def execDescriptorDispatch (d : Nat) (s : State) : Out :=
  .next (match s.desc? d with
    | none => s
    | some x => if s.mayDispatch x then (s.dispatch x).settle else s)

/-- SEM_TIMEOUT (R74). -/
def execSemTimeout (d : Nat) (s : State) : Out :=
  .next (match s.desc? d with
    | none => s
    | some x =>
      let ms := s.get (CMD_Q_LIMIT_WAIT_MS x.q)
      if x.phase ≠ .waiting ∨ ms = 0 ∨ s.c ≤ x.waitC + msTicks ms then s
      else
        let i := s.semOf x x.waitIdx
        let (s, outs) := s.declOuts x
        let s := s.emitDesc x 36 0x09 0 (waitA i x.waitTgt) (s.get (CMD_SEM_COUNT i))
        (s.endUndisp d 0x33 x.waitIdx outs true).settle)

/-! ### Work that Keeper firmware and the shared islands do in one step -/

/-- Run work that its own command does whole: the part ends with the result, and what follows comes about. -/
def State.ownWork (s : State) (i opc isl : Nat) (work : Desc → Eng (Nat × Nat)) : State :=
  match s.desc? i with
  | none => s
  | some d =>
    if !d.runnable opc then s else
    match (work d).run.run s with
    | (.ok (st, dt), s1) => ({ s1 with seq := s1.seq + 1 }.finishPart i isl st dt).settle
    | (.error (.fail c x), s1) => ({ s1 with seq := s1.seq + 1 }.finishPart i isl c x).settle
    | (.error .wait, s1) => s.keepRequests s1

/-- What the engine of 0x00 does (see execNop). -/
def workNop (_x : Desc) : Eng (Nat × Nat) :=
  return (0, 0)

/-- NOP (R55). -/
def execNop (d : Nat) (s : State) : Out := .next (s.ownWork d 0x00 36 workNop)

/-- What the engine of 0x01 does (see execSemWrite). -/
def workSemWrite (x : Desc) : Eng (Nat × Nat) := do
    let s ← eGet
    let l := bitsOf (x.u 16 2) 0 12
    let i := s.semOf x l
    if bitOf (x.u 16 2) 12 then
      let (t, sat) := s.descAdd x i (x.u 20 4) 1
      set t
      return if sat then (0x02, l) else (0, 0)
    else
      eMod (fun s => s.semSet i (x.u 20 4))
      return (0, 0)

/-- SEM_WRITE (R55, R64). -/
def execSemWrite (d : Nat) (s : State) : Out := .next (s.ownWork d 0x01 36 workSemWrite)

/-- What the engine of 0x02 does (see execTimestamp). -/
def workTimestamp (x : Desc) : Eng (Nat × Nat) := do
    let s ← eGet
    eWrite (s.mreq x 36) false 0 x.a16 (leBytes 8 s.beacon)
    return (0, 0)

/-- TIMESTAMP (R55). -/
def execTimestamp (d : Nat) (s : State) : Out := .next (s.ownWork d 0x02 36 workTimestamp)

end Sys2Proof.Machine
end

