-- ==== Sys2Proof/Machine/Display.lean ====
section
/-!
DEFINITION. Display engines: flips, latch instants, composition, region checks, links and AUX (R315 to R326, R334 to R340).
-/

namespace Sys2Proof.Machine

/-! ### Engine state -/

def region0 : Region := ⟨0, 0, 0, 0, 0, false, false, 2 ^ 32, 0⟩
def disp0 : DispSt := ⟨none, [], none, List.replicate 8 none, List.replicate 8 none, List.replicate 16 region0, [], 0, [], 0, false⟩

def State.disp (s : State) (n : Nat) : DispSt := (mget (fun _ => none) s.disps n).getD disp0
def State.setDisp (s : State) (n : Nat) (x : DispSt) : State :=
  { s with disps := mset (fun _ => none) s.disps n (some x) }

/-- Output on: enabled by its active timing, not retired, link up (R317, R324). -/
def State.dispOn (s : State) (n : Nat) : Bool :=
  s.flagA (DISP_TIM_CLK_ENABLE n) && !s.isRetired (chDisp n) && s.get (DISP_STAT_LINK n) == 2

/-- Count, unless the engine serves a secure context (R337 ff., R457). -/
def State.dbump (s : State) (n : Nat) (f : Fref) (k : Nat) : State :=
  if (s.disp n).planes.any (fun p => p.any (fun r => r.w)) then s else s.bump f k

/-- A dispatched descriptor of an engine ends. -/
def State.dispEnd (s : State) (i status detail : Nat) : State := { s with seq := s.seq + 1 }.finishPart i 32 status detail

/-- An output goes off: the flips it holds complete with DISP_OUTPUT_OFF (R324). -/
def State.dispDark (s : State) (n : Nat) : State :=
  let x := s.disp n
  let fl := (match x.held with | some d => [d] | none => []) ++ (match x.taken with | some d => [d] | none => [])
  let s := s.setDisp n { x with held := none, taken := none, scanning := false }
  (fl.foldl (fun s d => s.dispEnd d 0xB0 n) s).settle

/-- The planes of a retired output are released (R29). -/
def State.dropPlanes (s : State) (n : Nat) : State :=
  s.setDisp n { s.disp n with planes := List.replicate 8 none, next := List.replicate 8 none }

/-- Mark work as taken by its unit: the command acts once. -/
def State.taken (s : State) (i : Nat) : State := s.updDesc i (fun d => { d with effected := true })

/-- The descriptor of a command whose unit is to take it. -/
def State.toTake (s : State) (i opc : Nat) : Option Desc :=
  match s.desc? i with
  | some d => if d.runnable opc then some d else none
  | none => none

/-- Planes of an engine that a descriptor's function holds (R389): the PF holds every plane. -/
def State.planesOf (s : State) (d : Desc) (n : Nat) : Nat :=
  if s.qFn d.q = 0 then 255 else bitsOf (s.get (VIRT_FN_W3_PLANES (s.qFn d.q))) (8 * n) 8

/-- A read of a descriptor's parameter block at execution (R57). -/
def ePb (d : Desc) : Eng (List Byte) := do
  let s ← eGet
  eRead (s.mreq d 36) d.pbAddr (64 * d.pbLen)

/-! ### Flips (R322 to R324, R335) -/

/-- The plane records of a flip over those in force. -/
def flipPlanes (pb : List Byte) (part : Nat) (w : Bool) (ctx : Nat) (old : List (Option PlaneRec)) : List (Option PlaneRec) :=
  (List.range 8).map (fun p =>
    if bitOf (u pb 0 4) (2 + p) then some ⟨(pb.drop (64 + 32 * p)).take 32, part, w, ctx⟩ else nth none old p)

/-- DISP_FLIP: the engine holds it until a latch instant, or it completes at once. -/
def execDispFlip (d : Nat) (s : State) : Out :=
  .next (match s.toTake d 0xB0 with
    | none => s
    | some x =>
      match (ePb x).run.run s with
      | (.error .wait, s1) => s.keepRequests s1
      | (.error (.fail c y), s1) => (s1.dispEnd d c y).settle
      | (.ok pb, s) =>
        let n := bitsOf (u pb 0 4) 0 2
        let m := bitsOf (u pb 0 4) 2 8
        if !s.dispOn n then (s.dispEnd d 0xB0 n).settle
        else if (bitOf m 7 && s.descPart x != s.get (DISP_CFG_SAFE_PART n)) || Nat.land m (s.planesOf x n) != m then
          (s.dispEnd d 0xB1 n).settle
        else (s.setDisp n { s.disp n with held := some d, pb := pb }).taken d)

/-- LATCH_INSTANT: the held flip governs the next frame, with the records that its dispatch read (R57), unless its part stands
stopped; a flip fetched and not dispatched makes a held frame. The display window of the engine closes. -/
def execLatchInstant (n : Nat) (s : State) : Out :=
  .next (if !s.dispOn n then s else
    let s := { s with dwins := s.dwins.filter (· != n), denied := s.denied.filter (fun p => p.1 != n) }
    let x := s.disp n
    match x.held with
    | some d =>
      (match s.desc? d with
      | some y =>
        if !y.parts.any (fun p => p.active) then s
        else s.setDisp n { x with
          held := none, taken := some d
          next := flipPlanes x.pb (s.descPart y) (s.ctxW (s.ctxOf y)) (s.ctxOf y) x.next }
      | none => s.setDisp n { x with held := none }).settle
    | none =>
      (if s.descs.any (fun y => y.opc == 0xB0 && [DPhase.fetched, .waiting, .ready].contains y.phase && s.flipEng y == n) then
        s.dbump n (DISP_CNT_HELD_COUNT n) 1 else s).settle)

/-- VBLANK_START: the scan of the frame is over; the latched flip completes, and the buffers it replaced are read no more. -/
def execVblankStart (n : Nat) (s : State) : Out :=
  .next (
    let x := s.disp n
    let s := s.setDisp n { x with taken := none, planes := x.next, scanning := false }
    match x.taken with
    | none => s
    | some d => (s.dispEnd d 0 0).settle)

/-- FRAME_START: the latched planes and the new regions govern the frame (R317, R322, R336). -/
def execFrameStart (n : Nat) (s : State) : Out :=
  .next (if !s.dispOn n then s else
    let x := s.disp n
    let rs := if x.nextRegions.isEmpty then x.regions else x.nextRegions
    let s := if x.nextRegions.isEmpty then s else
      ((List.range 16).zip rs).foldl (fun s (r, g) => s.put (DISP_CRC_VAL_EXPECT n r) g.expect) s
    let s := s.setDisp n { x with
      planes := x.next, regions := rs.map (fun r => { r with crc := 0xFFFFFFFF }), nextRegions := [], row := 0, scanning := true }
    s.put (DISP_STAT_FRAME n) (s.get (DISP_STAT_FRAME n) + 1))

/-! ### Composition (R318 to R321) -/

/-- A plane pixel: colour packed 12 bits each R, G, B, A from bit 0, or FILL for a poisoned codeword, or not fetched. -/
inductive Px where
  | rgba (v : Nat)
  | bad (cw : Nat)
  | missing
deriving DecidableEq, Repr

def pack4 (r g b a : Nat) : Nat := r + g * 2 ^ 12 + b * 2 ^ 24 + a * 2 ^ 36
def chan (v i : Nat) : Nat := bitsOf v (12 * i) 12

/-- RNE of n / d. -/
def rneDiv (n d : Nat) : Nat :=
  let q := n / d
  let r := n % d
  if d < 2 * r ∨ (d = 2 * r ∧ q % 2 = 1) then q + 1 else q

/-- A `b`-bit UNORM value at 12 bits. -/
def to12 (b v : Nat) : Nat := rneDiv (v * 4095) (2 ^ b - 1)

/-- FP16 clamped to 0 to 1, at 12 bits; the value of a NaN is open (log 7). -/
def half12 (v : Nat) : Nat :=
  match fF16.dec v with
  | .fin false m e => min 4095 (roundInt 0 (vmul (.fin false m e) (.fin false 4095 0))).toNat
  | .inf false => 4095
  | .nan => Config.freeNat v % 4096
  | _ => 0

/-- Fields of a plane record. -/
def PlaneRec.f (r : PlaneRec) (o n : Nat) : Nat := u r.bytes o n
def PlaneRec.fmt (r : PlaneRec) : Nat := bitsOf (r.f 16 4) 16 4
def PlaneRec.swz (r : PlaneRec) : Bool := bitOf (r.f 16 4) 20
def PlaneRec.en (r : PlaneRec) : Bool := bitOf (r.f 16 4) 21
def PlaneRec.sw (r : PlaneRec) : Nat := bitsOf (r.f 20 4) 0 13
def PlaneRec.sh (r : PlaneRec) : Nat := bitsOf (r.f 20 4) 16 13
def PlaneRec.dx (r : PlaneRec) : Nat := bitsOf (r.f 24 4) 0 13
def PlaneRec.dy (r : PlaneRec) : Nat := bitsOf (r.f 24 4) 16 13
def PlaneRec.dw (r : PlaneRec) : Nat := bitsOf (r.f 28 4) 0 13
def PlaneRec.dh (r : PlaneRec) : Nat := bitsOf (r.f 28 4) 16 13

/-- Bytes of a packed pixel, and a texture format of the same size for the swizzled layout (R302). -/
def pfmtBytes (f : Nat) : Nat := if f = 2 then 2 else if f = 4 then 8 else 4

/-- Offset of pixel (x, y) in a swizzled image of `b`-byte texels. -/
def planeSwizzle (b w x y : Nat) : Nat :=
  let (mw, mh) := microTile b
  let pw := 8 * 2 ^ mw
  let ph := 8 * 2 ^ mh
  (y / ph * cdiv w pw + x / pw) * 4096 + morton 3 3 (x % pw / 2 ^ mw) (y % ph / 2 ^ mh) * 64 +
    morton mw mh (x % 2 ^ mw) (y % 2 ^ mh) * b

/-- A packed RGB pixel at 12 bits per component. -/
def unpackRgb (f v : Nat) : Nat :=
  match f with
  | 0 => pack4 (to12 8 (bitsOf v 16 8)) (to12 8 (bitsOf v 8 8)) (to12 8 (bitsOf v 0 8)) (to12 8 (bitsOf v 24 8))
  | 1 => pack4 (to12 8 (bitsOf v 0 8)) (to12 8 (bitsOf v 8 8)) (to12 8 (bitsOf v 16 8)) (to12 8 (bitsOf v 24 8))
  | 2 => pack4 (to12 5 (bitsOf v 11 5)) (to12 6 (bitsOf v 5 6)) (to12 5 (bitsOf v 0 5)) 4095
  | 3 => pack4 (to12 10 (bitsOf v 0 10)) (to12 10 (bitsOf v 10 10)) (to12 10 (bitsOf v 20 10)) (to12 2 (bitsOf v 30 2))
  | _ => pack4 (half12 (bitsOf v 0 16)) (half12 (bitsOf v 16 16)) (half12 (bitsOf v 32 16)) (half12 (bitsOf v 48 16))

/-- Luma shares of red and blue in 1/10,000 of a CSC code, and whether its range is limited (R319; log 49). -/
def cscOf (code : Nat) : Int × Int × Bool :=
  match code with
  | 0 => (2990, 1140, true)
  | 1 => (2126, 722, true)
  | 2 => (2126, 722, false)
  | _ => (2627, 593, true)

/-- n / d rounded RNE and held to 0 to 4,095. -/
def clamp12 (n d : Int) : Nat := if n ≤ 0 then 0 else min 4095 (rneDiv n.toNat d.toNat)

/-- A `b`-bit Y, Cb, Cr pixel as RGB at 12 bits, alpha 1: the matrix exactly, rounded once. -/
def cscPixel (code b y cb cr : Nat) : Nat :=
  let (kr, kb, lim) := cscOf code
  let kg : Int := 10000 - kr - kb
  let q : Int := 2 ^ (b - 8)
  let dy : Int := if lim then 219 * q else 256 * q - 1
  let dc : Int := if lim then 224 * q else 256 * q - 1
  let y0 : Int := (y : Int) - (if lim then 16 * q else 0)
  let u0 : Int := (cb : Int) - 128 * q
  let v0 : Int := (cr : Int) - 128 * q
  let one (k c : Int) : Nat := clamp12 (4095 * (10000 * dc * y0 + 2 * (10000 - k) * dy * c)) (10000 * dy * dc)
  let green : Nat := clamp12 (4095 * (10000 * kg * dc * y0 - 2 * dy * (kb * (10000 - kb) * u0 + kr * (10000 - kr) * v0)))
    (10000 * kg * dy * dc)
  pack4 (one kr v0) green (one kb u0) 4095

/-- Bytes of a plane as its partition reads them (R321). -/
def State.planeRead (s : State) (r : PlaneRec) (a n : Nat) : State × Except Px Nat :=
  let n' := ((List.range 4).find? (fun i => (s.disp i).planes.contains (some r))).getD 0
  match s.readMem ⟨r.part, r.w, 64 * (n' + 1) + 32, r.ctx, none⟩ a n with
  | (s, .ok bs) => (s, .ok (leNat bs))
  | (s, .error (.fail c x)) => (s, .error (if c = 0x23 ∨ c = 0x24 then .bad (x / 32) else .missing))
  | (s, .error .wait) => (s, .error .missing)

/-- One source pixel. -/
def State.planePixel (s : State) (r : PlaneRec) (x y : Nat) : State × Px :=
  let addr := bitsOf (r.f 0 8) 0 48
  let addr2 := bitsOf (r.f 8 8) 0 48
  let st := r.f 16 2
  let code := bitsOf (r.f 16 4) 22 2
  let done (s : State) (e : Except Px Nat) (k : Nat → Nat) : State × Px :=
    match e with
    | .ok v => (s, .rgba (k v))
    | .error p => (s, p)
  let yuv (b yy cb cr : Nat) : Nat := cscPixel code b yy cb cr
  if r.fmt ≤ 4 then
    let b := pfmtBytes r.fmt
    let o := if r.swz then planeSwizzle b r.sw x y else y * st + x * b
    let (s, e) := s.planeRead r (addr + o) b
    done s e (unpackRgb r.fmt)
  else if r.fmt = 7 then
    let (s, e) := s.planeRead r (addr + y * st + x / 2 * 4) 4
    done s e (fun v => yuv 8 (bitsOf v (16 * (x % 2)) 8) (bitsOf v 8 8) (bitsOf v 24 8))
  else
    let k := if r.fmt = 6 then 2 else 1
    let (s, e) := s.planeRead r (addr + y * st + x * k) k
    match e with
    | .error p => (s, p)
    | .ok yy =>
      let (s, e) := s.planeRead r (addr2 + y / 2 * st + x / 2 * 2 * k) (2 * k)
      if r.fmt = 6 then done s e (fun v => yuv 10 (bitsOf yy 6 10) (bitsOf v 6 10) (bitsOf v 22 10))
      else done s e (fun v => yuv 8 yy (bitsOf v 0 8) (bitsOf v 8 8))

/-- The first of a list of pixels that is no colour, else all the colours. -/
def allRgba : List Px → Except Px (List Nat)
  | [] => .ok []
  | .rgba v :: ps => match allRgba ps with
    | .ok vs => .ok (v :: vs)
    | .error p => .error p
  | p :: _ => .error p

/-- The pixel of a plane at output position (x, y) inside it, scaled where the sizes differ (R319). -/
def State.planeAt (s : State) (r : PlaneRec) (x y : Nat) : State × Px :=
  if r.sw = r.dw ∧ r.sh = r.dh then s.planePixel r x y
  else
    let px := x * r.sw * 64 / r.dw
    let py := y * r.sh * 64 / r.dh
    let (s, ps) := ((List.range 4).flatMap (fun j => (List.range 8).map (fun i => (i, j)))).foldl
      (fun (acc : State × List Px) (t : Nat × Nat) =>
        let (s, p) := acc.1.planePixel r (min (r.sw - 1) (px / 64 + t.1 - 3)) (min (r.sh - 1) (py / 64 + t.2 - 1))
        (s, acc.2 ++ [p])) (s, [])
    match allRgba ps with
    | .ok vs => (s, .rgba (Config.planeFilter (px % 64) (py % 64) vs % 2 ^ 48))
    | .error p => (s, p)

/-- One layer over another at 12 bits (R320). -/
def blend12 (galpha src dst : Nat) : Nat :=
  let a := rneDiv (chan src 3 * galpha) 255
  let mix (i : Nat) : Nat := rneDiv (chan src i * a + chan dst i * (4095 - a)) 4095
  pack4 (mix 0) (mix 1) (mix 2) 4095

/-- A colour in the packing of R325 at 12 bits per component; at 8 BPC each stands shifted left by 2. -/
def colour12 (ten : Bool) (v : Nat) : Nat :=
  let c (i : Nat) : Nat := if ten then to12 10 (bitsOf v (10 * i) 10) else to12 8 (bitsOf v (10 * i + 2) 8)
  pack4 (c 0) (c 1) (c 2) 4095

/-- A composed pixel as R325 packs it: rounded to BPC, shifted left by 2 at 8 bits. -/
def packOut (ten : Bool) (v : Nat) : Nat :=
  let c (i : Nat) : Nat := if ten then rneDiv (chan v i * 1023) 4095 else rneDiv (chan v i * 255) 4095 * 4
  c 0 + c 1 * 2 ^ 10 + c 2 * 2 ^ 20

/-- A plane over a line of 12-bit pixels: the line, the poisoned codewords met, and the first pixel that was not fetched. -/
def State.overPlane (s : State) (r : PlaneRec) (fill y : Nat) (line : List Nat) : State × List Nat × List Nat × Option Nat :=
  if !r.en || y < r.dy || r.dy + r.dh ≤ y then (s, line, [], none)
  else
    let g := bitsOf (r.f 16 4) 24 8
    (List.range r.dw).foldl
      (fun (acc : State × List Nat × List Nat × Option Nat) i =>
        let (s, line, bad, miss) := acc
        let x := r.dx + i
        if miss.isSome then acc
        else match s.planeAt r i (y - r.dy) with
          | (s, .rgba v) => (s, putNth line x (blend12 g v (nth 0 line x)), bad, none)
          | (s, .bad cw) => (s, putNth line x fill, if bad.contains cw then bad else bad ++ [cw], none)
          | (s, .missing) => (s, line, bad, some x))
      (s, line, [], none)

/-- A line from whose pixel `miss` on the engine shows FILL (R321). -/
def fillFrom (fill : Nat) (line : List Nat) : Option Nat → List Nat
  | none => line
  | some x => line.take x ++ List.replicate (line.length - x) fill

/-! ### Region checks (R325, R326) -/

def crc32cPixel (c p : Nat) : Nat :=
  (List.range 4).foldl (fun c i => crc32cByte c (bitsOf p (8 * i) 8)) c

/-- A line through the running CRC of a region. -/
def Region.line (r : Region) (y : Nat) (line : List Nat) : Region :=
  if !r.en || y < r.y0 || r.y1 < y || 2 ^ 32 ≤ r.crc then r
  else { r with crc := ((line.drop r.x0).take (r.x1 + 1 - r.x0)).foldl crc32cPixel r.crc }

/-- SCAN_OUT_LINE: compose the next line of the frame. -/
def execScanOutLine (n : Nat) (s : State) : Out :=
  .next (
    let x := s.disp n
    let y := x.row
    if !s.dispOn n || !x.scanning || s.getA (DISP_TIM_V_VACT n) ≤ y then s else
    let ten := s.flagA (DISP_TIM_CLK_BPC n)
    let fill := colour12 ten (s.get (DISP_COLOUR_FILL n))
    let bg := List.replicate (s.getA (DISP_TIM_H_HACT n)) (colour12 ten (s.get (DISP_COLOUR_BG n)))
    let (s, line, bad, miss) := x.planes.foldl
      (fun (acc : State × List Nat × Nat × Option Nat) p =>
        match p with
        | none => acc
        | some r =>
          let (s, l, b, m) := acc.1.overPlane r fill y acc.2.1
          (s, l, acc.2.2.1 + b.length, match acc.2.2.2, m with
            | some i, some j => some (min i j)
            | some i, none => some i
            | none, m => m)) (s, bg, 0, none)
    let out := (fillFrom fill line miss).map (packOut ten)
    let s := if bad = 0 then s else (s.dbump n (DISP_CNT_POISON_COUNT n) bad).put (DISP_STAT_POISON n) 1
    let s := if miss.isSome then s.dbump n (DISP_CNT_UNDERFLOW_COUNT n) 1 else s
    s.setDisp n { x with row := y + 1, line := out, regions := x.regions.map (fun r => r.line y out) })

/-- REGION_CRC_CHECK: at the end of the region's last line its CRC is learned or compared. CRC_FAIL_FRAMES mismatches in a row
raise the event, and counting starts anew (R326). -/
def execRegionCrcCheck (n r : Nat) (s : State) : Out :=
  .next (
    let x := s.disp n
    let g := nth region0 x.regions r
    if !s.dispOn n || !g.en || x.row ≤ g.y1 || 2 ^ 32 ≤ g.crc then s else
    let val := 0xFFFFFFFF - g.crc
    let exp := if g.learn then val else g.expect
    let s := (s.put (DISP_CRC_VAL_VAL n r) val).put (DISP_CRC_VAL_EXPECT n r) exp
    let bad := val != exp
    let fails := if bad then g.fails + 1 else 0
    let due := decide (s.get (DISP_CFG_CRC_FAIL_FRAMES n) ≤ fails)
    let s := s.setDisp n { x with
      regions := x.regions.set r { g with expect := exp, learn := false, crc := 2 ^ 32, fails := if due then 0 else fails } }
    if !bad then s else
    let s := (s.put ⟨DISP_CRC_STAT n, r, 1⟩ 1).dbump n (DISP_CNT_CRC_FAIL_COUNT n) 1
    if due then s.safety 10 32 (n + 16 * r) false else s)

/-- DISP_SAFETY (R336, R389). -/
def execDispSafety (d : Nat) (s : State) : Out :=
  .next (match s.toTake d 0xB1 with
    | none => s
    | some x =>
      match (ePb x).run.run s with
      | (.error .wait, s1) => s.keepRequests s1
      | (.error (.fail c y), s1) => (s1.dispEnd d c y).settle
      | (.ok pb, s) =>
        let n := bitsOf (u pb 0 4) 0 2
        if s.descPart x ≠ s.get (DISP_CFG_SAFE_PART n) ∨ s.planesOf x n = 0 then (s.dispEnd d 0xB1 n).settle
        else
          let rs := (List.range 16).map (fun r =>
            let o := 64 + 16 * r
            (⟨bitsOf (u pb o 4) 0 13, bitsOf (u pb o 4) 16 13, bitsOf (u pb (o + 4) 4) 0 13, bitsOf (u pb (o + 4) 4) 16 13,
              u pb (o + 8) 4, bitOf (u pb (o + 12) 1) 0, bitOf (u pb (o + 12) 1) 1, 2 ^ 32, 0⟩ : Region))
          ((s.setDisp n { s.disp n with nextRegions := rs }).dispEnd d 0 0).settle)

/-! ### Links (R316, R317, R28) -/

/-- DISP_LINK_TRAINING: the training of an output ends. -/
def execDispLinkTraining (n : Nat) (ok : Bool) (s : State) : Out :=
  .next (if s.get (DISP_STAT_LINK n) ≠ 1 then s
    else if ok then (s.put (DISP_STAT_LINK n) 2).setDisp n { s.disp n with trainFails := 0 }
    else
      let f := (s.disp n).trainFails + 1
      let s := (s.transient (chDisp n)).setDisp n { s.disp n with trainFails := f }
      if decide (s.get SAF_CTL_ATTEMPTS ≤ f) || s.rateHit (chDisp n) then
        ((((s.put (DISP_STAT_LINK n) 3).put (DISP_STAT_PRESENT n) 0).retire (chDisp n) 3).dispDark n).dropPlanes n
      else s)

/-- HOT_PLUG: the sink comes or goes. An interrupt of a present sink (IRQ_HPD) changes no state. -/
def execHotPlug (n : Nat) (present irq : Bool) (s : State) : Out :=
  .next (
    let was := s.flag (DISP_STAT_HPD n)
    let s := s.put (DISP_STAT_HPD n) (b2n present)
    if irq && was == present || s.isRetired (chDisp n) || !s.flagA (DISP_TIM_CLK_ENABLE n) then s
    else if present then (if s.get (DISP_STAT_LINK n) = 0 then s.put (DISP_STAT_LINK n) 1 else s)
    else (s.put (DISP_STAT_LINK n) 0).dispDark n)

/-! ### AUX (R334, R337) -/

/-- Send a request to the sink. -/
def State.sendAux (s : State) (r : AuxReq) : State := { s with out := { s.out with aux := s.out.aux ++ [r] } }

/-- DISP_AUX: a write reads its buffer first; the request goes out, and the engine waits for the sink's reply. While an earlier
one waits, the command does nothing. -/
def execDispAux (d : Nat) (s : State) : Out :=
  .next (match s.toTake d 0xB2 with
    | none => s
    | some x =>
      let n := bitsOf (x.u 16 1) 0 2
      if s.planesOf x n = 0 then (s.dispEnd d 0xB1 n).settle
      else if s.auxs.any (fun a => a.eng == n) then s
      else
        let w16 := x.u 16 4
        let wr := bitOf (x.u 16 1) 2
        match (if wr then s.readMem (s.mreq x 32) x.a24 (bitsOf (x.u 16 4) 24 5 + 1) else (s, .ok [])) with
        | (s1, .error .wait) => s.keepRequests s1
        | (s1, .error (.fail c y)) => (s1.dispEnd d c y).settle
        | (s1, .ok bs) => ({ s1 with auxs := s1.auxs ++ [(⟨d, n, 0, 0, 0⟩ : AuxSt)] }.taken d).sendAux
            ⟨n, bitsOf w16 2 2, bitsOf w16 4 20, bitsOf w16 24 5 + 1, bs⟩)

/-- AUX_REPLY: what the sink answers, or a timeout of 400 µs; after a defer or a timeout the request goes out again. -/
def execAuxReply (n : Nat) (r : AuxReply) (s : State) : Out :=
  .next (match s.auxs.find? (fun a => a.eng == n) with
    | none => s
    | some a =>
      let gone (s : State) : State := { s with auxs := s.auxs.filter (fun b => b.desc != a.desc) }
      let again (b : AuxSt) : State :=
        let s : State := { s with auxs := s.auxs.map (fun c => if c.desc = a.desc then b else c) }
        match (s.out.aux.filter (fun r => r.eng == n)).getLast? with
        | some r => s.sendAux r
        | none => s
      match s.desc? a.desc with
      | none => gone s
      | some x =>
        let i2c := bitOf (x.u 16 1) 3
        match r with
        | .ack data =>
          if bitOf (x.u 16 1) 2 then ((gone s).dispEnd a.desc 0 0).settle
          else
            match s.writeMem (s.mreq x 32) false 0 x.a24 (data.take (bitsOf (x.u 16 4) 24 5 + 1)) with
            | (s1, some .wait) => s.keepRequests s1
            | (s1, some (.fail c y)) => ((gone s1).dispEnd a.desc c y).settle
            | (s1, none) => ((gone s1).dispEnd a.desc 0 0).settle
        | .nack => ((gone s).dispEnd a.desc 0xB2 (if i2c then 4 else 1)).settle
        | .defer =>
          let code := if i2c then 8 else 2
          if 7 ≤ a.defers + 1 then ((gone s).dispEnd a.desc 0xB2 code).settle
          else again { a with defers := a.defers + 1, last := code }
        | .timeout =>
          if 3 ≤ a.timeouts + 1 then ((gone s).dispEnd a.desc 0xB2 a.last).settle
          else again { a with timeouts := a.timeouts + 1 })

end Sys2Proof.Machine
end

