-- ==== Sys2Proof/Machine/Capture.lean ====
section
/-!
DEFINITION. Camera inputs and TDM audio ports (R327 to R334, R337, R341, R342).
-/

namespace Sys2Proof.Machine

/-- Count, unless the input or port serves a secure context (R337 ff., R457). -/
def State.capBump (s : State) (ds : List Nat) (f : Fref) : State :=
  if ds.any (fun d => match s.desc? d with
    | some x => s.secureDesc x
    | none => false) then s else s.bump f 1

/-- The first failed store of a buffer is the status it will end with. -/
def State.firstFault (s : State) (i code detail : Nat) : State :=
  s.updDesc i (fun d => { d with parts := d.parts.map (fun (p : Part) =>
    if p.status = 0 then { p with status := code, detail := detail } else p) })

/-! ### Camera inputs -/

def Desc.capIn (d : Desc) : Nat := bitsOf (d.u 28 2) 0 3
def Desc.capVc (d : Desc) : Nat := bitsOf (d.u 28 2) 3 4
def Desc.capDt (d : Desc) : Nat := bitsOf (d.u 28 2) 7 6

/-- The dispatched buffers of an input that do not stand stopped, with their descriptors. -/
def State.capsOf (s : State) (i : Nat) : List (CapBuf × Desc) :=
  s.caps.filterMap (fun b => match s.desc? b.desc with
    | some d => if d.capIn = i && d.parts.any (fun p => p.active) then some (b, d) else none
    | none => none)

def State.putCap (s : State) (b : CapBuf) : State :=
  { s with caps := s.caps.map (fun c => if c.desc = b.desc then b else c) }

/-- The input is on: enabled by its active set, not retired. -/
def State.camOn (s : State) (i : Nat) : Bool := s.flagA (CAP_CSI_CFG_EN i) && !s.isRetired (chCam i)

/-- CAP_FRAME: the stream holds the buffer (R328). -/
def execCapFrame (d : Nat) (s : State) : Out :=
  .next (match s.toTake d 0xB8 with
    | none => s
    | some _ => { s with caps := s.caps ++ [(⟨d, false, 0, 0, 0, 0, [], 0, false⟩ : CapBuf)] }.taken d)

/-- A frame ends for one buffer: the stamp record whatever the status, then the completion (R329, R330). -/
def State.capEnd (s : State) (b : CapBuf) (d : Desc) (tfe : Nat) : State :=
  let err0 := b.err % 16
  let err := if b.lines ≠ d.u 36 2 ∧ !bitOf err0 3 then err0 + 8 else err0
  let stamp := leBytes 8 b.tfs ++ leBytes 8 tfe ++ leBytes 4 (b.frameNo % 65536 + b.lines % 65536 * 65536) ++
    leBytes 4 b.stored ++ leBytes 4 err ++ leBytes 4 0 ++ leBytes 8 (mget (fun _ => 0) s.fsync d.capIn) ++
    List.replicate 24 0
  let (s, e) := s.writeMem (s.mreq d 32) false 0 d.a16 stamp
  let s := { s with caps := s.caps.filter (fun c => c.desc != b.desc) }
  let bad := d.parts.find? (fun p => p.status != 0)
  if b.overrun then s.dispEnd d.id 0xB5 err
  else if 2 ≤ err ∨ 16 ≤ b.err then s.dispEnd d.id 0xB3 err
  else match bad, e with
    | some p, _ => s.dispEnd d.id p.status p.detail
    | none, some (.fail c x) => s.dispEnd d.id c x
    | none, _ => s.dispEnd d.id 0 0

/-- A frame over the link: one that failed its payload CRC or lost a header is a transient fault of the input (R28; log 51). A
retired input is off, and its buffers end with UNIT_RETIRED (R29, R337). -/
def State.camFrame (s : State) (i : Nat) (ok : Bool) : State :=
  let n := mget (fun _ => 0) s.consec (chCam i) + 1
  if ok then { s with consec := mset (fun _ => 0) s.consec (chCam i) 0 }
  else
    let s := { s.transient (chCam i) with consec := mset (fun _ => 0) s.consec (chCam i) n }
    if decide (s.get SAF_CTL_ATTEMPTS ≤ n) || s.rateHit (chCam i) then
      let mine := s.caps.filter (fun b => match s.desc? b.desc with
        | some d => d.capIn == i
        | none => false)
      let s := { s.retire (chCam i) 3 with caps := s.caps.filter (fun b => !mine.contains b) }
      mine.foldl (fun s b => s.dispEnd b.desc 0x31 i) s
    else s

/-- The frames of some buffers of an input end. -/
def State.capEnds (s : State) (i : Nat) (qs : List (CapBuf × Desc)) : State :=
  let s := qs.foldl (fun s q => s.capEnd q.1 q.2 s.beacon) s
  if qs.isEmpty then s else s.camFrame i (qs.all (fun q => !bitOf q.1.err 1 && decide (q.1.err < 16)))

/-- CSI_FRAME_START: each stream of the virtual channel begins its next buffer; with none dispatched the frame is dropped. A
buffer whose frame has not ended ends first. -/
def execCsiFrameStart (i vc frameNo : Nat) (s : State) : Out :=
  .next (if !s.camOn i then s else
    let s := s.capEnds i ((s.capsOf i).filter (fun q => q.1.on && q.2.capVc == vc))
    if !s.camOn i then s.settle else
    let mine := (s.capsOf i).filter (fun q => q.2.capVc == vc)
    let first := mine.filter (fun q => (mine.find? (fun r => r.2.capDt == q.2.capDt)).map (fun r => r.1.desc) == some q.1.desc)
    let s := if mine.isEmpty then s.bump (CAP_CNT_DROP_COUNT i) 1
      else s.capBump (first.map (fun q => q.1.desc)) (CAP_CNT_FRAMES_COUNT i)
    (first.foldl (fun s q => s.putCap { q.1 with on := true, tfs := s.beacon, frameNo := frameNo }) s).settle)

/-- CSI_FRAME_END (R329). -/
def execCsiFrameEnd (i vc : Nat) (s : State) : Out :=
  .next (if !s.camOn i then s else
    (s.capEnds i ((s.capsOf i).filter (fun q => q.1.on && q.2.capVc == vc))).settle)

/-- Data types stored as received; those stored as right-aligned 16-bit values, with the bits of a sample (R327). -/
def csiBytes (dt : Nat) : Bool := [0x12, 0x18, 0x1E, 0x2A].contains dt
def csiBits (dt : Nat) : Nat :=
  if dt = 0x19 ∨ dt = 0x1F ∨ dt = 0x2B then 10 else if dt = 0x2C then 12 else if dt = 0x2D then 14
  else if dt = 0x2E then 16 else 0

/-- The samples of one group of a packed payload (CSI-2 v2.1; log 51): the high eight bits of each come first, then the low bits,
least significant first; RAW16 sends its high byte first. -/
def csiGroup (bits : Nat) (g : List Byte) : List Nat :=
  let b (i : Nat) : Nat := u g i 1
  match bits with
  | 10 => (List.range 4).map (fun i => 4 * b i + bitsOf (b 4) (2 * i) 2)
  | 12 => (List.range 2).map (fun i => 16 * b i + bitsOf (b 2) (4 * i) 4)
  | 14 => (List.range 4).map (fun i => 64 * b i + bitsOf (u g 4 3) (6 * i) 6)
  | _ => [256 * b 0 + b 1]

/-- Bytes of a group. -/
def csiGroupBytes (bits : Nat) : Nat := if bits = 10 then 5 else if bits = 12 then 3 else if bits = 14 then 7 else 2

/-- A payload as it is stored; bytes that complete no group are no samples. -/
def csiStore (dt : Nat) (bs : List Byte) : List Byte :=
  if csiBytes dt then bs
  else
    let n := csiGroupBytes (csiBits dt)
    (List.range (bs.length / n)).flatMap (fun i => (csiGroup (csiBits dt) ((bs.drop (n * i)).take n)).flatMap (leBytes 2))

/-- Lines whose lengths must agree: of YUV420 those of one parity, since its even lines carry no chroma. -/
def lineClass (dt j : Nat) : Nat := if dt = 0x18 ∨ dt = 0x19 then j % 2 else 0

/-- One line into its buffer. A line of another length than the first of its class, or longer than STRIDE, is a length mismatch. -/
def State.capLine (s : State) (b : CapBuf) (d : Desc) (bs : List Byte) (crcBad : Bool) : State :=
  let stride := d.u 32 4
  let err := if crcBad ∧ !bitOf b.err 1 then b.err + 2 else b.err
  if d.u 36 2 ≤ b.lines then s.putCap { b with err := err, overrun := true, lines := b.lines + 1 }
  else
    let k := lineClass d.capDt b.lines
    let odd := decide (stride < bs.length) || (match b.lens[k]? with
      | some n => n != bs.length
      | none => false)
    let lens := if b.lens.length ≤ k then b.lens ++ [bs.length] else b.lens
    let err := if odd ∧ !bitOf err 2 then err + 4 else err
    let bs := bs.take stride
    let (s, e) := s.writeMem (s.mreq d 32) false 0 (d.a16 + 64 + b.lines * stride) bs
    let s := match e with
      | some (.fail c x) => s.firstFault d.id c x
      | _ => s
    s.putCap { b with err := err, lines := b.lines + 1, stored := b.stored + bs.length, lens := lens }

/-- CSI_PACKET: a packet between frame start and frame end (R327, R330). -/
def execCsiPacket (i : Nat) (p : CsiPacket) (s : State) : Out :=
  .next (if !s.camOn i then s else
    let on := (s.capsOf i).filter (fun q => q.1.on)
    if p.eccBad then on.foldl (fun s q => s.putCap { q.1 with err := q.1.err % 16 + 16 }) s
    else
      let ds := on.map (fun q => q.1.desc)
      let s := if p.eccCorrected then s.capBump ds (CAP_CNT_ECC_CORR_COUNT i) else s
      let s := if p.crcBad then s.capBump ds (CAP_CNT_CRC_COUNT i) else s
      if !csiBytes p.dt && csiBits p.dt == 0 then s.capBump ds (CAP_CNT_UNKNOWN_DT_COUNT i)
      else match on.find? (fun q => q.2.capVc == p.vc && q.2.capDt == p.dt) with
        | none => s
        | some (b, d) =>
          let b := if p.eccCorrected ∧ !bitOf b.err 0 then { b with err := b.err + 1 } else b
          s.capLine b d (csiStore p.dt p.payload) p.crcBad)

/-- CAP_NO_FRAME: no frame start within TIMEOUT_MS of dispatch; no stamp record (R330). -/
def execCapNoFrame (d : Nat) (s : State) : Out :=
  .next (match s.caps.find? (fun b => b.desc == d && !b.on), s.desc? d with
    | some _, some x =>
      if s.c < x.dispC + msTicks (x.u 38 2) then s
      else ({ s with caps := s.caps.filter (fun c => c.desc != d) }.dispEnd d 0xB4 x.capIn).settle
    | _, _ => s)

/-! ### TDM audio (R332, R333) -/

/-- CAP_AUDIO: the port holds the buffer. -/
def execCapAudio (d : Nat) (s : State) : Out :=
  .next (match s.toTake d 0xB9 with
    | none => s
    | some _ => { s with auds := s.auds ++ [(⟨d, 0, 0, 0⟩ : AudBuf)] }.taken d)

/-- The first buffer of a port. -/
def State.audOf (s : State) (p : Nat) : Option (AudBuf × Desc) :=
  s.auds.findSome? (fun b => match s.desc? b.desc with
    | some d => if bitsOf (d.u 28 1) 0 2 = p && d.parts.any (fun q => q.active) then some (b, d) else none
    | none => none)

/-- An audio buffer ends: its stamp record, then the completion. -/
def State.audEnd (s : State) (b : AudBuf) (d : Desc) (status detail : Nat) : State :=
  let stamp := leBytes 8 b.first ++ leBytes 8 b.idx ++ List.replicate 48 0
  let (s, e) := if b.frames = 0 then (s, none) else s.writeMem (s.mreq d 32) false 0 d.a16 stamp
  let s := { s with auds := s.auds.filter (fun c => c.desc != b.desc) }
  let bad := d.parts.find? (fun p => p.status != 0)
  (match status, bad, e with
   | 0, some p, _ => s.dispEnd d.id p.status p.detail
   | 0, none, some (.fail c x) => s.dispEnd d.id c x
   | st, _, _ => s.dispEnd d.id st detail).settle

/-- Frames per second of a port. -/
def State.tdmRate (s : State) (p : Nat) : Nat :=
  match s.getA (CAP_TDM_CFG_RATE p) with
  | 0 => 8000
  | 1 => 16000
  | 2 => 32000
  | _ => 48000

/-- A period more than 1 % from the nominal one. -/
def State.tdmSlip (s : State) (p period : Nat) : Bool :=
  let x := period * s.tdmRate p
  decide (x < 990000000) || decide (1010000000 < x)

/-- The frame of a provider whose FSYNC edge falls now: k for T0 + k × 10^9 / rate ns, within ±1.25 ns of it, Beacon time being
given in whole ns. -/
def State.tdmDue (s : State) (p : Nat) : Option Nat :=
  let t0 := mget (fun _ => 0) s.tdmT0 p
  if t0 = 0 ∨ s.beacon + 3 < t0 then none else
  let r := s.tdmRate p
  let x := ((s.beacon : Int) - ((t0 : Int) - 1)) * (r : Int)
  let k := (x + 3 * (r : Int)) / 1000000000
  let e := x - k * 1000000000
  if 0 ≤ k ∧ -(9 * (r : Int)) < 4 * e ∧ 4 * e ≤ 5 * (r : Int) then some k.toNat else none

/-- Store the selected slots of frame `idx` as the next of the port's buffer. -/
def State.tdmStore (s : State) (p idx : Nat) (slots : List Word32) : State :=
  match s.audOf p with
  | none => s.bump (CAP_CNT_AUDIO_DROP_COUNT p) 1
  | some (b, d) =>
    let mask := audMask d
    let bs := (maskBits 16 mask).flatMap (fun i => leBytes 4 (nth 0 slots i).toNat)
    let b := if b.frames = 0 then { b with first := s.beacon, idx := idx } else b
    let (s, e) := s.writeMem (s.mreq d 32) false 0 (d.a16 + 64 + b.frames * bs.length) bs
    let s := match e with
      | some (.fail c x) => s.firstFault d.id c x
      | _ => s
    let s := s.capBump [d.id] (CAP_CNT_AUDIO_FRAMES_COUNT p)
    let b := { b with frames := b.frames + 1 }
    let s := { s with auds := s.auds.map (fun (c : AudBuf) => if c.desc = b.desc then b else c) }
    if d.u 24 3 ≤ b.frames then
      match s.desc? d.id with
      | some d => s.audEnd b d 0 0
      | none => s
    else s

/-- TDM_FRAME: a frame at a port. A consumer's period off by more than 1 % is a slip, which ends the buffer it falls in. The
period before the first frame is none. A provider's port runs from its START_TRIG, and its frames stand at their instants. -/
def execTdmFrame (p : Nat) (periodNs : Nat) (slots : List Word32) (s : State) : Out :=
  .next (
    let n := mget (fun _ => 0) s.tdm p
    let prov := s.flagA (CAP_TDM_CFG_PROVIDER p)
    let idx := if prov then s.tdmDue p else some (n - 1)
    match (if s.flagA (CAP_TDM_CFG_EN p) then idx else none) with
    | none => s
    | some k =>
    if prov && (n == 0 || decide (k + 1 < n)) then s else
    let slip := !prov && n != 0 && s.tdmSlip p periodNs
    let s := { s with tdm := mset (fun _ => 0) s.tdm p (k + 2) }
    let s := if !slip then s else
      let s := s.capBump ((match s.audOf p with | some q => [q.1.desc] | none => [])) (CAP_CNT_SLIP_COUNT p)
      match s.audOf p with
      | some (b, d) => if b.frames = 0 then s else s.audEnd b d 0xB6 b.frames
      | none => s
    s.tdmStore p k slots)

end Sys2Proof.Machine
end

