-- ==== Sys2Proof/Machine/Channels.lean ====
section
/-!
DEFINITION. The DMA channels (R226): rows dealt one at a time to the channels as they become free, and the DMA opcodes.
-/

namespace Sys2Proof.Machine

/-! ### Dealing rows (R226, R349) -/

/-- Channels of a descriptor's running parts. -/
def State.ownChannels (s : State) (i : Nat) : List Nat :=
  match s.desc? i with
  | some d => (d.parts.filter (fun p => p.st == .running)).map (fun p => p.isl)
  | none => []

/-- Channels that are free and that no descriptor of a higher rank waits for. -/
def State.idleChannels (s : State) (d : Desc) : List Nat :=
  s.dmaPresent.filter (fun i => s.canTake d i 1 [] && !s.yields d i 1 && !s.outranked d [i] 1)

/-- The channels that may take the next row of a descriptor: a free preferred one does; else the lowest-numbered free one, or
one of the descriptor's own that is done with its row by then (log 7). -/
def State.rowChannels (s : State) (d : Desc) (pref : Option Nat) : List Nat :=
  let own := s.ownChannels d.id
  let idle := s.idleChannels d
  let low := match idle with
    | [] => own
    | c :: _ => own.filter (fun i => decide (i < c)) ++ [c]
  match pref with
  | some x => if idle.contains x then [x] else if own.contains x then x :: low.filter (· != x) else low
  | none => low

/-- Channel `isl` takes row `r` of descriptor `i`. -/
def State.takeRow (s : State) (i isl r : Nat) : State :=
  if (s.ownChannels i).contains isl then
    s.updDesc i (fun d => { d with step := r + 1, parts := d.parts.map (fun (p : Part) => if p.isl = isl then { p with row := r } else p) })
  else
    (s.updDesc i (fun d => { d with
      step := r + 1
      parts := if d.parts.any (fun p => p.isl == isl) then d.parts.map (fun (p : Part) =>
          if p.isl = isl then { p with st := .notStarted, worked := false, row := r } else p)
        else d.parts ++ [(⟨isl, 1, .notStarted, 0, 0, 0, 0, 0, 0, 0, 0, false, false, r⟩ : Part)] })).startPart i isl

/-- Deal row `r`: which channel is free for it where several may be is open (log 7). -/
def eDeal (d : Desc) (pref : Option Nat) (r : Nat) : Eng Nat := do
  let s ← eGet
  let cs := s.rowChannels d pref
  if 1 < cs.length then eMod (fun s => s.freshen 1)
  let isl := nth 0 cs (Config.freeNat s.fresh % max 1 cs.length)
  eMod (fun s => s.takeRow d.id isl r)
  return isl

/-- The rows that the descriptor's channels hold, then every row not yet dealt, in ascending order; the first row that fails
ends the dealing. A channel asked to stop keeps its row. -/
def dmaRows (d : Desc) (rows : Nat) (pref : Nat → Option Nat) (one : MReq → Nat → Eng Unit) : Eng (List PartRes) := do
  let held := (d.parts.filter (fun p => p.st == .running && !p.worked)).map (fun p => (p.isl, p.row))
  let mut res : List PartRes := held.map (fun p => (p.1, 0, 0))
  let mut failed := false
  for (isl, r) in held do
    if failed then continue
    let s ← eGet
    match ← eTry (one (s.mreq d isl) r) with
    | .ok _ => pure ()
    | .error (c, x) =>
      failed := true
      res := res.map (fun q => if q.1 = isl then (isl, c, x) else q)
  for r in if held.isEmpty then [] else (List.range rows).drop d.step do
    if failed then continue
    let isl ← eDeal d (pref r) r
    if !res.any (fun q => q.1 == isl) then res := res ++ [(isl, 0, 0)]
    let s ← eGet
    match ← eTry (one (s.mreq d isl) r) with
    | .ok _ => pure ()
    | .error (c, x) =>
      failed := true
      res := res.map (fun q => if q.1 = isl then (isl, c, x) else q)
  return res

/-! ### The opcodes (R225) -/

/-- What the engine of 0x10 does (see execDmaCopy). -/
def workDmaCopy (x : Desc) : Eng (List PartRes) := do
    let p := copyOf x
    if p.overlap then
      eMod (fun s => s.updDesc x.id (fun d => { d with outs := [] }))
      eFail 0x83 0
    else dmaRows x p.rows (fun r => rowPref (some (p.src + r * p.ss)) (p.dst + r * p.ds)) (fun rq r => do
      let a := p.src + r * p.ss
      let bs ← eRead rq a p.n
      let s ← eGet
      eWriteCmps rq (p.dst + r * p.ds) bs (s.cmpsOf rq a p.n))

/-- DMA_COPY. An overlap writes nothing, and poisons nothing. -/
def execDmaCopy (d : Nat) (s : State) : Out := .next (s.runWork d 0x10 workDmaCopy)

/-- What the engine of 0x11 does (see execDmaFill). -/
def workDmaFill (x : Desc) : Eng (List PartRes) :=
    dmaRows x (x.u 36 2) (fun r => rowPref none (bitsOf (x.u 16 8) 0 48 + r * x.u 40 4)) (fun rq r =>
      eWrite rq false 0 (bitsOf (x.u 16 8) 0 48 + r * x.u 40 4)
        ((List.range (x.u 32 4 / 4)).flatMap (fun _ => leBytes 4 (x.u 24 4))))

/-- DMA_FILL. -/
def execDmaFill (d : Nat) (s : State) : Out := .next (s.runWork d 0x11 workDmaFill)

/-- What the engine of 0x12 does (see execDmaClaim). -/
def workDmaClaim (x : Desc) : Eng (List PartRes) :=
    let a := bitsOf (x.u 16 8) 0 48
    let n := x.u 24 4
    dmaRows x 1 (fun _ => rowPref none a) (fun rq _ => do
      let s ← eGet
      if spaceOf a ≠ .dram then eFail 0x20 a
      match s.addrError a (4096 * n) with
      | some y => eFail 0x20 y
      | none =>
        match s.claimRefused rq a n with
        | some y => eFail 0x82 y
        | none => eClaimPages rq a n)

/-- DMA_CLAIM. The whole range is checked first, its addresses included. -/
def execDmaClaim (d : Nat) (s : State) : Out := .next (s.runWork d 0x12 workDmaClaim)

/-- What the engine of 0x13 does (see execDmaWload). -/
def workDmaWload (x : Desc) : Eng (List PartRes) :=
  dmaRows x 1 (fun _ => rowPref none (bitsOf (x.u 24 8) 0 48)) (fun rq _ => wloadWork rq (bitsOf (x.u 16 8) 0 48) (bitsOf (x.u 24 8) 0 48) (x.u 32 4))

/-- DMA_WLOAD. -/
def execDmaWload (d : Nat) (s : State) : Out := .next (s.runWork d 0x13 workDmaWload)

end Sys2Proof.Machine
end

