-- ==== Sys2Proof/Machine/Granules.lean ====
section
/-!
DEFINITION. Scratchpad granules: shares, borrowing, reclaim, spill and restore (R201 to R207, R227), and mooring and releasing
contexts (R343 to R347, R357, R368, R389, R450).
-/

namespace Sys2Proof.Machine

/-- Bytes of a granule. -/
def granBytes : Nat := 0x40000

/-! ### Occupancy (R203, R230, R389) -/

def State.granIn (s : State) (st g : Nat) : Bool := s.get (SPD_GRAN_STATE g) == st
def State.granHeld (s : State) (g : Nat) : Bool := s.granIn 1 g || s.granIn 2 g
def State.freeGrans (s : State) : List Nat := (List.range 512).filter (s.granIn 0)

/-- HELD of class `k`. -/
def State.heldClass (s : State) (k : Nat) : Nat :=
  ((List.range 512).filter (fun g => s.granHeld g && s.get (SPD_GRAN_CRIT g) == k)).length

/-- Granules that the contexts of function `f` hold. -/
def State.heldFn (s : State) (f : Nat) : Nat :=
  ((List.range 512).filter (fun g => s.granHeld g && s.get (SCH_CTX_CFG_FUNC (s.get (SPD_GRAN_CTX g))) == f)).length

/-- SPD_OCC and GRAN_USED as the granules stand. -/
def State.refreshOcc (s : State) : State :=
  let s := (((s.put SPD_OCC_FREE s.freeGrans.length).put SPD_OCC_HELD0 (s.heldClass 0)).put SPD_OCC_HELD1 (s.heldClass 1)).put
    SPD_OCC_HELD2 (s.heldClass 2)
  let s := (s.put SPD_OCC_BORROWED ((List.range 512).filter (s.granIn 2)).length).put SPD_OCC_SPILLED
    (s.spills.filter (fun p => p.st != 0)).length
  (List.range 32).foldl (fun s f => s.put (VIRT_FN_W5_GRAN_USED f) (s.heldFn f)) s

/-- FREE granules that R203 allows to class `c`. -/
def State.canGive (s : State) (c : Nat) : Nat :=
  let res (k : Nat) : Nat := s.get (if k = 1 then SPD_RES_RES1 else SPD_RES_RES2)
  let need := (if c < 1 then res 1 - s.heldClass 1 else 0) + (if c < 2 then res 2 - s.heldClass 2 else 0)
  s.freeGrans.length - need

/-- Would `n` more granules break the function's limit (R389)? The PF has none. -/
def State.overMax (s : State) (c n : Nat) : Bool :=
  let f := s.get (SCH_CTX_CFG_FUNC c)
  f != 0 && decide (s.get (VIRT_FN_W2_GRAN_MAX f) < s.heldFn f + n)

/-- BORROWED granules of lower classes in the order of reclaim (R204): lowest class first, most recently borrowed first. A
secure one changes only on Lantern's instruction, and no such instruction takes one for another context (R201). -/
def State.reclaimable (s : State) (cls : Nat) : List Nat :=
  sortBy (fun a b =>
      let ka := s.get (SPD_GRAN_CRIT a)
      let kb := s.get (SPD_GRAN_CRIT b)
      decide (ka < kb) ||
        (ka == kb && decide (mget (fun _ => 0) s.borrowSeq b ≤ mget (fun _ => 0) s.borrowSeq a)))
    ((List.range 512).filter (fun g => s.granIn 2 g && s.get (SPD_GRAN_W g) == 0 && decide (s.get (SPD_GRAN_CRIT g) < cls)))

/-- The free borrow slots of a context (R204). -/
def State.freeBorrowSlots (s : State) (c : Nat) : List Nat :=
  (List.range (s.get (SPD_CTX_SPILL_BORROW_MAX c))).filter (fun n =>
    !(List.range 512).any (fun g => s.granIn 2 g && s.get (SPD_GRAN_CTX g) == c && s.get (SPD_GRAN_SLOT g) == n) &&
    !s.spills.any (fun p => p.ctx == c && p.slot == n) &&
    !s.grants.any (fun x => x.ctx == c && x.desc.isSome && x.victims.any (fun v => v.2 == n)))

/-! ### Passing a granule (R202) -/

/-- The tag that a context's granule takes. -/
def State.ctxTag (s : State) (c : Nat) : Nat :=
  mkTag (s.get (SCH_CTX_CFG_PART c)) (b2n (s.ctxW c)) (s.get (SCH_CTX_CFG_CRIT c)) 0

/-- The holder fields of a granule. -/
def State.holdGran (s : State) (g c st slot : Nat) : State :=
  s.setReg (SPD_GRAN g) (BitVec.ofNat 64 (st + c * 2 ^ 8 + s.get (SCH_CTX_CFG_PART c) * 2 ^ 16 + b2n (s.ctxW c) * 2 ^ 22 +
    s.get (SCH_CTX_CFG_CRIT c) * 2 ^ 23 + slot * 2 ^ 25))

/-- A granule passes to a context, cleared and retagged. -/
def State.giveGran (s : State) (g c st slot : Nat) : State :=
  let s := (s.wipe (g * granBytes) granBytes (s.ctxTag c)).holdGran g c st slot
  { s with seq := s.seq + 1, borrowSeq := mset (fun _ => 0) s.borrowSeq g (if st = 2 then s.seq + 1 else 0) }

/-- A granule becomes FREE. -/
def State.freeGran (s : State) (g : Nat) : State :=
  { s.setReg (SPD_GRAN g) 0 with borrowSeq := mdel g s.borrowSeq }

/-! ### The spill engine (R205, R207) -/

/-- The entries of a range of a sparse map moved to another range. -/
def moveRange {β : Type} (src dst len : Nat) (m : SMap β) : SMap β :=
  let moved := (m.filter (fun e => src ≤ e.1 && e.1 < src + len)).map (fun e => (e.1 - src + dst, e.2))
  m.filter (fun e => e.1 < dst) ++ moved ++ m.filter (fun e => dst + len ≤ e.1)

/-- Copy codewords with their tags, no tag check applied; an uncorrectable one arrives poisoned. -/
def State.copyCws (s : State) (r : MReq) (src dst len : Nat) : State :=
  let bad := s.ecc.filter (fun e => src / 32 ≤ e.1 && e.1 < (src + len) / 32)
  let s := bad.foldl (fun s e => (s.decodeCw r (e.1 * 32)).1) s
  { s with mem := moveRange src dst len s.mem
           tags := moveRange (src / 32) (dst / 32) (len / 32) s.tags
           ecc := mclear (dst / 32) ((dst + len) / 32) s.ecc }

/-- The backing of a context's slot. -/
def State.backing (s : State) (c slot : Nat) : Nat := s.get (SPD_CTX_SPILL_SPILL_BASE c) * 4096 + slot * granBytes

def State.spillReq (s : State) (c : Nat) : MReq := ⟨s.get (SCH_CTX_CFG_PART c), s.ctxW c, 36, c, none⟩

/-- Is the whole backing of a context in DRAM and open to its writes (R204)? -/
def State.backingOk (s : State) (c : Nat) : Bool :=
  let a := s.backing c 0
  let n := s.get (SPD_CTX_SPILL_BORROW_MAX c)
  spaceOf a == .dram && (s.addrError a (n * granBytes)).isNone &&
    (List.range (n * 64)).all (fun i => s.regionOk (s.spillReq c) true (a + 4096 * i))

/-! ### Reclaim (R205, R357) -/

/-- Every descriptor of a context is asked to stop on every engine. -/
def State.stopCtx (s : State) (c cause : Nat) : State :=
  (s.descs.filter (fun d => s.ctxOf d == c && d.phase == .dispatched)).foldl
    (fun s d => d.parts.foldl (fun s p => s.stopPart d.id p.isl cause) s) s

/-- Begin to reclaim a granule: its context stops, the granule is SPILLING. -/
def State.reclaim (s : State) (g : Nat) : State :=
  let c := s.get (SPD_GRAN_CTX g)
  let s := { s with spills := s.spills ++ [(⟨c, s.get (SPD_GRAN_SLOT g), g, mget (fun _ => 0) s.borrowSeq g, 0⟩ : Spill)] }
  let s := s.put (SPD_GRAN_STATE g) 3
  let s := if s.get (SCH_CTX_STAT_STATE c) = 2 then s.put (SCH_CTX_STAT_STATE c) 3 else s
  s.stopCtx c 4

/-! ### Grants -/

/-- Has the work of a context left every engine that R352 can stop? -/
def State.ctxQuiet (s : State) (c : Nat) : Bool :=
  !s.descs.any (fun d => s.ctxOf d == c && d.phase == .dispatched && d.parts.any (fun p => decide (p.isl < 24) && p.active))

/-- The moor is complete (R345). -/
def State.moored (s : State) (c base : Nat) : State :=
  let s := ((s.put (VEC_CTX_SLOTS_SLOTS c) (s.get (SCH_CTX_CFG_VSLOTS c))).put (VEC_CTX_SLOTS_LM_4K c)
    (s.get (SCH_CTX_CFG_VLM_4K c))).put (VEC_CTX_SLOTS_CLUSTERS c) (s.get (SCH_CTX_CFG_VCLUSTERS c))
  ((s.put (SCH_CTX_STAT_GRAN_BASE c) base).put (SCH_CTX_STAT_REASON c) 0).put (SCH_CTX_STAT_STATE c) 2

/-- A grant has all its granules: the RESULT list of a borrow is written in slot order, a moor completes. A borrow ends
with its own status even when it was asked to end otherwise (R204). One whose list goes to a peer waits, its grant kept, until
the codewords that it covers in part are here. -/
def State.grantDone (s : State) (x : Grant) : State :=
  match x.desc with
  | none => if s.get (SCH_CTX_STAT_STATE x.ctx) = 1 then s.moored x.ctx ((x.got.map (fun p => p.1)).foldl min 511) else s
  | some i =>
    match s.desc? i with
    | none => s
    | some d =>
      let list := (sortBy (fun (a b : Nat × Nat) => decide (a.2 ≤ b.2)) x.got).flatMap (fun p => leBytes 8 (p.1 * granBytes))
      let (s1, e) := s.writeMem (s.mreq d 36) false 0 d.a24 list
      let fin (c a : Nat) : State :=
        { s1.updDesc i (fun d => { d with ending := none }) with seq := s1.seq + 1 }.finishPart i 36 c a
      match e with
      | some (.fail c a) => fin c a
      | some .wait => { s.keepRequests s1 with grants := s.grants.filter (fun z => z != x) ++ [x] }
      | none => fin 0 0

/-- Give FREE granules at once and reclaim the others. -/
def State.startGrant (s : State) (c : Nat) (desc : Option Nat) (free victims : List (Nat × Nat)) : State :=
  let st := if desc.isSome then 2 else 1
  let s := free.foldl (fun s p => s.giveGran p.1 c st p.2) s
  let s := victims.foldl (fun s v => s.reclaim v.1) s
  let x : Grant := ⟨c, desc, free, victims⟩
  (if victims.isEmpty then s.grantDone x else { s with grants := s.grants ++ [x] }).refreshOcc

/-- The SPD_BORROW of a running descriptor; a refused one writes nothing to RESULT, not even poison (R228). -/
def State.borrow (s : State) (d : Desc) : State :=
  let c := s.ctxOf d
  let cls := s.get (SCH_CTX_CFG_CRIT c)
  let n := d.count10
  let stop (s : State) (st dt : Nat) : State := { s with seq := s.seq + 1 }.finishPart d.id 36 st dt
  match s.canWrite (s.mreq d 36) d.a24 (8 * n) with
  | some (st, a) => stop (if st = 0x21 ∨ st = 0x22 then s.refuseAccess (s.mreq d 36) st a else s) st a
  | none =>
    let slots := s.freeBorrowSlots c
    let give := min (s.canGive cls) s.freeGrans.length
    let rec' := s.reclaimable cls
    let refuse (x : Nat) : State := stop (s.updDesc d.id (fun x => { x with outs := [] })) 0x84 x
    if !s.backingOk c then refuse 0
    else if slots.length < n ∨ give + rec'.length < n ∨ s.overMax c n then refuse (min slots.length (give + rec'.length))
    else
      let k := min give n
      let gs := s.freeGrans.take k ++ rec'.take (n - k)
      let ps := gs.zip slots
      s.startGrant c (some d.id) (ps.take k) (ps.drop k)

/-- SPD_BORROW (R204): a reclaim, once begun, runs to its end. -/
def execSpdBorrow (d : Nat) (s : State) : Out :=
  .next (match s.desc? d with
    | none => s
    | some x =>
      if !x.runnable 0x14 then s
      else if x.step = 0 then ((s.updDesc d (fun x => { x with step := 1 })).borrow x).settle
      else match s.grants.find? (fun g => g.desc == some d && g.victims.isEmpty) with
        | some g => ({ s with grants := s.grants.filter (fun z => z != g) }.grantDone g).settle
        | none => s)

/-- A granule of the spill engine as its DRAM request (R372, R376). -/
def spillBus (wr : Bool) (a : Nat) : BusReq := ⟨40, 0, 0, 36, false, wr, a, granBytes, 0, 0⟩

/-- SPILL_COMPLETE (R205). -/
def execSpillComplete (g : Nat) (s : State) : Out :=
  .next (match s.spills.find? (fun p => p.gran == g && p.st == 0), s.grants.find? (fun x => x.victims.any (fun v => v.1 == g)) with
    | some p, some x =>
      if !s.ctxQuiet p.ctx then s else
      let dst := s.backing p.ctx p.slot
      let s := if (s.addrError dst granBytes).isSome then s else
        ((s.copyCws (s.spillReq p.ctx) (g * granBytes) dst granBytes).countDdr true dst granBytes).enqueue (spillBus true dst)
      let s := s.bump SPD_CNT_SPILL_BYTES_COUNT granBytes
      let s := { s with spills := s.spills.map (fun (q : Spill) => if q = p then { q with st := 1 } else q) }
      let slot := ((x.victims.find? (fun v => v.1 == g)).map (fun v => v.2)).getD 0
      let s := s.giveGran g x.ctx (if x.desc.isSome then 2 else 1) slot
      let y : Grant := { x with got := x.got ++ [(g, slot)], victims := x.victims.filter (fun v => v.1 != g) }
      let s := if y.victims.isEmpty then { s with grants := s.grants.filter (fun z => z != x) }.grantDone y
        else { s with grants := s.grants.map (fun z => if z = x then y else z) }
      s.refreshOcc.settle
    | _, _ => s)

/-- What the engine of 0x15 does (see execSpdReturn). -/
def workSpdReturn (x : Desc) : Eng (Nat × Nat) := do
    let s ← eGet
    let c := s.ctxOf x
    let bs ← eRead (s.mreq x 36) x.a24 (8 * x.count10)
    let as := (List.range x.count10).map (fun i => leNat ((bs.drop (8 * i)).take 8))
    match as.find? (fun a => !(decide (a < spdEnd) && a % granBytes == 0 && s.granIn 2 (a / granBytes) &&
        s.get (SPD_GRAN_CTX (a / granBytes)) == c)) with
    | some a => eFail 0x85 a
    | none =>
      eMod (fun s => (as.foldl (fun s a => s.freeGran (a / granBytes)) s).refreshOcc)
      return (0, 0)

/-- SPD_RETURN (R227): the list is checked whole. -/
def execSpdReturn (d : Nat) (s : State) : Out := .next (s.ownWork d 0x15 36 workSpdReturn)

/-! ### Restores (R207) -/

/-- Spilled granules of a context whose original granule is FREE. -/
def State.restorable (s : State) (c : Nat) : List Spill :=
  s.spills.filter (fun p => p.ctx == c && p.st == 1 && s.granIn 0 p.gran)

/-- GRANULE_RESTORE: contexts of higher class are served first. -/
def execGranuleRestore (c : Nat) (s : State) : Out :=
  .next (
    let rs := s.restorable c
    let higher := s.spills.any (fun p => decide (s.get (SCH_CTX_CFG_CRIT c) < s.get (SCH_CTX_CFG_CRIT p.ctx)) &&
      !(s.restorable p.ctx).isEmpty)
    if ¬ (s.get (SCH_CTX_STAT_STATE c) = 3 ∨ s.get (SCH_CTX_STAT_STATE c) = 4) ∨ rs.isEmpty ∨ higher then s else
    let s := rs.foldl (fun s p => s.holdGran p.gran c 4 p.slot) s
    { s with spills := s.spills.map (fun (p : Spill) => if rs.contains p then { p with st := 2 } else p) }.refreshOcc)

/-- One spilled granule comes back with the tags it had. -/
def State.restoreOne (s : State) (p : Spill) : State :=
  let src := s.backing p.ctx p.slot
  let a := p.gran * granBytes
  let s := if (s.addrError src granBytes).isSome then s.wipe a granBytes (mkTag (s.get (SCH_CTX_CFG_PART p.ctx)) (b2n (s.ctxW p.ctx))
      (s.get (SCH_CTX_CFG_CRIT p.ctx)) 7)
    else ((s.copyCws (s.spillReq p.ctx) src a granBytes).countDdr false src granBytes).enqueue (spillBus false src)
  let s := (s.holdGran p.gran p.ctx 2 p.slot).bump SPD_CNT_RESTORE_BYTES_COUNT granBytes
  { s with borrowSeq := mset (fun _ => 0) s.borrowSeq p.gran p.seq, spills := s.spills.filter (fun q => q != p) }

/-- RESTORE_COMPLETE: with the last granule back, the context runs again. -/
def execRestoreComplete (c : Nat) (s : State) : Out :=
  .next (
    let rs := s.spills.filter (fun p => p.ctx == c && p.st == 2)
    if rs.isEmpty then s else
    let s := (rs.foldl State.restoreOne s).refreshOcc
    if s.spills.any (fun p => p.ctx == c) then s
    else if s.get (SCH_CTX_STAT_STATE c) = 3 then (s.put (SCH_CTX_STAT_STATE c) 2).settle
    else s.settle)

/-! ### Mooring (R343, R345, R368, R389, R450) -/

/-- REASON 3: a field out of range, or a partition that does not fit. -/
def State.moorBad (s : State) (secure : Bool) (c : Nat) : Bool :=
  let p := s.get (SCH_CTX_CFG_PART c)
  let g := s.get (SCH_CTX_CFG_GRAN c)
  s.get (SCH_CTX_CFG_CRIT c) == 3 || g == 0 || decide (512 < g) || decide (g ≤ s.get (SCH_CTX_CFG_RX_GRAN c)) ||
    decide (8 < s.get (SCH_CTX_CFG_VSLOTS c)) || decide (64 < s.get (SCH_CTX_CFG_VLM_4K c)) ||
    !s.flag (QOS_PART_EN p) || s.get (QOS_PART_CRIT p) != s.get (SCH_CTX_CFG_CRIT c) ||
    s.get (QOS_PART_FUNC p) != s.get (SCH_CTX_CFG_FUNC c) || (s.flag (QOS_PART_W p) != secure)

/-- REASON 2: the vector shares of a cluster exceed a core (R244). -/
def State.shareShort (s : State) (c : Nat) : Bool :=
  (maskBits 4 (s.get (SCH_CTX_CFG_VCLUSTERS c))).any (fun k =>
    let on := (List.range 256).filter (fun x => x == c ||
      ([1, 2, 3, 4].contains (s.get (SCH_CTX_STAT_STATE x)) && bitOf (s.get (SCH_CTX_CFG_VCLUSTERS x)) k))
    decide (8 < on.foldl (fun a x => a + s.get (SCH_CTX_CFG_VSLOTS x)) 0) ||
      decide (64 < on.foldl (fun a x => a + s.get (SCH_CTX_CFG_VLM_4K x)) 0))

/-- The granules of the run that starts at `b` that must be reclaimed; none when the run holds one that cannot be had. -/
def State.runNeeds (s : State) (cls b n : Nat) : Option (List Nat) :=
  if 512 < b + n then none else
  let gs := (List.range n).map (b + ·)
  if gs.all (fun g => s.granIn 0 g || (s.granIn 2 g && decide (s.get (SPD_GRAN_CRIT g) < cls))) then
    let v := gs.filter (fun g => !s.granIn 0 g)
    if n - v.length ≤ s.canGive cls then some v else none
  else none

/-- The run of a moor (R345): lowest without reclaim, else fewest reclaims, the lowest among equals. -/
def State.pickRun (s : State) (cls n : Nat) : Option (Nat × List Nat) :=
  (List.range 512).foldl (fun best b =>
    match s.runNeeds cls b n with
    | none => best
    | some v => match best with
      | none => some (b, v)
      | some (_, w) => if v.length < w.length then some (b, v) else best) none

/-- Moor a context, or refuse it with a REASON. -/
def State.moor (s : State) (secure : Bool) (c : Nat) : State :=
  let refuse (n : Nat) : State := (s.put (SCH_CTX_STAT_REASON c) n).put (SCH_CTX_STAT_STATE c) 5
  let n := s.get (SCH_CTX_CFG_GRAN c)
  if s.moorBad secure c then refuse 3
  else if s.shareShort c then refuse 2
  else if s.overMax c n then refuse 1
  else match s.pickRun (s.get (SCH_CTX_CFG_CRIT c)) n with
    | none => refuse 1
    | some (b, v) =>
      let s := (s.put (SCH_CTX_STAT_STATE c) 1).put (SCH_CTX_STAT_REASON c) 0
      s.startGrant c none (((List.range n).map (b + ·)).filterMap (fun g => if v.contains g then none else some (g, 0)))
        (v.map (fun g => (g, 0)))

/-! ### Release (R346) -/

/-- The fetched descriptors of a stopped context end (R346); an SPD_BORROW that reclaims runs to its end (R204). -/
def State.abortCtx (s : State) (c : Nat) : State :=
  (s.descs.filter (fun d => s.ctxOf d == c)).foldl (fun s d =>
    match d.phase with
    | .ended => s
    | .dispatched =>
      if d.flushing || d.ending.isSome || s.grants.any (fun x => x.desc == some d.id) then s else
      s.updDesc d.id (fun d => { d with
        ending := some (0x34, 0)
        parts := d.parts.map (fun (p : Part) => if p.st = .stopped then { p with st := .done } else p) })
    | _ =>
      let (s, outs) := s.declOuts d
      s.endUndisp d.id 0x34 0 outs true) s

/-- Release a moored or stopped context. -/
def State.releaseCtx (s : State) (c : Nat) : State :=
  let old := s.get (SCH_CTX_STAT_STATE c)
  let s := { s.put (SCH_CTX_STAT_STATE c) 4 with relC := mset (fun _ => 0) s.relC c s.nextId }
  if old ≠ 3 then s else
  let back := s.spills.filter (fun p => p.ctx == c && p.st == 2)
  let s := back.foldl (fun s p => s.freeGran p.gran) s
  let s := { s with spills := s.spills.filter (fun p => !(p.ctx == c && p.st != 0)) }
  ((s.abortCtx c).stopCtx c 4).refreshOcc.settle

/-- A write of SCH_CTX_CFG (R343): the fields while the context is free or refused, then CMD. -/
def State.writeCtxCfg (s : State) (rq : Requester) (c v mask : Nat) : State :=
  let base := SCH_CTX_CFG c
  let st := s.get (SCH_CTX_STAT_STATE c)
  let keep := (match rq with
    | .fn n => n != 0
    | _ => false) || s.funcHeld (s.get (SCH_CTX_CFG_FUNC c))
  let v1 := if keep then putBits v 0 5 (s.get (SCH_CTX_CFG_FUNC c)) else v
  let open' := st = 0 ∨ st = 5
  let s := if open' then
    s.setReg base (BitVec.ofNat 64 (putBits (writeFields (fieldsAt base) false false (s.reg base).toNat v1 mask) 45 2 0)) else s
  match bitsOf (Nat.land v mask) 45 2 with
  | 1 => if open' then s.moor false c else s
  | 2 => if st = 2 ∨ st = 3 then s.releaseCtx c else s
  | _ => s

/-- CONTEXT_MOOR. -/
def execContextMoor (rq : Requester) (c : Nat) (v : Word64) (s : State) : Out :=
  .next (s.guardedView rq (SCH_CTX_CFG c) (s.viewC rq c) (fun c s => s.writeCtxCfg rq c v.toNat mask64))

/-- CONTEXT_RELEASE. -/
def execContextRelease (rq : Requester) (c : Nat) (v : Word64) (s : State) : Out :=
  .next (s.guardedView rq (SCH_CTX_CFG c) (s.viewC rq c) (fun c s => s.writeCtxCfg rq c v.toNat mask64))

/-- Drop the secure lines of clusters that have returned to the normal world (R454). -/
def State.scrubClusters (s : State) (clusters : Nat) : State :=
  (maskBits 4 clusters).foldl (fun s k =>
    if s.secIsl (4 + k) then s else
    let keep (l : CLine) : Bool := !s.ctxW l.ctx
    ((s.dropLines (8 * k) (8 * k + 8) keep).dropLines (32 + k) (33 + k) keep).dropLines (64 + 8 * k) (72 + 8 * k) keep) s

/-- The release itself (R346). -/
def State.performRelease (s : State) (c : Nat) : State :=
  let share := s.get (SCH_CTX_CFG_VCLUSTERS c)
  let sec := s.ctxW c
  let gs := (List.range 512).filter (fun g => !s.granIn 0 g && s.get (SPD_GRAN_CTX g) == c)
  let s := gs.foldl State.freeGran s
  let s := { s with spills := s.spills.filter (fun p => p.ctx != c), relC := mdel c s.relC, lastCl := mdel c s.lastCl }
  let s := s.setReg (VEC_CTX_SLOTS c) 0
  let s := (List.range 4).foldl (fun s a =>
    let x := mget (fun _ => ⟨[], []⟩) s.att a
    if x.lab.any (fun e => e.ctx == c) || x.roots.any (fun e => e.ctx == c) then
      s.setAtt a ⟨x.lab.filter (fun e => e.ctx != c), x.roots.filter (fun e => e.ctx != c)⟩
    else s) s
  let s := s.dropLines 64 96 (fun l => l.ctx != c)
  let s := ((s.put (SCH_CTX_STAT_STATE c) 0).put (SCH_CTX_STAT_RX_PEND c) 0).refreshOcc
  if sec then s.scrubClusters share else s

/-- Does anything of the context remain? -/
def State.ctxIdle (s : State) (c : Nat) : Bool :=
  !s.descs.any (fun d => s.ctxOf d == c) && !s.spills.any (fun p => p.ctx == c && p.st == 0) &&
    !s.grants.any (fun x => x.ctx == c)

/-- The granules of a secure context become FREE only on Lantern's instruction (R201): a SEC_RELEASE of it is in progress, or an
alarm has made Lantern release all of them (R462). -/
def State.lntLetsGo (s : State) (c : Nat) : Bool :=
  !s.ctxW c || s.lnt.tampered || s.lnt.wait == some c

/-- RELEASE_DONE. -/
def execReleaseDone (c : Nat) (s : State) : Out :=
  .next (if s.get (SCH_CTX_STAT_STATE c) = 4 ∧ s.ctxIdle c ∧ s.lntLetsGo c then s.performRelease c else s)

end Sys2Proof.Machine
end

