-- ==== Sys2Proof/Machine/Dram.lean ====
section
/-!
DEFINITION. DRAM regions, the map, channel faults and retirement, scrubbing and temperature (R208, R209, R215 to R221, R601).
-/

namespace Sys2Proof.Machine

/-! ### Regions (R208, R209, R368) -/

/-- Does a 4 KiB page lie in installed DRAM? -/
def State.pageInDram (s : State) (p : Nat) : Bool :=
  spaceOf (p * 4096) == .dram && (s.ddrRange (p * 4096 - dramBase)).isSome

/-- The three words of an entry applied at once. One that cannot be enabled stays disabled and sets SPD_RGN_ERR. -/
def State.applyRgn (s : State) (i w0 w1 w2 : Nat) : State :=
  let p := bitsOf w0 5 6
  let bad := !s.pageInDram (bitsOf w0 12 36) || !s.pageInDram (bitsOf w1 12 36) || decide (bitsOf w1 12 36 < bitsOf w0 12 36) ||
    !s.flag (QOS_PART_EN p) || s.get (QOS_PART_CRIT p) != bitsOf w0 3 2 || b2n (s.flag (QOS_PART_W p)) != bitsOf w0 2 1
  let on := bitOf w0 0
  let fields (base v : Nat) : Word64 := BitVec.ofNat 64 (writeFields (fieldsAt base) false true 0 v mask64)
  let s := ((s.setReg (MEM_RGN_W0 i) (fields (MEM_RGN_W0 i) (if bad then putBits w0 0 1 0 else w0))).setReg (MEM_RGN_W1 i)
    (fields (MEM_RGN_W1 i) w1)).setReg (MEM_RGN_W2 i) (BitVec.ofNat 64 w2)
  if on && bad then (s.put SPD_RGN_ERR_CFG_ERR 1).put SPD_RGN_ERR_IDX i else s

/-- Held words 1 and 2 of an entry. -/
def State.heldWord (s : State) (i w : Nat) : Nat := (mget (fun _ => 0) s.rgnHeld (2 * i + (w - 1))).toNat
def State.holdWord (s : State) (i w v mask : Nat) : State :=
  let k := 2 * i + (w - 1)
  let old := (mget (fun _ => 0) s.rgnHeld k).toNat
  { s with rgnHeld := mset (fun _ => 0) s.rgnHeld k (BitVec.ofNat 64 (old - Nat.land old mask + Nat.land v mask)) }

/-- The write of word 0. -/
def State.rgnWord0 (s : State) (i v : Nat) : State := s.applyRgn i v (s.heldWord i 1) (s.heldWord i 2)

/-- MEM_RGN_WORD0_WRITE: entries 0 to 15 belong to Lantern. -/
def execMemRgnWord0Write (rq : Requester) (i : Nat) (v : Word64) (s : State) : Out :=
  .next (s.guarded rq (MEM_RGN_W0 i) (fun s => s.rgnWord0 i v.toNat))

/-! ### Retirement of a channel (R221) -/

/-- Offsets of the device-internal addresses in a body, and in a block of the opcode. -/
def addrOffsets (opc : Nat) (pbBytes : Nat) : List Nat × List Nat :=
  match opc with
  | 0x02 => ([16], [])
  | 0x10 | 0x13 | 0x41 | 0xA1 => ([16, 24], [])
  | 0x11 | 0x12 | 0xB8 | 0xB9 | 0xC0 | 0xC1 | 0xC2 => ([16], [])
  | 0x14 | 0x15 | 0xB2 | 0xD1 => ([24], [])
  | 0x21 => ([16, 40, 56], [])
  | 0x62 => ([16, 24, 32], [])
  | 0xC3 => ([48], [])
  | 0x20 | 0x60 => ([16], [0, 8, 16, 24, 32])
  | 0x40 => ([16], [0, 8, 16, 24, 32] ++ (List.range (pbBytes / 64)).flatMap (fun k =>
      if k = 0 then [] else [64 * k, 64 * k + 8, 64 * k + 16, 64 * k + 24]))
  | 0x61 => ([16], [0, 8] ++ (List.range 16).map (fun i => 32 + 8 * i))
  | 0x80 => ([16], [0, 8, 16, 64, 80, 96, 112])
  | 0xA0 => ([16], [0, 8, 16, 24])
  | 0xB0 => ([16], (List.range 8).flatMap (fun p => [64 + 32 * p, 72 + 32 * p]))
  | _ => ([], [])

/-- Strided rows as ranges. -/
def rowSpans (a stride n len : Nat) : List (Nat × Nat) := (rowAddrs a stride n).map (fun x => (x, len))

/-- The ranges that a page table names: its lines, its leaf tables and its pages, as they stand. -/
def State.pageSpans (s : State) (table : Nat) (two : Bool) (fmt d p0 p1 : Nat) : List (Nat × Nat) :=
  let ent (a : Nat) : Nat := leNat (s.rawBytes a 8)
  let size := 128 * d + 2 * planeScale fmt d
  (List.range (p1 + 1 - p0)).flatMap (fun i =>
    let p := p0 + i
    let root := table + p / 512 * 8
    let leaf := if two then pteAddr (ent root) + p % 512 * 8 else table + p * 8
    (if two then [(root, 8)] else []) ++ (if two && !pteV (ent root) then [] else
      (leaf, 8) :: (if pteV (ent leaf) then [(pteAddr (ent leaf), size)] else [])))

/-- The ranges of the operands of a descriptor with their whole extent, where the body or the block tells it. -/
def State.operandSpans (s : State) (d : Desc) (pb : List Byte) : List (Nat × Nat) :=
  match d.opc with
  | 0x10 => let p := copyOf d; rowSpans p.src p.ss p.rows p.n
  | 0x13 => [(bitsOf (d.u 16 8) 0 48, 192 + 4 * cdiv (d.u 32 4) 4096 + d.u 32 4)]
  | 0x14 | 0x15 => [(bitsOf (d.u 24 8) 0 48, 8 * bitsOf (d.u 16 2) 0 10)]
  | 0x20 =>
    let g := gemmOf pb
    let ks := (g.k + 31) / 32
    rowSpans g.a g.aStride g.m (eltBytes g.aFmt g.k) ++ rowSpans g.aScale g.aSs (if isMx g.aFmt then g.m else 0) ks ++
      rowSpans g.w g.wStride g.n (eltBytes g.wFmt (if g.sparse then g.k / 2 else g.k)) ++
      rowSpans g.wScale g.wSs (if isMx g.wFmt then g.n else 0) ks ++ rowSpans g.wMeta g.mStride (if g.sparse then g.n else 0) (g.k / 8) ++
      [(g.dr.sb, if g.drain && g.dr.sb != 0 then 8 * g.n else 0)]
  | 0x21 => let p := drainOf d.bytes 16; [(p.sb, if p.sb = 0 then 0 else 8 * p.cols)]
  | 0x40 =>
    let h := whdrOf pb
    let ls := layersOf pb
    (match ls with
     | f :: _ => rowSpans h.inA h.inR f.ih ((f.iw - 1) * h.inP + f.iPix) ++
        [(h.inS, if isMx f.aFmt then f.ih * f.iw * (f.ci / 32) else 0)]
     | [] => []) ++
    ls.flatMap (fun l => (if l.kind = 1 then [(l.w, winoBytes l.aFmt l.wFmt l.ci l.co)]
      else if l.kind ≤ 2 then rowSpans l.w l.wStride l.co l.wRow ++ rowSpans l.ws l.wSs (if isMx l.wFmt then l.co else 0) (cdiv l.k 32) ++
        rowSpans l.wMeta l.mStride (if l.sparse then l.co else 0) (l.k / 8)
      else []) ++ [(l.sb, if l.sb = 0 then 0 else 8 * l.co)])
  | 0x41 =>
    let n := 9 * d.u 36 2 * (fmtBits (bitsOf (d.u 40 4) 0 4) / 8)
    rowSpans (bitsOf (d.u 16 8) 0 48) (d.u 32 4) (d.u 38 2) n
  | 0x60 =>
    let p := attOf pb
    (List.range p.heads).flatMap (fun h => rowSpans (p.q + h * p.qH) p.qR p.mq (eltBytes p.qFmt p.d) ++
      rowSpans (p.qScale + h * p.mq * p.qS) p.qS (if p.qScale = 0 then 0 else p.mq) (if p.qFmt = 1 then 4 else p.d / 32) ++
      s.pageSpans (p.pt + h * p.ptH) p.two p.kvFmt p.d (p.kvBegin / 64) ((p.kvEnd - 1) / 64))
  | 0x61 =>
    let p := mergeOf pb
    (p.parts.take p.n).flatMap (fun a =>
      let w := leNat (s.rawBytes (a + 4) 4)
      [(a, 64 + (bitsOf w 10 8 + 1) * bitsOf w 0 10 * partRec (32 * (bitsOf w 18 3 + 1)))])
  | 0x62 =>
    let p := appendOf d
    (List.range p.heads).flatMap (fun h => rowSpans (p.k + h * p.hs) p.rs p.n (eltBytes p.src p.d) ++
      rowSpans (p.v + h * p.hs) p.rs p.n (eltBytes p.src p.d) ++
      s.pageSpans (p.pt + h * p.ptH) p.two p.fmt p.d (p.pos / 64) ((p.pos + p.n - 1) / 64))
  | _ => []

/-- The operands of a descriptor: every address that it names, with its extent where that is told, and its declared outputs. -/
def State.operands (s : State) (d : Desc) : List (Nat × Nat) :=
  let pb := if (pbRule d.opc).isSome then s.pbPeek d else []
  let (a, b) := addrOffsets d.opc pb.length
  a.map (fun o => (bitsOf (d.u o 8) 0 48, 1)) ++ b.map (fun o => (bitsOf (u pb o 8) 0 48, 1)) ++ s.operandSpans d pb ++ d.outs

/-- The ranges that contain a channel. -/
def State.rangesOf (s : State) (ch : Nat) : List Nat :=
  (List.range 8).filter (fun i => s.flag (DDR_MAP_EN i) && bitOf (s.get (DDR_MAP_CHMASK i)) ch)

/-- The first address of a byte range that lies in one of these ranges of the map. -/
def State.inRanges (s : State) (rs : List Nat) (p : Nat × Nat) : Option Nat :=
  rs.findSome? (fun i =>
    let lo := dramBase + s.get (DDR_MAP_BASE_GB i) * 2 ^ 30
    let hi := lo + s.get (DDR_MAP_SIZE_GB i) * 2 ^ 30
    if p.1 < hi ∧ lo < p.1 + p.2 then some (max p.1 lo) else none)

/-- Dispatched descriptors with an operand in an affected range end with RANGE_REMOVED. -/
def State.endRanges (s : State) (rs : List Nat) : State :=
  (s.descs.filter (fun d => d.phase == .dispatched && !d.flushing && d.ending.isNone)).foldl (fun s d =>
    match (s.operands d).findSome? (s.inRanges rs) with
    | none => s
    | some a =>
      let s := s.updDesc d.id (fun d => { d with
        ending := some (0x86, a)
        parts := d.parts.map (fun (p : Part) =>
          if p.st = .stopped ∨ (24 ≤ p.isl ∧ p.st ≠ .notStarted) then { p with st := .done, fin := s.seq } else p) })
      d.parts.foldl (fun s p => s.stopPart d.id p.isl 4) s) s

/-- A range without the channel: BASE_GB stays, SIZE_GB / n GiB go from its top, every codeword is poisoned. -/
def State.rebuildRange (s : State) (ch i : Nat) : State :=
  let m := s.get (DDR_MAP_CHMASK i)
  let n := popc 8 m
  let base := s.get (DDR_MAP_BASE_GB i)
  let size := s.get (DDR_MAP_SIZE_GB i)
  let lo := dramBase + base * 2 ^ 30
  let hi := lo + size * 2 ^ 30
  let keep := size - size / n
  let s := if n ≤ 1 then s.setReg (DDR_MAP i) 0 else (s.put (DDR_MAP_CHMASK i) (m - 2 ^ ch)).put (DDR_MAP_SIZE_GB i) keep
  let s := { s with mem := mclear lo hi s.mem, tags := mclear (lo / 32) (hi / 32) s.tags, ecc := mclear (lo / 32) (hi / 32) s.ecc }
  let top := lo + keep * 2 ^ 30
  if n ≤ 1 then s else
  (List.range 128).reverse.foldl (fun s e =>
    let a := max lo (s.get (MEM_RGN_W0_BASE e) * 4096)
    let b := min top (s.get (MEM_RGN_W1_LIMIT e) * 4096 + 4096)
    if !s.flag (MEM_RGN_W0_EN e) || decide (b ≤ a) then s else
    { s with tags := mfill tagDefault (a / 32) ((b - a) / 32) (BitVec.ofNat 12 (mkTag (s.get (MEM_RGN_W0_PART e))
        (s.get (MEM_RGN_W0_W e)) (s.get (MEM_RGN_W0_CRIT e)) 7)) s.tags }) s

/-- Are all pages of `[p, p + n)` mapped? -/
def State.pagesMapped (s : State) (p n : Nat) : Bool :=
  s.pageInDram p && (s.addrError (p * 4096) (n * 4096)).isNone

/-- Page ranges that enabled entries, and relocations asked of Lantern, cover. -/
def State.coveredPages (s : State) : List (Nat × Nat) :=
  (List.range 128).filterMap (fun e =>
    if s.flag (MEM_RGN_W0_EN e) then some (s.get (MEM_RGN_W0_BASE e), s.get (MEM_RGN_W1_LIMIT e)) else none) ++
  s.reloc.filterMap (fun r => if r.2.2 then none else
    some (r.2.1, r.2.1 + (s.get (MEM_RGN_W1_LIMIT r.1) - s.get (MEM_RGN_W0_BASE r.1))))

/-- The lowest mapped free space of `n` pages. -/
def State.freeSpace (s : State) (n : Nat) : Option Nat :=
  let cov := s.coveredPages
  let starts := (List.range 8).filterMap (fun i =>
      if s.flag (DDR_MAP_EN i) then some ((dramBase + s.get (DDR_MAP_BASE_GB i) * 2 ^ 30) / 4096) else none) ++
    cov.map (fun c => c.2 + 1)
  (sortBy (fun a b => decide (a ≤ b)) starts).find? (fun p =>
    s.pagesMapped p n && cov.all (fun c => decide (c.2 < p) || decide (p + n ≤ c.1)))

/-- Relocate one entry, or disable it; for a secure entry firmware asks Lantern (R221). -/
def State.relocate (s : State) (e : Nat) : State :=
  let b := s.get (MEM_RGN_W0_BASE e)
  let l := s.get (MEM_RGN_W1_LIMIT e)
  let to' := s.freeSpace (l - b + 1)
  let s := { s with memEvents := s.memEvents ++ [(e, b, to'.getD 0)] }
  let s := if e < 16 then { s with reloc := s.reloc ++ [(e, to'.getD 0, to'.isNone)] }
    else match to' with
      | some p => (s.put (MEM_RGN_W0_BASE e) p).put (MEM_RGN_W1_LIMIT e) (p + (l - b)) |> fun s =>
          s.holdWord e 1 ((p + (l - b)) * 4096) mask64
      | none => s.put (MEM_RGN_W0_EN e) 0
  (s.fnEvt (s.get (QOS_PART_FUNC (s.get (MEM_RGN_W0_PART e)))) 2).pfEvt

/-- Entries that cover removed addresses, the higher class first. -/
def State.lostEntries (s : State) : List Nat :=
  sortBy (fun a b => decide (s.get (MEM_RGN_W0_CRIT b) ≤ s.get (MEM_RGN_W0_CRIT a)))
    ((List.range 128).filter (fun e => s.flag (MEM_RGN_W0_EN e) &&
      !s.pagesMapped (s.get (MEM_RGN_W0_BASE e)) (s.get (MEM_RGN_W1_LIMIT e) - s.get (MEM_RGN_W0_BASE e) + 1)))

/-- A DDR4 channel is retired. -/
def State.retireDdr (s : State) (ch : Nat) : State :=
  let rs := s.rangesOf ch
  let s := (State.retire { s with ddrQ := mdel ch s.ddrQ } (chIsl (24 + ch)) 3).put (DDR_CFG_PRESENT ch) 0
  let s := s.endRanges rs
  let s := rs.foldl (fun s i => s.rebuildRange ch i) s
  (s.overcommit.lostEntries.foldl State.relocate s.overcommit).settle

/-- Retire the channels whose fault rate exceeds that of R28 (R220). -/
def State.ddrCheck (s : State) : State :=
  (List.range 8).foldl (fun s ch =>
    if s.flag (DDR_CFG_PRESENT ch) && !s.isRetired (chIsl (24 + ch)) && s.rateHit (chIsl (24 + ch)) then s.retireDdr ch else s) s

/-- DDR_COMMAND_FAULT (R28, R220). -/
def execDdrCommandFault (ch : Nat) (k : DdrFault) (s : State) : Out :=
  .next (if !s.flag (DDR_CFG_PRESENT ch) then s else
    let n := mget (fun _ => 0) s.consec ch + 1
    let s := match k with
      | .caParity => s.bump (DDR_CNT_CAPAR_COUNT ch) 1
      | .phyLock => s
    let s := (s.bump (DDR_CNT_TRANSIENT_COUNT ch) 1).transient (chIsl (24 + ch))
    let s := { s with consec := mset (fun _ => 0) s.consec ch n }
    if decide (s.get SAF_CTL_ATTEMPTS ≤ n) || s.rateHit (chIsl (24 + ch)) then s.retireDdr ch else s)

/-! ### Scrubbing (R219) -/

/-- The address of codeword `n` of a channel's local space, and the local ranges of the channel. -/
def State.localAddr (s : State) (ch n : Nat) : Option Nat :=
  ((s.rangesOf ch).find? (fun i =>
    let k := popc 8 (s.get (DDR_MAP_CHMASK i))
    let lo := s.get (DDR_MAP_CHOFF_GB i) * 2 ^ 25
    decide (lo ≤ n) && decide (n < lo + s.get (DDR_MAP_SIZE_GB i) / k * 2 ^ 25))).map (fun i =>
      let chans := maskBits 8 (s.get (DDR_MAP_CHMASK i))
      let l := 32 * n - s.get (DDR_MAP_CHOFF_GB i) * 2 ^ 30
      let pos := (chans.filter (fun c => decide (c < ch))).length
      dramBase + s.get (DDR_MAP_BASE_GB i) * 2 ^ 30 + (l / 4096 * chans.length + pos) * 4096 + l % 4096)

/-- The first mapped codeword of a channel at or after `n`; the sweep begins again at the lowest. -/
def State.nextLocal (s : State) (ch n : Nat) : Option Nat :=
  if (s.localAddr ch n).isSome then some n else
  let starts := sortBy (fun a b => decide (a ≤ b)) ((s.rangesOf ch).map (fun i => s.get (DDR_MAP_CHOFF_GB i) * 2 ^ 25))
  match starts.find? (fun a => decide (n ≤ a)) with
  | some a => some a
  | none => starts.head?

/-- The scrubber reads one codeword. -/
def State.scrubAt (s : State) (isl a : Nat) : State :=
  let t := s.tag (a / 32)
  (s.decodeCw ⟨tagPart t, false, isl, 0, none⟩ a).1

/-- PATROL_SCRUB. -/
def execPatrolScrub (unit : ScrubUnit) (s : State) : Out :=
  .next (if s.dead then s else
    match unit with
    | .spd =>
      if s.get SPD_CFG_SCRUB_MS = 0 then s else
      let n := mget (fun _ => 0) s.scrub 0
      let s := s.scrubAt (8 + (spdBank (32 * n)).1) (32 * n)
      { s with scrub := mset (fun _ => 0) s.scrub 0 ((n + 1) % (spdEnd / 32)) }
    | .ddr ch =>
      if s.get (DDR_SCRUB_PERIOD_H ch) = 0 ∨ ¬ s.flag (DDR_CFG_PRESENT ch) then s else
      match s.nextLocal ch (mget (fun _ => 0) s.scrub (1 + ch)) with
      | none => s
      | some n =>
        let s := match s.localAddr ch n with
          | some a => s.scrubAt (24 + ch) a
          | none => s
        { s with scrub := mset (fun _ => 0) s.scrub (1 + ch) (n + 1) }.ddrCheck)

/-! ### Calibration and temperature (R217, R218, R236, R601) -/

/-- ZQ_CALIBRATION: every 128 ms. -/
def execZqCalibration (s : State) : Out :=
  .next (if s.fwRuns ∧ s.zqLast + msTicks 128 ≤ s.c then { s with zqLast := s.c } else s)

/-- TREFI in DRAM clocks for the refresh interval in force. -/
def State.refreshTrefi (s : State) (ch : Nat) : State :=
  let r := ddrRate (s.get (DDR_CFG_RATE ch))
  s.put (DDR_TIM_TREFI ch) (if s.flag (DDR_CFG_HOT ch) then 195 * r / 100 else 39 * r / 10)

/-- A bit of PWR_EVT and its message (R608). -/
def State.pwrEvt (s : State) (f : Fref) : State := (s.put f 1).pfIrq PWR_IRQ_VECTOR PWR_IRQ_EN

/-- The reading of one channel: item 2 × ch + rank of `t` is that component's temperature in °C. -/
def State.pollChannel (s : State) (t : List Nat) (ch : Nat) : State :=
  let xs := (t.drop (2 * ch)).take (s.get (DDR_CFG_RANKS ch) + 1)
  if !s.flag (DDR_CFG_PRESENT ch) || xs.isEmpty then s else
  let hot := xs.any (fun x => decide (85 < x))
  let s := (s.put (DDR_CFG_HOT ch) (b2n hot)).refreshTrefi ch
  if hot then s.pwrEvt PWR_EVT_DRAM_HOT else s

/-- DRAM_TEMP_POLL. -/
def execDramTempPoll (t : List Nat) (s : State) : Out :=
  .next (if s.fwRuns then (List.range 8).foldl (fun s ch => s.pollChannel t ch) s else s)

end Sys2Proof.Machine
end

