-- ==== Sys2Proof/Machine/Sched.lean ====
section
/-!
DEFINITION. Stops, windows, display windows and the deadline monitor (R352 to R363, R413), and the notice of an engine's end
(R474).
-/

namespace Sys2Proof.Machine

/-- ENGINE_COMPLETE: the notice of one engine's part (R474). -/
def execEngineComplete (d isl : Nat) (s : State) : Out :=
  .next (match s.desc? d with
    | none => s
    | some x =>
      if x.phase == .dispatched && x.parts.any (fun p => p.isl == isl && p.active && p.worked) then
        ({ s with seq := s.seq + 1 }.partDone d isl).ddrCheck.settle.refreshLtr
      else s)


/-! ### Stops (R352, R358, R413, R573) -/

/-- Peer reads of a descriptor that are still outstanding, in order of issue. -/
def State.readsOut (s : State) (d : Desc) : List LnkOut :=
  s.lnkOut.filter (fun o => o.desc == d.id && o.op == 0 && !o.deferred)

/-- First byte and end of a context's receive area: the top RX_GRAN granules of its moored share (R358). -/
def State.rxArea (s : State) (c : Nat) : Nat × Nat :=
  let top := s.get (SCH_CTX_STAT_GRAN_BASE c) + s.get (SCH_CTX_CFG_GRAN c)
  ((top - s.get (SCH_CTX_CFG_RX_GRAN c)) * granBytes, top * granBytes)

/-- The ranges of the receive area that deferred receives of a context will fill, or have filled and not given up: address
and length. -/
def State.rxUsed (s : State) (c : Nat) : List (Nat × Nat) :=
  let mine (i : Nat) : Bool := match s.desc? i with
    | some d => s.ctxOf d == c
    | none => false
  (s.lnkOut.filter (fun o => o.deferred && mine o.desc)).map (fun o => (o.rx, 32 * o.len)) ++
    (s.peerData.filter (fun p => mine p.desc)).filterMap (fun p => p.rx.map (fun a => (a, p.data.length)))

/-- The lowest free place for `n` bytes in an area: its start or the end of a range in use (log 7). -/
def placeIn (area : Nat × Nat) (used : List (Nat × Nat)) (n : Nat) : Option Nat :=
  (sortBy (fun a b => decide (a ≤ b)) (area.1 :: used.map (fun u => u.1 + u.2))).find? (fun a =>
    decide (a + n ≤ area.2) && used.all (fun u => decide (a + n ≤ u.1) || decide (u.1 + u.2 ≤ a)))

/-- Places for a list of reads: tag and address, where all fit. -/
def placeAll (area : Nat × Nat) : List (Nat × Nat) → List LnkOut → Option (List (Nat × Nat))
  | _, [] => some []
  | used, o :: os =>
    match placeIn area used (32 * o.len) with
    | none => none
    | some a => (placeAll area ((a, 32 * o.len) :: used) os).map (fun l => (o.tag, a) :: l)

/-- The places in the receive area of a descriptor's outstanding reads, where they can land there. -/
def State.rxPlaces (s : State) (d : Desc) : Option (List (Nat × Nat)) :=
  placeAll (s.rxArea (s.ctxOf d)) (s.rxUsed (s.ctxOf d)) (s.readsOut d)

/-- The outstanding reads of a stopped descriptor become deferred receives. -/
def State.deferReads (s : State) (d : Desc) : State :=
  let n := (s.readsOut d).length
  let c := s.ctxOf d
  let ps := (s.rxPlaces d).getD []
  let s := { s with lnkOut := s.lnkOut.map (fun (o : LnkOut) =>
    match ps.find? (fun p => p.1 == o.tag) with
    | some (_, a) => { o with deferred := true, rx := a }
    | none => o) }
  if n = 0 then s else (s.bump (SCH_CTX_STAT_RX_PEND c) n).bump SCH_CNT_DEFERRED_COUNT n

/-- One part reaches its stop point. -/
def State.stopDone (s : State) (d : Desc) (p : Part) : State :=
  let s := (s.deferReads d).countBusy d p
  let s := s.updDesc d.id (fun x => { x with parts := x.parts.map (fun (y : Part) =>
    if y.isl = p.isl then y.halt x.ending.isSome s.seq else y) })
  let s := s.emitDesc d p.isl 0x03 0 p.stopCause (s.sinceNs p.stopC)
  if s.secureDesc d then s.worldReturn p.isl else s

/-- Start the golden test of an engine once its work has stopped (R413). -/
def State.goldStart (s : State) (e : Nat) : State :=
  match mget (fun _ => none) s.gold e with
  | some g =>
    let busy := s.descs.any (fun d => d.phase == .dispatched && d.parts.any (fun p => p.isl == e && p.active))
    if g.live || busy then s else { s with gold := mset (fun _ => none) s.gold e (some { g with live := true, startC := s.c }) }
  | none => s

/-- Requests of the descriptor held at the ports of its engine (R375). -/
def State.portHeld (s : State) (d : Desc) (e : Nat) : Bool := s.qosHeld.any (fun q => q.desc == d.id && q.isl == e)

/-- ENGINE_STOP_DONE: an engine whose reads from a peer cannot be deferred stops only when they have returned. -/
def execEngineStopDone (e : Nat) (s : State) : Out :=
  .next (
    let ds := s.descs.filter (fun d => d.phase == .dispatched && d.parts.any (fun p => p.isl == e && p.st == .stopping) &&
      (s.rxPlaces d).isSome && !s.portHeld d e)
    if ds.isEmpty then s.goldStart e else
    let s := { s with seq := s.seq + 1 }
    let s := ds.foldl (fun s d => (d.parts.filter (fun p => p.isl == e && p.st == .stopping)).foldl (fun s p => s.stopDone d p) s) s
    (s.goldStart e).settle)

/-! ### Windows (R354, R356) -/

/-- The WINDOW event. -/
def State.emitWindow (s : State) (e part len : Nat) (disp : Bool) : State :=
  s.emitPlain e 0x0D (e + part * 16 + b2n disp * 1024) len

/-- A frame window of a higher class keeps an engine from display window `n`: counted once in each display frame. -/
def State.denyWin (s : State) (n e : Nat) : State :=
  if s.denied.contains (n, e) then s
  else { s with denied := s.denied ++ [(n, e)] }.bump SCH_CNT_DWIN_DENIED_COUNT 1

/-- WINDOW_OPEN: the window is enabled, time partitioning is on, and Beacon time lies in its span. -/
def execWindowOpen (e w : Nat) (s : State) : Out :=
  .next (
    let a := s.getA (SCH_WIN_START_US e w) * 1000
    let p := s.getA (SCH_WIN_PART e w)
    let len := s.getA (SCH_WIN_LEN_US e w)
    let pos := s.framePos s.beacon
    if !s.flagA SCH_CFG_TP_EN || !s.flagA (SCH_WIN_EN e w) || decide (pos < a) || decide (a + len * 1000 ≤ pos) || !s.fwRuns then s else
    let s := s.emitWindow e p len false
    let s := (s.dwins.filter (fun n => bitOf (s.getA (SCH_DWIN_ENG n)) e &&
      decide (s.get (QOS_PART_CRIT (s.getA (SCH_DWIN_PART n))) < s.get (QOS_PART_CRIT p)))).foldl (fun s n => s.denyWin n e) s
    (s.stopStrangers e 0).settle)

/-- DISPLAY_WINDOW_OPEN: dormant while the display engine is off or retired, or its frame is not longer than the window. -/
def execDisplayWindowOpen (n : Nat) (s : State) : Out :=
  .next (
    let len := s.getA (SCH_DWIN_LEN_US n)
    let p := s.getA (SCH_DWIN_PART n)
    if !s.dwinLive n || s.dwins.contains n || !s.fwRuns then s else
    let s := { s with dwins := sortBy (fun a b => decide (a ≤ b)) (s.dwins ++ [n]) }.wakeIsls (maskBits 8 (s.getA (SCH_DWIN_ENG n)))
    ((maskBits 8 (s.getA (SCH_DWIN_ENG n))).foldl (fun s e =>
      match s.winOn e with
      | some (q, _, true) => if q = p then (s.emitWindow e p len true).stopStrangers e 2 else s
      | some (_, _, false) => s.denyWin n e
      | none => s) s).settle)

/-! ### The deadline monitor (R361) -/

/-- Monitor periods that have passed since the opening of a run. -/
def State.checksDue (s : State) (j : Nat) : Nat := (s.c - (s.job j).c0) / max 1 (usTicks (s.getA SCH_CFG_DL_CHECK_US))

/-- One evaluation for each whole number of monitor periods since the run's opening. -/
def State.deadlineCheck (s : State) (j : Nat) : State :=
  if s.fwRuns ∧ s.get (SCH_JOB_W3_STATE j) = 1 ∧ (s.job j).checks < s.checksDue j then
    ((s.setJob j { s.job j with checks := s.checksDue j }).jobEval j).settle
  else s

/-- DEADLINE_CHECK. -/
def execDeadlineCheck (j : Nat) (s : State) : Out := .next (s.deadlineCheck j)

end Sys2Proof.Machine
end

