-- ==== Sys2Proof/Machine/Virt.lean ====
section
/-!
DEFINITION. Virtual functions: the resource pool, heartbeats, quiescing, function-level reset and dirty-page logging (R387 to
R403).
-/

namespace Sys2Proof.Machine

/-! ### The pool (R388) -/

/-- FN_STATE mirrors the function's status word (R392). -/
def State.refreshFn (s : State) (f : Nat) : State :=
  ((s.put (FN_STATE_ARMED f) (s.get (VIRT_FN_W5_ARMED f))).put (FN_STATE_QUIESCED f) (s.get (VIRT_FN_W5_QUIESCED f))).put
    (FN_STATE_FLR_BUSY f) (s.get (VIRT_FN_W5_FLR_BUSY f))

/-- FN_INFO: the counts allotted. -/
def State.refreshInfo (s : State) (f : Nat) : State :=
  ((((s.put (FN_INFO_QCNT f) (s.cnt (VIRT_FN_W0_QCNT f))).put (FN_INFO_CQCNT f) (s.cnt (VIRT_FN_W0_CQCNT f))).put
    (FN_INFO_CTXCNT f) (s.cnt (VIRT_FN_W1_CTXCNT f))).put (FN_INFO_VECCNT f) (s.cnt (VIRT_FN_W2_VECCNT f))).put
    (FN_INFO_SEMCNT f) (s.cnt (VIRT_FN_W1_SEMCNT f))

/-- Do two ranges share an item? -/
def rangesMeet (a n b m : Nat) : Bool := decide (a < b + m) && decide (b < a + n) && decide (0 < n) && decide (0 < m)

/-- The five ranges of an allotment: base, count, end of the resource. -/
def State.allotment (s : State) (v : Nat) : List (Nat × Nat × Nat) :=
  [(s.get (VIRT_FN_W0_QBASE v), s.get (VIRT_FN_W0_QCNT v), 16384), (s.get (VIRT_FN_W0_CQBASE v), s.get (VIRT_FN_W0_CQCNT v), 1024),
   (s.get (VIRT_FN_W1_SEMBASE v), s.get (VIRT_FN_W1_SEMCNT v), 4096), (s.get (VIRT_FN_W1_CTXBASE v), s.get (VIRT_FN_W1_CTXCNT v), 256),
   (s.get (VIRT_FN_W2_VECBASE v), s.get (VIRT_FN_W2_VECCNT v), 2048)]

def spanOf (a n : Nat) : List Nat := (List.range n).map (a + ·)

/-- The check of one VF at VF Enable. -/
def State.vfBad (s : State) (num v : Nat) : Bool :=
  let al := s.allotment v
  al.any (fun r => decide (r.2.2 < r.1 + r.2.1)) ||
    (List.range (num + 1)).any (fun x => x != 0 && x != v &&
      (al.zip (s.allotment x)).any (fun p => rangesMeet p.1.1 p.1.2.1 p.2.1 p.2.2.1)) ||
    decide (s.get (VIRT_FN_W2_VECBASE v) < 64) || s.get (VIRT_FN_W2_VECCNT v) == 0 ||
    (spanOf (s.get (VIRT_FN_W0_QBASE v)) (s.get (VIRT_FN_W0_QCNT v))).any (fun q => s.flag (CMD_Q_CFG_ENABLE q)) ||
    (spanOf (s.get (VIRT_FN_W0_CQBASE v)) (s.get (VIRT_FN_W0_CQCNT v))).any (fun g => s.flag (CMD_CQ_CFG_ENABLE g)) ||
    (spanOf (s.get (VIRT_FN_W1_CTXBASE v)) (s.get (VIRT_FN_W1_CTXCNT v))).any (fun c => s.get (SCH_CTX_STAT_STATE c) != 0)

/-- The device writes FUNC of every resource allotted to `v`. -/
def State.giveFunc (s : State) (v f : Nat) : State :=
  let s := (spanOf (s.get (VIRT_FN_W0_QBASE v)) (s.cnt (VIRT_FN_W0_QCNT v))).foldl (fun s q => s.put (CMD_Q_CFG_FUNC q) f) s
  let s := (spanOf (s.get (VIRT_FN_W0_CQBASE v)) (s.cnt (VIRT_FN_W0_CQCNT v))).foldl (fun s g => s.put (CMD_CQ_CFG_FUNC g) f) s
  let s := (spanOf (s.get (VIRT_FN_W1_SEMBASE v)) (s.cnt (VIRT_FN_W1_SEMCNT v))).foldl (fun s i => s.put (CMD_SEM_FUNC i) f) s
  (spanOf (s.get (VIRT_FN_W1_CTXBASE v)) (s.cnt (VIRT_FN_W1_CTXCNT v))).foldl (fun s c => s.put (SCH_CTX_CFG_FUNC c) f) s

/-! ### Quiescing (R396, R397) -/

/-- The enabled queues of a function. -/
def State.fnQueues (s : State) (f : Nat) : List Nat :=
  (s.regs.filter (fun e => 0x180000 ≤ e.1 && e.1 < 0x200000 && e.1 % 32 == 8)).filterMap (fun e =>
    let q := (e.1 - 0x180008) / 32
    if s.flag (CMD_Q_CFG_ENABLE q) && s.qFn q == f then some q else none)

def State.quiesce (s : State) (f : Nat) : State :=
  if s.flag (VIRT_FN_W5_QUIESCED f) || s.flag (VIRT_FN_W5_FLR_BUSY f) then s else
  let s := (s.put (VIRT_FN_W5_QUIESCED f) 1).refreshFn f
  let s := (s.fnQueues f).foldl State.refreshQueue s
  (s.fnEvt f 0).pfEvt

/-- QUIESCE. -/
def execQuiesce (rq : Requester) (fn : Nat) (s : State) : Out :=
  .next (s.guarded rq (VIRT_FN_W4 fn) (fun s => s.quiesce fn))

def State.resume (s : State) (f : Nat) : State :=
  if !s.flag (VIRT_FN_W5_QUIESCED f) then s else
  let s := (s.put (VIRT_FN_W5_QUIESCED f) 0).refreshFn f
  ((s.fnQueues f).foldl State.refreshQueue s).fnEvt f 1

/-- VF_RESUME. -/
def execVfResume (rq : Requester) (fn : Nat) (s : State) : Out :=
  .next (s.guarded rq (VIRT_FN_W4 fn) (fun s => (s.resume fn).refreshLtr))

/-! ### Heartbeat (R395) -/

/-- A heartbeat of a function. -/
def State.heartbeat (s : State) (f : Nat) : State :=
  let ms := s.get (VIRT_FN_W3_HB_MS f)
  let due := mget (fun _ => 0) s.hbDue f
  if s.flag (VIRT_FN_W5_QUIESCED f) then s.put (VIRT_FN_W5_HB_LATE f) 1
  else if due ≠ 0 ∧ due ≤ s.c then s
  else if ms = 0 then { s.put (VIRT_FN_W5_ARMED f) 0 with hbDue := mset (fun _ => 0) s.hbDue f 0 }.refreshFn f
  else { s.put (VIRT_FN_W5_ARMED f) 1 with hbDue := mset (fun _ => 0) s.hbDue f (s.c + msTicks ms) }.refreshFn f

/-- FN_HB: any write of the function's own page is a heartbeat. -/
def execFnHb (fn : Nat) (_v : Word32) (s : State) : Out :=
  .next (if s.bellOk fn && s.answers (FN_HB 0) then s.heartbeat fn else s)

/-- HEARTBEAT_EXPIRY: the expiry instant has come. -/
def execHeartbeatExpiry (fn : Nat) (s : State) : Out :=
  .next (
    let due := mget (fun _ => 0) s.hbDue fn
    if due = 0 ∨ s.c < due then s else { s with hbDue := mset (fun _ => 0) s.hbDue fn 0 }.quiesce fn)

/-! ### Function-level reset (R398 to R400) -/

/-- End the dispatched descriptors of a function as ABORTED, without records; a reclaim begun runs to its end (R204). -/
def State.squashFn (s : State) (f : Nat) : State :=
  (s.descs.filter (fun d => s.qFn d.q == f && d.phase == .dispatched)).foldl (fun s d =>
    if d.flushing || d.ending.isSome || s.grants.any (fun x => x.desc == some d.id) then s else
    let s := s.updDesc d.id (fun d => { d with
      ending := some (0x34, 0)
      parts := d.parts.map (fun (p : Part) =>
        if p.st = .stopped ∨ (24 ≤ p.isl ∧ p.st ≠ .notStarted) then { p with st := .done, fin := s.seq } else p) })
    d.parts.foldl (fun s p => s.stopPart d.id p.isl 5) s) s

/-- Begin the reset of a function. -/
def State.beginFlr (s : State) (f : Nat) (sq : Bool) : State :=
  if s.flag (VIRT_FN_W5_FLR_BUSY f) then
    (if sq && !s.flrSq.contains f then { s with flrSq := s.flrSq ++ [f] }.squashFn f else s)
  else
    let qs := s.fnQueues f
    let s := ((s.put (VIRT_FN_W5_QUIESCED f) 0).put (VIRT_FN_W5_FLR_BUSY f) 1).refreshFn f
    let s := { s with flrC := mset (fun _ => 0) s.flrC f (s.c + 1), dbLatch := s.dbLatch.filter (fun e => s.qFn e.1 != f),
                      flrSq := if sq then s.flrSq ++ [f] else s.flrSq }
    let gone := s.descs.filter (fun (d : Desc) => s.qFn d.q == f && d.phase != .dispatched)
    let s := gone.foldl (fun (s : State) (d : Desc) => if d.phase = .waiting then s.drop (CMD_SEM_WAITERS (s.semOf d d.waitIdx)) 1 else s) s
    let s := { s with descs := s.descs.filter (fun (d : Desc) => !(s.qFn d.q == f && d.phase != .dispatched)) }
    let s := gone.foldl (fun (s : State) (d : Desc) => s.vanish { d with phase := .ended }) s
    let s := { s with descs := s.descs.map (fun d => if s.qFn d.q = f then { d with squashed := true, noSignal := true } else d) }
    let s := qs.foldl State.refreshQueue s
    if sq then s.squashFn f else s

/-- FLR of a VF. -/
def execFlr (fn : Nat) (s : State) : Out :=
  .next (if fn = 0 ∨ ¬ s.reaches (.fn fn) then s else (s.beginFlr fn (s.flag (VIRT_FN_W3_FLR_MODE fn))).settle)

/-- VFs above `num` are removed: each is reset with SQUASH (R400). -/
def State.dropVfs (s : State) (num : Nat) : State :=
  let gone := (List.range (s.pcie.numVf + 1)).filter (fun v => decide (num < v))
  let s := gone.foldl (fun s v => s.beginFlr v true) s
  let on := s.pcie.vfEnable && num != 0
  { s.put VIRT_CFG_NUM_VF num with
    pcie := { s.pcie with vfEnable := on, numVf := num }
    flrGone := s.flrGone ++ gone.filter (fun v => !s.flrGone.contains v) }

/-- VF_ENABLE: a write of VF Enable with NumVFs; zero clears it. -/
def execVfEnable (num : Nat) (s : State) : Out :=
  .next (if s.dead || !s.pcie.linkUp || decide (31 < num) then s
    else if s.pcie.vfEnable then (if num < s.pcie.numVf then (s.dropVfs num).settle else s)
    else if num = 0 || !s.flrGone.isEmpty then s
    else
      let vs := (List.range (num + 1)).filter (· != 0)
      let bad := vs.filter (s.vfBad num)
      let s := vs.foldl (fun s v => s.put (VIRT_FN_W5_CFG_ERR v) (b2n (bad.contains v))) s
      let s := { s.put VIRT_CFG_NUM_VF num with pcie := { s.pcie with vfEnable := true, numVf := num } }
      let s := vs.foldl (fun s v => (if bad.contains v then s else s.giveFunc v v).refreshInfo v) s
      if bad.isEmpty then s else s.pfEvt)

/-- Bridge semaphores that the host holds are freed (R566). -/
def State.freeHostSems (s : State) : State :=
  (List.range 16).foldl (fun s n => if s.get (WBR_SEM_HOLDER n) = 1 then s.put (WBR_SEM_HOLDER n) 0 else s) s

/-- The reset of R400 begins: every VF with SQUASH and without VF Enable, then the PF. -/
def State.resetPf (s : State) : State :=
  let s := s.freeHostSems.dropVfs 0
  { s with flrGone := if s.flrGone.contains 0 then s.flrGone else s.flrGone ++ [0] }.beginFlr 0 true

/-- PF_FLR. -/
def execPfFlr (s : State) : Out := .next (if !s.reaches (.fn 0) then s else s.resetPf.settle)

/-- FLR_DRAIN_TIMEOUT: 80 ms from the reset. -/
def execFlrDrainTimeout (fn : Nat) (s : State) : Out :=
  .next (
    let c0 := mget (fun _ => 0) s.flrC fn
    if !s.flag (VIRT_FN_W5_FLR_BUSY fn) || s.flrSq.contains fn || decide (s.c + 1 < c0 + msTicks 80) then s
    else ({ s with flrSq := s.flrSq ++ [fn] }.squashFn fn).settle)

/-- Registers of queues, groups and semaphores of a function at reset, FUNC kept (R398). -/
def State.clearFn (s : State) (f : Nat) : State :=
  let mineQ (q : Nat) : Bool := s.qFn q == f
  let keep (e : Nat × Word64) : Option (Nat × Word64) :=
    let func (base lo : Nat) : Word64 := BitVec.ofNat 64 (putBits (regReset base).toNat lo 5 f)
    if 0x180000 ≤ e.1 ∧ e.1 < 0x200000 ∧ mineQ ((e.1 - 0x180000) / 32) then
      if e.1 % 32 = 8 ∧ f ≠ 0 then some (e.1, func e.1 18) else none
    else if 0x140000 ≤ e.1 ∧ e.1 < 0x148000 ∧ s.get (CMD_CQ_CFG_FUNC ((e.1 - 0x140000) / 32)) = f then
      if e.1 % 32 = 8 ∧ f ≠ 0 then some (e.1, func e.1 24) else none
    else if 0x160000 ≤ e.1 ∧ e.1 < 0x168000 ∧ s.get (CMD_SEM_FUNC ((e.1 - 0x160000) / 8)) = f then
      if f ≠ 0 then some (e.1, func e.1 33) else none
    else some e
  { s with regs := s.regs.filterMap keep
           stoppedQ := s.stoppedQ.filter (fun q => !mineQ q)
           coal := s.coal.filter (fun e => s.get (CMD_CQ_CFG_FUNC e.1) != f)
           signallers := s.signallers.filter (fun e => s.get (CMD_SEM_FUNC e.1) != f) }

/-- Runs of jobs whose primary queue belongs to the function are closed. -/
def State.closeRuns (s : State) (f : Nat) : State :=
  (s.jobs.map (fun e => e.1)).foldl (fun s j =>
    if s.qFn (s.get (SCH_JOB_W0_PQ j)) = f ∧ s.get (SCH_JOB_W3_STATE j) ≠ 0 then
      ((s.setJob j { job0 j with meas := (s.job j).meas }).put (SCH_JOB_W3_STATE j) 0).put (SCH_JOB_W3_DONE j) 0
    else s) s

/-- The contexts of a function that are not free. -/
def State.fnCtxs (s : State) (f : Nat) : List Nat :=
  (List.range 256).filter (fun c => s.get (SCH_CTX_CFG_FUNC c) == f && [1, 2, 3, 4].contains (s.get (SCH_CTX_STAT_STATE c)))

/-- The VIRT block at its reset values (R400). -/
def State.clearVirt (s : State) : State :=
  { s with regs := s.regs.filter (fun e => !(0xD00000 ≤ e.1 && e.1 < 0xE00000) && e.1 < 0x2000000)
           hbDue := [], flrC := [], flrSq := [], flrGone := [] }

/-- The end of a function-level reset. -/
def State.finishFlr (s : State) (f : Nat) : State :=
  let s := (s.fnCtxs f).foldl State.performRelease s
  let s := (s.closeRuns f).clearFn f
  let s := ((s.setReg (FN_EVT f) 0).setReg (FN_EVT_CFG f) 0).put (VIRT_FN_W5_ARMED f) 0
  let s := { s with hbDue := mdel f s.hbDue, flrC := mdel f s.flrC, flrSq := s.flrSq.filter (· != f) }
  let s := (s.put (VIRT_FN_W5_FLR_BUSY f) 0).refreshFn f
  let s := if f ≠ 0 ∧ s.flrGone.contains f then { s.giveFunc f 0 with flrGone := s.flrGone.filter (· != f) } else s
  s.pfEvt

/-- FLR_COMPLETE: no descriptor of the function is left, and nothing of its contexts is still spilling or being granted. -/
def execFlrComplete (fn : Nat) (s : State) : Out :=
  .next (
    let cs := s.fnCtxs fn
    if !s.flag (VIRT_FN_W5_FLR_BUSY fn) || s.descs.any (fun d => s.qFn d.q == fn) || !cs.all s.ctxIdle ||
        (fn == 0 && s.flrGone.any (· != 0)) then s
    else if fn = 0 then
      let s := s.finishFlr 0
      ((if s.flrGone.contains 0 then s.clearVirt else s).refreshOcc).settle
    else (s.finishFlr fn).settle)

/-! ### Dirty-page logging (R401 to R403) -/

/-- SWAP: the other bitmap becomes active at once; ignored while SWAP_BUSY. -/
def State.swapBitmap (s : State) (f : Nat) : State :=
  if s.flag (VIRT_FN_W6_SWAP_BUSY f) then s
  else (s.put (VIRT_FN_W6_ACTIVE f) (1 - s.get (VIRT_FN_W6_ACTIVE f))).put (VIRT_FN_W6_SWAP_BUSY f) 1

/-- DIRTY_SWAP. -/
def execDirtySwap (rq : Requester) (fn : Nat) (s : State) : Out :=
  .next (s.guarded rq (VIRT_FN_W6 fn) (fun s => s.swapBitmap fn))

/-- SWAP_DONE: every line of the old bitmap has been written back. -/
def execSwapDone (fn : Nat) (s : State) : Out :=
  .next (if !s.flag (VIRT_FN_W6_SWAP_BUSY fn) then s else
    let old := s.dirty.filter (fun l => l.fn == fn && l.bmap != s.get (VIRT_FN_W6_ACTIVE fn))
    let s := { s.bump (VIRT_FN_W10_COUNT fn) old.length with
      host := old.foldl writeLine s.host
      dirty := s.dirty.filter (fun l => !old.contains l) }
    s.put (VIRT_FN_W6_SWAP_BUSY fn) 0)

end Sys2Proof.Machine
end

