-- ==== Sys2Proof/Machine/Clock.lean ====
section
/-!
DEFINITION. Clocks of the scheduled islands (R124, R125, R592, R595, R598).
-/

namespace Sys2Proof.Machine

/-- The requested clock in force, FMAX_NOW, the limiter's cap and the floor of a scheduled island. -/
def State.freqReq (s : State) (e : Nat) : Nat :=
  if e < 4 then s.getA (ARR_CLK_CFG_FREQ_MHZ e) else s.getA (VEC_CLK_CFG_FREQ_MHZ (e - 4))
def State.fmaxNow (s : State) (e : Nat) : Nat :=
  if e < 4 then s.get (ARR_CLK_STAT_FMAX_NOW e) else s.get (VEC_CLK_STAT_FMAX_NOW (e - 4))
def State.limCap (s : State) (e : Nat) : Nat :=
  if e < 4 then s.get PWR_AVG_ARR_CAP_MHZ else s.get PWR_AVG_VCL_CAP_MHZ
def State.floorOf (s : State) (e : Nat) : Nat :=
  if e < 4 then s.get PWR_LIM_ARR_FLOOR_MHZ else s.get PWR_LIM_VCL_FLOOR_MHZ

/-- The thermal cap; none when it reads 0x7FF. -/
def State.thermCap (s : State) (e : Nat) : Nat :=
  let c := s.get (PWR_ISL_W0_THERM_CAP_MHZ e)
  if c = 0x7FF then 2 ^ 16 else c

/-- A cap that Lantern holds for a secure-assigned island (R459). -/
def State.lntCap (s : State) (e : Nat) : Nat := if s.secIsl e then mget (fun _ => 2 ^ 16) s.pwr.cap e else 2 ^ 16

/-- f of R592, at the floor while a fast limit acts (R595). -/
def State.clockOf (s : State) (e : Nat) : Nat :=
  let f := min (min (min (s.freqReq e) (s.fmaxNow e)) (min (s.limCap e) (s.thermCap e))) (s.lntCap e)
  if s.pwr.fast = 0 then f else min f (s.floorOf e)

/-- FREQ_ACTIVE shows f; the clocks until a change count at the old one (R128). -/
def State.refreshClk (s : State) (e : Nat) : State :=
  if e < 4 then
    (if s.get (ARR_CLK_STAT_FREQ_ACTIVE e) = s.clockOf e then s else s.accBusy).put (ARR_CLK_STAT_FREQ_ACTIVE e) (s.clockOf e)
  else s.put (VEC_CLK_STAT_FREQ_ACTIVE (e - 4)) (s.clockOf e)

def State.refreshClks (s : State) : State := (List.range 8).foldl State.refreshClk s

end Sys2Proof.Machine
end

