-- ==== Sys2Proof/Machine/Commit.lean ====
section
/-!
DEFINITION. Staged registers and commits (R31 to R38), the rules by which each island validates its staged set, and what a
commit changes (R124, R317, R355, R378, R437, R491, R508, R547).
-/

namespace Sys2Proof.Machine

/-! ### Staged registers -/

/-- The staged registers of an island that differ from their reset value in one of the copies. -/
def State.stagedKeys (s : State) (isl : Nat) : List Nat :=
  let ks := (s.regs.map (fun e => e.1)).filter (fun k => stagedIsland k == some isl)
  ks ++ ((s.active.map (fun e => e.1)).filter (fun k => stagedIsland k == some isl && !ks.contains k))

/-- Staged registers of an island that differ from their active copies. -/
def State.dirtyKeys (s : State) (isl : Nat) : List Nat := (s.stagedKeys isl).filter (fun k => s.reg k != s.act k)

def State.refreshDirtyBit (s : State) (isl : Nat) : State :=
  s.put (TOP_ISL_MODE_DIRTY isl) (b2n (!(s.dirtyKeys isl).isEmpty))

/-- Does the armed commit name an island? -/
def State.armedFor (s : State) (isl : Nat) : Bool :=
  match s.arm with
  | some a => bitOf a.units isl
  | none => false

/-- A write of a staged register: the staged copy, or LOST_WRITE while armed (R33). -/
def State.stageWrite (s : State) (base v mask : Nat) : State :=
  match stagedIsland base with
  | none => s.plainWrite base v mask
  | some isl =>
    if s.armedFor isl then s.put (TOP_ISL_MODE_LOST_WRITE isl) 1
    else (s.plainWrite base v mask).refreshDirtyBit isl

/-! ### Validation (R33) -/

/-- The rules of R316 on a staged timing. -/
def State.timingOk (s : State) (n : Nat) : Bool :=
  let h := s.get (DISP_TIM_H_HACT n)
  let v := s.get (DISP_TIM_V_VACT n)
  let ht := h + s.get (DISP_TIM_H_HFP n) + s.get (DISP_TIM_H_HSYNC n) + s.get (DISP_TIM_H_HBP n)
  let vt := v + s.get (DISP_TIM_V_VFP n) + s.get (DISP_TIM_V_VSYNC n) + s.get (DISP_TIM_V_VBP n)
  let p := s.get (DISP_TIM_CLK_PCLK_KHZ n)
  let lanes := 2 ^ s.get (DISP_TIM_CLK_LANES n)
  let rate := match s.get (DISP_TIM_CLK_RATE n) with
    | 0 => 1620000
    | 1 => 2700000
    | 2 => 5400000
    | _ => 8100000
  let bpc := if s.flag (DISP_TIM_CLK_BPC n) then 10 else 8
  decide (320 ≤ h) && decide (h ≤ 5120) && decide (200 ≤ v) && decide (v ≤ 2160) && decide (h * v ≤ 8294400) &&
    decide (25000 ≤ p) && decide (p ≤ 600000) && decide (24 * ht * vt ≤ p * 1000) && decide (p * 10000 ≤ 601 * ht * vt) &&
    decide (p * 3 * bpc * 10 ≤ lanes * rate * 8)

/-- The rules of the display and capture island: every output and input that is not retired has its staged set judged, on or off
(R317, R341). -/
def State.stagedDisp (s : State) : Bool :=
  (List.range 4).all (fun n => s.isRetired (chDisp n) || s.timingOk n) &&
  (List.range 8).all (fun i => s.isRetired (chCam i) ||
    (decide (80 ≤ s.get (CAP_CSI_CFG_RATE_MBPS i)) && decide (s.get (CAP_CSI_CFG_RATE_MBPS i) ≤ 2500) &&
      s.get (CAP_CSI_CFG_LANES i) != 3)) &&
  (List.range 4).all (fun p => decide (8 ≤ s.get (CAP_TDM_CFG_SLOTS p)) && decide (s.get (CAP_TDM_CFG_SLOTS p) ≤ 16))

/-- The rules of R355. -/
def State.stagedSch (s : State) : Bool :=
  let f := s.get SCH_CFG_FRAME_US
  decide (1000 ≤ f) && decide (f ≤ 100000) && decide (s.get SCH_CFG_PHASE_US < f) &&
  decide (10 ≤ s.get SCH_CFG_DL_CHECK_US) && decide (s.get SCH_CFG_DL_CHECK_US ≤ 1000) &&
  (List.range 8).all (fun e =>
    let ws := (List.range 32).filter (fun w => s.flag (SCH_WIN_EN e w))
    ws.all (fun w =>
      let a := s.get (SCH_WIN_START_US e w)
      let b := a + s.get (SCH_WIN_LEN_US e w)
      decide (20 ≤ s.get (SCH_WIN_LEN_US e w)) && decide (b ≤ f) &&
        ws.all (fun x => x == w || decide (b ≤ s.get (SCH_WIN_START_US e x)) ||
          decide (s.get (SCH_WIN_START_US e x) + s.get (SCH_WIN_LEN_US e x) ≤ a)))) &&
  (List.range 4).all (fun n =>
    let len := s.get (SCH_DWIN_LEN_US n)
    !s.flag (SCH_DWIN_EN n) || (decide (20 ≤ len) && decide (len ≤ 50000) &&
      (!s.flagA (DISP_TIM_CLK_ENABLE n) || s.periodAbove n len)))

/-- The rules of R378. -/
def State.stagedQos (s : State) : Bool :=
  let us := s.get QOS_CFG_WIN_US
  decide (1 ≤ us) && decide (us ≤ 1000) &&
  (List.range 75).all (fun p => (List.range 3).all (fun c =>
    s.get (QOS_PORT_BUDGET p c) != 0 && decide (s.get (QOS_PORT_GUAR p c) ≤ s.get (QOS_PORT_BUDGET p c)))) &&
  decide (guarSum (fun p c => s.get (QOS_PORT_GUAR p c)) ≤ s.guarCap us)

/-- The rules of R437. -/
def State.stagedSaf (s : State) : Bool :=
  let t := s.get SAF_CFG_FTTI_MS
  let a := s.get SAF_CFG_ARR_SLOT_US
  let v := s.get SAF_CFG_VCL_SLOT_US
  decide (10 ≤ t) && decide (t ≤ 500) && decide (20 ≤ a) && decide (a ≤ 1000) && decide (5 ≤ v) && decide (v ≤ 1000) &&
    decide (a ≤ t * 250) && decide (v ≤ t * 250)

/-- The rules of R508. -/
def State.stagedBcn (s : State) : Bool :=
  !(s.get BCN_CFG_SRC == 2 && s.get BCN_CFG_PEER_ID == s.get LNK_CFG_DEV_ID) &&
    !(s.get BCN_CFG_SRC == 1 && (List.range 8).all (fun p => !s.flag (GW_ETH_PORT_AS_EN p)))

/-- Can the staged image be activated (R491): valid, preloaded, and each image able to read the other's handover. -/
def State.bootOk (s : State) (slot : Nat) : Bool :=
  match s.stageImg with
  | some (i, img) =>
    i == slot && s.get BOOT_STAT_PRELOAD == 2 && s.get (BOOT_SLOT_STATE slot) == 1 &&
      decide (imgHandoverMin img ≤ imgHandover s.runImg) && decide (imgHandover s.runImg ≤ imgHandover img)
  | none => false

/-- The rules of R491 on the whole staged set of island 36. -/
def State.stagedBoot (s : State) : Bool :=
  s.get BOOT_ACT_SLOT == s.getA BOOT_ACT_SLOT ||
    (s.bootOk (s.get BOOT_ACT_SLOT) && (s.dirtyKeys 36).all (· == BOOT_ACT))

/-- The rules of R547 and R548. -/
def State.stagedGw (s : State) : Bool :=
  let cyc (p : Nat) : Bool := decide (10000 ≤ s.get (GW_ETH_QBV_CYCLE_NS p)) && decide (s.get (GW_ETH_QBV_CYCLE_NS p) ≤ 1000000000)
  (List.range 8).all (fun p => !s.flag (GW_ETH_QBV_EN p) ||
    (cyc p && decide (1 ≤ s.get (GW_ETH_QBV_LEN p)) && decide (s.get (GW_ETH_QBV_LEN p) ≤ 256) &&
      (List.range (s.get (GW_ETH_QBV_LEN p))).all (fun i => decide (100 ≤ s.get (GW_GCL_INTERVAL_NS p i))))) &&
  (List.range 64).all (fun g => !s.flag (GW_SGATE_EN g) ||
    (cyc 0 && decide (1 ≤ s.get (GW_SGATE_LEN g)) && decide (s.get (GW_SGATE_LEN g) ≤ 64) &&
      (List.range (s.get (GW_SGATE_LEN g))).all (fun i => decide (100 ≤ s.get (GW_SGL_INTERVAL_NS g i)))))

/-- A staged clock that the island can take (R124, R276). -/
def State.stagedFreq (s : State) (e : Nat) : Bool :=
  let f := if e < 4 then s.get (ARR_CLK_CFG_FREQ_MHZ e) else s.get (VEC_CLK_CFG_FREQ_MHZ (e - 4))
  f % 5 == 0 && decide (200 ≤ f) && decide (f ≤ s.fmaxNow e)

/-- Is the staged set of an island valid? -/
def State.stagedOk (s : State) (isl : Nat) : Bool :=
  if isl < 4 then
    s.stagedFreq isl && decide (10 ≤ s.get (ARR_CHK_CFG_TOL_EXP isl)) && decide (s.get (ARR_CHK_CFG_TOL_EXP isl) ≤ 18) &&
      decide (s.get (ATT_CFG_PREFETCH isl) ≤ 4)
  else if isl < 8 then s.stagedFreq isl
  else if isl = 32 then s.stagedDisp
  else if isl = 33 then s.stagedGw
  else if isl = 36 then s.stagedSch && s.stagedQos && s.stagedSaf && s.stagedBcn && s.stagedBoot
  else true

/-- Islands whose staged set is empty (R33). -/
def unstaged (isl : Nat) : Bool :=
  (decide (8 ≤ isl) && decide (isl < 32)) || isl == 34 || isl == 35 || isl == 37

/-! ### Arm and cancel (R32, R33, R36) -/

/-- DONE with RESULT and what was missing; the PF message. -/
def State.modeDone (s : State) (result isl peer : Nat) : State :=
  let s := ((s.put TOP_MODE_STATUS_RESULT result).put TOP_MODE_STATUS_FIRST_MISSING isl).put TOP_MODE_STATUS_PEER_MISSING peer
  (s.put TOP_MODE_STATUS_DONE 1).pfIrq TOP_IRQ_VECTOR TOP_MODE_CTRL_IRQ_EN

/-- Why an arm is refused: the code of RESULT. -/
def State.armRefusal (s : State) : Option Nat :=
  let t := s.get TOP_MODE_TIME_TIME
  let u := s.get TOP_MODE_UNITS_UNITS
  if s.arm.isSome then some 5
  else if t < s.beacon + s.get TOP_MODE_CTRL_GUARD_US * 1000 + 10000 ∨ s.beacon + 10000000000 < t then some 4
  else if u = 0 ∨ 2 ^ 38 ≤ u ∨ (maskBits 38 u).any (fun i => !s.flag (TOP_ISL_MODE_PRESENT i)) then some 6
  else none

/-- An accepted arm. -/
def State.armCommit (s : State) : State :=
  let u := s.get TOP_MODE_UNITS_UNITS
  let gen := s.get TOP_MODE_CTRL_GEN
  let s := { s with arm := some {
    gen := gen, guardUs := s.get TOP_MODE_CTRL_GUARD_US, units := u, time := s.get TOP_MODE_TIME_TIME,
    peers := s.get TOP_MODE_PEERS_PEERS, frozen := none, ready := [], readySent := false } }
  let s := (s.put TOP_MODE_STATUS_STATE 1).put TOP_MODE_STATUS_LAST_GEN gen
  let s := (List.range 38).foldl (fun s i => s.put (TOP_ISL_MODE_ACK i) 0) s
  let s := (maskBits 38 u).foldl (fun s i =>
    let s := s.put (TOP_ISL_MODE_STAGED_GEN i) gen
    if unstaged i then s.put (TOP_ISL_MODE_ACK i) 1 else s) s
  s.wakeIsls (maskBits 38 u)

/-- A write of ARM = 1. -/
def State.tryArm (s : State) : State :=
  match s.armRefusal with
  | some r => s.modeDone r 0x3F 0x3F
  | none => s.armCommit

/-- A write of CANCEL = 1. -/
def State.cancelCommit (s : State) : State :=
  if s.arm.isNone then s
  else ({ s with arm := none }.put TOP_MODE_STATUS_STATE 0).modeDone 7 (s.get TOP_MODE_STATUS_FIRST_MISSING)
    (s.get TOP_MODE_STATUS_PEER_MISSING)

/-- A write of TOP_MODE_CTRL: the fields, then CANCEL, then ARM. -/
def State.writeModeCtrl (s : State) (v mask : Nat) : State :=
  let s := s.plainWrite TOP_MODE_CTRL v mask
  let s := if bitOf (Nat.land v mask) 25 then s.cancelCommit else s
  if bitOf (Nat.land v mask) 24 then s.tryArm else s

/-- ARM. -/
def execArm (rq : Requester) (v : Word32) (s : State) : Out :=
  .next (s.guarded rq TOP_MODE_CTRL (fun s => s.writeModeCtrl v.toNat mask32))

/-- CANCEL. -/
def execCancel (rq : Requester) (v : Word32) (s : State) : Out :=
  .next (s.guarded rq TOP_MODE_CTRL (fun s => s.writeModeCtrl v.toNat mask32))

/-- ISLAND_ACK: a participating island that is awake finishes validating; an invalid set is not acknowledged. -/
def execIslandAck (isl : Nat) (s : State) : Out :=
  .next (if s.armedFor isl && s.islOn isl && s.stagedOk isl then s.put (TOP_ISL_MODE_ACK isl) 1 else s)

/-! ### The cut-off and the instant (R34, R35, R37) -/

/-- The acknowledgements as they stand. -/
def State.ackMask (s : State) : Nat :=
  ((List.range 38).filter (fun i => s.flag (TOP_ISL_MODE_ACK i))).foldl (fun m i => m + 2 ^ i) 0

/-- READY to a peer (R528). -/
def State.sendReady (s : State) (a : Armed) (dev : Nat) : State :=
  match s.routePort dev 0 with
  | some p => s.txPkt p ⟨10, dev, 0, 0, 0, 0, a.gen, a.time, 0, false, 0, [], []⟩
  | none => s

/-- The cut-off: acknowledgements are frozen, READY is sent when all own islands have acknowledged. -/
def State.cutOff (s : State) : State :=
  match s.arm with
  | none => s
  | some a =>
    if a.frozen.isSome then s else
    let m := s.ackMask
    let all := Nat.land m a.units == a.units
    let s := { s with arm := some { a with frozen := some m, readySent := all && a.peers != 0 } }
    if all then (maskBits 64 a.peers).foldl (fun s d => s.sendReady a d) s else s

/-- ACK_CUTOFF. -/
def execAckCutoff (s : State) : Out :=
  .next (match s.arm with
    | some a => if a.time ≤ s.beacon + a.guardUs * 1000 then s.cutOff else s
    | none => s)

/-- PEER_READY: a READY with the generation of the armed commit. -/
def execPeerReady (dev gen : Nat) (s : State) : Out :=
  .next (match s.arm with
    | some a =>
      if a.gen = gen ∧ bitOf a.peers dev ∧ ¬ a.ready.contains dev then { s with arm := some { a with ready := a.ready ++ [dev] } }
      else s
    | none => s)

/-- The staged copy of an island becomes active. -/
def State.activate (s : State) (isl : Nat) : State :=
  let s := (s.stagedKeys isl).foldl (fun s k => s.setAct k (s.reg k)) s
  (s.put (TOP_ISL_MODE_ACTIVE_GEN isl) (s.get (TOP_ISL_MODE_STAGED_GEN isl))).put (TOP_ISL_MODE_DIRTY isl) 0

/-- STATE of Beacon, with STATE_CHG and its message (R506, R521). -/
def State.bcnState (s : State) (n : Nat) : State :=
  if s.get BCN_STATUS_STATE = n then s
  else ((s.put BCN_STATUS_STATE n).put BCN_EVT_STATE_CHG 1).pfIrq BCN_IRQ_VECTOR BCN_IRQ_EN

/-- A change of source or domain (R508, R512). -/
def State.bcnSource (s : State) (changed : Bool) : State :=
  let s := s.put BCN_STATUS_SRC_ACTIVE (s.getA BCN_CFG_SRC)
  if changed then
    ({ s with bcn := { s.bcn with refused := false, lastC := s.c } }.put BCN_GM_ID_ID 0).bcnState 0
  else s

/-- The pause of an activation begins (R493). -/
def State.beginPause (s : State) (slot : Nat) : State :=
  { (s.put TOP_FW_STAT_READY 0).put TOP_FW_STAT_PAUSE 1 with actv := some ⟨slot, s.c⟩ }

/-- Display outputs whose timing changes: blanked, then trained where enabled with a sink (R317). -/
def State.retime (s : State) (n : Nat) : State :=
  let s := s.dispDark n
  s.put (DISP_STAT_LINK n)
    (if s.flagA (DISP_TIM_CLK_ENABLE n) && s.flag (DISP_STAT_HPD n) && !s.isRetired (chDisp n) then 1
     else if s.isRetired (chDisp n) then s.get (DISP_STAT_LINK n) else 0)

/-- First cycle start of a gate list at or after `t` (R547). -/
def cycleFrom (base cyc t : Nat) : Nat :=
  if cyc = 0 then t else t + ((base : Int) - (t : Int)).emod cyc |>.toNat

/-- The port whose gating a register of the gateway's lists serves; 8 for the stream gates. -/
def gatePort (k : Nat) : Nat :=
  if k < 0x1340000 then (k - 0x1303000) / 256 else if k < 0x1350000 then (k - 0x1340000) / 2048 else 8

/-- A commit of the gateway's lists: the old ones stay in operation until the first cycle start. -/
def State.switchGates (s : State) (old : SMap Word64) : State :=
  let later (p : Nat) : Bool := decide (s.beacon + 1 < mget (fun _ => 0) s.gw.swT p)
  let kept := s.gw.live.filter (fun e => later (gatePort e.1))
  let live := (old.filter (fun e => stagedIsland e.1 == some 33 && !later (gatePort e.1))).foldl (fun m e => mins e.1 e.2 m) kept
  { s with gw := { s.gw with
      live := live
      swT := (List.range 9).foldl (fun m p => mset (fun _ => 0) m p
        (1 + cycleFrom (s.getA (GW_ETH_QBV_BASE_BASE (p % 8))) (s.getA (GW_ETH_QBV_CYCLE_NS (p % 8))) s.beacon)) s.gw.swT } }

/-- What a commit of one island brings about, given the active copies before it. -/
def State.committed (s : State) (old : SMap Word64) (isl : Nat) : State :=
  let changed (k : Nat) : Bool := mget regReset old k != s.act k
  if isl < 8 then s.refreshClk isl
  else if isl = 32 then
    let s := ((List.range 4).filter (fun n => changed (DISP_TIM_H n) || changed (DISP_TIM_V n) || changed (DISP_TIM_CLK n))).foldl
      State.retime s
    let s := ((List.range 4).filter (fun n => !bitOf (mget regReset old (DISP_TIM_CLK n)).toNat 25 &&
      s.flagA (DISP_TIM_CLK_ENABLE n))).foldl (fun s n => s.put (DISP_STAT_FRAME n) 0) s
    let ps := (List.range 4).filter (fun p => changed (CAP_TDM_CFG p))
    { s with tdm := ps.foldl (fun m p => mdel p m) s.tdm, tdmT0 := ps.foldl (fun m p => mdel p m) s.tdmT0 }
  else if isl = 33 then s.switchGates old
  else if isl = 36 then
    let was (f : Fref) : Nat := bitsOf (mget regReset old f.off).toNat f.lo f.w
    let s := s.refreshQos.bcnSource (was BCN_CFG_SRC != s.getA BCN_CFG_SRC || was BCN_CFG_DOMAIN != s.getA BCN_CFG_DOMAIN)
    let s := if was SAF_CFG_FTTI_MS ≠ s.getA SAF_CFG_FTTI_MS then { s with fttiFrom := s.beacon } else s
    if was BOOT_ACT_SLOT ≠ s.getA BOOT_ACT_SLOT then s.beginPause (s.getA BOOT_ACT_SLOT) else s
  else s

/-- The outcome at the instant (R35). -/
def State.commitNow (s : State) : State :=
  let s := s.cutOff
  match s.arm with
  | none => s
  | some a =>
    let m := a.frozen.getD 0
    let s := { s with arm := none }.put TOP_MODE_STATUS_STATE 0
    let ends (s : State) (result isl peer : Nat) : State :=
      (s.emitPlain 36 0x0E result a.gen).modeDone result isl peer
    let aborted (s : State) : State :=
      if bitOf a.units 36 && s.get BOOT_ACT_SLOT != s.getA BOOT_ACT_SLOT then s.put BOOT_STAT_ACT_RESULT 4 else s
    match (maskBits 38 a.units).find? (fun i => !bitOf m i) with
    | some i => ends (aborted s) 2 i 0x3F
    | none =>
      match (maskBits 64 a.peers).find? (fun d => !a.ready.contains d) with
      | some d => ends (aborted s) 3 0x3F d
      | none =>
        let old := s.active
        let s := (maskBits 38 a.units).foldl State.activate s
        ends ((maskBits 38 a.units).foldl (fun s i => s.committed old i) s) 1 0x3F 0x3F

/-- COMMIT_INSTANT. -/
def execCommitInstant (s : State) : Out :=
  .next (match s.arm with
    | some a => if a.time ≤ s.beacon then s.commitNow.settle else s
    | none => s)

end Sys2Proof.Machine
end

