-- ==== Sys2Proof/Machine/Keeper.lean ====
section
/-!
DEFINITION. Keeper pairs: ownership of queue blocks, crashes, takeover and restart (R422 to R426, R473 to R477, R498).
-/

namespace Sys2Proof.Machine

def State.pairSt (s : State) (p : Nat) : Nat := s.get (KPR_PAIR_STAT_STATE p)

/-- Online pairs, ascending. -/
def State.pairsOn (s : State) : List Nat := (List.range 4).filter (fun p => s.pairSt p == 2)

/-- The pair that owns block `b`. -/
def State.blockOwner (s : State) (b : Nat) : Nat := bitsOf (s.get (KPR_QOWN_OWNER (b / 32))) (2 * (b % 32)) 2

def State.setOwner (s : State) (b p : Nat) : State :=
  s.put (KPR_QOWN_OWNER (b / 32)) (putBits (s.get (KPR_QOWN_OWNER (b / 32))) (2 * (b % 32)) 2 p)

/-- Blocks that a pair owns, while it is online. -/
def State.blocksOf (s : State) (p : Nat) : Nat :=
  if s.pairSt p = 2 then ((List.range 256).filter (fun b => s.blockOwner b == p)).length else 0

/-- BLOCKS of every pair, and PAIRS of SAF_STATUS. -/
def State.refreshPairs (s : State) : State :=
  let s := (List.range 4).foldl (fun s p => s.put (KPR_PAIR_STAT_BLOCKS p) (s.blocksOf p)) s
  s.put SAF_STATUS_PAIRS s.pairsOn.length

/-- The owner of a block by the spread of R473. -/
def State.spreadOwner (s : State) (b : Nat) : Nat :=
  let on := s.pairsOn
  nth 0 on (b % max 1 on.length)

/-- The distribution at start-up. -/
def State.spreadAll (s : State) : State :=
  ((List.range 256).foldl (fun s b => s.setOwner b (s.spreadOwner b)) s).refreshPairs

/-- The online pair that owns the fewest blocks, the lower on a tie. -/
def State.fewest (s : State) : Option Nat :=
  s.pairsOn.foldl (fun m p => match m with
    | none => some p
    | some q => if s.blocksOf p < s.blocksOf q then some p else some q) none

/-- The takeover of a pair's blocks (R476); with no pair left, KPR_ALL_LOST (R425). It is complete in the step that
shows the crash, so TOOK_US is 0. `inj`: an injected mismatch caused it. -/
def State.takeover (s : State) (p cause : Nat) (inj : Bool) : State :=
  let mine := (List.range 256).filter (fun b => s.blockOwner b == p)
  match s.fewest with
  | none => (s.safety 9 36 0 inj).refreshPairs
  | some t =>
    let s := mine.foldl (fun s b => s.setOwner b t) s
    let s := ((((s.put KPR_TAKE_LOG0_FROM p).put KPR_TAKE_LOG0_TO t).put KPR_TAKE_LOG0_CAUSE cause).put
      KPR_TAKE_LOG0_BLOCKS mine.length).put KPR_TAKE_LOG0_TOOK_US 0
    let s := (s.put KPR_TAKE_LOG1_TIME s.beacon).bump KPR_CNT_TAKEOVER_COUNT 1
    let s := (s.emitPlain 36 0x0A 1 (p + 4 * t)).refreshPairs
    if s.flag DBG_HANG_CFG_DUMP_ON_TAKE then s.startDump 2 63 0 else s

/-- A pair is held offline until cold reset (R424, R425). -/
def State.holdPair (s : State) (p : Nat) (inj : Bool) : State := (s.put (KPR_PAIR_STAT_STATE p) 4).safety 8 36 p inj

/-- An online pair crashes (R475): causes 0 lockstep, 1 trap, 2 heartbeat. -/
def State.crashPair (s : State) (p cause : Nat) (inj : Bool) : State :=
  if s.pairSt p ≠ 2 then s else
  let s := (s.put (KPR_PAIR_STAT_STATE p) 3).bump (KPR_PAIR_STAT_RESTARTS p) 1
  let n := if cause = 0 then mget (fun _ => 0) s.pairRuns p + 1 else 0
  let s := { s with pairRuns := mset (fun _ => 0) s.pairRuns p n }
  let s := if cause = 0 then (s.transient (chPair p)).safety 7 36 p inj else s
  let often := decide (s.get SAF_CTL_RATE_CNT ≤ (mget (fun _ => []) s.transients (chPair p)).length)
  let s := if cause = 0 && (decide (s.get SAF_CTL_ATTEMPTS ≤ n) || often) then s.holdPair p inj else s
  (s.takeover p cause inj).settle

/-- LOCKSTEP_MISMATCH (R423). -/
def execLockstepMismatch (p : Nat) (s : State) : Out := .next (s.crashPair p 0 false)

/-- PAIR_TRAP (R475). -/
def execPairTrap (p : Nat) (s : State) : Out := .next (s.crashPair p 1 false)

/-- PAIR_HEARTBEAT_TIMEOUT (R475). -/
def execPairHeartbeatTimeout (p : Nat) (s : State) : Out := .next (s.crashPair p 2 false)

/-- PAIR_ONLINE: the comparator check of R424 passed, or failed. Blocks without an online owner go to the pair. -/
def execPairOnline (p : Nat) (ok : Bool) (s : State) : Out :=
  .next (if (s.pairSt p ≠ 1 ∧ s.pairSt p ≠ 3) ∨ s.dead then s
    else if !ok then (s.holdPair p false).refreshPairs
    else
      let s := s.put (KPR_PAIR_STAT_STATE p) 2
      let s := (List.range 256).foldl (fun s b => if s.pairSt (s.blockOwner b) = 2 then s else s.setOwner b p) s
      s.refreshPairs.settle)

/-- BLOCK_MOVE: one block moves towards the spread of R473 while none of its descriptors is FETCHED (R477). -/
def execBlockMove (b p : Nat) (s : State) : Out :=
  .next (if s.pairSt p = 2 ∧ s.spreadOwner b = p ∧ s.blockOwner b ≠ p ∧
      ¬ s.descs.any (fun d => d.q / 64 == b && [DPhase.fetched, .waiting, .ready].contains d.phase) then
    (s.setOwner b p).refreshPairs
  else s)

end Sys2Proof.Machine
end

