-- ==== Sys2Proof/Machine/Saf.lean ====
section
/-!
DEFINITION. FTTI windows, golden tests, checksum disagreements, the safety watchdog, injections and the safety status target
(R407 to R421, R427 to R441).
-/

namespace Sys2Proof.Machine

/-! ### Retirement of a scheduled engine (R30, R130) -/

/-- An array or cluster is retired: what it held completes with UNIT_RETIRED, accumulator memory is gone. -/
def State.retireEngine (s : State) (e why : Nat) (inj : Bool) : State :=
  let s := { s.retireBy e why inj with gold := mset (fun _ => none) s.gold e none, seq := s.seq + 1 }
  let s := (s.descs.filter (fun d => d.phase == .dispatched && d.parts.any (fun p => p.isl == e && p.st != .done))).foldl
    (fun s d =>
      let s := (d.parts.filter (fun p => p.isl == e)).foldl (fun s p => s.countBusy d p) s
      s.updDesc d.id (fun d => d.loseParts (fun i => i == e) s.seq)) s
  let lo := accBase + e * 0x200000
  let s := if e < 4 then { s with mem := mclear lo (lo + 0x200000) s.mem
                                  tags := mclear (lo / 32) ((lo + 0x200000) / 32) s.tags
                                  ecc := mclear (lo / 32) ((lo + 0x200000) / 32) s.ecc }
    else s
  s.settle

/-! ### The checker rotation (R417, R418, R424) -/

/-- The island of each checker that step `k` of the rotation tests; Keeper comparators are tested by pair. -/
def rotCheckers : Nat → List Nat
  | 0 => (List.range 16).map (fun i => 8 + i)
  | 1 => (List.range 16).map (fun i => 24 + i % 8)
  | 2 => (List.range 48).map (fun r => 8 + r / 3) ++ List.range 38 ++ List.replicate 8 34
  | 3 => List.range 4 ++ (List.range 24).map (fun i => 8 + i)
  | 5 => List.replicate 20 32
  | 6 => (List.range 4).map (fun i => 4 + i) ++ List.range 4
  | 7 => List.range 38 ++ [36]
  | _ => []

/-- The comparators of each online pair are tested; a pair that fails is held offline, and another takes its blocks. -/
def State.rotPairs (s : State) : State :=
  s.pairsOn.foldl (fun s p =>
    if Config.checkerFault s.fresh then ((s.freshen 1).holdPair p false).takeover p 0 false else s.freshen 1) s

/-- One step of the rotation. -/
def State.rotation (s : State) (k : Nat) : State :=
  if k % 8 = 4 then s.rotPairs
  else ((List.range (rotCheckers (k % 8)).length).zip (rotCheckers (k % 8))).foldl (fun s (i, e) =>
    if Config.checkerFault s.fresh then (s.freshen 1).safety 6 e (64 * (k % 8) + i) false else s.freshen 1) s

/-! ### The safety cycle (R407 to R409) -/

def State.fttiNs (s : State) : Nat := max 1 (s.getA SAF_CFG_FTTI_MS) * 1000000

/-- Index of the current window. -/
def State.fttiWin (s : State) : Nat := s.fttiT / s.fttiNs

/-- SEQ advances once no slot of the window is left. -/
def State.cycleEnd (s : State) : State :=
  if !s.cycle || (List.range 8).any (fun e => match mget (fun _ => none) s.gold e with
      | some g => g.slot
      | none => false) then s
  else
    { s.put SAF_STATUS_SEQ (s.get SAF_STATUS_SEQ + 1) with
    cycle := false, seqC := s.c, seqT := s.beacon, seqF := s.getA SAF_CFG_FTTI_MS, wdgHit := false }

/-- SAF_CHK_HIST[a].COUNT: the disagreements within the span that ends with the current window (R419, R441). -/
def State.refreshHist (s : State) (a : Nat) : State :=
  let keep := (mget (fun _ => []) s.chkHist a).filter (fun x => decide (s.fttiWin < x + s.get SAF_CTL_CHK_M))
  { s with chkHist := mset (fun _ => []) s.chkHist a keep }.put (SAF_CHK_HIST_COUNT a) (satN 4 keep.length)

/-- A window begins at Beacon time `t`: slots of the awake islands, the others tested when they wake (R413, R415), and the
window's step of the rotation. -/
def State.openFtti (s : State) (t : Nat) : State :=
  let s := (List.range 4).foldl State.refreshHist { s with
    fttiT := t, slotT := t, fttiFrom := 0, cycle := true }
  let s := (List.range 8).foldl (fun s e =>
    if s.isRetired e then s
    else if s.islOn e then (s.wantGold e true false).goldStart e
    else { s with wakeTest := if s.wakeTest.contains e then s.wakeTest else s.wakeTest ++ [e] }) s
  (s.rotation s.fttiWin).cycleEnd.settle

/-- The latest boundary. -/
def State.fttiEdge (s : State) : Nat := s.beacon / s.fttiNs * s.fttiNs

/-- Has a boundary come since the window's start? -/
def State.fttiDue (s : State) : Bool :=
  s.flag SAF_STATUS_SAFETY_READY && s.fwRuns && decide (s.fttiT < s.fttiEdge) && decide (s.fttiFrom ≤ s.fttiEdge)

/-- FTTI_WINDOW_START. -/
def execFttiWindowStart (s : State) : Out := .next (if s.fttiDue then s.openFtti s.fttiEdge else s)

/-- A window that fell due in an activation pause: its slots open now (R495). -/
def State.lateFtti (s : State) : State :=
  if s.fttiDue then { s.openFtti s.fttiEdge with slotT := s.beacon } else s

/-- SAFETY_WATCHDOG_EXPIRY (R409). -/
def execSafetyWatchdogExpiry (s : State) : Out :=
  .next (if !s.flag SAF_STATUS_SAFETY_READY || s.wdgHit ||
      decide (s.c < s.seqC + msTicks (s.seqF + s.getA SAF_CFG_FTTI_MS)) then s
    else ({ s with wdgHit := true }.safety 14 36 0 false))

/-! ### Golden tests (R410 to R416, R419, R420) -/

/-- The end of one engine's test for the SAF_GOLDEN_RUN descriptors that name it (R435). -/
def State.reqDone (s : State) (e : Nat) (failed : Bool) : State :=
  let rs := s.gtReq.map (fun (r : Nat × Nat × Nat) =>
    if bitOf r.2.1 e then (r.1, r.2.1 - 2 ^ e, if failed then Nat.lor r.2.2 (2 ^ e) else r.2.2) else r)
  let fin := rs.filter (fun r => r.2.1 == 0)
  let s := { s with gtReq := rs.filter (fun r => r.2.1 != 0), seq := s.seq + 1 }
  fin.foldl (fun s r => s.finishPart r.1 36 (if r.2.2 = 0 then 0 else 0xCC) r.2.2) s

/-- A disagreement whose rerun passed (R419): history and classification. -/
def State.disagree (s : State) (a : Nat) (inj : Bool) : State :=
  let s := s.safety 0 a 0 inj
  let w := s.fttiWin
  let s := State.refreshHist { s with chkHist := mset (fun _ => []) s.chkHist a (w :: mget (fun _ => []) s.chkHist a) } a
  let s := s.put (SAF_CHK_HIST_LAST_WIN a) w
  if s.get SAF_CTL_CHK_N ≤ (mget (fun _ => []) s.chkHist a).length then s.retireEngine a 1 inj else s

/-- GOLDEN_TEST_END: one run of the test of engine `e` has passed or failed. -/
def execGoldenTestEnd (e : Nat) (pass : Bool) (s : State) : Out :=
  .next (match mget (fun _ => none) s.gold e with
    | none => s
    | some g =>
      if !g.live then s else
      let k := mget (fun _ => 0) s.gtInject e
      let s := { s with gtInject := mset (fun _ => 0) s.gtInject e (k - 1) }
      let ok := pass && k == 0
      let inj := g.inj || k != 0
      let clocks := s.islClocks e (s.c - g.startC)
      let stat (s : State) (r : Nat) : State :=
        ((s.put (SAF_GT_STAT_RESULT e) r).put (SAF_GT_STAT_CLOCKS e) (satN 16 clocks)).put (SAF_GT_STAT_WIN e) s.fttiWin
      let s := if ok then s else s.transient e
      if ok then
        let s := stat { s with gold := mset (fun _ => none) s.gold e none } 1
        let s := if g.runs ≠ 0 then s.safety 1 e 0 inj else s
        let s := s.reqDone e false
        (if g.rerun then s.disagree e g.chkInj else s).cycleEnd.settle
      else if s.get SAF_CTL_ATTEMPTS ≤ g.runs + 1 then
        ((State.retireEngine (stat s 2) e 2 inj).reqDone e true).cycleEnd.settle
      else if s.rateHit e then
        ((State.retireEngine (stat s 2) e 3 inj).reqDone e true).cycleEnd.settle
      else { s with gold := mset (fun _ => none) s.gold e (some { g with runs := g.runs + 1, inj := inj }) })

/-- GOLDEN_SLOT_END: a test that has not ended is abandoned (R414). -/
def execGoldenSlotEnd (e : Nat) (s : State) : Out :=
  .next (match mget (fun _ => none) s.gold e with
    | none => s
    | some g =>
      let us := if e < 4 then s.getA SAF_CFG_ARR_SLOT_US else s.getA SAF_CFG_VCL_SLOT_US
      if !g.slot || decide (s.beacon < s.slotT + us * 1000) then s else
      let s := { s with gold := mset (fun _ => none) s.gold e none }
      let s := ((s.put (SAF_GT_STAT_RESULT e) 3).put (SAF_GT_STAT_CLOCKS e) (satN 16 (s.islClocks e (s.c - g.startC)))).put
        (SAF_GT_STAT_WIN e) s.fttiWin
      let s := s.safety 5 e 0 false
      let s := if g.rerun then (s.wantGold e false true).goldStart e else s
      (s.reqDone e false).cycleEnd.settle)

/-! ### Opcodes (R434, R435) -/

/-- SAF_GOLDEN_RUN. -/
def execSafGoldenRun (d : Nat) (s : State) : Out :=
  .next (match s.desc? d with
    | none => s
    | some x =>
      if !x.runnable 0xE8 || x.step != 0 then s
      else if s.qFn x.q ≠ 0 then ({ s with seq := s.seq + 1 }.finishPart d 36 0xCD 0).settle
      else
        let m := x.u 16 1
        let s := s.updDesc d (fun x => { x with step := 1 })
        let es := (maskBits 8 m).filter (fun e => !s.isRetired e)
        let s := { s with gtReq := s.gtReq ++ [(d, es.foldl (fun m e => m + 2 ^ e) 0, 0)] }
        let s := es.foldl (fun s e => (s.wantGold e false false).goldStart e) s
        if es.isEmpty then (s.reqDone 0 false).settle else s)

/-- What the engine of 0xE9 does (see execSafInject). -/
def workSafInject (x : Desc) : Eng (Nat × Nat) := do
    let s ← eGet
    if s.qFn x.q ≠ 0 || !s.flag SAF_CTL_INJECT_EN then eFail 0xCD 0
    let t := injTarget x
    match injKind x with
    | 0 => eMod (fun s => { s with chkInject := mset (fun _ => 0) s.chkInject t (injCount x) })
    | 3 => eMod (fun s => s.crashPair t 0 true)
    | 4 => eMod (fun s => { s with gtInject := mset (fun _ => 0) s.gtInject t (injCount x) })
    | k =>
      match spaceOf x.a24, s.addrError x.a24 32 with
      | .peer _, _ => eFail 0x20 x.a24
      | .host, _ => eFail 0x20 x.a24
      | _, some y => eFail 0x20 y
      | _, none => eMod (fun s => s.setEcc (x.a24 / 32) (some (injectedErr (k + 1))))
    return (0, 0)

/-- SAF_INJECT. -/
def execSafInject (d : Nat) (s : State) : Out := .next (s.ownWork d 0xE9 36 workSafInject)

/-! ### SAF_EVT and the status target (R430, R432, R433) -/

def State.clearPend (s : State) (m : Nat) : State :=
  (s.put SAF_EVT_PEND (s.get SAF_EVT_PEND - Nat.land (s.get SAF_EVT_PEND) m)).refreshSafe

/-- SAF_EVT_CLEAR. -/
def execSafEvtClear (rq : Requester) (v : Word32) (s : State) : Out :=
  .next (s.guarded rq SAF_EVT (fun s => s.clearPend v.toNat))

/-- The status block. -/
def State.sstBlock (s : State) : List Byte :=
  let mask (n : Nat) (k : Nat → Nat) : Nat := ((List.range n).filter (fun i => s.isRetired (k i))).foldl (fun m i => m + 2 ^ i) 0
  let st := s.get SAF_STATUS_SAFETY_READY + 2 * s.get SAF_STATUS_FAULT + 4 * s.get SAF_STATUS_SAFE_REQ + 8 * s.get SAF_STATUS_DEBUG
  let body := leBytes 4 (0x5346 + 0x10000) ++ leBytes 4 (s.get SAF_STATUS_SEQ) ++
    leBytes 4 (st + 16 * s.get SAF_STATUS_PAIRS) ++ leBytes 4 (s.get SAF_EVT_PEND) ++
    leBytes 4 (mask 4 (fun i => i) + mask 4 (fun i => 4 + i) * 16 + mask 8 (fun i => chIsl (24 + i)) * 256 +
      mask 4 chDisp * 2 ^ 16 + mask 8 chCam * 2 ^ 20) ++
    leBytes 4 (mask 16 chCan + mask 16 chDma * 2 ^ 16) ++ leBytes 8 s.seqT ++
    leBytes 4 (s.get SAF_FIRST_LOG0_CODE + 32 * s.get SAF_FIRST_LOG0_ISLAND) ++ List.replicate 24 0
  body ++ leBytes 4 (crc32c body)

/-- SST_FAST_READ: the block is latched once. -/
def execSstFastRead (s : State) : Out := .next (if s.dead then s else { s with sst := s.sstBlock })

/-- SST_WRITE: four bytes to address 0x40, with ACK_EN. -/
def execSstWrite (off : Nat) (bytes : List Byte) (s : State) : Out :=
  .next (if s.dead || off != 0x40 || bytes.length != 4 || !s.flag SAF_CTL_ACK_EN then s else s.clearPend (leNat bytes))

end Sys2Proof.Machine
end

