-- ==== Sys2Proof/Machine/Beacon.lean ====
section
/-!
DEFINITION. Beacon time: rate, steps and their effects, sources and the servo, trigger comparators and pulses (R500 to R522).
-/

namespace Sys2Proof.Machine

/-- BCN_EVT bit with its message. -/
def State.bcnEvt (s : State) (f : Fref) : State := (s.put f 1).pfIrq BCN_IRQ_VECTOR BCN_IRQ_EN

/-! ### Trigger comparators (R514 to R517) -/

def State.trigNext (s : State) (n : Nat) : Option Nat := mget (fun _ => none) s.bcn.next n

def State.setTrig (s : State) (n : Nat) (t : Option Nat) : State :=
  { s with bcn := { s.bcn with next := mset (fun _ => none) s.bcn.next n t } }

/-- First instant of a periodic comparator at or after `t`. -/
def State.trigFrom (s : State) (n t : Nat) : Nat :=
  let a := s.get (BCN_TRIG_W0_TIME n)
  let p := max 1 (s.get (BCN_TRIG_W1_PERIOD_NS n))
  if t ≤ a then a else a + (t - a + p - 1) / p * p

/-- A pulse output goes active for its width (R518). -/
def State.startPulse (s : State) (k : Nat) : State :=
  { s with out := { s.out with bcnOut := putNth s.out.bcnOut k true }
           bcn := { s.bcn with pulse := mset (fun _ => 0) s.bcn.pulse k (s.c + usTicks (s.get (BCN_PULSE_WIDTH_US k)) + 1) } }

/-- Level of a CAM_FSYNC pin: high for 1 µs from each firing (R331). -/
def State.camFsyncHigh (s : State) (i : Nat) : Bool := decide (s.c + 1 < mget (fun _ => 0) s.fsyncEnd i)

/-- A firing drives every consumer that names the comparator: frame-sync pins, audio start and pulses. -/
def State.trigConsumers (s : State) (n : Nat) : State :=
  let s := ((List.range 8).filter (fun i => s.flagA (CAP_CSI_CFG_FSYNC_EN i) && s.getA (CAP_CSI_CFG_FSYNC_TRIG i) == n &&
      !s.isRetired (chCam i))).foldl (fun s i =>
    { s with fsync := mset (fun _ => 0) s.fsync i s.beacon
             fsyncEnd := mset (fun _ => 0) s.fsyncEnd i (s.c + usTicks 1 + 1)
             out := { s.out with camFsync := mset (fun _ => 0) s.out.camFsync i (mget (fun _ => 0) s.out.camFsync i + 1) } }) s
  let s := ((List.range 4).filter (fun p => s.flagA (CAP_TDM_CFG_EN p) && s.flagA (CAP_TDM_CFG_PROVIDER p) &&
      s.getA (CAP_TDM_CFG_START_TRIG p) == n && mget (fun _ => 0) s.tdm p == 0)).foldl (fun s p =>
    { s with tdm := mset (fun _ => 0) s.tdm p 1, tdmT0 := mset (fun _ => 0) s.tdmT0 p (s.beacon + 1) }) s
  ((List.range 8).filter (fun k => s.flag (BCN_PULSE_EN k) && s.get (BCN_PULSE_TRIG k) == n)).foldl State.startPulse s

/-- One firing of comparator `n`. -/
def State.fire (s : State) (n : Nat) (late : Bool) : State :=
  let s := (s.put (BCN_TRIG_W3_LAST n) s.beacon).put ⟨BCN_TRIG_STAT, n, 1⟩ 1
  let s := if late then (s.put (BCN_TRIG_W2_LATE n) 1).bcnEvt BCN_EVT_LATE else s
  let s := if s.flag (BCN_TRIG_W2_IRQ n) then s.pfIrq BCN_IRQ_VECTOR BCN_IRQ_EN else s
  let s := if s.flag (BCN_TRIG_W2_SNAP n) then s.snapshot else s
  s.trigConsumers n

/-- COMPARATOR_FIRE: Beacon time has reached the comparator's next instant. -/
def execComparatorFire (n : Nat) (s : State) : Out :=
  .next (match s.trigNext n with
    | none => s
    | some t =>
      if s.beacon < t ∨ s.dead then s
      else
        let nxt := if s.flag (BCN_TRIG_W2_MODE n) then some (t + max 1 (s.get (BCN_TRIG_W1_PERIOD_NS n))) else none
        (s.setTrig n nxt).fire n false)

/-- The device acts on a new setting at once (R515). -/
def State.rearm (s : State) (n : Nat) : State :=
  if !s.flag (BCN_TRIG_W2_EN n) then s.setTrig n none
  else if s.flag (BCN_TRIG_W2_MODE n) then s.setTrig n (some (s.trigFrom n s.beacon))
  else if s.get (BCN_TRIG_W0_TIME n) < s.beacon then (s.setTrig n none).fire n true
  else s.setTrig n (some (s.get (BCN_TRIG_W0_TIME n)))

/-- Offset of a word of a comparator. -/
def trigOff (n word : Nat) : Nat := BCN_TRIG_W0 n + 8 * word

/-- A write of a comparator: those of firmware take no BAR0 write (R517). -/
def State.writeTrig (s : State) (rq : Requester) (n word v mask : Nat) : State :=
  if 48 ≤ n ∧ rq ≠ .keeper ∧ rq ≠ .lantern then s.unmapped
  else
    let was := s.flag (BCN_TRIG_W2_EN n)
    let mode := s.flag (BCN_TRIG_W2_MODE n)
    let s := s.plainWrite (trigOff n word) v mask
    let on := s.flag (BCN_TRIG_W2_EN n)
    let again := on && (!was || word == 0 || (word == 1 && decide (1000 ≤ v)) || s.flag (BCN_TRIG_W2_MODE n) != mode)
    if again || !on then s.rearm n else s

/-- COMPARATOR_WRITE. -/
def execComparatorWrite (rq : Requester) (n word : Nat) (v : Word64) (s : State) : Out :=
  .next (s.guarded rq (trigOff n word) (fun s => s.writeTrig rq n word v.toNat mask64))

/-- PULSE_END. -/
def execPulseEnd (k : Nat) (s : State) : Out :=
  .next (
    let e := mget (fun _ => 0) s.bcn.pulse k
    if e = 0 ∨ s.c + 1 < e then s
    else { s with out := { s.out with bcnOut := putNth s.out.bcnOut k false }
                  bcn := { s.bcn with pulse := mset (fun _ => 0) s.bcn.pulse k 0 } })

/-! ### Steps (R511, R513, R516) -/

/-- Comparators across a step from `old` to the present Beacon time. -/
def State.stepTrig (s : State) (old n : Nat) : State :=
  match s.trigNext n with
  | none => s
  | some t =>
    let now := s.beacon
    if s.flag (BCN_TRIG_W2_MODE n) then
      let nxt := s.trigFrom n (now + 1)
      let s := s.setTrig n (some nxt)
      if old ≤ now ∧ t < nxt then s.bump (BCN_TRIG_W2_SKIPPED n) ((nxt - t) / max 1 (s.get (BCN_TRIG_W1_PERIOD_NS n))) else s
    else if t < now then (s.setTrig n none).fire n true
    else s

/-- Apply a step of a signed DELTA. -/
def State.applyStep (s : State) (delta : Nat) : State :=
  let old := s.beacon
  let s := (s.put BCN_OFFSET_OFFSET (s.get BCN_OFFSET_OFFSET + delta)).bump (BCN_CNT_STEP_COUNT 0) 1
  let s := (List.range 64).foldl (fun s n => s.stepTrig old n) s
  let s := match s.arm with
    | some a => if a.time ≤ s.beacon then s.commitNow else s
    | none => s
  let s := s.newWindow
  if s.flag SAF_STATUS_SAFETY_READY && s.fwRuns then s.openFtti s.beacon else s.settle

/-- Size of a signed 64-bit DELTA. -/
def absDelta (d : Nat) : Nat := if 2 ^ 63 ≤ d then 2 ^ 64 - d else d

/-- An unforced step: refused beyond LIMIT_NS. The Boolean says that it was applied. -/
def State.unforced (s : State) (delta : Nat) : State × Bool :=
  if s.get BCN_JUMP_LIMIT_LIMIT_NS < absDelta delta then
    let s := (s.bump (BCN_CNT_STEP_COUNT 1) 1).bcnEvt BCN_EVT_REFUSED
    ({ s with bcn := { s.bcn with refused := true } }.bcnState 2, false)
  else (s.applyStep delta, true)

/-- A forced step is never refused. -/
def State.forced (s : State) (delta : Nat) : State :=
  let s := ((s.bump (BCN_CNT_STEP_COUNT 2) 1).bcnEvt BCN_EVT_FORCED).applyStep delta
  { s with bcn := { s.bcn with refused := false } }

/-- A write of BCN_STEP_CTL (R505, R511, R520). A step of the host is a correction; HOLDOVER ends only with one within the jump
limit (R506). -/
def State.writeStepCtl (s : State) (rq : Requester) (v : Nat) : State :=
  let src := s.get BCN_STATUS_SRC_ACTIVE
  let near := decide (absDelta (s.get BCN_STEP_DELTA_DELTA) ≤ s.get BCN_JUMP_LIMIT_LIMIT_NS) || s.get BCN_STATUS_STATE != 2
  let host (s : State) : State := if src = 3 && near then s.bcnState 1 else s
  if !bitOf v 0 then s
  else if bitOf v 1 then host ((s.forced (s.get BCN_STEP_DELTA_DELTA)).put BCN_STEP_CTL_RESULT 1)
  else if src ≠ 3 ∧ rq ≠ .keeper then s.unmapped
  else
    let (s, ok) := s.unforced (s.get BCN_STEP_DELTA_DELTA)
    if ok then host (s.put BCN_STEP_CTL_RESULT 1) else s.put BCN_STEP_CTL_RESULT 2

/-- BCN_STEP. -/
def execBcnStep (rq : Requester) (v : Word32) (s : State) : Out :=
  .next (s.guarded rq BCN_STEP_CTL (fun s => s.writeStepCtl rq v.toNat))

/-- BCN_FORCED_STEP. -/
def execBcnForcedStep (rq : Requester) (v : Word32) (s : State) : Out :=
  .next (s.guarded rq BCN_STEP_CTL (fun s => s.writeStepCtl rq v.toNat))

/-! ### Rate (R502) -/

/-- A change of rate, continuous at this tick; out of range it is refused. -/
def State.setRate (s : State) (r : Nat) : State × Bool :=
  if r < 0x13FDF3B64 ∨ 0x14020C49C < r then (s.bcnEvt BCN_EVT_RATE_ERR, false)
  else
    let fix := (s.offFix + (s.c : Int) * ((s.get BCN_RATE_RATE : Int) - (r : Int))).emod (2 ^ 96) |>.toNat
    (((s.put BCN_OFFSET_OFFSET (fix / 2 ^ 32)).put BCN_OFFSET_FRAC_FRAC (fix % 2 ^ 32)).put BCN_RATE_RATE r, true)

/-- A write of BCN_RATE. -/
def State.writeRate (s : State) (rq : Requester) (v : Nat) : State :=
  let src := s.get BCN_STATUS_SRC_ACTIVE
  if src ≠ 3 ∧ rq ≠ .keeper then s.unmapped
  else
    let (s, ok) := s.setRate (v % 2 ^ 40)
    if ok && src == 3 then s.bcnState 1 else s

/-- BCN_RATE_WRITE. -/
def execBcnRateWrite (rq : Requester) (v : Word64) (s : State) : Out :=
  .next (s.guarded rq BCN_RATE (fun s => s.writeRate rq v.toNat))

/-! ### Sources (R506 to R512) -/

/-- LAST_ERR: this device's time less the source's, saturating. -/
def lastErr (now master : Nat) : Nat :=
  let e : Int := (now : Int) - (master : Int)
  ((if e < -2147483648 then (-2147483648 : Int) else if 2147483647 < e then 2147483647 else e).emod (2 ^ 32)).toNat

/-- One correction of the servo. How it adjusts the rate within the limit of R502 is open: a free value (log 7). The error is
stepped out; the first correction after UNSYNC is forced where INIT_FORCE says so; after a refusal there is none until the
source's time is within the limit again. -/
def State.servo (s : State) (master : Nat) : State :=
  let s := s.put BCN_STATUS_LAST_ERR (lastErr s.beacon master)
  let r := 0x13FDF3B64 + Config.freeNat s.fresh % (0x14020C49C - 0x13FDF3B64 + 1)
  let s := ((s.freshen 1).setRate r).1
  let delta := (((master : Int) - (s.beacon : Int)).emod (2 ^ 64)).toNat
  if s.get BCN_STATUS_STATE = 0 ∧ s.flagA BCN_CFG_INIT_FORCE then
    ({ s.forced delta with bcn := { s.bcn with refused := false } }).bcnState 1
  else if s.bcn.refused ∧ s.get BCN_JUMP_LIMIT_LIMIT_NS < absDelta delta then s
  else if delta = 0 then { s with bcn := { s.bcn with refused := false } }.bcnState 1
  else
    let (s, ok) := s.unforced delta
    if ok then { s with bcn := { s.bcn with refused := false } }.bcnState 1 else s

/-- Fixed internal latency of a switch port by its SPEED code (R546), ns. -/
def ethLat (speed : Nat) (tx : Bool) : Nat :=
  if tx then nth 0 [9600, 960, 112, 134, 70, 38] speed else nth 0 [8800, 880, 96, 110, 58, 32] speed

/-- What the device adds to a stamp taken at a port's serial interface (R546): its own latency and the PHY's. -/
def State.portLat (s : State) (p : Nat) (tx : Bool) : Nat :=
  ethLat (s.get (GW_ETH_PORT_SPEED p)) tx + s.get (if tx then GW_ETH_PORT_PHY_TX_NS p else GW_ETH_PORT_PHY_RX_NS p)

/-- Does a switch port take part in 802.1AS (R509, R548)? -/
def State.asPort (s : State) (p : Nat) : Bool := decide (p < 8) && s.flag (GW_ETH_PORT_EN p) && s.flag (GW_ETH_PORT_AS_EN p)

/-- The bridge passes a Sync on at its other 802.1AS ports, each stamped with its departure (R509, R546). -/
def State.relaySync (s : State) (p : Nat) : State :=
  { s with out := { s.out with sync := s.out.sync ++
      ((List.range 8).filter (fun q => q != p && s.asPort q)).map (fun q => (q, s.beacon + s.portLat q true)) } }

/-- GPTP_SYNC: a Sync of the grandmaster reaches a port's serial interface. Its time is the grandmaster's as the frame
enters the port's medium side, so that the port's latencies are added for its time at this tick (R509, R546). -/
def execGptpSync (m : SyncMsg) (gmId : Word64) (s : State) : Out :=
  .next (if s.get BCN_STATUS_SRC_ACTIVE ≠ 1 ∨ ¬ s.fwRuns ∨ ¬ s.asPort m.port then s
    else ((({ s with bcn := { s.bcn with lastC := s.c } }).relaySync m.port).put BCN_GM_ID_ID gmId.toNat).servo
      (m.ns + s.portLat m.port false))

/-- TIME to the peer (R528). -/
def State.sendTime (s : State) (dev : Nat) : State :=
  match s.routePort dev 0 with
  | some p => s.txPkt p ⟨9, dev, 0, 0, 0, 0, s.beacon, 0, 0, false, 0, [], []⟩
  | none => s

/-- PEER_TIME_EXCHANGE: an exchange with the source device, 125 µs after the last. -/
def execPeerTimeExchange (peer peerNs : Nat) (s : State) : Out :=
  .next (if s.get BCN_STATUS_SRC_ACTIVE ≠ 2 ∨ s.getA BCN_CFG_PEER_ID ≠ peer ∨ ¬ s.fwRuns ∨ s.c < s.bcn.lastC + usTicks 125 then s
    else ({ s with bcn := { s.bcn with lastC := s.c } }.sendTime peer).servo peerNs)

/-- MASTER_LOSS: no Sync in time, or eight exchanges missed. -/
def execMasterLoss (s : State) : Out :=
  .next (
    let src := s.get BCN_STATUS_SRC_ACTIVE
    if s.get BCN_STATUS_STATE = 1 ∧ (src = 1 ∨ (src = 2 ∧ s.bcn.lastC + usTicks 1000 ≤ s.c)) then s.bcnState 2 else s)

end Sys2Proof.Machine
end

