-- ==== Sys2Proof/Machine/Link.lean ====
section
/-!
DEFINITION. The Bluruori peer links: training, requests from peers and their responses, link-level retry, lane retirement,
remote semaphores and deferred receives (R358, R523 to R540).
-/

namespace Sys2Proof.Machine

/-! ### Ports and training (R523, R524) -/

/-- Packets arrive on a port that is up, while the device runs. -/
def State.linkIn (s : State) (p : Nat) : Bool := decide (p < 4) && !s.dead && s.get (LNK_PORT_STAT_STATE p) == 2

/-- The identifier that the neighbour on port `p` must have, where the topology uses the port. -/
def State.neighbour (s : State) (p : Nat) : Option Nat :=
  let xs := s.get LNK_CFG_DIM_X
  let ys := s.get LNK_CFG_DIM_Y
  let me := s.get LNK_CFG_DEV_ID
  let topo := s.get LNK_CFG_TOPO
  let turn (n i : Nat) : Nat := if p % 2 = 0 then (i + 1) % n else (i + n - 1) % n
  if xs = 0 ∨ ys = 0 ∨ 64 < xs * ys ∨ xs * ys ≤ me then none
  else if (topo = 1 ∧ ys = 1) ∨ (topo = 2 ∧ 2 ≤ xs ∧ 2 ≤ ys) then
    if p < 2 then some (me / xs * xs + turn xs (me % xs))
    else if topo = 2 then some (turn ys (me / xs) * xs + me % xs) else none
  else none

/-- PORT_ENABLE: a write of LNK_PORT_CFG. A port that is down stays down. -/
def State.writePort (s : State) (p v mask : Nat) : State :=
  let was := s.flag (LNK_PORT_CFG_EN p)
  let s := s.plainWrite (LNK_PORT_CFG p) v mask
  let on := s.flag (LNK_PORT_CFG_EN p)
  if s.get (LNK_PORT_STAT_STATE p) = 4 ∨ was = on then s
  else if on then ({ s with ports := mset portDefault s.ports p { portDefault p with enC := s.c } }).put (LNK_PORT_STAT_STATE p) 1
  else s.setReg (LNK_PORT_STAT p) 0

/-- PORT_ENABLE. -/
def execPortEnable (rq : Requester) (p : Nat) (v : Word32) (s : State) : Out :=
  .next (if 4 ≤ p then s else s.guarded rq (LNK_PORT_CFG p) (fun s => s.writePort p v.toNat mask32))

/-- Lanes of a port that are not retired. -/
def State.goodLanes (s : State) (p m : Nat) : Nat :=
  ((List.range 4).filter (fun l => bitOf m l && !s.isRetired (chLane p l))).foldl (fun n l => n + 2 ^ l) 0

/-- A flit of another device leaves on port `q`, in its order within its buffer and once it has credit. -/
def State.txFwd (s : State) (q : Nat) (k : FwdFlit) : State :=
  let t := s.port q
  if nth 0 t.credits k.vcp = 0 ∨ t.fwd.any (fun x => x.vcp == k.vcp) then s.setPort q { t with fwd := t.fwd ++ [k] }
  else
    let s := s.sendFlits q k.vcp 1
    { s with out := { s.out with fwd := s.out.fwd ++ [(q, k)] } }

/-- What was held goes out in its order as far as credits allow, forwarded flits first. -/
def State.drainPort (s : State) (p : Nat) : State :=
  let t := s.port p
  let s := t.fwd.foldl (fun s k => s.txFwd p k) (s.setPort p { t with fwd := [], queued := [] })
  t.queued.foldl (fun s k => s.txPkt p k) s

/-- TRAINING_DONE: the neighbour's identifier and port, and the lanes that trained. A port that retrained sends its replay
buffer again. -/
def execTrainingDone (p neighId neighPort lanes : Nat) (s : State) : Out :=
  .next (
    let st := s.get (LNK_PORT_STAT_STATE p)
    if 4 ≤ p ∨ s.dead ∨ (st ≠ 1 ∧ st ≠ 3) then s else
    let m := s.goodLanes p lanes
    let s := ((s.put (LNK_PORT_STAT_NEIGH_ID p) neighId).put (LNK_PORT_STAT_NEIGH_PORT p) neighPort)
    if s.neighbour p = some neighId ∧ neighId ≠ s.get LNK_CFG_DEV_ID ∧ neighPort = (if p % 2 = 0 then p + 1 else p - 1) then
      if m = 0 then s else
      let s := (s.put (LNK_PORT_STAT_LANES p) m).put (LNK_PORT_STAT_STATE p) 2
      let s := if st = 1 then s.setPort p { portDefault p with enC := (s.port p).enC, queued := (s.port p).queued, fwd := (s.port p).fwd }
        else s.bump (LNK_CNT_TX_COUNT p) (s.port p).replay.length
      s.drainPort p
    else (s.put (LNK_PORT_STAT_LANES p) 0).put (LNK_PORT_STAT_STATE p) 5)

/-! ### Flits that arrive -/

/-- `n` sequenced flits arrived in order. -/
def State.gotFlits (s : State) (p n : Nat) : State :=
  let t := s.port p
  (s.setPort p { t with rxSeq := (t.rxSeq + n) % 4096, nakSent := false }).bump (LNK_CNT_RX_COUNT p) n

/-- A response to device `dst`. -/
def State.answer (s : State) (op dst tag st addr arg arg2 part : Nat) (w : Bool) (cmps : List Nat) (data : List Byte) : State :=
  match s.routePort dst addr with
  | some p => s.txPkt p ⟨op, dst, tag, addr, data.length / 32, st, arg, arg2, part, w, 0, cmps, data⟩
  | none => s

/-! ### Requests from peers (R528, R531, R532) -/

/-- The local address of an offset in the device's own peer window (R14). -/
def windowAddr (o : Nat) : Nat :=
  if 0x4000000000 ≤ o ∧ o < 0x8000000000 then o - 0x4000000000 + dramBase else o

def lnkReq (p : Nat) (k : LnkReq) : MReq := ⟨k.part, k.w, 64 * (p + 1) + 34, k.cls, none⟩

/-- The checks of R532. The first two have no status of their own (log 7). -/
def State.lnkCheck (s : State) (r : MReq) (wr : Bool) (a len : Nat) : State × Option Nat :=
  if !bitOf (s.get LNK_IMPORT_PARTS) r.part || (r.w && !s.flag LNK_SEC_SEC_EN) then
    (s.freshen 1, some (Config.freeNat s.fresh % 255 + 1))
  else match s.addrError a len with
    | some _ => (s, some 0x20)
    | none =>
      match spaceOf a with
      | .spd | .acc _ | .dram =>
        match s.firstRefused r wr false (cwAddrs a len) with
        | some (st, x) => (s.refuseAccess r st x, some st)
        | none => (s, none)
      | _ => (s, some 0x20)

/-- Decode the codewords that a peer reads: false when one was uncorrectable. -/
def State.decodeAll (s : State) (r : MReq) : List Nat → State × Bool
  | [] => (s, true)
  | a :: as =>
    let (s, ok) := s.decodeCw r a
    if ok then s.decodeAll r as else (s, false)

/-- RD_REQ. -/
def execRdReq (p : Nat) (k : LnkReq) (s : State) : Out :=
  .next (if !s.linkIn p || k.dst != s.get LNK_CFG_DEV_ID || k.len == 0 then s else
    let s := s.gotFlits p 1
    let r := lnkReq p k
    let a := windowAddr k.addr
    let refuse (s : State) (st : Nat) : State := s.answer 2 k.src k.tag st k.addr 0 0 k.part k.w [] []
    match s.lnkCheck r false a k.len with
    | (s, some st) => refuse (s.bump LNK_CNT_REFUSED_IN_COUNT 1) st
    | (s, none) =>
      match s.decodeAll r (cwAddrs a k.len) with
      | (s, false) => refuse s 0x23
      | (s, true) =>
        let cmps := (cwAddrs a k.len).map (fun x => tagCmp (s.tag (x / 32)))
        let bs := s.rawBytes a k.len
        ((s.countDdr false a k.len).charge r false a k.len).1.answer 2 k.src k.tag 0 k.addr 0 0 k.part k.w cmps bs)

/-- Write whole codewords, each with the CMP that came with it. -/
def State.writeCmps (s : State) (r : MReq) (a : Nat) (bs : List Byte) : List (Nat × Nat) → State
  | [] => s
  | (c, n) :: rest => (s.writeLocal r false a c (bs.take (32 * n))).1.writeCmps r (a + 32 * n) (bs.drop (32 * n)) rest

/-- WR_REQ. -/
def execWrReq (p : Nat) (k : LnkReq) (data : List Byte) (cmps : List Nat) (s : State) : Out :=
  .next (if !s.linkIn p || k.dst != s.get LNK_CFG_DEV_ID || k.len == 0 || data.length != k.len then s else
    let s := s.gotFlits p (1 + (k.len + 63) / 64)
    let r := lnkReq p k
    let a := windowAddr k.addr
    match s.lnkCheck r true a k.len with
    | (s, some st) => (s.bump LNK_CNT_REFUSED_IN_COUNT 1).answer 3 k.src k.tag st k.addr 0 0 k.part k.w [] []
    | (s, none) => (s.writeCmps r a data (runsOf cmps)).answer 3 k.src k.tag 0 k.addr 0 0 k.part k.w [] [])

/-- SEM_REQ. -/
def execSemReq (p src tag sem amount : Nat) (s : State) : Out :=
  .next (if !s.linkIn p then s else
    let s := s.gotFlits p 1
    let lo := s.get LNK_RSEM_BASE
    if sem < lo ∨ lo + s.get LNK_RSEM_CNT ≤ sem ∨ 4096 ≤ sem then
      (s.bump LNK_CNT_REFUSED_IN_COUNT 1).answer 5 src tag 0xC3 0 0 0 0 false [] []
    else
      let (s, sat) := s.semAdd sem amount 2 ⟨0x3FFF, src, 0, 0, s.beacon⟩ (fun s a b => s.emitPlain 36 0x08 a b)
      (s.answer 5 src tag (if sat then 0x02 else 0) 0 (s.get (CMD_SEM_COUNT sem)) 0 0 false [] []).settle)

/-- ECHO_REQ: the response carries the requester's T_SEND back (R528). -/
def execEchoReq (p src tag tSend : Nat) (s : State) : Out :=
  .next (if !s.linkIn p then s else (s.gotFlits p 1).answer 7 src tag 0 0 tSend 0 0 false [] [])

/-! ### Responses (R528, R531, R537, R538) -/

/-- The outstanding request of a response. -/
def State.outReq (s : State) (k : LnkRsp) (op : Nat) : Option LnkOut :=
  s.lnkOut.find? (fun o => o.tag == k.tag && o.dev == k.src && o.op == op)

def State.dropReq (s : State) (o : LnkOut) : State := { s with lnkOut := s.lnkOut.filter (fun x => x.tag != o.tag) }

/-- A deferred read has landed or failed. -/
def State.rxLanded (s : State) (i : Nat) : State :=
  match s.desc? i with
  | some d => s.drop (SCH_CTX_STAT_RX_PEND (s.ctxOf d)) 1
  | none => s

/-- A write that failed: the descriptor that waits for it takes the status, its outputs are poisoned. -/
def State.writeFailed (s : State) (i st dt : Nat) : State :=
  match s.desc? i with
  | none => s
  | some d =>
    if d.status ≥ 0x10 ∨ !d.effected then s
    else if d.flushing then (s.updDesc i (fun x => { x with status := st, detail := dt })).poisonOuts d d.outs
    else s.updDesc i (fun x => { x with parts := x.parts.mapIdx (fun n (q : Part) =>
      if n = 0 ∧ q.status < 0x10 then { q with status := st, detail := dt } else q) })

/-- The end of an opcode of the link unit. -/
def State.linkDone (s : State) (i st dt : Nat) : State := { s with seq := s.seq + 1 }.finishPart i 34 st dt

/-- A peer request fails with a code of R538. -/
def State.reqFailed (s : State) (o : LnkOut) (st dt : Nat) : State :=
  let s := ((s.dropReq o).lnkFail st ((s.routePort o.dev o.addr).getD ((s.prefPort o.dev o.addr).getD 0)) o.dev)
  if o.op = 0 then
    let s := { s with peerData := s.peerData ++ [(⟨o.desc, o.dev, o.addr, List.replicate (32 * o.len) 0, [], some (st, dt), false, none⟩ : PeerData)] }
    (if o.deferred then s.rxLanded o.desc else s).settle
  else if o.op = 1 then (s.writeFailed o.desc st dt).settle
  else (s.linkDone o.desc st dt).settle

/-- DETAIL of PEER_REFUSED. -/
def refusedDetail (st addr : Nat) : Nat := st % 256 + addr * 256

/-- A response that no request waits for. -/
def State.lateRsp (s : State) : State := s.bump LNK_CNT_LATE_RSP_COUNT 1

/-- RD_RSP. -/
def execRdRsp (p : Nat) (k : LnkRsp) (data : List Byte) (cmps : List Nat) (s : State) : Out :=
  .next (if !s.linkIn p then s else
    let s := s.gotFlits p (if k.status = 0 then 1 + (data.length + 63) / 64 else 1)
    match s.outReq k 0 with
    | none => s.lateRsp
    | some o =>
      if k.status ≠ 0 then s.reqFailed o 0xC2 (refusedDetail k.status o.addr)
      else if data.length ≠ 32 * o.len then s
      else ({ s.dropReq o with peerData := s.peerData ++ [(⟨o.desc, o.dev, o.addr, data, cmps, none, o.deferred, if o.deferred then some o.rx else none⟩ : PeerData)] }).settle)

/-- WR_ACK. -/
def execWrAck (p : Nat) (k : LnkRsp) (s : State) : Out :=
  .next (if !s.linkIn p then s else
    let s := s.gotFlits p 1
    match s.outReq k 1 with
    | none => s.lateRsp
    | some o => if k.status ≠ 0 then s.reqFailed o 0xC2 (refusedDetail k.status o.addr) else (s.dropReq o).settle)

/-- SEM_ACK. -/
def execSemAck (p : Nat) (k : LnkRsp) (s : State) : Out :=
  .next (if !s.linkIn p then s else
    let s := s.gotFlits p 1
    match s.outReq k 4 with
    | none => s.lateRsp
    | some o =>
      let sem := match s.desc? o.desc with
        | some d => bitsOf (d.u 16 4) 6 12
        | none => 0
      if k.status = 0 then ((s.dropReq o).linkDone o.desc 0 0).settle
      else if k.status = 0x02 then ((s.dropReq o).linkDone o.desc 0x02 sem).settle
      else if k.status = 0xC3 then s.reqFailed o 0xC3 sem
      else s.reqFailed o 0xC2 (refusedDetail k.status o.addr))

/-- Write the round-trip time of an echo, held in `step`, and complete. -/
def State.echoWrite (s : State) (i : Nat) : State :=
  s.ownWork i 0xD1 34 (fun x => do
    let s ← eGet
    eWrite (s.mreq x 34) false 0 x.a24 (leBytes 8 (x.step - 2))
    return (0, 0))

/-- ECHO_RSP. -/
def execEchoRsp (p src tag : Nat) (s : State) : Out :=
  .next (if !s.linkIn p then s else
    let s := s.gotFlits p 1
    match s.outReq ⟨src, tag, 0⟩ 6 with
    | none => s.lateRsp
    | some o => ((s.dropReq o).updDesc o.desc (fun x => { x with step := 2 + s.sinceNs o.sentC })).echoWrite o.desc)

/-- PEER_TIMEOUT. -/
def execPeerTimeout (tag : Nat) (s : State) : Out :=
  .next (match s.lnkOut.find? (fun o => o.tag == tag) with
    | none => s
    | some o => if s.c < o.sentC + usTicks (s.get LNK_CFG_TIMEOUT_US) then s else s.reqFailed o 0xC1 o.dev)

/-! ### The link opcodes (R536, R537) -/

/-- Send the request of a link opcode once. -/
def State.linkOp (s : State) (i opc op arg : Nat) : State :=
  match s.desc? i with
  | none => s
  | some d =>
    if !d.runnable opc || d.step != 0 then s else
    let dev := lnkDev d
    match s.peerIssue (s.mreq d 34) op dev 0 0 arg 0 0 [] with
    | (s, true) => s.updDesc i (fun x => { x with step := 1 })
    | (s, false) => (s.linkDone i 0xC0 dev).settle

/-- LNK_SEM_SIGNAL. -/
def execLnkSemSignal (d : Nat) (s : State) : Out :=
  .next (match s.desc? d with
    | some x => s.linkOp d 0xD0 4 (bitsOf (x.u 16 4) 6 12 + x.u 20 4 * 2 ^ 32)
    | none => s)

/-- LNK_ECHO. -/
def execLnkEcho (d : Nat) (s : State) : Out :=
  .next (match s.desc? d with
    | some x => if 2 ≤ x.step then s.echoWrite d else s.linkOp d 0xD1 6 s.beacon
    | none => s)

/-! ### Credits, retry and lane retirement (R529, R533, R534) -/

/-- Flits up to `ack` have been received in order. -/
def State.acked (s : State) (p ack : Nat) : State :=
  let t := s.port p
  if t.replay.contains ack then s.setPort p { t with replay := (t.replay.dropWhile (· != ack)).drop 1 } else s

/-- IDLE_FLIT: an acknowledgement and returned credits of each buffer. -/
def execIdleFlit (p ack : Nat) (credits : List Nat) (s : State) : Out :=
  .next (if !s.linkIn p then s else
    let s := (s.bump (LNK_CNT_RX_COUNT p) 1).acked p ack
    let t := s.port p
    let cr := t.credits.mapIdx (fun i c => min 64 (c + nth 0 credits i))
    (s.setPort p { t with credits := cr }).drainPort p)

/-- Retire the active lane with the most BIP-8 errors, and retrain or go down. Which of several with the same count is
retired is open (log 7). -/
def State.retireLane (s : State) (p : Nat) : State :=
  let m := s.get (LNK_PORT_STAT_LANES p)
  let err (l : Nat) : Nat := s.get ⟨LNK_CNT_LANE_ERR p, 16 * l, 16⟩
  let on := maskBits 4 m
  let top := on.foldl (fun n l => max n (err l)) 0
  let worst := on.filter (fun l => err l == top)
  let l := nth 0 worst (Config.freeNat s.fresh % max 1 worst.length)
  let s := { (s.freshen 1).retire (chLane p l) 3 with transients := mdel (chPort p) s.transients }
  let s := s.setPort p { s.port p with fails := 0, lastNak := none }
  match on.length with
  | 4 => ((s.put (LNK_PORT_STAT_LANES p) (if l < 2 then 12 else 3)).put (LNK_PORT_STAT_STATE p) 3)
  | 2 => ((s.put (LNK_PORT_STAT_LANES p) (m - 2 ^ l)).put (LNK_PORT_STAT_STATE p) 3)
  | _ => ((s.put (LNK_PORT_STAT_LANES p) 0).put (LNK_PORT_STAT_STATE p) 4)

/-- NAK: everything after `ack` is sent again. -/
def execNak (p ack : Nat) (s : State) : Out :=
  .next (if !s.linkIn p then s else
    let s := (s.bump (LNK_CNT_RX_COUNT p) 1).acked p ack
    let t := s.port p
    if t.replay.isEmpty then s else
    let n := if t.lastNak = some ack then t.fails + 1 else 1
    let s := (s.setPort p { t with fails := n, lastNak := some ack }).bump (LNK_CNT_RETRY_COUNT p) 1
    let s := (s.bump (LNK_CNT_TX_COUNT p) t.replay.length).transient (chPort p)
    if decide (s.get SAF_CTL_ATTEMPTS ≤ n) || s.rateHit (chPort p) then s.retireLane p else s)

/-- FLIT_RECEIVE_ERROR: the flit is discarded, and one NAK names the last good SEQ. -/
def execFlitReceiveError (p : Nat) (crcBad : Bool) (s : State) : Out :=
  .next (if !s.linkIn p then s else
    let s := if crcBad then s.bump (LNK_CNT_CRC_COUNT p) 1 else s
    let t := s.port p
    if t.nakSent then s else
    (s.setPort p { t with nakSent := true }).txPkt p
      ⟨8, s.get (LNK_PORT_STAT_NEIGH_ID p), 0, 0, 0, 0, (t.rxSeq + 4095) % 4096, 0, 0, false, 0, [], []⟩)

/-- The buffer in which a flit that arrived on `p` leaves on `q`: plane 0 again when it turns into y (R525). -/
def State.vcpOn (s : State) (p q vcp : Nat) : Nat :=
  vcp / 2 * 2 + s.planeOn q (if p < 2 ∧ 2 ≤ q then 0 else vcp % 2)

/-- FLIT_FORWARD: a flit for another device leaves by its route; without one it is lost (R530). -/
def execFlitForward (p : Nat) (k : FwdFlit) (s : State) : Out :=
  .next (if !s.linkIn p || k.dst == s.get LNK_CFG_DEV_ID then s else
    let s := s.gotFlits p 1
    match s.routePort k.dst k.addr with
    | some q => (s.bump (LNK_CNT_FWD_COUNT p) 1).txFwd q { k with vcp := s.vcpOn p q k.vcp }
    | none => s)

/-- LNK_TIME: a TIME from a device that takes its time from this one is answered with this one's stamp. -/
def execLnkTime (p src _stamp : Nat) (s : State) : Out :=
  .next (if !s.linkIn p then s else
    let s := s.gotFlits p 1
    if s.get BCN_STATUS_SRC_ACTIVE = 2 ∧ s.getA BCN_CFG_PEER_ID = src then s else s.sendTime src)

/-! ### Deferred receives (R358) -/

/-- Is the data that of a deferred receive of context `c`? -/
def State.rxMine (s : State) (c : Nat) (x : PeerData) : Bool :=
  match s.desc? x.desc with
  | some d => s.ctxOf d == c
  | none => false

/-- DEFERRED_RECEIVE_LAND: the oldest data that waits is written into its place in the receive area; `ok` false is a receive
that fails on the link. -/
def execDeferredReceiveLand (c : Nat) (ok : Bool) (s : State) : Out :=
  .next (match s.peerData.find? (fun x => x.land && s.rxMine c x) with
    | none => s
    | some x =>
      let s := if ok then s.writeCmps ⟨s.get (SCH_CTX_CFG_PART c), s.ctxW c, 34, c, none⟩ (x.rx.getD 0) x.data (runsOf x.cmps) else s
      let s := { s with peerData := s.peerData.map (fun (y : PeerData) => if y = x then
        { y with land := false, err := if ok then none else some (0xC1, x.dev) } else y) }
      let s := if ok then s else s.lnkFail 0xC1 ((s.prefPort x.dev x.addr).getD 0) x.dev
      (s.rxLanded x.desc).settle)

end Sys2Proof.Machine
end

