-- ==== Sys2Proof/Machine/Gateway.lean ====
section
/-!
DEFINITION. The gateway: CAN-FD controllers, the Ethernet switch, ACF streams, signal routes and the gateway's descriptors
(R541 to R559).
-/

namespace Sys2Proof.Machine

/-! ### CAN controllers (R541 to R544) -/

def State.can (s : State) (n : Nat) : CanSt := mget (fun _ => ⟨[], 0⟩) s.gw.can n
def State.setCan (s : State) (n : Nat) (x : CanSt) : State := { s with gw := { s.gw with can := mset (fun _ => ⟨[], 0⟩) s.gw.can n x } }
def State.canState (s : State) (n : Nat) : Nat := s.get (GW_CAN_STAT_STATE n)

/-- A controller that takes part in its bus. -/
def State.canOn (s : State) (n : Nat) : Bool :=
  decide (n < 16) && s.flag (GW_CAN_CFG_EN n) && (s.canState n == 1 || s.canState n == 2)

/-- A write of GW_CAN_CFG: ignored while EN = 1. -/
def State.writeCan (s : State) (n v mask : Nat) : State :=
  if s.flag (GW_CAN_CFG_EN n) then s else
  let s := s.plainWrite (GW_CAN_CFG n) v mask
  if s.flag (GW_CAN_CFG_EN n) && s.canState n != 4 then s.put (GW_CAN_STAT_STATE n) 1 else s

/-- Does the controller send this form of frame? -/
def State.canSends (s : State) (n : Nat) (f : CanFrame) : Bool :=
  (s.canState n == 1 || s.canState n == 2 || s.canState n == 3) && (!f.fd || s.flag (GW_CAN_CFG_FD n))

/-- A frame becomes pending. One that a latest-value route sends replaces the route's own frame there, unless that has
entered arbitration: which of the two is open (R554, log 7). -/
def State.canPend (s : State) (n : Nat) (f : CanFrame) (route : Option Nat) (tx : Option (Nat × Nat)) : State :=
  if !s.canSends n f then s else
  let f := { f with ident := f.ident % (if f.ide then 2 ^ 29 else 2 ^ 11), brs := f.brs && f.fd && s.flag (GW_CAN_CFG_BRS_EN n), rtr := false }
  let x := s.can n
  let add (s : State) : State :=
    { s with seq := s.seq + 1 }.setCan n { x with pend := x.pend ++ [(⟨f, s.seq + 1, route, tx⟩ : CanPend)] }
  match (if route.isSome then x.pend.find? (fun p => p.route == route) else none) with
  | none => add s
  | some p =>
    let entered := Config.freeNat s.fresh % 2 == 1
    let s := s.freshen 1
    if entered then add s
    else s.setCan n { x with pend := x.pend.map (fun (q : CanPend) => if q.seq = p.seq then { q with f := f } else q) }

/-- Arbitration order: ascending identifier as it stands on the bus, the 11-bit form first, then the order of becoming
pending (R542). -/
def canBefore (a b : CanPend) : Bool :=
  let key (p : CanPend) : Nat := 2 * (if p.f.ide then p.f.ident else p.f.ident * 2 ^ 18) + b2n p.f.ide
  decide (key a < key b) || (key a == key b && decide (a.seq ≤ b.seq))

/-! ### Frame records (R557) -/

/-- Data rounded up with the header to a multiple of 32 bytes. -/
def padTo (n : Nat) (bs : List Byte) : List Byte := bs ++ List.replicate ((n - bs.length % n) % n) 0

/-- Header of a frame record. -/
def recHeader (t len ifc tc : Nat) (f : CanFrame) : List Byte :=
  leBytes 8 t ++ leBytes 8 (len + ifc * 2 ^ 16 + tc * 2 ^ 21 + b2n f.ide * 2 ^ 24 + b2n f.fd * 2 ^ 25 + b2n f.brs * 2 ^ 26 +
    f.ident % 2 ^ 29 * 2 ^ 32)

def frameRec (t ifc tc : Nat) (f : CanFrame) : List Byte := padTo 32 (recHeader t f.data.length ifc tc f ++ f.data)

def blankCan (data : List Byte) : CanFrame := ⟨0, false, false, false, false, data⟩

/-! ### The host receive path (R558) -/

/-- Finish an opcode of the gateway. -/
def State.gwDone (s : State) (i st dt : Nat) : State := { s with seq := s.seq + 1 }.finishPart i 33 st dt

/-- Held buffers in dispatch order. -/
def State.rxHeld (s : State) : List RxBuf :=
  s.gw.rx.filter (fun b => match s.desc? b.desc with
    | some d => d.runnable 0xC1
    | none => false)

def State.dropRx (s : State) (i : Nat) : State := { s with gw := { s.gw with rx := s.gw.rx.filter (fun b => b.desc != i) } }

/-- A record for the host: the first held buffer that names the interface, or the next when it would not fit. -/
def State.rxPut (s : State) (ifc : Nat) (bytes : List Byte) : List RxBuf → State
  | [] => s.bump GW_CNT_NO_RX_COUNT 1
  | b :: bs =>
    match s.desc? b.desc with
    | none => s.rxPut ifc bytes bs
    | some d =>
      if !bitOf (d.u 32 4) ifc then s.rxPut ifc bytes bs
      else if d.u 24 4 < b.used + bytes.length then (((s.dropRx b.desc).gwDone b.desc 0 0).rxPut ifc bytes bs)
      else
        match s.writeMem (s.mreq d 33) false 0 (d.a16 + b.used) bytes with
        | (s, some (.fail c x)) => (s.dropRx b.desc).gwDone b.desc c x
        | (s, _) => { s with gw := { s.gw with rx := s.gw.rx.map (fun (y : RxBuf) => if y.desc = b.desc then
            { y with used := y.used + bytes.length, first := if y.first = 0 then s.c + 1 else y.first } else y) } }

def State.hostReceive (s : State) (ifc : Nat) (bytes : List Byte) : State := s.rxPut ifc bytes s.rxHeld

/-! ### The Ethernet switch (R545 to R548) -/

/-- A field of a gate list as it is in operation: the replaced one until the first cycle start after its commit. -/
def State.gateGet (s : State) (p : Nat) (f : Fref) : Nat :=
  if s.beacon + 1 < mget (fun _ => 0) s.gw.swT p then bitsOf (mget regReset s.gw.live f.off).toNat f.lo f.w else s.getA f

/-- Segments of a cycle: length and gates. Lists are cut at the cycle's end, and the last entry holds to it. -/
def cutList : Nat → List (Nat × Nat) → List (Nat × Nat)
  | _, [] => []
  | left, [(_, g)] => [(left, g)]
  | left, (n, g) :: rest => if left ≤ n then [(left, g)] else (n, g) :: cutList (left - n) rest

/-- Gates at position `pos` of a cycle, and for each class bit how long it stays open from there. -/
def gateAt (bit : Nat) : Nat → List (Nat × Nat) → Bool
  | _, [] => true
  | pos, (n, g) :: rest => if pos < n then bitOf g bit else gateAt bit (pos - n) rest

/-- Time from position `pos` to the closing of a gate that is open there, through one further cycle; none = it never closes. -/
def openFor (bit : Nat) : Nat → List (Nat × Nat) → Option Nat
  | _, [] => none
  | pos, (n, g) :: rest =>
    if n ≤ pos then openFor bit (pos - n) rest
    else if bitOf g bit then (openFor bit 0 rest).map (fun t => t + (n - pos)) else some 0

/-- The cycle of a port's gating: its segments and the position in it. -/
def State.portCycle (s : State) (p : Nat) : List (Nat × Nat) × Nat :=
  let cyc := max 1 (s.gateGet p (GW_ETH_QBV_CYCLE_NS p))
  let ent := (List.range (s.gateGet p (GW_ETH_QBV_LEN p))).map (fun i =>
    (s.gateGet p (GW_GCL_INTERVAL_NS p i), s.gateGet p (GW_GCL_GATES p i)))
  (cutList cyc ent, (((s.beacon : Int) - s.gateGet p (GW_ETH_QBV_BASE_BASE p)).emod cyc).toNat)

/-- Mb/s of a SPEED code. -/
def ethSpeed (n : Nat) : Nat := nth 10 [10, 100, 1000, 2500, 5000, 10000] n

/-- Length of a frame on the wire, with its check sequence. -/
def ethLen (f : EthFrame) : Nat := f.data.length + 4

/-- May a frame of a class start on a port now: its gate is open and stays open to its last bit (R547)? -/
def State.mayStart (s : State) (p c : Nat) (f : EthFrame) : Bool :=
  if p = 8 ∨ s.gateGet p (GW_ETH_QBV_EN p) = 0 then true else
  let (segs, pos) := s.portCycle p
  let ns := cdiv ((ethLen f + 8) * 8 * 1000) (ethSpeed (s.get (GW_ETH_PORT_SPEED p)))
  gateAt c pos segs && (match openFor c pos (segs ++ segs) with
    | none => true
    | some t => decide (ns ≤ t))

/-- Does a port still send a frame? -/
def State.portBusy (s : State) (p : Nat) : Bool := s.gw.busy.any (fun x => x.1 == p && decide (s.c < x.2.1))

/-- Counter periods that a frame holds its port: preamble, frame, check sequence and the gap of twelve bytes. -/
def ethTicks (speed : Nat) (f : EthFrame) : Nat := cdiv ((ethLen f + 20) * 8 * 800) (ethSpeed speed)

/-- The next frame that may start on a port: the highest class whose first waiting frame may start. -/
def State.nextEth (s : State) (p : Nat) : Option (Nat × Nat × EthFrame) :=
  ((List.range 8).reverse.filterMap (fun c =>
    (s.gw.ethQ.find? (fun x => x.1 == p && x.2.1 == c)).filter (fun x => s.mayStart p c x.2.2))).head?

/-- A port that sends nothing starts the next frame that may start. -/
def State.drainEth (s : State) (p : Nat) : State :=
  if s.portBusy p then s else
  match s.nextEth p with
  | none => s
  | some x =>
    let till := s.c + ethTicks (s.get (GW_ETH_PORT_SPEED p)) x.2.2
    { s with gw := { s.gw with ethQ := s.gw.ethQ.erase x
                               busy := s.gw.busy.filter (fun y => y.1 != p) ++ [(p, till, x.2.2)] }
             out := { s.out with eth := s.out.eth ++ [(p, x.2.2)] } }

/-- In a period of the counter the ports that have come free start their next frames (R545, R547). -/
def State.ethTick (s : State) : State :=
  if s.gw.ethQ.isEmpty then s else (List.range 8).foldl (fun s p => s.drainEth p) s

/-- EtherType of a frame. -/
def ethType (f : EthFrame) : Nat :=
  let o := if f.tagged then 16 else 12
  leNat ((f.data.drop o).take 2).reverse

/-- A frame leaves the switch at a port; at the host port (8) it goes to the receive path, an ACF frame to its streams. -/
def State.egress (s : State) (p c : Nat) (f : EthFrame) : State :=
  if p = 8 then
    if ethType f = 0x22F0 then s else s.hostReceive 16 (frameRec s.beacon 16 c (blankCan f.data))
  else if !s.flag (GW_ETH_PORT_EN p) then s
  else { s with gw := { s.gw with ethQ := s.gw.ethQ ++ [(p, c, f)] } }.drainEth p

/-- Learn a source address (R545): at most 4,096. -/
def State.learn (s : State) (mac vid p : Nat) : State :=
  let rest := s.gw.macs.filter (fun m => !(m.1 == mac && m.2.1 == vid))
  if bitOf mac 40 || decide (4096 ≤ rest.length) then s
  else { s with gw := { s.gw with macs := rest ++ [(mac, vid, p)] } }

/-- Bridge a frame that entered at a port: to the port that its destination was learned at, else to all others. -/
def State.bridge (s : State) (p c : Nat) (f : EthFrame) : State :=
  let s := s.learn f.smac f.vid p
  if f.dmac / 16 = 0x0180C200000 then s else
  let known := if bitOf f.dmac 40 then none else s.gw.macs.find? (fun m => m.1 == f.dmac && m.2.1 == f.vid)
  match known with
  | some m => if m.2.2 = p then s else s.egress m.2.2 c f
  | none => ((List.range 9).filter (· != p)).foldl (fun s q => s.egress q c f) s

/-- The lowest-numbered enabled filter that a frame matches. -/
def State.filterOf (s : State) (p : Nat) (f : EthFrame) : Option Nat :=
  (List.range 256).find? (fun i =>
    s.flag (GW_PSFP_SF_W0_EN i) && bitOf (s.get (GW_PSFP_SF_W1_PORTS i)) p && s.get (GW_PSFP_SF_W0_DMAC i) == f.dmac &&
      (s.flag (GW_PSFP_SF_W0_ANY_VID i) || s.get (GW_PSFP_SF_W0_VID i) == f.vid) &&
      (s.get (GW_PSFP_SF_W1_PCP i) == 8 || s.get (GW_PSFP_SF_W1_PCP i) == f.pcp))

/-- Is a stream gate open now (R548)? Its list runs over port 0's cycle. -/
def State.streamOpen (s : State) (g : Nat) : Bool :=
  if s.gateGet 8 (GW_SGATE_EN g) = 0 then true else
  let cyc := max 1 (s.gateGet 0 (GW_ETH_QBV_CYCLE_NS 0))
  let ent := (List.range (s.gateGet 8 (GW_SGATE_LEN g))).map (fun i =>
    (s.gateGet 8 (GW_SGL_INTERVAL_NS g i), s.gateGet 8 (GW_SGL_GATES g i)))
  gateAt 0 (((s.beacon : Int) - s.gateGet 0 (GW_ETH_QBV_BASE_BASE 0)).emod cyc).toNat (cutList cyc ent)

/-- Bytes in the unit of the meters' buckets: one kbit/s adds one unit per period of the counter. -/
def meterUnit : Nat := 6400000

/-- Colour a frame by a meter, colour-blind (R548): false is red. A meter starts full. -/
def State.meter (s : State) (m len : Nat) : State × Bool :=
  let cbs := s.get (GW_METER_W1_CBS m) * meterUnit
  let ebs := s.get (GW_METER_W1_EBS m) * meterUnit
  let x := mget (fun _ => ⟨0, 0, 0⟩) s.gw.meters m
  let dt := s.c + 1 - x.at'
  let c := if x.at' = 0 then cbs else min cbs (x.c + s.get (GW_METER_W0_CIR_KBPS m) * dt)
  let e := if x.at' = 0 then ebs else min ebs (x.e + s.get (GW_METER_W0_EIR_KBPS m) * dt)
  let n := len * meterUnit
  let (c', e', ok) : Nat × Nat × Bool := if n ≤ c then (c - n, e, true) else if n ≤ e then (c, e - n, true) else (c, e, false)
  ({ s with gw := { s.gw with meters := mset (fun _ => ⟨0, 0, 0⟩) s.gw.meters m ⟨c', e', s.c + 1⟩ } }, ok)

/-- The ingress check of R548: false drops the frame. -/
def State.psfp (s : State) (p : Nat) (f : EthFrame) : State × Bool :=
  match s.filterOf p f with
  | none => (s, true)
  | some i =>
    if s.get (GW_PSFP_SF_W1_MAX_SDU i) < ethLen f then (s, false)
    else if s.flag (GW_PSFP_SF_W1_GATE_EN i) && !s.streamOpen (s.get (GW_PSFP_SF_W1_GATE i)) then (s, false)
    else if s.flag (GW_PSFP_SF_W1_METER_EN i) then s.meter (s.get (GW_PSFP_SF_W1_METER i)) (ethLen f)
    else (s, true)

/-- ETH_FRAME_RECEIVED. -/
def execEthFrameReceived (p : Nat) (f : EthFrame) (s : State) : Out :=
  .next (if 8 ≤ p ∨ s.dead ∨ ¬ s.flag (GW_ETH_PORT_EN p) ∨ f.data.length < 14 ∨ 2000 < ethLen f ∨ f.vid = 4095 then s else
    match s.psfp p f with
    | (s, false) => s.bump GW_CNT_PSFP_DROP_COUNT 1
    | (s, true) => (s.bridge p (Config.ethClass f.pcp % 8) f).settle)

/-- A new list has taken effect: the replaced one is forgotten. -/
def State.gateTake (s : State) (p : Nat) : State :=
  if s.beacon + 1 < mget (fun _ => 0) s.gw.swT p then s
  else { s with gw := { s.gw with swT := mset (fun _ => 0) s.gw.swT p 0
                                  live := s.gw.live.filter (fun e => gatePort e.1 != p) } }

/-- GATE_CHANGE: the gates of a port change, and what may start now does. -/
def execGateChange (p : Nat) (s : State) : Out :=
  .next (if 8 ≤ p ∨ s.dead then s else
    (s.gateTake p).drainEth p)

/-- STREAM_GATE_CHANGE: whether the gate is open follows from Beacon time; a replaced list is forgotten. -/
def execStreamGateChange (g : Nat) (s : State) : Out := .next (if 64 ≤ g ∨ s.dead then s else s.gateTake 8)

/-! ### ACF streams (R549 to R551) -/

def State.acf (s : State) (n : Nat) : AcfSt := mget (fun _ => ⟨0, false, [], [], 0⟩) s.gw.acf n
def State.setAcf (s : State) (n : Nat) (x : AcfSt) : State :=
  { s with gw := { s.gw with acf := mset (fun _ => ⟨0, false, [], [], 0⟩) s.gw.acf n x } }

/-- Bytes of a message in a frame. -/
def acfBytes (m : AcfMsg) : Nat := (if m.kind = 1 then 16 else 8) + cdiv m.data.length 4 * 4

def beBytes (n v : Nat) : List Byte := (leBytes n v).reverse

/-- A CAN or CAN Brief message as IEEE 1722 lays it out (PRESUMED, log 40). -/
def acfMsgData (m : AcfMsg) : List Byte :=
  let pad := (4 - m.data.length % 4) % 4
  beBytes 2 (m.kind * 2 ^ 9 + acfBytes m / 4) ++
    beBytes 1 (pad * 64 + (if m.kind = 1 then 32 else 0) + b2n m.ide * 8 + b2n m.brs * 4 + b2n m.fd * 2) ++
    beBytes 1 (Config.acfBus % 32) ++ (if m.kind = 1 then beBytes 8 m.stamp else []) ++ beBytes 4 m.ident ++ m.data ++
    List.replicate pad 0

/-- The AVTP part of an ACF frame: an NTSCF or a TSCF header, then the messages (PRESUMED, log 40). -/
def acfPayload (f : AcfFrame) : List Byte :=
  let ms := f.msgs.flatMap acfMsgData
  (if f.subtype = 0x05 then
    [0x05, 0x81] ++ beBytes 1 f.seq ++ [0] ++ beBytes 8 f.streamId ++ beBytes 4 f.ts ++ [0, 0, 0, 0] ++ beBytes 2 ms.length ++ [0, 0]
   else [0x82] ++ beBytes 1 (128 + ms.length / 256 % 8) ++ beBytes 1 ms.length ++ beBytes 1 f.seq ++ beBytes 8 f.streamId) ++ ms

/-- The Ethernet frame in which a talker's ACF frame enters the switch: EtherType 0x22F0, tagged or not (R549). -/
def State.acfEth (s : State) (n : Nat) (f : AcfFrame) : EthFrame :=
  let dmac := s.get (GW_ACF_W2_DMAC n)
  let smac := Config.gwMac % 2 ^ 48
  let tagged := s.flag (GW_ACF_W0_TAGGED n)
  let vid := if tagged then s.get (GW_ACF_W0_VID n) else 0
  let pcp := if tagged then s.get (GW_ACF_W0_PCP n) else 0
  let data := beBytes 6 dmac ++ beBytes 6 smac ++ (if tagged then [0x81, 0x00] ++ beBytes 2 (pcp * 2 ^ 13 + vid) else []) ++ [0x22, 0xF0] ++
    acfPayload f
  ⟨dmac, smac, vid, pcp, tagged, data ++ List.replicate (60 - data.length) 0⟩

/-- Send one frame of a talker through the switch's host port. -/
def State.acfSend (s : State) (n : Nat) (ms : List AcfMsg) : State :=
  let x := s.acf n
  let tscf := s.flag (GW_ACF_W0_TSCF n)
  let len := (if s.flag (GW_ACF_W0_TAGGED n) then 18 else 14) + (if tscf then 24 else 12) + (ms.map acfBytes).foldl (· + ·) 0
  let f : AcfFrame := ⟨0, if tscf then 0x05 else 0x82, s.get (GW_ACF_W1_STREAM_ID n), x.seq, tscf,
    if tscf then (s.beacon + s.get (GW_ACF_W0_TRANSIT_US n) * 1000) % 2 ^ 32 else 0, len, ms⟩
  let e := s.acfEth n f
  ({ s with out := { s.out with acf := s.out.acf ++ [(n, f)] } }.setAcf n { x with seq := (x.seq + 1) % 256 }).bridge 8
    (Config.ethClass e.pcp % 8) e

/-- Frames of at most 1,400 bytes of messages, in arrival order. -/
def acfPack : List AcfMsg → Nat → List AcfMsg → List (List AcfMsg)
  | [], _, cur => if cur.isEmpty then [] else [cur]
  | m :: ms, n, cur =>
    if n + acfBytes m ≤ 1400 ∨ cur.isEmpty then acfPack ms (n + acfBytes m) (cur ++ [m])
    else cur :: acfPack ms (acfBytes m) [m]

/-- A route's frame for a talker. The message type is open among the two CAN types (log 7). -/
def State.acfTalk (s : State) (n : Nat) (f : CanFrame) (stamp : Nat) : State :=
  if !s.flag (GW_ACF_W0_EN n) || !s.flag (GW_ACF_W0_TALKER n) then s else
  let m : AcfMsg := ⟨1 + Config.freeNat s.fresh % 2, f.ident, f.ide, f.fd, f.brs, stamp, f.data⟩
  let s := s.freshen 1
  if s.get (GW_ACF_W0_PERIOD_US n) = 0 then s.acfSend n [m]
  else s.setAcf n { s.acf n with msgs := (s.acf n).msgs ++ [m] }

/-- ACF_TALKER_PERIOD: the latest instant that has come and was not yet served. -/
def execAcfTalkerPeriod (st : Nat) (s : State) : Out :=
  .next (
    let p := s.get (GW_ACF_W0_PERIOD_US st) * 1000
    let t := s.beacon / max 1 p * p + 1
    if 32 ≤ st ∨ p = 0 ∨ ¬ s.flag (GW_ACF_W0_EN st) ∨ ¬ s.flag (GW_ACF_W0_TALKER st) ∨ s.dead ∨ t ≤ (s.acf st).lastT then s else
    let ms := (s.acf st).msgs
    (acfPack ms 0 []).foldl (fun s x => s.acfSend st x) (s.setAcf st { s.acf st with msgs := [], lastT := t }))

/-! ### Routes (R552 to R555) -/

def State.rte (s : State) (r : Nat) : RouteSt := mget (fun _ => ⟨none, false, 0⟩) s.gw.routes r
def State.setRte (s : State) (r : Nat) (x : RouteSt) : State :=
  { s with gw := { s.gw with routes := mset (fun _ => ⟨none, false, 0⟩) s.gw.routes r x } }

/-- A signal slot takes a frame record. -/
def State.setSlotRec (s : State) (i : Nat) (bs : List Byte) : State :=
  { s with gw := { s.gw with slots := mset (fun _ => List.replicate 96 0) s.gw.slots i bs } }

/-- Interface number of a route's source. -/
def State.rteIf (s : State) (r : Nat) : Nat := if s.get (GW_ROUTE_W0_SRC_KIND r) = 0 then s.get (GW_ROUTE_W0_SRC_IF r) % 16 else 16

/-- Deliver a frame by a route. -/
def State.routeSend (s : State) (r : Nat) (f : CanFrame) (stamp : Nat) : State :=
  match s.get (GW_ROUTE_W0_DST_KIND r) with
  | 0 =>
    let fd := s.flag (GW_ROUTE_W3_DST_FD r)
    if !fd && decide (8 < f.data.length) then s.bump GW_CNT_DROP_LEN_COUNT 1
    else s.canPend (s.get (GW_ROUTE_W0_DST_IF r) % 16)
      ⟨s.get (GW_ROUTE_W3_DST_ID r), s.flag (GW_ROUTE_W3_DST_IDE r), fd, s.flag (GW_ROUTE_W3_DST_BRS r), false, f.data⟩
      (if s.flag (GW_ROUTE_W0_MODE r) then some r else none) none
  | 1 => s.acfTalk (s.get (GW_ROUTE_W0_DST_IF r)) f stamp
  | 2 =>
    let n := f.data.length
    s.setSlotRec (s.get (GW_ROUTE_W2_SLOT r))
      (recHeader stamp n (s.rteIf r) 0 f ++ (f.data.take 64) ++ List.replicate (80 - min 64 n) 0)
  | _ => s.hostReceive (s.rteIf r) (frameRec stamp (s.rteIf r) 0 f)

/-- The last instant of a latest-value route at or before now. -/
def State.rteInstant (s : State) (r : Nat) : Option Nat :=
  let p := s.get (GW_ROUTE_W0_PERIOD_US r) * 1000
  let ph := s.get (GW_ROUTE_W2_PHASE_US r) * 1000
  if p = 0 ∨ s.beacon < ph then none else some ((s.beacon - ph) / p * p + ph)

/-- A frame reaches a route. One whose stamp is an instant that was served counts for it. -/
def State.routeFrame (s : State) (r : Nat) (f : CanFrame) (stamp : Nat) : State :=
  if !s.flag (GW_ROUTE_W0_MODE r) then s.routeSend r f stamp
  else
    let x := s.rte r
    let s := if x.fresh then s.bump GW_CNT_OVERWRITE_COUNT 1 else s
    if s.rteInstant r = some stamp ∧ x.lastT = stamp + 1 then
      (s.setRte r { x with value := some (f, stamp), fresh := false }).routeSend r f stamp
    else s.setRte r { x with value := some (f, stamp), fresh := true }

/-- Does a frame of a source match a route (R552)? -/
def State.routeMatch (s : State) (kind ifc : Nat) (f : CanFrame) (r : Nat) : Bool :=
  s.flag (GW_ROUTE_W0_EN r) && s.get (GW_ROUTE_W0_SRC_KIND r) == kind && s.get (GW_ROUTE_W0_SRC_IF r) == ifc &&
    s.flag (GW_ROUTE_W1_IDE r) == f.ide && Nat.land (Nat.xor (s.get (GW_ROUTE_W1_ID r)) f.ident) (s.get (GW_ROUTE_W1_ID_MASK r)) == 0

/-- Offer a frame to every matching route, in ascending order (R555). -/
def State.offer (s : State) (kind ifc : Nat) (f : CanFrame) (stamp : Nat) : State :=
  ((List.range 1024).filter (s.routeMatch kind ifc f)).foldl (fun s r => s.routeFrame r f stamp) s

/-- A write of a route: an enable begins without a value. -/
def State.writeRoute (s : State) (r w v mask : Nat) : State :=
  let was := s.flag (GW_ROUTE_W0_EN r)
  let s := s.plainWrite (GW_ROUTE_W0 r + 8 * w) v mask
  if s.flag (GW_ROUTE_W0_EN r) != was then s.setRte r ⟨none, false, 0⟩ else s

/-- ROUTE_INSTANT. -/
def execRouteInstant (r : Nat) (s : State) : Out :=
  .next (if 1024 ≤ r ∨ s.dead ∨ ¬ s.flag (GW_ROUTE_W0_EN r) ∨ ¬ s.flag (GW_ROUTE_W0_MODE r) then s else
    let x := s.rte r
    match s.rteInstant r, x.value with
    | some t, some (f, stamp) =>
      if t + 1 ≤ x.lastT ∨ t < stamp then s
      else
        let s := s.setRte r { x with fresh := false, lastT := t + 1 }
        if x.fresh || s.flag (GW_ROUTE_W0_REPEAT r) then (s.routeSend r f stamp).settle else s
    | some t, none => if t + 1 ≤ x.lastT then s else s.setRte r { x with lastT := t + 1 }
    | none, _ => s)

/-- CAN_FRAME_RECEIVED. -/
def execCanFrameReceived (n : Nat) (f : CanFrame) (s : State) : Out :=
  .next (if !s.canOn n || s.dead || (f.fd && !s.flag (GW_CAN_CFG_FD n)) then s else
    let s := (s.bump (GW_CAN_CNT_COUNT n 0) 1).drop (GW_CAN_STAT_REC n) 1
    if f.rtr then s.bump GW_CNT_RTR_COUNT 1 else (s.offer 0 n f s.beacon).settle)

/-- The message of a listener as the frame that routes match (R551). -/
def acfFrame (m : AcfMsg) : CanFrame :=
  if m.kind = 5 then ⟨m.ident % 2 ^ 29, true, decide (8 < m.data.length), false, false, m.data⟩
  else ⟨m.ident, m.ide, m.fd, m.brs, false, m.data⟩

def State.acfOffer (s : State) (n : Nat) (ms : List AcfMsg) : State :=
  ms.foldl (fun s m => s.offer 1 n (acfFrame m) s.beacon) s

/-- ACF_FRAME_RECEIVED. -/
def execAcfFrameReceived (st : Nat) (f : AcfFrame) (s : State) : Out :=
  .next (if 32 ≤ st ∨ s.dead ∨ ¬ s.flag (GW_ACF_W0_EN st) ∨ s.flag (GW_ACF_W0_TALKER st) ∨
      f.streamId ≠ s.get (GW_ACF_W1_STREAM_ID st) then s else
    if f.ver ≠ 0 ∨ (f.subtype ≠ 0x82 ∧ f.subtype ≠ 0x05) ∨ 1522 < f.len ∨ f.msgs.any (fun m => m.kind != 1 && m.kind != 2 && m.kind != 5) then
      s.bump GW_CNT_ACF_DROP_COUNT 1
    else
      let x := s.acf st
      let s := if x.live ∧ x.seq ≠ f.seq % 256 then s.bump GW_CNT_ACF_SEQ_COUNT 1 else s
      let x := { x with live := true, seq := (f.seq + 1) % 256 }
      let d : Int := sgn 32 (f.ts + 2 ^ 32 - s.beacon % 2 ^ 32)
      if s.flag (GW_ACF_W0_TSCF st) && f.tv && decide (0 < d) then
        s.setAcf st { x with pres := x.pres ++ [(s.beacon + d.toNat, f.msgs)] }
      else
        let s := if s.flag (GW_ACF_W0_TSCF st) && f.tv && decide (d < 0) then s.bump GW_CNT_ACF_LATE_COUNT 1 else s
        ((s.setAcf st x).acfOffer st f.msgs).settle)

/-- ACF_PRESENTATION: messages whose presentation time has come. -/
def execAcfPresentation (st : Nat) (s : State) : Out :=
  .next (
    let x := s.acf st
    let now := x.pres.filter (fun p => decide (p.1 ≤ s.beacon))
    if now.isEmpty ∨ s.dead then s else
    let s := s.setAcf st { x with pres := x.pres.filter (fun p => decide (s.beacon < p.1)) }
    (now.foldl (fun s p => s.acfOffer st p.2) s).settle)

/-! ### GW_TX (R557 to R559) -/

/-- A record read from the source: its fields, or what is wrong with it. -/
def State.txRecord (s : State) (d : Desc) (bs : List Byte) (idx o : Nat) : Except (Nat × Nat) (TxRec × Nat) :=
  let h := u bs (o + 8) 8
  let len := bitsOf h 0 16
  let ifc := bitsOf h 16 5
  let fd := bitOf h 25
  let n := (16 + len + 31) / 32 * 32
  let badLen := if ifc = 16 then decide (len < 14) || decide (1996 < len) else decide (64 < len) || (!fd && decide (8 < len))
  if bs.length < o + 16 ∨ 16 < ifc ∨ bitsOf h 27 5 ≠ 0 ∨ bitsOf h 61 3 ≠ 0 ∨ badLen ∨ bs.length < o + n then .error (0xBA, o)
  else if s.get (GW_OWN_PART ifc) ≠ s.descPart d then .error (0xB8, ifc)
  else if ifc < 16 ∧ s.isRetired (chCan ifc) then .error (0x31, 33)
  else .ok (⟨d.id, idx, o, ifc, u bs o 8, bitsOf h 21 3, ⟨bitsOf h 32 29, bitOf h 24, fd, bitOf h 26, false, (bs.drop (o + 16)).take len⟩, 0⟩, n)

/-- All records of a source. -/
def State.txRecords (s : State) (d : Desc) (bs : List Byte) : Nat → Nat → Nat → Except (Nat × Nat) (List TxRec)
  | 0, _, _ => .ok []
  | k + 1, idx, o =>
    if bs.length ≤ o then .ok []
    else match s.txRecord d bs idx o with
      | .error e => .error e
      | .ok (r, n) =>
        match s.txRecords d bs k (idx + 1) (o + n) with
        | .error e => .error e
        | .ok rs => .ok (r :: rs)

def State.setTx (s : State) (i idx st : Nat) : State :=
  { s with gw := { s.gw with tx := s.gw.tx.map (fun (r : TxRec) => if r.desc = i ∧ r.idx = idx then { r with st := st } else r) } }

/-- The Ethernet frame of a record. -/
def ethOf (bs : List Byte) : EthFrame :=
  let tagged := leNat ((bs.drop 12).take 2).reverse == 0x8100
  let tci := leNat ((bs.drop 14).take 2).reverse
  ⟨leNat (bs.take 6).reverse, leNat ((bs.drop 6).take 6).reverse, if tagged then tci % 4096 else 0, if tagged then tci / 2 ^ 13 else 0,
    tagged, bs⟩

/-- A record's launch time has come: a CAN frame becomes pending, an Ethernet frame enters the switch. -/
def State.launch (s : State) (r : TxRec) : State :=
  let s := s.setTx r.desc r.idx 1
  if r.ifc = 16 then s.bridge 8 r.tc (ethOf r.f.data) else s.canPend r.ifc r.f none (some (r.desc, r.idx))

/-- Launch records in order on each interface: a later one follows the earlier ones. -/
def State.launchFrom (s : State) (i : Nat) : List TxRec → State
  | [] => s
  | r :: rs =>
    let held := s.gw.tx.any (fun x => x.desc == i && x.ifc == r.ifc && decide (x.idx < r.idx) && x.st == 0)
    (if r.st = 0 && !held && decide (r.t ≤ s.beacon) then s.launch r else s).launchFrom i rs

def State.txOf (s : State) (i : Nat) : List TxRec := s.gw.tx.filter (fun r => r.desc == i)

def State.dropTx (s : State) (i : Nat) : State :=
  { s with gw := { s.gw with
      tx := s.gw.tx.filter (fun r => r.desc != i)
      ethQ := s.gw.ethQ.filter (fun x => !s.gw.tx.any (fun r => r.desc == i && r.ifc == 16 && r.st == 1 && x.2.2 == ethOf r.f.data))
      can := s.gw.can.map (fun (e : Nat × CanSt) => (e.1, { e.2 with pend := e.2.pend.filter (fun p => match p.tx with
        | some (j, _) => j != i
        | none => true) })) } }

/-- Complete a GW_TX whose frames are all sent. -/
def State.txCheck (s : State) (i : Nat) : State :=
  if (s.txOf i).all (fun r => r.st == 2) then ((s.dropTx i).gwDone i 0 0).settle else s

/-- GW_TX: every record is checked before any frame is queued. -/
def execGwTx (d : Nat) (s : State) : Out :=
  .next (match s.desc? d with
    | none => s
    | some x =>
      if !x.runnable 0xC0 || x.step != 0 then s else
      match s.readMem (s.mreq x 33) x.a16 (x.u 24 4) with
      | (s1, .error .wait) => s.keepRequests s1
      | (s, .error (.fail c a)) => (s.gwDone d c a).settle
      | (s, .ok bs) =>
        match s.txRecords x bs (bs.length / 32 + 1) 0 0 with
        | .error (c, o) => (s.gwDone d c o).settle
        | .ok rs =>
          let s := { s.updDesc d (fun x => { x with step := 1 }) with gw := { s.gw with tx := s.gw.tx ++ rs } }
          (s.launchFrom d rs).txCheck d)

/-- LAUNCH_TIME: record `i` of descriptor `d`, and those that waited behind it. -/
def execLaunchTime (d i : Nat) (s : State) : Out :=
  .next (match s.gw.tx.find? (fun r => r.desc == d && r.idx == i) with
    | none => s
    | some r => (s.launchFrom d ((s.txOf d).filter (fun x => x.ifc == r.ifc && decide (i ≤ x.idx)))).settle)

/-- ETH_FRAME_SENT: an Ethernet frame of a GW_TX has left the switch. -/
def execEthFrameSent (d i : Nat) (s : State) : Out :=
  .next (match s.gw.tx.find? (fun r => r.desc == d && r.idx == i) with
    | none => s
    | some r =>
      if r.st ≠ 1 ∨ r.ifc ≠ 16 ∨ s.gw.ethQ.any (fun x => x.2.2 == ethOf r.f.data) ∨
        s.gw.busy.any (fun x => x.2.2 == ethOf r.f.data && decide (s.c < x.2.1)) then s
      else (s.setTx d i 2).txCheck d)

/-- CAN_FRAME_SENT: the frame that wins arbitration has been sent. -/
def execCanFrameSent (n : Nat) (s : State) : Out :=
  .next (if !s.canOn n || s.dead || s.flag (GW_CAN_CFG_LISTEN n) then s else
    match sortBy canBefore (s.can n).pend with
    | [] => s
    | p :: _ =>
      let s := s.setCan n { pend := (s.can n).pend.filter (fun q => q.seq != p.seq), offs := 0 }
      let s := (s.bump (GW_CAN_CNT_COUNT n 1) 1).drop (GW_CAN_STAT_TEC n) 1
      let s := { s with out := { s.out with can := s.out.can ++ [(n, p.f)] } }
      match p.tx with
      | some (d, i) => (s.setTx d i 2).txCheck d
      | none => s)

/-- CAN_TX_TIMEOUT. -/
def execCanTxTimeout (d : Nat) (s : State) : Out :=
  .next (match s.desc? d with
    | none => s
    | some x =>
      if !x.runnable 0xC0 ∨ s.c < x.dispC + msTicks (x.u 28 2) then s else
      match (s.txOf d).find? (fun r => r.ifc != 16 && r.st != 2) with
      | none => s
      | some r => ((s.dropTx d).gwDone d 0xB9 r.off).settle)

/-- CAN_BUS_OFF. TEC after a bus-off is open (log 7). -/
def execCanBusOff (n : Nat) (s : State) : Out :=
  .next (if !s.canOn n || s.dead then s else
    let x := s.can n
    let s := (s.bump (GW_CAN_CNT_COUNT n 3) 1).transient (chCan n)
    let s := ((s.put (GW_CAN_STAT_STATE n) 3).put (GW_CAN_STAT_TEC n) (Config.freeNat s.fresh)).freshen 1
    let s := s.setCan n { x with offs := x.offs + 1 }
    if decide (s.get SAF_CTL_ATTEMPTS ≤ x.offs + 1) || s.rateHit (chCan n) then
      let mine := (s.gw.tx.filter (fun r => r.ifc == n && r.st != 2)).map (fun r => r.desc)
      let s := ((s.retire (chCan n) 3).put (GW_CAN_STAT_STATE n) 4).setCan n ⟨[], 0⟩
      (mine.foldl (fun s d => if (s.txOf d).isEmpty then s else (s.dropTx d).gwDone d 0x31 33) s).settle
    else s)

/-- BUS_OFF_RECOVERY. -/
def execBusOffRecovery (n : Nat) (s : State) : Out :=
  .next (if 16 ≤ n ∨ s.dead ∨ s.canState n ≠ 3 then s
    else (((s.put (GW_CAN_STAT_STATE n) 1).put (GW_CAN_STAT_TEC n) 0).put (GW_CAN_STAT_REC n) 0))

/-! ### GW_RX and GW_SIG_READ (R558) -/

/-- GW_RX: the buffer is held, in dispatch order. -/
def execGwRx (d : Nat) (s : State) : Out :=
  .next (match s.desc? d with
    | none => s
    | some x =>
      if !x.runnable 0xC1 || x.step != 0 then s else
      match (maskBits 17 (x.u 32 4)).find? (fun i => s.get (GW_OWN_PART i) != s.descPart x) with
      | some i => (s.gwDone d 0xB8 i).settle
      | none =>
        let when (b : RxBuf) : Nat := match s.desc? b.desc with
          | some y => y.dispC
          | none => 0
        let s1 := s.updDesc d (fun x => { x with step := 1 })
        let rx := sortBy (fun a b => decide (when a < when b) || (when a == when b && decide (a.desc ≤ b.desc)))
          (s1.gw.rx ++ [(⟨d, 0, 0⟩ : RxBuf)])
        { s1 with gw := { s1.gw with rx := rx } })

/-- GW_RX_WAIT_EXPIRY. -/
def execGwRxWaitExpiry (d : Nat) (s : State) : Out :=
  .next (match s.desc? d, s.gw.rx.find? (fun b => b.desc == d) with
    | some x, some b =>
      if b.first = 0 ∨ s.c + 1 < b.first + usTicks (x.u 28 2) then s else ((s.dropRx d).gwDone d 0 0).settle
    | _, _ => s)

/-- What the engine of 0xC2 does (see execGwSigRead). -/
def workGwSigRead (x : Desc) : Eng (Nat × Nat) := do
    let s ← eGet
    let slots := (List.range (sigCount x)).map (sigFirst x + ·)
    match slots.find? (fun i => s.get (GW_OWN_PART (17 + i / 64)) != s.descPart x) with
    | some i => eFail 0xB8 (17 + i / 64)
    | none =>
      eWrite (s.mreq x 33) false 0 x.a16 (slots.flatMap (fun i => mget (fun _ => List.replicate 96 0) s.gw.slots i))
      return (0, 0)

/-- GW_SIG_READ. -/
def execGwSigRead (d : Nat) (s : State) : Out := .next (s.ownWork d 0xC2 33 workGwSigRead)

end Sys2Proof.Machine
end

