-- ==== Sys2Proof/Machine/Bridge.lean ====
section
/-!
DEFINITION. The window bridge: windows, bridge semaphores, exclusive sequences and trailing reads (R560 to R568).
-/

namespace Sys2Proof.Machine

/-! ### Windows and semaphores (R560, R566) -/

/-- Ranges of the host-window space that a window covers. -/
def State.winRange (s : State) (w : Nat) : Nat × Nat := (s.get (WBR_WIN_W1_DEV_BASE w) * 4096, 2 ^ s.get (WBR_WIN_W0_SIZE_LOG2 w))

/-- An enabled window that R560 does not allow: misaligned, or over another enabled one. -/
def State.winBad (s : State) (w : Nat) : Bool :=
  let (b, n) := s.winRange w
  s.flag (WBR_WIN_W0_EN w) && (b % n != 0 || (List.range 64).any (fun x =>
    x != w && s.flag (WBR_WIN_W0_EN x) && (let (c, m) := s.winRange x; decide (b < c + m) && decide (c < b + n))))

/-- A write of one word of a window. -/
def State.writeWin (s : State) (rq : Requester) (w word v mask : Nat) : State :=
  let base := WBR_WIN_W0 w + 8 * word
  let s1 := s.setReg base (BitVec.ofNat 64 (writeFields (fieldsAt base) false (rq == .lantern) (s.reg base).toNat v mask))
  if s1.winBad w then s.put WBR_IRQ_CFG_ERR 1 else s1

/-- WBR_WIN_WRITE. -/
def execWbrWinWrite (rq : Requester) (w word : Nat) (v : Word64) (s : State) : Out :=
  .next (if 64 ≤ w ∨ 3 ≤ word then s else s.guarded rq (WBR_WIN_W0 w + 8 * word) (fun s => s.writeWin rq w word v.toNat mask64))

/-- A write of WBR_SEM. -/
def State.writeSem (s : State) (n v : Nat) : State :=
  let h := s.get (WBR_SEM_HOLDER n)
  if v % 256 = 1 ∧ h = 0 then s.put (WBR_SEM_HOLDER n) 1
  else if v % 256 = 0 ∧ h = 1 then s.put (WBR_SEM_HOLDER n) 0
  else s

/-- WBR_SEM_WRITE. -/
def execWbrSemWrite (rq : Requester) (n : Nat) (v : Word32) (s : State) : Out :=
  .next (if 16 ≤ n then s else s.guarded rq (WBR_SEM n) (fun s => s.writeSem n v.toNat))

/-! ### WBR_ATOMIC (R567) -/

/-- The progress of a WBR_ATOMIC in `step`: 0 not begun; 1 + counter value of the start of its wait; from 2^64 on, its
write has gone out, and the old value is the rest. -/
def atomicOut : Nat := 18446744073709551616

/-- The new value, where one is written. -/
def atomicNew (d : Desc) (n old : Nat) : Option Nat :=
  let v := d.u 40 8 % 2 ^ (8 * n)
  match bitsOf (d.u 24 1) 0 2 with
  | 0 => if old = d.u 32 8 % 2 ^ (8 * n) then some v else none
  | 1 => some ((old + v) % 2 ^ (8 * n))
  | _ => some v

/-- The window and semaphore of a WBR_ATOMIC, where its address has one. -/
def State.atomicSem (s : State) (d : Desc) : Option Nat := (s.winOf d.a16).map (fun w => s.get (WBR_WIN_W0_SEM w))

def State.freeSem (s : State) (n : Nat) : State := if s.get (WBR_SEM_HOLDER n) = 0xFF then s.put (WBR_SEM_HOLDER n) 0 else s

/-- The end of an exclusive sequence: the semaphore is released, the old value written. -/
def State.atomicEnd (s : State) (i old : Nat) : State :=
  s.ownWork i 0xC3 33 (fun x => do
    eMod (fun s => match s.atomicSem x with
      | some n => s.freeSem n
      | none => s)
    let s ← eGet
    eWrite (s.mreq x 33) false 0 (bitsOf (x.u 48 8) 0 48) (leBytes 8 old)
    return (0, 0))

/-- A failure of a step. -/
def State.atomicFail (s : State) (i st dt : Nat) : State :=
  match s.desc? i with
  | none => s
  | some x =>
    let s := match s.atomicSem x with
      | some n => s.freeSem n
      | none => s
    (s.gwDone i st dt).settle

/-- Steps 2 to 4 once the semaphore is held. -/
def State.atomicRun (s : State) (x : Desc) (w : Nat) : State :=
  let n := if bitOf (x.u 24 1) 2 then 8 else 4
  let r := s.mreq x 33
  match s.readHost r x.a16 n with
  | (s, .error (.fail c a)) => s.atomicFail x.id c a
  | (s, .error .wait) => s
  | (s, .ok bs) =>
    let old := leNat bs
    match atomicNew x n old with
    | none => s.atomicEnd x.id old
    | some v =>
      let bus := s.get (WBR_WIN_W2_BUS_ADDR w) * 4096 + (x.a16 - hostBase - s.get (WBR_WIN_W1_DEV_BASE w) * 4096)
      match s.hostWrite (s.get (WBR_WIN_W0_FUNC w)) bus (s.winBytes w (leBytes n v)) with
      | (s, false) => (s.wbrLog 2 1 w 33 r.ctx x.a16 bus).atomicFail x.id 0x25 x.a16
      | (s, true) => { s.updDesc x.id (fun d => { d with step := atomicOut + old }) with
          trail := s.trail ++ [(⟨x.id, w, x.a16 + n - 1, bus + n - 1, 33, r.ctx, true⟩ : TrailRd)] }

/-- WBR_ATOMIC: a held semaphore is waited for. -/
def execWbrAtomic (d : Nat) (s : State) : Out :=
  .next (match s.desc? d with
    | none => s
    | some x =>
      if !x.runnable 0xC3 || decide (atomicOut ≤ x.step) then s else
      let n := if bitOf (x.u 24 1) 2 then 8 else 4
      match s.winCheck (s.mreq x 33) x.a16 n with
      | .error (c, a) => ((if c = 0x22 then s.refuseAccess (s.mreq x 33) c a else s).gwDone d c a).settle
      | .ok (w, _) =>
        let k := s.get (WBR_WIN_W0_SEM w)
        if s.get (WBR_SEM_HOLDER k) ≠ 0 then
          if x.step = 0 then s.updDesc d (fun x => { x with step := s.c + 1 }) else s
        else (s.put (WBR_SEM_HOLDER k) 0xFF).atomicRun x w)

/-- WBR_SEM_WAIT_EXPIRY: 1 ms. -/
def execWbrSemWaitExpiry (d : Nat) (s : State) : Out :=
  .next (match s.desc? d with
    | none => s
    | some x =>
      if !x.runnable 0xC3 ∨ x.step = 0 ∨ atomicOut ≤ x.step ∨ s.c + 1 < x.step + msTicks 1 then s
      else (s.gwDone d 0xBB ((s.atomicSem x).getD 0)).settle)

/-! ### Trailing reads (R562, R563) -/

/-- The end of a trailing read with a completion status (7: none came). -/
def State.trailEnd (s : State) (t : TrailRd) (cpl : Nat) : State :=
  let s := { s with trail := s.trail.erase t, pwr := { s.pwr with ltrC := s.c } }
  let atomic := match s.desc? t.desc with
    | some d => if d.opc = 0xC3 ∧ atomicOut ≤ d.step ∧ d.runnable 0xC3 then some (d.step - atomicOut) else none
    | none => none
  if cpl = 0 then
    match atomic with
    | some old => s.atomicEnd t.desc old
    | none => s.settle
  else
    let s := s.wbrLog (if t.nonPosted then 2 else 1) cpl t.win t.isl t.ctx t.addr t.bus
    if !t.nonPosted then s.settle
    else match atomic with
      | some _ => s.atomicFail t.desc 0x25 t.addr
      | none => (s.writeFailed t.desc 0x25 t.addr).settle

/-- TRAILING_READ_DONE: the oldest outstanding one completes, with status `cpl`. -/
def execTrailingReadDone (cpl : Nat) (s : State) : Out :=
  .next (match s.trail with
    | [] => s
    | t :: _ => (s.trailEnd t cpl).refreshLtr)

/-- A read in a prefetchable window that got no completion is tried again, ATTEMPTS times in all (R28, R564): is this one tried
again? -/
def State.readAgain (s : State) (d w : Nat) : Bool :=
  s.flag (WBR_WIN_W0_PREF w) && decide (mget (fun _ => 0) s.cplTries d + 1 < s.get SAF_CTL_ATTEMPTS)

/-- The reads without completion of a descriptor; ended descriptors' are forgotten. -/
def State.setTries (s : State) (d n : Nat) : State :=
  { s with cplTries := mset (fun _ => 0) (s.cplTries.filter (fun e => (s.desc? e.1).isSome)) d n }

/-- CPL_TIMEOUT: no completion of a trailing read of descriptor `d`, or of the read that its engine waits for. -/
def execCplTimeout (d addr : Nat) (s : State) : Out :=
  .next (match s.trail.find? (fun t => t.desc == d && t.addr == addr) with
    | some t => (s.trailEnd t 7).refreshLtr
    | none =>
      match s.desc? d, s.winOf addr with
      | some x, some w =>
        if spaceOf addr ≠ .host ∨ x.phase ≠ .dispatched ∨ x.effected ∨ !x.parts.any (fun p => p.active) then s else
        if s.readAgain d w then s.setTries d (mget (fun _ => 0) s.cplTries d + 1) else
        let s := s.setTries d 0
        let bus := s.get (WBR_WIN_W2_BUS_ADDR w) * 4096 + (addr - hostBase - s.get (WBR_WIN_W1_DEV_BASE w) * 4096)
        let isl := match x.parts.find? (fun p => p.active) with
          | some p => p.isl
          | none => 36
        let s := s.wbrLog 2 7 w isl (s.ctxOf x) addr bus
        if x.opc = 0xC3 then s.atomicFail d 0x25 addr
        else s.setResults d (x.parts.map (fun p => (p.isl, 0x25, addr)))
      | _, _ => s)

end Sys2Proof.Machine
end

