-- ==== Sys2Proof/Machine/Trace.lean ====
section
/-!
DEFINITION. The trace writer (R572, R575 to R577) and one period of the free-running counter (R500).
-/

namespace Sys2Proof.Machine

/-- An event as its 32-byte record (R572). -/
def eventBytes (e : Event) : List Byte :=
  leBytes 8 e.t ++ leBytes 4 (e.kind + e.isl * 2 ^ 8 + e.q * 2 ^ 14) ++
  leBytes 4 (e.ctx + e.status * 2 ^ 8 + e.idx * 2 ^ 16) ++ leBytes 4 (e.layer + e.op * 2 ^ 16) ++
  leBytes 4 e.a ++ leBytes 8 e.b

/-- Write one record: with the tag of TRACE_PART, checked by R21; a refused write stops the trace. -/
def State.traceWrite (s : State) (e : Event) : State :=
  let cap := 2 ^ (s.get DBG_TRACE_CFG_SIZE_LOG2 - 5)
  let n := s.get DBG_TRACE_STAT_WR_IDX
  let part := s.get DBG_TRACE_CFG_TRACE_PART
  let (s, err) := s.writeMem ⟨part, s.flag (QOS_PART_W part), 36, 0, none⟩ false 0
    (s.get DBG_TRACE_BASE_BASE * 64 + 32 * (n % cap)) (eventBytes e)
  match err with
  | some _ => (s.put DBG_TRACE_STAT_WR_ERR 1).put DBG_TRACE_STAT_FROZEN 1
  | none =>
    let s := s.put DBG_TRACE_STAT_WR_IDX (n + 1)
    let s := if cap ≤ n then s.put DBG_TRACE_STAT_WRAPPED 1 else s
    let s := match s.trace.post with
      | some 1 => { s.put DBG_TRACE_STAT_FROZEN 1 with trace := { s.trace with post := none } }
      | some (k + 1) => { s with trace := { s.trace with post := some k } }
      | _ => s
    if !s.flag DBG_TRACE_CFG_WRAP && decide (cap ≤ n + 1) then s.put DBG_TRACE_STAT_FROZEN 1 else s

/-- The writer takes the next record: a LOST record comes first where events of its island were dropped (R576). -/
def State.traceStep (s : State) : State :=
  if !s.flag DBG_TRACE_CFG_EN || s.flag DBG_TRACE_STAT_FROZEN then s else
  match s.trace.queue with
  | [] => s
  | e :: es =>
    let lost := mget (fun _ => 0) s.trace.drops e.isl
    if lost = 0 then { s with trace := { s.trace with queue := es } }.traceWrite e
    else { s with trace := { s.trace with drops := mdel e.isl s.trace.drops } }.traceWrite
      ⟨s.beacon, 0x11, e.isl, 0x3FFF, 0, 0, 0, 0, 0, lost % 2 ^ 32, 0⟩

/-- One period of c, 1.25 ns (R500): the counter counts, free ports of the
switch start their next frames, and every eighth tick the trace writer, at 100 M records/s, stores
one record. In cold reset or without the system clock nothing counts. -/
def State.tick (s : State) : State :=
  if s.dead then s else
  let s := { s with now := s.now + 1 }.ddrTick.ethTick
  if s.c % 8 = 0 then s.traceStep else s

end Sys2Proof.Machine
end

