-- ==== Sys2Proof/Machine/Debug.lean ====
section
/-!
DEFINITION. Snapshots, markers, the trace controls, the rings' window, hang detection and the fog-signal dump (R569 to R586).
-/

namespace Sys2Proof.Machine

/-! ### The debug opcodes (R583) -/

/-- Finish an opcode of firmware. -/
def State.fwDone (s : State) (i st dt : Nat) : State := ({ s with seq := s.seq + 1 }.finishPart i 36 st dt).settle

/-- The copy of a DBG_SNAPSHOT: one that finds HELD copies nothing. -/
def State.snapNow (s : State) (i : Nat) : State :=
  let held := s.flag DBG_SNAP_CTL_HELD
  s.snapshot.fwDone i (if held then 0xC8 else 0) 0

/-- DBG_SNAPSHOT. -/
def execDbgSnapshot (d : Nat) (s : State) : Out :=
  .next (match s.desc? d with
    | none => s
    | some x =>
      if !x.runnable 0xE0 || x.step != 0 then s
      else if s.qFn x.q ≠ 0 then s.fwDone d 0xCB 0
      else
        let t := x.u 16 8
        let t0 := s.beaconAt x.dispC
        if t = 0 then s.snapNow d
        else if t < t0 + 10000 ∨ t0 + 10000000000 < t then s.fwDone d 0xC9 0
        else s.updDesc d (fun x => { x with step := 1 }))

/-- SNAPSHOT_INSTANT: the copies whose time has come. -/
def execSnapshotInstant (s : State) : Out :=
  .next (((s.descs.filter (fun x => x.runnable 0xE0 && x.step == 1 && decide (x.u 16 8 ≤ s.beacon))).map (fun x => x.id)).foldl
    State.snapNow s)

/-- What the engine of 0xE1 does (see execDbgMark). -/
def workDbgMark (x : Desc) : Eng (Nat × Nat) := do
    eMod (fun s => s.emitDesc x 36 0x10 0 (x.u 16 4) (x.u 24 8))
    return (0, 0)

/-- DBG_MARK. -/
def execDbgMark (d : Nat) (s : State) : Out := .next (s.ownWork d 0xE1 36 workDbgMark)

/-- DBG_DUMP. -/
def execDbgDump (d : Nat) (s : State) : Out :=
  .next (match s.desc? d with
    | none => s
    | some x =>
      if !x.runnable 0xE2 || x.step != 0 then s
      else if s.qFn x.q ≠ 0 then s.fwDone d 0xCB 0
      else if s.flag DBG_DUMP_STAT_VALID || s.trace.dump.isSome then (s.startDump 0 63 0).fwDone d 0xCA 0
      else (s.updDesc d (fun x => { x with step := 1 })).startDump 0 63 0)

/-! ### Controls (R577, R578, R580, R585, R586) -/

/-- A write of DBG_HANG_CFG. -/
def State.writeHang (s : State) (v mask : Nat) : State :=
  let s := s.plainWrite DBG_HANG_CFG v mask
  if bitOf (Nat.land v mask) 19 then s.startDump 0 63 0 else s

/-- DUMP_NOW. -/
def execDumpNow (rq : Requester) (v : Word32) (s : State) : Out :=
  .next (s.guarded rq DBG_HANG_CFG (fun s => s.writeHang v.toNat mask32))

/-- A write of DBG_TRACE_CFG: while EN = 1 only EN is written. Events that the writer had not stored are gone after a restart. -/
def State.writeTrace (s : State) (v mask : Nat) : State :=
  let was := s.flag DBG_TRACE_CFG_EN
  let s := s.plainWrite DBG_TRACE_CFG v (if was then Nat.land mask 1 else mask)
  if !was && s.flag DBG_TRACE_CFG_EN then
    let s := { s with trace := { s.trace with queue := [], drops := [], post := none } }
    ((s.put DBG_TRACE_STAT_FROZEN 0).put DBG_TRIG_STAT_HIT 0).put DBG_TRACE_STAT_WR_IDX 0
  else s

/-- TRACE_ENABLE. -/
def execTraceEnable (rq : Requester) (v : Word32) (s : State) : Out :=
  .next (s.guarded rq DBG_TRACE_CFG (fun s => s.writeTrace v.toNat mask32))

/-- Copy an island's ring into the read window, the oldest entry first. -/
def State.latchRing (s : State) (isl : Nat) : State :=
  let ring := (mget (fun _ => []) s.trace.rings isl).map eventBytes
  let s := (List.range 64).foldl (fun s i =>
    let bs := nth (List.replicate 32 0) ring i
    (List.range 4).foldl (fun s j => s.setReg (DBG_RING_WIN i j) (BitVec.ofNat 64 (u bs (8 * j) 8))) s) s
  s.put DBG_RING_SEL_HEAD 0

/-- A write of DBG_RING_SEL. -/
def State.writeRing (s : State) (v mask : Nat) : State :=
  let s := s.plainWrite DBG_RING_SEL v mask
  if bitOf (Nat.land v mask) 6 then s.latchRing (s.get DBG_RING_SEL_ISLAND) else s

/-- RING_LATCH. -/
def execRingLatch (rq : Requester) (v : Word32) (s : State) : Out :=
  .next (s.guarded rq DBG_RING_SEL (fun s => s.writeRing v.toNat mask32))

/-! ### Hang detection (R579, R618) -/

/-- A part that runs and has made no progress for HANG_MS, with nothing that excuses it. -/
def State.hungPart (s : State) (d : Desc) (p : Part) : Bool :=
  d.phase == .dispatched && !d.flushing && d.ending.isNone && !d.effected && decide (p.isl < 24) && p.st == .running &&
    decide (max p.runC p.progC + msTicks (s.get DBG_HANG_CFG_HANG_MS) ≤ s.c) && !s.portHeld d p.isl &&
    s.get (SCH_CTX_STAT_RX_PEND (s.ctxOf d)) == 0

/-- Complete a hung descriptor with ENGINE_TIMEOUT: its parts end, and its island's ring goes on once it has completed. -/
def State.hangEnd (s : State) (i isl : Nat) : State :=
  let s := { s with seq := s.seq + 1 }
  let s := s.updDesc i (fun d => { d with
    ending := some (0x32, isl)
    parts := d.parts.map (fun (p : Part) => if p.st = .done then p else { p with st := .done, fin := s.seq }) })
  let s := s.settle
  if (s.desc? i).isSome then s else { s with trace := { s.trace with stopped := s.trace.stopped.filter (· != isl) } }

/-- The engine reset of an array island (R618): its caches go, a secure descriptor's state is scrubbed, and it tests itself
before its next dispatch. What the other engines discard is held with their descriptor. -/
def State.engineReset (s : State) (d : Desc) (p : Part) : State :=
  if 4 ≤ p.isl then s else
  let s := s.setAtt p.isl ⟨[], []⟩
  ((if s.secureDesc d then s.worldReturn p.isl else s).wantGold p.isl false false).goldStart p.isl

/-- A fault of an engine that hung, where it is no kernel on the vector cores (R28, R579). -/
def State.hangFault (s : State) (p : Part) : State :=
  if p.isl < 4 then
    let s := s.transient p.isl
    if s.rateHit p.isl then s.retireEngine p.isl 3 false else s
  else if p.isl < 8 then
    if Nat.land p.eng 2 = 0 then s else
    let s := s.transient p.isl
    if s.rateHit p.isl then s.retireEngine p.isl 3 false else s
  else
    let k := chDma (p.isl - 8)
    let s := s.transient k
    if s.rateHit k then s.retire k 3 else s

/-- A hang: the ring of the island stops, the descriptor stops on every engine, a dump is begun where one can be, else the
descriptor completes. The cause in the STOP events is open (log 7). -/
def State.hang (s : State) (d : Desc) (p : Part) : State :=
  let s := { s with trace := { s.trace with stopped := s.trace.stopped ++ [p.isl] }, seq := s.seq + 1 }
  let cause := Config.freeNat s.fresh
  let s := s.freshen 1
  let s := (d.parts.filter Part.active).foldl (fun s q =>
    let s := (s.countBusy d q).emitDesc d q.isl 0x03 0 cause (if q.st = .stopping then s.sinceNs q.stopC else 0)
    let s := if q.isl < 8 && q.st == .running then s.bump SCH_CNT_STOPS_COUNT 1 else s
    s.updDesc d.id (fun x => { x with parts := x.parts.map (fun (y : Part) => if y.isl = q.isl then { y with st := .stopped } else y) })) s
  let s := s.updDesc d.id (fun x => { x with ending := some (0x32, p.isl) })
  let s := (s.put DBG_IRQ_HANG 1).pfIrq DBG_IRQ_VECTOR DBG_IRQ_EN
  let before := s.trace.dump
  let s : State := if s.flag DBG_HANG_CFG_DUMP_ON_HANG then s.startDump 1 p.isl d.id else s
  let s : State := if s.trace.dump == before then s.hangEnd d.id p.isl else s
  (s.engineReset d p).hangFault p

/-- HANG_CHECK. -/
def execHangCheck (s : State) : Out :=
  .next (if !s.fwRuns || s.get DBG_HANG_CFG_HANG_MS == 0 then s else
    let hung := s.descs.filterMap (fun d => (d.parts.find? (s.hungPart d)).map (fun p => (d, p)))
    hung.foldl (fun s x =>
      match s.desc? x.1.id with
      | some d => if s.hungPart d x.2 then s.hang d x.2 else s
      | none => s) s)

/-! ### The fog-signal dump (R580 to R582) -/

/-- Every register set, in BAR0 order of the blocks. -/
def allSpecs : List RegSpec := (List.range 24).flatMap (fun k => blockTable (k * 0x100000))

/-- Offsets of every register of a set. -/
def RegSpec.offsets (sp : RegSpec) : List Nat :=
  (List.range sp.n1).flatMap (fun i => (List.range sp.n2).map (fun j => sp.off + i * sp.s1 + j * sp.s2))

/-- Offsets of every counter, ascending. -/
def counterOffs : List Nat := sortBy (fun a b => decide (a ≤ b)) ((allSpecs.filter (fun sp => sp.cnt)).flatMap RegSpec.offsets)

/-- Offsets of every LOG0 register, ascending; its LOG1 follows. -/
def logOffs : List Nat :=
  (List.range 4).map ARR_CHK_LOG0 ++ (List.range 4).map WIN_ERR_LOG0 ++ (List.range 4).map ATT_ERR_LOG0 ++ [SPD_ERR_LOG0] ++
  (List.range 8).map DDR_ERR_LOG0 ++ (List.range 4).map VEC_ERR_LOG0 ++ (List.range 4).map GFX_ERR_LOG0 ++
  [SCH_SWITCH_LOG0, QOS_MISS_LOG0, SAF_EVT_LOG0, SAF_FIRST_LOG0, LNT_SEC_EVT_LOG0, KPR_TAKE_LOG0, LNK_ERR_LOG0]

def State.word (s : State) (off : Nat) : List Byte := leBytes 8 (s.reg off).toNat

/-- The STATUS register words of an island. -/
def State.islStatus (s : State) (i : Nat) : List Byte :=
  let regs := if i < 4 then [ARR_STATUS i, WIN_STATUS i, ATT_STATUS i]
    else if i < 8 then [VEC_STATUS (i - 4), GFX_STATUS (i - 4)]
    else if i = 36 then [SAF_STATUS, BCN_STATUS] else []
  ((regs.flatMap s.word) ++ List.replicate 64 0).take 64

/-- A section: its type, the length of an entry and its bytes. -/
structure DumpSec where
  ty : Nat
  entry : Nat
  bytes : List Byte

/-- Words of the last signaller, as B of WAIT_RELEASE, and its time. -/
def sigBytes : Option Signaller → List Byte
  | some g => leBytes 8 (g.q + g.dev * 2 ^ 14 + g.layer * 2 ^ 20 + g.op * 2 ^ 36) ++ leBytes 8 g.time
  | none => leBytes 8 0x3FFF ++ leBytes 8 0

/-- The sections in the order of their types. -/
def State.dumpSections (s : State) : List DumpSec :=
  let queues := (s.regs.filter (fun e => decide (0x180000 ≤ e.1) && decide (e.1 < 0x200000) && e.1 % 32 == 16 &&
    bitsOf e.2.toNat 32 3 != 0)).map (fun e => (e.1 - 0x180000) / 32)
  let sems := (List.range 4096).filter (fun i => s.get (CMD_SEM_WAITERS i) != 0)
  [⟨1, 64, (List.range 38).flatMap s.islStatus⟩,
   ⟨2, 32, (List.range 38).flatMap (fun i =>
      let r := (mget (fun _ => []) s.trace.rings i).flatMap eventBytes
      r ++ List.replicate (2048 - r.length) 0)⟩,
   ⟨3, 24, queues.flatMap (fun q => leBytes 8 q ++ s.word (CMD_Q_PTR q) ++ s.word (CMD_Q_ERR q))⟩,
   ⟨4, 32, sems.flatMap (fun i =>
      leBytes 8 (i + s.get (CMD_SEM_COUNT i) * 2 ^ 32) ++
      (match s.waitersOf i with
       | d :: _ => leBytes 8 (d.q + d.idx * 2 ^ 14 + d.waitTgt * 2 ^ 32)
       | [] => leBytes 8 0) ++ sigBytes (mget (fun _ => none) s.signallers i))⟩,
   ⟨5, 16, s.descs.flatMap (fun d =>
      let st := if d.phase = .dispatched then 1 else 0
      leBytes 8 (d.q + d.idx * 2 ^ 14 + st * 2 ^ 30 + nth 0 d.isls 0 * 2 ^ 32) ++
      (if s.secureQ d.q then List.replicate 8 0 else d.bytes.take 8))⟩,
   ⟨6, 8, counterOffs.flatMap s.word⟩,
   ⟨7, 16, logOffs.flatMap (fun o => s.word o ++ s.word (o + 8))⟩,
   ⟨8, 64, s.sstBlock⟩]

/-- Lay out sections from an offset within the room left: entries of the header's table, bytes, and whether one was cut. -/
def layOut (len : Nat) : Nat → List DumpSec → List Byte × List Byte × Bool
  | _, [] => ([], [], false)
  | off, x :: xs =>
    let room := (len - off) / x.entry * x.entry
    let bs := x.bytes.take room
    let (t, b, cut) := layOut len (off + bs.length) xs
    (leBytes 4 x.ty ++ leBytes 4 off ++ leBytes 4 bs.length ++ leBytes 4 0 ++ t, bs ++ b, cut || decide (room < x.bytes.length))

/-- The whole dump, and TRUNC. -/
def State.dumpBytes (s : State) (cause isl i : Nat) : List Byte × Bool :=
  let (t, body, cut) := layOut (s.get DBG_DUMP_LEN_LEN) 256 s.dumpSections
  let d := if cause = 1 then s.desc? i else none
  let h := leBytes 4 (0x4647 + 2 ^ 16) ++ leBytes 4 (256 + body.length) ++ leBytes 8 s.beacon ++
    (match d with
     | some d => leBytes 4 (cause + b2n cut * 4 + isl * 2 ^ 8 + d.q * 2 ^ 14) ++ leBytes 4 (d.idx + s.ctxOf d * 2 ^ 16) ++ leBytes 4 (d.u 4 4)
     | none => leBytes 4 (cause + b2n cut * 4 + 0x3F * 2 ^ 8) ++ leBytes 4 0 ++ leBytes 4 0) ++
    leBytes 4 (s.get LNK_CFG_DEV_ID) ++ leBytes 8 (s.reg TOP_FW_VER).toNat ++ leBytes 4 (s.get SAF_STATUS_SEQ) ++
    List.replicate 20 0 ++ t
  ((h ++ List.replicate (256 - h.length) 0) ++ body, cut)

/-- DUMP_WRITTEN: firmware has written the dump that was begun; what waited for it goes on. A refused write leaves no dump. -/
def execDumpWritten (s : State) : Out :=
  .next (match s.trace.dump with
    | none => s
    | some (cause, isl, i) =>
      if !s.fwRuns then s else
      let (bs, cut) := s.accTime.accBusy.dumpBytes cause isl i
      let p := s.get DBG_DUMP_BASE_DUMP_PART
      let s := { s with trace := { s.trace with dump := none } }
      let (s, e) := s.writeMem ⟨p, s.flag (QOS_PART_W p), 36, 0, some 0⟩ false 0 (s.get DBG_DUMP_BASE_BASE * 4096) bs
      let (st, dt) : Nat × Nat := match e with
        | some (.fail c x) => (c, x)
        | _ => (0, 0)
      let s := if st = 0 then
          let s := ((s.put DBG_DUMP_STAT_VALID 1).put DBG_DUMP_STAT_CAUSE cause).put DBG_DUMP_STAT_TRUNC (b2n cut)
          (s.put DBG_IRQ_DUMP 1).pfIrq DBG_IRQ_VECTOR DBG_IRQ_EN
        else s
      let waiting := if cause = 0 then s.descs.filter (fun x => x.runnable 0xE2 && x.step == 1) else []
      let s := waiting.foldl (fun s x => s.fwDone x.id st dt) s
      if cause = 1 then s.hangEnd i isl else s)

end Sys2Proof.Machine
end

