-- ==== Sys2Proof/Machine/Power.lean ====
section
/-!
DEFINITION. Power states, input power limits, droop, temperature, coolant and ageing (R587 to R609).
-/

namespace Sys2Proof.Machine

/-! ### Power states (R587 to R590) -/

/-- Wake latency of a state in µs. -/
def wakeUs (n : Nat) : Nat := nth 0 [0, 2, 150, 4000] n

/-- Does anything keep a scheduled island at work: a dispatched descriptor, a golden test, an open display window, an armed
commit (R587, R589)? -/
def State.islWorks (s : State) (e : Nat) : Bool :=
  s.descs.any (fun d => d.phase == .dispatched && d.parts.any (fun p => p.isl == e && p.st != .done)) || s.goldOn e ||
    (s.dispWin e).isSome || s.waking.contains e ||
    (match s.arm with
     | some a => bitOf a.units e
     | none => false)

/-- Does anything keep firmware from gating an island: its work, or that Lantern alone controls it (R458)? -/
def State.islBusy (s : State) (e : Nat) : Bool := s.islWorks e || s.secIsl e

/-- Does an island hold resident secure state (R459): a secure descriptor, workgroup or cache line? -/
def State.secRes (s : State) (e : Nat) : Bool :=
  let k := e - 4
  s.descs.any (fun d => s.secureDesc d && d.parts.any (fun p => p.isl == e && p.st != .notStarted && p.st != .done)) ||
    (decide (4 ≤ e) && decide (e < 8) &&
      (s.wgs.any (fun g => g.core / 8 == k && (match s.desc? g.desc with
        | some d => s.secureDesc d
        | none => false)) ||
       s.caches.any (fun c => (c.1 / 8 == k || c.1 == 32 + k || c.1 / 8 == 8 + k) && c.2.any (fun l => s.ctxW l.ctx))))

/-- When each idle island became idle, as firmware sees it. -/
def State.watchIdle (s : State) : State :=
  { s with pwr := { s.pwr with idle := (List.range 8).foldl (fun m e =>
      if s.islBusy e then mdel e m else if mget (fun _ => 0) m e = 0 then mset (fun _ => 0) m e (s.c + 1) else m) s.pwr.idle } }

/-- Has an island been idle for a number of periods? -/
def State.idleFor (s : State) (e n : Nat) : Bool :=
  let t := mget (fun _ => 0) s.pwr.idle e
  t != 0 && decide (t + n ≤ s.c + 1)

/-- Nothing outside the scheduled islands reaches the scratchpad (R588). -/
def State.spdQuiet (s : State) : Bool :=
  !(List.range 512).any (s.granIn 2) &&
  !s.disps.any (fun e => match e.2 with
    | some d => d.planes.any (fun p => match p with
        | some r => r.en && (decide (bitsOf (r.f 0 8) 0 48 < spdEnd) ||
            ((r.fmt == 5 || r.fmt == 6) && decide (bitsOf (r.f 8 8) 0 48 < spdEnd)))
        | none => false)
    | none => false) &&
  !s.caps.any (fun b => match s.desc? b.desc with
    | some d => decide (d.a16 < spdEnd)
    | none => false) &&
  !(s.flag DBG_TRACE_CFG_EN && decide (s.get DBG_TRACE_BASE_BASE * 64 < spdEnd)) &&
  !(List.range 512).any (fun g => s.granHeld g && bitOf (s.get LNK_IMPORT_PARTS) (s.get (SPD_GRAN_PART g)))

/-- Entry conditions of DARK. -/
def State.darkOk (s : State) : Bool :=
  (List.range 8).all (fun e => s.isRetired e || s.idleFor e (msTicks (s.get PWR_CFG_DARK_MS))) && s.spdQuiet

/-- The deepest state that may be chosen (R588). -/
def State.deepest (s : State) : Nat :=
  (List.range 4).foldl (fun m n =>
    if n ≤ s.get PWR_CFG_DEEPEST ∧ wakeUs n ≤ s.get PWR_CFG_LAT_TOL_US ∧ (n < 3 ∨ s.darkOk) then n else m) 0

def State.setGated (s : State) (e : Nat) (b : Bool) : State := s.put ⟨PWR_STAT, 8 + e, 1⟩ (b2n b)

/-- Power-gating loses the translations and caches of an island. -/
def State.powerOff (s : State) (e : Nat) : State :=
  let s := { s.setGated e true with pwr := { s.pwr with off := if s.pwr.off.contains e then s.pwr.off else s.pwr.off ++ [e] } }
  if e < 4 then s.setAtt e ⟨[], []⟩
  else
    let k := e - 4
    ((s.dropLines (8 * k) (8 * k + 8) (fun _ => false)).dropLines (32 + k) (33 + k) (fun _ => false)).dropLines
      (64 + 8 * k) (72 + 8 * k) (fun _ => false)

/-- The end of DARK (R590): every accumulator codeword zero and poisoned, the slices awake. -/
def State.leaveDark (s : State) : State :=
  if s.get PWR_STAT_STATE ≠ 3 then s else
  let s := ((List.range 4).filter (fun a => !s.isRetired a)).foldl (fun s a =>
    let lo := accBase + a * 0x200000
    { s with mem := mclear lo (lo + 0x200000) s.mem
             ecc := mclear (lo / 32) ((lo + 0x200000) / 32) s.ecc
             tags := mfill tagDefault (lo / 32) 65536 (BitVec.ofNat 12 (mkTag 0 0 0 7)) s.tags }) s
  ((List.range 16).foldl (fun s i => s.setGated (8 + i) false) s).put PWR_STAT_STATE 2

/-- An island is awake again: the golden test that it missed comes first (R415). -/
def State.wakeDone (s : State) (e : Nat) : State :=
  let s := s.accTime.leaveDark
  let s : State := { s.setGated e false with
    waking := s.waking.filter (· != e)
    pwr := { s.pwr with off := s.pwr.off.filter (· != e), idle := mdel e s.pwr.idle } }
  if s.wakeTest.contains e ∧ ¬ s.isRetired e then
    ({ s with wakeTest := s.wakeTest.filter (· != e) }.wantGold e false false).goldStart e
  else s

/-- Apply a chosen state. -/
def State.applyPower (s : State) (n : Nat) : State :=
  let s := if n < 3 then s.leaveDark else s
  let idleUs := usTicks (s.get PWR_CFG_IDLE_US)
  let s := (List.range 8).foldl (fun s e =>
    if s.isRetired e then s
    else if n = 3 then s.powerOff e
    else if s.islOn e then
      if n ≠ 0 && !s.islBusy e && s.idleFor e idleUs then (if n = 1 then s.setGated e true else s.powerOff e) else s
    else if n = 0 ∨ (n = 1 ∧ s.pwr.off.contains e) then s.wakeIsls [e]
    else if n = 2 then s.powerOff e
    else s) s
  let s := if n = 3 then (List.range 16).foldl (fun s i => s.setGated (8 + i) true) s else s
  s.put PWR_STAT_STATE n

/-- Gate an island: kind 1 clock-gating, 2 power-gating. -/
def State.gateBy (s : State) (e kind : Nat) : State := if kind = 1 then s.setGated e true else s.powerOff e

/-- Requests that Lantern kept pending: gating that is now allowed is applied; those of islands that are no longer
secure-assigned are firmware's again. -/
def State.powPending (s : State) : State :=
  let ok (r : Nat × Nat × Nat) : Bool := s.secIsl r.1 && r.2.1 != 0 && decide (r.1 < 8) && !s.islWorks r.1 && !s.secRes r.1
  let s1 := (s.pwr.defer'.filter ok).foldl (fun s r => s.gateBy r.1 r.2.1) s
  { s1 with pwr := { s1.pwr with cap := s.pwr.cap.filter (fun e => s.secIsl e.1),
                                 defer' := s.pwr.defer'.filter (fun r => s.secIsl r.1 && !ok r) } }

/-- POWER_STATE_TICK. Caps that Lantern held for islands that are no longer secure-assigned go (R459). -/
def execPowerStateTick (s : State) : Out :=
  .next (if !s.fwRuns then s else
    let s := s.accTime.powPending.watchIdle.refreshClks
    s.applyPower s.deepest)

/-- ISLAND_WAKE_DONE: a wake that was asked for, or one ahead of a display window. -/
def execIslandWakeDone (isl : Nat) (s : State) : Out :=
  .next (
    let ahead := (List.range 4).any (fun n => s.flagA (SCH_DWIN_EN n) && bitOf (s.getA (SCH_DWIN_ENG n)) isl)
    if 24 ≤ isl ∨ s.dead ∨ s.islOn isl ∨ (¬ s.waking.contains isl ∧ ¬ (isl < 8 ∧ ahead)) then s
    else (s.wakeDone isl).settle)

/-- LTR_IDLE: 1 ms in which nothing went on. -/
def execLtrIdle (s : State) : Out :=
  .next (if s.dead || !s.pcie.linkUp || s.working || decide (s.c < s.pwr.ltrC + msTicks 1) then s
    else s.sendLtr (s.get PWR_LIM_LTR_IDLE_US * 1000))

/-! ### Input power (R595 to R598) -/

/-- A new clock of an island by a power decision: a secure-assigned island takes only a lower one (R459). -/
def State.powClk (s : State) (e : Nat) : State :=
  if s.secIsl e then
    let old := if e < 4 then s.get (ARR_CLK_STAT_FREQ_ACTIVE e) else s.get (VEC_CLK_STAT_FREQ_ACTIVE (e - 4))
    if old ≤ s.clockOf e then s else s.refreshClk e
  else s.refreshClk e

def State.powClks (s : State) : State := (List.range 8).foldl State.powClk s

/-- The safety event POWER. -/
def State.powerEvent (s : State) (dt : Nat) : State := s.safety 15 36 dt false

/-- A fast limit acts. -/
def State.tripFast (s : State) (bit : Nat) (f : Fref) : State :=
  if bitOf s.pwr.fast bit then s else
  ((({ s with pwr := { s.pwr with fast := s.pwr.fast + 2 ^ bit } }.pwrEvt f).powerEvent (1 + bit)).refreshClks)

/-- POWER_SAMPLE: one 10 µs sample of input power, in mW. -/
def execPowerSample (mw : Nat) (s : State) : Out :=
  .next (if s.dead then s else
    let peaks := if 180000 < mw then s.pwr.peaks + 1 else 0
    let burst := if 135000 < mw then (if s.pwr.burst = 0 then s.c + 1 else s.pwr.burst) else 0
    let s := { s with pwr := { s.pwr with peaks := peaks, burst := burst } }
    let s := if 2 ≤ peaks then s.tripFast 0 PWR_EVT_EMERG else s
    if burst ≠ 0 ∧ burst + msTicks 50 ≤ s.c + 1 then s.tripFast 1 PWR_EVT_BURST else s)

/-- The average is kept in mW × 2^20. -/
def avgUnit : Nat := 1048576

/-- One lowering step (R597). -/
def State.lowerCap (s : State) : State :=
  let a := s.get PWR_AVG_ARR_CAP_MHZ
  let v := s.get PWR_AVG_VCL_CAP_MHZ
  if s.get PWR_LIM_ARR_FLOOR_MHZ < a then s.put PWR_AVG_ARR_CAP_MHZ ((a - 1) / 25 * 25)
  else if s.get PWR_LIM_VCL_FLOOR_MHZ < v then s.put PWR_AVG_VCL_CAP_MHZ ((v - 1) / 50 * 50)
  else if s.pwr.floored then s
  else ({ s with pwr := { s.pwr with floored := true } }.pwrEvt PWR_EVT_FLOOR).powerEvent 3

/-- One raising step. -/
def State.raiseCap (s : State) : State :=
  let a := s.get PWR_AVG_ARR_CAP_MHZ
  let v := s.get PWR_AVG_VCL_CAP_MHZ
  let s := { s with pwr := { s.pwr with floored := false } }
  if v < 1400 then s.put PWR_AVG_VCL_CAP_MHZ (min 1400 ((v / 50 + 1) * 50))
  else if a < 860 then s.put PWR_AVG_ARR_CAP_MHZ (min 860 ((a / 25 + 1) * 25))
  else s

/-- The average at firmware start (R596). -/
def State.seedAvg (s : State) : State :=
  let w := s.get PWR_LIM_SEED_W
  let avg := if w = 0 then s.get PWR_LIM_LIMIT_W * 500 else w * 1000
  { s.put PWR_AVG_AVG_MW avg with pwr := { s.pwr with avg := avg * avgUnit, started := true } }

/-- LIMITER_UPDATE: the power of the last millisecond, in mW. -/
def execLimiterUpdate (mw : Nat) (s : State) : Out :=
  .next (if !s.fwRuns then s else
    let s := if s.pwr.started then s else s.seedAvg
    let win := 1000 * max 1 (s.get PWR_LIM_WIN_S)
    let avg := ((s.pwr.avg : Int) + ((mw * avgUnit : Nat) - (s.pwr.avg : Int)) / (win : Int)).toNat
    let lim := s.get PWR_LIM_LIMIT_W * 1000
    let s := { s with pwr := { s.pwr with avg := avg, fast := if mw < lim then 0 else s.pwr.fast } }
    let s := (s.put PWR_AVG_AVG_MW (satN 20 (avg / avgUnit))).put PWR_AVG_NOW_MW (satN 20 mw)
    let s := if lim * avgUnit ≤ avg ∧ lim < mw then s.lowerCap
      else if avg * 100 < 98 * lim * avgUnit then s.raiseCap else s
    s.powClks)

/-! ### Droop (R594) -/

/-- DROOP_START. -/
def execDroopStart (isl : Nat) (s : State) : Out :=
  .next (if 8 ≤ isl ∨ s.dead ∨ s.pwr.droop.contains isl then s
    else { s.bump (PWR_ISL_W1_CNT_DROOP isl) 1 with pwr := { s.pwr with droop := s.pwr.droop ++ [isl] } })

/-- DROOP_END. -/
def execDroopEnd (isl : Nat) (s : State) : Out :=
  .next { s with pwr := { s.pwr with droop := s.pwr.droop.filter (· != isl) } }

/-! ### Temperature (R599, R600) and coolant (R602) -/

/-- TEMP_NOW of an island in eighths of a degree. -/
def State.temp8 (s : State) (isl : Nat) : Int := sgn 16 (s.get (DBG_ISL_W3_TEMP_NOW isl))

/-- Stop the clocks of the scheduled islands for a reason. -/
def State.stopClocks (s : State) (why : Nat) : State :=
  if s.clkOff.contains why then s else { s.accTime with clkOff := s.clkOff ++ [why] }

/-- Leave a throttling episode once the island is cool and has no cap. -/
def State.thermEnd (s : State) (isl : Nat) : State :=
  if s.get (PWR_ISL_W0_THERM_CAP_MHZ isl) = 0x7FF ∧ s.temp8 isl ≤ 8 * ((s.get THM_CFG_TJ_THROTTLE_C : Int) - 3) then
    { s with pwr := { s.pwr with therm := s.pwr.therm.filter (· != isl) } }
  else s

/-- A sample of the junction temperature of an island, in steps of 0.125 °C. -/
def State.thermalSample (s : State) (isl temp : Nat) : State :=
  let s := s.put (DBG_ISL_W3_TEMP_NOW isl) temp
  let t := s.temp8 isl
  let s := if sgn 16 (s.get (DBG_ISL_W3_TEMP_MAX isl)) < t then s.put (DBG_ISL_W3_TEMP_MAX isl) temp else s
  let tj : Int := 8 * s.get THM_CFG_TJ_THROTTLE_C
  let s := if isl < 8 ∧ tj ≤ t ∧ ¬ s.pwr.therm.contains isl then
      { s with pwr := { s.pwr with therm := s.pwr.therm ++ [isl] } }.pwrEvt PWR_EVT_THERM
    else if isl < 8 then s.thermEnd isl else s
  if 1000 ≤ t then
    if s.clkOff.contains 0 then s else ((s.stopClocks 0).pwrEvt PWR_EVT_CRIT).powerEvent 4
  else if s.clkOff.contains 0 ∧ (List.range 38).all (fun i => decide (s.temp8 i < tj - 80)) then
    { s.accTime with clkOff := s.clkOff.filter (· != 0) }
  else s

/-- THERMAL_CAP_STEP: 10 ms have passed. -/
def execThermalCapStep (isl : Nat) (s : State) : Out :=
  .next (if 8 ≤ isl ∨ ¬ s.fwRuns then s else
    let st := if isl < 4 then 25 else 50
    let cap := s.get (PWR_ISL_W0_THERM_CAP_MHZ isl)
    let t := s.temp8 isl
    let tj : Int := 8 * s.get THM_CFG_TJ_THROTTLE_C
    let s := if tj ≤ t then
        s.put (PWR_ISL_W0_THERM_CAP_MHZ isl) (max (s.floorOf isl) ((min cap (s.clockOf isl) - 1) / st * st))
      else if cap ≠ 0x7FF ∧ t ≤ tj - 24 then
        let up := (cap / st + 1) * st
        s.put (PWR_ISL_W0_THERM_CAP_MHZ isl) (if s.fmaxNow isl < up then 0x7FF else up)
      else s
    (s.thermEnd isl).powClk isl)

/-- COOLANT_LOSS. -/
def execCoolantLoss (s : State) : Out :=
  .next (if s.dead || s.clkOff.contains 1 then s else (s.stopClocks 1).safety 16 36 0 false)

/-! ### Ageing (R603 to R605) -/

def State.fmaxFused (s : State) (e : Nat) : Nat :=
  if e < 4 then s.get (ARR_CLK_STAT_FMAX_FUSED e) else s.get (VEC_CLK_STAT_FMAX_FUSED (e - 4))

def nominalMhz (e : Nat) : Nat := if e < 4 then 750 else 1200

/-- Sums of the fit of an island: n, Σx, Σy, Σxx, Σxy. -/
def State.ageSums (s : State) (e : Nat) : List Nat := mget (fun _ => [0, 0, 0, 0, 0]) s.pwr.age e

/-- One more sample in the fit. -/
def ageAdd (xs : List Nat) (hours ppm : Nat) : List Nat :=
  let x := (Config.lnF32 hours).toNat
  let y := (Config.lnF32 ppm).toNat
  [nth 0 xs 0 + 1, f32Add (nth 0 xs 1) x, f32Add (nth 0 xs 2) y, f32Add (nth 0 xs 3) (f32Mul x x), f32Add (nth 0 xs 4) (f32Mul x y)]

/-- The hourly measurement of one island at operating hour `h`. -/
def State.ageIsland (s : State) (h e ppm : Nat) : State :=
  let s := s.put (PWR_ISL_W0_DEGR_PPM e) ppm
  let used := if h < 500 then max ppm (Config.ageModel e h) else ppm
  let fused := s.fmaxFused e
  let guard := cdiv (Config.guardMhz * 1000000 + used * fused) 5000000 * 5
  let old := s.fmaxNow e
  let now := min old (fused - guard)
  let s := if e < 4 then s.put (ARR_CLK_STAT_FMAX_NOW e) now else s.put (VEC_CLK_STAT_FMAX_NOW (e - 4)) now
  let s := s.put (PWR_ISL_W0_GUARD_MHZ e) (fused - now)
  let s := if now < nominalMhz e ∧ nominalMhz e ≤ old then (s.pwrEvt PWR_EVT_AGE).powerEvent 5 else s
  let sums := if 50 ≤ h then ageAdd (s.ageSums e) h ppm else s.ageSums e
  let s := { s with pwr := { s.pwr with age := mset (fun _ => [0, 0, 0, 0, 0]) s.pwr.age e sums } }
  if h < 500 then (s.put (PWR_ISL_W0_VALID e) 0).put (PWR_ISL_W1_EOL_HOURS e) 0xFFFFFFFF
  else
    (s.put (PWR_ISL_W0_VALID e) 1).put (PWR_ISL_W1_EOL_HOURS e)
      ((Config.eolHours e h (nth 0 sums 0) (nth 0 sums 1) (nth 0 sums 2) (nth 0 sums 3) (nth 0 sums 4)).getD 0xFFFFFFFE)

/-- Bytes of the record in PWR_AGE_REC or PWR_AGE_LOAD. -/
def State.ageBytes (s : State) (f : Nat → Nat) : List Byte := (List.range 64).flatMap (fun i => leBytes 8 (s.reg (f i)).toNat)

/-- The record as firmware writes it. -/
def State.ageRecord (s : State) (seq : Nat) : List Byte :=
  let body := leBytes 4 (0x4147 + 2 ^ 16) ++ leBytes 4 (s.get PWR_HOURS_HOURS) ++ fitTo 8 s.deviceId ++ leBytes 4 seq ++ List.replicate 12 0 ++
    (List.range 8).flatMap (fun e => ((s.ageSums e).flatMap (leBytes 4)) ++ leBytes 4 (s.get (PWR_ISL_W0_DEGR_PPM e)) ++ List.replicate 8 0)
  let bs := (body ++ List.replicate 512 0).take 508
  bs ++ leBytes 4 (crc32c bs)

/-- AGEING_SAMPLE: DEGR_PPM of each island, measured once in an operating hour. -/
def execAgeingSample (ppm : List Nat) (s : State) : Out :=
  .next (if !s.fwRuns then s else
    let s := s.bump PWR_HOURS_HOURS 1
    let h := s.get PWR_HOURS_HOURS
    let s := (List.range 8).foldl (fun s e => s.ageIsland h e (nth 0 ppm e % 2 ^ 20)) s
    let bs := s.ageRecord ((u (s.ageBytes PWR_AGE_REC) 16 4 + 1) % 2 ^ 32)
    let s := (List.range 64).foldl (fun s i => s.setReg (PWR_AGE_REC i) (BitVec.ofNat 64 (u bs (8 * i) 8))) s
    { s with pwr := { s.pwr with sampled := true } }.powClks)

/-- A write of PWR_AGE_CTL. -/
def State.writeAge (s : State) (v mask : Nat) : State :=
  if !bitOf (Nat.land v mask) 0 then s else
  let bs := s.ageBytes PWR_AGE_LOAD
  let ok := u bs 0 2 == 0x4147 && u bs 2 1 == 1 && bytesAt bs 8 8 == fitTo 8 s.deviceId && u bs 508 4 == crc32c (bs.take 508) &&
    !s.pwr.sampled
  if !ok then s.put PWR_AGE_CTL_RESULT 2
  else
    let s := { s with pwr := { s.pwr with age := (List.range 8).foldl (fun m e =>
      mset (fun _ => [0, 0, 0, 0, 0]) m e ((List.range 5).map (fun i => u bs (32 + 32 * e + 4 * i) 4))) s.pwr.age } }
    (s.put PWR_HOURS_HOURS (u bs 4 4)).put PWR_AGE_CTL_RESULT 1

/-- AGE_RECORD_LOAD. -/
def execAgeRecordLoad (rq : Requester) (v : Word32) (s : State) : Out :=
  .next (s.guarded rq PWR_AGE_CTL (fun s => s.writeAge v.toNat mask32))

end Sys2Proof.Machine
end

