-- ==== Sys2Proof/Machine/Reset.lean ====
section
/-!
DEFINITION. Supply, clock, cold reset, boot and PCIe reset (R217, R431, R496, R610 to R622, R629).
-/

namespace Sys2Proof.Machine

/-! ### Cold reset (R611, R613 to R616) -/

/-- The part in cold reset: every field at reset but OTP, flash, host memory, what has been sent and the pins. LNT_TAMPER,
LNT_RST_CAUSE (`swdg`: the secure watchdog caused it) and the count of expiries stay since VIN was applied. -/
def State.coldAssert (s : State) (swdg : Bool) : State :=
  let s1 : State := { State.reset with
    now := s.now
    fresh := s.fresh
    pending := s.pending
    rdata := s.rdata
    host := s.host
    out := { s.out with
      faultN := false
      safeReqN := false
      bcnOut := List.replicate 8 false
      camFsync := [] }
    pins := { s.pins with held := true }
    pcie := { State.reset.pcie with linkUp := false }
    flash := s.flash
    lnt := { State.reset.lnt with
      life := s.lnt.life
      uds := s.lnt.uds
      hsckOtp := s.lnt.hsckOtp
      svnFloor := s.lnt.svnFloor
      boots := s.lnt.boots
      draws := s.lnt.draws } }
  let s1 := (s1.setReg LNT_TAMPER (s.reg LNT_TAMPER)).put LNT_SWDG_EXPIRIES (s.get LNT_SWDG_EXPIRIES)
  (s1.put LNT_RST_CAUSE_POR 0).put LNT_RST_CAUSE_SWDG (b2n swdg)

/-- A loss of VIN (R611). -/
def State.vinGone (s : State) : State :=
  (((s.coldAssert false).setReg LNT_TAMPER 0).setReg LNT_RST_CAUSE (regReset LNT_RST_CAUSE)).put LNT_SWDG_EXPIRIES 0

def State.setVin (s : State) (b : Bool) : State := { s with pins := { s.pins with vin := b } }
def State.setClk (s : State) (b : Bool) : State := { s with pins := { s.pins with clk := b } }

/-- VIN_LOSS. -/
def execVinLoss (s : State) : Out := .next (s.vinGone.setVin false)

/-- POWER_ON: VIN has stood at `mv` for 2 ms. -/
def execPowerOn (mv : Nat) (s : State) : Out :=
  .next (if s.pins.held ∧ 4600 ≤ mv ∧ mv ≤ 5500 then s.setVin true else s)

/-- RESET_N_LOW. -/
def execResetNLow (s : State) : Out := .next (s.coldAssert false)

/-- SYSCLK_RETURN. -/
def execSysclkReturn (s : State) : Out := .next (if s.pins.held then s.setClk true else s)

/-! ### Boot (R621, R629) -/

/-- Step 1: straps, OTP and keys. The counter starts at 0. -/
def State.romStart (s : State) (x : Straps) : State :=
  let s : State := { s with
    now := 0
    pins := { s.pins with held := false, straps := x }
    pcie := { s.pcie with linkUp := !s.pins.perst }
    out := { s.out with faultN := false, safeReqN := true }
    lnt := { s.lnt with boots := s.lnt.boots + 1, hsck := if s.erased then none else s.lnt.hsckOtp } }
  let (s, n) := s.draw 4
  let s : State := { s with lnt := { s.lnt with nonce := leNat n % 2 ^ 32 } }
  let s := (s.put LNT_INFO_LIFECYCLE s.lnt.life).put LNT_INFO_IDENTITY (b2n s.erased)
  let s := (s.put LNT_TAMPER_ERASE_WRAP (b2n Config.eraseWrap)).put LNT_TAMPER_ERASED (b2n s.erased)
  (s.put BOOT_STAT_STRAP (b2n x.recovery)).put BOOT_STAT_DIR_SLOT s.dirSlot

/-- The slot that boots: the directory's, else the other, the first that passes R482. -/
def State.bootSlot (s : State) : Option (Nat × List Byte) :=
  [s.dirSlot, 1 - s.dirSlot].findSome? (fun i =>
    let (k, img) := s.verifySlot (s.slot i)
    if k = 0 then some (i, img) else none)

/-- Recovery mode (R496, R629). The Keeper complex does not start. -/
def State.enterRecovery (s : State) : State :=
  let s := (List.range 4).foldl (fun s p => s.put (KPR_PAIR_STAT_STATE p) 0) s
  ((s.put TOP_FW_STAT_RECOVERY 1).put BOOT_STAT_RECOVERY 1).put LNT_INFO_READY 1

/-- Versions that firmware reports (R470). -/
def State.showVersions (s : State) (img : List Byte) : State :=
  let s := (((s.put TOP_FW_VER_MAJOR (imgMajor img)).put TOP_FW_VER_MINOR (imgMinor img)).put TOP_FW_VER_PATCH (imgPatch img)).put
    TOP_FW_VER_SVN (imgSvn img)
  ((s.put TOP_HIF_VER_HIF_MAJOR (imgHifMajor img)).put TOP_HIF_VER_HIF_MINOR (imgHifMinor img)).put TOP_HIF_VER_WIN_LAYOUT
    (imgLayout img)

/-- The version word of an image, for its LANTERN and GOLDEN sections. -/
def imgVersion (img : List Byte) : Nat := numAt img 8 4

/-- A pair starts, or fails the check of R424 and is held offline. -/
def State.startPair (s : State) (p : Nat) : State :=
  if Config.checkerFault s.fresh then (s.freshen 1).holdPair p false else (s.freshen 1).put (KPR_PAIR_STAT_STATE p) 2

/-- Step 3: Lantern starts, measures the image, loads it, and the pairs start. -/
def State.loadImage (s : State) (slot : Nat) (img : List Byte) : State :=
  let s : State := { s with
    runImg := img
    lnt := { s.lnt with
      mKeeper := Config.sha3 (sectionOf img 1)
      mLantern := Config.sha3 (sectionOf img 2)
      mGolden := Config.sha3 (sectionOf img 3)
      version := imgVersion img } }
  let s := ((s.put LNT_INFO_READY 1).put BOOT_STAT_ACTIVE_SLOT slot).put SAF_GT_VER_VER (imgVersion img)
  let s := (List.range 4).foldl State.startPair s
  (if s.pairsOn.isEmpty then s.safety 9 36 0 false else s).spreadAll

/-- GiB on a channel by its configuration word (R213): components of a rank, density, ranks. -/
def cfgGb (cfg : Nat) : Nat :=
  (match bitsOf cfg 3 2 with
   | 0 => 8
   | 1 => 4
   | _ => 16) * (1 + bitsOf cfg 5 1) * (1 + bitsOf cfg 6 1)

/-- A configuration that R213 and R236 admit. -/
def boardCfgOk (cfg : Nat) : Bool := bitsOf cfg 3 2 != 3 && decide (cfgGb cfg ≤ 32)

/-- One channel of the board trains, or fails and is retired (R217, R236). All channels run at one rate (R213). -/
def State.trainDdr (s : State) (ch : Nat) : State :=
  let cfg := putBits (Config.boardCfg ch).toNat 1 2 (bitsOf (Config.boardCfg 0).toNat 1 2)
  if !bitOf cfg 0 ∨ ¬ boardCfgOk cfg then s else
  let r := Config.trainResult s.lnt.boots ch
  if r = 0 then
    let s := s.setReg (DDR_CFG ch) (BitVec.ofNat 64 (bitsOf cfg 0 9))
    let s := (s.setReg (DDR_TIM ch) (Config.boardTim ch (s.get (DDR_CFG_RATE ch)))).put (DDR_TRAIN_STATE ch) 1
    s.refreshTrefi ch
  else (((s.put (DDR_TRAIN_STATE ch) 2).put (DDR_TRAIN_STEP ch) (r % 6 + 1)).put (DDR_TRAIN_LANES ch) (r / 6)).retire (chIsl (24 + ch)) 3

/-- A range of a map: channels, base, size and offset in each channel, in GiB (R239). -/
def mapRange (v : Nat) : Nat × Nat × Nat × Nat := (bitsOf v 1 8, bitsOf v 9 9, bitsOf v 18 9, bitsOf v 27 6)

/-- Do two ranges share a byte of D, or of a channel's local space? -/
def mapsMeet (a b : Nat × Nat × Nat × Nat) : Bool :=
  let n (r : Nat × Nat × Nat × Nat) : Nat := max 1 (popc 8 r.1)
  (decide (a.2.1 < b.2.1 + b.2.2.1) && decide (b.2.1 < a.2.1 + a.2.2.1)) ||
    (Nat.land a.1 b.1 != 0 && decide (a.2.2.2 < b.2.2.2 + b.2.2.1 / n b) && decide (b.2.2.2 < a.2.2.2 + a.2.2.1 / n a))

/-- A map that R213 and R215 admit over the trained channels `m`. -/
def State.mapOk (s : State) (m : Nat) (vs : List Nat) : Bool :=
  let rs := (vs.filter (fun v => bitOf v 0)).map mapRange
  let gb (c : Nat) : Nat := cfgGb (s.reg (DDR_CFG c)).toNat
  !rs.isEmpty && rs.all (fun (chans, base, size, off) =>
    let cs := maskBits 8 chans
    !cs.isEmpty && Nat.land chans m == chans && decide (0 < size) && decide (base + size ≤ 256) && size % cs.length == 0 &&
      cs.all (fun c => gb c == gb (nth 0 cs 0) && decide (off + size / cs.length ≤ gb c))) &&
    ((List.range rs.length).zip rs).all (fun (i, a) => (rs.drop (i + 1)).all (fun b => !mapsMeet a b))

/-- The default map (R215): one range over all channels, with the capacity of all. -/
def State.defaultMap (s : State) (m : Nat) : List Nat :=
  let cs := maskBits 8 m
  let gb := cs.foldl (fun n c => min n (cfgGb (s.reg (DDR_CFG c)).toNat)) 32
  if cs.isEmpty then [] else [1 + m * 2 + cs.length * gb * 2 ^ 18]

/-- The map over the channels that trained, from the board record where that gives one that is admitted; every mapped codeword
is filled with zero data, poisoned (R215, R217). -/
def State.buildMap (s : State) : State :=
  let m := s.ddrPresent.foldl (fun m ch => m + 2 ^ ch) 0
  let vs := (List.range 8).map (fun i => bitsOf (Config.boardMap m i).toNat 0 33)
  let vs := if s.mapOk m vs then vs.map (fun v => if bitOf v 0 then v else 0) else s.defaultMap m
  let s := (List.range 8).foldl (fun s i => s.setReg (DDR_MAP i) (BitVec.ofNat 64 (nth 0 vs i))) s
  let hi := dramEnd / 32
  { s with
    mem := mclear dramBase dramEnd s.mem
    tags := mclear (dramBase / 32) hi s.tags
    ecc := mclear (dramBase / 32) hi s.ecc }

/-- Step 4: DRAM, both copies of BOOT_ACT, and READY. -/
def State.startFirmware (s : State) : State :=
  let s := ((List.range 8).foldl State.trainDdr s).buildMap
  let slot := s.get BOOT_STAT_ACTIVE_SLOT
  let s := (s.put BOOT_ACT_SLOT slot).setAct BOOT_ACT (s.put BOOT_ACT_SLOT slot |>.reg BOOT_ACT)
  let s := (s.showVersions s.runImg).refreshQos.refreshOcc.refreshClks.seedAvg
  s.put TOP_FW_STAT_READY 1

/-- The start-up golden test of an engine (R416, R431), with `n` runs left. -/
def State.goldUp (e : Nat) : Nat → Bool → State → State
  | 0, _, s => State.retireEngine (s.put (SAF_GT_STAT_RESULT e) 2) e 2 false
  | n + 1, again, s =>
    let s := s.put (SAF_GT_STAT_CLOCKS e) (if e < 4 then 11520 else 6144)
    if Config.checkerFault s.fresh then State.goldUp e n true ((s.freshen 1).transient e)
    else
      let s := (s.freshen 1).put (SAF_GT_STAT_RESULT e) 1
      if again then s.safety 1 e 0 false else s

/-- Step 5: the start-up test of R431, and SAFETY_READY. -/
def State.startSafety (s : State) : State :=
  let s := ((List.range 8).filter (fun e => !s.isRetired e)).foldl (fun s e => State.goldUp e (s.get SAF_CTL_ATTEMPTS) false s) s
  let s := (List.range 8).foldl State.rotation s
  let s : State := { s.put SAF_STATUS_SAFETY_READY 1 with
    seqC := s.c
    seqT := s.beacon
    seqF := s.getA SAF_CFG_FTTI_MS
    fttiT := s.beacon / s.fttiNs * s.fttiNs }
  { s with out := { s.out with faultN := !s.flag SAF_STATUS_FAULT } }.refreshSafe

/-- The whole boot. -/
def State.bootUp (s : State) (x : Straps) : State :=
  let s := ((s.romStart x).refreshSlot 0).refreshSlot 1
  if x.recovery || s.erased then s.enterRecovery
  else match s.bootSlot with
    | none => s.enterRecovery
    | some (i, img) =>
      let s := s.loadImage i img
      if s.pairsOn.isEmpty then s else s.startFirmware.startSafety

/-- COLD_RESET_RELEASE: VIN is valid and the system clock runs. -/
def execColdResetRelease (straps : Straps) (s : State) : Out :=
  .next (if s.pins.held && s.pins.vin && s.pins.clk then s.bootUp straps else s)

/-! ### PCIe reset (R617) -/

/-- Host accesses outstanding when the link goes: non-posted ones fail, posted ones are logged (R563). -/
def State.dropTrails (s : State) : State :=
  s.trail.foldl (fun s t =>
    if t.nonPosted then s.trailEnd t 7
    else { s.wbrLog 3 7 t.win t.isl t.ctx t.addr t.bus with trail := s.trail.erase t }) s

/-- PCIE_RESET. A hot reset or a lost link trains again at once; PERST_N low holds the link down. -/
def execPcieReset (cause : PcieReset) (s : State) : Out :=
  .next (
    let s : State := if cause = .perstN then { s with pins := { s.pins with perst := true } } else s
    if s.dead then s else
    let s := s.dropTrails
    let s := (List.range 64).foldl (fun s w => s.put (WBR_WIN_W0_EN w) 0) s
    let s := s.resetPf
    { s with pcie := { State.reset.pcie with
        vfEnable := s.pcie.vfEnable
        numVf := s.pcie.numVf
        linkUp := !s.pins.perst } }.settle)

/-- PERST_N_DEASSERT: the link trains, in cold reset from the release on. -/
def execPerstNDeassert (s : State) : Out :=
  .next (
    let s : State := { s with pins := { s.pins with perst := false } }
    if s.dead then s else { s with pcie := { s.pcie with linkUp := true } })

end Sys2Proof.Machine
end

