-- ==== Sys2Proof/Machine/Lantern.lean ====
section
/-!
DEFINITION. Lantern: the host mailbox and its commands, secure partitions, regions, queues and contexts, the Daymark report,
tamper alarms and the secure watchdog (R442 to R469, R629).
-/

namespace Sys2Proof.Machine

/-! ### The mailbox (R444 to R448) -/

/-- `n` bytes of the request buffer from an offset. -/
def State.mbReq (s : State) (o n : Nat) : List Byte :=
  bytesAt ((List.range ((o + n + 7) / 8)).flatMap (fun i => leBytes 8 (s.reg (LNT_MB_REQ i)).toNat)) o n

def State.mbCmd (s : State) : Nat := leNat (s.mbReq 0 2)
def State.mbLen (s : State) : Nat := leNat (s.mbReq 2 2)

/-- The response buffer, cleared, then written. -/
def State.mbWrite (s : State) (bs : List Byte) : State :=
  let s : State := { s with regs := mclear (LNT_MB_RSP 0) (LNT_MB_RSP 2048) s.regs }
  (List.range (cdiv bs.length 8)).foldl (fun s i => s.setReg (LNT_MB_RSP i) (BitVec.ofNat 64 (leNat (bytesAt bs (8 * i) 8)))) s

/-- BUSY ends, DONE is set, the PF is told. -/
def State.mbDone (s : State) (bs : List Byte) : State :=
  let s := (s.mbWrite bs).put LNT_MB_CTL_BUSY 0
  ({ s with lnt := { s.lnt with wait := none } }.put LNT_MB_CTL_DONE 1).pfIrq LNT_MB_CTL_VECTOR LNT_MB_CTL_IRQ_EN

/-- The first eight bytes of a response. -/
def State.mbHead (s : State) (status len : Nat) : List Byte := leBytes 2 status ++ leBytes 2 len ++ leBytes 4 s.lnt.goSeq

/-- A response in the clear. -/
def State.mbPlain (s : State) (status : Nat) (body : List Byte) : State := s.mbDone (s.mbHead status body.length ++ body)

/-- The IV of a request (0) or response (1) under the host secure channel key. -/
def State.mbIv (s : State) (dir : Nat) : List Byte := s.mbReq 8 8 ++ leBytes 4 dir

/-- A response to an authenticated command: encrypted, with its tag. -/
def State.mbSealed (s : State) (status : Nat) (body : List Byte) : State :=
  let h := s.mbHead status body.length
  s.mbDone (h ++ Config.gcmSeal (s.lnt.hsck.getD []) (s.mbIv 1) h body)

/-- Unauthenticated commands that a mailbox answers after an alarm and in recovery (R462, R629). -/
def mbAlways (cmd : Nat) : Bool := cmd == 1 || cmd == 2

/-- Commands with a tag. -/
def mbAuth (cmd : Nat) : Bool := (decide (0x10 ≤ cmd) && decide (cmd ≤ 0x15)) || cmd == 0x21

/-- Payload bytes of each command; none for a CMD that R447 does not list. -/
def mbLenOf (cmd : Nat) : Option Nat :=
  match cmd with
  | 0x01 | 0x21 => some 0
  | 0x02 | 0x10 | 0x12 | 0x14 => some 4
  | 0x03 => some 64
  | 0x11 | 0x20 => some 32
  | 0x13 | 0x15 => some 16
  | _ => none

/-- Is a command allowed in the lifecycle state, and after PROVISION where it is authenticated (R449)? -/
def State.mbAllowed (s : State) (cmd : Nat) : Bool :=
  if cmd = 0x20 then s.lnt.life == 1 && s.lnt.hsckOtp.isNone
  else if cmd = 0x21 then s.lnt.life == 1 && s.lnt.hsck.isSome
  else !mbAuth cmd || s.lnt.hsck.isSome

/-- The check of a request before the tag: a status, or 0. -/
def State.mbCheck (s : State) (cmd : Nat) : Nat :=
  if leNat (s.mbReq 4 4) ≠ s.lnt.goSeq ∨ (¬ mbAuth cmd ∧ leNat (s.mbReq 8 8) ≠ 0) then 9
  else if s.lnt.tampered ∧ ¬ mbAlways cmd then 6
  else if s.flag TOP_FW_STAT_RECOVERY ∧ ¬ mbAlways cmd then (if s.erased then 7 else 1)
  else if s.erased ∧ (mbAuth cmd ∨ cmd = 3) then 7
  else match mbLenOf cmd with
    | none => 1
    | some n => if ¬ s.mbAllowed cmd then 1 else if s.mbLen ≠ n then 2 else 0

/-- The tag and the counter of an authenticated request: its payload, or a status (R446). -/
def State.mbOpen (s : State) : Except Nat (List Byte) :=
  match Config.gcmOpen (s.lnt.hsck.getD []) (s.mbIv 0) (s.mbReq 0 16) (s.mbReq 16 (s.mbLen + 16)) with
  | none => .error 3
  | some p =>
    if leNat (s.mbReq 12 4) = s.lnt.nonce ∧ s.lnt.ctr < leNat (s.mbReq 8 4) then .ok p else .error 4

/-- A request that waits for the row of its command. -/
def State.mbIs (s : State) (cmd : Nat) : Bool := !s.dead && s.flag LNT_MB_CTL_BUSY && s.mbCmd == cmd

/-- Lantern serves the host mailbox: the Keeper mailbox comes next (R445). -/
def State.mbServe (s : State) : State := { s with lnt := { s.lnt with turn := false } }

/-- An unauthenticated command. -/
def State.mbClear (s : State) (cmd : Nat) (act : State → List Byte → State × List Byte) : State :=
  if !s.mbIs cmd then s else
  let s := s.mbServe
  match s.mbCheck cmd with
  | 0 =>
    let (s, body) := act s (s.mbReq 16 s.mbLen)
    s.mbPlain 0 body
  | k => s.mbPlain k []

/-- An authenticated command: `act` gives the state, the status and the response, or none while it waits. -/
def State.mbSecure (s : State) (cmd : Nat) (act : State → List Byte → State × Option (Nat × List Byte)) : State :=
  if !s.mbIs cmd then s else
  let s := s.mbServe
  match s.mbCheck cmd with
  | 0 =>
    match s.mbOpen with
    | .error k => (s.secEvent LNT_MB_CTL (.fn 0) k 0x3F).mbPlain k []
    | .ok p =>
      match act { s with lnt := { s.lnt with ctr := leNat (s.mbReq 8 4) } } p with
      | (s, some (k, body)) => s.mbSealed k body
      | (s, none) => s
  | k => s.mbPlain k []

/-- A write of LNT_MB_CTL. -/
def State.writeMbCtl (s : State) (rq : Requester) (v mask : Nat) : State :=
  let go := bitOf (Nat.land v mask) 0
  if go && s.flag LNT_MB_CTL_BUSY then s.secEvent LNT_MB_CTL rq 2 0x3F else
  let s := s.plainWrite LNT_MB_CTL v mask
  if !go || !s.flag LNT_INFO_READY then s else
  let s : State := { s with lnt := { s.lnt with goSeq := s.get LNT_MB_CTL_SEQ, wait := none } }
  let s := s.put LNT_MB_CTL_BUSY 1
  if (mbLenOf s.mbCmd).isNone then s.mbPlain (s.mbCheck s.mbCmd) [] else s

/-- MAILBOX_GO. -/
def execMailboxGo (rq : Requester) (v : Word32) (s : State) : Out :=
  .next (s.guarded rq LNT_MB_CTL (fun s => s.writeMbCtl rq v.toNat mask32))

/-! ### Commands in the clear (R447, R449, R466) -/

/-- GET_INFO. -/
def execGetInfo (s : State) : Out :=
  .next (s.mbClear 0x01 (fun s _ =>
    (s, leBytes 4 (s.lnt.life + 4 * s.get LNT_INFO_IDENTITY) ++ leBytes 4 s.lnt.nonce ++ leBytes 4 s.lnt.ctr ++ leBytes 4 s.lnt.version)))

/-- GET_CERT. -/
def execGetCert (s : State) : Out :=
  .next (s.mbClear 0x02 (fun s p => (s, leBytes 4 Config.certChain.length ++ bytesAt Config.certChain (leNat p) 16364)))

/-- PROVISION. -/
def execProvision (s : State) : Out :=
  .next (s.mbClear 0x20 (fun s p => ({ s with lnt := { s.lnt with hsckOtp := some p, hsck := some p } }, [])))

/-- The measurement of the secure configuration (R465). -/
def State.mConfig (s : State) : List Byte :=
  let word (b : Nat) : List Byte := leBytes 8 (s.reg b).toNat
  Config.sha3 ((List.range 16).flatMap (fun i => word (MEM_RGN_W0 i) ++ word (MEM_RGN_W1 i) ++ word (MEM_RGN_W2 i)) ++
    leBytes 8 ((List.range 64).foldl (fun m p => m + s.get (QOS_PART_W p) * 2 ^ p) 0) ++
    (List.range 256).flatMap (fun i => word (LNT_SQ i)) ++ word SAF_CTL ++ word SAF_REACT)

/-- The Daymark report but its last signature. -/
def State.daymarkBody (s : State) (nonce aliasSig : List Byte) : List Byte :=
  let dig (bs : List Byte) : List Byte := fitTo 64 bs
  let flags := s.lnt.life + 4 * s.get LNT_INFO_IDENTITY + 16 * ((s.reg LNT_TAMPER).toNat % 16) + 256 * s.get SAF_STATUS_DEBUG +
    512 * s.get SAF_STATUS_FAULT
  leBytes 4 (0x444D + 0x10000) ++ leBytes 4 12368 ++ leBytes 8 s.beacon ++ leBytes 8 (b2n (s.get BCN_STATUS_STATE == 1)) ++
    leBytes 4 s.lnt.boots ++ leBytes 4 flags ++ fitTo 64 nonce ++ dig s.deviceId ++ dig Config.romDigest ++ dig s.lnt.mLantern ++
    dig s.lnt.mKeeper ++ dig s.lnt.mGolden ++ dig s.mConfig ++ leBytes 4 (imgVersion s.runImg) ++ leBytes 4 s.lnt.version ++
    leBytes 4 (s.get SAF_GT_VER_VER) ++ List.replicate 4 0 ++ bytesAt s.sstBlock 16 8 ++ List.replicate 8 0 ++
    fitTo 2592 (Config.mldsaPub s.aliasSeed) ++ fitTo 4627 aliasSig ++ List.replicate 5 0

/-- The whole report (R466). -/
def State.daymark (s : State) (nonce : List Byte) : State × List Byte :=
  let (s, r1) := s.draw 32
  let (s, r2) := s.draw 32
  let aliasSig := Config.mldsaSign s.idSeed r1
    (Config.sha3 (fitTo 2592 (Config.mldsaPub s.aliasSeed) ++ Config.romDigest ++ s.lnt.mLantern ++ s.lnt.mKeeper))
  let body := s.daymarkBody nonce aliasSig
  (s, fitTo 12368 (body ++ fitTo 4627 (Config.mldsaSign s.aliasSeed r2 (Config.sha3 (body.take 7736)))))

/-- DAYMARK. -/
def execDaymark (s : State) : Out := .next (s.mbClear 0x03 (fun s p => s.daymark p))

/-! ### Authenticated commands (R447, R449 to R452, R458) -/

/-- Does anything hold a partition in use (R367)? -/
def State.partInUse (s : State) (p : Nat) : Bool :=
  (List.range 256).any (fun c => s.get (SCH_CTX_CFG_PART c) == p && [1, 2, 3, 4].contains (s.get (SCH_CTX_STAT_STATE c))) ||
  (List.range 512).any (fun g => !s.granIn 0 g && s.get (SPD_GRAN_PART g) == p) ||
  (List.range 128).any (fun i => s.flag (MEM_RGN_W0_EN i) && s.get (MEM_RGN_W0_PART i) == p) ||
  (List.range 8).any (fun e => (List.range 32).any (fun w => (s.flag (SCH_WIN_EN e w) && s.get (SCH_WIN_PART e w) == p) ||
    (s.flagA (SCH_WIN_EN e w) && s.getA (SCH_WIN_PART e w) == p))) ||
  (List.range 4).any (fun n => (s.flag (SCH_DWIN_EN n) && s.get (SCH_DWIN_PART n) == p) ||
    (s.flagA (SCH_DWIN_EN n) && s.getA (SCH_DWIN_PART n) == p)) ||
  (List.range 4).any (fun n => (s.flagA (DISP_TIM_CLK_ENABLE n) || s.flag (DISP_CFG_LOCK n)) && s.get (DISP_CFG_SAFE_PART n) == p)

/-- SEC_PART. -/
def execSecPart (s : State) : Out :=
  .next (s.mbSecure 0x10 (fun s p =>
    let v := leNat p
    if s.partInUse (v % 64) then (s, some (5, []))
    else (s.put (QOS_PART_W (v % 64)) (bitsOf v 8 1), some (0, []))))

/-- Zero data and a poisoned normal-world tag in every codeword of 4 KiB pages `[lo, hi)` (R451). -/
def State.scrubPages (s : State) (lo hi : Nat) : State :=
  if hi ≤ lo then s else
  let a := lo * 4096
  let b := hi * 4096
  { s with mem := mclear a b s.mem, tags := mclear (a / 32) (b / 32) s.tags, ecc := mclear (a / 32) (b / 32) s.ecc }

/-- The pages that leave the cover of a secure entry which was `[b, l]` and becomes `now`. -/
def State.scrubLeft (s : State) (b l : Nat) (now : Option (Nat × Nat)) : State :=
  match now with
  | none => s.scrubPages b (l + 1)
  | some (b2, l2) => (s.scrubPages b (min (l + 1) b2)).scrubPages (max b (l2 + 1)) (l + 1)

/-- A new value of a secure entry, with the scrub of R451; whether it could be enabled as asked (R209). -/
def State.changeRgn (s : State) (i w0 w1 w2 : Nat) : State × Bool :=
  let old := (s.get (MEM_RGN_W0_BASE i), s.get (MEM_RGN_W1_LIMIT i))
  let was := s.flag (MEM_RGN_W0_EN i) && s.flag (MEM_RGN_W0_W i)
  let s1 := s.applyRgn i w0 w1 w2
  let now := if s1.flag (MEM_RGN_W0_EN i) && s1.flag (MEM_RGN_W0_W i) then
    some (s1.get (MEM_RGN_W0_BASE i), s1.get (MEM_RGN_W1_LIMIT i)) else none
  (if was then s1.scrubLeft old.1 old.2 now else s1, !bitOf w0 0 || s1.flag (MEM_RGN_W0_EN i))

/-- SEC_RGN. -/
def execSecRgn (s : State) : Out :=
  .next (s.mbSecure 0x11 (fun s p =>
    let (s, ok) := s.changeRgn (u p 0 1 % 16) (u p 8 8) (u p 16 8) (u p 24 8)
    (s, some (if ok then 0 else 5, []))))

/-- SEC_QUEUE. -/
def execSecQueue (s : State) : Out :=
  .next (s.mbSecure 0x12 (fun s p =>
    let v := leNat p
    let q := v % 16384
    (s.put ⟨LNT_SQ (q / 64), q % 64, 1⟩ (bitsOf v 16 1), some (0, []))))

/-- The answer of a SEC_MOOR whose context has settled. -/
def State.moorAnswer (s : State) (c : Nat) : Nat × List Byte :=
  if s.get (SCH_CTX_STAT_STATE c) = 5 then (5, leBytes 4 (s.get (SCH_CTX_STAT_REASON c)))
  else (0, leBytes 4 (s.get (SCH_CTX_STAT_GRAN_BASE c)))

/-- A SEC_MOOR or SEC_RELEASE that has begun waits in its row; an alarm ends it (R462). -/
def State.mbWaiting (s : State) (cmd c : Nat) (done : State → Option (Nat × List Byte)) : State :=
  if !s.mbIs cmd then s
  else if s.lnt.tampered then s.mbPlain 6 []
  else match done s with
    | some (k, body) => s.mbSealed k body
    | none => { s with lnt := { s.lnt with wait := some c } }

/-- SEC_MOOR: a moor that reclaims is answered once it has its granules. -/
def execSecMoor (s : State) : Out :=
  .next (match s.lnt.wait with
    | some c => s.mbWaiting 0x13 c (fun s => if s.get (SCH_CTX_STAT_STATE c) = 1 then none else some (s.moorAnswer c))
    | none => s.mbSecure 0x13 (fun s p =>
        let c := u p 0 1
        let v := u p 8 8
        let st := s.get (SCH_CTX_STAT_STATE c)
        if st ≠ 0 ∧ st ≠ 5 then (s, some (5, leBytes 4 (s.get (SCH_CTX_STAT_REASON c))))
        else if bitsOf v 45 2 ≠ 0 then (s, some (5, leBytes 4 3))
        else
          let keep := s.funcHeld (s.get (SCH_CTX_CFG_FUNC c))
          let v := if keep then putBits v 0 5 (s.get (SCH_CTX_CFG_FUNC c)) else v
          let s := s.setReg (SCH_CTX_CFG c)
            (BitVec.ofNat 64 (writeFields (fieldsAt (SCH_CTX_CFG c)) false true (s.reg (SCH_CTX_CFG c)).toNat v mask64))
          let s := (s.moor true c).settle
          if s.get (SCH_CTX_STAT_STATE c) = 1 then ({ s with lnt := { s.lnt with wait := some c } }, none)
          else (s, some (s.moorAnswer c))))

/-- SEC_RELEASE: answered once the context is free; one that the driver has begun to release waits for it (R201). -/
def execSecRelease (s : State) : Out :=
  .next (match s.lnt.wait with
    | some c => s.mbWaiting 0x14 c (fun s => if s.get (SCH_CTX_STAT_STATE c) = 4 then none else some (0, []))
    | none => s.mbSecure 0x14 (fun s p =>
        let c := u p 0 1
        let st := s.get (SCH_CTX_STAT_STATE c)
        if !s.ctxW c ∨ (st ≠ 2 ∧ st ≠ 3 ∧ st ≠ 4) then (s, some (5, []))
        else
          let s := if st = 4 then s else (s.releaseCtx c).settle
          ({ s with lnt := { s.lnt with wait := some c } }, none)))

/-- SEC_ISL_CTL. -/
def execSecIslCtl (s : State) : Out :=
  .next (s.mbSecure 0x15 (fun s p =>
    let isl := u p 0 1 % 64
    let off := u p 4 4 % 2 ^ 26
    match regAt off with
    | some (_, base) =>
      if base ≠ off ∨ stagedIsland off ≠ some isl ∨ ¬ s.secIsl isl then (s, some (5, []))
      else (s.stageWrite off (u p 8 8) mask64, some (0, []))
    | none => (s, some (5, []))))

/-- SET_PRODUCTION. -/
def execSetProduction (s : State) : Out :=
  .next (s.mbSecure 0x21 (fun s _ =>
    ({ s with lnt := { s.lnt with life := 2 } }.put LNT_INFO_LIFECYCLE 2, some (0, []))))

/-! ### Tamper alarms and the secure watchdog (R460 to R463) -/

/-- The bit of a source in LNT_TAMPER. -/
def tamperBit : TamperSrc → Nat
  | .volt => 0
  | .clk => 1
  | .temp => 2
  | .access => 3

/-- Step 1: volatile keys; step 2: the UDS. -/
def State.zeroise (s : State) : State :=
  let uds := if Config.eraseWrap then List.replicate 32 0xFF#8 else s.lnt.uds
  let s : State := { s with
    lnt := { s.lnt with hsck := none, sk := none, store := none, zeroised := true, tampered := true, uds := uds }
    svc := { s.svc with opened := false } }
  (s.put LNT_TAMPER_ERASED (b2n s.erased)).put LNT_INFO_IDENTITY (if s.erased then 1 else 2)

/-- Step 3: secure descriptors end, secure contexts are released. -/
def State.endSecure (s : State) : State :=
  ((List.range 256).filter (fun c => [1, 2, 3, 4].contains (s.get (SCH_CTX_STAT_STATE c)) && s.ctxW c)).foldl (fun s c =>
    match s.get (SCH_CTX_STAT_STATE c) with
    | 1 => s.put (SCH_CTX_STAT_STATE c) 4
    | 4 => (s.abortCtx c).stopCtx c 4
    | _ => (s.put (SCH_CTX_STAT_STATE c) 3).releaseCtx c) s

/-- A tamper alarm. -/
def State.tamper (s : State) (src : TamperSrc) : State :=
  ((s.put ⟨LNT_TAMPER, tamperBit src, 1⟩ 1).zeroise.endSecure).settle

/-- TAMPER_ALARM. -/
def execTamperAlarm (src : TamperSrc) (s : State) : Out := .next (if s.pins.held then s else s.tamper src)

/-- VIN_FAULT: VIN at `mv` for 10 µs (R461, R611). Outside 4.50 to 5.50 V the voltage alarm comes first. -/
def execVinFault (mv : Nat) (s : State) : Out :=
  .next (
    let s := if s.pins.held ∨ (4500 ≤ mv ∧ mv ≤ 5500) then s else s.tamper .volt
    if mv < 2500 then s.vinGone.setVin false
    else if mv < 4400 ∨ 5750 < mv then (s.coldAssert false).setVin false
    else s)

/-- THERMAL_SAMPLE: a sample of the temperature of Lantern's island outside its range raises the alarm too (R461). -/
def execThermalSample (isl temp : Nat) (s : State) : Out :=
  .next (if 38 ≤ isl ∨ s.dead then s else
    let s := s.thermalSample isl temp
    let t := s.temp8 isl
    if isl = 37 ∧ (t < -400 ∨ 1120 < t) ∧ ¬ (s.lnt.tampered ∧ bitOf (s.reg LNT_TAMPER).toNat 2) then s.tamper .temp else s)

/-- SYSCLK_LOSS: the generators stop, then the alarm. -/
def execSysclkLoss (s : State) : Out :=
  .next (if s.pins.held then s.setClk false else if !s.pins.clk then s else
    let s := s.accTime
    ({ s with clkOff := s.clkOff ++ [2] }.setClk false).tamper .clk)

/-- SECURE_WATCHDOG_EXPIRY. -/
def execSecureWatchdogExpiry (s : State) : Out :=
  .next (if s.dead || !s.flag LNT_INFO_READY then s else (s.bump LNT_SWDG_EXPIRIES 1).coldAssert true)

end Sys2Proof.Machine
end

