-- ==== Sys2Proof/Machine/Service.lean ====
section
/-!
DEFINITION. The Keeper mailbox (R459, R490), firmware activation (R491 to R495), the service port, deltas and recovery
(R483 to R490, R496, R497).
-/

namespace Sys2Proof.Machine

/-! ### The Keeper mailbox (R221, R459, R488, R490) -/

/-- Firmware reads the answer of its last request. -/
def State.kAnswer (s : State) (status : Nat) (data : List Byte) : State :=
  { s with lnt := { s.lnt with kStatus := status, kData := data } }

/-- The request of the host mailbox is served, by its row. -/
def State.serveHost (s : State) : State :=
  let o := match s.mbCmd with
    | 0x01 => execGetInfo s
    | 0x02 => execGetCert s
    | 0x03 => execDaymark s
    | 0x10 => execSecPart s
    | 0x11 => execSecRgn s
    | 0x12 => execSecQueue s
    | 0x13 => execSecMoor s
    | 0x14 => execSecRelease s
    | 0x15 => execSecIslCtl s
    | 0x20 => execProvision s
    | _ => execSetProduction s
  match o with
  | .next t => t
  | _ => s

/-- Lantern comes to a request of the Keeper mailbox: one that waits in the host mailbox goes first where the Keeper's went
last (R445). -/
def State.kTurn (s : State) : State :=
  let s := if s.flag LNT_MB_CTL_BUSY && s.lnt.wait.isNone && s.lnt.turn then s.serveHost else s
  { s with lnt := { s.lnt with turn := true } }

/-- A Keeper mailbox request: Lantern runs and a pair sends it; after an alarm it is answered TAMPERED. -/
def State.kRun (s : State) (f : State → State) : State :=
  if s.dead || !s.flag LNT_INFO_READY || s.flag TOP_FW_STAT_RECOVERY || s.pairsOn.isEmpty then s else
  let s := s.kTurn
  if s.lnt.tampered then s.kAnswer 6 []
  else f s

/-- VERIFY_SLOT. -/
def execVerifySlot (slot : Nat) (s : State) : Out :=
  .next (s.kRun (fun s => s.kAnswer 0 (leBytes 4 (s.verifySlot (s.slot slot)).1)))

/-- PRELOAD. -/
def execPreload (slot : Nat) (s : State) : Out :=
  .next (s.kRun (fun s =>
    let (k, img) := s.verifySlot (s.slot slot)
    ({ s with stageImg := if k = 0 then some (slot, img) else none }).kAnswer 0 (leBytes 4 k)))

/-- Begin a slot write: the IV is drawn. -/
def State.storeOpen (s : State) (slot len : Nat) : State :=
  let (s, iv) := s.draw 12
  { s with lnt := { s.lnt with store := some ⟨slot, len, iv, []⟩ } }.kAnswer 0 iv

/-- STORE_OPEN. -/
def execStoreOpen (slot len : Nat) (s : State) : Out :=
  .next (s.kRun (fun s => s.storeOpen slot len))

/-- STORE_DATA: the next piece of the ciphertext. -/
def execStoreData (data : List Byte) (s : State) : Out :=
  .next (s.kRun (fun s =>
    match s.lnt.store with
    | none => s.kAnswer 5 []
    | some x =>
      if data.isEmpty || decide (4076 < data.length) || decide (x.len < x.plain.length + data.length) then s.kAnswer 2 []
      else
        let plain := x.plain ++ data
        let ct := bytesAt (Config.gcmSeal s.storeKey x.iv (hdrAad x.len) plain) x.plain.length data.length
        ({ s with lnt := { s.lnt with store := some { x with plain := plain } } }).kAnswer 0 ct))

/-- STORE_CLOSE: the tag. -/
def execStoreClose (s : State) : Out :=
  .next (s.kRun (fun s =>
    match s.lnt.store with
    | none => s.kAnswer 5 []
    | some x => { s with lnt := { s.lnt with store := none } }.kAnswer 0
        (bytesAt (Config.gcmSeal s.storeKey x.iv (hdrAad x.len) x.plain) x.plain.length 16)))

/-- The session key of two nonces (R488). -/
def sessionKey (hsck nTool nDev : List Byte) : List Byte := Config.shake256 (hsck ++ ascii "KZ-SV" ++ nTool ++ nDev) 32

/-- A session key is derived from the tool's nonce; the device's nonce. -/
def State.openSession (s : State) (hsck nTool : List Byte) : State × List Byte :=
  let (s, n) := s.draw 32
  let n := fitTo 32 n
  ({ s with lnt := { s.lnt with sk := some (sessionKey hsck nTool n) } }, n)

/-- SVC_KEY. -/
def execSvcKey (hostNonce : List Byte) (s : State) : Out :=
  .next (s.kRun (fun s =>
    match s.lnt.hsck with
    | none => s.kAnswer 5 []
    | some k =>
      if hostNonce.length ≠ 32 then s.kAnswer 2 []
      else
        let (s, n) := s.openSession k hostNonce
        s.kAnswer 0 n))

/-! ### Frames (R486, R488) -/

def frType (f : List Byte) : Nat := numAt f 4 1
def frFlags (f : List Byte) : Nat := numAt f 5 1
def frSeq (f : List Byte) : Nat := numAt f 6 2
def frLen (f : List Byte) : Nat := numAt f 2 2
def frBody (f : List Byte) : List Byte := bytesAt f 8 (frLen f)

/-- A whole frame with its CRC. -/
def mkFrame (ty flags seq : Nat) (body : List Byte) : List Byte :=
  let h := leBytes 2 body.length ++ leBytes 1 ty ++ leBytes 1 flags ++ leBytes 2 seq
  leBytes 2 0xC35A ++ h ++ body ++ leBytes 4 (crc32c (h ++ body))

/-- A frame that R487 does not discard. -/
def frOk (f : List Byte) : Bool :=
  numAt f 0 2 == 0xC35A && decide (frLen f ≤ 4096) && f.length == frLen f + 12 && decide (frFlags f < 4) &&
    numAt f (8 + frLen f) 4 == crc32c (bytesAt f 2 (6 + frLen f))

/-- The IV of a frame: from the tool (0) or the device (1). -/
def frIv (seq dir : Nat) : List Byte := leBytes 8 seq ++ leBytes 4 dir

/-- The plaintext payload of an encrypted request with the SEQ that the session expects. -/
def State.frOpen (s : State) (f : List Byte) : Option (List Byte) :=
  match s.lnt.sk with
  | none => none
  | some k => if frSeq f = s.svc.next then Config.gcmOpen k (frIv (frSeq f) 0) (bytesAt f 2 6) (frBody f) else none

/-- An encrypted response payload: ciphertext and tag. -/
def State.frSeal (s : State) (ty seq : Nat) (body : List Byte) : List Byte :=
  let h := leBytes 2 (body.length + 16) ++ leBytes 1 ty ++ leBytes 1 3 ++ leBytes 2 seq
  Config.gcmSeal (s.lnt.sk.getD []) (frIv seq 1) h body

/-- SVC_OPEN. -/
def execSvcOpen (frame : List Byte) (s : State) : Out :=
  .next (s.kRun (fun s =>
    if s.lnt.sk.isNone then s.kAnswer 5 []
    else match s.frOpen frame with
      | some p => s.kAnswer 0 p
      | none => s.kAnswer 3 []))

/-- SVC_SEAL. -/
def execSvcSeal (frame : List Byte) (s : State) : Out :=
  .next (s.kRun (fun s =>
    if s.lnt.sk.isNone then s.kAnswer 5 []
    else s.kAnswer 0 (s.frSeal (frType frame) (frSeq frame) (bytesAt frame 8 (frame.length - 8)))))

/-! ### Power and relocation requests (R221, R459) -/

/-- The cap in force and whether the request is kept pending. -/
def State.powAnswer (s : State) (isl : Nat) (deferred : Bool) : State :=
  s.kAnswer 0 (leBytes 4 (satN 16 (s.lntCap isl) + 65536 * b2n deferred))

/-- Keep a request until the island is no longer secure-assigned. -/
def State.powDefer (s : State) (isl kind arg : Nat) : State :=
  { s with pwr := { s.pwr with defer' := s.pwr.defer' ++ [(isl, kind, arg)] } }.powAnswer isl true

/-- ISL_POWER: 0 a cap, 1 clock-gating, 2 power-gating, 3 a wake. A higher clock waits for the end of the secure assignment,
gating for that of the island's work and secure state (R459). -/
def execIslPower (isl kind arg : Nat) (s : State) : Out :=
  .next (s.kRun (fun s =>
    if !s.secIsl isl then s.kAnswer 5 []
    else match kind with
      | 0 =>
        if arg ≤ s.lntCap isl then
          (({ s with pwr := { s.pwr with cap := mset (fun _ => 2 ^ 16) s.pwr.cap isl arg } }).refreshClks).powAnswer isl false
        else s.powDefer isl kind arg
      | 3 => (s.wakeIsls [isl]).powAnswer isl false
      | _ => if 8 ≤ isl ∨ s.islWorks isl ∨ s.secRes isl then s.powDefer isl kind arg else (s.accTime.gateBy isl kind).powAnswer isl false))

/-- RGN_RELOCATE: entry `i` moves to page `base`, or is disabled; the rest of it stays. -/
def execRgnRelocate (i : Nat) (base : Nat) (disable : Bool) (s : State) : Out :=
  .next (s.kRun (fun s =>
    if 16 ≤ i then s.kAnswer 5 []
    else
      let size := s.get (MEM_RGN_W1_LIMIT i) - s.get (MEM_RGN_W0_BASE i)
      let w0 := (s.reg (MEM_RGN_W0 i)).toNat
      let off := disable || base == 0
      let w0 := if off then putBits w0 0 1 0 else putBits w0 12 36 base
      let w1 := (s.reg (MEM_RGN_W1 i)).toNat
      let w1 := if off then w1 else putBits w1 12 36 (base + size)
      let (s, ok) := s.changeRgn i w0 w1 (s.reg (MEM_RGN_W2 i)).toNat
      ({ s with reloc := s.reloc.filter (fun r => r.1 != i) }).kAnswer (if ok then 0 else 5) []))

/-! ### Activation (R491 to R495) -/

/-- A preload of the staged slot starts. -/
def State.startPreload (s : State) : State := { s.put BOOT_STAT_PRELOAD 1 with stageImg := none }

/-- The end of an activation: ACT_RESULT, PAUSE_US, ACT_DONE and its message. -/
def State.actEnd (s : State) (result us : Nat) : State :=
  (((s.put BOOT_STAT_ACT_RESULT result).put BOOT_STAT_PAUSE_US us).put BOOT_STAT_ACT_DONE 1).pfIrq BOOT_CFG_VECTOR BOOT_CFG_EN

/-- An activation at once, under the conditions of R491; otherwise ACT_RESULT reads REFUSED. -/
def State.actNow (s : State) : State :=
  let slot := s.get BOOT_ACT_SLOT
  if !s.armedFor 36 && s.actv.isNone && s.fwRuns && s.bootOk slot && (s.dirtyKeys 36).all (· == BOOT_ACT) then
    let s := s.setAct BOOT_ACT (s.reg BOOT_ACT)
    (s.refreshDirtyBit 36).beginPause slot
  else s.put BOOT_STAT_ACT_RESULT 3

/-- A write of BOOT_ACT: SLOT is staged and preloaded; ACT_NOW acts on the staged SLOT, and by itself starts no preload. -/
def State.writeBootAct (s : State) (v mask : Nat) : State :=
  let old := s.get BOOT_ACT_SLOT
  let now := bitOf (Nat.land v mask) 1
  let armed := s.armedFor 36
  let s := s.stageWrite BOOT_ACT v mask
  let s := if !armed && bitOf mask 0 && (!now || s.get BOOT_ACT_SLOT != old) then s.startPreload else s
  if now then s.actNow else s

/-- BOOT_ACT_STAGE. -/
def execBootActStage (rq : Requester) (v : Word32) (s : State) : Out :=
  .next (s.guarded rq BOOT_ACT (fun s => s.writeBootAct v.toNat mask32))

/-- ACT_NOW. -/
def execActNow (rq : Requester) (v : Word32) (s : State) : Out :=
  .next (s.guarded rq BOOT_ACT (fun s => s.writeBootAct v.toNat mask32))

/-- PRELOAD_DONE: ready when the copy was made (`ok`) and the slot passes R482. -/
def execPreloadDone (ok : Bool) (s : State) : Out :=
  .next (if s.dead || s.get BOOT_STAT_PRELOAD != 1 then s else
    let slot := s.get BOOT_ACT_SLOT
    let (k, img) := s.verifySlot (s.slot slot)
    if ok && k == 0 && !s.lnt.tampered then { s.put BOOT_STAT_PRELOAD 2 with stageImg := some (slot, img) }
    else s.put BOOT_STAT_PRELOAD 3)

/-- µs since the pause began, as PAUSE_US shows them. -/
def State.pauseUs (s : State) (a : ActSt) : Nat := satN 16 ((s.c - a.c0) / 800)

/-- Firmware runs again: the pairs have passed R424, both copies of BOOT_ACT hold the active slot, latched tails count, the
watchdog's limit is moved on by the pause, and what waited follows, a golden slot and the deadline monitor included (R495). -/
def State.endPause (s : State) (a : ActSt) : State :=
  let s := s.rotPairs
  let s := s.put BOOT_ACT_SLOT (s.get BOOT_STAT_ACTIVE_SLOT)
  let s := (s.setAct BOOT_ACT (s.reg BOOT_ACT)).refreshDirtyBit 36
  let s : State := { (s.put TOP_FW_STAT_PAUSE 0).put TOP_FW_STAT_READY 1 with
    actv := none
    seqC := s.seqC + (s.c - a.c0) }
  let tails := s.dbLatch
  let s := (tails.foldl (fun (s : State) (e : Nat × Nat) => s.acceptTail e.1 e.2) { s with dbLatch := [] }).settle
  (s.jobs.map (fun e => e.1)).foldl State.deadlineCheck s.lateFtti

/-- A response frame, kept for a repeated request. -/
def State.reply (s : State) (fr : List Byte) (keep : Bool) : State :=
  { s with
    out := { s.out with uart := s.out.uart ++ [fr] }
    svc := { s.svc with cached := if keep then some fr else s.svc.cached } }

/-- An answer of the session, or of the ROM. -/
def State.answerSvc (s : State) (enc : Bool) (ty seq status : Nat) (body : List Byte) : State :=
  let p := leBytes 1 status ++ body
  s.reply (if enc then mkFrame ty 3 seq (s.frSeal ty seq p) else mkFrame ty 2 seq p) true

/-- The response of an ACTIVATE whose activation has ended. -/
def State.actReply (s : State) (status : Nat) : State :=
  if s.svc.actWait then
    { s with svc := { s.svc with actWait := false } }.answerSvc true 0x30 s.svc.seq status (leBytes 1 (s.get BOOT_STAT_ACT_RESULT))
  else s

/-- ACTIVATION_READY: within 15 ms. -/
def execActivationReady (s : State) : Out :=
  .next (match s.actv, s.stageImg with
    | some a, some (slot, img) =>
      if s.dead || slot != a.slot || decide (a.c0 + msTicks 15 < s.c) then s else
      let floor := if imgRaise img then max s.lnt.svnFloor (imgSvn img) else s.lnt.svnFloor
      let us := s.pauseUs a
      let s : State := { s with
        runImg := img
        stageImg := none
        lnt := { s.lnt with mKeeper := Config.sha3 (sectionOf img 1), svnFloor := floor } }
      let s := ((s.showVersions img).bump TOP_FW_STAT_ACT_COUNT 1).put BOOT_STAT_ACTIVE_SLOT slot
      let s := ((s.put BOOT_STAT_PRELOAD 0).endPause a).writeDir slot
      (s.actEnd 1 us).actReply 0
    | _, _ => s)

/-- ACTIVATION_ROLLBACK: after 15 ms. -/
def execActivationRollback (s : State) : Out :=
  .next (match s.actv with
    | some a =>
      if s.dead || decide (s.c < a.c0 + msTicks 15) then s
      else ((s.endPause a).actEnd 2 (s.pauseUs a)).actReply 0x0D
    | none => s)

/-! ### The service port (R485 to R490) -/

/-- A frame is discarded without a response. -/
def State.discard (s : State) : State := s.bump KPR_CNT_SVC_DISCARD_COUNT 1

/-- Known frame types. -/
def frKnown (ty : Nat) : Bool := [0x01, 0x02, 0x10, 0x20, 0x21, 0x22, 0x30, 0x40, 0x41, 0x42].contains ty

/-- Is a type available in firmware, in recovery? -/
def frMode (recov : Bool) (ty : Nat) : Bool :=
  if recov then [0x01, 0x02, 0x10, 0x40, 0x41, 0x42].contains ty else [0x01, 0x02, 0x10, 0x20, 0x21, 0x22, 0x30].contains ty

/-- Who serves the port: the ROM in recovery mode, firmware that runs or pauses. -/
def State.svcUp (s : State) : Bool :=
  !s.dead && (s.flag TOP_FW_STAT_RECOVERY || ((s.flag TOP_FW_STAT_READY || s.flag TOP_FW_STAT_PAUSE) && !s.pairsOn.isEmpty))

/-- A clear answer that holds STATUS only, not kept. -/
def State.refuseSvc (s : State) (f : List Byte) (status : Nat) : State :=
  (if status = 3 then s.bump KPR_CNT_SVC_AUTH_COUNT 1 else s).reply (mkFrame (frType f) 2 (frSeq f) (leBytes 1 status)) false

/-- A frame of type `ty`, or of a type that the table does not know, arrives whole: discard, repetition, session and mode
(R487 to R489), then `act` on the payload, which gives status and response or none where the response comes later. -/
def State.svcRun (s : State) (ty : Nat) (f : List Byte) (act : State → List Byte → State × Option (Nat × List Byte)) : State :=
  let recov := s.flag TOP_FW_STAT_RECOVERY
  let enc := bitOf (frFlags f) 0
  let seq := frSeq f
  if !s.svcUp then s
  else if !frOk f then s.discard
  else if (frType f ≠ ty ∧ frKnown (frType f)) ∨ bitOf (frFlags f) 1 then s
  else
    let s : State := { s with svc := { s.svc with lastC := s.c } }
    let finish (r : State × Option (Nat × List Byte)) : State :=
      match r with
      | (s, some (st, body)) => s.answerSvc (enc && s.svc.opened) (frType f) seq st body
      | (s, none) => s
    let fresh := !recov && enc && seq == s.svc.next
    match (if seq = s.svc.seq ∧ !fresh then s.svc.cached else none) with
    | some c => s.reply c false
    | none =>
      let mark (s : State) : State := { s with svc := { s.svc with seq := seq, cached := none, next := if enc then seq + 1 else 1 } }
      if recov then
        if enc then s.refuseSvc f 4
        else if !frMode true (frType f) then finish (mark s, some (1, []))
        else finish (act (mark s) (frBody f))
      else if frType f = 1 ∧ !enc then
        if s.flag TOP_FW_STAT_PAUSE then s.refuseSvc f 6
        else if s.lnt.hsck.isNone then s.refuseSvc f 5
        else finish (act (mark s) (frBody f))
      else if !s.svc.opened || s.lnt.sk.isNone then s.refuseSvc f 4
      else if !enc then s.refuseSvc f 3
      else match s.frOpen f with
        | none => s.refuseSvc f 3
        | some p =>
          if !frMode false (frType f) || frType f == 1 then finish (mark s, some (1, []))
          else if s.flag TOP_FW_STAT_PAUSE then finish (mark s, some (6, []))
          else finish (act (mark s) p)

/-- The session ends, and with it an update in progress. -/
def State.endSession (s : State) : State :=
  let s := match s.svc.upd with
    | some x => s.showSlot x.slot 0 []
    | none => s
  { s with
    lnt := { s.lnt with sk := none }
    svc := { s.svc with opened := false, upd := none, next := 1, cached := none } }

/-- HELLO. -/
def execHello (f : List Byte) (s : State) : Out :=
  .next (s.svcRun 0x01 f (fun s p =>
    if p.length ≠ 32 then (s, some (2, []))
    else
      let s := s.endSession
      let recov := s.flag TOP_FW_STAT_RECOVERY
      let (s, n) := if recov then (let (s, n) := s.draw 32; (s, fitTo 32 n)) else s.openSession (s.lnt.hsck.getD []) p
      let s : State := { s with svc := { s.svc with opened := !recov } }
      (s, some (0, n ++ fitTo 64 s.deviceId ++ leBytes 1 (b2n recov) ++ leBytes 8 (s.reg TOP_FW_VER).toNat ++
        leBytes 8 (s.reg TOP_HIF_VER).toNat))))

/-- SET_BAUD: the new rate applies after the response. -/
def execSetBaud (f : List Byte) (s : State) : Out :=
  .next (s.svcRun 0x02 f (fun s p =>
    if p.length ≠ 1 ∨ 4 < leNat p then (s, some (2, [])) else ({ s with svc := { s.svc with baud := leNat p } }, some (0, []))))

/-- SVC_STATUS. -/
def execSvcStatus (f : List Byte) (s : State) : Out :=
  .next (s.svcRun 0x10 f (fun s p =>
    if p.length ≠ 0 then (s, some (2, []))
    else (s, some (0, leBytes 8 (s.reg BOOT_STAT).toNat ++ leBytes 8 (s.reg (BOOT_SLOT 0)).toNat ++ leBytes 8 (s.reg (BOOT_SLOT 1)).toNat))))

/-! ### Updates (R483, R484, R497) -/

/-- An operation on the boot flash, and whether it ended well. -/
def State.flashOp (s : State) : State × Bool := (s.freshen 1, !Config.flashFault s.fresh)

/-- A slot is erased for writing; a preload of it is void. -/
def State.eraseSlot (s : State) (i : Nat) : State :=
  let s := (s.setSlot i slot0).showSlot i 3 []
  match s.stageImg with
  | some (j, _) => if i = j then { s.put BOOT_STAT_PRELOAD 0 with stageImg := none } else s
  | none => s

/-- An update ends; its slot stays without a header where it failed. -/
def State.closeUpd (s : State) (slot : Nat) : State := { s with svc := { s.svc with upd := none } }.refreshSlot slot

/-- Bytes of an open update at the right offset: the new state, or a status. -/
def State.takeData (s : State) (recov : Bool) (p : List Byte) : Except Nat (State × UpdSt) :=
  match s.svc.upd with
  | none => .error 7
  | some x =>
    if x.recov ≠ recov then .error 7
    else if p.length < 5 ∨ 4080 < p.length then .error 2
    else if numAt p 0 4 ≠ x.data.length then .error 7
    else if x.len < x.data.length + (p.length - 4) then .error 2
    else
      let y : UpdSt := { x with data := x.data ++ p.drop 4 }
      .ok ({ s with svc := { s.svc with upd := some y } }, y)

/-- A written image: encrypted, verified by R482, and its header written. -/
def State.storeImage (s : State) (slot : Nat) (img : List Byte) : State × Nat :=
  let (s, iv) := s.draw 12
  let iv := fitTo 12 iv
  let ct := Config.gcmSeal s.storeKey iv (hdrAad img.length) img
  let x : ImgSlot := ⟨makeHdr iv (bytesAt ct img.length 16) img, ct.take img.length⟩
  let (s, ok) := s.flashOp
  if !ok then (s.setSlot slot ⟨[], x.body⟩, 8) else
  let k := (s.verifySlot x).1
  (if k = 0 then s.setSlot slot x else s.setSlot slot ⟨[], x.body⟩, k)

/-- Status and DETAIL of a verification; 8 stands for FLASH_ERROR. -/
def verdict (k : Nat) : Nat × List Byte := if k = 8 then (0x0C, [0]) else (if k = 0 then 0 else if k = 7 then 0x0B else 0x0A, leBytes 1 k)

/-- DELTA_BEGIN. -/
def execDeltaBegin (f : List Byte) (s : State) : Out :=
  .next (s.svcRun 0x20 f (fun s p =>
    if p.length ≠ 4 ∨ leNat p = 0 ∨ 16777216 < leNat p then (s, some (2, []))
    else if s.svc.upd.isSome || s.armedFor 36 then (s, some (6, []))
    else
      let slot := 1 - s.get BOOT_STAT_ACTIVE_SLOT
      let (s, ok) := (s.eraseSlot slot).flashOp
      if !ok then (s.closeUpd slot, some (0x0C, [])) else
      ({ s with svc := { s.svc with upd := some ⟨false, slot, leNat p, []⟩ } }, some (0, []))))

/-- DELTA_DATA: the base digest is compared as soon as it has arrived. -/
def execDeltaData (f : List Byte) (s : State) : Out :=
  .next (s.svcRun 0x21 f (fun s p =>
    let had := match s.svc.upd with
      | some x => x.data.length
      | none => 0
    match s.takeData false p with
    | .error k => (s, some (k, []))
    | .ok (s, y) =>
      if had < 80 ∧ 80 ≤ y.data.length ∧ bytesAt y.data 16 64 ≠ bytesAt (s.slot (s.get BOOT_STAT_ACTIVE_SLOT)).hdr 64 64 then
        (s.closeUpd y.slot, some (8, []))
      else (s, some (0, []))))

/-- DELTA_END. -/
def execDeltaEnd (f : List Byte) (s : State) : Out :=
  .next (s.svcRun 0x22 f (fun s p =>
    match s.svc.upd with
    | none => (s, some (7, []))
    | some x =>
      if p.length ≠ 0 then (s, some (2, []))
      else if x.data.length ≠ x.len then (s.closeUpd x.slot, some (9, leBytes 1 1))
      else match deltaApply s.runImg (imgVendor s.runImg) x.data with
        | .error k => (s.closeUpd x.slot, some (9, leBytes 1 k))
        | .ok img =>
          let (s, k) := s.storeImage x.slot img
          (s.closeUpd x.slot, some (verdict k))))

/-- ACTIVATE: MODE 0 acts as ACT_NOW, MODE 1 arms a commit. -/
def execActivate (f : List Byte) (s : State) : Out :=
  .next (s.svcRun 0x30 f (fun s p =>
    if p.length ≠ 24 then (s, some (2, []))
    else
      let slot := u p 0 1 % 2
      let armed := s.armedFor 36
      let s := if s.get BOOT_ACT_SLOT ≠ slot ∧ ¬ armed then s.writeBootAct slot 1 else s
      if !bitOf (u p 0 1) 1 then
        let s := s.actNow
        if s.actv.isSome then ({ s with svc := { s.svc with actWait := true } }, none)
        else (s, some (0x0D, leBytes 1 (s.get BOOT_STAT_ACT_RESULT)))
      else
        let s := if s.arm.isSome then s else
          (((s.put TOP_MODE_UNITS_UNITS (2 ^ 36)).put TOP_MODE_CTRL_GEN (s.get TOP_MODE_STATUS_LAST_GEN + 1)).put TOP_MODE_TIME_TIME
            (u p 8 8)).put TOP_MODE_PEERS_PEERS (u p 16 8)
        let no := s.armRefusal.isSome
        let s := s.tryArm
        (s, some (if no then 0x0D else 0, leBytes 1 (s.get TOP_MODE_STATUS_RESULT)))))

/-- RECOVER_BEGIN. -/
def execRecoverBegin (f : List Byte) (s : State) : Out :=
  .next (s.svcRun 0x40 f (fun s p =>
    if s.erased then (s, some (0x0E, []))
    else if p.length ≠ 4 ∨ leNat p < 8192 ∨ 6287360 < leNat p then (s, some (2, []))
    else if s.svc.upd.isSome then (s, some (6, []))
    else
      let (s, ok) := (s.eraseSlot 0).flashOp
      if !ok then (s.closeUpd 0, some (0x0C, [])) else
      ({ s with svc := { s.svc with upd := some ⟨true, 0, leNat p, []⟩ } }, some (0, []))))

/-- RECOVER_DATA. -/
def execRecoverData (f : List Byte) (s : State) : Out :=
  .next (s.svcRun 0x41 f (fun s p =>
    match s.takeData true p with
    | .error k => (s, some (k, []))
    | .ok (s, _) => (s, some (0, []))))

/-- RECOVER_END. -/
def execRecoverEnd (f : List Byte) (s : State) : Out :=
  .next (s.svcRun 0x42 f (fun s p =>
    match s.svc.upd with
    | none => (s, some (7, []))
    | some x =>
      if p.length ≠ 0 then (s, some (2, []))
      else if x.data.length ≠ x.len then (s.closeUpd 0, some (0x0A, leBytes 1 4))
      else
        let (s, k) := s.storeImage 0 x.data
        let s := s.closeUpd 0
        let s := if k = 0 then { s.writeDir 0 with svc := { s.svc with resetC := s.c + 1 } } else s
        (s, some (verdict k))))

/-- SVC_BYTE_GAP. -/
def execSvcByteGap (s : State) : Out := .next (if s.svcUp then s.discard else s)

/-- SVC_IDLE_TIMEOUT: 5 s. -/
def execSvcIdleTimeout (s : State) : Out :=
  .next (if s.dead || decide (s.c < s.svc.lastC + msTicks 5000) then s
    else { s.endSession with svc := { s.endSession.svc with baud := 0 } })

/-- RECOVERY_RESET: 10 ms. -/
def execRecoveryReset (s : State) : Out :=
  .next (if s.dead || s.svc.resetC == 0 || decide (s.c + 1 < s.svc.resetC + msTicks 10) then s else s.coldAssert false)

end Sys2Proof.Machine
end

