-- ==== Sys2Proof/Machine/Bar0.lean ====
section
/-!
DEFINITION. Register accesses: what lies at an offset of each requester's view (R16, R17, R391), reads with the low-half
latches (R7, R8, R521, R571), writes by access type and by each register's own rule (R3 to R6), the MSI-X tables (R386, R393),
AtomicOps (R385) and the debug port (R426, R443, R461, R584).
-/

namespace Sys2Proof.Machine

/-! ### What lies at an offset (R16, R17, R391) -/

/-- Register sets whose elements have reserved words: first offset, stride, number of elements (R17). -/
def reservedSets : List (Nat × Nat × Nat) :=
  [(0x140000, 32, 1024), (0x510000, 32, 128), (0xD01000, 128, 32), (0x1101000, 32, 64), (0x1306000, 32, 32),
   (0x1401000, 32, 64), (0x1500100, 32, 4), (0xC01960, 32, 21), (0xC04258, 8, 21), (0xC05258, 8, 21), (0xC05658, 8, 21)]

/-- Is an offset without a register a reserved word? -/
def reservedWord (off : Nat) : Bool := reservedSets.any (fun r => decide (r.1 ≤ off) && decide (off < r.1 + r.2.1 * r.2.2))

/-- Number and rest of an offset in a set of stride `k`, where the set covers it. -/
def setIdx (off first k n : Nat) : Option (Nat × Nat) :=
  if off < first ∨ first + k * n ≤ off then none else some ((off - first) / k, (off - first) % k)

/-- The function of a requester: 0 for the PF and for the device's own requesters. -/
def reqFn : Requester → Nat
  | .fn n => n
  | _ => 0

/-- The global place of an item of a local index, at the same rest of its registers. -/
def State.viewItem (s : State) (n off first pf k : Nat) (base cnt : Nat → Fref) (limit : Nat) : Option Nat :=
  match setIdx off first k limit with
  | none => none
  | some (i, r) => if i < s.cnt (cnt n) then some (pf + k * (s.get (base n) + i) + r) else none

/-- The offset in the PF's view that an offset of a requester's view stands for (R391); none where its view has nothing. -/
def State.pfOffset (s : State) (rq : Requester) (off : Nat) : Option Nat :=
  let n := reqFn rq
  if n = 0 then (if off < 0x1800000 then some off else none)
  else if off < 0x100 then some off
  else match setIdx off 0x10000 0x28 1, s.viewItem n off 0x20000 0xB01000 16 VIRT_FN_W1_CTXBASE VIRT_FN_W1_CTXCNT 256 with
    | some (_, r), _ => some (FN_INFO n + r)
    | none, some o => some o
    | none, none =>
      if off < 0x140000 then none
      else if off < 0x160000 then s.viewItem n off 0x140000 0x140000 32 VIRT_FN_W0_CQBASE VIRT_FN_W0_CQCNT 1024
      else if off < 0x180000 then s.viewItem n off 0x160000 0x160000 8 VIRT_FN_W1_SEMBASE VIRT_FN_W1_SEMCNT 4096
      else s.viewItem n off 0x180000 0x180000 32 VIRT_FN_W0_QBASE VIRT_FN_W0_QCNT 16384

/-- What a 32-bit half holds: a register and its offset in the PF's numbering, a reserved word, or nothing. -/
inductive Place where
  | reg (sp : RegSpec) (base : Nat) (hi : Bool)
  | reserved
  | none

def State.placeAt (s : State) (rq : Requester) (off : Nat) : Place :=
  match s.pfOffset rq off with
  | Option.none => .none
  | some o =>
    if !s.answers o then .none
    else match regAt o with
      | some (sp, b) => .reg sp b (o != b)
      | Option.none => if reservedWord o then .reserved else .none

def Place.isNone : Place → Bool
  | .none => true
  | _ => false

/-- The 64-bit register that begins at a place. -/
def Place.wide : Place → Option (RegSpec × Nat)
  | .reg sp base false => if sp.bits = 64 then some (sp, base) else Option.none
  | _ => Option.none

/-- Accesses that BAR0 accepts (R7). -/
def accepted (off size : Nat) : Bool := (size == 4 || size == 8) && off % size == 0

/-- All ones in each requested byte lane; the answer register holds eight. -/
def allOnes (size : Nat) : Word64 := BitVec.ofNat 64 (2 ^ (8 * min size 8) - 1)

/-- Is the view of a requester shut by its function-level reset (R398)? -/
def State.resetting (s : State) (rq : Requester) : Bool :=
  match rq with
  | .fn n => n != 0 && s.flag (VIRT_FN_W5_FLR_BUSY n)
  | _ => false

/-! ### Reads (R3, R8, R391, R521, R571) -/

/-- The fields of a register that read as they stand: not the write-only ones (R3), nor reserved bits (R5). -/
def shown (fs : List FieldSpec) (v : Nat) : Nat :=
  fs.foldl (fun a f => if f.acc = .wo then a else putBits a f.lo f.w (bitsOf v f.lo f.w)) 0

/-- Fields that a VF's view gives as local numbers (R391). What the local value of GRAN_BASE counts from is not stated: a
free value (log 7). -/
def State.localised (s : State) (rq : Requester) (base v : Nat) : Nat :=
  let n := reqFn rq
  if n = 0 then v
  else match setIdx base 0x180000 32 16384, setIdx base 0xB01000 16 256 with
    | some (_, 8), _ => putBits v 8 10 (bitsOf v 8 10 - s.get (VIRT_FN_W0_CQBASE n))
    | _, some (_, 8) => putBits v 8 9 (Config.localGran n (bitsOf v 8 9))
    | _, _ => v

/-- What must be brought up to date before a register is read. -/
def State.readReady (s : State) (base : Nat) : State :=
  if base = BCN_NOW then (s.setReg BCN_NOW (BitVec.ofNat 64 s.beacon)).setReg BCN_RAW_AT_NOW s.now
  else if base = BCN_RAW then s.setReg BCN_RAW s.now
  else if base = LNT_SEC_ISL then s.put LNT_SEC_ISL_ISL s.secIslMask
  else if 0x1502000 ≤ base ∧ base < 0x1503000 then s.accTime
  else if base < 0x240000 ∧ 0x200000 ≤ base ∧ base % 0x10000 = 0x110 then s.accBusy
  else s

/-- The whole value that a register shows a requester. -/
def State.readReg (s : State) (rq : Requester) (sp : RegSpec) (base : Nat) : State × Nat :=
  let s := s.readReady base
  let raw := if s.flag DBG_SNAP_CTL_VIEW && sp.cnt then mget regReset s.shadow base else s.reg base
  (s, s.localised rq base (shown sp.flds raw.toNat))

/-- Requester number of a latch (R8). -/
def reqCode : Requester → Nat
  | .fn n => n
  | .debug => 32
  | .keeper => 33
  | .lantern => 34

def State.latchOf (s : State) (rq : Requester) (base : Nat) : Option Word32 :=
  (s.latches.find? (fun l => l.1 == base && l.2.1 == reqCode rq)).map (fun l => l.2.2)

def State.dropLatch (s : State) (rq : Requester) (base : Nat) : State :=
  { s with latches := s.latches.filter (fun l => !(l.1 == base && l.2.1 == reqCode rq)) }

def State.setLatch (s : State) (rq : Requester) (base v : Nat) : State :=
  { s with latches := (base, reqCode rq, BitVec.ofNat 32 v) :: (s.dropLatch rq base).latches }

/-- A 32-bit read of an assigned or reserved half; nothing reads as all ones. -/
def State.readHalf (s : State) (rq : Requester) : Place → State × Nat
  | .none => (s, mask32)
  | .reserved => (s, 0)
  | .reg sp base false =>
    let (s, v) := s.readReg rq sp base
    (if sp.bits = 64 then s.setLatch rq base (v / 2 ^ 32) else s, v % 2 ^ 32)
  | .reg sp base true =>
    match s.latchOf rq base with
    | some h => (s.dropLatch rq base, h.toNat)
    | Option.none =>
      let (s, v) := s.readReg rq sp base
      (s, v / 2 ^ 32)

/-- A naturally aligned read (R17). -/
def State.readAt (s : State) (rq : Requester) (off size : Nat) : State × Nat :=
  let a := s.placeAt rq off
  if size = 4 then
    let s := if a.isNone then s.unmapped else s
    s.readHalf rq a
  else
    match a.wide with
    | some (sp, base) => s.readReg rq sp base
    | Option.none =>
      let b := s.placeAt rq (off + 4)
      let s := if a.isNone || b.isNone then s.unmapped else s
      let (s, x) := s.readHalf rq a
      let (s, y) := s.readHalf rq b
      (s, x + y * 2 ^ 32)

/-! ### Writes by register (R3 to R6) -/

/-- The bits of a written value under a mask, over the bits held. -/
def maskedVal (old v mask : Nat) : Nat := old - Nat.land old mask + Nat.land v mask

/-- A write by access types, with the block's lock and the writer's world. -/
def State.fieldWrite (s : State) (rq : Requester) (locked : Bool) (base v mask : Nat) : State :=
  s.setReg base (BitVec.ofNat 64 (writeFields (fieldsAt base) locked (rq == .lantern) (s.reg base).toNat v mask))

/-- TOP (R32, R36). -/
def State.writeTop (s : State) (base v mask : Nat) : State :=
  if base = TOP_MODE_CTRL then s.writeModeCtrl v mask else s.plainWrite base v mask

/-- CMD (R40, R41, R58, R59, R68): rings and coalescing stand while their queue or group is in use; FUNC of a semaphore that
an enabled VF holds is not written, nor by a VF. -/
def State.writeCmd (s : State) (rq : Requester) (base v mask : Nat) : State :=
  match setIdx base 0x140000 32 1024, setIdx base 0x160000 8 4096, setIdx base 0x180000 32 16384 with
  | some (g, r), _, _ =>
    if r = 8 then s.writeGCfg rq g v
    else if r < 16 then (if s.flag (CMD_CQ_CFG_ENABLE g) then s else s.plainWrite base v mask)
    else s.plainWrite base v mask
  | _, some (i, _), _ =>
    let keep := reqFn rq != 0 || s.funcHeld (s.get (CMD_SEM_FUNC i))
    ((s.plainWrite base v (if keep then putBits mask 33 5 0 else mask)).serve i).settle
  | _, _, some (q, r) =>
    if r = 0 then (if s.flag (CMD_Q_CFG_ENABLE q) || s.get (CMD_Q_PTR_INFLIGHT q) != 0 then s else s.plainWrite base v mask)
    else if r = 8 then s.writeQCfg rq q v
    else if r = 24 then s.writeQErr q v mask
    else s.plainWrite base v mask
  | _, _, _ => s.plainWrite base v mask

/-- The scrubber of a memory begins again after a period of 0 (R219). -/
def State.resetScrub (s : State) (k period : Nat) : State :=
  if period = 0 then { s with scrub := mset (fun _ => 0) s.scrub k 0 } else s

/-- SPD and MEM_RGN (R203, R208, R209, R219, R232). -/
def State.writeSpd (s : State) (base v mask : Nat) : State :=
  if base = SPD_CFG then
    let s := s.plainWrite base v mask
    s.resetScrub 0 (s.get SPD_CFG_SCRUB_MS)
  else if base = SPD_RES then
    let t := s.plainWrite base v mask
    if 512 < t.get SPD_RES_RES1 + t.get SPD_RES_RES2 then s else t
  else match setIdx base 0x501000 8 256, setIdx base 0x510000 32 128 with
    | some (c, _), _ =>
      let held := (List.range 512).any (fun g => (s.granIn 2 g || s.granIn 3 g) && s.get (SPD_GRAN_CTX g) == c) ||
        s.spills.any (fun p => p.ctx == c)
      if held then s else s.plainWrite base v mask
    | _, some (i, 0) => s.rgnWord0 i (maskedVal (s.reg base).toNat v mask)
    | _, some (i, r) => s.holdWord i (r / 8) v mask
    | _, _ => s.plainWrite base v mask

/-- DDR (R219). -/
def State.writeDdr (s : State) (base v mask : Nat) : State :=
  let s := s.plainWrite base v mask
  if base % 0x10000 = 0x18 then s.resetScrub (1 + (base - 0x600000) / 0x10000) (s.get ⟨base, 0, 8⟩) else s

/-- LEAD_US lies from 1 µs to one frame period less 100 µs; an output that is off has no period (R339). -/
def State.leadOk (s : State) (n lead : Nat) : Bool :=
  let t := s.dispTotals n
  !s.flagA (DISP_TIM_CLK_ENABLE n) || decide ((lead + 100) * s.getA (DISP_TIM_CLK_PCLK_KHZ n) ≤ t.1 * t.2 * 1000)

/-- DISP (R339): LOCK holds the RWL fields. -/
def State.writeDisp (s : State) (rq : Requester) (base v mask : Nat) : State :=
  if (stagedIsland base).isSome then s.stageWrite base v mask
  else match setIdx base 0x900000 0x1000 4 with
    | some (n, 0x18) =>
      let lead := maskedVal (s.reg base).toNat v mask % 65536
      s.fieldWrite rq (s.flag (DISP_CFG_LOCK n)) base v (if s.leadOk n lead then mask else mask / 65536 * 65536)
    | _ => s.plainWrite base v mask

/-- SCH (R343, R359). -/
def State.writeSch (s : State) (rq : Requester) (base v mask : Nat) : State :=
  match setIdx base 0xB01000 16 256, setIdx base 0xB08000 32 256 with
  | some (c, 0), _ => s.writeCtxCfg rq c v mask
  | _, some (j, r) =>
    if r = 24 ∨ s.get (SCH_JOB_W3_STATE j) ≠ 0 then s
    else
      let s := s.plainWrite base v mask
      let s := if r = 16 && bitOf (Nat.land v mask) 8 then
        (s.put (SCH_JOB_W3_RUNS j) 0).setJob j { s.job j with meas := [] } else s
      s.refreshEst j
  | _, _ => s.stageWrite base v mask

/-- QOS (R366, R367, R372): exempt ports take no write. -/
def State.writeQos (s : State) (rq : Requester) (base v mask : Nat) : State :=
  match setIdx base 0xC00100 8 64, setIdx base 0xC01000 32 75 with
  | some (p, _), _ => if s.partInUse p then s.unmapped else s.fieldWrite rq false base v mask
  | _, some (p, _) => if p = 40 ∨ p = 72 ∨ p = 73 then s else s.stageWrite base v mask
  | _, _ => s.stageWrite base v mask

/-- VIRT and the function pages (R388, R392, R395 to R397, R403 to R406). Words 6 to 9 take no write but SWAP while
DIRTY_EN = 1. -/
def State.writeVirt (s : State) (base v mask : Nat) : State :=
  match setIdx base 0xD01000 128 32 with
  | some (f, r) =>
    let x := Nat.land v mask
    if r < 0x18 then (if f = 0 ∨ s.pcie.vfEnable then s else s.plainWrite base v mask)
    else if r = 0x20 then
      let s := if bitOf x 0 then s.quiesce f else s
      if bitOf x 1 then (s.resume f).refreshLtr else s
    else
      let on := s.flag (VIRT_FN_W6_DIRTY_EN f)
      let s := if on && decide (0x30 ≤ r) && decide (r < 0x50) then s else s.plainWrite base v mask
      if r = 0x30 && bitOf x 1 then s.swapBitmap f else s
  | none =>
    match (List.range 32).find? (fun f => FN_HB f == base) with
    | some f => s.heartbeat f
    | none => s.plainWrite base v mask

/-- SAF (R438, R439): LOCK holds SAF_CTL and SAF_REACT until cold reset; the bits of fixed codes take no write. -/
def State.writeSaf (s : State) (rq : Requester) (base v mask : Nat) : State :=
  if base = SAF_CTL then (s.fieldWrite rq (s.flag SAF_CTL_LOCK) base v mask).refreshSafe
  else if base = SAF_REACT then
    (s.fieldWrite rq (s.flag SAF_CTL_LOCK) base v (Nat.land mask 0xFFFFFFF0CFF3CFFF)).refreshSafe
  else if base = SAF_EVT then s.clearPend (Nat.land v mask)
  else s.stageWrite base v mask

/-- LNT (R444, R467 to R469): the request buffer takes no write while BUSY. -/
def State.writeLnt (s : State) (rq : Requester) (base at' v mask : Nat) : State :=
  if base = LNT_MB_CTL then s.writeMbCtl rq v mask
  else if 0xF01000 ≤ base ∧ base < 0xF02000 then
    (if s.flag LNT_MB_CTL_BUSY then s.secEvent at' rq 2 0x3F else s.plainWrite base v mask)
  else s.fieldWrite rq false base v mask

/-- BCN (R502, R505, R511, R514 to R518). A pulse output whose EN is cleared goes inactive. -/
def State.writeBcn (s : State) (rq : Requester) (base v mask : Nat) : State :=
  match setIdx base 0x1101000 32 64, setIdx base 0x1102000 8 8 with
  | some (n, r), _ => s.writeTrig rq n (r / 8) v mask
  | _, some (k, _) =>
    let s := s.plainWrite base v mask
    if s.flag (BCN_PULSE_EN k) then s
    else { s with out := { s.out with bcnOut := putNth s.out.bcnOut k false }
                  bcn := { s.bcn with pulse := mset (fun _ => 0) s.bcn.pulse k 0 } }
  | _, _ =>
    if base = BCN_STEP_CTL then s.writeStepCtl rq (Nat.land v mask)
    else if base = BCN_RATE then s.writeRate rq (maskedVal (s.reg base).toNat v mask)
    else s.stageWrite base v mask

/-- LNK (R539, R540). -/
def State.writeLnk (s : State) (rq : Requester) (base v mask : Nat) : State :=
  match setIdx base 0x1201000 0x100 4 with
  | some (p, 0) => s.writePort p v mask
  | _ =>
    if base = LNK_CFG then
      (if (List.range 4).any (fun p => s.flag (LNK_PORT_CFG_EN p)) then s else s.plainWrite base v mask)
    else s.fieldWrite rq false base v mask

/-- GW (R544, R546, R547, R554). While a port's EN = 1, only EN and AS_EN of GW_ETH_PORT are written. -/
def State.writeGw (s : State) (base v mask : Nat) : State :=
  match setIdx base 0x1301000 0x100 16, setIdx base 0x1303000 0x100 8, setIdx base 0x1310000 32 1024 with
  | some (n, 0), _, _ => s.writeCan n v mask
  | _, some (p, 0), _ => s.plainWrite base v (if s.flag (GW_ETH_PORT_EN p) then Nat.land mask 0x11 else mask)
  | _, _, some (r, o) => s.writeRoute r (o / 8) v mask
  | _, _, _ => s.stageWrite base v mask

/-- WBR (R560, R566, R568). -/
def State.writeWbr (s : State) (rq : Requester) (base v mask : Nat) : State :=
  match setIdx base 0x1401000 32 64, setIdx base 0x1400100 8 16 with
  | some (w, r), _ => s.writeWin rq w (r / 8) v mask
  | _, some (n, _) => s.writeSem n (maskedVal (s.reg base).toNat v mask)
  | _, _ => s.plainWrite base v mask

/-- DBG (R571, R576 to R581, R585, R586). -/
def State.writeDbg (s : State) (base v mask : Nat) : State :=
  if base = DBG_TRACE_CFG then s.writeTrace v mask
  else if base = DBG_TRACE_BASE then (if s.flag DBG_TRACE_CFG_EN then s else s.plainWrite base v mask)
  else if base = DBG_HANG_CFG then s.writeHang v mask
  else if base = DBG_RING_SEL then s.writeRing v mask
  else s.plainWrite base v mask

/-- PWR (R592, R595, R605 to R608). The image to be loaded is held where AGE_RECORD_LOAD looks for it. -/
def State.writePwr (s : State) (base v mask : Nat) : State :=
  if base = PWR_AGE_CTL then s.writeAge v mask
  else if 0x1601200 ≤ base ∧ base < 0x1601400 then s.setReg base (BitVec.ofNat 64 (maskedVal (s.reg base).toNat v mask))
  else if base = PWR_LIM ∨ base = PWR_CFG then (s.plainWrite base v mask).powClks
  else s.plainWrite base v mask

/-- BOOT (R491, R499). -/
def State.writeBoot (s : State) (base v mask : Nat) : State :=
  if base = BOOT_ACT then s.writeBootAct v mask else s.plainWrite base v mask

/-- The register's own rule, by block (R16). -/
def State.writeBlock (s : State) (rq : Requester) (base at' v mask : Nat) : State :=
  if 0x1800000 ≤ base then s.writeVirt base v mask else
  match base / 0x100000 with
  | 0 => s.writeTop base v mask
  | 1 => s.writeCmd rq base v mask
  | 5 => s.writeSpd base v mask
  | 6 => s.writeDdr base v mask
  | 9 => s.writeDisp rq base v mask
  | 11 => s.writeSch rq base v mask
  | 12 => s.writeQos rq base v mask
  | 13 => s.writeVirt base v mask
  | 14 => s.writeSaf rq base v mask
  | 15 => s.writeLnt rq base at' v mask
  | 17 => s.writeBcn rq base v mask
  | 18 => s.writeLnk rq base v mask
  | 19 => s.writeGw base v mask
  | 20 => s.writeWbr rq base v mask
  | 21 => s.writeDbg base v mask
  | 22 => s.writePwr base v mask
  | 23 => s.writeBoot base v mask
  | _ => s.stageWrite base v mask

/-- A write of the bits under `mask` of a register: none of a counter while its shadow is shown (R571), none of what the
secure world holds (R442, R458). -/
def State.writeReg (s : State) (rq : Requester) (sp : RegSpec) (base at' v mask : Nat) : State :=
  if s.flag DBG_SNAP_CTL_VIEW && sp.cnt then s
  else match s.shut rq base with
    | some (k, i) => s.secEvent at' rq k i
    | none => (s.srwLog rq base at' mask).writeBlock rq base at' v mask

/-- A 32-bit write. -/
def State.writeHalf (s : State) (rq : Requester) (off v : Nat) : Place → State
  | .reg sp base false => s.writeReg rq sp base (if reqFn rq = 0 then off else base) v mask32
  | .reg sp base true => s.writeReg rq sp base (if reqFn rq = 0 then off else base + 4) (v * 2 ^ 32) (mask32 * 2 ^ 32)
  | _ => s

/-- A naturally aligned write (R17). -/
def State.writeAt (s : State) (rq : Requester) (off size v : Nat) : State :=
  let a := s.placeAt rq off
  if size = 4 then
    let s := if a.isNone then s.unmapped else s
    s.writeHalf rq off (v % 2 ^ 32) a
  else
    match a.wide with
    | some (sp, base) => s.writeReg rq sp base (if reqFn rq = 0 then off else base) v mask64
    | Option.none =>
      let b := s.placeAt rq (off + 4)
      let s := if a.isNone || b.isNone then s.unmapped else s
      (s.writeHalf rq off (v % 2 ^ 32) a).writeHalf rq (off + 4) (v / 2 ^ 32) b

/-! ### MSI-X tables (R386, R393)

BAR4 of a function follows its BAR0 in the model's numbering of offsets (log 1): offset 2^32 + o of an access is offset o of
BAR4. -/

def bar4Base : Nat := 0x100000000

/-- The pool entry of entry `i` of a function's table. -/
def State.msixEntry (s : State) (fn i : Nat) : Option Nat :=
  if fn = 0 then (if i < 2048 then some i else none)
  else if i < s.cnt (VIRT_FN_W2_VECCNT fn) then some (s.get (VIRT_FN_W2_VECBASE fn) + i) else none

/-- Does an enabled VF hold a pool entry? -/
def State.msixHeld (s : State) (i : Nat) : Bool :=
  s.pcie.vfEnable && (List.range (s.pcie.numVf + 1)).any (fun f => f != 0 && decide (s.get (VIRT_FN_W2_VECBASE f) ≤ i) &&
    decide (i < s.get (VIRT_FN_W2_VECBASE f) + s.cnt (VIRT_FN_W2_VECCNT f)))

/-- A pending message goes out once its entry is not masked. -/
def State.msixFlush (s : State) (fn i : Nat) : State :=
  if s.pcie.pendingBits.contains (fn, i) then
    { s with pcie := { s.pcie with pendingBits := s.pcie.pendingBits.filter (· != (fn, i)) } }.msix fn i
  else s

/-- A write of BAR4. -/
def State.writeBar4 (s : State) (fn o size v : Nat) : State :=
  match (if o < 0x8000 then s.msixEntry fn (o / 16) else none) with
  | none => s
  | some e =>
    if !accepted o size || (fn == 0 && s.msixHeld e) then s
    else
      let k := 2 * e + o % 16 / 8
      let old := (mget (fun _ => 0) s.pcie.table k).toNat
      let new := if size = 8 then v else putBits old (8 * (o % 8)) 32 v
      let new := if k % 2 = 1 then new % 2 ^ 33 else new
      ({ s with pcie := { s.pcie with table := mset (fun _ => 0) s.pcie.table k (BitVec.ofNat 64 new) } }).msixFlush fn (o / 16)

/-- A read of BAR4: table entries, an entry of an enabled VF as masked with nothing in it, pending bits from 0x8000. -/
def State.readBar4 (s : State) (fn o size : Nat) : Nat :=
  let word (o : Nat) : Nat :=
    if o < 0x8000 then
      match s.msixEntry fn (o / 16) with
      | some e =>
        if fn = 0 && s.msixHeld e then (if o % 16 / 8 = 1 then 2 ^ 32 else 0)
        else (mget (fun _ => 0) s.pcie.table (2 * e + o % 16 / 8)).toNat
      | none => 0
    else (List.range 64).foldl (fun m i => m + b2n (s.pcie.pendingBits.contains (fn, (o - 0x8000) * 8 + i)) * 2 ^ i) 0
  word (o / 8 * 8) / 2 ^ (8 * (o % 8)) % 2 ^ (8 * size)

/-- The doorbell pages of a function, BAR2, follow BAR4 in that numbering (R45, log 1). -/
def bar2Base : Nat := 0x200000000

/-! ### The accesses -/

/-- A read by a requester: the answer stands in `rdata`. -/
def State.bar0Read (s : State) (rq : Requester) (off size : Nat) : State :=
  if !s.reaches rq then s
  else if s.resetting rq then { s with rdata := allOnes size }
  else match rq, decide (bar4Base ≤ off) with
    | .fn n, true =>
      let v := if bar2Base ≤ off then s.bellRead n (off - bar2Base) size else s.readBar4 n (off - bar4Base) (min size 8)
      { s with rdata := BitVec.ofNat 64 v }
    | _, _ =>
      if !accepted off size then { s.bump TOP_ERR_ACCESS_COUNT 1 with rdata := allOnes size }
      else
        let (s, v) := s.readAt rq off size
        { s with rdata := BitVec.ofNat 64 v }

/-- A write by a requester. -/
def State.bar0Write (s : State) (rq : Requester) (off size v : Nat) : State :=
  if !s.reaches rq || s.resetting rq then s
  else match rq, decide (bar4Base ≤ off) with
    | .fn n, true =>
      if bar2Base ≤ off then s.bellWrite n (off - bar2Base) size v else s.writeBar4 n (off - bar4Base) size v
    | _, _ =>
      if !accepted off size then s.bump TOP_ERR_ACCESS_COUNT 1
      else s.writeAt rq off size v

/-- REGISTER_WRITE (R3). -/
def execRegisterWrite (rq : Requester) (off size : Nat) (v : Word64) (s : State) : Out := .next (s.bar0Write rq off size v.toNat)

/-- STAGED_REGISTER_WRITE (R33). -/
def execStagedRegisterWrite (rq : Requester) (off size : Nat) (v : Word64) (s : State) : Out :=
  .next (s.bar0Write rq off size v.toNat)

/-- BAR0_UNMAPPED_ACCESS (R17). -/
def execBar0UnmappedAccess (rq : Requester) (off size : Nat) (write : Bool) (v : Word64) (s : State) : Out :=
  .next (if write then s.bar0Write rq off size v.toNat else s.bar0Read rq off size)

/-- BAR0_REFUSED_ACCESS (R7). -/
def execBar0RefusedAccess (rq : Requester) (off size : Nat) (write : Bool) (s : State) : Out :=
  .next (if write then s.bar0Write rq off size 0 else s.bar0Read rq off size)

/-- LOW_HALF_READ (R8). -/
def execLowHalfRead (rq : Requester) (off : Nat) (s : State) : Out := .next (s.bar0Read rq off 4)

/-- HIGH_HALF_READ (R8). -/
def execHighHalfRead (rq : Requester) (off : Nat) (s : State) : Out := .next (s.bar0Read rq off 4)

/-! ### AtomicOps (R385) -/

/-- The new value of an AtomicOp of `w` bits. -/
def opResult (op : AtomicOp) (w old v cmp : Nat) : Nat :=
  match op with
  | .fetchAdd => (old + v) % 2 ^ w
  | .swap => v % 2 ^ w
  | .cas => if old = cmp % 2 ^ w then v % 2 ^ w else old

/-- Does an access lie wholly in one register with an RW field under it? -/
def State.atomicTarget (s : State) (rq : Requester) (off size : Nat) : Bool :=
  accepted off size && s.reaches rq && !s.resetting rq && (match rq, s.placeAt rq off with
    | .fn _, .reg sp _ hi =>
      (decide (size = 4) || sp.bits == 64) && sp.flds.any (fun f => f.acc == .rw &&
        bitsOf ((2 ^ (8 * size) - 1) * 2 ^ (if hi then 32 else 0)) f.lo f.w != 0)
    | _, _ => false)

/-- PCIE_ATOMIC_OP: one indivisible read and write; the old value is the answer. -/
def execPcieAtomicOp (rq : Requester) (off size : Nat) (op : AtomicOp) (v cmp : Word64) (s : State) : Out :=
  .next (
    if !s.atomicTarget rq off size then { s with out := { s.out with unsupported := s.out.unsupported + 1 } }
    else match s.placeAt rq off with
      | .reg sp base hi =>
        let (s, x) := s.readReg rq sp base
        let old := x / 2 ^ (if hi then 32 else 0) % 2 ^ (8 * size)
        { s.bar0Write rq off size (opResult op (8 * size) old v.toNat cmp.toNat) with rdata := BitVec.ofNat 64 old }
      | _ => s)

/-! ### The debug port (R426, R443, R461, R584) -/

/-- Access to a core breaks its pair's lockstep: the comparator is off until cold reset, DEBUG is raised, and the other pairs
take the pair's blocks. The code of this cause in KPR_TAKE_LOG0 is not stated: a free value (log 7). -/
def State.debugCore (s : State) (p : Nat) : State :=
  if s.pairSt p = 5 then s else
  let s := (s.put (KPR_PAIR_STAT_STATE p) 5).put SAF_STATUS_DEBUG 1
  let s := s.safety 17 36 p false
  let k := Config.freeNat s.fresh % 3
  ((s.freshen 1).takeover p k false).settle

/-- DEBUG_PORT_ACCESS: the scan instructions act on the pins and leave the state unchanged. -/
def execDebugPortAccess (a : DebugAccess) (s : State) : Out :=
  .next (match a with
    | .core p => if s.dead then s else s.debugCore (p % 4)
    | .scan => s
    | .lantern => if s.dead || s.lnt.life == 0 || s.lnt.life == 3 then s else s.tamper .access
    | .bar0Read off size => s.bar0Read .debug off size
    | .bar0Write off size v => s.bar0Write .debug off size v.toNat)

end Sys2Proof.Machine
end

