-- ==== Sys2Proof/Machine/VecInstr.lean ====
section
/-!
DEFINITION. The instructions of the vector cores: a thread issues the instruction that its image holds at its PC
(`State.issue`), with the effect of `vecOp`.
-/

namespace Sys2Proof.Machine

/-- VEC_NOP (R251). -/
def execVecNop (t : Thr) (f : SFmt) (s : State) : Out := .next (s.issue t (.vecNop t f))
/-- VEC_END (R251). -/
def execVecEnd (t : Thr) (f : SFmt) (s : State) : Out := .next (s.issue t (.vecEnd t f))
/-- VEC_BAR (R251). -/
def execVecBar (t : Thr) (f : SFmt) (s : State) : Out := .next (s.issue t (.vecBar t f))
/-- VEC_FENCE (R251). -/
def execVecFence (t : Thr) (f : SFmt) (s : State) : Out := .next (s.issue t (.vecFence t f))
/-- VEC_SREAD (R251). -/
def execVecSread (t : Thr) (f : SFmt) (s : State) : Out := .next (s.issue t (.vecSread t f))
/-- VEC_LANEID (R251). -/
def execVecLaneid (t : Thr) (f : SFmt) (s : State) : Out := .next (s.issue t (.vecLaneid t f))
/-- VEC_TRAP (R251). -/
def execVecTrap (t : Thr) (f : SFmt) (s : State) : Out := .next (s.issue t (.vecTrap t f))
/-- SALU_ADD (R252). -/
def execSaluAdd (t : Thr) (f : AluSrc) (s : State) : Out := .next (s.issue t (.saluAdd t f))
/-- SALU_SUB (R252). -/
def execSaluSub (t : Thr) (f : AluSrc) (s : State) : Out := .next (s.issue t (.saluSub t f))
/-- SALU_MUL (R252). -/
def execSaluMul (t : Thr) (f : AluSrc) (s : State) : Out := .next (s.issue t (.saluMul t f))
/-- SALU_MULH (R252). -/
def execSaluMulh (t : Thr) (f : AluSrc) (s : State) : Out := .next (s.issue t (.saluMulh t f))
/-- SALU_AND (R252). -/
def execSaluAnd (t : Thr) (f : AluSrc) (s : State) : Out := .next (s.issue t (.saluAnd t f))
/-- SALU_OR (R252). -/
def execSaluOr (t : Thr) (f : AluSrc) (s : State) : Out := .next (s.issue t (.saluOr t f))
/-- SALU_XOR (R252). -/
def execSaluXor (t : Thr) (f : AluSrc) (s : State) : Out := .next (s.issue t (.saluXor t f))
/-- SALU_MOV (R252). -/
def execSaluMov (t : Thr) (f : AluSrc) (s : State) : Out := .next (s.issue t (.saluMov t f))
/-- SALU_SHL (R252). -/
def execSaluShl (t : Thr) (f : AluSrc) (s : State) : Out := .next (s.issue t (.saluShl t f))
/-- SALU_SHR (R252). -/
def execSaluShr (t : Thr) (f : AluSrc) (s : State) : Out := .next (s.issue t (.saluShr t f))
/-- SALU_SRA (R252). -/
def execSaluSra (t : Thr) (f : AluSrc) (s : State) : Out := .next (s.issue t (.saluSra t f))
/-- SALU_SLT (R252). -/
def execSaluSlt (t : Thr) (f : AluSrc) (s : State) : Out := .next (s.issue t (.saluSlt t f))
/-- SALU_SLTU (R252). -/
def execSaluSltu (t : Thr) (f : AluSrc) (s : State) : Out := .next (s.issue t (.saluSltu t f))
/-- SALU_MIN (R252). -/
def execSaluMin (t : Thr) (f : AluSrc) (s : State) : Out := .next (s.issue t (.saluMin t f))
/-- SALU_MAX (R252). -/
def execSaluMax (t : Thr) (f : AluSrc) (s : State) : Out := .next (s.issue t (.saluMax t f))
/-- VALU_ADD (R253). -/
def execValuAdd (t : Thr) (f : AluSrc) (s : State) : Out := .next (s.issue t (.valuAdd t f))
/-- VALU_SUB (R253). -/
def execValuSub (t : Thr) (f : AluSrc) (s : State) : Out := .next (s.issue t (.valuSub t f))
/-- VALU_MUL (R253). -/
def execValuMul (t : Thr) (f : AluSrc) (s : State) : Out := .next (s.issue t (.valuMul t f))
/-- VALU_MIN (R253). -/
def execValuMin (t : Thr) (f : AluSrc) (s : State) : Out := .next (s.issue t (.valuMin t f))
/-- VALU_MAX (R253). -/
def execValuMax (t : Thr) (f : AluSrc) (s : State) : Out := .next (s.issue t (.valuMax t f))
/-- VALU_ABS (R253). -/
def execValuAbs (t : Thr) (f : AluSrc) (s : State) : Out := .next (s.issue t (.valuAbs t f))
/-- VALU_NEG (R253). -/
def execValuNeg (t : Thr) (f : AluSrc) (s : State) : Out := .next (s.issue t (.valuNeg t f))
/-- VALU_ADDS (R253). -/
def execValuAdds (t : Thr) (f : AluSrc) (s : State) : Out := .next (s.issue t (.valuAdds t f))
/-- VALU_SUBS (R253). -/
def execValuSubs (t : Thr) (f : AluSrc) (s : State) : Out := .next (s.issue t (.valuSubs t f))
/-- VALU_MULHI (R253). -/
def execValuMulhi (t : Thr) (f : AluSrc) (s : State) : Out := .next (s.issue t (.valuMulhi t f))
/-- VALU_AND (R253). -/
def execValuAnd (t : Thr) (f : AluSrc) (s : State) : Out := .next (s.issue t (.valuAnd t f))
/-- VALU_OR (R253). -/
def execValuOr (t : Thr) (f : AluSrc) (s : State) : Out := .next (s.issue t (.valuOr t f))
/-- VALU_XOR (R253). -/
def execValuXor (t : Thr) (f : AluSrc) (s : State) : Out := .next (s.issue t (.valuXor t f))
/-- VALU_SHL (R253). -/
def execValuShl (t : Thr) (f : AluSrc) (s : State) : Out := .next (s.issue t (.valuShl t f))
/-- VALU_SHR (R253). -/
def execValuShr (t : Thr) (f : AluSrc) (s : State) : Out := .next (s.issue t (.valuShr t f))
/-- VALU_SRA (R253). -/
def execValuSra (t : Thr) (f : AluSrc) (s : State) : Out := .next (s.issue t (.valuSra t f))
/-- VALU_MOV (R253). -/
def execValuMov (t : Thr) (f : AluSrc) (s : State) : Out := .next (s.issue t (.valuMov t f))
/-- VALU_SEL (R253). -/
def execValuSel (t : Thr) (f : RFmt) (s : State) : Out := .next (s.issue t (.valuSel t f))
/-- VALU_RINT (R253). -/
def execValuRint (t : Thr) (f : AluSrc) (s : State) : Out := .next (s.issue t (.valuRint t f))
/-- VFMA_FMA (R254). -/
def execVfmaFma (t : Thr) (f : RFmt) (s : State) : Out := .next (s.issue t (.vfmaFma t f))
/-- VFMA_FMS (R254). -/
def execVfmaFms (t : Thr) (f : RFmt) (s : State) : Out := .next (s.issue t (.vfmaFms t f))
/-- VFMA_FNMA (R254). -/
def execVfmaFnma (t : Thr) (f : RFmt) (s : State) : Out := .next (s.issue t (.vfmaFnma t f))
/-- VFMA_MAD (R254). -/
def execVfmaMad (t : Thr) (f : RFmt) (s : State) : Out := .next (s.issue t (.vfmaMad t f))
/-- VFMA_DP4 (R254). -/
def execVfmaDp4 (t : Thr) (f : RFmt) (s : State) : Out := .next (s.issue t (.vfmaDp4 t f))
/-- VCMP_EQ (R255). -/
def execVcmpEq (t : Thr) (f : RFmt) (s : State) : Out := .next (s.issue t (.vcmpEq t f))
/-- VCMP_NE (R255). -/
def execVcmpNe (t : Thr) (f : RFmt) (s : State) : Out := .next (s.issue t (.vcmpNe t f))
/-- VCMP_LT (R255). -/
def execVcmpLt (t : Thr) (f : RFmt) (s : State) : Out := .next (s.issue t (.vcmpLt t f))
/-- VCMP_LE (R255). -/
def execVcmpLe (t : Thr) (f : RFmt) (s : State) : Out := .next (s.issue t (.vcmpLe t f))
/-- VCMP_GT (R255). -/
def execVcmpGt (t : Thr) (f : RFmt) (s : State) : Out := .next (s.issue t (.vcmpGt t f))
/-- VCMP_GE (R255). -/
def execVcmpGe (t : Thr) (f : RFmt) (s : State) : Out := .next (s.issue t (.vcmpGe t f))
/-- VCMP_LTU (R255). -/
def execVcmpLtu (t : Thr) (f : RFmt) (s : State) : Out := .next (s.issue t (.vcmpLtu t f))
/-- VCMP_GEU (R255). -/
def execVcmpGeu (t : Thr) (f : RFmt) (s : State) : Out := .next (s.issue t (.vcmpGeu t f))
/-- VCMP_ISNAN (R255). -/
def execVcmpIsnan (t : Thr) (f : RFmt) (s : State) : Out := .next (s.issue t (.vcmpIsnan t f))
/-- VCVT_CONVERT (R256). -/
def execVcvtConvert (t : Thr) (f : RFmt) (s : State) : Out := .next (s.issue t (.vcvtConvert t f))
/-- VXL_RADD (R257). -/
def execVxlRadd (t : Thr) (f : RFmt) (s : State) : Out := .next (s.issue t (.vxlRadd t f))
/-- VXL_RMIN (R257). -/
def execVxlRmin (t : Thr) (f : RFmt) (s : State) : Out := .next (s.issue t (.vxlRmin t f))
/-- VXL_RMAX (R257). -/
def execVxlRmax (t : Thr) (f : RFmt) (s : State) : Out := .next (s.issue t (.vxlRmax t f))
/-- VXL_SCAN (R257). -/
def execVxlScan (t : Thr) (f : RFmt) (s : State) : Out := .next (s.issue t (.vxlScan t f))
/-- VXL_PERM (R257). -/
def execVxlPerm (t : Thr) (f : RFmt) (s : State) : Out := .next (s.issue t (.vxlPerm t f))
/-- VXL_BCAST (R257). -/
def execVxlBcast (t : Thr) (f : RFmt) (s : State) : Out := .next (s.issue t (.vxlBcast t f))
/-- VXL_EXTRACT (R257). -/
def execVxlExtract (t : Thr) (f : RFmt) (s : State) : Out := .next (s.issue t (.vxlExtract t f))
/-- VXL_SHIFTUP (R257). -/
def execVxlShiftup (t : Thr) (f : RFmt) (s : State) : Out := .next (s.issue t (.vxlShiftup t f))
/-- VXL_COMPRESS (R257). -/
def execVxlCompress (t : Thr) (f : RFmt) (s : State) : Out := .next (s.issue t (.vxlCompress t f))
/-- VXL_SORT (R257). -/
def execVxlSort (t : Thr) (f : RFmt) (s : State) : Out := .next (s.issue t (.vxlSort t f))
/-- VTRANS_EXP (R258). -/
def execVtransExp (t : Thr) (f : RFmt) (s : State) : Out := .next (s.issue t (.vtransExp t f))
/-- VTRANS_EXP2 (R258). -/
def execVtransExp2 (t : Thr) (f : RFmt) (s : State) : Out := .next (s.issue t (.vtransExp2 t f))
/-- VTRANS_LOG2 (R258). -/
def execVtransLog2 (t : Thr) (f : RFmt) (s : State) : Out := .next (s.issue t (.vtransLog2 t f))
/-- VTRANS_RCP (R258). -/
def execVtransRcp (t : Thr) (f : RFmt) (s : State) : Out := .next (s.issue t (.vtransRcp t f))
/-- VTRANS_RSQRT (R258). -/
def execVtransRsqrt (t : Thr) (f : RFmt) (s : State) : Out := .next (s.issue t (.vtransRsqrt t f))
/-- VTRANS_SQRT (R258). -/
def execVtransSqrt (t : Thr) (f : RFmt) (s : State) : Out := .next (s.issue t (.vtransSqrt t f))
/-- VTRANS_SIN (R258). -/
def execVtransSin (t : Thr) (f : RFmt) (s : State) : Out := .next (s.issue t (.vtransSin t f))
/-- VTRANS_COS (R258). -/
def execVtransCos (t : Thr) (f : RFmt) (s : State) : Out := .next (s.issue t (.vtransCos t f))
/-- VTRANS_TANH (R258). -/
def execVtransTanh (t : Thr) (f : RFmt) (s : State) : Out := .next (s.issue t (.vtransTanh t f))
/-- LD_UNIT (R259). -/
def execLdUnit (t : Thr) (f : MFmt) (s : State) : Out := .next (s.issue t (.ldUnit t f))
/-- LD_STRIDED (R259). -/
def execLdStrided (t : Thr) (f : MFmt) (s : State) : Out := .next (s.issue t (.ldStrided t f))
/-- LD_GATHER (R259). -/
def execLdGather (t : Thr) (f : MFmt) (s : State) : Out := .next (s.issue t (.ldGather t f))
/-- LD_BROADCAST (R259). -/
def execLdBroadcast (t : Thr) (f : MFmt) (s : State) : Out := .next (s.issue t (.ldBroadcast t f))
/-- ST_UNIT (R259). -/
def execStUnit (t : Thr) (f : MFmt) (s : State) : Out := .next (s.issue t (.stUnit t f))
/-- ST_STRIDED (R259). -/
def execStStrided (t : Thr) (f : MFmt) (s : State) : Out := .next (s.issue t (.stStrided t f))
/-- ST_SCATTER (R259). -/
def execStScatter (t : Thr) (f : MFmt) (s : State) : Out := .next (s.issue t (.stScatter t f))
/-- ATOM_ADD (R259). -/
def execAtomAdd (t : Thr) (f : MFmt) (s : State) : Out := .next (s.issue t (.atomAdd t f))
/-- ATOM_MIN (R259). -/
def execAtomMin (t : Thr) (f : MFmt) (s : State) : Out := .next (s.issue t (.atomMin t f))
/-- ATOM_MAX (R259). -/
def execAtomMax (t : Thr) (f : MFmt) (s : State) : Out := .next (s.issue t (.atomMax t f))
/-- ATOM_AND (R259). -/
def execAtomAnd (t : Thr) (f : MFmt) (s : State) : Out := .next (s.issue t (.atomAnd t f))
/-- ATOM_OR (R259). -/
def execAtomOr (t : Thr) (f : MFmt) (s : State) : Out := .next (s.issue t (.atomOr t f))
/-- ATOM_XOR (R259). -/
def execAtomXor (t : Thr) (f : MFmt) (s : State) : Out := .next (s.issue t (.atomXor t f))
/-- ATOM_EXCH (R259). -/
def execAtomExch (t : Thr) (f : MFmt) (s : State) : Out := .next (s.issue t (.atomExch t f))
/-- ATOM_CAS (R259). -/
def execAtomCas (t : Thr) (f : MFmt) (s : State) : Out := .next (s.issue t (.atomCas t f))
/-- TEX_SAMPLE (R303). -/
def execTexSample (t : Thr) (f : TFmt) (s : State) : Out := .next (s.issue t (.texSample t f))
/-- TEX_SAMPLE_L (R303). -/
def execTexSampleL (t : Thr) (f : TFmt) (s : State) : Out := .next (s.issue t (.texSampleL t f))
/-- TEX_FETCH (R303). -/
def execTexFetch (t : Thr) (f : TFmt) (s : State) : Out := .next (s.issue t (.texFetch t f))
/-- BR_JMP (R259). -/
def execBrJmp (t : Thr) (f : BFmt) (s : State) : Out := .next (s.issue t (.brJmp t f))
/-- BR_BEQ (R259). -/
def execBrBeq (t : Thr) (f : BFmt) (s : State) : Out := .next (s.issue t (.brBeq t f))
/-- BR_BNE (R259). -/
def execBrBne (t : Thr) (f : BFmt) (s : State) : Out := .next (s.issue t (.brBne t f))
/-- BR_BLT (R259). -/
def execBrBlt (t : Thr) (f : BFmt) (s : State) : Out := .next (s.issue t (.brBlt t f))
/-- BR_BGE (R259). -/
def execBrBge (t : Thr) (f : BFmt) (s : State) : Out := .next (s.issue t (.brBge t f))
/-- BR_BLTU (R259). -/
def execBrBltu (t : Thr) (f : BFmt) (s : State) : Out := .next (s.issue t (.brBltu t f))
/-- BR_BGEU (R259). -/
def execBrBgeu (t : Thr) (f : BFmt) (s : State) : Out := .next (s.issue t (.brBgeu t f))
/-- BR_BANY (R259). -/
def execBrBany (t : Thr) (f : BFmt) (s : State) : Out := .next (s.issue t (.brBany t f))
/-- BR_BNONE (R259). -/
def execBrBnone (t : Thr) (f : BFmt) (s : State) : Out := .next (s.issue t (.brBnone t f))
/-- BR_BALL (R259). -/
def execBrBall (t : Thr) (f : BFmt) (s : State) : Out := .next (s.issue t (.brBall t f))
/-- BR_JAL (R259). -/
def execBrJal (t : Thr) (f : BFmt) (s : State) : Out := .next (s.issue t (.brJal t f))
/-- BR_JR (R259). -/
def execBrJr (t : Thr) (f : BFmt) (s : State) : Out := .next (s.issue t (.brJr t f))
/-- MASK_MAND (R259). -/
def execMaskMand (t : Thr) (f : RFmt) (s : State) : Out := .next (s.issue t (.maskMand t f))
/-- MASK_MOR (R259). -/
def execMaskMor (t : Thr) (f : RFmt) (s : State) : Out := .next (s.issue t (.maskMor t f))
/-- MASK_MXOR (R259). -/
def execMaskMxor (t : Thr) (f : RFmt) (s : State) : Out := .next (s.issue t (.maskMxor t f))
/-- MASK_MANDN (R259). -/
def execMaskMandn (t : Thr) (f : RFmt) (s : State) : Out := .next (s.issue t (.maskMandn t f))
/-- MASK_MNOT (R259). -/
def execMaskMnot (t : Thr) (f : RFmt) (s : State) : Out := .next (s.issue t (.maskMnot t f))
/-- MASK_MTOS (R259). -/
def execMaskMtos (t : Thr) (f : RFmt) (s : State) : Out := .next (s.issue t (.maskMtos t f))
/-- MASK_STOM (R259). -/
def execMaskStom (t : Thr) (f : RFmt) (s : State) : Out := .next (s.issue t (.maskStom t f))
/-- MASK_MPOP (R259). -/
def execMaskMpop (t : Thr) (f : RFmt) (s : State) : Out := .next (s.issue t (.maskMpop t f))
/-- MASK_MFIRST (R259). -/
def execMaskMfirst (t : Thr) (f : RFmt) (s : State) : Out := .next (s.issue t (.maskMfirst t f))

end Sys2Proof.Machine
end

