-- ==== Sys2Proof/Machine/Dispatch.lean ====
section
/-!
DEFINITION. The effect of a command: one arm per constructor of Instr, each a direct call of its meaning.
-/

namespace Sys2Proof.Machine

def exec (i : Instr) (s : State) : Host.Outcome State Fault Refusal :=
  match i with
  | .registerWrite rq off size v => Sys2Proof.Machine.execRegisterWrite rq off size v s
  | .bar0UnmappedAccess rq off size write v => Sys2Proof.Machine.execBar0UnmappedAccess rq off size write v s
  | .bar0RefusedAccess rq off size write => Sys2Proof.Machine.execBar0RefusedAccess rq off size write s
  | .lowHalfRead rq off => Sys2Proof.Machine.execLowHalfRead rq off s
  | .highHalfRead rq off => Sys2Proof.Machine.execHighHalfRead rq off s
  | .pcieAtomicOp rq off size op v cmp => Sys2Proof.Machine.execPcieAtomicOp rq off size op v cmp s
  | .stagedRegisterWrite rq off size v => Sys2Proof.Machine.execStagedRegisterWrite rq off size v s
  | .arm rq v => Sys2Proof.Machine.execArm rq v s
  | .cancel rq v => Sys2Proof.Machine.execCancel rq v s
  | .islandAck isl => Sys2Proof.Machine.execIslandAck isl s
  | .ackCutoff => Sys2Proof.Machine.execAckCutoff s
  | .peerReady dev gen => Sys2Proof.Machine.execPeerReady dev gen s
  | .commitInstant => Sys2Proof.Machine.execCommitInstant s
  | .queueEnable rq q v => Sys2Proof.Machine.execQueueEnable rq q v s
  | .queueDisable rq q v => Sys2Proof.Machine.execQueueDisable rq q v s
  | .queueResume rq q v => Sys2Proof.Machine.execQueueResume rq q v s
  | .sqTail fn q v => Sys2Proof.Machine.execSqTail fn q v s
  | .cqHead fn q v => Sys2Proof.Machine.execCqHead fn q v s
  | .cqGroupEnable rq g v => Sys2Proof.Machine.execCqGroupEnable rq g v s
  | .cqGroupDisable rq g v => Sys2Proof.Machine.execCqGroupDisable rq g v s
  | .descriptorFetch q ok => Sys2Proof.Machine.execDescriptorFetch q ok s
  | .descriptorDispatch d => Sys2Proof.Machine.execDescriptorDispatch d s
  | .semTimeout d => Sys2Proof.Machine.execSemTimeout d s
  | .engineComplete d isl => Sys2Proof.Machine.execEngineComplete d isl s
  | .coalesceTimeout g => Sys2Proof.Machine.execCoalesceTimeout g s
  | .nop d => Sys2Proof.Machine.execNop d s
  | .semWrite d => Sys2Proof.Machine.execSemWrite d s
  | .timestamp d => Sys2Proof.Machine.execTimestamp d s
  | .arrGemm d => Sys2Proof.Machine.execArrGemm d s
  | .arrAccDrain d => Sys2Proof.Machine.execArrAccDrain d s
  | .arrAccClear d => Sys2Proof.Machine.execArrAccClear d s
  | .winGroup d => Sys2Proof.Machine.execWinGroup d s
  | .winWinoPrep d => Sys2Proof.Machine.execWinWinoPrep d s
  | .attRun d => Sys2Proof.Machine.execAttRun d s
  | .attMerge d => Sys2Proof.Machine.execAttMerge d s
  | .attKvAppend d => Sys2Proof.Machine.execAttKvAppend d s
  | .attTlbInval d => Sys2Proof.Machine.execAttTlbInval d s
  | .dmaCopy d => Sys2Proof.Machine.execDmaCopy d s
  | .dmaFill d => Sys2Proof.Machine.execDmaFill d s
  | .dmaClaim d => Sys2Proof.Machine.execDmaClaim d s
  | .dmaWload d => Sys2Proof.Machine.execDmaWload d s
  | .spdBorrow d => Sys2Proof.Machine.execSpdBorrow d s
  | .spillComplete g => Sys2Proof.Machine.execSpillComplete g s
  | .spdReturn d => Sys2Proof.Machine.execSpdReturn d s
  | .granuleRestore c => Sys2Proof.Machine.execGranuleRestore c s
  | .restoreComplete c => Sys2Proof.Machine.execRestoreComplete c s
  | .patrolScrub u => Sys2Proof.Machine.execPatrolScrub u s
  | .memRgnWord0Write rq n v => Sys2Proof.Machine.execMemRgnWord0Write rq n v s
  | .ddrCommandFault ch k => Sys2Proof.Machine.execDdrCommandFault ch k s
  | .zqCalibration => Sys2Proof.Machine.execZqCalibration s
  | .dramTempPoll t => Sys2Proof.Machine.execDramTempPoll t s
  | .vecLaunch d => Sys2Proof.Machine.execVecLaunch d s
  | .workgroupStart d => Sys2Proof.Machine.execWorkgroupStart d s
  | .vecIcacheInval d => Sys2Proof.Machine.execVecIcacheInval d s
  | .vecLoadReturn t => Sys2Proof.Machine.execVecLoadReturn t s
  | .vecNop t f => Sys2Proof.Machine.execVecNop t f s
  | .vecEnd t f => Sys2Proof.Machine.execVecEnd t f s
  | .vecBar t f => Sys2Proof.Machine.execVecBar t f s
  | .vecFence t f => Sys2Proof.Machine.execVecFence t f s
  | .vecSread t f => Sys2Proof.Machine.execVecSread t f s
  | .vecLaneid t f => Sys2Proof.Machine.execVecLaneid t f s
  | .vecTrap t f => Sys2Proof.Machine.execVecTrap t f s
  | .saluAdd t f => Sys2Proof.Machine.execSaluAdd t f s
  | .saluSub t f => Sys2Proof.Machine.execSaluSub t f s
  | .saluMul t f => Sys2Proof.Machine.execSaluMul t f s
  | .saluMulh t f => Sys2Proof.Machine.execSaluMulh t f s
  | .saluAnd t f => Sys2Proof.Machine.execSaluAnd t f s
  | .saluOr t f => Sys2Proof.Machine.execSaluOr t f s
  | .saluXor t f => Sys2Proof.Machine.execSaluXor t f s
  | .saluMov t f => Sys2Proof.Machine.execSaluMov t f s
  | .saluShl t f => Sys2Proof.Machine.execSaluShl t f s
  | .saluShr t f => Sys2Proof.Machine.execSaluShr t f s
  | .saluSra t f => Sys2Proof.Machine.execSaluSra t f s
  | .saluSlt t f => Sys2Proof.Machine.execSaluSlt t f s
  | .saluSltu t f => Sys2Proof.Machine.execSaluSltu t f s
  | .saluMin t f => Sys2Proof.Machine.execSaluMin t f s
  | .saluMax t f => Sys2Proof.Machine.execSaluMax t f s
  | .valuAdd t f => Sys2Proof.Machine.execValuAdd t f s
  | .valuSub t f => Sys2Proof.Machine.execValuSub t f s
  | .valuMul t f => Sys2Proof.Machine.execValuMul t f s
  | .valuMin t f => Sys2Proof.Machine.execValuMin t f s
  | .valuMax t f => Sys2Proof.Machine.execValuMax t f s
  | .valuAbs t f => Sys2Proof.Machine.execValuAbs t f s
  | .valuNeg t f => Sys2Proof.Machine.execValuNeg t f s
  | .valuAdds t f => Sys2Proof.Machine.execValuAdds t f s
  | .valuSubs t f => Sys2Proof.Machine.execValuSubs t f s
  | .valuMulhi t f => Sys2Proof.Machine.execValuMulhi t f s
  | .valuAnd t f => Sys2Proof.Machine.execValuAnd t f s
  | .valuOr t f => Sys2Proof.Machine.execValuOr t f s
  | .valuXor t f => Sys2Proof.Machine.execValuXor t f s
  | .valuShl t f => Sys2Proof.Machine.execValuShl t f s
  | .valuShr t f => Sys2Proof.Machine.execValuShr t f s
  | .valuSra t f => Sys2Proof.Machine.execValuSra t f s
  | .valuMov t f => Sys2Proof.Machine.execValuMov t f s
  | .valuSel t f => Sys2Proof.Machine.execValuSel t f s
  | .valuRint t f => Sys2Proof.Machine.execValuRint t f s
  | .vfmaFma t f => Sys2Proof.Machine.execVfmaFma t f s
  | .vfmaFms t f => Sys2Proof.Machine.execVfmaFms t f s
  | .vfmaFnma t f => Sys2Proof.Machine.execVfmaFnma t f s
  | .vfmaMad t f => Sys2Proof.Machine.execVfmaMad t f s
  | .vfmaDp4 t f => Sys2Proof.Machine.execVfmaDp4 t f s
  | .vcmpEq t f => Sys2Proof.Machine.execVcmpEq t f s
  | .vcmpNe t f => Sys2Proof.Machine.execVcmpNe t f s
  | .vcmpLt t f => Sys2Proof.Machine.execVcmpLt t f s
  | .vcmpLe t f => Sys2Proof.Machine.execVcmpLe t f s
  | .vcmpGt t f => Sys2Proof.Machine.execVcmpGt t f s
  | .vcmpGe t f => Sys2Proof.Machine.execVcmpGe t f s
  | .vcmpLtu t f => Sys2Proof.Machine.execVcmpLtu t f s
  | .vcmpGeu t f => Sys2Proof.Machine.execVcmpGeu t f s
  | .vcmpIsnan t f => Sys2Proof.Machine.execVcmpIsnan t f s
  | .vcvtConvert t f => Sys2Proof.Machine.execVcvtConvert t f s
  | .vxlRadd t f => Sys2Proof.Machine.execVxlRadd t f s
  | .vxlRmin t f => Sys2Proof.Machine.execVxlRmin t f s
  | .vxlRmax t f => Sys2Proof.Machine.execVxlRmax t f s
  | .vxlScan t f => Sys2Proof.Machine.execVxlScan t f s
  | .vxlPerm t f => Sys2Proof.Machine.execVxlPerm t f s
  | .vxlBcast t f => Sys2Proof.Machine.execVxlBcast t f s
  | .vxlExtract t f => Sys2Proof.Machine.execVxlExtract t f s
  | .vxlShiftup t f => Sys2Proof.Machine.execVxlShiftup t f s
  | .vxlCompress t f => Sys2Proof.Machine.execVxlCompress t f s
  | .vxlSort t f => Sys2Proof.Machine.execVxlSort t f s
  | .vtransExp t f => Sys2Proof.Machine.execVtransExp t f s
  | .vtransExp2 t f => Sys2Proof.Machine.execVtransExp2 t f s
  | .vtransLog2 t f => Sys2Proof.Machine.execVtransLog2 t f s
  | .vtransRcp t f => Sys2Proof.Machine.execVtransRcp t f s
  | .vtransRsqrt t f => Sys2Proof.Machine.execVtransRsqrt t f s
  | .vtransSqrt t f => Sys2Proof.Machine.execVtransSqrt t f s
  | .vtransSin t f => Sys2Proof.Machine.execVtransSin t f s
  | .vtransCos t f => Sys2Proof.Machine.execVtransCos t f s
  | .vtransTanh t f => Sys2Proof.Machine.execVtransTanh t f s
  | .ldUnit t f => Sys2Proof.Machine.execLdUnit t f s
  | .ldStrided t f => Sys2Proof.Machine.execLdStrided t f s
  | .ldGather t f => Sys2Proof.Machine.execLdGather t f s
  | .ldBroadcast t f => Sys2Proof.Machine.execLdBroadcast t f s
  | .stUnit t f => Sys2Proof.Machine.execStUnit t f s
  | .stStrided t f => Sys2Proof.Machine.execStStrided t f s
  | .stScatter t f => Sys2Proof.Machine.execStScatter t f s
  | .atomAdd t f => Sys2Proof.Machine.execAtomAdd t f s
  | .atomMin t f => Sys2Proof.Machine.execAtomMin t f s
  | .atomMax t f => Sys2Proof.Machine.execAtomMax t f s
  | .atomAnd t f => Sys2Proof.Machine.execAtomAnd t f s
  | .atomOr t f => Sys2Proof.Machine.execAtomOr t f s
  | .atomXor t f => Sys2Proof.Machine.execAtomXor t f s
  | .atomExch t f => Sys2Proof.Machine.execAtomExch t f s
  | .atomCas t f => Sys2Proof.Machine.execAtomCas t f s
  | .texSample t f => Sys2Proof.Machine.execTexSample t f s
  | .texSampleL t f => Sys2Proof.Machine.execTexSampleL t f s
  | .texFetch t f => Sys2Proof.Machine.execTexFetch t f s
  | .brJmp t f => Sys2Proof.Machine.execBrJmp t f s
  | .brBeq t f => Sys2Proof.Machine.execBrBeq t f s
  | .brBne t f => Sys2Proof.Machine.execBrBne t f s
  | .brBlt t f => Sys2Proof.Machine.execBrBlt t f s
  | .brBge t f => Sys2Proof.Machine.execBrBge t f s
  | .brBltu t f => Sys2Proof.Machine.execBrBltu t f s
  | .brBgeu t f => Sys2Proof.Machine.execBrBgeu t f s
  | .brBany t f => Sys2Proof.Machine.execBrBany t f s
  | .brBnone t f => Sys2Proof.Machine.execBrBnone t f s
  | .brBall t f => Sys2Proof.Machine.execBrBall t f s
  | .brJal t f => Sys2Proof.Machine.execBrJal t f s
  | .brJr t f => Sys2Proof.Machine.execBrJr t f s
  | .maskMand t f => Sys2Proof.Machine.execMaskMand t f s
  | .maskMor t f => Sys2Proof.Machine.execMaskMor t f s
  | .maskMxor t f => Sys2Proof.Machine.execMaskMxor t f s
  | .maskMandn t f => Sys2Proof.Machine.execMaskMandn t f s
  | .maskMnot t f => Sys2Proof.Machine.execMaskMnot t f s
  | .maskMtos t f => Sys2Proof.Machine.execMaskMtos t f s
  | .maskStom t f => Sys2Proof.Machine.execMaskStom t f s
  | .maskMpop t f => Sys2Proof.Machine.execMaskMpop t f s
  | .maskMfirst t f => Sys2Proof.Machine.execMaskMfirst t f s
  | .gfxPass d => Sys2Proof.Machine.execGfxPass d s
  | .gfxTexSwizzle d => Sys2Proof.Machine.execGfxTexSwizzle d s
  | .dispFlip d => Sys2Proof.Machine.execDispFlip d s
  | .dispSafety d => Sys2Proof.Machine.execDispSafety d s
  | .dispAux d => Sys2Proof.Machine.execDispAux d s
  | .latchInstant n => Sys2Proof.Machine.execLatchInstant n s
  | .vblankStart n => Sys2Proof.Machine.execVblankStart n s
  | .regionCrcCheck n r => Sys2Proof.Machine.execRegionCrcCheck n r s
  | .dispLinkTraining n ok => Sys2Proof.Machine.execDispLinkTraining n ok s
  | .hotPlug n present irq => Sys2Proof.Machine.execHotPlug n present irq s
  | .csiFrameStart n vc frameNo => Sys2Proof.Machine.execCsiFrameStart n vc frameNo s
  | .csiFrameEnd n vc => Sys2Proof.Machine.execCsiFrameEnd n vc s
  | .capNoFrame d => Sys2Proof.Machine.execCapNoFrame d s
  | .capFrame d => Sys2Proof.Machine.execCapFrame d s
  | .capAudio d => Sys2Proof.Machine.execCapAudio d s
  | .tdmFrame p periodNs slots => Sys2Proof.Machine.execTdmFrame p periodNs slots s
  | .contextMoor rq c v => Sys2Proof.Machine.execContextMoor rq c v s
  | .contextRelease rq c v => Sys2Proof.Machine.execContextRelease rq c v s
  | .releaseDone c => Sys2Proof.Machine.execReleaseDone c s
  | .windowOpen e w => Sys2Proof.Machine.execWindowOpen e w s
  | .displayWindowOpen n => Sys2Proof.Machine.execDisplayWindowOpen n s
  | .engineStopDone e => Sys2Proof.Machine.execEngineStopDone e s
  | .deadlineCheck j => Sys2Proof.Machine.execDeadlineCheck j s
  | .deferredReceiveLand c ok => Sys2Proof.Machine.execDeferredReceiveLand c ok s
  | .regulationWindow => Sys2Proof.Machine.execRegulationWindow s
  | .vfEnable num => Sys2Proof.Machine.execVfEnable num s
  | .fnHb fn v => Sys2Proof.Machine.execFnHb fn v s
  | .heartbeatExpiry fn => Sys2Proof.Machine.execHeartbeatExpiry fn s
  | .quiesce rq fn => Sys2Proof.Machine.execQuiesce rq fn s
  | .vfResume rq fn => Sys2Proof.Machine.execVfResume rq fn s
  | .flr fn => Sys2Proof.Machine.execFlr fn s
  | .pfFlr => Sys2Proof.Machine.execPfFlr s
  | .flrDrainTimeout fn => Sys2Proof.Machine.execFlrDrainTimeout fn s
  | .flrComplete fn => Sys2Proof.Machine.execFlrComplete fn s
  | .dirtySwap rq fn => Sys2Proof.Machine.execDirtySwap rq fn s
  | .swapDone fn => Sys2Proof.Machine.execSwapDone fn s
  | .fttiWindowStart => Sys2Proof.Machine.execFttiWindowStart s
  | .goldenTestEnd e pass => Sys2Proof.Machine.execGoldenTestEnd e pass s
  | .goldenSlotEnd e => Sys2Proof.Machine.execGoldenSlotEnd e s
  | .safetyWatchdogExpiry => Sys2Proof.Machine.execSafetyWatchdogExpiry s
  | .lockstepMismatch p => Sys2Proof.Machine.execLockstepMismatch p s
  | .sstFastRead => Sys2Proof.Machine.execSstFastRead s
  | .sstWrite off bytes => Sys2Proof.Machine.execSstWrite off bytes s
  | .safEvtClear rq v => Sys2Proof.Machine.execSafEvtClear rq v s
  | .safGoldenRun d => Sys2Proof.Machine.execSafGoldenRun d s
  | .safInject d => Sys2Proof.Machine.execSafInject d s
  | .mailboxGo rq v => Sys2Proof.Machine.execMailboxGo rq v s
  | .getInfo => Sys2Proof.Machine.execGetInfo s
  | .getCert => Sys2Proof.Machine.execGetCert s
  | .daymark => Sys2Proof.Machine.execDaymark s
  | .secPart => Sys2Proof.Machine.execSecPart s
  | .secRgn => Sys2Proof.Machine.execSecRgn s
  | .secQueue => Sys2Proof.Machine.execSecQueue s
  | .secMoor => Sys2Proof.Machine.execSecMoor s
  | .secRelease => Sys2Proof.Machine.execSecRelease s
  | .secIslCtl => Sys2Proof.Machine.execSecIslCtl s
  | .provision => Sys2Proof.Machine.execProvision s
  | .setProduction => Sys2Proof.Machine.execSetProduction s
  | .verifySlot slot => Sys2Proof.Machine.execVerifySlot slot s
  | .preload slot => Sys2Proof.Machine.execPreload slot s
  | .storeOpen slot len => Sys2Proof.Machine.execStoreOpen slot len s
  | .storeData data => Sys2Proof.Machine.execStoreData data s
  | .storeClose => Sys2Proof.Machine.execStoreClose s
  | .svcKey hostNonce => Sys2Proof.Machine.execSvcKey hostNonce s
  | .svcOpen frame => Sys2Proof.Machine.execSvcOpen frame s
  | .svcSeal frame => Sys2Proof.Machine.execSvcSeal frame s
  | .islPower isl kind arg => Sys2Proof.Machine.execIslPower isl kind arg s
  | .rgnRelocate n base disable => Sys2Proof.Machine.execRgnRelocate n base disable s
  | .tamperAlarm src => Sys2Proof.Machine.execTamperAlarm src s
  | .secureWatchdogExpiry => Sys2Proof.Machine.execSecureWatchdogExpiry s
  | .pairTrap p => Sys2Proof.Machine.execPairTrap p s
  | .pairHeartbeatTimeout p => Sys2Proof.Machine.execPairHeartbeatTimeout p s
  | .pairOnline p ok => Sys2Proof.Machine.execPairOnline p ok s
  | .blockMove b p => Sys2Proof.Machine.execBlockMove b p s
  | .hello f => Sys2Proof.Machine.execHello f s
  | .setBaud f => Sys2Proof.Machine.execSetBaud f s
  | .svcStatus f => Sys2Proof.Machine.execSvcStatus f s
  | .deltaBegin f => Sys2Proof.Machine.execDeltaBegin f s
  | .deltaData f => Sys2Proof.Machine.execDeltaData f s
  | .deltaEnd f => Sys2Proof.Machine.execDeltaEnd f s
  | .activate f => Sys2Proof.Machine.execActivate f s
  | .recoverBegin f => Sys2Proof.Machine.execRecoverBegin f s
  | .recoverData f => Sys2Proof.Machine.execRecoverData f s
  | .recoverEnd f => Sys2Proof.Machine.execRecoverEnd f s
  | .svcByteGap => Sys2Proof.Machine.execSvcByteGap s
  | .svcIdleTimeout => Sys2Proof.Machine.execSvcIdleTimeout s
  | .recoveryReset => Sys2Proof.Machine.execRecoveryReset s
  | .bootActStage rq v => Sys2Proof.Machine.execBootActStage rq v s
  | .preloadDone ok => Sys2Proof.Machine.execPreloadDone ok s
  | .actNow rq v => Sys2Proof.Machine.execActNow rq v s
  | .activationReady => Sys2Proof.Machine.execActivationReady s
  | .activationRollback => Sys2Proof.Machine.execActivationRollback s
  | .bcnStep rq v => Sys2Proof.Machine.execBcnStep rq v s
  | .bcnForcedStep rq v => Sys2Proof.Machine.execBcnForcedStep rq v s
  | .bcnRateWrite rq v => Sys2Proof.Machine.execBcnRateWrite rq v s
  | .gptpSync m gmId => Sys2Proof.Machine.execGptpSync m gmId s
  | .peerTimeExchange peer peerNs => Sys2Proof.Machine.execPeerTimeExchange peer peerNs s
  | .masterLoss => Sys2Proof.Machine.execMasterLoss s
  | .comparatorFire n => Sys2Proof.Machine.execComparatorFire n s
  | .comparatorWrite rq n word v => Sys2Proof.Machine.execComparatorWrite rq n word v s
  | .pulseEnd k => Sys2Proof.Machine.execPulseEnd k s
  | .portEnable rq p v => Sys2Proof.Machine.execPortEnable rq p v s
  | .trainingDone p neighId neighPort lanes => Sys2Proof.Machine.execTrainingDone p neighId neighPort lanes s
  | .rdReq p k => Sys2Proof.Machine.execRdReq p k s
  | .wrReq p k data cmps => Sys2Proof.Machine.execWrReq p k data cmps s
  | .rdRsp p k data cmps => Sys2Proof.Machine.execRdRsp p k data cmps s
  | .wrAck p k => Sys2Proof.Machine.execWrAck p k s
  | .semReq p src tag sem amount => Sys2Proof.Machine.execSemReq p src tag sem amount s
  | .semAck p k => Sys2Proof.Machine.execSemAck p k s
  | .echoReq p src tag tSend => Sys2Proof.Machine.execEchoReq p src tag tSend s
  | .echoRsp p src tag => Sys2Proof.Machine.execEchoRsp p src tag s
  | .nak p ack => Sys2Proof.Machine.execNak p ack s
  | .lnkTime p src stamp => Sys2Proof.Machine.execLnkTime p src stamp s
  | .flitReceiveError p crcBad => Sys2Proof.Machine.execFlitReceiveError p crcBad s
  | .flitForward p k => Sys2Proof.Machine.execFlitForward p k s
  | .peerTimeout tag => Sys2Proof.Machine.execPeerTimeout tag s
  | .lnkSemSignal d => Sys2Proof.Machine.execLnkSemSignal d s
  | .lnkEcho d => Sys2Proof.Machine.execLnkEcho d s
  | .canFrameReceived n f => Sys2Proof.Machine.execCanFrameReceived n f s
  | .canFrameSent n => Sys2Proof.Machine.execCanFrameSent n s
  | .canBusOff n => Sys2Proof.Machine.execCanBusOff n s
  | .busOffRecovery n => Sys2Proof.Machine.execBusOffRecovery n s
  | .ethFrameReceived p f => Sys2Proof.Machine.execEthFrameReceived p f s
  | .gateChange p => Sys2Proof.Machine.execGateChange p s
  | .streamGateChange g => Sys2Proof.Machine.execStreamGateChange g s
  | .acfTalkerPeriod st => Sys2Proof.Machine.execAcfTalkerPeriod st s
  | .acfFrameReceived st f => Sys2Proof.Machine.execAcfFrameReceived st f s
  | .acfPresentation st => Sys2Proof.Machine.execAcfPresentation st s
  | .routeInstant r => Sys2Proof.Machine.execRouteInstant r s
  | .gwTx d => Sys2Proof.Machine.execGwTx d s
  | .gwRx d => Sys2Proof.Machine.execGwRx d s
  | .gwRxWaitExpiry d => Sys2Proof.Machine.execGwRxWaitExpiry d s
  | .canTxTimeout d => Sys2Proof.Machine.execCanTxTimeout d s
  | .gwSigRead d => Sys2Proof.Machine.execGwSigRead d s
  | .wbrAtomic d => Sys2Proof.Machine.execWbrAtomic d s
  | .wbrWinWrite rq w word v => Sys2Proof.Machine.execWbrWinWrite rq w word v s
  | .wbrSemWrite rq n v => Sys2Proof.Machine.execWbrSemWrite rq n v s
  | .trailingReadDone cpl => Sys2Proof.Machine.execTrailingReadDone cpl s
  | .cplTimeout d addr => Sys2Proof.Machine.execCplTimeout d addr s
  | .dbgSnapshot d => Sys2Proof.Machine.execDbgSnapshot d s
  | .snapshotInstant => Sys2Proof.Machine.execSnapshotInstant s
  | .dbgMark d => Sys2Proof.Machine.execDbgMark d s
  | .dbgDump d => Sys2Proof.Machine.execDbgDump d s
  | .dumpNow rq v => Sys2Proof.Machine.execDumpNow rq v s
  | .dumpWritten => Sys2Proof.Machine.execDumpWritten s
  | .ringLatch rq v => Sys2Proof.Machine.execRingLatch rq v s
  | .traceEnable rq v => Sys2Proof.Machine.execTraceEnable rq v s
  | .hangCheck => Sys2Proof.Machine.execHangCheck s
  | .powerStateTick => Sys2Proof.Machine.execPowerStateTick s
  | .islandWakeDone isl => Sys2Proof.Machine.execIslandWakeDone isl s
  | .ltrIdle => Sys2Proof.Machine.execLtrIdle s
  | .powerSample mw => Sys2Proof.Machine.execPowerSample mw s
  | .limiterUpdate mw => Sys2Proof.Machine.execLimiterUpdate mw s
  | .droopStart isl => Sys2Proof.Machine.execDroopStart isl s
  | .droopEnd isl => Sys2Proof.Machine.execDroopEnd isl s
  | .thermalSample isl temp => Sys2Proof.Machine.execThermalSample isl temp s
  | .thermalCapStep isl => Sys2Proof.Machine.execThermalCapStep isl s
  | .coolantLoss => Sys2Proof.Machine.execCoolantLoss s
  | .ageingSample ppm => Sys2Proof.Machine.execAgeingSample ppm s
  | .ageRecordLoad rq v => Sys2Proof.Machine.execAgeRecordLoad rq v s
  | .powerOn mv => Sys2Proof.Machine.execPowerOn mv s
  | .vinFault mv => Sys2Proof.Machine.execVinFault mv s
  | .vinLoss => Sys2Proof.Machine.execVinLoss s
  | .resetNLow => Sys2Proof.Machine.execResetNLow s
  | .coldResetRelease straps => Sys2Proof.Machine.execColdResetRelease straps s
  | .pcieReset cause => Sys2Proof.Machine.execPcieReset cause s
  | .sysclkLoss => Sys2Proof.Machine.execSysclkLoss s
  | .frameStart n => Sys2Proof.Machine.execFrameStart n s
  | .scanOutLine n => Sys2Proof.Machine.execScanOutLine n s
  | .csiPacket n p => Sys2Proof.Machine.execCsiPacket n p s
  | .idleFlit p ack credits => Sys2Proof.Machine.execIdleFlit p ack credits s
  | .launchTime d n => Sys2Proof.Machine.execLaunchTime d n s
  | .ethFrameSent d n => Sys2Proof.Machine.execEthFrameSent d n s
  | .auxReply n r => Sys2Proof.Machine.execAuxReply n r s
  | .wbrSemWaitExpiry d => Sys2Proof.Machine.execWbrSemWaitExpiry d s
  | .debugPortAccess a => Sys2Proof.Machine.execDebugPortAccess a s
  | .perstNDeassert => Sys2Proof.Machine.execPerstNDeassert s
  | .sysclkReturn => Sys2Proof.Machine.execSysclkReturn s

end Sys2Proof.Machine
end

