-- ==== Sys2Proof/Machine/VecEncode.lean ====
section
/-!
DEFINITION. Instructions of the vector cores as words: class and function in bits [11:0], the fields of the format above
(R248, R250 to R259).
-/

namespace Sys2Proof

open Sys2Proof.Machine

/-! ### Fields of the formats (R248) -/

/-- MASK and MNEG. -/
def vecMaskBits (mask : Nat) (mneg : Bool) : Nat := mask * 2 ^ 12 + b2n mneg * 2 ^ 15

def RFmt.bits (f : RFmt) : Nat :=
  vecMaskBits f.mask f.mneg + f.d * 2 ^ 16 + f.a * 2 ^ 22 + f.b * 2 ^ 28 + f.c * 2 ^ 34 + f.ty * 2 ^ 40 + b2n f.sA * 2 ^ 44 +
    b2n f.sB * 2 ^ 45 + b2n f.sC * 2 ^ 46 + b2n f.bU * 2 ^ 47 + f.cvt * 2 ^ 48

def IFmt.bits (f : IFmt) : Nat :=
  vecMaskBits f.mask f.mneg + f.d * 2 ^ 16 + f.a * 2 ^ 22 + f.ty * 2 ^ 28 + f.imm.toNat * 2 ^ 32

def AluSrc.bits : AluSrc → Nat
  | .r f => RFmt.bits f
  | .i f => IFmt.bits f

def MFmt.bits (f : MFmt) : Nat :=
  vecMaskBits f.mask f.mneg + f.d * 2 ^ 16 + f.sb * 2 ^ 22 + f.vx * 2 ^ 28 + f.ty * 2 ^ 34 + f.space * 2 ^ 38 +
    f.off.toNat * 2 ^ 40

def BFmt.bits (f : BFmt) : Nat := f.sa * 2 ^ 16 + f.sb * 2 ^ 22 + f.off.toNat * 2 ^ 32
def SFmt.bits (f : SFmt) : Nat := f.d * 2 ^ 16 + f.a * 2 ^ 22 + f.imm.toNat * 2 ^ 32
def TFmt.bits (f : TFmt) : Nat := vecMaskBits f.mask f.mneg + f.d * 2 ^ 16 + f.u * 2 ^ 22 + f.tex * 2 ^ 28

/-- Class of a register form, or the immediate class after it (R250). -/
def AluSrc.cls (c : Nat) : AluSrc → Nat
  | .r _ => c
  | .i _ => c + 1

end Sys2Proof

namespace Sys2Proof.Machine

def vecWord (cls fn bits : Nat) : Nat := cls + fn * 2 ^ 6 + bits

/-- The thread and the word of an instruction; none for the other commands. -/
def vecEncode : Instr → Option (Thr × Nat)
  | .vecNop t f => some (t, vecWord 0 0 f.bits)
  | .vecEnd t f => some (t, vecWord 0 1 f.bits)
  | .vecBar t f => some (t, vecWord 0 2 f.bits)
  | .vecFence t f => some (t, vecWord 0 3 f.bits)
  | .vecSread t f => some (t, vecWord 0 4 f.bits)
  | .vecLaneid t f => some (t, vecWord 0 5 f.bits)
  | .vecTrap t f => some (t, vecWord 0 6 f.bits)
  | .saluAdd t f => some (t, vecWord (f.cls 1) 0 f.bits)
  | .saluSub t f => some (t, vecWord (f.cls 1) 1 f.bits)
  | .saluMul t f => some (t, vecWord (f.cls 1) 2 f.bits)
  | .saluMulh t f => some (t, vecWord (f.cls 1) 3 f.bits)
  | .saluAnd t f => some (t, vecWord (f.cls 1) 4 f.bits)
  | .saluOr t f => some (t, vecWord (f.cls 1) 5 f.bits)
  | .saluXor t f => some (t, vecWord (f.cls 1) 6 f.bits)
  | .saluMov t f => some (t, vecWord (f.cls 1) 7 f.bits)
  | .saluShl t f => some (t, vecWord (f.cls 1) 8 f.bits)
  | .saluShr t f => some (t, vecWord (f.cls 1) 9 f.bits)
  | .saluSra t f => some (t, vecWord (f.cls 1) 10 f.bits)
  | .saluSlt t f => some (t, vecWord (f.cls 1) 11 f.bits)
  | .saluSltu t f => some (t, vecWord (f.cls 1) 12 f.bits)
  | .saluMin t f => some (t, vecWord (f.cls 1) 13 f.bits)
  | .saluMax t f => some (t, vecWord (f.cls 1) 14 f.bits)
  | .valuAdd t f => some (t, vecWord (f.cls 3) 0 f.bits)
  | .valuSub t f => some (t, vecWord (f.cls 3) 1 f.bits)
  | .valuMul t f => some (t, vecWord (f.cls 3) 2 f.bits)
  | .valuMin t f => some (t, vecWord (f.cls 3) 3 f.bits)
  | .valuMax t f => some (t, vecWord (f.cls 3) 4 f.bits)
  | .valuAbs t f => some (t, vecWord (f.cls 3) 5 f.bits)
  | .valuNeg t f => some (t, vecWord (f.cls 3) 6 f.bits)
  | .valuAdds t f => some (t, vecWord (f.cls 3) 7 f.bits)
  | .valuSubs t f => some (t, vecWord (f.cls 3) 8 f.bits)
  | .valuMulhi t f => some (t, vecWord (f.cls 3) 9 f.bits)
  | .valuAnd t f => some (t, vecWord (f.cls 3) 10 f.bits)
  | .valuOr t f => some (t, vecWord (f.cls 3) 11 f.bits)
  | .valuXor t f => some (t, vecWord (f.cls 3) 12 f.bits)
  | .valuShl t f => some (t, vecWord (f.cls 3) 13 f.bits)
  | .valuShr t f => some (t, vecWord (f.cls 3) 14 f.bits)
  | .valuSra t f => some (t, vecWord (f.cls 3) 15 f.bits)
  | .valuMov t f => some (t, vecWord (f.cls 3) 16 f.bits)
  | .valuSel t f => some (t, vecWord 3 17 f.bits)
  | .valuRint t f => some (t, vecWord (f.cls 3) 18 f.bits)
  | .vfmaFma t f => some (t, vecWord 5 0 f.bits)
  | .vfmaFms t f => some (t, vecWord 5 1 f.bits)
  | .vfmaFnma t f => some (t, vecWord 5 2 f.bits)
  | .vfmaMad t f => some (t, vecWord 5 3 f.bits)
  | .vfmaDp4 t f => some (t, vecWord 5 4 f.bits)
  | .vcmpEq t f => some (t, vecWord 6 0 f.bits)
  | .vcmpNe t f => some (t, vecWord 6 1 f.bits)
  | .vcmpLt t f => some (t, vecWord 6 2 f.bits)
  | .vcmpLe t f => some (t, vecWord 6 3 f.bits)
  | .vcmpGt t f => some (t, vecWord 6 4 f.bits)
  | .vcmpGe t f => some (t, vecWord 6 5 f.bits)
  | .vcmpLtu t f => some (t, vecWord 6 6 f.bits)
  | .vcmpGeu t f => some (t, vecWord 6 7 f.bits)
  | .vcmpIsnan t f => some (t, vecWord 6 8 f.bits)
  | .vcvtConvert t f => some (t, vecWord 7 0 f.bits)
  | .vxlRadd t f => some (t, vecWord 8 0 f.bits)
  | .vxlRmin t f => some (t, vecWord 8 1 f.bits)
  | .vxlRmax t f => some (t, vecWord 8 2 f.bits)
  | .vxlScan t f => some (t, vecWord 8 3 f.bits)
  | .vxlPerm t f => some (t, vecWord 8 4 f.bits)
  | .vxlBcast t f => some (t, vecWord 8 5 f.bits)
  | .vxlExtract t f => some (t, vecWord 8 6 f.bits)
  | .vxlShiftup t f => some (t, vecWord 8 7 f.bits)
  | .vxlCompress t f => some (t, vecWord 8 8 f.bits)
  | .vxlSort t f => some (t, vecWord 8 9 f.bits)
  | .vtransExp t f => some (t, vecWord 9 0 f.bits)
  | .vtransExp2 t f => some (t, vecWord 9 1 f.bits)
  | .vtransLog2 t f => some (t, vecWord 9 2 f.bits)
  | .vtransRcp t f => some (t, vecWord 9 3 f.bits)
  | .vtransRsqrt t f => some (t, vecWord 9 4 f.bits)
  | .vtransSqrt t f => some (t, vecWord 9 5 f.bits)
  | .vtransSin t f => some (t, vecWord 9 6 f.bits)
  | .vtransCos t f => some (t, vecWord 9 7 f.bits)
  | .vtransTanh t f => some (t, vecWord 9 8 f.bits)
  | .ldUnit t f => some (t, vecWord 10 (0 + 32 * b2n f.pack) f.bits)
  | .ldStrided t f => some (t, vecWord 10 (1 + 32 * b2n f.pack) f.bits)
  | .ldGather t f => some (t, vecWord 10 (2 + 32 * b2n f.pack) f.bits)
  | .ldBroadcast t f => some (t, vecWord 10 (3 + 32 * b2n f.pack) f.bits)
  | .stUnit t f => some (t, vecWord 11 (0 + 32 * b2n f.pack) f.bits)
  | .stStrided t f => some (t, vecWord 11 (1 + 32 * b2n f.pack) f.bits)
  | .stScatter t f => some (t, vecWord 11 (2 + 32 * b2n f.pack) f.bits)
  | .atomAdd t f => some (t, vecWord 12 0 f.bits)
  | .atomMin t f => some (t, vecWord 12 1 f.bits)
  | .atomMax t f => some (t, vecWord 12 2 f.bits)
  | .atomAnd t f => some (t, vecWord 12 3 f.bits)
  | .atomOr t f => some (t, vecWord 12 4 f.bits)
  | .atomXor t f => some (t, vecWord 12 5 f.bits)
  | .atomExch t f => some (t, vecWord 12 6 f.bits)
  | .atomCas t f => some (t, vecWord 12 7 f.bits)
  | .texSample t f => some (t, vecWord 13 0 f.bits)
  | .texSampleL t f => some (t, vecWord 13 1 f.bits)
  | .texFetch t f => some (t, vecWord 13 2 f.bits)
  | .brJmp t f => some (t, vecWord 14 0 f.bits)
  | .brBeq t f => some (t, vecWord 14 1 f.bits)
  | .brBne t f => some (t, vecWord 14 2 f.bits)
  | .brBlt t f => some (t, vecWord 14 3 f.bits)
  | .brBge t f => some (t, vecWord 14 4 f.bits)
  | .brBltu t f => some (t, vecWord 14 5 f.bits)
  | .brBgeu t f => some (t, vecWord 14 6 f.bits)
  | .brBany t f => some (t, vecWord 14 7 f.bits)
  | .brBnone t f => some (t, vecWord 14 8 f.bits)
  | .brBall t f => some (t, vecWord 14 9 f.bits)
  | .brJal t f => some (t, vecWord 14 10 f.bits)
  | .brJr t f => some (t, vecWord 14 11 f.bits)
  | .maskMand t f => some (t, vecWord 15 0 f.bits)
  | .maskMor t f => some (t, vecWord 15 1 f.bits)
  | .maskMxor t f => some (t, vecWord 15 2 f.bits)
  | .maskMandn t f => some (t, vecWord 15 3 f.bits)
  | .maskMnot t f => some (t, vecWord 15 4 f.bits)
  | .maskMtos t f => some (t, vecWord 15 5 f.bits)
  | .maskStom t f => some (t, vecWord 15 6 f.bits)
  | .maskMpop t f => some (t, vecWord 15 7 f.bits)
  | .maskMfirst t f => some (t, vecWord 15 8 f.bits)
  | _ => none

end Sys2Proof.Machine
end

