-- ==== Sys2Proof/Safety.lean ====
section
/-!
DEFINITION. What counts as a safe run: a step that answers a next state; and the terms in which the statements speak of what
a command leaves alone.
-/

namespace Sys2Proof.Machine

/-- The outcome is a next state. -/
def isNext (o : Host.Outcome State Fault Refusal) : Bool :=
  match o with
  | .next _ => true
  | .fault _ => false
  | .refused _ => false

/-- The state a step answers, where it answers one. -/
def nextOf (o : Host.Outcome State Fault Refusal) : Option State :=
  match o with
  | .next s => some s
  | .fault _ => none
  | .refused _ => none

/-- The state without its registers, snapshots, trace, messages and pins, accounts of time and energy, and free-value
counter: every memory, tag, descriptor, queue, cache, thread and unit stays in it. -/
def State.still (s : State) : State :=
  { s with regs := [], shadow := [], fresh := 0, out := State.reset.out, pcie := State.reset.pcie, trace := State.reset.trace,
           pwr := State.reset.pwr }

/-- Only the registers at the offsets of `L` differ. -/
def OnlyRegs (L : List Nat) (s t : State) : Prop :=
  t = { s with regs := t.regs } ∧ ∀ b, b ∉ L → t.reg b = s.reg b

/-- A register write with its own command by this requester reaches the register and is not shut out. -/
def State.opens (s : State) (rq : Requester) (off : Nat) : Bool :=
  s.reaches rq && (match rq with
    | .fn n => n == 0
    | _ => true) && s.answers off && (s.shut rq off).isNone

/-- A register write that a function's view also shows reaches its block and is not turned away. -/
def State.opensView (s : State) (rq : Requester) (off : Nat) : Bool :=
  s.reaches rq && s.answers off && !s.resetting rq

/-- The function of a requester; the device's own requesters count as the PF. -/
def rqFn : Requester → Nat
  | .fn n => n
  | _ => 0

/-- The requester is a virtual function. -/
def isVf (rq : Requester) : Bool := rqFn rq != 0

/-- The register at an offset has no field that only the secure world writes. -/
def openFields (off : Nat) : Bool := (fieldsAt off).all (fun f => f.acc != .srw)

/-- Thread `t` issues instruction `i`, held by its image at its PC: the thread with the registers it reads corrected, its
workgroup, where it runs, and the state after the fetch and the counts. None where the thread cannot issue or must wait, where the
image holds another word, where a register it reads has more bits in error than its code corrects, and where the budget is used
up. -/
def State.issues (s : State) (t : Thr) (i : Instr) : Option (ThrSt × WgSt × VEnv × State) :=
  match (if s.clkOff.isEmpty then s.issuing t else none) with
  | none => none
  | some (x, w, e) =>
    match (eFetch e x).run.run s with
    | (.ok word, s1) =>
      if vecDecode x.pc e.k.code word t = some i ∧ x.ready i = true ∧
          (x.requests i = 0 ∨ s1.coreReqs t.core + x.requests i ≤ 64) ∧ (e.k.budget = 0 ∨ w.issued + 1 ≤ e.k.budget * 1024) then
        match (eWords e.core x.err (vecReads i)).run.run ((s1.vbump (e.core / 8) (VEC_CNT_ISSUE_COUNT (e.core / 8)) 1).vbump
            (e.core / 8) (VEC_CNT_LANES_COUNT (e.core / 8)) (x.laneCount i)) with
        | (.ok m, s2) => some ({ x with err := m }, w, e, s2)
        | _ => none
      else none
    | (.error _, _) => none

/-- The state after an instruction leaves its thread as `x` and its workgroup as `w`, which has issued one more. -/
def State.afterIssue (s : State) (t : Thr) (x : ThrSt) (w : WgSt) : State :=
  ((s.setThread t.core t.slot (some x)).setWg { w with issued := w.issued + 1 }).settleWg { w with issued := w.issued + 1 }

/-- Past an instruction. -/
def ThrSt.past (x : ThrSt) : ThrSt := { x with pc := x.pc + 1 }

end Sys2Proof.Machine
end

