-- ==== Sys2Proof/WellFormed.lean ====
section
/-!
DEFINITION. Well-formed commands: every number names a unit, a register set or a field value that the hardware has.
-/

namespace Sys2Proof

/-- A function number (R385). -/
def Requester.wf : Requester → Bool
  | .fn n => decide (n < 32)
  | .debug | .keeper | .lantern => true

/-- A thread slot (R240). -/
def Thr.wf (t : Thr) : Bool := decide (t.core < 32) && decide (t.slot < 8)

/-- Field widths of the instruction formats (R248). -/
def RFmt.wf (f : RFmt) : Bool :=
  decide (f.mask < 8) && decide (f.d < 64) && decide (f.a < 64) && decide (f.b < 64) && decide (f.c < 64) &&
    decide (f.ty < 16) && decide (f.cvt < 256)
def IFmt.wf (f : IFmt) : Bool := decide (f.mask < 8) && decide (f.d < 64) && decide (f.a < 64) && decide (f.ty < 16)
def AluSrc.wf : AluSrc → Bool
  | .r f => f.wf
  | .i f => f.wf
def MFmt.wf (f : MFmt) : Bool :=
  decide (f.mask < 8) && decide (f.d < 64) && decide (f.sb < 64) && decide (f.vx < 64) && decide (f.ty < 16) &&
    decide (f.space < 4)
def BFmt.wf (f : BFmt) : Bool := decide (f.sa < 64) && decide (f.sb < 64)
def SFmt.wf (f : SFmt) : Bool := decide (f.d < 64) && decide (f.a < 64)
def TFmt.wf (f : TFmt) : Bool := decide (f.mask < 8) && decide (f.d < 64) && decide (f.u < 64) && decide (f.tex < 64)

/-- A patrolled memory (R219). -/
def ScrubUnit.wf : ScrubUnit → Bool
  | .spd => true
  | .ddr ch => decide (ch < 8)

/-- Header fields of link packets (R528). -/
def LnkReq.wf (k : LnkReq) : Bool :=
  decide (k.src < 64) && decide (k.dst < 64) && decide (k.tag < 65536) && decide (k.addr < 2 ^ 40) && decide (k.part < 64) && decide (k.cls < 4)
def LnkRsp.wf (k : LnkRsp) : Bool := decide (k.src < 64) && decide (k.tag < 65536) && decide (k.status < 256)

/-- A CAN frame (R541, R542). -/
def CanFrame.wf (f : CanFrame) : Bool :=
  decide (f.ident < (if f.ide then 2 ^ 29 else 2 ^ 11)) && decide (f.data.length ≤ (if f.fd then 64 else 8))

/-- An access of the debug port. -/
def DebugAccess.wf : DebugAccess → Bool
  | .core p => decide (p < 4)
  | .scan | .lantern => true
  | .bar0Read _ _ | .bar0Write _ _ _ => true

/-- A well-formed command. -/
def Instr.wf : Instr → Bool
  | .registerWrite rq _ _ _ => rq.wf
  | .bar0UnmappedAccess rq _ _ _ _ => rq.wf
  | .bar0RefusedAccess rq _ _ _ => rq.wf
  | .lowHalfRead rq _ => rq.wf
  | .highHalfRead rq _ => rq.wf
  | .pcieAtomicOp rq _ _ _ _ _ => rq.wf
  | .stagedRegisterWrite rq _ _ _ => rq.wf
  | .arm rq _ => rq.wf
  | .cancel rq _ => rq.wf
  | .islandAck isl => decide (isl < 38)
  | .ackCutoff => true
  | .peerReady dev _ => decide (dev < 64)
  | .commitInstant => true
  | .queueEnable rq q _ => rq.wf && decide (q < 16384)
  | .queueDisable rq q _ => rq.wf && decide (q < 16384)
  | .queueResume rq q _ => rq.wf && decide (q < 16384)
  | .sqTail fn q _ => decide (fn < 32) && decide (q < 16384)
  | .cqHead fn q _ => decide (fn < 32) && decide (q < 16384)
  | .cqGroupEnable rq g _ => rq.wf && decide (g < 1024)
  | .cqGroupDisable rq g _ => rq.wf && decide (g < 1024)
  | .descriptorFetch q _ => decide (q < 16384)
  | .descriptorDispatch _ => true
  | .semTimeout _ => true
  | .engineComplete _ isl => decide (isl < 38)
  | .coalesceTimeout g => decide (g < 1024)
  | .nop _ => true
  | .semWrite _ => true
  | .timestamp _ => true
  | .arrGemm _ => true
  | .arrAccDrain _ => true
  | .arrAccClear _ => true
  | .winGroup _ => true
  | .winWinoPrep _ => true
  | .attRun _ => true
  | .attMerge _ => true
  | .attKvAppend _ => true
  | .attTlbInval _ => true
  | .dmaCopy _ => true
  | .dmaFill _ => true
  | .dmaClaim _ => true
  | .dmaWload _ => true
  | .spdBorrow _ => true
  | .spillComplete g => decide (g < 512)
  | .spdReturn _ => true
  | .granuleRestore c => decide (c < 256)
  | .restoreComplete c => decide (c < 256)
  | .patrolScrub u => u.wf
  | .memRgnWord0Write rq i _ => rq.wf && decide (i < 128)
  | .ddrCommandFault ch _ => decide (ch < 8)
  | .zqCalibration => true
  | .dramTempPoll _ => true
  | .vecLaunch _ => true
  | .workgroupStart _ => true
  | .vecIcacheInval _ => true
  | .vecLoadReturn t => t.wf
  | .vecNop t f => t.wf && f.wf
  | .vecEnd t f => t.wf && f.wf
  | .vecBar t f => t.wf && f.wf
  | .vecFence t f => t.wf && f.wf
  | .vecSread t f => t.wf && f.wf
  | .vecLaneid t f => t.wf && f.wf
  | .vecTrap t f => t.wf && f.wf
  | .saluAdd t f => t.wf && f.wf
  | .saluSub t f => t.wf && f.wf
  | .saluMul t f => t.wf && f.wf
  | .saluMulh t f => t.wf && f.wf
  | .saluAnd t f => t.wf && f.wf
  | .saluOr t f => t.wf && f.wf
  | .saluXor t f => t.wf && f.wf
  | .saluMov t f => t.wf && f.wf
  | .saluShl t f => t.wf && f.wf
  | .saluShr t f => t.wf && f.wf
  | .saluSra t f => t.wf && f.wf
  | .saluSlt t f => t.wf && f.wf
  | .saluSltu t f => t.wf && f.wf
  | .saluMin t f => t.wf && f.wf
  | .saluMax t f => t.wf && f.wf
  | .valuAdd t f => t.wf && f.wf
  | .valuSub t f => t.wf && f.wf
  | .valuMul t f => t.wf && f.wf
  | .valuMin t f => t.wf && f.wf
  | .valuMax t f => t.wf && f.wf
  | .valuAbs t f => t.wf && f.wf
  | .valuNeg t f => t.wf && f.wf
  | .valuAdds t f => t.wf && f.wf
  | .valuSubs t f => t.wf && f.wf
  | .valuMulhi t f => t.wf && f.wf
  | .valuAnd t f => t.wf && f.wf
  | .valuOr t f => t.wf && f.wf
  | .valuXor t f => t.wf && f.wf
  | .valuShl t f => t.wf && f.wf
  | .valuShr t f => t.wf && f.wf
  | .valuSra t f => t.wf && f.wf
  | .valuMov t f => t.wf && f.wf
  | .valuSel t f => t.wf && f.wf
  | .valuRint t f => t.wf && f.wf
  | .vfmaFma t f => t.wf && f.wf
  | .vfmaFms t f => t.wf && f.wf
  | .vfmaFnma t f => t.wf && f.wf
  | .vfmaMad t f => t.wf && f.wf
  | .vfmaDp4 t f => t.wf && f.wf
  | .vcmpEq t f => t.wf && f.wf
  | .vcmpNe t f => t.wf && f.wf
  | .vcmpLt t f => t.wf && f.wf
  | .vcmpLe t f => t.wf && f.wf
  | .vcmpGt t f => t.wf && f.wf
  | .vcmpGe t f => t.wf && f.wf
  | .vcmpLtu t f => t.wf && f.wf
  | .vcmpGeu t f => t.wf && f.wf
  | .vcmpIsnan t f => t.wf && f.wf
  | .vcvtConvert t f => t.wf && f.wf
  | .vxlRadd t f => t.wf && f.wf
  | .vxlRmin t f => t.wf && f.wf
  | .vxlRmax t f => t.wf && f.wf
  | .vxlScan t f => t.wf && f.wf
  | .vxlPerm t f => t.wf && f.wf
  | .vxlBcast t f => t.wf && f.wf
  | .vxlExtract t f => t.wf && f.wf
  | .vxlShiftup t f => t.wf && f.wf
  | .vxlCompress t f => t.wf && f.wf
  | .vxlSort t f => t.wf && f.wf
  | .vtransExp t f => t.wf && f.wf
  | .vtransExp2 t f => t.wf && f.wf
  | .vtransLog2 t f => t.wf && f.wf
  | .vtransRcp t f => t.wf && f.wf
  | .vtransRsqrt t f => t.wf && f.wf
  | .vtransSqrt t f => t.wf && f.wf
  | .vtransSin t f => t.wf && f.wf
  | .vtransCos t f => t.wf && f.wf
  | .vtransTanh t f => t.wf && f.wf
  | .ldUnit t f => t.wf && f.wf
  | .ldStrided t f => t.wf && f.wf
  | .ldGather t f => t.wf && f.wf
  | .ldBroadcast t f => t.wf && f.wf
  | .stUnit t f => t.wf && f.wf
  | .stStrided t f => t.wf && f.wf
  | .stScatter t f => t.wf && f.wf
  | .atomAdd t f => t.wf && f.wf && !f.pack
  | .atomMin t f => t.wf && f.wf && !f.pack
  | .atomMax t f => t.wf && f.wf && !f.pack
  | .atomAnd t f => t.wf && f.wf && !f.pack
  | .atomOr t f => t.wf && f.wf && !f.pack
  | .atomXor t f => t.wf && f.wf && !f.pack
  | .atomExch t f => t.wf && f.wf && !f.pack
  | .atomCas t f => t.wf && f.wf && !f.pack
  | .texSample t f => t.wf && f.wf
  | .texSampleL t f => t.wf && f.wf
  | .texFetch t f => t.wf && f.wf
  | .brJmp t f => t.wf && f.wf
  | .brBeq t f => t.wf && f.wf
  | .brBne t f => t.wf && f.wf
  | .brBlt t f => t.wf && f.wf
  | .brBge t f => t.wf && f.wf
  | .brBltu t f => t.wf && f.wf
  | .brBgeu t f => t.wf && f.wf
  | .brBany t f => t.wf && f.wf
  | .brBnone t f => t.wf && f.wf
  | .brBall t f => t.wf && f.wf
  | .brJal t f => t.wf && f.wf
  | .brJr t f => t.wf && f.wf
  | .maskMand t f => t.wf && f.wf
  | .maskMor t f => t.wf && f.wf
  | .maskMxor t f => t.wf && f.wf
  | .maskMandn t f => t.wf && f.wf
  | .maskMnot t f => t.wf && f.wf
  | .maskMtos t f => t.wf && f.wf
  | .maskStom t f => t.wf && f.wf
  | .maskMpop t f => t.wf && f.wf
  | .maskMfirst t f => t.wf && f.wf
  | .gfxPass _ => true
  | .gfxTexSwizzle _ => true
  | .dispFlip _ => true
  | .dispSafety _ => true
  | .dispAux _ => true
  | .latchInstant n => decide (n < 4)
  | .vblankStart n => decide (n < 4)
  | .regionCrcCheck n r => decide (n < 4) && decide (r < 16)
  | .dispLinkTraining n _ => decide (n < 4)
  | .hotPlug n _ _ => decide (n < 4)
  | .csiFrameStart i vc _ => decide (i < 8) && decide (vc < 16)
  | .csiFrameEnd i vc => decide (i < 8) && decide (vc < 16)
  | .capNoFrame _ => true
  | .capFrame _ => true
  | .capAudio _ => true
  | .tdmFrame p _ _ => decide (p < 4)
  | .contextMoor rq c _ => rq.wf && decide (c < 256)
  | .contextRelease rq c _ => rq.wf && decide (c < 256)
  | .releaseDone c => decide (c < 256)
  | .windowOpen e w => decide (e < 8) && decide (w < 32)
  | .displayWindowOpen n => decide (n < 4)
  | .engineStopDone e => decide (e < 38)
  | .deadlineCheck j => decide (j < 256)
  | .deferredReceiveLand c _ => decide (c < 256)
  | .regulationWindow => true
  | .vfEnable _ => true
  | .fnHb fn _ => decide (fn < 32)
  | .heartbeatExpiry fn => decide (fn < 32)
  | .quiesce rq fn => rq.wf && decide (fn < 32)
  | .vfResume rq fn => rq.wf && decide (fn < 32)
  | .flr fn => decide (fn < 32)
  | .pfFlr => true
  | .flrDrainTimeout fn => decide (fn < 32)
  | .flrComplete fn => decide (fn < 32)
  | .dirtySwap rq fn => rq.wf && decide (fn < 32)
  | .swapDone fn => decide (fn < 32)
  | .fttiWindowStart => true
  | .goldenTestEnd e _ => decide (e < 8)
  | .goldenSlotEnd e => decide (e < 8)
  | .safetyWatchdogExpiry => true
  | .lockstepMismatch p => decide (p < 4)
  | .sstFastRead => true
  | .sstWrite _ _ => true
  | .safEvtClear rq _ => rq.wf
  | .safGoldenRun _ => true
  | .safInject _ => true
  | .mailboxGo rq _ => rq.wf
  | .getInfo => true
  | .getCert => true
  | .daymark => true
  | .secPart => true
  | .secRgn => true
  | .secQueue => true
  | .secMoor => true
  | .secRelease => true
  | .secIslCtl => true
  | .provision => true
  | .setProduction => true
  | .verifySlot slot => decide (slot < 2)
  | .preload slot => decide (slot < 2)
  | .storeOpen slot _ => decide (slot < 2)
  | .storeData _ => true
  | .storeClose => true
  | .svcKey _ => true
  | .svcOpen _ => true
  | .svcSeal _ => true
  | .islPower isl _ _ => decide (isl < 38)
  | .rgnRelocate i _ _ => decide (i < 128)
  | .tamperAlarm _ => true
  | .secureWatchdogExpiry => true
  | .pairTrap p => decide (p < 4)
  | .pairHeartbeatTimeout p => decide (p < 4)
  | .pairOnline p _ => decide (p < 4)
  | .blockMove b p => decide (b < 256) && decide (p < 4)
  | .hello _ => true
  | .setBaud _ => true
  | .svcStatus _ => true
  | .deltaBegin _ => true
  | .deltaData _ => true
  | .deltaEnd _ => true
  | .activate _ => true
  | .recoverBegin _ => true
  | .recoverData _ => true
  | .recoverEnd _ => true
  | .svcByteGap => true
  | .svcIdleTimeout => true
  | .recoveryReset => true
  | .bootActStage rq _ => rq.wf
  | .preloadDone _ => true
  | .actNow rq _ => rq.wf
  | .activationReady => true
  | .activationRollback => true
  | .bcnStep rq _ => rq.wf
  | .bcnForcedStep rq _ => rq.wf
  | .bcnRateWrite rq _ => rq.wf
  | .gptpSync m _ => decide (m.port < 8)
  | .peerTimeExchange _ _ => true
  | .masterLoss => true
  | .comparatorFire n => decide (n < 64)
  | .comparatorWrite rq n word _ => rq.wf && decide (n < 64) && decide (word < 3)
  | .pulseEnd k => decide (k < 8)
  | .portEnable rq p _ => rq.wf && decide (p < 4)
  | .trainingDone p neighId neighPort lanes => decide (p < 4) && decide (neighId < 64) && decide (neighPort < 4) && decide (lanes < 16)
  | .rdReq p k => decide (p < 4) && k.wf
  | .wrReq p k _ _ => decide (p < 4) && k.wf
  | .rdRsp p k _ _ => decide (p < 4) && k.wf
  | .wrAck p k => decide (p < 4) && k.wf
  | .semReq p src tag sem amount =>
    decide (p < 4) && decide (src < 64) && decide (tag < 65536) && decide (sem < 4096) && decide (amount < 2 ^ 32)
  | .semAck p k => decide (p < 4) && k.wf
  | .echoReq p src tag tSend => decide (p < 4) && decide (src < 64) && decide (tag < 65536) && decide (tSend < 2 ^ 64)
  | .echoRsp p src tag => decide (p < 4) && decide (src < 64) && decide (tag < 65536)
  | .nak p _ => decide (p < 4)
  | .lnkTime p _ _ => decide (p < 4)
  | .flitReceiveError p _ => decide (p < 4)
  | .flitForward p k => decide (p < 4) && decide (k.dst < 64) && decide (k.vcp < 6) && k.body.length == 72
  | .peerTimeout tag => decide (tag < 65536)
  | .lnkSemSignal _ => true
  | .lnkEcho _ => true
  | .canFrameReceived n f => decide (n < 16) && f.wf
  | .canFrameSent n => decide (n < 16)
  | .canBusOff n => decide (n < 16)
  | .busOffRecovery n => decide (n < 16)
  | .ethFrameReceived p _ => decide (p < 8)
  | .gateChange p => decide (p < 8)
  | .streamGateChange g => decide (g < 64)
  | .acfTalkerPeriod st => decide (st < 32)
  | .acfFrameReceived st _ => decide (st < 32)
  | .acfPresentation st => decide (st < 32)
  | .routeInstant r => decide (r < 1024)
  | .gwTx _ => true
  | .gwRx _ => true
  | .gwRxWaitExpiry _ => true
  | .canTxTimeout _ => true
  | .gwSigRead _ => true
  | .wbrAtomic _ => true
  | .wbrWinWrite rq w word _ => rq.wf && decide (w < 64) && decide (word < 3)
  | .wbrSemWrite rq n _ => rq.wf && decide (n < 16)
  | .trailingReadDone cpl => decide (cpl < 8)
  | .cplTimeout _ _ => true
  | .dbgSnapshot _ => true
  | .snapshotInstant => true
  | .dbgMark _ => true
  | .dbgDump _ => true
  | .dumpNow rq _ => rq.wf
  | .dumpWritten => true
  | .ringLatch rq _ => rq.wf
  | .traceEnable rq _ => rq.wf
  | .hangCheck => true
  | .powerStateTick => true
  | .islandWakeDone isl => decide (isl < 24)
  | .ltrIdle => true
  | .powerSample _ => true
  | .limiterUpdate _ => true
  | .droopStart isl => decide (isl < 8)
  | .droopEnd isl => decide (isl < 8)
  | .thermalSample isl _ => decide (isl < 38)
  | .thermalCapStep isl => decide (isl < 8)
  | .coolantLoss => true
  | .ageingSample _ => true
  | .ageRecordLoad rq _ => rq.wf
  | .powerOn _ => true
  | .vinFault _ => true
  | .vinLoss => true
  | .resetNLow => true
  | .coldResetRelease _ => true
  | .pcieReset _ => true
  | .sysclkLoss => true
  | .frameStart n => decide (n < 4)
  | .scanOutLine n => decide (n < 4)
  | .csiPacket i _ => decide (i < 8)
  | .idleFlit p _ _ => decide (p < 4)
  | .launchTime _ _ => true
  | .ethFrameSent _ _ => true
  | .auxReply n _ => decide (n < 4)
  | .wbrSemWaitExpiry _ => true
  | .debugPortAccess a => a.wf
  | .perstNDeassert => true
  | .sysclkReturn => true

end Sys2Proof
end

