-- ==== Sys2Proof/Certificates/Slice0/Obligations.lean ====
section
/-!
DEFINITION. What is claimed of the model. Each statement names the rules it rests on; what is the model's own choice is
named with its entry of the assumption log.
-/

open Sys2Proof Sys2Proof.Machine

/-- A step takes the command at the front of the queue and runs it on the state with the queue's rest. On an empty queue one
period of the free-running counter passes (the model's choice, log 2): the counter takes its next value unless the part is
held in cold reset or has no system clock; without a trace to write, a request waiting at a DDR4 channel or a frame waiting at
the switch nothing else changes. -/
def Obligations.StepTakesTheFrontOrTicks : Prop :=
  (∀ (c : Instr) (cs : List Instr) (s : State), s.pending = c :: cs → step s = exec c { s with pending := cs }) ∧
  (∀ s : State, s.pending = [] →
     (s.dead = true → step s = .next s) ∧
     (s.dead = false → s.flag DBG_TRACE_CFG_EN = false → s.ddrQ = [] → s.gw.ethQ = [] → step s = .next { s with now := s.now + 1 }))

/-- The state after reset: the part is held in cold reset, no memory lists anything, nothing is fetched, sent or waiting, and
the registers read what their tables give: among them the identity of empty mode status (R30), the two error counters, the
servo's limits of Beacon and the fault reactions (R4). -/
def Obligations.ResetHoldsTheTables : Prop :=
  let s := State.reset
  s.pins.held = true ∧ s.pending = [] ∧ s.descs = [] ∧ s.mem = [] ∧ s.tags = [] ∧ s.arm = none ∧ s.now = 0 ∧
  s.out.faultN = false ∧ s.out.safeReqN = false ∧
  s.get TOP_MODE_STATUS_STATE = 0 ∧ s.get TOP_MODE_STATUS_RESULT = 0 ∧ s.get TOP_MODE_STATUS_FIRST_MISSING = 0x3F ∧
  s.get TOP_MODE_STATUS_PEER_MISSING = 0x3F ∧ s.get TOP_ERR_UNMAPPED_COUNT = 0 ∧ s.get TOP_ERR_ACCESS_COUNT = 0 ∧
  s.get (TOP_ISL_MODE_PRESENT 37) = 1 ∧ s.get (TOP_ISL_MODE_ACK 0) = 0

/-- R7: an access of another size than 4 or 8 bytes, or that is not naturally aligned, reads all ones in each requested byte
lane or is discarded, and is counted in the PF's TOP_ERR_ACCESS, whichever function made it; nothing else changes. R17: an
aligned access of the PF at or above 0x0180_0000, or to offsets that no block assigns, reads all ones or is discarded, and
increments TOP_ERR_UNMAPPED; nothing else changes. -/
def Obligations.RefusedAndUnmappedAccessesAreCounted : Prop :=
  (∀ (rq : Requester) (off size : Nat) (v : Word64) (s : State),
     s.reaches rq = true → s.resetting rq = false → off < 0x100000000 → ¬ ((size = 4 ∨ size = 8) ∧ off % size = 0) →
     let u := s.bump TOP_ERR_ACCESS_COUNT 1
     exec (.bar0RefusedAccess rq off size true) s = .next u ∧
     exec (.registerWrite rq off size v) s = .next u ∧
     exec (.bar0RefusedAccess rq off size false) s =
       .next { u with rdata := BitVec.ofNat 64 (2 ^ (8 * min size 8) - 1) } ∧
     u.get TOP_ERR_ACCESS_COUNT = min (s.get TOP_ERR_ACCESS_COUNT + 1) 0xFFFFFFFF ∧
     OnlyRegs [TOP_ERR_ACCESS] s u) ∧
  (∀ (off size : Nat) (v : Word64) (s : State),
     s.reaches (.fn 0) = true → (size = 4 ∨ size = 8) → off % size = 0 → off < 0x100000000 →
     (0x1800000 ≤ off ∨ ∀ o, (o = off ∨ size = 8 ∧ o = off + 4) → regAt o = none ∧ reservedWord o = false) →
     let u := s.bump TOP_ERR_UNMAPPED_COUNT 1
     exec (.bar0UnmappedAccess (.fn 0) off size true v) s = .next u ∧
     exec (.bar0UnmappedAccess (.fn 0) off size false v) s =
       .next { u with rdata := BitVec.ofNat 64 (2 ^ (8 * size) - 1) } ∧
     u.get TOP_ERR_UNMAPPED_COUNT = min (s.get TOP_ERR_UNMAPPED_COUNT + 1) 0xFFFFFFFF ∧
     OnlyRegs [TOP_ERR_UNMAPPED] s u)

/-- R8: the low-half read of a 64-bit register answers its low half and latches its high half for this requester; the
requester's next read of the high half, in whatever state the register is by then, answers the latched half and empties the
latch; a high-half read that finds the latch empty answers the current high half. -/
def Obligations.LowHalfReadLatchesTheHighHalf : Prop :=
  ∀ (rq : Requester) (off : Nat) (sp : RegSpec) (base : Nat) (s : State),
    s.reaches rq = true → s.resetting rq = false → off % 8 = 0 → off + 8 ≤ 0x100000000 → sp.bits = 64 →
    s.placeAt rq off = .reg sp base false →
    (let (s1, v) := s.readReg rq sp base
     exec (.lowHalfRead rq off) s =
       .next { s1 with rdata := BitVec.ofNat 64 (v % 2 ^ 32)
                       latches := (base, reqCode rq, BitVec.ofNat 32 (v / 2 ^ 32)) ::
                         s1.latches.filter (fun l => !(l.1 == base && l.2.1 == reqCode rq)) }) ∧
    (s.placeAt rq (off + 4) = .reg sp base true →
      (∀ h, s.latchOf rq base = some h →
        exec (.highHalfRead rq (off + 4)) s =
          .next { s with rdata := BitVec.ofNat 64 h.toNat
                         latches := s.latches.filter (fun l => !(l.1 == base && l.2.1 == reqCode rq)) }) ∧
      (s.latchOf rq base = none →
        let (s1, v) := s.readReg rq sp base
        exec (.highHalfRead rq (off + 4)) s = .next { s1 with rdata := BitVec.ofNat 64 (v / 2 ^ 32) }))

/-- R3, R5, R6: what a write leaves in each field of a register whose fields are disjoint. RW takes the written bits unless
they are a reserved encoding, RO keeps its value, W1C clears the bits written as 1, WO stores nothing, RWL is RW until its
lock is set, SRW takes a write of the secure world only. -/
def Obligations.WriteActsByAccessType : Prop :=
  ∀ (fs : List FieldSpec) (locked secure : Bool) (old new mask : Nat) (f : FieldSpec),
    fs.Pairwise (fun a b => a.lo + a.w ≤ b.lo ∨ b.lo + b.w ≤ a.lo) → f ∈ fs → bitsOf mask f.lo f.w = 2 ^ f.w - 1 →
    let was := bitsOf old f.lo f.w
    let wr := bitsOf new f.lo f.w
    let set := if f.ok.ok wr then wr else was
    bitsOf (writeFields fs locked secure old new mask) f.lo f.w =
      match f.acc with
      | .rw => set
      | .ro => was
      | .w1c => was - Nat.land was wr
      | .wo => 0
      | .rwl => if locked then was else set
      | .srw => if secure then set else was

/-- R3, R17, R385: a register write. One that reaches BAR0 with an accepted size goes to the registers that its halves hold;
one of a whole register passes its gate, and of block TOP other than the mode control takes effect field by field by its
access types, of 32 or of 64 bits, and nothing else changes. An offset at or above 2^32 is one of BAR4 (log 1): the write goes
to the vector tables. R33: a write of a staged register (of BOOT_ACT and of the exempt ports' budgets other statements speak
or none): the staged copy takes it and DIRTY tells whether a staged register of the island differs from its active copy; the
active copies stay. While a commit that names the island is armed the write is ignored and sets LOST_WRITE. -/
def Obligations.RegisterAndStagedWrites : Prop :=
  ((∀ (rq : Requester) (off size : Nat) (v : Word64) (s : State),
     s.reaches rq = true → s.resetting rq = false → off < 0x100000000 → (size = 4 ∨ size = 8) → off % size = 0 →
     exec (.registerWrite rq off size v) s = .next (s.writeAt rq off size v.toNat)) ∧
   (∀ (fn off size : Nat) (v : Word64) (s : State), s.reaches (.fn fn) = true → s.resetting (.fn fn) = false → off < 0x100000000 →
     exec (.registerWrite (.fn fn) (0x100000000 + off) size v) s = .next (s.writeBar4 fn off size v.toNat)) ∧
   (∀ (off : Nat) (sp : RegSpec) (v : Word64) (s : State),
     s.reaches (.fn 0) = true → off % 4 = 0 → off < 0x100000 → off ≠ TOP_MODE_CTRL → regAt off = some (sp, off) →
     s.flag DBG_SNAP_CTL_VIEW = false →
     exec (.registerWrite (.fn 0) off 4 v) s =
       .next (s.setReg off (BitVec.ofNat 64
         (writeFields sp.flds false false (s.reg off).toNat (v.toNat % 2 ^ 32) 0xFFFFFFFF))) ∧
     (off % 8 = 0 → sp.bits = 64 → exec (.registerWrite (.fn 0) off 8 v) s =
       .next (s.setReg off (BitVec.ofNat 64 (writeFields sp.flds false false (s.reg off).toNat v.toNat 0xFFFFFFFFFFFFFFFF)))))) ∧
  (∀ (off i : Nat) (sp : RegSpec) (v : Word64) (s : State), s.reaches (.fn 0) = true → s.answers off = true →
     s.shut (.fn 0) off = none → s.flag DBG_SNAP_CTL_VIEW = false → off % 4 = 0 → regAt off = some (sp, off) →
     stagedIsland off = some i →
     ((∃ n, n < 4 ∧ off ∈ [ARR_CLK_CFG n, ARR_CHK_CFG n, WIN_CFG n, ATT_CFG n, VEC_CLK_CFG n, GFX_CFG n, DISP_TIM_H n, DISP_TIM_V n,
         DISP_TIM_CLK n, CAP_TDM_CFG n, SCH_DWIN n]) ∨ (∃ n, n < 8 ∧ off ∈ [CAP_CSI_CFG n, GW_ETH_QBV n, GW_ETH_QBV_BASE n]) ∨
       off ∈ [SCH_CFG, QOS_CFG, SAF_CFG, BCN_CFG] ∨ (∃ e w, e < 8 ∧ w < 32 ∧ off = SCH_WIN e w) ∨
       (∃ p c, p < 75 ∧ c < 3 ∧ exemptPort p = false ∧ off = QOS_PORT p c) ∨ (∃ p k, p < 8 ∧ k < 256 ∧ off = GW_GCL p k) ∨
       (∃ g, g < 64 ∧ off = GW_SGATE g) ∨ ∃ g k, g < 64 ∧ k < 64 ∧ off = GW_SGL g k) →
     exec (.stagedRegisterWrite (.fn 0) off 4 v) s = .next (s.stageWrite off (v.toNat % 2 ^ 32) 0xFFFFFFFF) ∧
     (off % 8 = 0 → sp.bits = 64 → exec (.stagedRegisterWrite (.fn 0) off 8 v) s =
       .next (s.stageWrite off v.toNat 0xFFFFFFFFFFFFFFFF)) ∧
     ∀ n m, let t := s.stageWrite off n m
       (s.armedFor i = true → t = s.put (TOP_ISL_MODE_LOST_WRITE i) 1) ∧
       (s.armedFor i = false → t.reg off = BitVec.ofNat 64 (writeFields sp.flds false false (s.reg off).toNat n m) ∧
         t.active = s.active ∧ (t.get (TOP_ISL_MODE_DIRTY i) = 0 ↔ ∀ k, stagedIsland k = some i → t.reg k = t.act k) ∧
         OnlyRegs [off, TOP_ISL_MODE i] s t))

/-- R385: an AtomicOp on a 32-bit register of block TOP answers the register's value and writes the result as a register write
does; an AtomicOp on anything that it cannot act on is answered as unsupported and changes nothing. -/
def Obligations.AtomicOpReadsThenWrites : Prop :=
  ∀ (off : Nat) (sp : RegSpec) (op : AtomicOp) (v cmp : Word64) (s : State),
    s.reaches (.fn 0) = true → off % 4 = 0 → off < 0x100000 → off ≠ TOP_MODE_CTRL → regAt off = some (sp, off) →
    s.flag DBG_SNAP_CTL_VIEW = false →
    (sp.flds.any (fun f => f.acc == .rw && bitsOf 0xFFFFFFFF f.lo f.w != 0) = true →
      let old := shown sp.flds (s.reg off).toNat % 2 ^ 32
      let new := match op with
        | .fetchAdd => (old + v.toNat) % 2 ^ 32
        | .swap => v.toNat % 2 ^ 32
        | .cas => if old = cmp.toNat % 2 ^ 32 then v.toNat % 2 ^ 32 else old
      exec (.pcieAtomicOp (.fn 0) off 4 op v cmp) s =
        .next { s.setReg off (BitVec.ofNat 64 (writeFields sp.flds false false (s.reg off).toNat new 0xFFFFFFFF)) with
          rdata := BitVec.ofNat 64 old }) ∧
    (sp.flds.any (fun f => f.acc == .rw && bitsOf 0xFFFFFFFF f.lo f.w != 0) = false →
      exec (.pcieAtomicOp (.fn 0) off 4 op v cmp) s = .next { s with out := { s.out with unsupported := s.out.unsupported + 1 } })

/-- R32: a refused arm. The first row of the table that applies gives RESULT; DONE is set, FIRST_MISSING and PEER_MISSING read
0x3F, LAST_GEN, STATE and an armed commit stay, the PF message goes out when IRQ_EN = 1, and nothing is armed. -/
def Obligations.ArmIsRefusedByTheFirstRowThatApplies : Prop :=
  ∀ (rq : Requester) (v : Word32) (s : State), s.opens rq TOP_MODE_CTRL = true →
    bitOf v.toNat 24 = true → bitOf v.toNat 25 = false →
    let u := s.plainWrite TOP_MODE_CTRL v.toNat 0xFFFFFFFF
    let time := u.get TOP_MODE_TIME_TIME
    let units := u.get TOP_MODE_UNITS_UNITS
    let badTime := time < u.beacon + u.get TOP_MODE_CTRL_GUARD_US * 1000 + 10000 ∨ u.beacon + 10000000000 < time
    let badUnits := units = 0 ∨ 2 ^ 38 ≤ units ∨ ∃ i, i < 38 ∧ bitOf units i = true ∧ u.get (TOP_ISL_MODE_PRESENT i) = 0
    let refusedBy (r : Nat) : Prop :=
      let t := u.modeDone r 0x3F 0x3F
      exec (.arm rq v) s = .next t ∧ t.get TOP_MODE_STATUS_RESULT = r ∧
      t.get TOP_MODE_STATUS_DONE = 1 ∧ t.get TOP_MODE_STATUS_FIRST_MISSING = 0x3F ∧
      t.get TOP_MODE_STATUS_PEER_MISSING = 0x3F ∧ t.get TOP_MODE_STATUS_LAST_GEN = s.get TOP_MODE_STATUS_LAST_GEN ∧
      t.get TOP_MODE_STATUS_STATE = s.get TOP_MODE_STATUS_STATE ∧ t.arm = s.arm ∧
      t.out = (u.pfIrq TOP_IRQ_VECTOR TOP_MODE_CTRL_IRQ_EN).out ∧ t.still = s.still ∧
      ∀ b, b ≠ TOP_MODE_CTRL → b ≠ TOP_MODE_STATUS → t.reg b = s.reg b
    (s.arm.isSome = true → refusedBy 5) ∧
    (s.arm = none → badTime → refusedBy 4) ∧
    (s.arm = none → ¬ badTime → badUnits → refusedBy 6)

/-- R33: an accepted arm latches the commit, enters STATE armed with its GEN as LAST_GEN, clears ACK on every island, copies
GEN to STAGED_GEN of each island in UNITS, and the islands without staged registers acknowledge. -/
def Obligations.AcceptedArmLatchesTheCommit : Prop :=
  ∀ (rq : Requester) (v : Word32) (s : State), s.opens rq TOP_MODE_CTRL = true →
    bitOf v.toNat 24 = true → bitOf v.toNat 25 = false →
    let u := s.plainWrite TOP_MODE_CTRL v.toNat 0xFFFFFFFF
    let time := u.get TOP_MODE_TIME_TIME
    let units := u.get TOP_MODE_UNITS_UNITS
    s.arm = none → u.beacon + u.get TOP_MODE_CTRL_GUARD_US * 1000 + 10000 ≤ time → time ≤ u.beacon + 10000000000 →
    units ≠ 0 → units < 2 ^ 38 → (∀ i, i < 38 → bitOf units i = true → u.get (TOP_ISL_MODE_PRESENT i) = 1) →
    let t := u.armCommit
    exec (.arm rq v) s = .next t ∧
      t.arm = some { gen := bitsOf v.toNat 0 16, guardUs := bitsOf v.toNat 16 8, units := units, time := time,
                     peers := s.get TOP_MODE_PEERS_PEERS, frozen := none, ready := [], readySent := false } ∧
      t.get TOP_MODE_STATUS_STATE = 1 ∧ t.get TOP_MODE_STATUS_LAST_GEN = bitsOf v.toNat 0 16 ∧
      t.get TOP_MODE_STATUS_RESULT = s.get TOP_MODE_STATUS_RESULT ∧
      (∀ i, i < 38 →
        t.get (TOP_ISL_MODE_STAGED_GEN i) = (if bitOf units i then bitsOf v.toNat 0 16 else s.get (TOP_ISL_MODE_STAGED_GEN i)) ∧
        t.get (TOP_ISL_MODE_ACTIVE_GEN i) = s.get (TOP_ISL_MODE_ACTIVE_GEN i) ∧
        t.get (TOP_ISL_MODE_ACK i) = (if bitOf units i && ((8 ≤ i && i < 32) || i == 34 || i == 35 || i == 37) then 1 else 0)) ∧
      t = { s with regs := t.regs, arm := t.arm, waking := t.waking }

/-- R36: CANCEL disarms the commit with RESULT = CANCELLED, sets DONE, sends the PF message as a refusal does, keeps LAST_GEN
and the staged copies; without an armed commit it does nothing beyond the fields written; a write of both bits cancels and
then attempts the arm. R33, R34: an island that is awake acknowledges a valid staged set (for an array island: the rules of
its clock, its check tolerance and its prefetch depth); at the cut-off the acknowledgements are frozen; a READY with the armed
generation is noted. None of them changes anything else. -/
def Obligations.CancelAcknowledgeAndReady : Prop :=
  (∀ (rq : Requester) (v : Word32) (s : State), s.opens rq TOP_MODE_CTRL = true → bitOf v.toNat 25 = true →
     let u := s.plainWrite TOP_MODE_CTRL v.toNat 0xFFFFFFFF
     (bitOf v.toNat 24 = false → s.arm = none → exec (.cancel rq v) s = .next u) ∧
     (bitOf v.toNat 24 = false → s.arm.isSome = true →
       let t := u.cancelCommit
       exec (.cancel rq v) s = .next t ∧ t.arm = none ∧ t.get TOP_MODE_STATUS_STATE = 0 ∧
         t.get TOP_MODE_STATUS_RESULT = 7 ∧ t.get TOP_MODE_STATUS_DONE = 1 ∧
         t.get TOP_MODE_STATUS_LAST_GEN = s.get TOP_MODE_STATUS_LAST_GEN ∧
         t.out = (u.pfIrq TOP_IRQ_VECTOR TOP_MODE_CTRL_IRQ_EN).out ∧
         t = { s with regs := t.regs, arm := none, out := t.out, pcie := t.pcie } ∧
         ∀ b, b ≠ TOP_MODE_CTRL → b ≠ TOP_MODE_STATUS → t.reg b = s.reg b) ∧
     (bitOf v.toNat 24 = true → exec (.cancel rq v) s = .next (State.tryArm (State.cancelCommit u)))) ∧
  (∀ (s : State) (a : Armed), s.arm = some a →
     (∀ i, i < 4 → bitOf a.units i = true → s.islOn i = true →
       s.get (ARR_CLK_CFG_FREQ_MHZ i) % 5 = 0 → 200 ≤ s.get (ARR_CLK_CFG_FREQ_MHZ i) →
       s.get (ARR_CLK_CFG_FREQ_MHZ i) ≤ s.get (ARR_CLK_STAT_FMAX_NOW i) →
       10 ≤ s.get (ARR_CHK_CFG_TOL_EXP i) → s.get (ARR_CHK_CFG_TOL_EXP i) ≤ 18 → s.get (ATT_CFG_PREFETCH i) ≤ 4 →
       exec (.islandAck i) s = .next (s.put (TOP_ISL_MODE_ACK i) 1)) ∧
     (a.frozen = none → a.time ≤ s.beacon + a.guardUs * 1000 → a.peers = 0 →
       ∃ m, exec .ackCutoff s = .next { s with arm := some { a with frozen := some m, readySent := false } } ∧
         ∀ i, i < 38 → bitOf m i = s.flag (TOP_ISL_MODE_ACK i)) ∧
     (s.beacon + a.guardUs * 1000 < a.time → exec .ackCutoff s = .next s) ∧
     (∀ dev gen, gen = a.gen → bitOf a.peers dev = true → a.ready.contains dev = false →
       exec (.peerReady dev gen) s = .next { s with arm := some { a with ready := a.ready ++ [dev] } }) ∧
     (∀ dev gen, gen ≠ a.gen → exec (.peerReady dev gen) s = .next s))

/-- R35: at the instant every island in UNITS takes its staged copies and generation when all acknowledged and every peer is
ready; otherwise no active copy changes, and RESULT and the first one missing are reported. What follows by itself then comes
about. Before the instant, and without an armed commit, nothing happens; a commit whose cut-off has not come about freezes the
acknowledgements at the instant. -/
def Obligations.CommitInstantSwitchesAllOrNothing : Prop :=
  (∀ s : State, (s.arm = none ∨ ∃ a, s.arm = some a ∧ s.beacon < a.time) → exec .commitInstant s = .next s) ∧
  (∀ (s : State) (a : Armed), s.arm = some a → a.time ≤ s.beacon → a.frozen = none →
    exec .commitInstant s = .next s.cutOff.commitNow.settle) ∧
  ∀ (s : State) (a : Armed) (m : Nat), s.arm = some a → a.time ≤ s.beacon → a.frozen = some m →
    let miss := (List.range 38).find? (fun i => bitOf a.units i && !bitOf m i)
    let late := (List.range 64).find? (fun d => bitOf a.peers d && !a.ready.contains d)
    let t := s.commitNow
    exec .commitInstant s = .next t.settle ∧ t.arm = none ∧ t.get TOP_MODE_STATUS_STATE = 0 ∧
      t.get TOP_MODE_STATUS_DONE = 1 ∧
      (∀ i, miss = some i → t.active = s.active ∧ t.still = ({ s with arm := none } : State).still ∧ t.get TOP_MODE_STATUS_RESULT = 2 ∧
        t.get TOP_MODE_STATUS_FIRST_MISSING = i ∧ t.get TOP_MODE_STATUS_PEER_MISSING = 0x3F) ∧
      (∀ d, miss = none → late = some d → t.active = s.active ∧ t.still = ({ s with arm := none } : State).still ∧ t.get TOP_MODE_STATUS_RESULT = 3 ∧
        t.get TOP_MODE_STATUS_FIRST_MISSING = 0x3F ∧ t.get TOP_MODE_STATUS_PEER_MISSING = d) ∧
      (miss = none → late = none → t.get TOP_MODE_STATUS_RESULT = 1 ∧ t.get TOP_MODE_STATUS_FIRST_MISSING = 0x3F ∧
        t.get TOP_MODE_STATUS_PEER_MISSING = 0x3F ∧
        (∀ k i, stagedIsland k = some i → t.act k = if i < 38 && bitOf a.units i then s.reg k else s.act k))

/-- R41, R42: while a queue is enabled only the clearing of ENABLE acts; clearing stops fetching and STATE reads 2 until
nothing is in flight. A write that sets ENABLE empties the ring, unless CQG names a group that is disabled or another
function's; with descriptors in flight the other fields keep their values. R40, R67: RESUME is ignored while MALFORMED or
FETCH_ERR is set, and clears the error bits written as 1; with neither set it takes the queue off the stopped ones, so that
fetching goes on at HEAD. -/
def Obligations.QueueEnableDisableAndResume : Prop :=
  (∀ (rq : Requester) (q g : Nat) (v : Word32) (s : State), s.opensView rq (CMD_Q_CFG q) = true → s.viewQ rq q = some g →
     let t := s.writeQCfg rq g v.toNat
     exec (.queueEnable rq q v) s = .next t ∧ exec (.queueDisable rq q v) s = .next t ∧
     (s.flag (CMD_Q_CFG_ENABLE g) = true → bitOf v.toNat 24 = true → t = s) ∧
     (s.flag (CMD_Q_CFG_ENABLE g) = true → bitOf v.toNat 24 = false →
       t.get (CMD_Q_CFG_ENABLE g) = 0 ∧ t.get (CMD_Q_PTR_STATE g) = (if s.get (CMD_Q_PTR_INFLIGHT g) = 0 then 0 else 2) ∧
       t.get (CMD_Q_PTR_INFLIGHT g) = s.get (CMD_Q_PTR_INFLIGHT g) ∧ t.descs = s.descs ∧
       OnlyRegs [CMD_Q_CFG g, CMD_Q_PTR g] s t) ∧
     (s.flag (CMD_Q_CFG_ENABLE g) = false → bitOf v.toNat 24 = true → g < 16384 →
       let free := s.get (CMD_Q_PTR_INFLIGHT g) = 0
       let local' := if isVf rq then s.get (VIRT_FN_W0_CQBASE (rqFn rq)) else 0
       let cqg := if free then (bitsOf v.toNat 8 10 + local') % 1024 else s.get (CMD_Q_CFG_CQG g)
       let fn := if free ∧ isVf rq = false ∧ s.funcHeld (s.get (CMD_Q_CFG_FUNC g)) = false then bitsOf v.toNat 18 5
         else s.get (CMD_Q_CFG_FUNC g)
       let size := if free ∧ 4 ≤ bitsOf v.toNat 0 5 ∧ bitsOf v.toNat 0 5 ≤ 16 then bitsOf v.toNat 0 5 else s.get (CMD_Q_CFG_SIZE_LOG2 g)
       let outside := isVf rq = true ∧ s.cnt (VIRT_FN_W0_CQCNT (rqFn rq)) ≤ bitsOf v.toNat 8 10
       (outside ∨ s.flag (CMD_CQ_CFG_ENABLE cqg) = false ∨ s.get (CMD_CQ_CFG_FUNC cqg) ≠ fn →
         t = s) ∧
       (¬ outside → s.flag (CMD_CQ_CFG_ENABLE cqg) = true → s.get (CMD_CQ_CFG_FUNC cqg) = fn →
         t.get (CMD_Q_CFG_ENABLE g) = 1 ∧
           t.get (CMD_Q_CFG_CQG g) = cqg ∧ t.get (CMD_Q_CFG_FUNC g) = fn ∧ t.get (CMD_Q_CFG_SIZE_LOG2 g) = size ∧
           t.get (CMD_Q_PTR_HEAD g) = 0 ∧ t.get (CMD_Q_PTR_TAIL g) = 0 ∧
           (s.flag (VIRT_FN_W5_QUIESCED fn) = false → t.get (CMD_Q_PTR_STATE g) = (if free then 1 else 2)) ∧
           t = { s with regs := t.regs, stoppedQ := t.stoppedQ } ∧
           ∀ b, b ≠ CMD_Q_CFG g → b ≠ CMD_Q_PTR g → t.reg b = s.reg b))) ∧
  (∀ (rq : Requester) (q g : Nat) (v : Word64) (s : State), s.opensView rq (CMD_Q_ERR q) = true → s.viewQ rq q = some g →
     g < 16384 → bitOf v.toNat 63 = true →
     let t := s.writeQErr g v.toNat 0xFFFFFFFFFFFFFFFF
     exec (.queueResume rq q v) s = .next t ∧
     (s.flag (CMD_Q_ERR_MALFORMED g) = true ∨ s.flag (CMD_Q_ERR_FETCH_ERR g) = true →
       OnlyRegs [CMD_Q_ERR g] s t ∧
         (t.get (CMD_Q_ERR_MALFORMED g) = if bitOf v.toNat 1 then 0 else s.get (CMD_Q_ERR_MALFORMED g)) ∧
         (t.get (CMD_Q_ERR_FETCH_ERR g) = if bitOf v.toNat 2 then 0 else s.get (CMD_Q_ERR_FETCH_ERR g)) ∧
         t.get (CMD_Q_ERR_STOP_IDX g) = s.get (CMD_Q_ERR_STOP_IDX g)) ∧
     (s.flag (CMD_Q_ERR_MALFORMED g) = false → s.flag (CMD_Q_ERR_FETCH_ERR g) = false →
       t.stoppedQ = s.stoppedQ.filter (· != g) ∧
         t.get (CMD_Q_PTR_HEAD g) = s.get (CMD_Q_PTR_HEAD g) ∧ t.get (CMD_Q_PTR_TAIL g) = s.get (CMD_Q_PTR_TAIL g) ∧
         t = { s with regs := t.regs, stoppedQ := t.stoppedQ, out := t.out, pwr := t.pwr } ∧
         ∀ b, b ≠ CMD_Q_ERR g → b ≠ CMD_Q_PTR g → t.reg b = s.reg b))

/-- R48, R49: a doorbell. During a pause its tail is latched; to a disabled queue it sets DB_DISABLED; to a quiesced function
it is ignored; a tail of the ring size or more sets BAD_TAIL and the queue goes on with its previous tail; any other becomes
TAIL. -/
def Obligations.DoorbellTakesTheTail : Prop :=
  ∀ (fn q g : Nat) (v : Word32) (s : State), s.bellOk fn = true → s.viewQ (.fn fn) q = some g →
    let t := v.toNat % 65536
    (s.flag TOP_FW_STAT_PAUSE = true →
      ∃ m, exec (.sqTail fn q v) s = .next { s with dbLatch := m } ∧ mget (fun _ => 65536) m g = t ∧
        ∀ k, k ≠ g → mget (fun _ => 65536) m k = mget (fun _ => 65536) s.dbLatch k) ∧
    (s.flag TOP_FW_STAT_PAUSE = false →
      (s.flag (CMD_Q_CFG_ENABLE g) = false → exec (.sqTail fn q v) s = .next (s.put (CMD_Q_ERR_DB_DISABLED g) 1)) ∧
      (s.flag (CMD_Q_CFG_ENABLE g) = true → s.flag (VIRT_FN_W5_QUIESCED (s.qFn g)) = true →
        exec (.sqTail fn q v) s = .next s) ∧
      (s.flag (CMD_Q_CFG_ENABLE g) = true → s.flag (VIRT_FN_W5_QUIESCED (s.qFn g)) = false →
        (2 ^ s.get (CMD_Q_CFG_SIZE_LOG2 g) ≤ t → exec (.sqTail fn q v) s = .next (s.put (CMD_Q_ERR_BAD_TAIL g) 1)) ∧
        (t < 2 ^ s.get (CMD_Q_CFG_SIZE_LOG2 g) →
          let u := s.acceptTail g t
          exec (.sqTail fn q v) s = .next u ∧
          u.get (CMD_Q_PTR_TAIL g) = t ∧ u.get (CMD_Q_PTR_HEAD g) = s.get (CMD_Q_PTR_HEAD g) ∧
          u.get (CMD_Q_PTR_INFLIGHT g) = s.get (CMD_Q_PTR_INFLIGHT g) ∧
          u = { s with regs := u.regs, out := u.out, pwr := u.pwr } ∧ ∀ b, b ≠ CMD_Q_PTR g → u.reg b = s.reg b)))

/-- R630: a head goes to the group of the queue's CQG whatever the queue's state. It is ignored for a disabled group or one of
another function; accepted from HEAD to TAIL in ring order, after which what waited for a slot comes about; any other value
sets BAD_HEAD and leaves HEAD unchanged. -/
def Obligations.HeadIsAcceptedUpToTheTail : Prop :=
  ∀ (fn q i : Nat) (v : Word32) (s : State), s.bellOk fn = true → s.viewQ (.fn fn) q = some i →
    let g := s.get (CMD_Q_CFG_CQG i)
    let h := v.toNat % 65536
    let n := 2 ^ s.get (CMD_CQ_CFG_SIZE_LOG2 g)
    let hd := s.get (CMD_CQ_PTR_HEAD g)
    let tl := s.get (CMD_CQ_PTR_TAIL g)
    (s.flag (CMD_CQ_CFG_ENABLE g) = false ∨ s.get (CMD_CQ_CFG_FUNC g) ≠ s.get (CMD_Q_CFG_FUNC i) →
      exec (.cqHead fn q v) s = .next s) ∧
    (s.flag (CMD_CQ_CFG_ENABLE g) = true → s.get (CMD_CQ_CFG_FUNC g) = s.get (CMD_Q_CFG_FUNC i) →
      (¬ (h < n ∧ ((h : Int) - hd) % n ≤ ((tl : Int) - hd) % n) →
        exec (.cqHead fn q v) s = .next (s.put (CMD_CQ_PTR_BAD_HEAD g) 1)) ∧
      (h < n → ((h : Int) - hd) % n ≤ ((tl : Int) - hd) % n →
        let u := (s.put (CMD_CQ_PTR_HEAD g) h).refreshGroup g
        exec (.cqHead fn q v) s = .next u.settle ∧ u.get (CMD_CQ_PTR_HEAD g) = h ∧
          u.get (CMD_CQ_PTR_TAIL g) = tl ∧ u.get (CMD_CQ_PTR_BAD_HEAD g) = s.get (CMD_CQ_PTR_BAD_HEAD g) ∧
          OnlyRegs [CMD_CQ_PTR g] s u))

/-- R59: enabling a group sets TAIL and HEAD to 0 and PHASE to 1; while it is enabled only the clearing of ENABLE acts, and
not while a record is still owed to it (that a write of ENABLE = 1 to an enabled group does nothing is the model's choice, log
55). R62: COAL_US after the first unsignalled record the group's interrupt is raised and the count of unsignalled records
restarts; before that, or with no time limit or no unsignalled record, nothing happens. -/
def Obligations.GroupsAndCoalescing : Prop :=
  (∀ (rq : Requester) (q g : Nat) (v : Word32) (s : State), s.opensView rq (CMD_CQ_CFG q) = true → s.viewG rq q = some g → g < 1024 →
     let t := s.writeGCfg rq g v.toNat
     exec (.cqGroupEnable rq q v) s = .next t ∧ exec (.cqGroupDisable rq q v) s = .next t ∧
     (s.flag (CMD_CQ_CFG_ENABLE g) = true → bitOf v.toNat 29 = true → t = s) ∧
     (s.flag (CMD_CQ_CFG_ENABLE g) = true → bitOf v.toNat 29 = false →
       (∀ d, d ∈ s.descs → s.get (CMD_Q_CFG_CQG d.q) = g → t = s) ∧
       (s.groupUsed g = false → t.get (CMD_CQ_CFG_ENABLE g) = 0 ∧
         t.get (CMD_CQ_PTR_STALLED g) = 0 ∧ OnlyRegs [CMD_CQ_CFG g, CMD_CQ_PTR g] s t)) ∧
     (s.flag (CMD_CQ_CFG_ENABLE g) = false → bitOf v.toNat 29 = true →
       t.get (CMD_CQ_CFG_ENABLE g) = 1 ∧
         t.get (CMD_CQ_CFG_VECTOR g) = bitsOf v.toNat 5 11 ∧ t.get (CMD_CQ_CFG_COAL_CNT g) = bitsOf v.toNat 16 8 ∧
         t.get (CMD_CQ_CFG_FUNC g) = (if isVf rq = false ∧ s.funcHeld (s.get (CMD_CQ_CFG_FUNC g)) = false then bitsOf v.toNat 24 5
           else s.get (CMD_CQ_CFG_FUNC g)) ∧
         t.get (CMD_CQ_CFG_SIZE_LOG2 g) = (if 4 ≤ bitsOf v.toNat 0 5 ∧ bitsOf v.toNat 0 5 ≤ 16 then bitsOf v.toNat 0 5
           else s.get (CMD_CQ_CFG_SIZE_LOG2 g)) ∧
         t.get (CMD_CQ_PTR_TAIL g) = 0 ∧ t.get (CMD_CQ_PTR_HEAD g) = 0 ∧ t.get (CMD_CQ_PTR_PHASE g) = 1 ∧
         t = { s with regs := t.regs, coal := t.coal } ∧ ∀ b, b ≠ CMD_CQ_CFG g → b ≠ CMD_CQ_PTR g → t.reg b = s.reg b)) ∧
  (∀ (g : Nat) (s : State),
     let x := mget (fun _ => (⟨0, 0⟩ : Coal)) s.coal g
     let us := s.get (CMD_CQ_COAL_COAL_US g)
     (us = 0 ∨ x.cnt = 0 ∨ s.c < x.since + 800 * us → exec (.coalesceTimeout g) s = .next s) ∧
     (us ≠ 0 → x.cnt ≠ 0 → x.since + 800 * us ≤ s.c →
       ∃ m, exec (.coalesceTimeout g) s =
           .next (({ s with coal := m } : State).msix (s.get (CMD_CQ_CFG_FUNC g)) (s.get (CMD_CQ_CFG_VECTOR g))) ∧
         (mget (fun _ => (⟨0, 0⟩ : Coal)) m g).cnt = 0))

/-- R43, R44, R66, R390: the fetch of a queue's next slot, when it is the queue's turn. It copies the 64 bytes at HEAD,
advances HEAD and counts the descriptor in flight; a read that fails leaves HEAD at the slot, ends the descriptor with
FETCH_ERROR and stops the queue; a queue whose turn it is not fetches nothing, and an empty, disabled, stopped or quiesced one
has no turn. What follows by itself then comes about. R74: a wait longer than WAIT_MS ends the descriptor with SEM_TIMEOUT and
its WAIT_IDX, undispatched, its signal to be performed; no wait, no limit, or a wait that is not yet longer: nothing happens.
-/
def Obligations.FetchAndWaitLimit : Prop :=
  (∀ (q : Nat) (s : State),
     (∀ ok, s.nextFetch ≠ some q → exec (.descriptorFetch q ok) s = .next s) ∧
     (s.jobOf SCH_JOB_W0_FQ q = none → (s.fwFor q = false ∨ s.flag (VIRT_FN_W5_FLR_BUSY (s.qFn q)) = true ∨
       s.flag (CMD_Q_CFG_ENABLE q) = false ∨ s.stoppedQ.contains q = true ∨ s.flag (VIRT_FN_W5_QUIESCED (s.qFn q)) = true ∨
       s.get (CMD_Q_PTR_HEAD q) = s.get (CMD_Q_PTR_TAIL q)) → s.nextFetch ≠ some q) ∧
     (s.nextFetch = some q → s.jobOf SCH_JOB_W0_FQ q = none → s.jobOf SCH_JOB_W0_PQ q = none → q < 16384 →
       let hd := s.get (CMD_Q_PTR_HEAD q)
       let bus := s.get (CMD_Q_BASE_ADDR q) * 4096 + 64 * hd
       let n := 2 ^ s.get (CMD_Q_CFG_SIZE_LOG2 q)
       let c := s.countFetch (s.qFn q)
       (s.busOk (s.qFn q) = true →
         let u := c.fetched q hd (s.hostBytes bus 64) none
         exec (.descriptorFetch q true) s = .next u.settle.refreshLtr ∧ ∃ d : Desc,
         u.descs = s.descs ++ [d] ∧ d.q = q ∧ d.idx = hd ∧ d.bytes = s.hostBytes bus 64 ∧ d.phase = .fetched ∧ d.fetchC = s.c ∧
         d.id = s.nextId ∧ u.nextId = s.nextId + 1 ∧ u.get (CMD_Q_PTR_HEAD q) = (hd + 1) % n % 65536 ∧
         u.get (CMD_Q_PTR_TAIL q) = s.get (CMD_Q_PTR_TAIL q) ∧ u.mem = s.mem ∧ u.host = s.host ∧ u.stoppedQ = s.stoppedQ) ∧
       (∀ ok, (ok = false ∨ s.busOk (s.qFn q) = false) →
         let u := c.fetchFailed q hd bus none
         exec (.descriptorFetch q ok) s = .next u.settle.refreshLtr ∧ ∃ d : Desc,
         u.descs = s.descs ++ [d] ∧ d.q = q ∧ d.idx = hd ∧ d.phase = .ended ∧ d.status = 0x15 ∧ d.detail = bus ∧ d.unitId = 0xFF ∧
         d.opc = 0 ∧ d.ctxF = 0 ∧ d.noSignal = true ∧ u.get (CMD_Q_PTR_HEAD q) = hd ∧ u.get (CMD_Q_ERR_FETCH_ERR q) = 1 ∧
         u.get (CMD_Q_ERR_STOP_IDX q) = hd ∧ u.get (CMD_Q_PTR_STATE q) = 3 ∧ u.stoppedQ.contains q = true ∧
         u = { c with descs := u.descs, nextId := u.nextId, seq := u.seq, regs := u.regs, stoppedQ := u.stoppedQ }))) ∧
  (∀ (i : Nat) (d : Desc) (s : State), s.desc? i = some d →
     let ms := s.get (CMD_Q_LIMIT_WAIT_MS d.q)
     (d.phase ≠ .waiting ∨ ms = 0 ∨ s.c ≤ d.waitC + 800000 * ms → exec (.semTimeout i) s = .next s) ∧
     (d.phase = .waiting → ms ≠ 0 → d.waitC + 800000 * ms < s.c →
       let v := (s.declOuts d).1
       let u := v.emitDesc d 36 0x09 0 (waitA (s.semOf d d.waitIdx) d.waitTgt) (v.get (CMD_SEM_COUNT (s.semOf d d.waitIdx)))
       exec (.semTimeout i) s = .next (u.endUndisp i 0x33 d.waitIdx (s.declOuts d).2 true).settle ∧
       (pbRule d.opc = none → s.semOf d d.waitIdx < 4096 → u.get (CMD_SEM_COUNT (s.semOf d d.waitIdx)) = s.get (CMD_SEM_COUNT (s.semOf d d.waitIdx)) ∧
         u.still = s.still)))

/-- R65, R57, R60: the dispatch of a ready descriptor. A malformed one ends with its code and byte, performs no signal and
stops its queue, whose later slots count as not fetched; one whose block cannot be read ends and the queue goes on; one that
its check refuses ends with its code; one that its check passes waits for a record slot and for its engines, and then takes
the islands chosen, with the time of its dispatch and a reserved slot. What a descriptor that ends undispatched, and one that
is dispatched, look like afterwards (R60, R65, R474). -/
def Obligations.DispatchChecksThenPlaces : Prop :=
  (∀ (i : Nat) (d : Desc) (s : State), s.desc? i = some d →
     (s.mayDispatch d = false → exec (.descriptorDispatch i) s = .next s) ∧
     (s.mayDispatch d = true →
       let s1 := (s.verdict d).1
       let g := s.get (CMD_Q_CFG_CQG d.q)
       (∀ c x, (s.verdict d).2 = .stop c x →
         let u := ((s1.endUndisp i c x [] false).unfetch d).stopQueue d.q d.idx (CMD_Q_ERR_MALFORMED d.q)
         (d.job = none ∨ d.program = false → exec (.descriptorDispatch i) s = .next u.settle) ∧
         (∀ j, d.job = some j → d.program = true → exec (.descriptorDispatch i) s =
           .next (u.setJob j { u.job j with stop := (u.job j).next }).settle)) ∧
       (∀ c x, (s.verdict d).2 = .pbRead c x → exec (.descriptorDispatch i) s = .next (s1.endUndisp i c x [] true).settle) ∧
       (∀ c x o, (s.verdict d).2 = .refuse c x o →
         exec (.descriptorDispatch i) s = .next ((s1.refusalLog d c).endUndisp i c x o true).settle) ∧
       ((s.verdict d).2 = .wait → exec (.descriptorDispatch i) s = .next s1.settle) ∧
       (∀ p, (s.verdict d).2 = .go p →
         let full := s1.freeSlots g = 0 ∨ s1.endedOf g ≠ []
         (full → exec (.descriptorDispatch i) s = .next (s1.refreshGroup g).settle) ∧
         (¬ full → s1.unitFull d = true → exec (.descriptorDispatch i) s = .next s1.settle) ∧
         (¬ full → s1.unitFull d = false → s1.choose d p = none → exec (.descriptorDispatch i) s = .next (s1.hold d p).settle) ∧
         (∀ all go, ¬ full → s1.unitFull d = false → s1.choose d p = some (all, go) → exec (.descriptorDispatch i) s =
           .next (if s1.outranked d all p.units then s1 else s1.dispatchOn d p all go).settle)))) ∧
  (∀ (i c x : Nat) (sig : Bool) (d : Desc) (s : State), s.desc? i = some d → d.phase = .ready →
     (∃ e : Desc, (s.endUndisp i c x [] sig).desc? i = some e ∧ e.phase = .ended ∧ e.status = c ∧ e.detail = x ∧ e.unitId = 0xFF ∧
       e.slot = d.slot ∧ e.noSignal = !sig ∧ e.bytes = d.bytes) ∧
     (∀ (p : Plan) (all : List Nat), ∃ e : Desc, (s.dispatchOn d p all []).desc? d.id = some e ∧ e.phase = .dispatched ∧
       e.slot = true ∧ e.dispC = s.c ∧ e.outs = p.outs all ∧ e.isls = all ∧ e.bytes = d.bytes))

/-- R55: the opcodes that Keeper firmware and the safety, capture and debug units execute at once. NOP does nothing; SEM_WRITE
sets COUNT or adds to it; TIMESTAMP writes the Beacon time; DBG_MARK leaves an event. Each then ends its part with its status.
R71: an addition past 0xFFFF_FFFF saturates and sets SATURATED; otherwise COUNT takes the sum. It leaves MODE, and every other
semaphore's register is left as it was when nobody waits on this one. -/
def Obligations.CommonOpcodesAndSemaphores : Prop :=
  (∀ (i : Nat) (d : Desc) (s : State), s.desc? i = some d →
     let done (u : State) (st dt : Nat) : State := (({ u with seq := u.seq + 1 } : State).finishPart i 36 st dt).settle
     let sem := s.semOf d (bitsOf (d.u 16 2) 0 12)
     (d.runnable 0x00 = true → exec (.nop i) s = .next (done s 0 0)) ∧
     (d.runnable 0x01 = true → bitOf (d.u 16 2) 12 = false →
       exec (.semWrite i) s = .next (done ((s.put (CMD_SEM_COUNT sem) (d.u 20 4)).serve sem) 0 0)) ∧
     (d.runnable 0x01 = true → bitOf (d.u 16 2) 12 = true →
       let r := s.descAdd d sem (d.u 20 4) 1
       exec (.semWrite i) s = .next (if r.2 then done r.1 0x02 (bitsOf (d.u 16 2) 0 12) else done r.1 0 0)) ∧
     (d.runnable 0x02 = true → ∀ u, s.writeMem (s.mreq d 36) false 0 d.a16 (leBytes 8 s.beacon) = (u, none) →
       exec (.timestamp i) s = .next (done u 0 0)) ∧
     (d.runnable 0x02 = true → ∀ u c x, s.writeMem (s.mreq d 36) false 0 d.a16 (leBytes 8 s.beacon) = (u, some (.fail c x)) →
       exec (.timestamp i) s = .next (done u c x)) ∧
     (d.runnable 0xE1 = true → exec (.dbgMark i) s = .next (done (s.emitDesc d 36 0x10 0 (d.u 16 4) (d.u 24 8)) 0 0)) ∧
     (d.effected = true → exec (.nop i) s = .next s ∧ exec (.semWrite i) s = .next s ∧ exec (.timestamp i) s = .next s ∧
       exec (.dbgMark i) s = .next s)) ∧
  (∀ (d : Desc) (i n src : Nat) (s : State), i < 4096 → s.waitersOf i = [] →
     s.flag DBG_TRACE_CFG_EN = false → (∀ t, t < 4 → s.flag (DBG_TRIG_W2_EN t) = false) →
     let r := s.descAdd d i n src
     r.1.get (CMD_SEM_COUNT i) = min (s.get (CMD_SEM_COUNT i) + n) 0xFFFFFFFF ∧
     (r.2 = true ↔ 0xFFFFFFFF < s.get (CMD_SEM_COUNT i) + n) ∧
     r.1.get (CMD_SEM_SATURATED i) = (if 0xFFFFFFFF < s.get (CMD_SEM_COUNT i) + n then 1 else s.get (CMD_SEM_SATURATED i)) ∧
     r.1.get (CMD_SEM_MODE i) = s.get (CMD_SEM_MODE i) ∧ ∀ b, b ≠ CMD_SEM i → r.1.reg b = s.reg b)

/-- The engine opcodes act once their engines run them: with clocks, in the state their work leaves, each part ends with the
status its work gives; a failure ends every part that has work to do; a wait for a peer sends only its requests. Work done is
not done again. R64, R350: the end of a part on an island. A running part whose share of the work is done is marked done, with
its order; other parts, and parts without their work done, stay as they are. What follows by itself then comes about. -/
def Obligations.EngineWorkActsOnce : Prop :=
  (∀ (i : Nat) (d : Desc) (s : State), s.desc? i = some d →
     let counted (u : State) : State := if s.secureDesc d then s.keepCounters u else u
     ∀ k ∈ ([(.arrGemm i, 0x20, workArrGemm d), (.arrAccDrain i, 0x21, workArrAccDrain d), (.arrAccClear i, 0x22, workArrAccClear d),
         (.winGroup i, 0x40, workWinGroup d), (.winWinoPrep i, 0x41, prepWork d), (.attRun i, 0x60, workAttRun d),
         (.attMerge i, 0x61, workAttMerge d), (.attKvAppend i, 0x62, appendWork d), (.attTlbInval i, 0x63, workAttTlbInval d),
         (.dmaCopy i, 0x10, workDmaCopy d), (.dmaFill i, 0x11, workDmaFill d), (.dmaClaim i, 0x12, workDmaClaim d),
         (.dmaWload i, 0x13, workDmaWload d), (.gfxTexSwizzle i, 0xA1, workGfxTexSwizzle d),
         (.vecIcacheInval i, 0x81, workVecIcacheInval d)] : List (Instr × Nat × Eng (List PartRes))),
       (d.runnable k.2.1 = true → s.clocked d = true →
         exec k.1 s = .next (match k.2.2.run.run s with
           | (.ok rs, s1) => (counted s1).setResults i rs
           | (.error (.fail c x), s1) => (counted s1).setResults i (d.todo.map (fun a => (a, c, x)))
           | (.error .wait, s1) => s.keepRequests s1)) ∧
       (d.effected = true → exec k.1 s = .next s)) ∧
  (∀ (i isl : Nat) (d : Desc) (s : State), s.desc? i = some d →
     ((d.phase ≠ .dispatched ∨ ∀ p ∈ d.parts, p.isl = isl → p.active = false ∨ p.worked = false) →
       exec (.engineComplete i isl) s = .next s) ∧
     (d.phase = .dispatched → (∃ p ∈ d.parts, p.isl = isl ∧ p.active = true ∧ p.worked = true) →
       let u := ({ s with seq := s.seq + 1 } : State).partDone i isl
       exec (.engineComplete i isl) s = .next u.ddrCheck.settle.refreshLtr ∧
         (4 ≤ isl → u = { s with seq := s.seq + 1, descs := s.descs.map (fun e => if e.id = i then
           { e with parts := e.parts.map (fun p => if p.isl = isl then { p with st := .done, fin := s.seq + 1 } else p) } else e) })))

/-- R225: a DMA_FILL of one row in scratchpad, held by its one channel, that the checks let through writes its pattern over
the row's bytes and no other byte; its codewords keep PART, W and CRIT with CMP 0, and the part ends without an error. -/
def Obligations.FillWritesItsPattern : Prop :=
  ∀ (i : Nat) (p : Part) (d : Desc) (s : State), s.desc? i = some d → d.runnable 0x11 = true → s.clocked d = true →
    s.secureDesc d = false → d.parts = [p] → p.st = .running → p.row = 0 → p.status < 0x10 → d.step = 1 → d.u 36 2 = 1 →
    let a := bitsOf (d.u 16 8) 0 48
    let n := d.u 32 4
    a % 32 = 0 → n % 32 = 0 → 0 < n → a + n ≤ 0x8000000 →
    s.firstRefused (s.mreq d p.isl) true false (cwAddrs a n) = none →
    let t := (s.writeLocal (s.mreq d p.isl) false a 0
      ((List.range (n / 4)).flatMap (fun _ => leBytes 4 (d.u 24 4)))).1.setResults i [(p.isl, 0, 0)]
    exec (.dmaFill i) s = .next t ∧
      (∀ b, t.byte b = if a ≤ b ∧ b < a + n then BitVec.ofNat 8 (d.u 24 4 / 256 ^ ((b - a) % 4)) else s.byte b) ∧
      (∀ c, t.tag c = if a / 32 ≤ c ∧ c < (a + n) / 32 then s.tag c % 512 else s.tag c) ∧
      (∀ e, t.desc? i = some e → e.effected = true ∧ ∀ p ∈ e.parts, p.status = 0)

/-- R204, R227, R228: SPD_BORROW. A RESULT that may not be written ends it with the code of the access; a backing that is not
open, and slots, granules that may be given or reclaimed, or a function's limit that fall short, with BORROW_REFUSED, and
nothing is declared or given; otherwise FREE granules pass at once in order, each to the lowest free slot, and the rest is
reclaimed. SPD_RETURN checks its list whole: one bad entry ends it with its address and frees nothing; else all become FREE.
R205, R207: the end of a spill copies the granule's bytes and tags to its backing, counts them and passes the granule on; the
start of a restore reserves the original granules that are FREE, and its end brings bytes and tags back and lets the context
run when nothing of it is left outside. The copies are whole DRAM requests of the spill engine. R202: a granule that passes to
a context is cleared, takes the context's tag in every codeword and its holder fields; no other byte and no other granule's
register changes. -/
def Obligations.GranulesMoveWhole : Prop :=
  (∀ (i : Nat) (d : Desc) (s : State), s.desc? i = some d →
     let c := s.ctxOf d
     let n := d.count10
     let s1 := s.updDesc i (fun x => { x with step := 1 })
     let done (u : State) (st dt : Nat) : State := (({ u with seq := u.seq + 1 } : State).finishPart i 36 st dt).settle
     let refused (x : Nat) : State := done (s1.updDesc i (fun x => { x with outs := [] })) 0x84 x
     let may := s1.canWrite (s1.mreq d 36) d.a24 (8 * n)
     let slots := s1.freeBorrowSlots c
     let give := min (s1.canGive (s1.get (SCH_CTX_CFG_CRIT c))) s1.freeGrans.length
     let lend := s1.reclaimable (s1.get (SCH_CTX_CFG_CRIT c))
     let short := slots.length < n ∨ give + lend.length < n ∨ s1.overMax c n = true
     (d.runnable 0x14 = true → d.step = 0 →
       (∀ st a, may = some (st, a) → exec (.spdBorrow i) s =
         .next (done (if st = 0x21 ∨ st = 0x22 then s1.refuseAccess (s1.mreq d 36) st a else s1) st a)) ∧
       (may = none → s1.backingOk c = false → exec (.spdBorrow i) s = .next (refused 0)) ∧
       (may = none → s1.backingOk c = true → short →
         exec (.spdBorrow i) s = .next (refused (min slots.length (give + lend.length)))) ∧
       (may = none → s1.backingOk c = true → ¬ short →
         let k := min give n
         let ps := (s1.freeGrans.take k ++ lend.take (n - k)).zip slots
         exec (.spdBorrow i) s = .next (s1.startGrant c (some i) (ps.take k) (ps.drop k)).settle)) ∧
     (d.runnable 0x14 = true → d.step = 1 → (∀ g ∈ s.grants, g.desc = some i → g.victims ≠ []) →
       exec (.spdBorrow i) s = .next s) ∧
     (d.runnable 0x15 = true →
       (∀ u bs, s.readMem (s.mreq d 36) d.a24 (8 * n) = (u, .ok bs) →
         let as := (List.range n).map (fun k => leNat ((bs.drop (8 * k)).take 8))
         let mine (a : Nat) : Prop := a < 0x8000000 ∧ a % 0x40000 = 0 ∧ s.get (SPD_GRAN_STATE (a / 0x40000)) = 2 ∧
           s.get (SPD_GRAN_CTX (a / 0x40000)) = c
         ((∀ a ∈ as, mine a) →
           exec (.spdReturn i) s = .next (done ((as.foldl (fun s a => s.freeGran (a / 0x40000)) u).refreshOcc) 0 0)) ∧
         (∀ pre a post, as = pre ++ a :: post → (∀ b ∈ pre, mine b) → ¬ mine a → exec (.spdReturn i) s = .next (done u 0x85 a))) ∧
       (∀ u st a, s.readMem (s.mreq d 36) d.a24 (8 * n) = (u, .error (.fail st a)) → exec (.spdReturn i) s = .next (done u st a)))) ∧
  (∀ (s : State) (p : Spill), s.ecc = [] → p.gran < 512 → p.ctx < 256 → s.get (SCH_CTX_STAT_STATE p.ctx) = 3 →
     let back := s.backing p.ctx p.slot
     let home := p.gran * 0x40000
     s.addrError back 0x40000 = none → 0x8000000 ≤ back →
     (∀ (x : Grant) (g2 sl sl2 : Nat), s.spills = [p] → p.st = 0 → s.grants = [x] → x.victims = [(p.gran, sl), (g2, sl2)] →
       g2 ≠ p.gran → s.ctxQuiet p.ctx = true →
       let v := ((s.copyCws (s.spillReq p.ctx) home back 0x40000).countDdr true back 0x40000).enqueue (spillBus true back)
       let w : State := { v.bump SPD_CNT_SPILL_BYTES_COUNT 0x40000 with spills := [{ p with st := 1 }] }
       let u : State := { w.giveGran p.gran x.ctx (if x.desc.isSome then 2 else 1) sl with
         grants := [{ x with got := x.got ++ [(p.gran, sl)], victims := [(g2, sl2)] }] }
       exec (.spillComplete p.gran) s = .next u.refreshOcc.settle ∧
         (∀ a, u.byte a = if back ≤ a ∧ a < back + 0x40000 then s.byte (a - back + home)
           else if home ≤ a ∧ a < home + 0x40000 then 0 else s.byte a) ∧
         (∀ k, k < 8192 → u.tag (back / 32 + k) = s.tag (p.gran * 8192 + k)) ∧
         u.get (SPD_GRAN_CTX p.gran) = x.ctx % 256 ∧
         u.get SPD_CNT_SPILL_BYTES_COUNT = min (s.get SPD_CNT_SPILL_BYTES_COUNT + 0x40000) (2 ^ 64 - 1)) ∧
     (s.spills = [p] → p.st = 1 → s.get (SPD_GRAN_STATE p.gran) = 0 →
       let u : State := { s.holdGran p.gran p.ctx 4 p.slot with spills := [{ p with st := 2 }] }
       exec (.granuleRestore p.ctx) s = .next u.refreshOcc ∧ u.get (SPD_GRAN_STATE p.gran) = 4 ∧ u.mem = s.mem ∧ u.tags = s.tags) ∧
     (s.spills = [p] → p.st = 2 →
       let u := s.restoreOne p
       exec (.restoreComplete p.ctx) s = .next ((u.refreshOcc).put (SCH_CTX_STAT_STATE p.ctx) 2).settle ∧
         (∀ a, u.byte a = if home ≤ a ∧ a < home + 0x40000 then s.byte (a - home + back) else s.byte a) ∧
         (∀ k, k < 8192 → u.tag (p.gran * 8192 + k) = s.tag (back / 32 + k)) ∧
         u.get (SPD_GRAN_STATE p.gran) = 2 ∧ u.spills = []) ∧
     (s.spills = [] → exec (.spillComplete p.gran) s = .next s ∧ exec (.granuleRestore p.ctx) s = .next s ∧
       exec (.restoreComplete p.ctx) s = .next s)) ∧
  (∀ (g c st slot : Nat) (s : State), g < 512 → c < 256 → st < 8 → slot < 512 →
     let t := s.giveGran g c st slot
     (∀ a, t.byte a = if g * 0x40000 ≤ a ∧ a < (g + 1) * 0x40000 then 0 else s.byte a) ∧
     (∀ k, t.tag k = if g * 8192 ≤ k ∧ k < (g + 1) * 8192 then s.ctxTag c else s.tag k) ∧
     t.get (SPD_GRAN_STATE g) = st ∧ t.get (SPD_GRAN_CTX g) = c ∧ t.get (SPD_GRAN_SLOT g) = slot ∧
     t.get (SPD_GRAN_PART g) = s.get (SCH_CTX_CFG_PART c) ∧ t.get (SPD_GRAN_CRIT g) = s.get (SCH_CTX_CFG_CRIT c) ∧
     t.get (SPD_GRAN_W g) = (if s.ctxW c then 1 else 0) ∧ ∀ b, b ≠ SPD_GRAN g → t.reg b = s.reg b)

/-- R343, R345: a MOOR command on a free or refused context writes its fields and then moors it or refuses it with the reason
of the first rule broken; the lowest run of FREE granules is taken at once, and where granules must be reclaimed first the
context stays in STATE 1 until they are. On a context in any other state it changes nothing. -/
def Obligations.MoorTakesARunOrGivesTheReason : Prop :=
  ∀ (rq : Requester) (c g : Nat) (v : Word64) (s : State), s.opensView rq (SCH_CTX_CFG c) = true → s.viewC rq c = some g →
    g < 256 → bitsOf v.toNat 45 2 = 1 →
    let st := s.get (SCH_CTX_STAT_STATE g)
    let fields := writeFields (fieldsAt (SCH_CTX_CFG g)) false false (s.reg (SCH_CTX_CFG g)).toNat
      (if isVf rq = true ∨ s.funcHeld (s.get (SCH_CTX_CFG_FUNC g)) = true then putBits v.toNat 0 5 (s.get (SCH_CTX_CFG_FUNC g))
       else v.toNat) mask64
    let u := s.setReg (SCH_CTX_CFG g) (BitVec.ofNat 64 (putBits fields 45 2 0))
    let refused (r : Nat) : Prop := exec (.contextMoor rq c v) s = .next ((u.put (SCH_CTX_STAT_REASON g) r).put (SCH_CTX_STAT_STATE g) 5)
    let n := u.get (SCH_CTX_CFG_GRAN g)
    (st ≠ 0 → st ≠ 5 → exec (.contextMoor rq c v) s = .next s) ∧
    (st = 0 ∨ st = 5 →
      (u.moorBad false g = true → refused 3) ∧
      (u.moorBad false g = false → u.shareShort g = true → refused 2) ∧
      (u.moorBad false g = false → u.shareShort g = false →
        (u.overMax g n = true ∨ u.pickRun (u.get (SCH_CTX_CFG_CRIT g)) n = none → refused 1) ∧
        (∀ b w, u.overMax g n = false → u.pickRun (u.get (SCH_CTX_CFG_CRIT g)) n = some (b, w) →
          let u1 := (u.put (SCH_CTX_STAT_STATE g) 1).put (SCH_CTX_STAT_REASON g) 0
          let run := ((List.range n).map (b + ·)).filterMap (fun k => if w.contains k then none else some (k, 0))
          let t := u1.startGrant g none run (w.map (fun k => (k, 0)))
          exec (.contextMoor rq c v) s = .next t ∧ (w = [] → b + n ≤ 512 → t.get (SCH_CTX_STAT_STATE g) = 2 ∧
            t.get (SCH_CTX_STAT_GRAN_BASE g) = b ∧ t.get (SCH_CTX_STAT_REASON g) = 0 ∧
            (∀ k, k < n → t.get (SPD_GRAN_STATE (b + k)) = 1 ∧ t.get (SPD_GRAN_CTX (b + k)) = g) ∧
            (∀ a, a < 0x8000000 → t.byte a = if b * 0x40000 ≤ a ∧ a < (b + n) * 0x40000 then 0 else s.byte a)))))

/-- R346, R201: a RELEASE command takes a moored context to STATE 4 and remembers which descriptors came before it; a stopped
one also ends what it had fetched; on a context that is neither it changes no more than the fields. The release itself, once
nothing of the context remains and, for a secure context, Lantern lets it go, frees its granules, its vector slots and its
spilled copies, and leaves STATE 0. -/
def Obligations.ReleaseFreesWhatTheContextHolds : Prop :=
  ∀ (s : State) (g : Nat), g < 256 →
    let st := s.get (SCH_CTX_STAT_STATE g)
    (∀ (rq : Requester) (c : Nat) (v : Word64), s.opensView rq (SCH_CTX_CFG c) = true → s.viewC rq c = some g →
      bitsOf v.toNat 45 2 = 2 →
      let u : State := { s.put (SCH_CTX_STAT_STATE g) 4 with relC := mset (fun _ => 0) s.relC g s.nextId }
      let keep := isVf rq = true ∨ s.funcHeld (s.get (SCH_CTX_CFG_FUNC g)) = true
      let v1 := if keep then putBits v.toNat 0 5 (s.get (SCH_CTX_CFG_FUNC g)) else v.toNat
      (st = 1 ∨ st = 4 → exec (.contextRelease rq c v) s = .next s) ∧
      (st = 2 → exec (.contextRelease rq c v) s = .next u ∧ mget (fun _ => 0) u.relC g = s.nextId ∧ u.get (SCH_CTX_STAT_STATE g) = 4) ∧
      (st = 3 →
        let w := (s.spills.filter (fun p => p.ctx == g && p.st == 2)).foldl (fun s p => s.freeGran p.gran) u
        let x : State := { w with spills := w.spills.filter (fun p => !(p.ctx == g && p.st != 0)) }
        exec (.contextRelease rq c v) s = .next ((x.abortCtx g).stopCtx g 4).refreshOcc.settle) ∧
      (st = 0 ∨ st = 5 → exec (.contextRelease rq c v) s = .next (s.setReg (SCH_CTX_CFG g) (BitVec.ofNat 64 (putBits
        (writeFields (fieldsAt (SCH_CTX_CFG g)) false false (s.reg (SCH_CTX_CFG g)).toNat v1 mask64) 45 2 0))))) ∧
    (st ≠ 4 ∨ s.ctxIdle g = false ∨ s.lntLetsGo g = false → exec (.releaseDone g) s = .next s) ∧
    (st = 4 → s.ctxIdle g = true → s.lntLetsGo g = true →
      let t := s.performRelease g
      exec (.releaseDone g) s = .next t ∧ t.get (SCH_CTX_STAT_STATE g) = 0 ∧
      t.get (SCH_CTX_STAT_RX_PEND g) = 0 ∧ t.reg (VEC_CTX_SLOTS g) = 0 ∧ (∀ p ∈ t.spills, p.ctx ≠ g) ∧
      (∀ k, k < 512 → s.get (SPD_GRAN_STATE k) ≠ 0 → s.get (SPD_GRAN_CTX k) = g → t.reg (SPD_GRAN k) = 0) ∧
      (∀ k, k < 512 → s.get (SPD_GRAN_CTX k) ≠ g → t.reg (SPD_GRAN k) = s.reg (SPD_GRAN k)) ∧ t.mem = s.mem ∧ t.descs = s.descs)

/-- R208, R209: entries 0 to 15 are Lantern's; elsewhere the write of word 0 applies the held words 1 and 2 with it. An entry
outside the installed DRAM, with LIMIT below BASE, or of a partition that does not fit stays disabled and sets SPD_RGN_ERR
with its index. -/
def Obligations.RegionEntryAppliesWhole : Prop :=
  ∀ (rq : Requester) (i : Nat) (v : Word64) (s : State), i < 128 →
    (i < 16 → rq ≠ .lantern → isVf rq = false → s.reaches rq = true → s.answers (MEM_RGN_W0 i) = true →
      exec (.memRgnWord0Write rq i v) s = .next (s.secEvent (MEM_RGN_W0 i) rq 0 0x3F)) ∧
    (s.opens rq (MEM_RGN_W0 i) = true → openFields (MEM_RGN_W0 i) = true →
    let w1 := s.heldWord i 1
    let w2 := s.heldWord i 2
    let p := bitsOf v.toNat 5 6
    let fits := s.pageInDram (bitsOf v.toNat 12 36) = true ∧ s.pageInDram (bitsOf w1 12 36) = true ∧
      bitsOf v.toNat 12 36 ≤ bitsOf w1 12 36 ∧ s.get (QOS_PART_EN p) = 1 ∧ s.get (QOS_PART_CRIT p) = bitsOf v.toNat 3 2 ∧
      s.get (QOS_PART_W p) = bitsOf v.toNat 2 1
    let t := s.rgnWord0 i v.toNat
    exec (.memRgnWord0Write rq i v) s = .next t ∧ t.get (MEM_RGN_W0_BASE i) = bitsOf v.toNat 12 36 ∧
      t.get (MEM_RGN_W0_PART i) = p ∧ t.get (MEM_RGN_W0_WR i) = bitsOf v.toNat 1 1 ∧
      t.get (MEM_RGN_W1_LIMIT i) = bitsOf w1 12 36 ∧ t.get (MEM_RGN_W2_SHARE_RD i) = w2 ∧
      OnlyRegs [MEM_RGN_W0 i, MEM_RGN_W1 i, MEM_RGN_W2 i, SPD_RGN_ERR] s t ∧
      (fits → t.get (MEM_RGN_W0_EN i) = bitsOf v.toNat 0 1 ∧ t.reg SPD_RGN_ERR = s.reg SPD_RGN_ERR) ∧
      (¬ fits → t.get (MEM_RGN_W0_EN i) = 0 ∧
        (bitOf v.toNat 0 = true → t.get SPD_RGN_ERR_CFG_ERR = 1 ∧ t.get SPD_RGN_ERR_IDX = i)))

/-- R220, R28: a command-level fault of a DDR4 channel is counted; as many in a row as ATTEMPTS, or more within the window
than the rate allows, retire the channel. An absent channel has no faults. R217, R218, R219: a short ZQ calibration every 128
ms; the refresh state of each present channel follows the hottest of its readings, above 85 °C; the scratchpad scrubber reads
the next codeword, which is written back when it was correctable. -/
def Obligations.DramFaultsAndUpkeep : Prop :=
  (∀ (ch : Nat) (k : DdrFault) (s : State), ch < 8 →
     (s.flag (DDR_CFG_PRESENT ch) = false → exec (.ddrCommandFault ch k) s = .next s) ∧
     (s.flag (DDR_CFG_PRESENT ch) = true →
       let v := if k = .caParity then s.bump (DDR_CNT_CAPAR_COUNT ch) 1 else s
       let w := (v.bump (DDR_CNT_TRANSIENT_COUNT ch) 1).transient (chIsl (24 + ch))
       let u : State := { w with consec := mset (fun _ => 0) s.consec ch (mget (fun _ => 0) s.consec ch + 1) }
       u.get (DDR_CNT_TRANSIENT_COUNT ch) = min (s.get (DDR_CNT_TRANSIENT_COUNT ch) + 1) 0xFFFFFFFF ∧
       u.get (DDR_CNT_CAPAR_COUNT ch) = (if k = .caParity then min (s.get (DDR_CNT_CAPAR_COUNT ch) + 1) 0xFFFFFFFF
         else s.get (DDR_CNT_CAPAR_COUNT ch)) ∧
       mget (fun _ => 0) u.consec ch = mget (fun _ => 0) s.consec ch + 1 ∧
       u = { s with regs := u.regs, consec := u.consec, transients := u.transients } ∧
       exec (.ddrCommandFault ch k) s =
         .next (if s.get SAF_CTL_ATTEMPTS ≤ mget (fun _ => 0) s.consec ch + 1 ∨ u.rateHit (chIsl (24 + ch)) = true
           then u.retireDdr ch else u))) ∧
  (∀ s : State,
     (s.fwRuns = true → s.zqLast + 128 * 800000 ≤ s.c → exec .zqCalibration s = .next { s with zqLast := s.c }) ∧
     (s.c < s.zqLast + 128 * 800000 → exec .zqCalibration s = .next s) ∧
     (s.fwRuns = true → ∀ l, exec (.dramTempPoll l) s = .next ((List.range 8).foldl (fun s ch => s.pollChannel l ch) s)) ∧
     (s.fwRuns = false → exec .zqCalibration s = .next s ∧ ∀ l, exec (.dramTempPoll l) s = .next s) ∧
     (∀ (x y : Nat), s.fwRuns = true → s.flag (DDR_CFG_PRESENT 0) = true → s.get (DDR_CFG_RANKS 0) = 1 →
       s.flag PWR_IRQ_EN = false →
       let t := s.pollChannel [x, y] 0
       exec (.dramTempPoll [x, y]) s = .next t ∧
         t.get (DDR_CFG_HOT 0) = (if 85 < x ∨ 85 < y then 1 else 0) ∧
         t.get PWR_EVT_DRAM_HOT = (if 85 < x ∨ 85 < y then 1 else s.get PWR_EVT_DRAM_HOT) ∧
         OnlyRegs [DDR_CFG 0, DDR_TIM 0, PWR_EVT] s t) ∧
     (s.get SPD_CFG_SCRUB_MS = 0 → exec (.patrolScrub .spd) s = .next s) ∧
     (∀ ch, s.get (DDR_SCRUB_PERIOD_H ch) = 0 ∨ s.flag (DDR_CFG_PRESENT ch) = false → exec (.patrolScrub (.ddr ch)) s = .next s) ∧
     (∀ ch n a, s.dead = false → s.get (DDR_SCRUB_PERIOD_H ch) ≠ 0 → s.flag (DDR_CFG_PRESENT ch) = true →
       s.nextLocal ch (mget (fun _ => 0) s.scrub (1 + ch)) = some n → s.localAddr ch n = some a →
       let u := s.scrubAt (24 + ch) a
       exec (.patrolScrub (.ddr ch)) s = .next ({ u with scrub := mset (fun _ => 0) u.scrub (1 + ch) (n + 1) } : State).ddrCheck ∧
         (s.eccAt (a / 32) = none → u = s)) ∧
     (s.dead = false → s.get SPD_CFG_SCRUB_MS ≠ 0 →
       let n := mget (fun _ => 0) s.scrub 0
       let u := s.scrubAt (8 + (spdBank (32 * n)).1) (32 * n)
       let t : State := { u with scrub := mset (fun _ => 0) u.scrub 0 ((n + 1) % 4194304) }
       exec (.patrolScrub .spd) s = .next t ∧ mget (fun _ => 0) t.scrub 0 = (n + 1) % 4194304 ∧
       (s.eccAt n = none → u = s) ∧
       (∀ e, s.eccAt n = some e → e.bits ≤ 2 → e.misdir = false → n < 4194304 → t.eccAt n = none ∧ t.tag n = s.tag n ∧ t.mem = s.mem ∧
         t.get SPD_CNT_CORR_COUNT = min (s.get SPD_CNT_CORR_COUNT + 1) (2 ^ SPD_CNT_CORR_COUNT.w - 1))))

/-- R354, R356: a window that opens while its conditions hold leaves its event and stops the work that it does not admit; a
display window that opens is open from then on and wakes its engines; a window whose conditions do not hold does nothing.
R352, R375: an engine reaches its stop point. A descriptor's part that was asked to stop is stopped, or done when the
descriptor is ending, with its event; with nothing to stop, and while requests of the descriptor are held at the engine's
ports, only a waiting golden test can start. R358, R373: the data of a deferred read goes to its place in the receive area
with the link's tags, or is marked with the link's status where its receive failed, and is pending no longer; a context
without such data has nothing to land. A regulation window that has not ended does nothing; at its end no bandwidth counts as
used but what was held back for it, and the set in force is the active one. -/
def Obligations.WindowsAndStopPoints : Prop :=
  (∀ (e w n : Nat) (s : State),
     let pos := s.framePos s.beacon
     let a := s.getA (SCH_WIN_START_US e w) * 1000
     let len := s.getA (SCH_WIN_LEN_US e w)
     let runs := s.flagA SCH_CFG_TP_EN = true ∧ s.flagA (SCH_WIN_EN e w) = true ∧ a ≤ pos ∧ pos < a + len * 1000 ∧ s.fwRuns = true
     let v := s.emitWindow e (s.getA (SCH_WIN_PART e w)) len false
     let below (k : Nat) : Bool := bitOf (v.getA (SCH_DWIN_ENG k)) e &&
       decide (v.get (QOS_PART_CRIT (v.getA (SCH_DWIN_PART k))) < v.get (QOS_PART_CRIT (s.getA (SCH_WIN_PART e w))))
     (¬ runs → exec (.windowOpen e w) s = .next s) ∧
     (runs →
       (s.dwins = [] → exec (.windowOpen e w) s = .next (v.stopWhere e 0 (fun d => !v.admits e d)).settle) ∧
       (∀ k, s.dwins = [k] →
         let u := if below k then v.denyWin k e else v
         exec (.windowOpen e w) s = .next (u.stopWhere e 0 (fun d => !u.admits e d)).settle)) ∧
     (let shows := s.flagA SCH_CFG_TP_EN = true ∧ s.flagA (SCH_DWIN_EN n) = true ∧ s.flagA (DISP_TIM_CLK_ENABLE n) = true ∧
         s.isRetired (chDisp n) = false ∧
         s.periodAbove n (s.getA (SCH_DWIN_LEN_US n)) = true ∧ s.dwins.contains n = false ∧ s.fwRuns = true
      let engs := maskBits 8 (s.getA (SCH_DWIN_ENG n))
      let v : State := { s with dwins := sortBy (fun a b => decide (a ≤ b)) (s.dwins ++ [n]) }
      (¬ shows → exec (.displayWindowOpen n) s = .next s) ∧
      (shows → n ∈ v.dwins ∧ (∀ m, m ∈ s.dwins → m ∈ v.dwins) ∧
        (engs = [] → exec (.displayWindowOpen n) s = .next v.settle) ∧
        (∀ k, engs = [k] →
          let u := v.wakeIsls [k]
          (u.winOn k = some (s.getA (SCH_DWIN_PART n), true, true) →
            let x := u.emitWindow k (s.getA (SCH_DWIN_PART n)) (s.getA (SCH_DWIN_LEN_US n)) true
            exec (.displayWindowOpen n) s = .next (x.stopWhere k 2 (fun d => !x.admits k d)).settle) ∧
          (∀ q sl, u.winOn k = some (q, sl, false) → exec (.displayWindowOpen n) s = .next (u.denyWin n k).settle))))) ∧
  (∀ (e : Nat) (d : Desc) (p : Part) (s : State),
     ((∀ x ∈ s.descs, x.phase = .dispatched → (∃ q ∈ x.parts, q.isl = e ∧ q.st = .stopping) → s.portHeld x e = true ∨ s.rxPlaces x = none) →
       exec (.engineStopDone e) s = .next (s.goldStart e)) ∧
     (s.descs = [d] → d.phase = .dispatched → d.parts = [p] → p.isl = e → p.st = .stopping → s.readsOut d = [] →
       s.portHeld d e = false →
       let v := (({ s with seq := s.seq + 1 } : State).countBusy d p)
       let w : State := { v with descs := [{ d with parts :=
         [{ p with st := if d.ending.isSome then .done else .stopped, fin := s.seq + 1 }] }] }
       let x := w.emitDesc d e 0x03 0 p.stopCause (w.sinceNs p.stopC)
       exec (.engineStopDone e) s = .next ((if x.secureDesc d then x.worldReturn e else x).goldStart e).settle ∧
         x.mem = s.mem ∧ x.tags = s.tags ∧ x.descs = w.descs)) ∧
  (∀ (c : Nat) (ok : Bool) (s : State),
     ((∀ x ∈ s.peerData, x.land = true → s.rxMine c x = false) → exec (.deferredReceiveLand c ok) s = .next s) ∧
     (∀ x, s.peerData.find? (fun x => x.land && s.rxMine c x) = some x →
       let w := s.writeCmps ⟨s.get (SCH_CTX_CFG_PART c), s.ctxW c, 34, c, none⟩ (x.rx.getD 0) x.data (runsOf x.cmps)
       let t : State := { w with peerData := w.peerData.map (fun y => if y = x then { y with land := false, err := none } else y) }
       let v : State := { s with peerData := s.peerData.map (fun y => if y = x then { y with land := false, err := some (0xC1, x.dev) } else y) }
       let u := v.lnkFail 0xC1 ((v.prefPort x.dev x.addr).getD 0) x.dev
       exec (.deferredReceiveLand c true) s = .next (t.rxLanded x.desc).settle ∧
       exec (.deferredReceiveLand c false) s = .next (u.rxLanded x.desc).settle ∧ u.mem = s.mem ∧ u.peerData = v.peerData ∧
       u.get LNK_ERR_LOG0_STATUS = 0xC1 ∧ u.get LNK_ERR_LOG0_DEV = x.dev % 64) ∧
     (s.dead = true ∨ s.qosIndex s.beacon = s.qosWin → exec .regulationWindow s = .next s) ∧
     (s.dead = false → s.qosIndex s.beacon ≠ s.qosWin →
       let t := s.newWindow
       exec .regulationWindow s = .next t ∧ (s.qosHeld = [] → t.qosUsed = [] ∧ t.qosHold = [] ∧ t.ddrSpill = [] ∧
         t.qosLive = s.active.filter (fun e => 0xC00000 ≤ e.1 && e.1 < 0xC04000) ∧ t.qosWin = t.qosIndex s.beacon ∧
         t.mem = s.mem ∧ t.descs = s.descs)))

/-- R361, R362: the deadline monitor at a multiple of DL_CHECK_US after the opening. With the prediction at or before the
deadline, or a miss already counted, nothing changes but the checks made and what follows by itself; after it the run switches
to a fallback that is predicted shorter, and with none its miss is counted once. -/
def Obligations.MonitorComparesPredictionWithDeadline : Prop :=
  ∀ (j : Nat) (s : State),
    let v := s.setJob j { s.job j with checks := s.checksDue j }
    let due := s.fwRuns = true ∧ s.get (SCH_JOB_W3_STATE j) = 1 ∧ (s.job j).checks < s.checksDue j
    (¬ due → exec (.deadlineCheck j) s = .next s) ∧
    (due → (s.job j).dl = none → exec (.deadlineCheck j) s = .next v.settle) ∧
    (∀ dl, due → j < 256 → (s.job j).dl = some dl → s.get (SCH_JOB_W3_DONE j) ≤ s.get (SCH_JOB_W0_N_M1 j) →
      let n : Rat := s.get (SCH_JOB_W0_N_M1 j) + 1
      let done : Rat := s.get (SCH_JOB_W3_DONE j)
      let margin : Rat := (100 + s.get (SCH_JOB_W2_MARGIN_PCT j)) / 100
      let a : Rat := s.get (SCH_JOB_W3_EST_NOW_US j) * 1000 * (n - done) / n
      let b : Rat := if done = 0 then 0 else 5 / 4 * (s.c - (s.job j).c0) * (n - done) / done
      let rest : Rat := max a b * margin
      let late := (dl : Rat) / 4 < 5 / 4 * s.c + rest
      let shorter := s.flag (SCH_JOB_W2_FB_EN j) = true ∧ s.get (SCH_JOB_W1_FEST_US j) * 1000 * margin < rest
      (¬ late → exec (.deadlineCheck j) s = .next v.settle) ∧
      (late → shorter → exec (.deadlineCheck j) s =
        .next (v.switchJob j (Rat.floor ((5 / 4 * s.c + rest - (dl : Rat) / 4) / 1000)).toNat).settle) ∧
      (late → ¬ shorter → (s.job j).missed = true → exec (.deadlineCheck j) s = .next v.settle) ∧
      (late → ¬ shorter → (s.job j).missed = false →
        let u := (v.setJob j { v.job j with missed := true }).bump SCH_CNT_PRED_MISS_COUNT 1
        exec (.deadlineCheck j) s = .next u.settle ∧ (u.job j).missed = true ∧ (u.job j).checks = s.checksDue j ∧
        u.get SCH_CNT_PRED_MISS_COUNT = min (s.get SCH_CNT_PRED_MISS_COUNT + 1) 0xFFFFFFFF ∧
        u = { s with regs := u.regs, jobs := u.jobs } ∧ ∀ k, k ≠ SCH_CNT_PRED_MISS → u.reg k = s.reg k))

/-- R388: VF Enable checks every VF from 1 to NumVFs. Where none fails, each gets the FUNC field of its queues, groups,
semaphores and contexts and CFG_ERR = 0; a VF that fails has CFG_ERR = 1. A number above 31 changes nothing. R402, R403: SWAP
makes the other dirty bitmap active and sets SWAP_BUSY, unless a swap is going on; its end writes the old bitmap's lines to
host memory, counts them, and clears SWAP_BUSY. -/
def Obligations.VfEnableAndDirtyBitmaps : Prop :=
  (∀ (num : Nat) (s : State), s.dead = false → s.pcie.linkUp = true → s.pcie.vfEnable = false → s.flrGone = [] →
     (31 < num ∨ num = 0 → exec (.vfEnable num) s = .next s) ∧
     (num ≤ 31 → 0 < num →
       let vs := (List.range (num + 1)).filter (· != 0)
       let bad := vs.filter (s.vfBad num)
       let v := vs.foldl (fun s x => s.put (VIRT_FN_W5_CFG_ERR x) (b2n (bad.contains x))) s
       let w : State := { v.put VIRT_CFG_NUM_VF num with pcie := { s.pcie with vfEnable := true, numVf := num } }
       let u := vs.foldl (fun s x => (if bad.contains x then s else s.giveFunc x x).refreshInfo x) w
       let t := if bad.isEmpty then u else u.pfEvt
       exec (.vfEnable num) s = .next t ∧ t.pcie.vfEnable = true ∧ t.pcie.numVf = num ∧
       t.get VIRT_CFG_NUM_VF = num ∧
       (∀ v, 0 < v → v ≤ num → t.get (VIRT_FN_W5_CFG_ERR v) = if s.vfBad num v then 1 else 0) ∧
       ((∀ v, 0 < v → v ≤ num → s.vfBad num v = false) → ∀ v, 0 < v → v ≤ num →
         (∀ k, k < s.get (VIRT_FN_W0_QCNT v) → t.get (CMD_Q_CFG_FUNC (s.get (VIRT_FN_W0_QBASE v) + k)) = v) ∧
         (∀ k, k < s.get (VIRT_FN_W0_CQCNT v) → t.get (CMD_CQ_CFG_FUNC (s.get (VIRT_FN_W0_CQBASE v) + k)) = v) ∧
         (∀ k, k < s.get (VIRT_FN_W1_SEMCNT v) → t.get (CMD_SEM_FUNC (s.get (VIRT_FN_W1_SEMBASE v) + k)) = v) ∧
         (∀ k, k < s.get (VIRT_FN_W1_CTXCNT v) → t.get (SCH_CTX_CFG_FUNC (s.get (VIRT_FN_W1_CTXBASE v) + k)) = v)))) ∧
  (∀ (rq : Requester) (fn : Nat) (s : State), fn < 32 → s.opens rq (VIRT_FN_W6 fn) = true → openFields (VIRT_FN_W6 fn) = true →
     (s.flag (VIRT_FN_W6_SWAP_BUSY fn) = true → exec (.dirtySwap rq fn) s = .next s) ∧
     (s.flag (VIRT_FN_W6_SWAP_BUSY fn) = false → exec (.swapDone fn) s = .next s ∧
       let t := (s.put (VIRT_FN_W6_ACTIVE fn) (1 - s.get (VIRT_FN_W6_ACTIVE fn))).put (VIRT_FN_W6_SWAP_BUSY fn) 1
       exec (.dirtySwap rq fn) s = .next t ∧ t.get (VIRT_FN_W6_ACTIVE fn) = 1 - s.get (VIRT_FN_W6_ACTIVE fn) ∧
         t.get (VIRT_FN_W6_SWAP_BUSY fn) = 1 ∧ t.get (VIRT_FN_W6_DIRTY_EN fn) = s.get (VIRT_FN_W6_DIRTY_EN fn) ∧
         OnlyRegs [VIRT_FN_W6 fn] s t) ∧
     (s.flag (VIRT_FN_W6_SWAP_BUSY fn) = true →
       let old := s.dirty.filter (fun l => l.fn == fn && l.bmap != s.get (VIRT_FN_W6_ACTIVE fn))
       let v := s.bump (VIRT_FN_W10_COUNT fn) old.length
       let w : State := { v with host := old.foldl writeLine v.host, dirty := v.dirty.filter (fun l => !old.contains l) }
       let t := w.put (VIRT_FN_W6_SWAP_BUSY fn) 0
       exec (.swapDone fn) s = .next t ∧
       t.get (VIRT_FN_W6_SWAP_BUSY fn) = 0 ∧ t.get (VIRT_FN_W6_ACTIVE fn) = s.get (VIRT_FN_W6_ACTIVE fn) ∧
       (∀ l ∈ t.dirty, l.fn = fn → l.bmap = s.get (VIRT_FN_W6_ACTIVE fn)) ∧ (∀ l ∈ s.dirty, l.fn ≠ fn → l ∈ t.dirty) ∧
       t.host = (s.dirty.filter (fun l => l.fn == fn && l.bmap != s.get (VIRT_FN_W6_ACTIVE fn))).foldl writeLine s.host))

/-- R395: a heartbeat of a function that is not quiesced arms it, to expire HB_MS ms later, or disarms it where HB_MS = 0; one
at or after the expiry instant is too late; a quiesced function's sets HB_LATE and nothing more. R396, R397: on expiry, or on
QUIESCE, the function is quiesced: QUIESCED is set in its status and FN_EVT, and no descriptor of it changes; RESUME lifts a
quiesce and sets RESUMED. A second QUIESCE, a RESUME without a quiesce and an expiry whose instant has not come do nothing. -/
def Obligations.HeartbeatsAndQuiesce : Prop :=
  (∀ (fn : Nat) (v : Word32) (s : State), fn < 32 → s.bellOk fn = true → s.answers (FN_HB 0) = true →
     let ms := s.get (VIRT_FN_W3_HB_MS fn)
     let due := mget (fun _ => 0) s.hbDue fn
     (s.flag (VIRT_FN_W5_QUIESCED fn) = true → exec (.fnHb fn v) s = .next (s.put (VIRT_FN_W5_HB_LATE fn) 1)) ∧
     (s.flag (VIRT_FN_W5_QUIESCED fn) = false → due ≠ 0 → due ≤ s.c → exec (.fnHb fn v) s = .next s) ∧
     (s.flag (VIRT_FN_W5_QUIESCED fn) = false → (due = 0 ∨ s.c < due) →
       let x : State := { s.put (VIRT_FN_W5_ARMED fn) (if ms = 0 then 0 else 1) with
         hbDue := mset (fun _ => 0) s.hbDue fn (if ms = 0 then 0 else s.c + 800000 * ms) }
       let t := x.refreshFn fn
       exec (.fnHb fn v) s = .next t ∧
       t.get (VIRT_FN_W5_ARMED fn) = (if ms = 0 then 0 else 1) ∧ t.get (FN_STATE_ARMED fn) = t.get (VIRT_FN_W5_ARMED fn) ∧
       mget (fun _ => 0) t.hbDue fn = (if ms = 0 then 0 else s.c + 800000 * ms) ∧
       (∀ f, f ≠ fn → mget (fun _ => 0) t.hbDue f = mget (fun _ => 0) s.hbDue f) ∧
       t = { s with regs := t.regs, hbDue := t.hbDue } ∧ ∀ b, b ≠ VIRT_FN_W5 fn → b ≠ FN_STATE fn → t.reg b = s.reg b)) ∧
  (∀ (fn : Nat) (s : State), fn < 32 → fn ≠ 0 →
     let quiesced (t : State) : Prop := t.get (VIRT_FN_W5_QUIESCED fn) = 1 ∧ t.get (FN_STATE_QUIESCED fn) = 1 ∧
       t.get ⟨FN_EVT fn, 0, 1⟩ = 1 ∧ t.descs = s.descs ∧ t.mem = s.mem ∧ t.stoppedQ = s.stoppedQ
     let idle := s.flag (VIRT_FN_W5_QUIESCED fn) = false ∧ s.flag (VIRT_FN_W5_FLR_BUSY fn) = false
     (∀ rq, s.opens rq (VIRT_FN_W4 fn) = true → openFields (VIRT_FN_W4 fn) = true →
       (idle → exec (.quiesce rq fn) s = .next (s.quiesce fn) ∧ quiesced (s.quiesce fn) ∧ (s.quiesce fn).hbDue = s.hbDue) ∧
       (¬ idle → exec (.quiesce rq fn) s = .next s) ∧
       (s.flag (VIRT_FN_W5_QUIESCED fn) = false → exec (.vfResume rq fn) s = .next s.refreshLtr) ∧
       (s.flag (VIRT_FN_W5_QUIESCED fn) = true → let t := (s.resume fn).refreshLtr
         exec (.vfResume rq fn) s = .next t ∧ t.get (VIRT_FN_W5_QUIESCED fn) = 0 ∧ t.get (FN_STATE_QUIESCED fn) = 0 ∧ t.get ⟨FN_EVT fn, 1, 1⟩ = 1 ∧ t.descs = s.descs)) ∧
     (let due := mget (fun _ => 0) s.hbDue fn
      (due = 0 ∨ s.c < due → exec (.heartbeatExpiry fn) s = .next s) ∧
      (due ≠ 0 → due ≤ s.c → idle →
        let v : State := { s with hbDue := mset (fun _ => 0) s.hbDue fn 0 }
        let t := v.quiesce fn
        exec (.heartbeatExpiry fn) s = .next t ∧ quiesced t ∧
        mget (fun _ => 0) t.hbDue fn = 0)))

/-- R398, R399: a function-level reset of a VF begins by setting FLR_BUSY and clearing a quiesce; of its descriptors only
dispatched ones stay, to end without a record; after 80 ms those still running are squashed; with none left the reset ends:
FLR_BUSY clears, the heartbeat is disarmed and FN_EVT is cleared. R400: a reset of the PF clears VF Enable and NumVFs, begins
the reset of every VF and of the PF itself with SQUASH, and frees the bridge semaphores that the host holds. -/
def Obligations.ResetsOfFunctions : Prop :=
  (∀ (fn : Nat) (s : State), 0 < fn → fn < 32 →
     (s.reaches (.fn fn) = false → exec (.flr fn) s = .next s) ∧
     (s.reaches (.fn fn) = true → s.flag (VIRT_FN_W5_FLR_BUSY fn) = false →
       let u := s.beginFlr fn (s.flag (VIRT_FN_W3_FLR_MODE fn))
       exec (.flr fn) s = .next u.settle ∧
       u.get (VIRT_FN_W5_FLR_BUSY fn) = 1 ∧ u.get (VIRT_FN_W5_QUIESCED fn) = 0 ∧ u.get (FN_STATE_FLR_BUSY fn) = 1 ∧
       (∀ d ∈ u.descs, s.qFn d.q = fn → d.phase = .dispatched ∧ d.squashed = true ∧ d.noSignal = true) ∧
       (u.flrSq.contains fn = true ↔ s.flag (VIRT_FN_W3_FLR_MODE fn) = true ∨ s.flrSq.contains fn = true)) ∧
     (let c0 := mget (fun _ => 0) s.flrC fn
      (s.flag (VIRT_FN_W5_FLR_BUSY fn) = false ∨ s.flrSq.contains fn = true ∨ s.c + 1 < c0 + 80 * 800000 →
        exec (.flrDrainTimeout fn) s = .next s) ∧
      (s.flag (VIRT_FN_W5_FLR_BUSY fn) = true → s.flrSq.contains fn = false → c0 + 80 * 800000 ≤ s.c + 1 →
        exec (.flrDrainTimeout fn) s = .next (({ s with flrSq := s.flrSq ++ [fn] } : State).squashFn fn).settle)) ∧
     (let ended := s.flag (VIRT_FN_W5_FLR_BUSY fn) = true ∧ (∀ d ∈ s.descs, s.qFn d.q ≠ fn) ∧ (s.fnCtxs fn).all s.ctxIdle = true
      (¬ ended → exec (.flrComplete fn) s = .next s) ∧
      (ended → let u := s.finishFlr fn
        exec (.flrComplete fn) s = .next u.settle ∧
        u.get (VIRT_FN_W5_FLR_BUSY fn) = 0 ∧ u.get (VIRT_FN_W5_ARMED fn) = 0 ∧ u.reg (FN_EVT fn) = 0 ∧
        mget (fun _ => 0) u.hbDue fn = 0))) ∧
  (∀ s : State,
     (s.reaches (.fn 0) = false → exec .pfFlr s = .next s) ∧
     (s.reaches (.fn 0) = true → s.flag (VIRT_FN_W5_FLR_BUSY 0) = false → s.pcie.numVf = 0 → s.descs = [] →
       let u := s.resetPf
       exec .pfFlr s = .next u.settle ∧ u.pcie.vfEnable = false ∧ u.pcie.numVf = 0 ∧
         u.get (VIRT_FN_W5_FLR_BUSY 0) = 1 ∧ u.flrSq.contains 0 = true ∧ u.flrGone.contains 0 = true ∧
         ∀ n, n < 16 → s.get (WBR_SEM_HOLDER n) = 1 → u.get (WBR_SEM_HOLDER n) = 0) ∧
     (s.flag (VIRT_FN_W5_FLR_BUSY 0) = true → (∀ d ∈ s.descs, s.qFn d.q ≠ 0) → (s.fnCtxs 0).all s.ctxIdle = true →
       (∀ f ∈ s.flrGone, f = 0) →
       let u := s.finishFlr 0
       exec (.flrComplete 0) s = .next ((if u.flrGone.contains 0 then u.clearVirt else u).refreshOcc).settle))

/-- R322 to R324, R335, R389: a flip. It completes at once with DISP_OUTPUT_OFF where the output is off, with
DISP_PLANE_DENIED where it changes plane 7 for a partition other than SAFE_PART or a plane its function does not hold; else
the engine holds it. At the latch instant its records govern the next frame unless its part stands stopped, at the vertical
blank it completes and the old buffers are scanned no more, at the frame start the latched planes are the ones scanned. A
latch instant with a flip fetched and not dispatched counts a held frame. R320, R321, R325, R326, R336: scan-out and its
checks. Each line of a frame has the active width, and shows BG where no enabled plane covers it, FILL where data is missing
or poisoned. At the end of a region its CRC is learned or compared: a mismatch sets the region's bit and counts, and
CRC_FAIL_FRAMES in a row raise the safety event. DISP_SAFETY replaces the regions from the next frame start. -/
def Obligations.FlipsAndScanOut : Prop :=
  (∀ (n : Nat) (s : State), n < 4 →
     (∀ (i : Nat) (d : Desc) (pb : List Byte) (s1 : State), s.desc? i = some d → d.runnable 0xB0 = true →
       (ePb d).run.run s = (.ok pb, s1) → bitsOf (u pb 0 4) 0 2 = n →
       let m := bitsOf (u pb 0 4) 2 8
       let denied := (bitOf m 7 = true ∧ s1.descPart d ≠ s1.get (DISP_CFG_SAFE_PART n)) ∨ Nat.land m (s1.planesOf d n) ≠ m
       (s1.dispOn n = false → exec (.dispFlip i) s = .next (s1.dispEnd i 0xB0 n).settle) ∧
       (s1.dispOn n = true → denied → exec (.dispFlip i) s = .next (s1.dispEnd i 0xB1 n).settle) ∧
       (s1.dispOn n = true → ¬ denied →
         let t := (s1.setDisp n { s1.disp n with held := some i, pb := pb }).taken i
         exec (.dispFlip i) s = .next t ∧
         t.disp n = { s1.disp n with held := some i, pb := pb } ∧ t.regs = s1.regs ∧ t.mem = s1.mem ∧
         ∀ e ∈ t.descs, e.id = i → e.effected = true)) ∧
     (s.dispOn n = false → exec (.latchInstant n) s = .next s ∧ exec (.frameStart n) s = .next s) ∧
     (s.dispOn n = true →
       let v : State := { s with dwins := s.dwins.filter (· != n), denied := s.denied.filter (fun p => p.1 != n) }
       (∀ j y, (s.disp n).held = some j → s.desc? j = some y → (∃ p ∈ y.parts, p.active = true) →
         let fl := flipPlanes (s.disp n).pb (s.descPart y) (s.ctxW (s.ctxOf y)) (s.ctxOf y) (s.disp n).next
         exec (.latchInstant n) s = .next (v.setDisp n { s.disp n with held := none, taken := some j, next := fl }).settle) ∧
       (∀ j y, (s.disp n).held = some j → s.desc? j = some y → (∀ p ∈ y.parts, p.active = false) →
         exec (.latchInstant n) s = .next v.settle) ∧
       ((s.disp n).held = none → exec (.latchInstant n) s =
         .next (if s.descs.any (fun y => y.opc == 0xB0 && (y.phase == .fetched || y.phase == .waiting || y.phase == .ready) &&
           s.flipEng y == n) then v.dbump n (DISP_CNT_HELD_COUNT n) 1 else v).settle)) ∧
     (let v := s.setDisp n { s.disp n with taken := none, planes := (s.disp n).next, scanning := false }
      ((s.disp n).taken = none → exec (.vblankStart n) s = .next v) ∧
      (∀ j, (s.disp n).taken = some j → exec (.vblankStart n) s = .next (v.dispEnd j 0 0).settle)) ∧
     (s.dispOn n = true →
       let x := s.disp n
       let rs := if x.nextRegions = [] then x.regions else x.nextRegions
       let v := if x.nextRegions = [] then s else
         ((List.range 16).zip rs).foldl (fun s p => s.put (DISP_CRC_VAL_EXPECT n p.1) p.2.expect) s
       let y : DispSt := { x with planes := x.next, regions := rs.map (fun r => { r with crc := 0xFFFFFFFF }), nextRegions := [] }
       let w := v.setDisp n { y with row := 0, scanning := true }
       let t := w.put (DISP_STAT_FRAME n) (w.get (DISP_STAT_FRAME n) + 1)
       exec (.frameStart n) s = .next t ∧ t.disps = w.disps ∧
         t.get (DISP_STAT_FRAME n) = (s.get (DISP_STAT_FRAME n) + 1) % 2 ^ 32)) ∧
  (∀ (n : Nat) (s : State), n < 4 →
     let x := s.disp n
     let ten := s.flagA (DISP_TIM_CLK_BPC n)
     let bg := colour12 ten (s.get (DISP_COLOUR_BG n))
     let fill := colour12 ten (s.get (DISP_COLOUR_FILL n))
     let shown (v : State) (line : List Nat) : State :=
       v.setDisp n { x with row := x.row + 1, line := line, regions := x.regions.map (fun r => r.line x.row line) }
     (s.dispOn n = false ∨ x.scanning = false ∨ s.getA (DISP_TIM_V_VACT n) ≤ x.row → exec (.scanOutLine n) s = .next s) ∧
     (s.dispOn n = true → x.scanning = true → x.row < s.getA (DISP_TIM_V_VACT n) →
       (x.planes.filterMap id = [] →
         exec (.scanOutLine n) s = .next (shown s (List.replicate (s.getA (DISP_TIM_H_HACT n)) (packOut ten bg)))) ∧
       (∀ r v line bad miss, x.planes.filterMap id = [r] →
         s.overPlane r fill x.row (List.replicate (s.getA (DISP_TIM_H_HACT n)) bg) = (v, line, bad, miss) →
         let w := if bad = [] then v else (v.dbump n (DISP_CNT_POISON_COUNT n) bad.length).put (DISP_STAT_POISON n) 1
         let w' := if miss.isSome then w.dbump n (DISP_CNT_UNDERFLOW_COUNT n) 1 else w
         exec (.scanOutLine n) s = .next (shown w' ((fillFrom fill line miss).map (packOut ten)))) ∧
       (∃ t : State, exec (.scanOutLine n) s = .next t ∧ (t.disp n).row = x.row + 1 ∧
         (t.disp n).line.length = s.getA (DISP_TIM_H_HACT n) ∧ (t.disp n).planes = x.planes)) ∧
     (∀ (r : Nat) (g : Region), x.regions[r]? = some g →
       let done := s.dispOn n = true ∧ g.en = true ∧ g.y1 < x.row ∧ g.crc < 2 ^ 32
       let val := 0xFFFFFFFF - g.crc
       let exp := if g.learn then val else g.expect
       let fails := if val = exp then 0 else g.fails + 1
       let v := (s.put (DISP_CRC_VAL_VAL n r) val).put (DISP_CRC_VAL_EXPECT n r) exp
       let due := v.get (DISP_CFG_CRC_FAIL_FRAMES n) ≤ fails
       let h : Region := { g with expect := exp, learn := false, crc := 2 ^ 32, fails := if due then 0 else fails }
       let w := v.setDisp n { x with regions := x.regions.set r h }
       let u := (w.put ⟨DISP_CRC_STAT n, r, 1⟩ 1).dbump n (DISP_CNT_CRC_FAIL_COUNT n) 1
       (¬ done → exec (.regionCrcCheck n r) s = .next s) ∧
       (done → val = exp → exec (.regionCrcCheck n r) s = .next w) ∧
       (done → val ≠ exp → exec (.regionCrcCheck n r) s = .next (if due then u.safety 10 32 (n + 16 * r) false else u)) ∧
       (r < 16 → u.get (DISP_CRC_VAL_VAL n r) = val ∧ u.get (DISP_CRC_VAL_EXPECT n r) = exp % 2 ^ 32 ∧ u.get ⟨DISP_CRC_STAT n, r, 1⟩ = 1)) ∧
     (∀ (i : Nat) (d : Desc) (pb : List Byte) (s1 : State), s.desc? i = some d → d.runnable 0xB1 = true →
       (ePb d).run.run s = (.ok pb, s1) → bitsOf (u pb 0 4) 0 2 = n →
       (s1.descPart d ≠ s1.get (DISP_CFG_SAFE_PART n) ∨ s1.planesOf d n = 0 →
         exec (.dispSafety i) s = .next (s1.dispEnd i 0xB1 n).settle) ∧
       (s1.descPart d = s1.get (DISP_CFG_SAFE_PART n) → s1.planesOf d n ≠ 0 →
         let w (r o : Nat) : Nat := u pb (64 + 16 * r + o) 4
         let rs := (List.range 16).map (fun r => (⟨bitsOf (w r 0) 0 13, bitsOf (w r 0) 16 13, bitsOf (w r 4) 0 13, bitsOf (w r 4) 16 13,
           w r 8, bitOf (u pb (64 + 16 * r + 12) 1) 0, bitOf (u pb (64 + 16 * r + 12) 1) 1, 2 ^ 32, 0⟩ : Region))
         exec (.dispSafety i) s = .next ((s1.setDisp n { s1.disp n with nextRegions := rs }).dispEnd i 0 0).settle)))

/-- R317, R324, R334, R337: links and AUX. Training succeeds and the output starts, or fails, and as many failures in a row as
ATTEMPTS retire it and drop its planes; a sink that appears starts training, one that goes takes the link down. An AUX request
leaves for the sink and waits for it: an ACK of a write ends it, a NACK, the seventh defer and the third timeout end it with
DISP_AUX_FAIL and the last reply code; an earlier defer or timeout sends it again. R327 to R330, R332, R333: capture. A
dispatched buffer waits for its stream's next frame; a frame start without one is dropped and counted, with one it begins the
frame at the Beacon time; a packet of its stream is stored as its next line, a header error marks it; the frame end writes the
stamp record and ends it; no frame start in time ends it without. Audio frames without a buffer are dropped and counted; a
provider's frames stand at their instants from its trigger. -/
def Obligations.LinksAndCapture : Prop :=
  (∀ (n : Nat) (s : State), n < 4 →
     (∀ ok, s.get (DISP_STAT_LINK n) ≠ 1 → exec (.dispLinkTraining n ok) s = .next s) ∧
     (s.get (DISP_STAT_LINK n) = 1 →
       let t := (s.put (DISP_STAT_LINK n) 2).setDisp n { s.disp n with trainFails := 0 }
       let f := (s.disp n).trainFails + 1
       let u := (s.transient (chDisp n)).setDisp n { s.disp n with trainFails := f }
       exec (.dispLinkTraining n true) s = .next t ∧ t.get (DISP_STAT_LINK n) = 2 ∧
       exec (.dispLinkTraining n false) s = .next (if s.get SAF_CTL_ATTEMPTS ≤ f ∨ u.rateHit (chDisp n) = true
         then ((((u.put (DISP_STAT_LINK n) 3).put (DISP_STAT_PRESENT n) 0).retire (chDisp n) 3).dispDark n).dropPlanes n else u)) ∧
     (∀ irq, s.get (DISP_STAT_HPD n) = 0 → s.isRetired (chDisp n) = false → s.flagA (DISP_TIM_CLK_ENABLE n) = true →
       s.get (DISP_STAT_LINK n) = 0 →
         let t := (s.put (DISP_STAT_HPD n) 1).put (DISP_STAT_LINK n) 1
         exec (.hotPlug n true irq) s = .next t ∧ t.get (DISP_STAT_LINK n) = 1 ∧ t.get (DISP_STAT_HPD n) = 1) ∧
     (s.get (DISP_STAT_HPD n) = 1 → s.isRetired (chDisp n) = false → s.flagA (DISP_TIM_CLK_ENABLE n) = true →
       exec (.hotPlug n false false) s = .next (((s.put (DISP_STAT_HPD n) 0).put (DISP_STAT_LINK n) 0).dispDark n)) ∧
     (∀ (i : Nat) (d : Desc), s.desc? i = some d → d.runnable 0xB2 = true → bitsOf (d.u 16 1) 0 2 = n →
       let req (bs : List Byte) : AuxReq := ⟨n, bitsOf (d.u 16 4) 2 2, bitsOf (d.u 16 4) 4 20, bitsOf (d.u 16 4) 24 5 + 1, bs⟩
       let waits (v : State) : State := ({ v with auxs := v.auxs ++ [⟨i, n, 0, 0, 0⟩] } : State).taken i
       let wr := bitOf (d.u 16 1) 2
       let src := s.readMem (s.mreq d 32) d.a24 (bitsOf (d.u 16 4) 24 5 + 1)
       (s.planesOf d n = 0 → exec (.dispAux i) s = .next (s.dispEnd i 0xB1 n).settle) ∧
       (s.planesOf d n ≠ 0 → (∃ a ∈ s.auxs, a.eng = n) → exec (.dispAux i) s = .next s) ∧
       (s.planesOf d n ≠ 0 → (∀ a ∈ s.auxs, a.eng ≠ n) →
         (wr = false → exec (.dispAux i) s = .next ((waits s).sendAux (req []))) ∧
         (∀ s1 bs, wr = true → src = (s1, .ok bs) → exec (.dispAux i) s = .next ((waits s1).sendAux (req bs))) ∧
         (∀ s1 c y, wr = true → src = (s1, .error (.fail c y)) → exec (.dispAux i) s = .next (s1.dispEnd i c y).settle))) ∧
     (∀ (a : AuxSt) (d : Desc), s.auxs.find? (fun b => b.eng == n) = some a → s.desc? a.desc = some d →
       let i2c := bitOf (d.u 16 1) 3
       let wr := bitOf (d.u 16 1) 2
       let gone (v : State) : State := { v with auxs := v.auxs.filter (fun b => b.desc != a.desc) }
       let again (b : AuxSt) : State := { s with auxs := s.auxs.map (fun c => if c.desc = a.desc then b else c) }
       (∀ data, wr = true → exec (.auxReply n (.ack data)) s = .next ((gone s).dispEnd a.desc 0 0).settle) ∧
       (∀ data s1, wr = false → s.writeMem (s.mreq d 32) false 0 d.a24 (data.take (bitsOf (d.u 16 4) 24 5 + 1)) = (s1, none) →
         exec (.auxReply n (.ack data)) s = .next ((gone s1).dispEnd a.desc 0 0).settle) ∧
       exec (.auxReply n .nack) s = .next ((gone s).dispEnd a.desc 0xB2 (if i2c then 4 else 1)).settle ∧
       (6 ≤ a.defers → exec (.auxReply n .defer) s = .next ((gone s).dispEnd a.desc 0xB2 (if i2c then 8 else 2)).settle) ∧
       (2 ≤ a.timeouts → exec (.auxReply n .timeout) s = .next ((gone s).dispEnd a.desc 0xB2 a.last).settle) ∧
       (∀ r, (s.out.aux.filter (fun r => r.eng == n)).getLast? = some r →
         (a.defers < 6 → exec (.auxReply n .defer) s =
           .next ((again { a with defers := a.defers + 1, last := if i2c then 8 else 2 }).sendAux r)) ∧
         (a.timeouts < 2 → exec (.auxReply n .timeout) s = .next ((again { a with timeouts := a.timeouts + 1 }).sendAux r))))) ∧
  (∀ (i : Nat) (s : State), i < 8 →
     (∀ (j : Nat) (d : Desc), s.desc? j = some d →
       (d.runnable 0xB8 = true → exec (.capFrame j) s =
         .next (({ s with caps := s.caps ++ [⟨j, false, 0, 0, 0, 0, [], 0, false⟩] } : State).taken j)) ∧
       (d.runnable 0xB9 = true → exec (.capAudio j) s =
         .next (({ s with auds := s.auds ++ [⟨j, 0, 0, 0⟩] } : State).taken j)) ∧
       (∀ b, s.caps.find? (fun b => b.desc == j && !b.on) = some b →
         (s.c < d.dispC + 800000 * d.u 38 2 → exec (.capNoFrame j) s = .next s) ∧
         (d.dispC + 800000 * d.u 38 2 ≤ s.c → exec (.capNoFrame j) s =
           .next ((({ s with caps := s.caps.filter (fun c => c.desc != j) } : State).dispEnd j 0xB4 d.capIn).settle)))) ∧
     (∀ vc k p, s.camOn i = false → exec (.csiFrameStart i vc k) s = .next s ∧ exec (.csiFrameEnd i vc) s = .next s ∧
       exec (.csiPacket i p) s = .next s) ∧
     (∀ vc k, s.camOn i = true → s.capsOf i = [] →
       let u := s.bump (CAP_CNT_DROP_COUNT i) 1
       exec (.csiFrameStart i vc k) s = .next u.settle ∧ exec (.csiFrameEnd i vc) s = .next s.settle ∧
       u.get (CAP_CNT_DROP_COUNT i) = min (s.get (CAP_CNT_DROP_COUNT i) + 1) 0xFFFFFFFF ∧ OnlyRegs [CAP_CNT_DROP i] s u) ∧
     (∀ (b : CapBuf) (d : Desc), s.camOn i = true → s.capsOf i = [(b, d)] →
       (∀ k, b.on = false →
         let v := s.capBump [b.desc] (CAP_CNT_FRAMES_COUNT i)
         exec (.csiFrameStart i d.capVc k) s = .next (v.putCap { b with on := true, tfs := v.beacon, frameNo := k }).settle ∧
         (∀ e, s.desc? b.desc = some e → s.secureDesc e = false →
           v.get (CAP_CNT_FRAMES_COUNT i) = min (s.get (CAP_CNT_FRAMES_COUNT i) + 1) 0xFFFFFFFF)) ∧
       (∀ p, b.on = true → p.eccBad = true → exec (.csiPacket i p) s = .next (s.putCap { b with err := b.err % 16 + 16 })) ∧
       (∀ p, b.on = true → p.eccBad = false → p.eccCorrected = false → p.crcBad = false → (csiBytes p.dt = true ∨ csiBits p.dt ≠ 0) →
         (p.vc = d.capVc → p.dt = d.capDt → exec (.csiPacket i p) s = .next (s.capLine b d (csiStore p.dt p.payload) false)) ∧
         (p.vc ≠ d.capVc ∨ p.dt ≠ d.capDt → exec (.csiPacket i p) s = .next s)) ∧
       (b.on = true → exec (.csiFrameEnd i d.capVc) s =
         .next ((s.capEnd b d s.beacon).camFrame i (!bitOf b.err 1 && decide (b.err < 16))).settle) ∧
       (b.overrun = true → b.lines = d.u 36 2 → ∃ u : State, s.capEnd b d s.beacon = u.dispEnd d.id 0xB5 (b.err % 16))) ∧
     (∀ (p ns : Nat) (slots : List Word32), p < 4 →
       let n := mget (fun _ => 0) s.tdm p
       let at_ (k : Nat) : State := { s with tdm := mset (fun _ => 0) s.tdm p (k + 2) }
       (s.flagA (CAP_TDM_CFG_EN p) = false → exec (.tdmFrame p ns slots) s = .next s) ∧
       (s.flagA (CAP_TDM_CFG_EN p) = true → s.flagA (CAP_TDM_CFG_PROVIDER p) = true →
         (s.tdmDue p = none ∨ n = 0 → exec (.tdmFrame p ns slots) s = .next s) ∧
         (∀ k, s.tdmDue p = some k → n ≠ 0 → k + 1 < n → exec (.tdmFrame p ns slots) s = .next s) ∧
         (∀ k, s.tdmDue p = some k → n ≠ 0 → n ≤ k + 1 → exec (.tdmFrame p ns slots) s = .next ((at_ k).tdmStore p k slots))) ∧
       (s.flagA (CAP_TDM_CFG_EN p) = true → s.flagA (CAP_TDM_CFG_PROVIDER p) = false → (n = 0 ∨ s.tdmSlip p ns = false) →
         exec (.tdmFrame p ns slots) s = .next ((at_ (n - 1)).tdmStore p (n - 1) slots)) ∧
       (s.auds = [] → ∀ k, let t := (at_ k).tdmStore p k slots
         t.get (CAP_CNT_AUDIO_DROP_COUNT p) = min (s.get (CAP_CNT_AUDIO_DROP_COUNT p) + 1) 0xFFFFFFFF ∧
         OnlyRegs [CAP_CNT_AUDIO_DROP p] { s with tdm := t.tdm } t)))

/-- R409, R427, R428, R430, R432: the safety watchdog raises SAFETY_WDG with its fixed reaction: its count and PEND bit, the
latched FAULT, FAULT_N and SAFE_REQ_N low. A clear of SAF_EVT, or the same word written to the status target with ACK_EN,
clears the PEND bits written as 1 and releases SAFE_REQ_N when no SAFE_REQ event is left and FAULT_N is high. R432, R433: a
fast read latches the 64-byte status block: its identification, SEQ, PEND and T_SEQ at their offsets, and the CRC of the first
60 bytes at its end. -/
def Obligations.SafetyEventsTakeTheirReactions : Prop :=
  (∀ s : State,
     let due := s.flag SAF_STATUS_SAFETY_READY = true ∧ s.wdgHit = false ∧ s.seqC + 800000 * (s.seqF + s.getA SAF_CFG_FTTI_MS) ≤ s.c
     (¬ due → exec .safetyWatchdogExpiry s = .next s) ∧
     (due →
       let v : State := { s with wdgHit := true }
       let t := v.safety 14 36 0 false
       exec .safetyWatchdogExpiry s = .next t ∧ t.wdgHit = true ∧
       t.get (SAF_CNT_COUNT 14) = min (s.get (SAF_CNT_COUNT 14) + 1) 0xFFFFFFFF ∧ bitOf (t.get SAF_EVT_PEND) 14 = true ∧
       t.get SAF_STATUS_FAULT = 1 ∧ t.out.faultN = false ∧ t.out.safeReqN = false ∧ t.get SAF_STATUS_SAFE_REQ = 1 ∧
       (s.flag SAF_STATUS_FAULT = false → t.get SAF_FIRST_LOG0_CODE = 14 ∧ t.get SAF_FIRST_LOG0_ISLAND = 36) ∧
       t.still = v.still) ∧
     (∀ (rq : Requester) (v : Word32), s.opens rq SAF_EVT = true → openFields SAF_EVT = true →
       let t := s.clearPend v.toNat
       exec (.safEvtClear rq v) s = .next t ∧
       (∀ b, b < 18 → bitOf (t.get SAF_EVT_PEND) b = (bitOf (s.get SAF_EVT_PEND) b && !bitOf v.toNat b)) ∧
       (t.out.safeReqN = false ↔ s.flag SAF_STATUS_SAFETY_READY = true ∧ (s.out.faultN = false ∨
         ∃ b, b < 18 ∧ bitOf (t.get SAF_EVT_PEND) b = true ∧ 2 ≤ s.reactionNow b)) ∧
       t.out = { s.out with safeReqN := t.out.safeReqN } ∧ t = { s with regs := t.regs, out := t.out } ∧
       (∀ b, b ≠ SAF_EVT → b ≠ SAF_STATUS → t.reg b = s.reg b) ∧
       (s.dead = false → s.flag SAF_CTL_ACK_EN = true → exec (.sstWrite 0x40 (leBytes 4 v.toNat)) s = .next t)) ∧
     (∀ off bs, s.dead = true ∨ s.flag SAF_CTL_ACK_EN = false ∨ off ≠ 0x40 ∨ bs.length ≠ 4 → exec (.sstWrite off bs) s = .next s)) ∧
  (∀ s : State,
     let b := s.sstBlock
     (s.dead = false → exec .sstFastRead s = .next { s with sst := b }) ∧ (s.dead = true → exec .sstFastRead s = .next s) ∧
     b.length = 64 ∧ b.take 4 = [0x46, 0x53, 0x01, 0x00] ∧ leNat ((b.drop 4).take 4) = s.get SAF_STATUS_SEQ ∧
     leNat ((b.drop 12).take 4) = s.get SAF_EVT_PEND ∧ leNat ((b.drop 24).take 8) = s.seqT % 2 ^ 64 ∧
     b.drop 60 = leBytes 4 (crc32c (b.take 60)))

/-- R407, R413 to R417, R434, R435: at a window's start every present, awake scheduled engine is given its golden test, and
the window's step of the checker rotation runs. A test that passes is noted with RESULT 1; one that fails is repeated until
ATTEMPTS runs have failed, or failures come too often, which retire the engine; one that outlasts its slot is abandoned with
RESULT 3 and GT_OVERRUN. SAF_GOLDEN_RUN tests the engines it names; it and SAF_INJECT are denied to a function but the PF.
R423 to R425, R475 to R477: a crash of an online pair puts it into restart and counts it, and lockstep mismatches in a row, or
too often, hold it offline; the online pair that owns the fewest blocks takes every block of it. Other pairs keep theirs. A
pair that comes online takes the blocks that no online pair owns; a block then moves to the pair of the spread while none of
its descriptors is fetched. -/
def Obligations.GoldenTestsAndBlockOwnership : Prop :=
  (∀ (e : Nat) (s : State), e < 8 →
     let w := s.beacon / s.fttiNs * s.fttiNs
     let starts := s.flag SAF_STATUS_SAFETY_READY = true ∧ s.fwRuns = true ∧ s.fttiT < w ∧ s.fttiFrom ≤ w
     (¬ starts → exec .fttiWindowStart s = .next s) ∧
     (starts →
       let r := (List.range 4).foldl State.refreshHist { s with fttiT := w, slotT := w, fttiFrom := 0, cycle := true }
       let v := (List.range 8).foldl (fun (s : State) e => if s.isRetired e then s
         else if s.islOn e then (s.wantGold e true false).goldStart e
         else { s with wakeTest := if s.wakeTest.contains e then s.wakeTest else s.wakeTest ++ [e] }) r
       exec .fttiWindowStart s = .next (v.rotation v.fttiWin).cycleEnd.settle ∧ v.fttiT = w ∧
       (s.isRetired e = false → s.islOn e = true → ∃ g, mget (fun _ => none) v.gold e = some g ∧ g.slot = true) ∧
       (s.isRetired e = false → s.islOn e = false → e ∈ v.wakeTest)) ∧
     (mget (fun _ => none) s.gold e = none →
       (∀ ok, exec (.goldenTestEnd e ok) s = .next s) ∧ exec (.goldenSlotEnd e) s = .next s) ∧
     (∀ g : Gold, mget (fun _ => none) s.gold e = some g →
       let k := mget (fun _ => 0) s.gtInject e
       let v : State := { s with gtInject := mset (fun _ => 0) s.gtInject e (k - 1) }
       let gone (u : State) : State := { u with gold := mset (fun _ => none) u.gold e none }
       let noted (u : State) (r : Nat) : State := ((u.put (SAF_GT_STAT_RESULT e) r).put (SAF_GT_STAT_CLOCKS e)
         (satN 16 (s.islClocks e (s.c - g.startC)))).put (SAF_GT_STAT_WIN e) s.fttiWin
       let inj := g.inj || k != 0
       (∀ ok, g.live = false → exec (.goldenTestEnd e ok) s = .next s) ∧
       (g.live = true → k = 0 →
         let a := noted (gone v) 1
         let b := (if g.runs ≠ 0 then a.safety 1 e 0 g.inj else a).reqDone e false
         exec (.goldenTestEnd e true) s = .next (if g.rerun then b.disagree e g.chkInj else b).cycleEnd.settle ∧
         mget (fun _ => none) a.gold e = none ∧ a.get (SAF_GT_STAT_RESULT e) = 1 ∧
         a.get (SAF_GT_STAT_WIN e) = s.fttiWin % 2 ^ 32 ∧ a.mem = s.mem ∧ a.descs = s.descs) ∧
       (∀ ok, g.live = true → (ok = false ∨ k ≠ 0) →
         let f := v.transient e
         (s.get SAF_CTL_ATTEMPTS ≤ g.runs + 1 →
           exec (.goldenTestEnd e ok) s = .next (((noted f 2).retireEngine e 2 inj).reqDone e true).cycleEnd.settle) ∧
         (g.runs + 1 < s.get SAF_CTL_ATTEMPTS → f.rateHit e = true →
           exec (.goldenTestEnd e ok) s = .next (((noted f 2).retireEngine e 3 inj).reqDone e true).cycleEnd.settle) ∧
         (g.runs + 1 < s.get SAF_CTL_ATTEMPTS → f.rateHit e = false → exec (.goldenTestEnd e ok) s =
           .next { f with gold := mset (fun _ => none) s.gold e (some { g with runs := g.runs + 1, inj := inj }) })) ∧
       (let us := if e < 4 then s.getA SAF_CFG_ARR_SLOT_US else s.getA SAF_CFG_VCL_SLOT_US
        (g.slot = false ∨ s.beacon < s.slotT + us * 1000 → exec (.goldenSlotEnd e) s = .next s) ∧
        (g.slot = true → s.slotT + us * 1000 ≤ s.beacon →
          let u := (noted (gone s) 3).safety 5 e 0 false
          exec (.goldenSlotEnd e) s =
            .next ((if g.rerun then (u.wantGold e false true).goldStart e else u).reqDone e false).cycleEnd.settle ∧
          u.get (SAF_GT_STAT_RESULT e) = 3 ∧ mget (fun _ => none) u.gold e = none))) ∧
     (∀ (i : Nat) (d : Desc), s.desc? i = some d →
       let done (u : State) (st dt : Nat) : State := (({ u with seq := u.seq + 1 } : State).finishPart i 36 st dt).settle
       (d.runnable 0xE8 = true → d.step = 0 → s.qFn d.q ≠ 0 → exec (.safGoldenRun i) s = .next (done s 0xCD 0)) ∧
       (d.runnable 0xE8 = true → d.step ≠ 0 → exec (.safGoldenRun i) s = .next s) ∧
       (d.runnable 0xE8 = true → d.step = 0 → s.qFn d.q = 0 →
         let es := (maskBits 8 (d.u 16 1)).filter (fun e => !s.isRetired e)
         let v : State := { s.updDesc i (fun x => { x with step := 1 }) with
           gtReq := s.gtReq ++ [(i, es.foldl (fun m e => m + 2 ^ e) 0, 0)] }
         exec (.safGoldenRun i) s = .next (if es = [] then (v.reqDone 0 false).settle
           else es.foldl (fun s e => (s.wantGold e false false).goldStart e) v)) ∧
       (d.runnable 0xE9 = true → s.qFn d.q ≠ 0 ∨ s.flag SAF_CTL_INJECT_EN = false →
         exec (.safInject i) s = .next (done s 0xCD 0)) ∧
       (d.runnable 0xE9 = true → s.qFn d.q = 0 → s.flag SAF_CTL_INJECT_EN = true →
         (injKind d = 0 → exec (.safInject i) s =
           .next (done { s with chkInject := mset (fun _ => 0) s.chkInject (injTarget d) (injCount d) } 0 0)) ∧
         (injKind d = 3 → exec (.safInject i) s = .next (done (s.crashPair (injTarget d) 0 true) 0 0)) ∧
         (injKind d = 4 → exec (.safInject i) s =
           .next (done { s with gtInject := mset (fun _ => 0) s.gtInject (injTarget d) (injCount d) } 0 0)) ∧
         (injKind d = 1 ∨ injKind d = 2 → spaceOf d.a24 ≠ .host → (∀ p, spaceOf d.a24 ≠ .peer p) → s.addrError d.a24 32 = none →
           exec (.safInject i) s = .next (done (s.setEcc (d.a24 / 32) (some (injectedErr (injKind d + 1)))) 0 0))))) ∧
  (∀ (p : Nat) (s : State), p < 4 →
     (s.pairSt p ≠ 2 → exec (.lockstepMismatch p) s = .next s ∧ exec (.pairTrap p) s = .next s ∧
       exec (.pairHeartbeatTimeout p) s = .next s) ∧
     (s.pairSt p = 2 →
       let down (n : Nat) : State := { (s.put (KPR_PAIR_STAT_STATE p) 3).bump (KPR_PAIR_STAT_RESTARTS p) 1 with
         pairRuns := mset (fun _ => 0) s.pairRuns p n }
       let n := mget (fun _ => 0) s.pairRuns p + 1
       let w := ((down n).transient (chPair p)).safety 7 36 p false
       let hold := w.get SAF_CTL_ATTEMPTS ≤ n ∨ w.get SAF_CTL_RATE_CNT ≤ (mget (fun _ => []) w.transients (chPair p)).length
       exec (.pairTrap p) s = .next ((down 0).takeover p 1 false).settle ∧
       exec (.pairHeartbeatTimeout p) s = .next ((down 0).takeover p 2 false).settle ∧
       exec (.lockstepMismatch p) s = .next ((if hold then w.holdPair p false else w).takeover p 0 false).settle ∧
       ∀ m, (down m).pairSt p = 3 ∧ (down m).get (KPR_PAIR_STAT_RESTARTS p) = min (s.get (KPR_PAIR_STAT_RESTARTS p) + 1) 0xFFFF ∧
         (∀ q, q < 4 → q ≠ p → (down m).pairSt q = s.pairSt q) ∧ (∀ b, b < 256 → (down m).blockOwner b = s.blockOwner b)) ∧
     (∀ q c i, s.fewest = some q → q < 4 → q ≠ p →
       let t := s.takeover p c i
       (∀ b, b < 256 → t.blockOwner b = if s.blockOwner b = p then q else s.blockOwner b) ∧
       t.get KPR_TAKE_LOG0_FROM = p ∧ t.get KPR_TAKE_LOG0_TO = q ∧
       t.get KPR_CNT_TAKEOVER_COUNT = min (s.get KPR_CNT_TAKEOVER_COUNT + 1) 0xFFFFFFFF) ∧
     (∀ ok, s.dead = true ∨ (s.pairSt p ≠ 1 ∧ s.pairSt p ≠ 3) → exec (.pairOnline p ok) s = .next s) ∧
     (s.dead = false → (s.pairSt p = 1 ∨ s.pairSt p = 3) →
       let v := s.put (KPR_PAIR_STAT_STATE p) 2
       let u := ((List.range 256).foldl (fun s b => if s.pairSt (s.blockOwner b) = 2 then s else s.setOwner b p) v).refreshPairs
       exec (.pairOnline p false) s = .next (s.holdPair p false).refreshPairs ∧ exec (.pairOnline p true) s = .next u.settle ∧
       u.pairSt p = 2 ∧
         ∀ b, b < 256 → u.blockOwner b = if s.blockOwner b ≠ p ∧ s.pairSt (s.blockOwner b) = 2 then s.blockOwner b else p) ∧
     (∀ b, b < 256 →
       let free := ∀ d ∈ s.descs, d.q / 64 = b → d.phase ≠ .fetched ∧ d.phase ≠ .waiting ∧ d.phase ≠ .ready
       let t := (s.setOwner b p).refreshPairs
       (s.pairSt p ≠ 2 ∨ s.spreadOwner b ≠ p ∨ s.blockOwner b = p ∨ ¬ free → exec (.blockMove b p) s = .next s) ∧
       (s.pairSt p = 2 → s.spreadOwner b = p → s.blockOwner b ≠ p → free → exec (.blockMove b p) s = .next t ∧
         t.blockOwner b = p ∧ (∀ x, x < 256 → x ≠ b → t.blockOwner x = s.blockOwner x) ∧ t.descs = s.descs)))

/-- R444, R445: the host mailbox. GO latches SEQ and sets BUSY; GO while BUSY is a security event. A request that fails a
check is answered with its status and nothing else happens; GET_INFO, GET_CERT, PROVISION and DAYMARK act and answer OK. An
answer clears BUSY, sets DONE and holds STATUS, LEN and SEQ, then its payload, in a buffer that is otherwise clear. R459,
R488, R490: the requests of Keeper firmware to Lantern. Each is answered in the Keeper mailbox: TAMPERED after an alarm, STATE
where nothing is open or the target is not secure, BAD_LEN for a wrong length, otherwise with its data. -/
def Obligations.MailboxesAnswer : Prop :=
  (∀ s : State,
     (∀ (rq : Requester) (v : Word32), s.opens rq LNT_MB_CTL = true → bitOf v.toNat 0 = true →
       (s.flag LNT_MB_CTL_BUSY = true → exec (.mailboxGo rq v) s = .next (s.secEvent LNT_MB_CTL rq 2 0x3F)) ∧
       (s.flag LNT_MB_CTL_BUSY = false → s.flag LNT_INFO_READY = false →
         exec (.mailboxGo rq v) s = .next (s.plainWrite LNT_MB_CTL v.toNat mask32)) ∧
       (s.flag LNT_MB_CTL_BUSY = false → s.flag LNT_INFO_READY = true →
         let w := s.plainWrite LNT_MB_CTL v.toNat mask32
         let x : State := { w with lnt := { w.lnt with goSeq := w.get LNT_MB_CTL_SEQ, wait := none } }
         let t := x.put LNT_MB_CTL_BUSY 1
         (mbLenOf s.mbCmd = none → exec (.mailboxGo rq v) s = .next (t.mbPlain (t.mbCheck t.mbCmd) [])) ∧
         ((mbLenOf s.mbCmd).isSome = true → exec (.mailboxGo rq v) s = .next t) ∧ t.get LNT_MB_CTL_BUSY = 1 ∧
           t.lnt = { s.lnt with goSeq := bitsOf v.toNat 4 16, wait := none } ∧ t = { s with regs := t.regs, lnt := t.lnt } ∧
           ∀ b, b ≠ LNT_MB_CTL → t.reg b = s.reg b)) ∧
     (∀ k ∈ ([(.getInfo, 0x01), (.getCert, 0x02), (.daymark, 0x03), (.provision, 0x20)] : List (Instr × Nat)),
       (s.mbIs k.2 = false → exec k.1 s = .next s) ∧
       (s.mbIs k.2 = true → s.mbCheck k.2 ≠ 0 → exec k.1 s = .next (s.mbServe.mbPlain (s.mbCheck k.2) []))) ∧
     (let w := s.mbServe
      let p := s.mbReq 16 s.mbLen
      (s.mbIs 0x01 = true → s.mbCheck 0x01 = 0 → exec .getInfo s = .next (w.mbPlain 0
        (leBytes 4 (s.lnt.life + 4 * s.get LNT_INFO_IDENTITY) ++ leBytes 4 s.lnt.nonce ++ leBytes 4 s.lnt.ctr ++
          leBytes 4 s.lnt.version))) ∧
      (s.mbIs 0x02 = true → s.mbCheck 0x02 = 0 → exec .getCert s = .next (w.mbPlain 0
        (leBytes 4 Config.certChain.length ++ bytesAt Config.certChain (leNat p) 16364))) ∧
      (s.mbIs 0x20 = true → s.mbCheck 0x20 = 0 → exec .provision s =
        .next (({ w with lnt := { w.lnt with hsckOtp := some p, hsck := some p } } : State).mbPlain 0 [])) ∧
      (s.mbIs 0x03 = true → s.mbCheck 0x03 = 0 →
        let r := w.daymark p
        exec .daymark s = .next (r.1.mbPlain 0 r.2) ∧
        r.2.length = 12368 ∧ r.1 = { s with lnt := r.1.lnt } ∧ r.2.take 4 = [0x4D, 0x44, 1, 0] ∧
        (r.2.drop 8).take 8 = leBytes 8 s.beacon)) ∧
     (∀ (k : Nat) (body : List Byte), body.length ≤ 16376 →
       let t := s.mbPlain k body
       t.get LNT_MB_CTL_BUSY = 0 ∧
       t.get LNT_MB_CTL_DONE = 1 ∧ t.lnt = { s.lnt with wait := none } ∧
       (∀ i, i < 2048 → t.reg (LNT_MB_RSP i) =
         BitVec.ofNat 64 (leNat (bytesAt (leBytes 2 k ++ leBytes 2 body.length ++ leBytes 4 s.lnt.goSeq ++ body) (8 * i) 8))) ∧
       t = { s with regs := t.regs, lnt := t.lnt, out := t.out, pcie := t.pcie } ∧
       ∀ b, b ≠ LNT_MB_CTL → (b < 0xF04000 ∨ 0xF08000 ≤ b) → t.reg b = s.reg b)) ∧
  (∀ s : State,
     let up := s.dead = false ∧ s.flag LNT_INFO_READY = true ∧ s.flag TOP_FW_STAT_RECOVERY = false ∧ s.pairsOn ≠ []
     let v := s.kTurn
     (s.flag LNT_MB_CTL_BUSY = false ∨ s.lnt.wait ≠ none ∨ s.lnt.turn = false → v = { s with lnt := { s.lnt with turn := true } }) ∧
     (∀ (i n : Nat) (bs : List Byte) (isl k b : Nat) (off : Bool),
       ∀ c ∈ ([.verifySlot i, .preload i, .storeOpen i n, .storeData bs, .storeClose, .svcKey bs, .svcOpen bs, .svcSeal bs,
         .islPower isl k b, .rgnRelocate i b off] : List Instr),
       (¬ up → exec c s = .next s) ∧ (up → v.lnt.tampered = true → exec c s = .next (v.kAnswer 6 []))) ∧
     (up → v.lnt.tampered = false →
       (∀ i, exec (.verifySlot i) s = .next (v.kAnswer 0 (leBytes 4 (v.verifySlot (v.slot i)).1))) ∧
       (∀ i, exec (.preload i) s = .next (({ v with stageImg :=
           if (v.verifySlot (v.slot i)).1 = 0 then some (i, (v.verifySlot (v.slot i)).2) else none } : State).kAnswer 0
         (leBytes 4 (v.verifySlot (v.slot i)).1))) ∧
       (∀ i n, let r := v.draw 12
         exec (.storeOpen i n) s = .next (({ r.1 with lnt := { r.1.lnt with store := some ⟨i, n, r.2, []⟩ } } : State).kAnswer 0 r.2)) ∧
       (v.lnt.store = none → (∀ bs, exec (.storeData bs) s = .next (v.kAnswer 5 [])) ∧ exec .storeClose s = .next (v.kAnswer 5 [])) ∧
       (∀ x, v.lnt.store = some x →
         (∀ bs, bs = [] ∨ 4076 < bs.length ∨ x.len < x.plain.length + bs.length → exec (.storeData bs) s = .next (v.kAnswer 2 [])) ∧
         (∀ bs, bs ≠ [] → bs.length ≤ 4076 → x.plain.length + bs.length ≤ x.len → exec (.storeData bs) s =
           .next (({ v with lnt := { v.lnt with store := some { x with plain := x.plain ++ bs } } } : State).kAnswer 0
             (bytesAt (Config.gcmSeal v.storeKey x.iv (hdrAad x.len) (x.plain ++ bs)) x.plain.length bs.length))) ∧
         exec .storeClose s = .next (({ v with lnt := { v.lnt with store := none } } : State).kAnswer 0
           (bytesAt (Config.gcmSeal v.storeKey x.iv (hdrAad x.len) x.plain) x.plain.length 16))) ∧
       (∀ n, v.lnt.hsck = none → exec (.svcKey n) s = .next (v.kAnswer 5 [])) ∧
       (∀ n k, v.lnt.hsck = some k →
         (n.length ≠ 32 → exec (.svcKey n) s = .next (v.kAnswer 2 [])) ∧
         (n.length = 32 → exec (.svcKey n) s = .next ((v.openSession k n).1.kAnswer 0 (v.openSession k n).2) ∧
           (v.openSession k n).2.length = 32 ∧ (v.openSession k n).1.lnt.sk = some (sessionKey k n (v.openSession k n).2))) ∧
       (∀ f, v.lnt.sk = none → exec (.svcOpen f) s = .next (v.kAnswer 5 []) ∧ exec (.svcSeal f) s = .next (v.kAnswer 5 [])) ∧
       (∀ f, v.lnt.sk ≠ none → (match v.frOpen f with
           | some p => exec (.svcOpen f) s = .next (v.kAnswer 0 p)
           | none => exec (.svcOpen f) s = .next (v.kAnswer 3 [])) ∧
         exec (.svcSeal f) s = .next (v.kAnswer 0 (v.frSeal (frType f) (frSeq f) (bytesAt f 8 (f.length - 8))))) ∧
       (∀ isl k a, v.secIsl isl = false → exec (.islPower isl k a) s = .next (v.kAnswer 5 [])) ∧
       (∀ isl a, v.secIsl isl = true →
         let later (k : Nat) : State := { v with pwr := { v.pwr with defer' := v.pwr.defer' ++ [(isl, k, a)] } }
         let said (w : State) (d : Nat) : State := w.kAnswer 0 (leBytes 4 (satN 16 (w.lntCap isl) + 65536 * d))
         (v.lntCap isl < a → exec (.islPower isl 0 a) s = .next (said (later 0) 1)) ∧
         (a ≤ v.lntCap isl → exec (.islPower isl 0 a) s =
           .next (said ({ v with pwr := { v.pwr with cap := mset (fun _ => 2 ^ 16) v.pwr.cap isl a } } : State).refreshClks 0)) ∧
         (∀ k, k = 1 ∨ k = 2 →
           (8 ≤ isl ∨ v.islWorks isl = true ∨ v.secRes isl = true → exec (.islPower isl k a) s = .next (said (later k) 1)) ∧
           (isl < 8 → v.islWorks isl = false → v.secRes isl = false →
             exec (.islPower isl k a) s = .next (said (v.accTime.gateBy isl k) 0))) ∧
         exec (.islPower isl 3 a) s = .next (said (v.wakeIsls [isl]) 0)) ∧
       (∀ i b, 16 ≤ i → exec (.rgnRelocate i b false) s = .next (v.kAnswer 5 [])) ∧
       (∀ i b, i < 16 → b ≠ 0 →
         let w0 := putBits (v.reg (MEM_RGN_W0 i)).toNat 12 36 b
         let w1 := putBits (v.reg (MEM_RGN_W1 i)).toNat 12 36 (b + (v.get (MEM_RGN_W1_LIMIT i) - v.get (MEM_RGN_W0_BASE i)))
         let r := v.changeRgn i w0 w1 (v.reg (MEM_RGN_W2 i)).toNat
         let off := v.changeRgn i (putBits (v.reg (MEM_RGN_W0 i)).toNat 0 1 0) (v.reg (MEM_RGN_W1 i)).toNat (v.reg (MEM_RGN_W2 i)).toNat
         exec (.rgnRelocate i b true) s =
           .next (({ off.1 with reloc := off.1.reloc.filter (fun x => x.1 != i) } : State).kAnswer (if off.2 then 0 else 5) []) ∧
         exec (.rgnRelocate i b false) s = .next (({ r.1 with reloc := r.1.reloc.filter (fun x => x.1 != i) } : State).kAnswer
           (if r.2 then 0 else 5) []))))

/-- R446, R447, R450 to R452, R458: the authenticated commands. One whose tag or counter fails is answered with that status,
is a security event and changes nothing else; an accepted one moves the counter on, does its act where its rules allow it (a
partition out of use, a context in the right state, a staged register of a secure island) and is answered with a tag. -/
def Obligations.SecureCommandsNeedTagAndCounter : Prop :=
  ∀ s : State,
    let w := s.mbServe
    let u : State := { w with lnt := { w.lnt with ctr := leNat (s.mbReq 8 4) } }
    let turned (c : Instr) (k : Nat) : Prop := exec c s = .next ((w.secEvent LNT_MB_CTL (.fn 0) k 0x3F).mbPlain k [])
    let ans (c : Instr) (t : State) (k : Nat) (body : List Byte) : Prop := exec c s = .next (t.mbSealed k body)
    (∀ k ∈ ([(.secPart, 0x10), (.secRgn, 0x11), (.secQueue, 0x12), (.secMoor, 0x13), (.secRelease, 0x14), (.secIslCtl, 0x15),
        (.setProduction, 0x21)] : List (Instr × Nat)), s.lnt.wait = none →
      (s.mbIs k.2 = false → exec k.1 s = .next s) ∧
      (s.mbIs k.2 = true → s.mbCheck k.2 ≠ 0 → exec k.1 s = .next (w.mbPlain (s.mbCheck k.2) [])) ∧
      (s.mbIs k.2 = true → s.mbCheck k.2 = 0 → match s.mbOpen with
        | .error e => turned k.1 e
        | .ok _ => True)) ∧
    (∀ k : Nat, s.lnt.wait = none → s.mbIs k = true → s.mbCheck k = 0 → match s.mbOpen with
      | .error _ => True
      | .ok p =>
        (k = 0x10 → if u.partInUse (leNat p % 64) then ans .secPart u 5 []
          else ans .secPart (u.put (QOS_PART_W (leNat p % 64)) (bitsOf (leNat p) 8 1)) 0 []) ∧
        (k = 0x11 → let r := u.changeRgn (Machine.u p 0 1 % 16) (Machine.u p 8 8) (Machine.u p 16 8) (Machine.u p 24 8)
          ans .secRgn r.1 (if r.2 then 0 else 5) []) ∧
        (k = 0x12 → ans .secQueue (u.put ⟨LNT_SQ (leNat p % 16384 / 64), leNat p % 16384 % 64, 1⟩ (bitsOf (leNat p) 16 1)) 0 []) ∧
        (k = 0x21 → ans .setProduction (({ u with lnt := { u.lnt with life := 2 } } : State).put LNT_INFO_LIFECYCLE 2) 0 []) ∧
        (k = 0x13 → let c := Machine.u p 0 1
          (s.get (SCH_CTX_STAT_STATE c) ≠ 0 → s.get (SCH_CTX_STAT_STATE c) ≠ 5 →
            ans .secMoor u 5 (leBytes 4 (s.get (SCH_CTX_STAT_REASON c)))) ∧
          (s.get (SCH_CTX_STAT_STATE c) = 0 ∨ s.get (SCH_CTX_STAT_STATE c) = 5 →
            (bitsOf (Machine.u p 8 8) 45 2 ≠ 0 → ans .secMoor u 5 (leBytes 4 3)) ∧
            (bitsOf (Machine.u p 8 8) 45 2 = 0 →
              let v := if s.funcHeld (s.get (SCH_CTX_CFG_FUNC c)) then putBits (Machine.u p 8 8) 0 5 (s.get (SCH_CTX_CFG_FUNC c))
                else Machine.u p 8 8
              let m := ((u.setReg (SCH_CTX_CFG c) (BitVec.ofNat 64 (writeFields (fieldsAt (SCH_CTX_CFG c)) false true
                (s.reg (SCH_CTX_CFG c)).toNat v mask64))).moor true c).settle
              if m.get (SCH_CTX_STAT_STATE c) = 1 then exec .secMoor s = .next { m with lnt := { m.lnt with wait := some c } }
              else ans .secMoor m (m.moorAnswer c).1 (m.moorAnswer c).2))) ∧
        (k = 0x14 → let c := Machine.u p 0 1
          let st := s.get (SCH_CTX_STAT_STATE c)
          if s.ctxW c = true ∧ (st = 2 ∨ st = 3 ∨ st = 4) then
            let m := if st = 4 then u else (u.releaseCtx c).settle
            exec .secRelease s = .next { m with lnt := { m.lnt with wait := some c } }
          else ans .secRelease u 5 []) ∧
        (k = 0x15 → ∀ (sp : RegSpec) (off isl : Nat), off = Machine.u p 4 4 % 2 ^ 26 → isl = Machine.u p 0 1 % 64 →
          (regAt off = none → ans .secIslCtl u 5 []) ∧
          (regAt off = some (sp, off) → stagedIsland off = some isl → s.secIsl isl = true →
            ans .secIslCtl (u.stageWrite off (Machine.u p 8 8) mask64) 0 []) ∧
          (regAt off = some (sp, off) → stagedIsland off ≠ some isl ∨ s.secIsl isl = false → ans .secIslCtl u 5 []))) ∧
    (∀ c : Nat, s.lnt.wait = some c →
      (s.mbIs 0x14 = true → s.lnt.tampered = false →
        if s.get (SCH_CTX_STAT_STATE c) = 4 then exec .secRelease s = .next s else ans .secRelease s 0 []) ∧
      (s.mbIs 0x13 = true → s.lnt.tampered = false →
        if s.get (SCH_CTX_STAT_STATE c) = 1 then exec .secMoor s = .next s else ans .secMoor s (s.moorAnswer c).1 (s.moorAnswer c).2) ∧
      (s.lnt.tampered = true → (s.mbIs 0x14 = true → exec .secRelease s = .next (s.mbPlain 6 [])) ∧
        (s.mbIs 0x13 = true → exec .secMoor s = .next (s.mbPlain 6 []))))

/-- R460 to R463: a tamper alarm is shown in LNT_TAMPER, erases every volatile key and, where the UDS can be erased, the UDS,
and ends secure contexts; while the part is held in cold reset it does nothing. An expiry of the secure watchdog is counted
and begins a cold reset of which it is the cause. -/
def Obligations.TamperAlarmsEraseTheKeys : Prop :=
  ∀ (src : TamperSrc) (s : State),
    (s.pins.held = true → exec (.tamperAlarm src) s = .next s) ∧
    (s.pins.held = false →
      let u := (s.put ⟨LNT_TAMPER, tamperBit src, 1⟩ 1).zeroise
      exec (.tamperAlarm src) s = .next u.endSecure.settle ∧
      u.lnt.hsck = none ∧ u.lnt.sk = none ∧ u.lnt.store = none ∧ u.lnt.tampered = true ∧ u.svc.opened = false ∧
      u.lnt.uds = (if Config.eraseWrap then List.replicate 32 0xFF#8 else s.lnt.uds) ∧
      u.get ⟨LNT_TAMPER, tamperBit src, 1⟩ = 1 ∧ (∀ x, x ≠ src → u.get ⟨LNT_TAMPER, tamperBit x, 1⟩ = s.get ⟨LNT_TAMPER, tamperBit x, 1⟩) ∧
      u.get LNT_INFO_IDENTITY = (if u.erased then 1 else 2) ∧ u.get LNT_TAMPER_ERASED = (if u.erased then 1 else 0) ∧
      u = { s with regs := u.regs, lnt := u.lnt, svc := u.svc } ∧
      (∀ b, b ≠ LNT_TAMPER → b ≠ LNT_INFO → u.reg b = s.reg b) ∧
      ((∀ c, c < 256 → s.ctxW c = true → s.get (SCH_CTX_STAT_STATE c) = 0 ∨ s.get (SCH_CTX_STAT_STATE c) = 5) →
        u.endSecure = u)) ∧
    (s.dead = true ∨ s.flag LNT_INFO_READY = false → exec .secureWatchdogExpiry s = .next s) ∧
    (s.dead = false → s.flag LNT_INFO_READY = true →
      let t := (s.bump LNT_SWDG_EXPIRIES 1).coldAssert true
      exec .secureWatchdogExpiry s = .next t ∧
      t.pins.held = true ∧ t.get LNT_RST_CAUSE_SWDG = 1 ∧
      t.get LNT_SWDG_EXPIRIES = min (s.get LNT_SWDG_EXPIRIES + 1) 0xFFFF ∧ t.lnt.hsck = none ∧ t.mem = [] ∧ t.descs = [])

/-- R485 to R490, R496: frames of the service port. One that fails R487 is discarded and counted; a repeated request gets its
response again; in recovery mode clear frames act, in firmware mode only encrypted ones of the open session, once each. -/
def Obligations.ServiceFramesAreAnswered : Prop :=
  ∀ (f : List Byte) (s : State),
    let seq := frSeq f
    let ok := s.svcUp = true ∧ frOk f = true ∧ bitOf (frFlags f) 1 = false
    let s0 : State := { s with svc := { s.svc with lastC := s.c } }
    let enc := bitOf (frFlags f) 0
    (∀ k ∈ ([(.hello f, 0x01), (.setBaud f, 0x02), (.svcStatus f, 0x10), (.deltaBegin f, 0x20), (.deltaData f, 0x21),
        (.deltaEnd f, 0x22), (.activate f, 0x30), (.recoverBegin f, 0x40), (.recoverData f, 0x41), (.recoverEnd f, 0x42)]
        : List (Instr × Nat)),
      (s.svcUp = false → exec k.1 s = .next s) ∧
      (s.svcUp = true → frOk f = false → exec k.1 s = .next (s.bump KPR_CNT_SVC_DISCARD_COUNT 1)) ∧
      (s.svcUp = true → frOk f = true → bitOf (frFlags f) 1 = true ∨ (frType f ≠ k.2 ∧ frKnown (frType f) = true) →
        exec k.1 s = .next s) ∧
      (∀ c, ok → frType f = k.2 → enc = false → seq = s.svc.seq → s.svc.cached = some c →
        exec k.1 s = .next { s0 with out := { s.out with uart := s.out.uart ++ [c] } }) ∧
      (ok → frType f = k.2 → enc = false → (seq = s.svc.seq → s.svc.cached = none) → s.flag TOP_FW_STAT_RECOVERY = false →
        k.2 ≠ 0x01 → exec k.1 s = .next (s0.refuseSvc f (if s.svc.opened && s.lnt.sk.isSome then 3 else 4)))) ∧
    (ok → enc = false → (seq = s.svc.seq → s.svc.cached = none) → s.flag TOP_FW_STAT_RECOVERY = true →
      let s1 : State := { s with svc := { s.svc with lastC := s.c, seq := seq, cached := none, next := 1 } }
      let p := frBody f
      let ans (c : Instr) (t : State) (st : Nat) (body : List Byte) : Prop :=
        exec c s = .next (t.answerSvc false (frType f) seq st body)
      (frType f = 0x01 → p.length ≠ 32 → ans (.hello f) s1 2 []) ∧
      (frType f = 0x01 → p.length = 32 →
        let r := s1.endSession.draw 32
        let u : State := { r.1 with svc := { r.1.svc with opened := false } }
        u.lnt.sk = none ∧ ans (.hello f) u 0 (fitTo 32 r.2 ++ fitTo 64 u.deviceId ++ [1] ++ leBytes 8 (u.reg TOP_FW_VER).toNat ++
          leBytes 8 (u.reg TOP_HIF_VER).toNat)) ∧
      (frType f = 0x02 → if p.length = 1 ∧ leNat p ≤ 4 then
          ans (.setBaud f) { s1 with svc := { s1.svc with baud := leNat p } } 0 [] else ans (.setBaud f) s1 2 []) ∧
      (frType f = 0x10 → p = [] → ans (.svcStatus f) s1 0
        (leBytes 8 (s.reg BOOT_STAT).toNat ++ leBytes 8 (s.reg (BOOT_SLOT 0)).toNat ++ leBytes 8 (s.reg (BOOT_SLOT 1)).toNat)) ∧
      (frType f = 0x40 → s.erased = false → p.length = 4 → 8192 ≤ leNat p → leNat p ≤ 6287360 → s.svc.upd = none →
        let r := (s1.eraseSlot 0).flashOp
        (r.2 = true → ans (.recoverBegin f) { r.1 with svc := { r.1.svc with upd := some ⟨true, 0, leNat p, []⟩ } } 0 []) ∧
        (r.2 = false → ans (.recoverBegin f) (r.1.closeUpd 0) 0x0C [])) ∧
      (∀ x, frType f = 0x41 → s.svc.upd = some x → x.recov = true → 5 ≤ p.length → p.length ≤ 4080 →
        leNat (p.take 4) = x.data.length → x.data.length + (p.length - 4) ≤ x.len →
        ans (.recoverData f) { s1 with svc := { s1.svc with upd := some { x with data := x.data ++ p.drop 4 } } } 0 []) ∧
      (∀ x, frType f = 0x42 → s.svc.upd = some x → p = [] → x.data.length = x.len →
        let r := s1.storeImage 0 x.data
        let v := r.1.closeUpd 0
        ans (.recoverEnd f) (if r.2 = 0 then { v.writeDir 0 with svc := { (v.writeDir 0).svc with resetC := s.c + 1 } } else v)
          (verdict r.2).1 (verdict r.2).2)) ∧
    (ok → enc = true → seq = s.svc.next → s.flag TOP_FW_STAT_RECOVERY = false → s.svc.opened = true → s.lnt.sk ≠ none →
      s.flag TOP_FW_STAT_PAUSE = false → match s0.frOpen f with
      | none => ∀ k ∈ ([(.deltaBegin f, 0x20), (.deltaData f, 0x21), (.deltaEnd f, 0x22), (.activate f, 0x30)] : List (Instr × Nat)),
        frType f = k.2 → exec k.1 s = .next (s0.refuseSvc f 3)
      | some p =>
        let s1 : State := { s with svc := { s.svc with lastC := s.c, seq := seq, cached := none, next := seq + 1 } }
        let ans (c : Instr) (t : State) (st : Nat) (body : List Byte) : Prop :=
          exec c s = .next (t.answerSvc true (frType f) seq st body)
        (frType f = 0x20 → p.length = 4 → 0 < leNat p → leNat p ≤ 16777216 → s.svc.upd = none → s.armedFor 36 = false →
          let slot := 1 - s.get BOOT_STAT_ACTIVE_SLOT
          let r := (s1.eraseSlot slot).flashOp
          (r.2 = true → ans (.deltaBegin f) { r.1 with svc := { r.1.svc with upd := some ⟨false, slot, leNat p, []⟩ } } 0 []) ∧
          (r.2 = false → ans (.deltaBegin f) (r.1.closeUpd slot) 0x0C [])) ∧
        (∀ x, frType f = 0x21 → s.svc.upd = some x → x.recov = false → 5 ≤ p.length → p.length ≤ 4080 →
          leNat (p.take 4) = x.data.length → x.data.length + (p.length - 4) ≤ x.len →
          let y : UpdSt := { x with data := x.data ++ p.drop 4 }
          let v : State := { s1 with svc := { s1.svc with upd := some y } }
          if x.data.length < 80 ∧ 80 ≤ y.data.length ∧
              bytesAt y.data 16 64 ≠ bytesAt (s.slot (s.get BOOT_STAT_ACTIVE_SLOT)).hdr 64 64 then
            ans (.deltaData f) (v.closeUpd x.slot) 8 []
          else ans (.deltaData f) v 0 []) ∧
        (∀ x, frType f = 0x22 → s.svc.upd = some x → p = [] → x.data.length = x.len →
          match deltaApply s.runImg (imgVendor s.runImg) x.data with
          | .error e => ans (.deltaEnd f) (s1.closeUpd x.slot) 9 (leBytes 1 e)
          | .ok img => ans (.deltaEnd f) ((s1.storeImage x.slot img).1.closeUpd x.slot) (verdict (s1.storeImage x.slot img).2).1
              (verdict (s1.storeImage x.slot img).2).2) ∧
        (frType f = 0x30 → p.length = 24 → Machine.u p 0 1 % 2 = s.get BOOT_ACT_SLOT → bitOf (Machine.u p 0 1) 1 = false →
          (s1.actNow.actv = none → ans (.activate f) s1.actNow 0x0D (leBytes 1 (s1.actNow.get BOOT_STAT_ACT_RESULT))) ∧
          (s1.actNow.actv ≠ none → exec (.activate f) s =
            .next { s1.actNow with svc := { s1.actNow.svc with actWait := true } })) ∧
        (frType f = 0x30 → p.length = 24 → Machine.u p 0 1 % 2 = s.get BOOT_ACT_SLOT → bitOf (Machine.u p 0 1) 1 = true →
          s.arm = none →
          let v := (((s1.put TOP_MODE_UNITS_UNITS (2 ^ 36)).put TOP_MODE_CTRL_GEN (s.get TOP_MODE_STATUS_LAST_GEN + 1)).put
            TOP_MODE_TIME_TIME (Machine.u p 8 8)).put TOP_MODE_PEERS_PEERS (Machine.u p 16 8)
          ans (.activate f) v.tryArm (if v.armRefusal.isSome then 0x0D else 0) (leBytes 1 (v.tryArm.get TOP_MODE_STATUS_RESULT)))) ∧
    (s.svcUp = true → exec .svcByteGap s = .next (s.bump KPR_CNT_SVC_DISCARD_COUNT 1)) ∧
    (s.svcUp = false → exec .svcByteGap s = .next s) ∧
    (s.dead = true ∨ s.c < s.svc.lastC + 4000000000 → exec .svcIdleTimeout s = .next s) ∧
    (s.dead = false → s.svc.lastC + 4000000000 ≤ s.c →
      let t : State := { s.endSession with svc := { s.endSession.svc with baud := 0 } }
      exec .svcIdleTimeout s = .next t ∧ t.svc.opened = false ∧
      t.lnt.sk = none ∧ t.svc.upd = none ∧ t.svc.baud = 0) ∧
    (s.dead = true ∨ s.svc.resetC = 0 ∨ s.c + 1 < s.svc.resetC + 8000000 → exec .recoveryReset s = .next s) ∧
    (s.dead = false → s.svc.resetC ≠ 0 → s.svc.resetC + 8000000 ≤ s.c + 1 → exec .recoveryReset s = .next (s.coldAssert false))

/-- R491 to R495: activation. A write of BOOT_ACT stages SLOT and starts the preload; the preload is ready where the slot
verifies; ACT_NOW on a ready, compatible slot pauses firmware with the staged SLOT active, else it is refused; the new image
runs when it is ready within 15 ms, or the old one goes on after them; both end the pause and show the result. -/
def Obligations.ActivationSwitchesOrRollsBack : Prop :=
  ∀ s : State,
    (∀ (rq : Requester) (v : Word32), s.opens rq BOOT_ACT = true →
      (bitOf v.toNat 1 = false → s.armedFor 36 = false →
        let t := (s.stageWrite BOOT_ACT v.toNat mask32).startPreload
        exec (.bootActStage rq v) s = .next t ∧
        t.get BOOT_ACT_SLOT = bitsOf v.toNat 0 1 ∧ t.get BOOT_STAT_PRELOAD = 1 ∧ t.stageImg = none ∧ t.active = s.active ∧
        t = { s with regs := t.regs, stageImg := none } ∧
        ∀ b, b ≠ BOOT_ACT → b ≠ BOOT_STAT → b ≠ TOP_ISL_MODE 36 → t.reg b = s.reg b) ∧
      (bitOf v.toNat 1 = false → s.armedFor 36 = true →
        exec (.bootActStage rq v) s = .next (s.put (TOP_ISL_MODE_LOST_WRITE 36) 1)) ∧
      (bitOf v.toNat 1 = true → s.armedFor 36 = false → bitsOf v.toNat 0 1 ≠ s.get BOOT_ACT_SLOT →
        exec (.actNow rq v) s = .next (s.stageWrite BOOT_ACT v.toNat mask32).startPreload.actNow) ∧
      (bitOf v.toNat 1 = true → s.armedFor 36 = false → bitsOf v.toNat 0 1 = s.get BOOT_ACT_SLOT →
        let slot := s.get BOOT_ACT_SLOT
        let may := s.actv = none ∧ s.fwRuns = true ∧ s.bootOk slot = true ∧ s.dirtyKeys 36 ⊆ [BOOT_ACT]
        let t := (s.stageWrite BOOT_ACT v.toNat mask32).actNow
        exec (.actNow rq v) s = .next t ∧
          (may → t.get TOP_FW_STAT_PAUSE = 1 ∧ t.get TOP_FW_STAT_READY = 0 ∧ t.actv = some ⟨slot, s.c⟩ ∧
            t.getA BOOT_ACT_SLOT = slot ∧ t.stageImg = s.stageImg ∧ t.mem = s.mem ∧ t.descs = s.descs) ∧
          (¬ may → t.get BOOT_STAT_ACT_RESULT = 3 ∧ t.actv = s.actv ∧ t.active = s.active ∧
            OnlyRegs [BOOT_ACT, BOOT_STAT, TOP_ISL_MODE 36] s t))) ∧
    (∀ ok, s.dead = true ∨ s.get BOOT_STAT_PRELOAD ≠ 1 → exec (.preloadDone ok) s = .next s) ∧
    (∀ ok, s.dead = false → s.get BOOT_STAT_PRELOAD = 1 →
      let slot := s.get BOOT_ACT_SLOT
      let x := s.verifySlot (s.slot slot)
      exec (.preloadDone ok) s = .next (if ok = true ∧ x.1 = 0 ∧ s.lnt.tampered = false
        then { s.put BOOT_STAT_PRELOAD 2 with stageImg := some (slot, x.2) } else s.put BOOT_STAT_PRELOAD 3)) ∧
    (s.actv = none → exec .activationReady s = .next s ∧ exec .activationRollback s = .next s) ∧
    (∀ a : ActSt, s.actv = some a → s.dead = false →
      (s.c < a.c0 + 12000000 → exec .activationRollback s = .next s) ∧
      (∀ img, s.stageImg = some (a.slot, img) → a.c0 + 12000000 < s.c → exec .activationReady s = .next s) ∧
      (a.c0 + 12000000 ≤ s.c →
        exec .activationRollback s = .next (((s.endPause a).actEnd 2 (s.pauseUs a)).actReply 0x0D)) ∧
      (∀ img, s.stageImg = some (a.slot, img) → s.c ≤ a.c0 + 12000000 →
        let floor := if imgRaise img then max s.lnt.svnFloor (imgSvn img) else s.lnt.svnFloor
        let v : State := { s with
          runImg := img, stageImg := none, lnt := { s.lnt with mKeeper := Config.sha3 (sectionOf img 1), svnFloor := floor } }
        let w := (((v.showVersions img).bump TOP_FW_STAT_ACT_COUNT 1).put BOOT_STAT_ACTIVE_SLOT a.slot).put BOOT_STAT_PRELOAD 0
        exec .activationReady s = .next ((((w.endPause a).writeDir a.slot).actEnd 1 (s.pauseUs a)).actReply 0) ∧
          w.get BOOT_STAT_ACTIVE_SLOT = a.slot % 2) ∧
      (s.dbLatch = [] →
        let x := s.rotPairs
        let y := x.put BOOT_ACT_SLOT (x.get BOOT_STAT_ACTIVE_SLOT)
        let z := (y.setAct BOOT_ACT (y.reg BOOT_ACT)).refreshDirtyBit 36
        let u : State := { (z.put TOP_FW_STAT_PAUSE 0).put TOP_FW_STAT_READY 1 with actv := none, seqC := z.seqC + (z.c - a.c0) }
        s.endPause a = ((u.settle).jobs.map (fun e => e.1)).foldl State.deadlineCheck u.settle.lateFtti ∧
          u.get TOP_FW_STAT_PAUSE = 0 ∧ u.get TOP_FW_STAT_READY = 1 ∧ u.getA BOOT_ACT_SLOT = s.get BOOT_STAT_ACTIVE_SLOT ∧
          u.descs = s.descs ∧ u.mem = s.mem ∧ u.runImg = s.runImg))

/-- R501, R502, R505, R511: steps and rates. A change of rate within its range is continuous at its tick, one outside it is
refused; an unforced step beyond LIMIT_NS is refused and changes no time; any other step adds DELTA to the offset. Without SRC
3 the driver's rate and unforced steps are ignored and counted. R506, R510, R512: the sources. A Sync of the grandmaster, or
an exchange with the peer after 125 µs, corrects the time through the servo. A correction beyond LIMIT_NS is refused, after
which Beacon time is as before and the state is HOLDOVER; while refused and still beyond it, only the rate may move. A Sync
goes on at the other 802.1AS ports. A lost master takes SYNC to HOLDOVER. -/
def Obligations.BeaconTimeIsKept : Prop :=
  (∀ (rq : Requester) (s : State),
     let src := s.get BCN_STATUS_SRC_ACTIVE
     (∀ v : Word64, s.opens rq BCN_RATE = true →
       let r := v.toNat % 2 ^ 40
       (src ≠ 3 → rq ≠ .keeper → exec (.bcnRateWrite rq v) s = .next (s.bump TOP_ERR_UNMAPPED_COUNT 1)) ∧
       (src = 3 ∨ rq = .keeper → r < 0x13FDF3B64 ∨ 0x14020C49C < r →
         exec (.bcnRateWrite rq v) s = .next ((s.put BCN_EVT_RATE_ERR 1).pfIrq BCN_IRQ_VECTOR BCN_IRQ_EN)) ∧
       (src = 3 ∨ rq = .keeper → 0x13FDF3B64 ≤ r → r ≤ 0x14020C49C →
         let u := (s.setRate r).1
         let t := if src = 3 then u.bcnState 1 else u
         exec (.bcnRateWrite rq v) s = .next t ∧
         t.get BCN_RATE_RATE = r ∧ t.beacon = s.beacon ∧ t.now = s.now ∧
         t.get BCN_STATUS_STATE = (if src = 3 then 1 else s.get BCN_STATUS_STATE) ∧
         t = { s with regs := t.regs, out := t.out, pcie := t.pcie } ∧
         ∀ b, b ≠ BCN_RATE → b ≠ BCN_OFFSET → b ≠ BCN_OFFSET_FRAC → b ≠ BCN_STATUS → b ≠ BCN_EVT → t.reg b = s.reg b)) ∧
     (∀ v : Word32, s.opens rq BCN_STEP_CTL = true → bitOf v.toNat 0 = true →
       let delta := s.get BCN_STEP_DELTA_DELTA
       let big := s.get BCN_JUMP_LIMIT_LIMIT_NS < absDelta delta
       let quiet := s.arm = none ∧ s.flag SAF_STATUS_SAFETY_READY = false ∧ ∀ n, n < 64 → s.trigNext n = none
       let moved (v : State) : Prop := v.get BCN_OFFSET_OFFSET = (s.get BCN_OFFSET_OFFSET + delta) % 2 ^ 64 ∧
         v.beacon = (s.beacon + delta) % 2 ^ 64 ∧ v.get BCN_RATE_RATE = s.get BCN_RATE_RATE ∧ v.now = s.now ∧
         v.get (BCN_CNT_STEP_COUNT 0) = min (s.get (BCN_CNT_STEP_COUNT 0) + 1) 0xFFFFFFFF ∧
         v.mem = s.mem ∧ v.descs = s.descs
       let shown (near : Bool) (v : State) : State :=
         if src = 3 ∧ near = true then (v.put BCN_STEP_CTL_RESULT 1).bcnState 1 else v.put BCN_STEP_CTL_RESULT 1
       let at_ (v : State) : State :=
         ((v.put BCN_OFFSET_OFFSET (v.get BCN_OFFSET_OFFSET + delta)).bump (BCN_CNT_STEP_COUNT 0) 1).newWindow
       let f := (s.bump (BCN_CNT_STEP_COUNT 2) 1).bcnEvt BCN_EVT_FORCED
       (bitOf v.toNat 1 = false → src ≠ 3 → rq ≠ .keeper →
         exec (.bcnStep rq v) s = .next (s.bump TOP_ERR_UNMAPPED_COUNT 1)) ∧
       (bitOf v.toNat 1 = false → src = 3 ∨ rq = .keeper → big →
         let w := (s.bump (BCN_CNT_STEP_COUNT 1) 1).bcnEvt BCN_EVT_REFUSED
         let x : State := { w with bcn := { w.bcn with refused := true } }
         let t := (x.bcnState 2).put BCN_STEP_CTL_RESULT 2
         exec (.bcnStep rq v) s = .next t ∧
         t.beacon = s.beacon ∧ t.get BCN_STEP_CTL_RESULT = 2 ∧ t.get BCN_STATUS_STATE = 2 ∧ t.get BCN_EVT_REFUSED = 1 ∧
         t.get (BCN_CNT_STEP_COUNT 1) = min (s.get (BCN_CNT_STEP_COUNT 1) + 1) 0xFFFFFFFF ∧ t.bcn = { s.bcn with refused := true } ∧
         t = { s with regs := t.regs, bcn := t.bcn, out := t.out, pcie := t.pcie }) ∧
       (bitOf v.toNat 1 = false → src = 3 ∨ rq = .keeper → ¬ big → exec (.bcnStep rq v) s = .next (shown true (s.applyStep delta))) ∧
       (quiet → s.applyStep delta = (at_ s).settle ∧ moved (at_ s)) ∧
       (bitOf v.toNat 1 = true →
         let x := f.applyStep delta
         exec (.bcnForcedStep rq v) s = .next (shown (decide (¬ big) || s.get BCN_STATUS_STATE != 2)
           { x with bcn := { x.bcn with refused := false } })) ∧
       (quiet → f.applyStep delta = (at_ f).settle ∧ moved (at_ f) ∧
         (at_ f).get (BCN_CNT_STEP_COUNT 2) = min (s.get (BCN_CNT_STEP_COUNT 2) + 1) 0xFFFFFFFF ∧ (at_ f).get BCN_EVT_FORCED = 1))) ∧
  (∀ s : State,
     let src := s.get BCN_STATUS_SRC_ACTIVE
     (∀ p ns gm, src ≠ 1 ∨ s.fwRuns = false ∨ s.asPort p = false → exec (.gptpSync ⟨p, ns⟩ gm) s = .next s) ∧
     (∀ p ns (gm : Word64), src = 1 → s.fwRuns = true → s.asPort p = true →
       let v : State := { s with bcn := { s.bcn with lastC := s.c } }
       let w := (v.relaySync p).put BCN_GM_ID_ID gm.toNat
       exec (.gptpSync ⟨p, ns⟩ gm) s = .next (w.servo (ns + s.portLat p false)) ∧ w.out.sync = s.out.sync ++
         ((List.range 8).filter (fun q => q != p && s.asPort q)).map (fun q => (q, s.beacon + s.portLat q true))) ∧
     (∀ p ns, src ≠ 2 ∨ s.getA BCN_CFG_PEER_ID ≠ p ∨ s.fwRuns = false ∨ s.c < s.bcn.lastC + 100000 →
       exec (.peerTimeExchange p ns) s = .next s) ∧
     (∀ p ns, src = 2 → s.getA BCN_CFG_PEER_ID = p → s.fwRuns = true → s.bcn.lastC + 100000 ≤ s.c →
       exec (.peerTimeExchange p ns) s =
         .next ((({ s with bcn := { s.bcn with lastC := s.c } } : State).sendTime p).servo ns)) ∧
     (∀ ns, ns < 2 ^ 64 → s.get BCN_STATUS_STATE ≠ 0 ∨ s.flagA BCN_CFG_INIT_FORCE = false →
       s.get BCN_JUMP_LIMIT_LIMIT_NS < absDelta ((ns + 2 ^ 64 - s.beacon) % 2 ^ 64) →
       let t := s.servo ns
       t.beacon = s.beacon ∧ t.get BCN_STATUS_LAST_ERR = lastErr s.beacon ns ∧ t.bcn = { s.bcn with refused := true } ∧
       0x13FDF3B64 ≤ t.get BCN_RATE_RATE ∧ t.get BCN_RATE_RATE ≤ 0x14020C49C ∧
       t.get BCN_STATUS_STATE = (if s.bcn.refused = true then s.get BCN_STATUS_STATE else 2)) ∧
     (let lost := s.get BCN_STATUS_STATE = 1 ∧ (src = 1 ∨ src = 2 ∧ s.bcn.lastC + 800000 ≤ s.c)
      (¬ lost → exec .masterLoss s = .next s) ∧
      (lost → let t := s.bcnState 2
        exec .masterLoss s = .next t ∧ t.get BCN_STATUS_STATE = 2 ∧ t.get BCN_EVT_STATE_CHG = 1 ∧
        t.beacon = s.beacon ∧ t = { s with regs := t.regs, out := t.out, pcie := t.pcie } ∧
        ∀ b, b ≠ BCN_STATUS → b ≠ BCN_EVT → t.reg b = s.reg b)))

/-- R514, R515, R517, R518: comparators and pulses. A comparator whose instant has come records LAST, sets its bit in
BCN_TRIG_STAT and, if periodic, waits for its next instant; then its consumers act. Arming takes TIME, or the first instant of
the sequence not yet passed; a one-shot of the past fires at once with LATE. Comparators 48 to 63 take no BAR0 write. -/
def Obligations.ComparatorsFireAtTheirInstants : Prop :=
  ∀ (n : Nat) (s : State), n < 64 →
    let fired (u : State) (nxt : Option Nat) : Prop :=
      u.get (BCN_TRIG_W3_LAST n) = s.beacon ∧ u.get ⟨BCN_TRIG_STAT, n, 1⟩ = 1 ∧ u.trigNext n = nxt ∧
      (∀ m, m ≠ n → u.trigNext m = s.trigNext m) ∧
      u = { s with regs := u.regs, bcn := u.bcn, out := u.out, pcie := u.pcie, shadow := u.shadow, pwr := u.pwr, fresh := u.fresh }
    let told (u : State) : State :=
      let v := if u.flag (BCN_TRIG_W2_IRQ n) then u.pfIrq BCN_IRQ_VECTOR BCN_IRQ_EN else u
      if v.flag (BCN_TRIG_W2_SNAP n) then v.snapshot else v
    ((s.trigNext n = none ∨ s.dead = true ∨ ∃ t, s.trigNext n = some t ∧ s.beacon < t) → exec (.comparatorFire n) s = .next s) ∧
    (∀ t, s.trigNext n = some t → t ≤ s.beacon → s.dead = false →
      let nxt := if s.flag (BCN_TRIG_W2_MODE n) then some (t + max 1 (s.get (BCN_TRIG_W1_PERIOD_NS n))) else none
      let u := told ((s.setTrig n nxt).put (BCN_TRIG_W3_LAST n) s.beacon |>.put ⟨BCN_TRIG_STAT, n, 1⟩ 1)
      exec (.comparatorFire n) s = .next (u.trigConsumers n) ∧ fired u nxt ∧
      u.get (BCN_TRIG_W2_LATE n) = s.get (BCN_TRIG_W2_LATE n)) ∧
    (∀ (rq : Requester) (v : Word64), s.opens rq (BCN_TRIG_W2 n) = true →
      (48 ≤ n → rq ≠ .keeper → rq ≠ .lantern →
        exec (.comparatorWrite rq n 2 v) s = .next (s.bump TOP_ERR_UNMAPPED_COUNT 1)) ∧
      (n < 48 ∨ rq = .keeper →
        let time := s.get (BCN_TRIG_W0_TIME n)
        let per := s.get (BCN_TRIG_W1_PERIOD_NS n)
        let w := s.plainWrite (BCN_TRIG_W2 n) v.toNat mask64
        let on := bitOf v.toNat 0 = true ∧ s.flag (BCN_TRIG_W2_EN n) = false
        OnlyRegs [BCN_TRIG_W2 n] s w ∧
        (bitOf v.toNat 0 = false → exec (.comparatorWrite rq n 2 v) s = .next (w.setTrig n none) ∧ w.get (BCN_TRIG_W2_EN n) = 0) ∧
        (bitOf v.toNat 0 = true → s.flag (BCN_TRIG_W2_EN n) = true → bitOf v.toNat 1 = s.flag (BCN_TRIG_W2_MODE n) →
          exec (.comparatorWrite rq n 2 v) s = .next w) ∧
        (on → bitOf v.toNat 1 = false → s.beacon ≤ time →
          exec (.comparatorWrite rq n 2 v) s = .next (w.setTrig n (some time))) ∧
        (on → bitOf v.toNat 1 = false → time < s.beacon →
          let u := told ((((w.setTrig n none).put (BCN_TRIG_W3_LAST n) s.beacon).put ⟨BCN_TRIG_STAT, n, 1⟩ 1).put
            (BCN_TRIG_W2_LATE n) 1 |>.bcnEvt BCN_EVT_LATE)
          exec (.comparatorWrite rq n 2 v) s = .next (u.trigConsumers n) ∧ fired u none ∧
            u.get (BCN_TRIG_W2_LATE n) = 1 ∧ u.get BCN_EVT_LATE = 1) ∧
        (on → bitOf v.toNat 1 = true → 0 < per →
          exec (.comparatorWrite rq n 2 v) s = .next (w.setTrig n (some (s.trigFrom n s.beacon))) ∧
          ∃ k : Nat, s.trigFrom n s.beacon = time + k * per ∧
            s.beacon ≤ time + k * per ∧ (k = 0 ∨ time + (k - 1) * per < s.beacon)))) ∧
    (∀ k : Nat,
      let e := mget (fun _ => 0) s.bcn.pulse k
      (e = 0 ∨ s.c + 1 < e → exec (.pulseEnd k) s = .next s) ∧
      (e ≠ 0 → e ≤ s.c + 1 → exec (.pulseEnd k) s = .next { s with
        out := { s.out with bcnOut := putNth s.out.bcnOut k false }
        bcn := { s.bcn with pulse := mset (fun _ => 0) s.bcn.pulse k 0 } }))

/-- R528, R531, R532, R536: packets that peers send. On a port that is not up nothing arrives. A read, a write, a semaphore
request and an echo are each answered; a request outside the import partitions is refused with a status and touches no memory;
a read answers the bytes, a write stores them, an addition to an exported semaphore saturates. A flit for another device goes
on. R523, R524, R529, R533, R534: ports. Enabling starts training, disabling clears the port's status, a port that is down
stays down; training with the neighbour and port that the topology names brings the port up on its lanes, else it is refused.
An idle flit returns credits and acknowledges; a NAK sends the replay buffer again, and as many in a row as ATTEMPTS for one
SEQ retire a lane; an error sends one NAK. -/
def Obligations.PeerPacketsAndPorts : Prop :=
  (∀ (p : Nat) (s : State),
     let g (n : Nat) : State := s.gotFlits p n
     (s.linkIn p = false →
       (∀ k, exec (.rdReq p k) s = .next s) ∧ (∀ k bs cs, exec (.wrReq p k bs cs) s = .next s) ∧
       (∀ a b c d, exec (.semReq p a b c d) s = .next s) ∧ (∀ a b c, exec (.echoReq p a b c) s = .next s) ∧
       (∀ a b, exec (.lnkTime p a b) s = .next s) ∧ ∀ a, exec (.flitForward p a) s = .next s) ∧
     (s.linkIn p = true →
       (∀ src tag x, exec (.echoReq p src tag x) s = .next ((g 1).answer 7 src tag 0 0 x 0 0 false [] [])) ∧
       (∀ src tag sem n,
         let lo := s.get LNK_RSEM_BASE
         let u := (g 1).semAdd sem n 2 ⟨0x3FFF, src, 0, 0, (g 1).beacon⟩ (fun s a b => s.emitPlain 36 0x08 a b)
         (sem < lo ∨ lo + s.get LNK_RSEM_CNT ≤ sem ∨ 4096 ≤ sem → exec (.semReq p src tag sem n) s =
           .next (((g 1).bump LNK_CNT_REFUSED_IN_COUNT 1).answer 5 src tag 0xC3 0 0 0 0 false [] [])) ∧
         (lo ≤ sem → sem < lo + s.get LNK_RSEM_CNT → sem < 4096 →
           exec (.semReq p src tag sem n) s = .next (u.1.answer 5 src tag (if 0xFFFFFFFF < s.get (CMD_SEM_COUNT sem) + n then 2 else 0) 0
             (u.1.get (CMD_SEM_COUNT sem)) 0 0 false [] []).settle ∧
           (s.waitersOf sem = [] → u.1.get (CMD_SEM_COUNT sem) = min (s.get (CMD_SEM_COUNT sem) + n) 0xFFFFFFFF ∧
             u.1.descs = s.descs ∧ u.1.mem = s.mem))) ∧
       (∀ (k : LnkReq) (bs : List Byte) (cs : List Nat), k.dst = s.get LNK_CFG_DEV_ID → 0 < k.len → bs.length = k.len →
         let a := windowAddr k.addr
         let r := lnkReq p k
         let m := 1 + (k.len + 63) / 64
         let rd (u : State) (st : Nat) (cmps : List Nat) (data : List Byte) : State := u.answer 2 k.src k.tag st k.addr 0 0 k.part k.w cmps data
         let wr (u : State) (st : Nat) : State := u.answer 3 k.src k.tag st k.addr 0 0 k.part k.w [] []
         let out (u : State) : State := u.bump LNK_CNT_REFUSED_IN_COUNT 1
         (bitOf (s.get LNK_IMPORT_PARTS) k.part = false ∨ (k.w = true ∧ s.flag LNK_SEC_SEC_EN = false) →
           let x := Config.freeNat s.fresh % 255 + 1
           exec (.rdReq p k) s = .next (rd (out ((g 1).freshen 1)) x [] []) ∧
           exec (.wrReq p k bs cs) s = .next (wr (out ((g m).freshen 1)) x) ∧
           (out ((g m).freshen 1)).mem = s.mem ∧ (out ((g m).freshen 1)).tags = s.tags ∧
           (out ((g m).freshen 1)).get LNK_CNT_REFUSED_IN_COUNT = min (s.get LNK_CNT_REFUSED_IN_COUNT + 1) 0xFFFFFFFF) ∧
         (∀ u st, (g 1).lnkCheck r false a k.len = (u, some st) → exec (.rdReq p k) s = .next (rd (out u) st [] [])) ∧
         (∀ u st, (g m).lnkCheck r true a k.len = (u, some st) → exec (.wrReq p k bs cs) s = .next (wr (out u) st)) ∧
         (((g 1).lnkCheck r false a k.len).2 = none →
           let v := (g 1).decodeAll r (cwAddrs a k.len)
           (v.2 = false → exec (.rdReq p k) s = .next (rd v.1 0x23 [] [])) ∧
           (v.2 = true → exec (.rdReq p k) s = .next (rd ((v.1.countDdr false a k.len).charge r false a k.len).1 0
             ((cwAddrs a k.len).map (fun x => tagCmp (v.1.tag (x / 32)))) (v.1.rawBytes a k.len))) ∧
           (s.ecc = [] → v = (g 1, true) ∧ v.1.rawBytes a k.len = s.rawBytes a k.len)) ∧
         (((g m).lnkCheck r true a k.len).2 = none →
           let v := (g m).writeCmps r a bs (runsOf cs)
           exec (.wrReq p k bs cs) s = .next (wr v 0) ∧
           ∀ c, a % 32 = 0 → k.len % 32 = 0 → cs = List.replicate (k.len / 32) c →
             ∀ b, v.byte b = if a ≤ b ∧ b < a + k.len then nth 0 bs (b - a) else s.byte b)) ∧
       (∀ src st, exec (.lnkTime p src st) s =
         .next (if s.get BCN_STATUS_SRC_ACTIVE = 2 ∧ s.getA BCN_CFG_PEER_ID = src then g 1 else (g 1).sendTime src)) ∧
       (∀ k : FwdFlit,
         (k.dst = s.get LNK_CFG_DEV_ID → exec (.flitForward p k) s = .next s) ∧
         (k.dst ≠ s.get LNK_CFG_DEV_ID →
           ((g 1).routePort k.dst k.addr = none → exec (.flitForward p k) s = .next (g 1)) ∧
           ∀ q, (g 1).routePort k.dst k.addr = some q →
             let u := (g 1).bump (LNK_CNT_FWD_COUNT p) 1
             let f : FwdFlit := { k with vcp := (g 1).vcpOn p q k.vcp }
             exec (.flitForward p k) s = .next (u.txFwd q f) ∧
             (nth 0 (u.port q).credits f.vcp ≠ 0 → (u.port q).fwd = [] →
               (u.txFwd q f).out = { s.out with fwd := s.out.fwd ++ [(q, f)] }))))) ∧
  (∀ (p : Nat) (s : State),
     (∀ (rq : Requester) (v : Word32), p < 4 → s.opens rq (LNK_PORT_CFG p) = true → openFields (LNK_PORT_CFG p) = true →
       let w := s.plainWrite (LNK_PORT_CFG p) v.toNat mask32
       (s.get (LNK_PORT_STAT_STATE p) = 4 ∨ s.flag (LNK_PORT_CFG_EN p) = bitOf v.toNat 0 →
         exec (.portEnable rq p v) s = .next w ∧ OnlyRegs [LNK_PORT_CFG p] s w) ∧
       (s.get (LNK_PORT_STAT_STATE p) ≠ 4 → s.flag (LNK_PORT_CFG_EN p) = false → bitOf v.toNat 0 = true →
         let t := ({ w with ports := mset portDefault w.ports p { portDefault p with enC := s.c } } : State).put (LNK_PORT_STAT_STATE p) 1
         exec (.portEnable rq p v) s = .next t ∧ t.get (LNK_PORT_STAT_STATE p) = 1 ∧ t.get (LNK_PORT_CFG_EN p) = 1 ∧
         t.port p = { portDefault p with enC := s.c } ∧ OnlyRegs [LNK_PORT_CFG p, LNK_PORT_STAT p] { s with ports := t.ports } t) ∧
       (s.get (LNK_PORT_STAT_STATE p) ≠ 4 → s.flag (LNK_PORT_CFG_EN p) = true → bitOf v.toNat 0 = false →
         let t := w.setReg (LNK_PORT_STAT p) 0
         exec (.portEnable rq p v) s = .next t ∧ t.reg (LNK_PORT_STAT p) = 0 ∧ t.get (LNK_PORT_CFG_EN p) = 0 ∧
         OnlyRegs [LNK_PORT_CFG p, LNK_PORT_STAT p] s t)) ∧
     (∀ id q m, s.get (LNK_PORT_STAT_STATE p) ≠ 1 → s.get (LNK_PORT_STAT_STATE p) ≠ 3 →
       exec (.trainingDone p id q m) s = .next s) ∧
     (∀ id q m, p < 4 → s.dead = false → s.get (LNK_PORT_STAT_STATE p) = 1 ∨ s.get (LNK_PORT_STAT_STATE p) = 3 →
       let right := s.neighbour p = some id ∧ id ≠ s.get LNK_CFG_DEV_ID ∧ q = (if p % 2 = 0 then p + 1 else p - 1)
       let w := (s.put (LNK_PORT_STAT_NEIGH_ID p) id).put (LNK_PORT_STAT_NEIGH_PORT p) q
       (¬ right → let t := (w.put (LNK_PORT_STAT_LANES p) 0).put (LNK_PORT_STAT_STATE p) 5
         exec (.trainingDone p id q m) s = .next t ∧ t.get (LNK_PORT_STAT_STATE p) = 5 ∧
         t.get (LNK_PORT_STAT_LANES p) = 0 ∧ t.get (LNK_PORT_STAT_NEIGH_ID p) = id % 64 ∧ OnlyRegs [LNK_PORT_STAT p] s t) ∧
       (right → s.goodLanes p m = 0 → exec (.trainingDone p id q m) s = .next w ∧
         w.get (LNK_PORT_STAT_STATE p) = s.get (LNK_PORT_STAT_STATE p) ∧ OnlyRegs [LNK_PORT_STAT p] s w) ∧
       (right → s.goodLanes p m ≠ 0 →
         let up := (w.put (LNK_PORT_STAT_LANES p) (s.goodLanes p m)).put (LNK_PORT_STAT_STATE p) 2
         let f : PortSt := { portDefault p with enC := (s.port p).enC, queued := (s.port p).queued, fwd := (s.port p).fwd }
         let u := if s.get (LNK_PORT_STAT_STATE p) = 1 then up.setPort p f
           else up.bump (LNK_CNT_TX_COUNT p) (s.port p).replay.length
         exec (.trainingDone p id q m) s = .next (u.drainPort p) ∧
         u.get (LNK_PORT_STAT_STATE p) = 2 ∧ u.get (LNK_PORT_STAT_LANES p) = s.goodLanes p m ∧
         OnlyRegs [LNK_PORT_STAT p, (LNK_CNT_TX_COUNT p).off] { s with ports := u.ports } u ∧
         ((s.port p).queued = [] → (s.port p).fwd = [] → (u.drainPort p).port p = u.port p ∧ (u.drainPort p).regs = u.regs))) ∧
     (s.linkIn p = false → (∀ a cs, exec (.idleFlit p a cs) s = .next s) ∧ (∀ a, exec (.nak p a) s = .next s) ∧
       ∀ b, exec (.flitReceiveError p b) s = .next s) ∧
     (s.linkIn p = true →
       let rest (a : Nat) : List Nat := if (s.port p).replay.contains a then ((s.port p).replay.dropWhile (· != a)).drop 1
         else (s.port p).replay
       let x (a : Nat) : State := (s.bump (LNK_CNT_RX_COUNT p) 1).acked p a
       (∀ a, (x a).port p = { s.port p with replay := rest a } ∧
         (x a).get (LNK_CNT_RX_COUNT p) = min (s.get (LNK_CNT_RX_COUNT p) + 1) (2 ^ 64 - 1) ∧
         OnlyRegs [(LNK_CNT_RX_COUNT p).off] { s with ports := (x a).ports } (x a)) ∧
       (∀ a cs,
         let u := (x a).setPort p { (x a).port p with credits := (s.port p).credits.mapIdx (fun i c => min 64 (c + nth 0 cs i)) }
         exec (.idleFlit p a cs) s = .next (u.drainPort p) ∧
         ((s.port p).queued = [] → (s.port p).fwd = [] → (u.drainPort p).port p = u.port p ∧ (u.drainPort p).regs = (x a).regs)) ∧
       (∀ a, rest a = [] → exec (.nak p a) s = .next (x a)) ∧
       (∀ a, rest a ≠ [] →
         let n := if (s.port p).lastNak = some a then (s.port p).fails + 1 else 1
         let u := ((((x a).setPort p { (x a).port p with fails := n, lastNak := some a }).bump (LNK_CNT_RETRY_COUNT p) 1).bump
           (LNK_CNT_TX_COUNT p) (rest a).length).transient (chPort p)
         exec (.nak p a) s = .next (if s.get SAF_CTL_ATTEMPTS ≤ n ∨ u.rateHit (chPort p) = true then u.retireLane p else u) ∧
         u.port p = { s.port p with replay := rest a, fails := n, lastNak := some a } ∧
         u.get (LNK_CNT_RETRY_COUNT p) = min (s.get (LNK_CNT_RETRY_COUNT p) + 1) 0xFFFFFFFF ∧
         u = { s with regs := u.regs, ports := u.ports, transients := u.transients }) ∧
       (∀ b : Bool,
         let v := if b then s.bump (LNK_CNT_CRC_COUNT p) 1 else s
         ((s.port p).nakSent = true → exec (.flitReceiveError p b) s = .next v) ∧
         ((s.port p).nakSent = false →
           let k : LnkPkt := ⟨8, s.get (LNK_PORT_STAT_NEIGH_ID p), 0, 0, 0, 0, ((s.port p).rxSeq + 4095) % 4096, 0, 0, false, 0, [], []⟩
           let t := (v.setPort p { s.port p with nakSent := true }).txPkt p k
           exec (.flitReceiveError p b) s = .next t ∧ (t.port p).nakSent = true ∧ t.out = { s.out with lnk := s.out.lnk ++ [(p, k)] } ∧
           t.get (LNK_CNT_CRC_COUNT p) = (if b then min (s.get (LNK_CNT_CRC_COUNT p) + 1) 0xFFFFFFFF
             else s.get (LNK_CNT_CRC_COUNT p))))))

/-- R358, R528, R536 to R538: responses and the link opcodes. A response that no request waits for is counted; an OK response
ends its request, with the data kept for its reader; an error status, or no response within TIMEOUT_US, fails it with its
code. LNK_SEM_SIGNAL and LNK_ECHO send their request once. Deferred data that failed is marked and no longer pending. -/
def Obligations.PeerOperationsEndWithTheirResponses : Prop :=
  ∀ (p : Nat) (s : State),
    let g (n : Nat) : State := s.gotFlits p n
    let late (n : Nat) : State := (g n).bump LNK_CNT_LATE_RSP_COUNT 1
    (s.linkIn p = false → (∀ k bs cs, exec (.rdRsp p k bs cs) s = .next s) ∧ (∀ k, exec (.wrAck p k) s = .next s) ∧
      (∀ k, exec (.semAck p k) s = .next s) ∧ ∀ a b, exec (.echoRsp p a b) s = .next s) ∧
    (s.linkIn p = true →
      (∀ k : LnkRsp,
        let n (bs : List Byte) : Nat := if k.status = 0 then 1 + (bs.length + 63) / 64 else 1
        (∀ bs cs, s.outReq k 0 = none → exec (.rdRsp p k bs cs) s = .next (late (n bs))) ∧
        (s.outReq k 1 = none → exec (.wrAck p k) s = .next (late 1)) ∧
        (s.outReq k 4 = none → exec (.semAck p k) s = .next (late 1)) ∧
        (∀ o bs cs, s.outReq k 0 = some o →
          (k.status ≠ 0 → exec (.rdRsp p k bs cs) s = .next ((g 1).reqFailed o 0xC2 (refusedDetail k.status o.addr))) ∧
          (k.status = 0 → bs.length ≠ 32 * o.len → exec (.rdRsp p k bs cs) s = .next (g (n bs))) ∧
          (k.status = 0 → bs.length = 32 * o.len →
            let u : State := { (g (n bs)).dropReq o with peerData := s.peerData ++
              [⟨o.desc, o.dev, o.addr, bs, cs, none, o.deferred, if o.deferred then some o.rx else none⟩] }
            exec (.rdRsp p k bs cs) s = .next u.settle ∧
            (∀ x ∈ u.lnkOut, x.tag ≠ o.tag) ∧ u.mem = s.mem ∧ u.descs = s.descs)) ∧
        (∀ o, s.outReq k 1 = some o → exec (.wrAck p k) s =
          .next (if k.status = 0 then ((g 1).dropReq o).settle else (g 1).reqFailed o 0xC2 (refusedDetail k.status o.addr))) ∧
        (∀ o d, s.outReq k 4 = some o → s.desc? o.desc = some d →
          let sem := bitsOf (d.u 16 4) 6 12
          (k.status = 0 → exec (.semAck p k) s = .next (((g 1).dropReq o).linkDone o.desc 0 0).settle) ∧
          (k.status = 2 → exec (.semAck p k) s = .next (((g 1).dropReq o).linkDone o.desc 0x02 sem).settle) ∧
          (k.status = 0xC3 → exec (.semAck p k) s = .next ((g 1).reqFailed o 0xC3 sem)))) ∧
      (∀ a b, s.outReq ⟨a, b, 0⟩ 6 = none → exec (.echoRsp p a b) s = .next (late 1)) ∧
      (∀ a b o, s.outReq ⟨a, b, 0⟩ 6 = some o → exec (.echoRsp p a b) s =
        .next ((((g 1).dropReq o).updDesc o.desc (fun x => { x with step := 2 + s.sinceNs o.sentC })).echoWrite o.desc))) ∧
    (∀ tag, s.lnkOut.find? (fun o => o.tag == tag) = none → exec (.peerTimeout tag) s = .next s) ∧
    (∀ tag o, s.lnkOut.find? (fun o => o.tag == tag) = some o → exec (.peerTimeout tag) s =
      .next (if s.c < o.sentC + 800 * s.get LNK_CFG_TIMEOUT_US then s else s.reqFailed o 0xC1 o.dev)) ∧
    (∀ i d, s.desc? i = some d →
      let sent (c : Instr) (op arg : Nat) : Prop :=
        let u := (s.peerIssue (s.mreq d 34) op (lnkDev d) 0 0 arg 0 0 []).1
        (s.routePort (lnkDev d) 0 = none → exec c s = .next (u.linkDone i 0xC0 (lnkDev d)).settle ∧
          u.get LNK_ERR_LOG0_STATUS = 0xC0 ∧ u.lnkOut = s.lnkOut ∧ u.mem = s.mem) ∧
        (∀ q, s.routePort (lnkDev d) 0 = some q → exec c s = .next (u.updDesc i (fun x => { x with step := 1 })) ∧
          u.lnkOut = s.lnkOut ++ [⟨s.newTag, lnkDev d, i, op, 0, 0, s.c, false, 0⟩] ∧ u.mem = s.mem)
      (d.runnable 0xD0 = true → d.step = 0 → sent (.lnkSemSignal i) 4 (bitsOf (d.u 16 4) 6 12 + d.u 20 4 * 2 ^ 32)) ∧
      (d.runnable 0xD1 = true → d.step = 0 → sent (.lnkEcho i) 6 s.beacon) ∧
      (d.runnable 0xD0 = true → d.step = 1 → exec (.lnkSemSignal i) s = .next s) ∧
      (d.runnable 0xD1 = true → d.step = 1 → exec (.lnkEcho i) s = .next s) ∧
      (2 ≤ d.step → exec (.lnkEcho i) s = .next (s.echoWrite i))) ∧
    (∀ c ok, (∀ x ∈ s.peerData, x.land = true → s.rxMine c x = false) → exec (.deferredReceiveLand c ok) s = .next s) ∧
    (∀ c x, s.peerData.find? (fun x => x.land && s.rxMine c x) = some x →
      let v : State := { s with peerData := s.peerData.map (fun y => if y = x then { y with land := false, err := some (0xC1, x.dev) } else y) }
      let u := v.lnkFail 0xC1 ((v.prefPort x.dev x.addr).getD 0) x.dev
      exec (.deferredReceiveLand c false) s = .next (u.rxLanded x.desc).settle ∧ u.mem = s.mem ∧ u.peerData = v.peerData ∧
      u.get LNK_ERR_LOG0_STATUS = 0xC1 ∧ u.get LNK_ERR_LOG0_DEV = x.dev % 64)

/-- R541 to R544, R552 to R556: CAN controllers and routes. A received frame is counted and offered to every matching route:
an immediate route to a slot stores its record, a latest-value route keeps it for its next instant. The frame that wins
arbitration is sent. A bus-off is counted, ends in recovery, and as many in a row as ATTEMPTS retire the controller. R549 to
R551: ACF streams. At a talker's period its messages go out in one frame where they fit, with the stream's sequence number, as
an Ethernet frame of type 0x22F0 (its layout is the model's, log 40); a listener drops and counts what it does not know,
counts a gap in the sequence, keeps a frame whose presentation time is to come until then, and offers the messages of any
other to the routes. -/
def Obligations.CanAndAcfTraffic : Prop :=
  (∀ (n : Nat) (s : State),
     let on := s.canOn n = true ∧ s.dead = false
     let got := (s.bump (GW_CAN_CNT_COUNT n 0) 1).drop (GW_CAN_STAT_REC n) 1
     (∀ f : CanFrame,
       (¬ on ∨ (f.fd = true ∧ s.flag (GW_CAN_CFG_FD n) = false) → exec (.canFrameReceived n f) s = .next s) ∧
       (on → f.fd = false ∨ s.flag (GW_CAN_CFG_FD n) = true →
         (f.rtr = true → exec (.canFrameReceived n f) s = .next (got.bump GW_CNT_RTR_COUNT 1)) ∧
         (f.rtr = false →
           exec (.canFrameReceived n f) s = .next (got.offer 0 n f s.beacon).settle ∧
           ((∀ r, r < 1024 → s.routeMatch 0 n f r = false) → got.offer 0 n f s.beacon = got) ∧
           (∀ r, r < 1024 → (∀ k, k < 1024 → (s.routeMatch 0 n f k = true ↔ k = r)) →
             (s.flag (GW_ROUTE_W0_MODE r) = false → s.get (GW_ROUTE_W0_DST_KIND r) = 2 → f.data.length ≤ 64 →
               let bs := recHeader s.beacon f.data.length n 0 f ++ f.data ++ List.replicate (80 - f.data.length) 0
               got.offer 0 n f s.beacon = got.setSlotRec (s.get (GW_ROUTE_W2_SLOT r)) bs ∧ bs.length = 96 ∧
               bs.take 8 = leBytes 8 s.beacon ∧ leNat ((bs.drop 8).take 2) = f.data.length) ∧
             (s.flag (GW_ROUTE_W0_MODE r) = true → (s.rte r).fresh = false → (s.rte r).lastT = 0 → got.offer 0 n f s.beacon =
               got.setRte r { s.rte r with value := some (f, s.beacon), fresh := true }))))) ∧
     (¬ on ∨ s.flag (GW_CAN_CFG_LISTEN n) = true ∨ (s.can n).pend = [] → exec (.canFrameSent n) s = .next s) ∧
     (on → s.flag (GW_CAN_CFG_LISTEN n) = false → (s.can n).pend ≠ [] → ∃ p ∈ (s.can n).pend, (∀ q ∈ (s.can n).pend, canBefore p q = true) ∧
       let v := (s.setCan n ⟨(s.can n).pend.filter (fun q => q.seq != p.seq), 0⟩).bump (GW_CAN_CNT_COUNT n 1) 1
       let w := v.drop (GW_CAN_STAT_TEC n) 1
       let u : State := { w with out := { w.out with can := w.out.can ++ [(n, p.f)] } }
       u.out = { s.out with can := s.out.can ++ [(n, p.f)] } ∧
       u.can n = ⟨(s.can n).pend.filter (fun q => q.seq != p.seq), 0⟩ ∧ u.mem = s.mem ∧ u.descs = s.descs ∧
       u.get (GW_CAN_CNT_COUNT n 1) = min (s.get (GW_CAN_CNT_COUNT n 1) + 1) 0xFFFFFFFF ∧
       exec (.canFrameSent n) s = .next (match p.tx with
         | some (d, i) => (u.setTx d i 2).txCheck d
         | none => u)) ∧
     (¬ on → exec (.canBusOff n) s = .next s) ∧
     (on →
       let v := ((s.bump (GW_CAN_CNT_COUNT n 3) 1).transient (chCan n)).put (GW_CAN_STAT_STATE n) 3
       let u := ((v.put (GW_CAN_STAT_TEC n) (Config.freeNat s.fresh)).freshen 1).setCan n { s.can n with offs := (s.can n).offs + 1 }
       let gone := ((u.retire (chCan n) 3).put (GW_CAN_STAT_STATE n) 4).setCan n ⟨[], 0⟩
       let mine := (s.gw.tx.filter (fun r => r.ifc == n && r.st != 2)).map (fun r => r.desc)
       exec (.canBusOff n) s = .next (if s.get SAF_CTL_ATTEMPTS ≤ (s.can n).offs + 1 ∨ u.rateHit (chCan n) = true
         then (mine.foldl (fun s d => if (s.txOf d).isEmpty then s else (s.dropTx d).gwDone d 0x31 33) gone).settle else u) ∧
       u.get (GW_CAN_STAT_STATE n) = 3 ∧ (u.can n).offs = (s.can n).offs + 1 ∧ u.mem = s.mem ∧ u.descs = s.descs ∧
       u.get (GW_CAN_CNT_COUNT n 3) = min (s.get (GW_CAN_CNT_COUNT n 3) + 1) 0xFFFFFFFF) ∧
     (16 ≤ n ∨ s.dead = true ∨ s.canState n ≠ 3 → exec (.busOffRecovery n) s = .next s) ∧
     (n < 16 → s.dead = false → s.canState n = 3 →
       let t := ((s.put (GW_CAN_STAT_STATE n) 1).put (GW_CAN_STAT_TEC n) 0).put (GW_CAN_STAT_REC n) 0
       exec (.busOffRecovery n) s = .next t ∧
       t.get (GW_CAN_STAT_STATE n) = 1 ∧ t.get (GW_CAN_STAT_TEC n) = 0 ∧ t.get (GW_CAN_STAT_REC n) = 0 ∧ OnlyRegs [GW_CAN_STAT n] s t) ∧
     (∀ r t : Nat, r < 1024 → s.dead = false → s.flag (GW_ROUTE_W0_EN r) = true → s.flag (GW_ROUTE_W0_MODE r) = true →
       s.rteInstant r = some t →
       let x := s.rte r
       (t < x.lastT → exec (.routeInstant r) s = .next s) ∧
       (x.value = none → x.lastT ≤ t → exec (.routeInstant r) s = .next (s.setRte r { x with lastT := t + 1 })) ∧
       (∀ f stamp, x.value = some (f, stamp) → x.lastT ≤ t → stamp ≤ t →
         let u := s.setRte r { x with fresh := false, lastT := t + 1 }
         exec (.routeInstant r) s = .next (if x.fresh = true ∨ s.flag (GW_ROUTE_W0_REPEAT r) = true
           then (u.routeSend r f stamp).settle else u))) ∧
     (∀ r, s.flag (GW_ROUTE_W0_EN r) = false ∨ s.rteInstant r = none → exec (.routeInstant r) s = .next s)) ∧
  (∀ (st : Nat) (s : State),
     let x := s.acf st
     (let p := s.get (GW_ACF_W0_PERIOD_US st) * 1000
      let t := s.beacon / p * p + 1
      let talks := st < 32 ∧ p ≠ 0 ∧ s.flag (GW_ACF_W0_EN st) = true ∧ s.flag (GW_ACF_W0_TALKER st) = true ∧ s.dead = false ∧ x.lastT < t
      (¬ talks → exec (.acfTalkerPeriod st) s = .next s) ∧
      let v := s.setAcf st { x with msgs := [], lastT := t }
      (talks → exec (.acfTalkerPeriod st) s = .next ((acfPack x.msgs 0 []).foldl (fun s ms => s.acfSend st ms) v)) ∧
      (x.msgs = [] → acfPack x.msgs 0 [] = []) ∧
      (x.msgs ≠ [] → (x.msgs.map acfBytes).sum ≤ 1400 → acfPack x.msgs 0 [] = [x.msgs])) ∧
     (∀ ms : List AcfMsg,
       let tscf := s.flag (GW_ACF_W0_TSCF st)
       let f : AcfFrame := ⟨0, if tscf then 5 else 0x82, s.get (GW_ACF_W1_STREAM_ID st), x.seq, tscf,
         if tscf then (s.beacon + s.get (GW_ACF_W0_TRANSIT_US st) * 1000) % 2 ^ 32 else 0,
         (if s.flag (GW_ACF_W0_TAGGED st) then 18 else 14) + (if tscf then 24 else 12) + (ms.map acfBytes).sum, ms⟩
       let e := s.acfEth st f
       let v : State := { s with out := { s.out with acf := s.out.acf ++ [(st, f)] } }
       s.acfSend st ms = (v.setAcf st { x with seq := (x.seq + 1) % 256 }).bridge 8 (Config.ethClass e.pcp % 8) e ∧
       e.data.length = max 60 f.len ∧ ethType e = 0x22F0 ∧ e.tagged = s.flag (GW_ACF_W0_TAGGED st)) ∧
     (∀ f : AcfFrame,
       let hears := st < 32 ∧ s.dead = false ∧ s.flag (GW_ACF_W0_EN st) = true ∧ s.flag (GW_ACF_W0_TALKER st) = false ∧
         f.streamId = s.get (GW_ACF_W1_STREAM_ID st)
       let known := f.ver = 0 ∧ (f.subtype = 0x82 ∨ f.subtype = 0x05) ∧ f.len ≤ 1522 ∧ ∀ m ∈ f.msgs, m.kind = 1 ∨ m.kind = 2 ∨ m.kind = 5
       let u := if x.live = true ∧ x.seq ≠ f.seq % 256 then s.bump GW_CNT_ACF_SEQ_COUNT 1 else s
       let y : AcfSt := { x with live := true, seq := (f.seq + 1) % 256 }
       let late : Int := sgn 32 (f.ts + 2 ^ 32 - s.beacon % 2 ^ 32)
       let timed := s.flag (GW_ACF_W0_TSCF st) = true ∧ f.tv = true
       (¬ hears → exec (.acfFrameReceived st f) s = .next s) ∧
       (hears → ¬ known → exec (.acfFrameReceived st f) s = .next (s.bump GW_CNT_ACF_DROP_COUNT 1)) ∧
       (hears → known → timed → 0 < late → exec (.acfFrameReceived st f) s =
         .next (u.setAcf st { y with pres := y.pres ++ [(s.beacon + late.toNat, f.msgs)] })) ∧
       (hears → known → timed → late < 0 → exec (.acfFrameReceived st f) s =
         .next (((u.bump GW_CNT_ACF_LATE_COUNT 1).setAcf st y).acfOffer st f.msgs).settle) ∧
       (hears → known → ¬ timed ∨ late = 0 → exec (.acfFrameReceived st f) s = .next ((u.setAcf st y).acfOffer st f.msgs).settle)) ∧
     ((∀ p ∈ x.pres, s.beacon < p.1) ∨ s.dead = true → exec (.acfPresentation st) s = .next s) ∧
     (∀ p q, s.dead = false → x.pres = [p, q] → p.1 ≤ s.beacon → s.beacon < q.1 → exec (.acfPresentation st) s =
       .next (((s.setAcf st { x with pres := [q] }).acfOffer st p.2).settle)))

/-- R545 to R548, R557 to R559: the switch and the gateway's opcodes. A received frame that a filter drops is counted, another
is bridged; a gate change sends what may start now. GW_TX checks every record before it queues any, ends with the first fault
and completes when its frames are sent; GW_RX holds its buffer unless an interface is another partition's; both end at their
limit; GW_SIG_READ copies its slots. -/
def Obligations.SwitchAndGatewayOpcodes : Prop :=
  ∀ s : State,
    (∀ (p : Nat) (f : EthFrame),
      let takes := p < 8 ∧ s.dead = false ∧ s.flag (GW_ETH_PORT_EN p) = true ∧ 14 ≤ f.data.length ∧ ethLen f ≤ 2000 ∧
        f.vid ≠ 4095
      (¬ takes → exec (.ethFrameReceived p f) s = .next s) ∧
      (takes → (s.psfp p f).2 = false → exec (.ethFrameReceived p f) s = .next ((s.psfp p f).1.bump GW_CNT_PSFP_DROP_COUNT 1)) ∧
      (takes → (s.psfp p f).2 = true → exec (.ethFrameReceived p f) s =
        .next ((s.psfp p f).1.bridge p (Config.ethClass f.pcp % 8) f).settle) ∧
      ((∀ i, i < 256 → s.flag (GW_PSFP_SF_W0_EN i) = false) → s.psfp p f = (s, true))) ∧
    (∀ p, 8 ≤ p ∨ s.dead = true → exec (.gateChange p) s = .next s) ∧
    (∀ p, p < 8 → s.dead = false →
      let v := s.gateTake p
      exec (.gateChange p) s = .next (v.drainEth p) ∧ v = { s with gw := v.gw } ∧
      (s.gw.ethQ = [] ∨ s.portBusy p = true → v.drainEth p = v) ∧
      (∀ c f, s.gw.ethQ = [(p, c, f)] → c < 8 → s.portBusy p = false → v.mayStart p c f = true → v.drainEth p =
        { v with gw := { v.gw with ethQ := [], busy := v.gw.busy.filter (fun y => y.1 != p) ++
                           [(p, s.c + ethTicks (s.get (GW_ETH_PORT_SPEED p)) f, f)] }
                 out := { s.out with eth := s.out.eth ++ [(p, f)] } })) ∧
    (∀ g, exec (.streamGateChange g) s = .next (if 64 ≤ g ∨ s.dead = true then s else s.gateTake 8)) ∧
    (∀ (i : Nat) (d : Desc), s.desc? i = some d →
      (d.runnable 0xC0 = true → d.step = 0 → ∀ u bs, s.readMem (s.mreq d 33) d.a16 (d.u 24 4) = (u, .ok bs) →
        (∀ e, u.txRecords d bs (bs.length / 32 + 1) 0 0 = .error e → exec (.gwTx i) s = .next (u.gwDone i e.1 e.2).settle) ∧
        (∀ rs, u.txRecords d bs (bs.length / 32 + 1) 0 0 = .ok rs →
          let v := u.updDesc i (fun x => { x with step := 1 })
          exec (.gwTx i) s = .next ((({ v with gw := { v.gw with tx := v.gw.tx ++ rs } } : State).launchFrom i rs).txCheck i))) ∧
      (d.runnable 0xC0 = true → d.step = 0 →
        (∀ u c a, s.readMem (s.mreq d 33) d.a16 (d.u 24 4) = (u, .error (.fail c a)) → exec (.gwTx i) s = .next (u.gwDone i c a).settle) ∧
        ∀ u, s.readMem (s.mreq d 33) d.a16 (d.u 24 4) = (u, .error .wait) → exec (.gwTx i) s = .next (s.keepRequests u)) ∧
      (d.runnable 0xC1 = true → d.step = 0 →
        (∀ k, k < 17 → bitOf (d.u 32 4) k = true → s.get (GW_OWN_PART k) ≠ s.descPart d →
          (∀ m, m < k → bitOf (d.u 32 4) m = true → s.get (GW_OWN_PART m) = s.descPart d) →
          exec (.gwRx i) s = .next (s.gwDone i 0xB8 k).settle) ∧
        ((∀ k, k < 17 → bitOf (d.u 32 4) k = true → s.get (GW_OWN_PART k) = s.descPart d) → s.gw.rx = [] →
          exec (.gwRx i) s = .next { s.updDesc i (fun x => { x with step := 1 }) with gw := { s.gw with rx := [⟨i, 0, 0⟩] } })) ∧
      (∀ b, s.gw.rx.find? (fun b => b.desc == i) = some b → exec (.gwRxWaitExpiry i) s =
        .next (if b.first = 0 ∨ s.c + 1 < b.first + 800 * d.u 28 2 then s else ((s.dropRx i).gwDone i 0 0).settle)) ∧
      (s.gw.rx.find? (fun b => b.desc == i) = none → exec (.gwRxWaitExpiry i) s = .next s) ∧
      (d.runnable 0xC0 = false ∨ s.c < d.dispC + 800000 * d.u 28 2 → exec (.canTxTimeout i) s = .next s) ∧
      (∀ r, d.runnable 0xC0 = true → d.dispC + 800000 * d.u 28 2 ≤ s.c →
        (s.txOf i).find? (fun r => r.ifc != 16 && r.st != 2) = some r →
        exec (.canTxTimeout i) s = .next ((s.dropTx i).gwDone i 0xB9 r.off).settle)) ∧
    (∀ (i k : Nat) (r : TxRec), s.gw.tx.find? (fun r => r.desc == i && r.idx == k) = some r →
      exec (.launchTime i k) s = .next (s.launchFrom i ((s.txOf i).filter (fun x => x.ifc == r.ifc && decide (k ≤ x.idx)))).settle ∧
      (r.st ≠ 1 ∨ r.ifc ≠ 16 → exec (.ethFrameSent i k) s = .next s) ∧
      (r.st = 1 → r.ifc = 16 → (∀ x ∈ s.gw.ethQ, x.2.2 ≠ ethOf r.f.data) →
        (∀ x ∈ s.gw.busy, x.2.2 = ethOf r.f.data → x.2.1 ≤ s.c) → exec (.ethFrameSent i k) s = .next ((s.setTx i k 2).txCheck i))) ∧
    (∀ (i : Nat) (d : Desc), s.desc? i = some d → d.runnable 0xC2 = true →
      let slots := (List.range (sigCount d)).map (sigFirst d + ·)
      let done (u : State) (st dt : Nat) : State := (({ u with seq := u.seq + 1 } : State).finishPart i 33 st dt).settle
      (∀ k, slots.find? (fun k => s.get (GW_OWN_PART (17 + k / 64)) != s.descPart d) = some k →
        exec (.gwSigRead i) s = .next (done s 0xB8 (17 + k / 64))) ∧
      ((∀ k ∈ slots, s.get (GW_OWN_PART (17 + k / 64)) = s.descPart d) → ∀ u, s.writeMem (s.mreq d 33) false 0 d.a16
          (slots.flatMap (fun k => mget (fun _ => List.replicate 96 0) s.gw.slots k)) = (u, none) →
        exec (.gwSigRead i) s = .next (done u 0 0)) ∧
      ((∀ k ∈ slots, s.get (GW_OWN_PART (17 + k / 64)) = s.descPart d) → ∀ u, s.writeMem (s.mreq d 33) false 0 d.a16
          (slots.flatMap (fun k => mget (fun _ => List.replicate 96 0) s.gw.slots k)) = (u, some .wait) →
        exec (.gwSigRead i) s = .next (s.keepRequests u)))

/-- R560 to R563, R566, R567: windows, bridge semaphores, exclusive sequences and trailing reads. A write that would leave an
enabled window misaligned or over another is ignored whole and sets CFG_ERR; the host takes a free semaphore and returns its
own; WBR_ATOMIC waits for its semaphore, ends with the old value where nothing is written, else waits for its trailing read; a
failed completion is logged; a read in a prefetchable window that gets none is tried again, ATTEMPTS times in all. -/
def Obligations.BridgeSequencesAndWindows : Prop :=
  ∀ s : State,
    (∀ (rq : Requester) (w k : Nat) (v : Word64), w < 64 → k < 3 → s.opens rq (WBR_WIN_W0 w + 8 * k) = true →
      let base := WBR_WIN_W0 w + 8 * k
      let s0 := s.srwLog rq base base mask64
      let u := s0.setReg base (BitVec.ofNat 64 (writeFields (fieldsAt base) false (rq == .lantern) (s0.reg base).toNat v.toNat mask64))
      exec (.wbrWinWrite rq w k v) s = .next (if u.winBad w then s0.put WBR_IRQ_CFG_ERR 1 else u) ∧ OnlyRegs [base] s0 u ∧
      (rq = .lantern ∨ k ≠ 0 → s0 = s) ∧
      (k = 0 → u.get (WBR_WIN_W0_EN w) = bitsOf v.toNat 0 1 ∧ u.get (WBR_WIN_W0_SEM w) = bitsOf v.toNat 7 4 ∧
        u.get (WBR_WIN_W0_W w) = (if rq = .lantern then bitsOf v.toNat 22 1 else s0.get (WBR_WIN_W0_W w)) ∧
        u.get (WBR_WIN_W0_ESIZE w) = (if bitsOf v.toNat 4 2 = 3 then s0.get (WBR_WIN_W0_ESIZE w) else bitsOf v.toNat 4 2)) ∧
      (k = 1 → u.get (WBR_WIN_W1_DEV_BASE w) = bitsOf v.toNat 12 35) ∧
      (k = 2 → u.get (WBR_WIN_W2_BUS_ADDR w) = bitsOf v.toNat 12 52)) ∧
    (∀ (rq : Requester) (n : Nat) (v : Word32), n < 16 → s.opens rq (WBR_SEM n) = true → openFields (WBR_SEM n) = true →
      let h := s.get (WBR_SEM_HOLDER n)
      exec (.wbrSemWrite rq n v) s = .next (if v.toNat % 256 = 1 ∧ h = 0 then s.put (WBR_SEM_HOLDER n) 1
        else if v.toNat % 256 = 0 ∧ h = 1 then s.put (WBR_SEM_HOLDER n) 0 else s)) ∧
    (∀ (i : Nat) (d : Desc), s.desc? i = some d → d.runnable 0xC3 = true →
      let n := if bitOf (d.u 24 1) 2 then 8 else 4
      (∀ c x, d.step < atomicOut → s.winCheck (s.mreq d 33) d.a16 n = .error (c, x) → exec (.wbrAtomic i) s =
        .next ((if c = 0x22 then s.refuseAccess (s.mreq d 33) c x else s).gwDone i c x).settle) ∧
      (∀ w x, d.step < atomicOut → s.winCheck (s.mreq d 33) d.a16 n = .ok (w, x) →
        let k := s.get (WBR_WIN_W0_SEM w)
        (s.get (WBR_SEM_HOLDER k) ≠ 0 → d.step = 0 →
          exec (.wbrAtomic i) s = .next (s.updDesc i (fun x => { x with step := s.c + 1 }))) ∧
        (s.get (WBR_SEM_HOLDER k) ≠ 0 → d.step ≠ 0 → exec (.wbrAtomic i) s = .next s) ∧
        (s.get (WBR_SEM_HOLDER k) = 0 → ∀ u c a, (s.put (WBR_SEM_HOLDER k) 0xFF).readHost (s.mreq d 33) d.a16 n =
          (u, .error (.fail c a)) → exec (.wbrAtomic i) s = .next (u.atomicFail i c a)) ∧
        (s.get (WBR_SEM_HOLDER k) = 0 → ∀ u bs, (s.put (WBR_SEM_HOLDER k) 0xFF).readHost (s.mreq d 33) d.a16 n = (u, .ok bs) →
          (atomicNew d n (leNat bs) = none → exec (.wbrAtomic i) s = .next (u.atomicEnd i (leNat bs))) ∧
          (∀ v, atomicNew d n (leNat bs) = some v →
            let bus := u.get (WBR_WIN_W2_BUS_ADDR w) * 4096 + (d.a16 - hostBase - u.get (WBR_WIN_W1_DEV_BASE w) * 4096)
            let r := u.hostWrite (u.get (WBR_WIN_W0_FUNC w)) bus (u.winBytes w (leBytes n v))
            (r.2 = true → exec (.wbrAtomic i) s = .next { r.1.updDesc i (fun x => { x with step := atomicOut + leNat bs }) with
              trail := r.1.trail ++ [⟨i, w, d.a16 + n - 1, bus + n - 1, 33, (s.mreq d 33).ctx, true⟩] }) ∧
            (r.2 = false → exec (.wbrAtomic i) s =
              .next ((r.1.wbrLog 2 1 w 33 (s.mreq d 33).ctx d.a16 bus).atomicFail i 0x25 d.a16))))) ∧
      (atomicOut ≤ d.step → exec (.wbrAtomic i) s = .next s) ∧
      (d.step = 0 ∨ atomicOut ≤ d.step ∨ s.c + 1 < d.step + 800000 → exec (.wbrSemWaitExpiry i) s = .next s) ∧
      (d.step ≠ 0 → d.step < atomicOut → d.step + 800000 ≤ s.c + 1 →
        exec (.wbrSemWaitExpiry i) s = .next (s.gwDone i 0xBB ((s.atomicSem d).getD 0)).settle)) ∧
    (∀ cpl, s.trail = [] → exec (.trailingReadDone cpl) s = .next s) ∧
    (∀ t ts, s.trail = t :: ts → s.desc? t.desc = none →
      exec (.trailingReadDone 0) s =
        .next ({ s with trail := ts, pwr := { s.pwr with ltrC := s.c } } : State).settle.refreshLtr ∧
      (∀ cpl, cpl ≠ 0 → cpl < 8 →
        let v : State := { s with trail := ts, pwr := { s.pwr with ltrC := s.c } }
        let u := v.wbrLog (if t.nonPosted then 2 else 1) cpl t.win t.isl t.ctx t.addr t.bus
        let e := s.get WBR_ELOG_HEAD_NEXT
        exec (.trailingReadDone cpl) s = .next u.settle.refreshLtr ∧ u.trail = ts ∧ u.get (WBR_ELOG_W0_KIND e) = (if t.nonPosted then 2 else 1) ∧ u.get (WBR_ELOG_W0_CPL e) = cpl ∧
        u.get (WBR_ELOG_W2_BUS e) = t.bus % 2 ^ 64 ∧ u.get WBR_ELOG_HEAD_NEXT = (e + 1) % 16 ∧ u.get WBR_IRQ_ERR = 1 ∧
        u.mem = s.mem)) ∧
    (∀ i a t, s.trail.find? (fun t => t.desc == i && t.addr == a) = some t →
      exec (.cplTimeout i a) s = .next (s.trailEnd t 7).refreshLtr) ∧
    (∀ i a, s.trail = [] → s.desc? i = none → exec (.cplTimeout i a) s = .next s) ∧
    (∀ i a d w, s.trail.find? (fun t => t.desc == i && t.addr == a) = none → s.desc? i = some d → s.winOf a = some w →
      spaceOf a = .host → d.phase = .dispatched → d.effected = false → d.parts.any (fun p => p.active) = true →
      let n := mget (fun _ => 0) s.cplTries i
      let again := s.flag (WBR_WIN_W0_PREF w) = true ∧ n + 1 < s.get SAF_CTL_ATTEMPTS
      let bus := s.get (WBR_WIN_W2_BUS_ADDR w) * 4096 + (a - hostBase - s.get (WBR_WIN_W1_DEV_BASE w) * 4096)
      let u := (s.setTries i 0).wbrLog 2 7 w (((d.parts.find? (fun p => p.active)).map (fun p => p.isl)).getD 36) (s.ctxOf d) a bus
      (again → exec (.cplTimeout i a) s = .next (s.setTries i (n + 1))) ∧
      (¬ again → exec (.cplTimeout i a) s = .next (if d.opc = 0xC3 then u.atomicFail i 0x25 a
        else u.setResults i (d.parts.map (fun p => (p.isl, 0x25, a))))))

/-- R571, R583: snapshots and dumps on request. DBG_SNAPSHOT of a function is denied; at once or at its TIME it copies every
counter, unless a snapshot is held; a TIME outside its bounds is refused. DBG_DUMP is denied to functions and refused while a
dump is held or begun. A dump that firmware has written is shown, and what waited for it ends. R577 to R580, R585, R586: the
debug controls. Enabling the trace restarts it; while it is on only EN is written. RING_LATCH copies an island's ring, oldest
entry first. DUMP_NOW begins a dump. A hang check with nothing hung changes nothing. The debug port reads and writes BAR0 as
itself, and its access to Lantern in PROVISION or PRODUCTION is a tamper alarm. -/
def Obligations.SnapshotsDumpsAndDebug : Prop :=
  (∀ s : State,
     (∀ (i : Nat) (d : Desc), s.desc? i = some d →
       let at0 := s.beaconAt d.dispC
       let t := d.u 16 8
       (d.runnable 0xE0 = true → d.step = 0 →
         (s.qFn d.q ≠ 0 → exec (.dbgSnapshot i) s = .next (s.fwDone i 0xCB 0)) ∧
         (s.qFn d.q = 0 → t ≠ 0 → t < at0 + 10000 ∨ at0 + 10000000000 < t → exec (.dbgSnapshot i) s = .next (s.fwDone i 0xC9 0)) ∧
         (s.qFn d.q = 0 → at0 + 10000 ≤ t → t ≤ at0 + 10000000000 →
           exec (.dbgSnapshot i) s = .next (s.updDesc i (fun x => { x with step := 1 }))) ∧
         (s.qFn d.q = 0 → t = 0 → s.flag DBG_SNAP_CTL_HELD = true → exec (.dbgSnapshot i) s =
           .next ((s.bump DBG_SNAP_MISSED_COUNT 1).fwDone i 0xC8 0)) ∧
         (s.qFn d.q = 0 → t = 0 → s.flag DBG_SNAP_CTL_HELD = false →
           let u := s.snapshot
           exec (.dbgSnapshot i) s = .next (u.fwDone i 0 0) ∧ u.get DBG_SNAP_CTL_HELD = 1 ∧ u.get DBG_SNAP_TIME_TIME = s.beacon ∧
           u.shadow = s.accTime.accBusy.regs ∧ u.descs = s.descs)) ∧
       (d.runnable 0xE0 = true → d.step = 1 → exec (.dbgSnapshot i) s = .next s) ∧
       (s.descs = [d] → d.runnable 0xE0 = true → d.step = 1 →
         exec .snapshotInstant s = .next (if d.u 16 8 ≤ s.beacon then s.snapNow i else s)) ∧
       (d.runnable 0xE2 = true → d.step = 0 →
         (s.qFn d.q ≠ 0 → exec (.dbgDump i) s = .next (s.fwDone i 0xCB 0)) ∧
         (s.qFn d.q = 0 → s.flag DBG_DUMP_STAT_VALID = true ∨ s.trace.dump ≠ none → s.pairsOn ≠ [] → exec (.dbgDump i) s =
           .next ((s.bump DBG_DUMP_MISSED_COUNT 1).fwDone i 0xCA 0)) ∧
         (s.qFn d.q = 0 → s.flag DBG_DUMP_STAT_VALID = false → s.trace.dump = none → s.pairsOn ≠ [] →
           exec (.dbgDump i) s = .next { s.updDesc i (fun x => { x with step := 1 }) with
             trace := { s.trace with dump := some (0, 63, 0) } }))) ∧
     (s.descs = [] → exec .snapshotInstant s = .next s) ∧
     (s.trace.dump = none ∨ s.fwRuns = false → exec .dumpWritten s = .next s) ∧
     (∀ c isl i, s.trace.dump = some (c, isl, i) → s.fwRuns = true →
       let p := s.get DBG_DUMP_BASE_DUMP_PART
       let d := s.accTime.accBusy.dumpBytes c isl i
       let s0 : State := { s with trace := { s.trace with dump := none } }
       let w := s0.writeMem ⟨p, s.flag (QOS_PART_W p), 36, 0, some 0⟩ false 0 (s.get DBG_DUMP_BASE_BASE * 4096) d.1
       let shown := ((w.1.put DBG_DUMP_STAT_VALID 1).put DBG_DUMP_STAT_CAUSE c).put DBG_DUMP_STAT_TRUNC (b2n d.2)
       let t := (shown.put DBG_IRQ_DUMP 1).pfIrq DBG_IRQ_VECTOR DBG_IRQ_EN
       let ended (u : State) (st dt : Nat) : State :=
         let v := (if c = 0 then w.1.descs.filter (fun x => x.runnable 0xE2 && x.step == 1) else []).foldl (fun s x => s.fwDone x.id st dt) u
         if c = 1 then v.hangEnd i isl else v
       (w.2 = none → exec .dumpWritten s = .next (ended t 0 0) ∧ t.get DBG_DUMP_STAT_VALID = 1 ∧ t.get DBG_DUMP_STAT_CAUSE = c % 4 ∧
         t.get DBG_DUMP_STAT_TRUNC = b2n d.2 ∧ t.get DBG_IRQ_DUMP = 1 ∧ t.mem = w.1.mem) ∧
       (∀ st dt, w.2 = some (.fail st dt) → 0 < st → exec .dumpWritten s = .next (ended w.1 st dt)))) ∧
  (∀ s : State,
     (∀ (rq : Requester) (v : Word32), s.opens rq DBG_TRACE_CFG = true → openFields DBG_TRACE_CFG = true →
       let w := s.plainWrite DBG_TRACE_CFG v.toNat mask32
       (s.flag DBG_TRACE_CFG_EN = false → bitOf v.toNat 0 = false → exec (.traceEnable rq v) s = .next w) ∧
       (s.flag DBG_TRACE_CFG_EN = false → bitOf v.toNat 0 = true →
         let x : State := { w with trace := { w.trace with queue := [], drops := [], post := none } }
         let t := ((x.put DBG_TRACE_STAT_FROZEN 0).put DBG_TRIG_STAT_HIT 0).put DBG_TRACE_STAT_WR_IDX 0
         exec (.traceEnable rq v) s = .next t ∧
         t.get DBG_TRACE_CFG_EN = 1 ∧ t.get DBG_TRACE_STAT_FROZEN = 0 ∧ t.get DBG_TRACE_STAT_WR_IDX = 0 ∧ t.get DBG_TRIG_STAT_HIT = 0 ∧
         t.trace = { s.trace with queue := [], drops := [], post := none } ∧
         OnlyRegs [DBG_TRACE_CFG, DBG_TRACE_STAT, DBG_TRIG_STAT] { s with trace := t.trace } t) ∧
       (s.flag DBG_TRACE_CFG_EN = true →
         let t := s.plainWrite DBG_TRACE_CFG v.toNat 1
         exec (.traceEnable rq v) s = .next t ∧
         t.get DBG_TRACE_CFG_EN = bitsOf v.toNat 0 1 ∧ t.get DBG_TRACE_CFG_SIZE_LOG2 = s.get DBG_TRACE_CFG_SIZE_LOG2 ∧
         t.get DBG_TRACE_CFG_WRAP = s.get DBG_TRACE_CFG_WRAP ∧ OnlyRegs [DBG_TRACE_CFG] s t)) ∧
     (∀ (rq : Requester) (v : Word32), s.opens rq DBG_RING_SEL = true → openFields DBG_RING_SEL = true → bitOf v.toNat 6 = true →
       let w := s.plainWrite DBG_RING_SEL v.toNat mask32
       let t := w.latchRing (w.get DBG_RING_SEL_ISLAND)
       exec (.ringLatch rq v) s = .next t ∧ t = { s with regs := t.regs } ∧
         (∀ k j, k < 64 → j < 4 → t.reg (DBG_RING_WIN k j) = BitVec.ofNat 64 (Machine.u
           (nth (List.replicate 32 0) ((mget (fun _ => []) s.trace.rings (t.get DBG_RING_SEL_ISLAND)).map eventBytes) k) (8 * j) 8))) ∧
     (∀ (rq : Requester) (v : Word32), s.opens rq DBG_HANG_CFG = true → openFields DBG_HANG_CFG = true → bitOf v.toNat 19 = true →
       exec (.dumpNow rq v) s = .next ((s.plainWrite DBG_HANG_CFG v.toNat 0xFFFFFFFF).startDump 0 63 0)) ∧
     ((s.fwRuns = false ∨ s.get DBG_HANG_CFG_HANG_MS = 0 ∨ ∀ d ∈ s.descs, ∀ p ∈ d.parts, s.hungPart d p = false) →
       exec .hangCheck s = .next s) ∧
     (∀ d p, s.fwRuns = true → s.get DBG_HANG_CFG_HANG_MS ≠ 0 → s.descs = [d] → d.parts = [p] → s.hungPart d p = true →
       exec .hangCheck s = .next (s.hang d p)) ∧
     (∀ p, exec (.debugPortAccess (.core p)) s = .next (if s.dead then s else s.debugCore (p % 4))) ∧
     exec (.debugPortAccess .scan) s = .next s ∧
     (s.dead = false → s.lnt.life = 1 ∨ s.lnt.life = 2 → exec (.debugPortAccess .lantern) s = .next (s.tamper .access)) ∧
     (∀ off size v, exec (.debugPortAccess (.bar0Read off size)) s = .next (s.bar0Read .debug off size) ∧
       exec (.debugPortAccess (.bar0Write off size v)) s = .next (s.bar0Write .debug off size v.toNat)))

/-- R587, R589, R590, R594 to R597, R602 and LTR: power. A tick chooses the deepest state within PWR_CFG's limits and shows
it; an island that wakes is no longer gated; two samples above the peak act as a fast limit, and a small one ends both runs;
the limiter shows the power it was given, releases a fast limit below LIMIT_W and lowers or raises the caps by a step; a droop
is counted and ends; a loss of coolant stops the scheduled clocks and is a safety event. R461, R599, R600, R603 to R605:
temperature and ageing. A sample is shown, raises the maximum, from 125 °C stops the scheduled clocks, and on Lantern's island
outside its range is an alarm; the thermal cap falls a step no lower than the floor while hot; an hour's sample counts the
hour and keeps the record; a record is loaded only where it belongs to this device and no sample was taken. -/
def Obligations.PowerAndTemperature : Prop :=
  (∀ s : State,
     (s.fwRuns = false → exec .powerStateTick s = .next s ∧ (∀ mw, exec (.limiterUpdate mw) s = .next s)) ∧
     (s.fwRuns = true →
       let v := s.accTime.powPending.watchIdle.refreshClks
       let n := v.deepest
       let t := v.applyPower n
       exec .powerStateTick s = .next t ∧ t.get PWR_STAT_STATE = n ∧ n ≤ 3 ∧
       n ≤ s.get PWR_CFG_DEEPEST ∧ nth 0 [0, 2, 150, 4000] n ≤ s.get PWR_CFG_LAT_TOL_US ∧
       (n = 3 → ∀ i, i < 16 → t.get ⟨PWR_STAT, 16 + i, 1⟩ = 1)) ∧
     (∀ e, 24 ≤ e ∨ s.dead = true ∨ s.islOn e = true → exec (.islandWakeDone e) s = .next s) ∧
     (∀ e, e < 24 → s.dead = false → s.islOn e = false →
       s.waking.contains e = true ∨ (e < 8 ∧ ∃ n, n < 4 ∧ s.flagA (SCH_DWIN_EN n) = true ∧ bitOf (s.getA (SCH_DWIN_ENG n)) e = true) →
       let u := s.wakeDone e
       exec (.islandWakeDone e) s = .next u.settle ∧
       (s.wakeTest.contains e = false → u.get ⟨PWR_STAT, 8 + e, 1⟩ = 0 ∧ e ∉ u.waking ∧ e ∉ u.pwr.off ∧ u.descs = s.descs)) ∧
     (s.dead = true ∨ s.pcie.linkUp = false ∨ s.working = true ∨ s.c < s.pwr.ltrC + 800000 → exec .ltrIdle s = .next s) ∧
     (s.dead = false → s.pcie.linkUp = true → s.working = false → s.pwr.ltrC + 800000 ≤ s.c →
       let t := s.sendLtr (s.get PWR_LIM_LTR_IDLE_US * 1000)
       exec .ltrIdle s = .next t ∧ t.out.ltr.getLast? = some (s.get PWR_LIM_LTR_IDLE_US * 1000) ∧ t = { s with out := t.out }) ∧
     (∀ mw, s.dead = false →
       let peaks := if 180000 < mw then s.pwr.peaks + 1 else 0
       let burst := if 135000 < mw then (if s.pwr.burst = 0 then s.c + 1 else s.pwr.burst) else 0
       let v : State := { s with pwr := { s.pwr with peaks := peaks, burst := burst } }
       let w := if 2 ≤ peaks then v.tripFast 0 PWR_EVT_EMERG else v
       exec (.powerSample mw) s = .next (if burst ≠ 0 ∧ burst + 40000000 ≤ s.c + 1 then w.tripFast 1 PWR_EVT_BURST else w) ∧
       (bitOf s.pwr.fast 0 = false → 2 ≤ peaks → w.get PWR_EVT_EMERG = 1 ∧ bitOf w.pwr.fast 0 = true ∧
         bitOf (w.get SAF_EVT_PEND) 15 = true ∧ w.mem = s.mem)) ∧
     (∀ mw, s.fwRuns = true →
       let x := if s.pwr.started then s else s.seedAvg
       let avg := ((x.pwr.avg : Int) + ((mw * 1048576 : Nat) - (x.pwr.avg : Int)) / ((1000 * max 1 (s.get PWR_LIM_WIN_S) : Nat) : Int)).toNat
       let lim := s.get PWR_LIM_LIMIT_W * 1000
       let f : State := { x with pwr := { x.pwr with avg := avg, fast := if mw < lim then 0 else x.pwr.fast } }
       let y := (f.put PWR_AVG_AVG_MW (min (avg / 1048576) (2 ^ 20 - 1))).put PWR_AVG_NOW_MW (min mw (2 ^ 20 - 1))
       let z := if lim * 1048576 ≤ avg ∧ lim < mw then y.lowerCap else if avg * 100 < 98 * lim * 1048576 then y.raiseCap else y
       exec (.limiterUpdate mw) s = .next z.powClks ∧ z.get PWR_AVG_NOW_MW = min mw (2 ^ 20 - 1) ∧
       (mw < lim → z.pwr.fast = 0) ∧ z.pwr.started = true ∧ z.mem = s.mem ∧ z.descs = s.descs) ∧
     (let a := s.get PWR_AVG_ARR_CAP_MHZ
      let v := s.get PWR_AVG_VCL_CAP_MHZ
      (s.get PWR_LIM_ARR_FLOOR_MHZ < a → s.lowerCap = s.put PWR_AVG_ARR_CAP_MHZ ((a - 1) / 25 * 25) ∧
        s.lowerCap.get PWR_AVG_ARR_CAP_MHZ < a) ∧
      (v < 1400 → s.raiseCap.get PWR_AVG_VCL_CAP_MHZ = min 1400 ((v / 50 + 1) * 50) ∧ s.raiseCap.get PWR_AVG_ARR_CAP_MHZ = a)) ∧
     (∀ e, (8 ≤ e ∨ s.dead = true ∨ s.pwr.droop.contains e = true → exec (.droopStart e) s = .next s) ∧
       (e < 8 → s.dead = false → s.pwr.droop.contains e = false →
         let t : State := { s.bump (PWR_ISL_W1_CNT_DROOP e) 1 with pwr := { s.pwr with droop := s.pwr.droop ++ [e] } }
         exec (.droopStart e) s = .next t ∧
         t.get (PWR_ISL_W1_CNT_DROOP e) = min (s.get (PWR_ISL_W1_CNT_DROOP e) + 1) 0xFFFFFFFF ∧
         OnlyRegs [PWR_ISL_W1 e] { s with pwr := t.pwr } t) ∧
       exec (.droopEnd e) s = .next { s with pwr := { s.pwr with droop := s.pwr.droop.filter (fun x => x != e) } }) ∧
     (s.dead = true ∨ s.clkOff.contains 1 = true → exec .coolantLoss s = .next s) ∧
     (s.dead = false → s.clkOff.contains 1 = false →
       let t := ({ s.accTime with clkOff := s.clkOff ++ [1] } : State).safety 16 36 0 false
       exec .coolantLoss s = .next t ∧ t.clkOff = s.clkOff ++ [1] ∧
       bitOf (t.get SAF_EVT_PEND) 16 = true ∧ t.mem = s.mem ∧ t.descs = s.descs)) ∧
  (∀ s : State,
     (∀ e x, 38 ≤ e ∨ s.dead = true → exec (.thermalSample e x) s = .next s) ∧
     (∀ e x, e < 38 → s.dead = false →
       let was := s.get (DBG_ISL_W3_TEMP_MAX e)
       let tj : Int := 8 * s.get THM_CFG_TJ_THROTTLE_C
       let t := s.thermalSample e x
       let alarm := e = 37 ∧ (t.temp8 e < -400 ∨ 1120 < t.temp8 e) ∧ ¬ (t.lnt.tampered = true ∧ bitOf (t.reg LNT_TAMPER).toNat 2 = true)
       exec (.thermalSample e x) s = .next (if alarm then t.tamper .temp else t) ∧
       t.get (DBG_ISL_W3_TEMP_NOW e) = x % 65536 ∧
       t.get (DBG_ISL_W3_TEMP_MAX e) = (if sgn 16 was < sgn 16 (x % 65536) then x % 65536 else was) ∧
       (sgn 16 (x % 65536) < 1000 → s.clkOff = [] → 8 ≤ e → OnlyRegs [DBG_ISL_W3 e] s t) ∧
       (sgn 16 (x % 65536) < 1000 → s.clkOff = [] → e < 8 → tj ≤ sgn 16 (x % 65536) → e ∉ s.pwr.therm →
         t.pwr.therm = s.pwr.therm ++ [e] ∧ t.get PWR_EVT_THERM = 1) ∧
       (1000 ≤ sgn 16 (x % 65536) → s.clkOff = [] → t.clkOff = [0] ∧
         t.get PWR_EVT_CRIT = 1 ∧ bitOf (t.get SAF_EVT_PEND) 15 = true ∧ t.mem = s.mem ∧ t.descs = s.descs)) ∧
     (∀ e, 8 ≤ e ∨ s.fwRuns = false → exec (.thermalCapStep e) s = .next s) ∧
     (∀ e, e < 8 → s.fwRuns = true →
       let tj : Int := 8 * s.get THM_CFG_TJ_THROTTLE_C
       let step := if e < 4 then 25 else 50
       let cap := s.get (PWR_ISL_W0_THERM_CAP_MHZ e)
       let lower := max (s.floorOf e) ((min cap (s.clockOf e) - 1) / step * step)
       let raised := if s.fmaxNow e < (cap / step + 1) * step then 0x7FF else (cap / step + 1) * step
       let u := if tj ≤ s.temp8 e then s.put (PWR_ISL_W0_THERM_CAP_MHZ e) lower
         else if cap ≠ 0x7FF ∧ s.temp8 e ≤ tj - 24 then s.put (PWR_ISL_W0_THERM_CAP_MHZ e) raised else s
       exec (.thermalCapStep e) s = .next ((u.thermEnd e).powClk e) ∧ OnlyRegs [PWR_ISL_W0 e] s u ∧
       (tj ≤ s.temp8 e → u.get (PWR_ISL_W0_THERM_CAP_MHZ e) = lower)) ∧
     (∀ xs, s.fwRuns = false → exec (.ageingSample xs) s = .next s) ∧
     (∀ xs, s.fwRuns = true →
       let v := s.bump PWR_HOURS_HOURS 1
       let w := (List.range 8).foldl (fun u e => u.ageIsland (v.get PWR_HOURS_HOURS) e (nth 0 xs e % 2 ^ 20)) v
       let bs := w.ageRecord ((Machine.u (w.ageBytes PWR_AGE_REC) 16 4 + 1) % 2 ^ 32)
       let y := (List.range 64).foldl (fun u i => u.setReg (PWR_AGE_REC i) (BitVec.ofNat 64 (Machine.u bs (8 * i) 8))) w
       exec (.ageingSample xs) s = .next ({ y with pwr := { y.pwr with sampled := true } } : State).powClks ∧
       y.get PWR_HOURS_HOURS = min (s.get PWR_HOURS_HOURS + 1) 0xFFFFFFFF ∧ y.mem = s.mem ∧ y.descs = s.descs ∧
       (∀ e, e < 8 → y.get (PWR_ISL_W0_DEGR_PPM e) = nth 0 xs e % 2 ^ 20) ∧ y.ageBytes PWR_AGE_REC = bs ∧
       Machine.u bs 0 2 = 0x4147 ∧ Machine.u bs 4 4 = y.get PWR_HOURS_HOURS ∧ bytesAt bs 8 8 = fitTo 8 s.deviceId ∧
       Machine.u bs 508 4 = crc32c (bs.take 508)) ∧
     (∀ (rq : Requester) (v : Word32), s.opens rq PWR_AGE_CTL = true → openFields PWR_AGE_CTL = true → bitOf v.toNat 0 = true →
       let bs := s.ageBytes PWR_AGE_LOAD
       let good := Machine.u bs 0 2 = 0x4147 ∧ Machine.u bs 2 1 = 1 ∧ bytesAt bs 8 8 = fitTo 8 s.deviceId ∧
         Machine.u bs 508 4 = crc32c (bs.take 508) ∧ s.pwr.sampled = false
       (¬ good → exec (.ageRecordLoad rq v) s = .next (s.put PWR_AGE_CTL_RESULT 2)) ∧
       (good →
         let age := (List.range 8).foldl (fun m e =>
           mset (fun _ => [0, 0, 0, 0, 0]) m e ((List.range 5).map (fun i => Machine.u bs (32 + 32 * e + 4 * i) 4))) s.pwr.age
         let w : State := { s with pwr := { s.pwr with age := age } }
         let t := (w.put PWR_HOURS_HOURS (Machine.u bs 4 4)).put PWR_AGE_CTL_RESULT 1
         exec (.ageRecordLoad rq v) s = .next t ∧ t.get PWR_AGE_CTL_RESULT = 1 ∧
         t.get PWR_HOURS_HOURS = Machine.u bs 4 4 ∧ OnlyRegs [PWR_AGE_CTL, PWR_HOURS] { s with pwr := t.pwr } t)))

/-- R461, R610, R611, R614 to R617, R619 to R621, R629: pins and resets. VIN out of range, its loss and RESET_N hold the part
in cold reset, in which every register but the causes reads its reset value and no memory holds anything; VIN back and the
clock are noted; the release starts the counter and the boot; VIN outside 4.50 to 5.50 V and a loss of the clock are tamper
alarms; a PCIe reset is one of the PF, closes every bridge window and keeps the link down while PERST_N is low. -/
def Obligations.PinsAndResets : Prop :=
  ∀ s : State,
    let cold (s t : State) : Prop := t.pins.held = true ∧ t.mem = [] ∧ t.tags = [] ∧ t.descs = [] ∧ t.arm = none ∧ t.active = [] ∧
      t.lnt.hsck = none ∧ t.lnt.sk = none ∧ t.out.faultN = false ∧ t.out.safeReqN = false ∧ t.pcie.linkUp = false ∧
      t.now = s.now ∧ t.flash = s.flash ∧ t.host = s.host ∧ t.lnt.uds = s.lnt.uds ∧ t.lnt.hsckOtp = s.lnt.hsckOtp ∧
      ∀ b, b ≠ LNT_TAMPER → b ≠ LNT_SWDG → b ≠ LNT_RST_CAUSE → t.reg b = State.reset.reg b
    let lost (s t : State) : Prop := cold s t ∧ t.pins.vin = false ∧ t.reg LNT_TAMPER = 0 ∧ t.get LNT_RST_CAUSE_POR = 1 ∧
      t.get LNT_RST_CAUSE_SWDG = 0 ∧ t.get LNT_SWDG_EXPIRIES = 0
    (let t := s.coldAssert false
     exec .resetNLow s = .next t ∧ cold s t ∧ t.pins = { s.pins with held := true } ∧
      t.get LNT_RST_CAUSE_POR = 0 ∧ t.get LNT_RST_CAUSE_SWDG = 0 ∧ t.reg LNT_TAMPER = s.reg LNT_TAMPER) ∧
    (let t := s.vinGone.setVin false
     exec .vinLoss s = .next t ∧ lost s t) ∧
    (∀ mv,
      let u := if s.pins.held = true ∨ (4500 ≤ mv ∧ mv ≤ 5500) then s else s.tamper .volt
      (4400 ≤ mv → mv ≤ 5750 → exec (.vinFault mv) s = .next u) ∧
      (mv < 2500 → exec (.vinFault mv) s = .next (u.vinGone.setVin false) ∧ lost u (u.vinGone.setVin false)) ∧
      (2500 ≤ mv → mv < 4400 ∨ 5750 < mv →
        let t := (u.coldAssert false).setVin false
        exec (.vinFault mv) s = .next t ∧ cold u t ∧ t.pins.vin = false ∧
        t.reg LNT_TAMPER = u.reg LNT_TAMPER ∧ t.get LNT_RST_CAUSE_POR = 0)) ∧
    (∀ mv, exec (.powerOn mv) s = .next (if s.pins.held = true ∧ 4600 ≤ mv ∧ mv ≤ 5500 then
      { s with pins := { s.pins with vin := true } } else s)) ∧
    exec .sysclkReturn s = .next (if s.pins.held = true then { s with pins := { s.pins with clk := true } } else s) ∧
    (s.pins.held = true → exec .sysclkLoss s = .next { s with pins := { s.pins with clk := false } }) ∧
    (s.pins.held = false → s.pins.clk = false → exec .sysclkLoss s = .next s) ∧
    (s.pins.held = false → s.pins.clk = true →
      let u : State := { s.accTime with clkOff := s.clkOff ++ [2], pins := { s.pins with clk := false } }
      exec .sysclkLoss s = .next (u.tamper .clk) ∧ u.dead = true ∧ u.mem = s.mem ∧ u.descs = s.descs) ∧
    (∀ x : Straps, let ready := s.pins.held = true ∧ s.pins.vin = true ∧ s.pins.clk = true
      let v := ((s.romStart x).refreshSlot 0).refreshSlot 1
      let t := s.bootUp x
      (¬ ready → exec (.coldResetRelease x) s = .next s) ∧
      (ready → exec (.coldResetRelease x) s = .next t) ∧ v.pins = { s.pins with held := false, straps := x } ∧
      v.now = 0 ∧ v.lnt.boots = s.lnt.boots + 1 ∧
      (x.recovery = true ∨ s.erased = true ∨ v.bootSlot = none → t = v.enterRecovery ∧ t.get TOP_FW_STAT_RECOVERY = 1 ∧
        t.get BOOT_STAT_RECOVERY = 1 ∧ t.get LNT_INFO_READY = 1 ∧ t.out.faultN = false ∧
        ∀ p, p < 4 → t.get (KPR_PAIR_STAT_STATE p) = 0) ∧
      (x.recovery = false → s.erased = false → ∀ i img, v.bootSlot = some (i, img) →
        let w := v.loadImage i img
        w.runImg = img ∧ w.get BOOT_STAT_ACTIVE_SLOT = i % 2 ∧ w.get LNT_INFO_READY = 1 ∧
        (w.pairsOn = [] → t = w) ∧
        (w.pairsOn ≠ [] → t = w.startFirmware.startSafety ∧ w.startFirmware.get TOP_FW_STAT_READY = 1 ∧ t.get SAF_STATUS_SAFETY_READY = 1) ∧
        ((∀ n, Config.checkerFault n = false) → ∀ p, p < 4 → w.get (KPR_PAIR_STAT_STATE p) = 2))) ∧
    (s.dead = true → exec (.pcieReset .perstN) s = .next { s with pins := { s.pins with perst := true } } ∧
      exec (.pcieReset .hotReset) s = .next s ∧ exec (.pcieReset .linkDown) s = .next s) ∧
    (∀ k, s.dead = false →
      let v : State := if k = .perstN then { s with pins := { s.pins with perst := true } } else s
      let w := ((List.range 64).foldl (fun s w => s.put (WBR_WIN_W0_EN w) 0) v.dropTrails).resetPf
      let u : State := { w with pcie := { State.reset.pcie with
        vfEnable := w.pcie.vfEnable, numVf := w.pcie.numVf, linkUp := !w.pins.perst } }
      exec (.pcieReset k) s = .next u.settle ∧
      (s.trail = [] → s.descs = [] → s.pcie.numVf = 0 → s.flag (VIRT_FN_W5_FLR_BUSY 0) = false →
        u.pcie.linkUp = (if k = .perstN then false else !s.pins.perst) ∧
        (∀ w, w < 64 → u.get (WBR_WIN_W0_EN w) = 0) ∧ u.get (VIRT_FN_W5_FLR_BUSY 0) = 1 ∧ u.flrSq.contains 0 = true ∧
        u.mem = s.mem)) ∧
    exec .perstNDeassert s = .next (if s.dead then { s with pins := { s.pins with perst := false } }
      else { s with pins := { s.pins with perst := false }, pcie := { s.pcie with linkUp := true } })

/-- R252, R241: SALU and SALUI, with B a scalar register or the immediate. The thread's other registers stay; s0 reads zero
and keeps nothing. -/
def Obligations.ScalarArithmetic : Prop :=
  ∀ (t : Thr) (f : AluSrc) (s : State) (x : ThrSt) (w : WgSt) (e : VEnv) (u : State),
    let a : Word32 := BitVec.ofNat 32 (x.s (match f with
      | .r g => g.a
      | .i g => g.a))
    let b : Word32 := match f with
      | .r g => BitVec.ofNat 32 (x.s g.b)
      | .i g => g.imm
    let sh := b.toNat % 32
    (∀ k ∈ ([(.saluAdd t f, a + b), (.saluSub t f, a - b), (.saluMul t f, a * b),
        (.saluMulh t f, BitVec.ofInt 32 (a.toInt * b.toInt / 2 ^ 32)), (.saluAnd t f, a &&& b), (.saluOr t f, a ||| b),
        (.saluXor t f, a ^^^ b), (.saluMov t f, b), (.saluShl t f, a <<< sh), (.saluShr t f, a >>> sh),
        (.saluSra t f, a.sshiftRight sh), (.saluSlt t f, if a.slt b then 1 else 0), (.saluSltu t f, if a.ult b then 1 else 0),
        (.saluMin t f, if a.slt b then a else b), (.saluMax t f, if a.slt b then b else a)] : List (Instr × Word32)),
      s.issues t k.1 = some (x, w, e, u) →
        exec k.1 s = .next (u.afterIssue t (x.past.putS (aluD f) k.2.toNat) w)) ∧
    ∀ d n r, (x.putS d n).s r = (if r = 0 then 0 else if r = d then n % 2 ^ 32 else x.s r) ∧ (x.putS d n).v = x.v ∧
      (x.putS d n).m = x.m ∧ (x.putS d n).pc = x.pc

/-- R253, R243, R261: VALU and VALUI, element by element in the acting lanes. The other lanes of the destination and every
other register stay. Integers wrap or saturate; floats are computed exactly and rounded once. -/
def Obligations.LaneArithmetic : Prop :=
  ∀ (t : Thr) (f : AluSrc) (g : RFmt) (s : State) (x : ThrSt) (w : WgSt) (e : VEnv) (u : State),
    let n := tyBits (aluTy f)
    let lim (z : Int) : Int := max (-(2 ^ (n - 1) : Int)) (min (2 ^ (n - 1) - 1) z)
    let flt (h : Val → Val → Val) (a b : Nat) : Nat := fpOut (aluTy f) (h (decElt (aluTy f) a) (decElt (aluTy f) b))
    (∀ k ∈ ([(.valuAdd t f, fun a b => a + b, flt vadd), (.valuSub t f, fun a b => a - b, flt vsub),
        (.valuMul t f, fun a b => a * b, flt vmul),
        (.valuMin t f, fun a b => if a.slt b then a else b, minMax false (aluTy f)),
        (.valuMax t f, fun a b => if a.slt b then b else a, minMax true (aluTy f)),
        (.valuAbs t f, fun a _ => if a.slt 0 then -a else a, fun a _ => absolute (aluTy f) a),
        (.valuNeg t f, fun a _ => -a, fun a _ => negate (aluTy f) a),
        (.valuAdds t f, fun a b => BitVec.ofInt n (lim (a.toInt + b.toInt)), fun _ _ => 0),
        (.valuSubs t f, fun a b => BitVec.ofInt n (lim (a.toInt - b.toInt)), fun _ _ => 0),
        (.valuMulhi t f, fun a b => BitVec.ofInt n (a.toInt * b.toInt / 2 ^ n), fun _ _ => 0),
        (.valuAnd t f, fun a b => a &&& b, fun _ _ => 0), (.valuOr t f, fun a b => a ||| b, fun _ _ => 0),
        (.valuXor t f, fun a b => a ^^^ b, fun _ _ => 0), (.valuShl t f, fun a b => a <<< (b.toNat % n), fun _ _ => 0),
        (.valuShr t f, fun a b => a >>> (b.toNat % n), fun _ _ => 0),
        (.valuSra t f, fun a b => a.sshiftRight (b.toNat % n), fun _ _ => 0), (.valuMov t f, fun a _ => a, fun a _ => a),
        (.valuRint t f, fun _ _ => 0, fun a _ => rint (aluTy f) a)] :
        List (Instr × (BitVec n → BitVec n → BitVec n) × (Nat → Nat → Nat))),
      s.issues t k.1 = some (x, w, e, u) →
        ∃ y : ThrSt, exec k.1 s = .next (u.afterIssue t y w) ∧ y = { x.past with vr := y.vr, err := y.err } ∧
          (∀ r l, l < 32 → r ≠ aluD f ∨ l ∉ x.aluAct f → y.v r l = x.v r l) ∧
          ∀ l ∈ x.aluAct f, ∀ h, h < (if packedTy (aluTy f) then 2 else 1) →
            let a := nth 0 (x.srcA f) l / 65536 ^ h % 2 ^ n
            let b := nth 0 (x.srcB f) l / 65536 ^ h % 2 ^ n
            y.v (aluD f) l / 65536 ^ h % 2 ^ n =
              if intTy (aluTy f) then (k.2.1 (BitVec.ofNat n a) (BitVec.ofNat n b)).toNat else k.2.2 a b % 2 ^ n) ∧
    (s.issues t (.valuSel t g) = some (x, w, e, u) →
      ∃ y : ThrSt, exec (.valuSel t g) s = .next (u.afterIssue t y w) ∧ y = { x.past with vr := y.vr, err := y.err } ∧
        ∀ r l, l < 32 → y.v r l = if r = g.d ∧ l ∈ x.acting g.mask g.mneg then
          (if bitOf (x.m (g.c % 8)) l then nth 0 (x.src g.sA g.a) l else nth 0 (x.src g.sB g.b) l) else x.v r l)

/-- R254, R255: three-operand arithmetic in the acting lanes, and comparisons, which write one mask bit per element and keep
the bits of lanes that do not act. A comparison with a NaN is false but for NE. -/
def Obligations.FusedArithmeticAndComparisons : Prop :=
  ∀ (t : Thr) (f : RFmt) (s : State) (x : ThrSt) (w : WgSt) (e : VEnv) (u : State),
    let ty := f.ty
    let act := x.acting f.mask f.mneg
    let A (l : Nat) := nth 0 (x.src f.sA f.a) l
    let B (l : Nat) := nth 0 (x.src f.sB f.b) l
    let C (l : Nat) := nth 0 (x.src f.sC f.c) l
    let el (k v h : Nat) : Nat := v / 65536 ^ h % 2 ^ k
    let byte (un : Bool) (v j : Nat) : Int := if un then ((v / 256 ^ j % 256 : Nat) : Int) else (BitVec.ofNat 8 (v / 256 ^ j)).toInt
    (∀ k ∈ ([(.vfmaFma t f, fun a b c => fpOut ty (vadd (vmul (decElt ty a) (decElt ty b)) (decElt ty c))),
        (.vfmaFms t f, fun a b c => fpOut ty (vadd (vmul (decElt ty a) (decElt ty b)) (decElt ty c).negate)),
        (.vfmaFnma t f, fun a b c => fpOut ty (vadd (vmul (decElt ty a) (decElt ty b)).negate (decElt ty c))),
        (.vfmaMad t f, fun a b c => a * b + c)] : List (Instr × (Nat → Nat → Nat → Nat))),
      s.issues t k.1 = some (x, w, e, u) →
        ∃ y : ThrSt, exec k.1 s = .next (u.afterIssue t y w) ∧ y = { x.past with vr := y.vr, err := y.err } ∧
          (∀ r l, l < 32 → r ≠ f.d ∨ l ∉ act → y.v r l = x.v r l) ∧
          ∀ l ∈ act, ∀ h, h < (if packedTy ty then 2 else 1) →
            el (tyBits ty) (y.v f.d l) h =
              k.2 (el (tyBits ty) (A l) h) (el (tyBits ty) (B l) h) (el (tyBits ty) (C l) h) % 2 ^ tyBits ty) ∧
    (s.issues t (.vfmaDp4 t f) = some (x, w, e, u) →
      ∃ y : ThrSt, exec (.vfmaDp4 t f) s = .next (u.afterIssue t y w) ∧ y = { x.past with vr := y.vr, err := y.err } ∧
        ∀ r l, l < 32 → y.v r l = if r = f.d ∧ l ∈ act then
          (BitVec.ofInt 32 (max (-2147483648) (min 2147483647 ((BitVec.ofNat 32 (C l)).toInt +
            byte (ty == 2) (A l) 0 * byte f.bU (B l) 0 + byte (ty == 2) (A l) 1 * byte f.bU (B l) 1 +
            byte (ty == 2) (A l) 2 * byte f.bU (B l) 2 + byte (ty == 2) (A l) 3 * byte f.bU (B l) 3)))).toNat else x.v r l) ∧
    (∀ k ∈ ([(.vcmpEq t f, fun a b => decide (a = b), veq), (.vcmpNe t f, fun a b => decide (a ≠ b), fun a b => !veq a b),
        (.vcmpLt t f, fun a b => decide (a < b), vlt), (.vcmpLe t f, fun a b => decide (a ≤ b), fun a b => vlt a b || veq a b),
        (.vcmpGt t f, fun a b => decide (b < a), fun a b => vlt b a),
        (.vcmpGe t f, fun a b => decide (b ≤ a), fun a b => vlt b a || veq a b),
        (.vcmpIsnan t f, fun _ _ => false, fun a _ => a.isNan)] : List (Instr × (Int → Int → Bool) × (Val → Val → Bool))),
      s.issues t k.1 = some (x, w, e, u) →
        ∃ y : ThrSt, exec k.1 s = .next (u.afterIssue t y w) ∧ y = { x.past with mr := y.mr, err := y.err } ∧
          (∀ q, q ≠ f.d % 8 → (q ≠ f.d % 8 + 1 ∨ packedTy ty = false) → y.m q = x.m q) ∧
          ∀ h l, h < (if packedTy ty then 2 else 1) → l < 32 →
            let a := el (tyBits ty) (A l) h
            let b := el (tyBits ty) (B l) h
            bitOf (y.m (f.d % 8 + h)) l = if l ∈ act then
              (if intTy ty then k.2.1 (BitVec.ofNat (tyBits ty) a).toInt (BitVec.ofNat (tyBits ty) b).toInt
                else k.2.2 (decElt ty a) (decElt ty b)) else bitOf (x.m (f.d % 8 + h)) l) ∧
    (∀ k ∈ ([(.vcmpLtu t f, fun a b => decide (a < b)), (.vcmpGeu t f, fun a b => decide (b ≤ a))] :
        List (Instr × (Nat → Nat → Bool))),
      s.issues t k.1 = some (x, w, e, u) →
        ∃ y : ThrSt, exec k.1 s = .next (u.afterIssue t y w) ∧ y = { x.past with mr := y.mr, err := y.err } ∧
          (∀ q, q ≠ f.d % 8 → (q ≠ f.d % 8 + 1 ∨ packedTy ty = false) → y.m q = x.m q) ∧
          ∀ h l, h < (if packedTy ty then 2 else 1) → l < 32 →
            bitOf (y.m (f.d % 8 + h)) l = if l ∈ act then k.2 (el (tyBits ty) (A l) h) (el (tyBits ty) (B l) h)
              else bitOf (x.m (f.d % 8 + h)) l)

/-- R256, R258, R99: conversion spreads a packed operand over a register pair against a wide one; the functions of VTRANS work
lane by lane, with the values of the tables (log 10), SQRT rounded once and exact at the special operands. -/
def Obligations.ConversionsAndFunctions : Prop :=
  ∀ (t : Thr) (f : RFmt) (s : State) (x : ThrSt) (w : WgSt) (e : VEnv) (u : State),
    let act := x.acting f.mask f.mneg
    let dst := cvtFmt f.cvt
    let cv (v : Nat) : Nat := encFmt dst (cvtRnd f.cvt) (cvtSat f.cvt) (decElt f.ty v)
    let cut (v : Nat) : Nat := if f.ty = 4 ∨ f.ty = 9 then v else v % 256
    let A (r l : Nat) : Nat := nth 0 (x.src f.sA r) l
    (s.issues t (.vcvtConvert t f) = some (x, w, e, u) →
      ∃ y : ThrSt, exec (.vcvtConvert t f) s = .next (u.afterIssue t y w) ∧ y = { x.past with vr := y.vr, err := y.err } ∧
        (∀ r l, l < 32 → l ∉ act → y.v r l = x.v r l) ∧
        (∀ l ∈ act, packedTy f.ty = packedTy dst → packedTy dst = false → y.v f.d l = cv (cut (A f.a l)) % 2 ^ 32) ∧
        (∀ l ∈ act, packedTy f.ty = true → packedTy dst = true →
          y.v f.d l = (cv (A f.a l % 65536) + 65536 * cv (A f.a l / 65536)) % 2 ^ 32) ∧
        (∀ l ∈ act, packedTy f.ty = true → packedTy dst = false →
          y.v f.d l = cv (A f.a l % 65536) % 2 ^ 32 ∧ y.v (f.d + 1) l = cv (A f.a l / 65536) % 2 ^ 32) ∧
        (∀ l ∈ act, packedTy f.ty = false → packedTy dst = true →
          y.v f.d l = (cv (cut (A f.a l)) + 65536 * cv (cut (A (f.a + 1) l))) % 2 ^ 32) ∧
        ∀ r l, l < 32 → r ≠ f.d → (r ≠ f.d + 1 ∨ packedTy f.ty = false ∨ packedTy dst = true) → y.v r l = x.v r l) ∧
    (∀ k ∈ ([(.vtransExp t f, expF32 32), (.vtransExp2 t f, exp2F32), (.vtransLog2 t f, log2F32), (.vtransRcp t f, rcpF32 35),
        (.vtransRsqrt t f, rsqrtF32), (.vtransSqrt t f, sqrtF32), (.vtransSin t f, trigF32 false),
        (.vtransCos t f, trigF32 true), (.vtransTanh t f, tanhF32)] : List (Instr × (Nat → Nat))),
      s.issues t k.1 = some (x, w, e, u) →
        ∃ y : ThrSt, exec k.1 s = .next (u.afterIssue t y w) ∧ y = { x.past with vr := y.vr, err := y.err } ∧
          ∀ r l, l < 32 → y.v r l = if r = f.d ∧ l ∈ act then k.2 (A f.a l) % 2 ^ 32 else x.v r l) ∧
    (∀ b, ofF32 b = .nan → expF32 32 b = fF32.nanCode ∧ exp2F32 b = fF32.nanCode ∧ log2F32 b = fF32.nanCode ∧
      rsqrtF32 b = fF32.nanCode ∧ sqrtF32 b = fF32.nanCode ∧ trigF32 false b = fF32.nanCode ∧ tanhF32 b = fF32.nanCode) ∧
    ∀ b m ex, ofF32 b = .fin false m ex → m ≠ 0 → sqrtF32 b = f32 (sqrtVal m ex)

/-- R257: moves across lanes. Lanes that do not act are no sources and keep their destination lanes, but for COMPRESS and
SORT, which fill the whole register (log 17). What a move takes from a lane that does not act, and a reduction over no lane,
is a free value (log 7). -/
def Obligations.CrossLaneMoves : Prop :=
  ∀ (t : Thr) (f : RFmt) (s : State) (x : ThrSt) (w : WgSt) (e : VEnv) (u : State),
    let act := x.acting f.mask f.mneg
    let A (l : Nat) : Nat := nth 0 (x.src f.sA f.a) l
    let zeroed (l : Nat) : Nat := if act.contains l then A l else 0
    let sum (j : Nat) : Nat → Nat := fun i => addTy f.ty j i
    let got (i j : Nat) : Nat := if act.contains j then A j else (Config.freeWord (u.fresh + i)).toNat
    let ranked := act.foldl (fun l i => sortIns f.ty (A i, i) l) [] ++ (lanes.filter (fun i => !act.contains i)).map (fun i => (A i, i))
    (s.issues t (.vxlRadd t f) = some (x, w, e, u) →
      let l8 (i : Nat) : Nat := sum (sum (sum (zeroed i) (zeroed (i + 1))) (sum (zeroed (i + 2)) (zeroed (i + 3))))
        (sum (sum (zeroed (i + 4)) (zeroed (i + 5))) (sum (zeroed (i + 6)) (zeroed (i + 7))))
      exec (.vxlRadd t f) s = .next (u.afterIssue t (x.past.putS f.d (sum (sum (l8 0) (l8 8)) (sum (l8 16) (l8 24)))) w)) ∧
    (∀ k ∈ ([(.vxlRmin t f, false), (.vxlRmax t f, true)] : List (Instr × Bool)), s.issues t k.1 = some (x, w, e, u) →
      (act = [] → exec k.1 s = .next ((u.freshen 1).afterIssue t (x.past.putS f.d (Config.freeWord u.fresh).toNat) w)) ∧
      ∀ i is, act = i :: is → exec k.1 s =
        .next (u.afterIssue t (x.past.putS f.d (is.foldl (fun z j => minMax k.2 f.ty z (A j)) (A i))) w)) ∧
    (s.issues t (.vxlScan t f) = some (x, w, e, u) →
      ∃ y : ThrSt, exec (.vxlScan t f) s = .next (u.afterIssue t y w) ∧ y = { x.past with vr := y.vr, err := y.err } ∧
        (∀ r l, l < 32 → r ≠ f.d ∨ l ∉ act → y.v r l = x.v r l) ∧
        (∀ i, act.head? = some i → y.v f.d i = A i % 2 ^ 32) ∧
        ∀ pre i j post, act = pre ++ i :: j :: post → ∃ z, z % 2 ^ 32 = y.v f.d i ∧ y.v f.d j = sum z (A j) % 2 ^ 32) ∧
    (∀ k ∈ ([(.vxlPerm t f, fun i => some (nth 0 (x.src f.sB f.b) i % 32)), (.vxlBcast t f, fun _ => some (x.s f.b % 32)),
        (.vxlShiftup t f, fun i => if i < x.s f.b then none else some (i - x.s f.b))] : List (Instr × (Nat → Option Nat))),
      s.issues t k.1 = some (x, w, e, u) →
        ∃ y : ThrSt, exec k.1 s = .next ((u.freshen 32).afterIssue t y w) ∧ y = { x.past with vr := y.vr, err := y.err } ∧
          ∀ r l, l < 32 → y.v r l = if r = f.d ∧ l ∈ act then (match k.2 l with
            | some j => got l j % 2 ^ 32
            | none => 0) else x.v r l) ∧
    (s.issues t (.vxlExtract t f) = some (x, w, e, u) →
      exec (.vxlExtract t f) s = .next ((u.freshen 1).afterIssue t (x.past.putS f.d (got 0 (x.s f.b % 32))) w)) ∧
    (s.issues t (.vxlCompress t f) = some (x, w, e, u) →
      ∃ y : ThrSt, exec (.vxlCompress t f) s = .next (u.afterIssue t y w) ∧ y = { x.past with vr := y.vr, err := y.err } ∧
        ∀ r l, l < 32 → y.v r l = if r = f.d then (match act[l]? with
          | some i => A i % 2 ^ 32
          | none => 0) else x.v r l) ∧
    (s.issues t (.vxlSort t f) = some (x, w, e, u) →
      ∃ y : ThrSt, exec (.vxlSort t f) s = .next (u.afterIssue t y w) ∧ y = { x.past with vr := y.vr, err := y.err } ∧
        ∀ r l, l < 32 → y.v r l = if r = f.d + 1 then (nth (0, 0) ranked l).2 % 2 ^ 32
          else if r = f.d then (nth (0, 0) ranked l).1 % 2 ^ 32 else x.v r l)

/-- R246, R247, R259, R262: loads, stores and atomics of local memory. A misaligned element, one past the end of the
allocation, and a word read that its code cannot correct fail the launch and nothing is written; otherwise each acting lane
reads, writes or updates the element at its address, and every other byte and lane stays; corrected words are counted. -/
def Obligations.LocalMemoryAccesses : Prop :=
  ∀ (t : Thr) (f : MFmt) (s : State) (x : ThrSt) (w : WgSt) (e : VEnv) (u : State), f.space = 0 →
    let n := fmtBits f.ty / 8
    let act := x.acting f.mask f.mneg
    let wrap (z : Int) : Nat := (BitVec.ofInt 32 ((x.s f.sb : Int) + f.off.toInt + z)).toNat
    let es (form : Nat) : List (Nat × Nat) :=
      if form = 0 ∧ f.pack = true then ((List.range 64).filter (fun p => act.contains (p % 32))).map (fun p => (p, wrap (p * n)))
      else act.map (fun l => (l, wrap (match form with
        | 0 => (l : Int) * n
        | 1 => (l : Int) * (BitVec.ofNat 32 (x.s f.vx)).toInt
        | 2 => x.v f.vx l
        | _ => 0)))
    let slow (form : Nat) : State := u.vbump (e.core / 8) (VEC_CNT_LM_CONFLICT_COUNT (e.core / 8))
      (lmExtra form (strideOf (x.s f.vx)).natAbs ((es form).map (·.2)))
    let code (form : Nat) : Option (SMap (BitVec 39) × Nat) := secded w.err ((es form).map (fun p => p.2 / 4))
    let read (form c : Nat) : State := if c = 0 then slow form else (slow form).vbump (e.core / 8) (VEC_CNT_CORR_COUNT (e.core / 8)) c
    let bytesKept (form : Nat) (v : WgSt) : Prop :=
      ∀ b, (∀ p ∈ es form, b < p.2 ∨ p.2 + n ≤ b) → mget lm0 v.lm b = mget lm0 w.lm b
    (∀ k ∈ ([(.ldUnit t f, 0), (.ldStrided t f, 1), (.ldGather t f, 2), (.ldBroadcast t f, 3), (.stUnit t f, 0), (.stStrided t f, 1),
        (.stScatter t f, 2), (.atomAdd t f, 2), (.atomMin t f, 2), (.atomMax t f, 2), (.atomAnd t f, 2), (.atomOr t f, 2),
        (.atomXor t f, 2), (.atomExch t f, 2), (.atomCas t f, 2)] : List (Instr × Nat)), s.issues t k.1 = some (x, w, e, u) →
      ((∃ p ∈ es k.2, p.2 % n ≠ 0) → exec k.1 s = .next (u.launchFail e.d (t.core / 8) 0xA1 (vecDetail e x.pc 0))) ∧
      ((∀ p ∈ es k.2, p.2 % n = 0) → (∃ p ∈ es k.2, w.lm4k * 4096 < p.2 + n) →
        exec k.1 s = .next (u.launchFail e.d (t.core / 8) 0xA2 (vecDetail e x.pc 0))) ∧
      ((∀ p ∈ es k.2, p.2 % n = 0 ∧ p.2 + n ≤ w.lm4k * 4096) → code k.2 = none →
        (k.1 ≠ .stUnit t f ∧ k.1 ≠ .stStrided t f ∧ k.1 ≠ .stScatter t f) ∨ n < 4 →
        exec k.1 s = .next ((slow k.2).launchFail e.d (t.core / 8) 0xA3 (vecDetail e x.pc 0)))) ∧
    (∀ k ∈ ([(.ldUnit t f, 0), (.ldStrided t f, 1), (.ldGather t f, 2), (.ldBroadcast t f, 3)] : List (Instr × Nat)),
      s.issues t k.1 = some (x, w, e, u) → (∀ p ∈ es k.2, p.2 % n = 0 ∧ p.2 + n ≤ w.lm4k * 4096) →
      ∀ m c, code k.2 = some (m, c) →
      ∃ y : ThrSt, exec k.1 s = .next ((read k.2 c).afterIssue t y { w with err := m }) ∧ y = { x.past with vr := y.vr, err := y.err } ∧
        (∀ r l, l < 32 → r ≠ f.d ∨ l ∉ act → y.v r l = x.v r l) ∧
        (∀ p ∈ es k.2, f.pack = false → y.v f.d p.1 = widen f.ty (w.lmGet p.2 n) % 2 ^ 32) ∧
        (∀ p ∈ es k.2, f.pack = true → y.v f.d (p.1 % 32) / 65536 ^ (p.1 / 32) % 65536 = w.lmGet p.2 n)) ∧
    (∀ k ∈ ([(.stUnit t f, 0), (.stStrided t f, 1), (.stScatter t f, 2)] : List (Instr × Nat)),
      s.issues t k.1 = some (x, w, e, u) → (∀ p ∈ es k.2, p.2 % n = 0 ∧ p.2 + n ≤ w.lm4k * 4096) →
      ∀ m c, (if n < 4 then code k.2 else some (w.err, 0)) = some (m, c) →
      ∃ v : WgSt, exec k.1 s = .next ((read k.2 c).afterIssue t x.past v) ∧ v = { w with lm := v.lm, err := v.err } ∧ bytesKept k.2 v ∧
        ∀ pre p post, es k.2 = pre ++ p :: post → (∀ q ∈ post, q.2 ≠ p.2) →
          v.lmGet p.2 n = x.stElt f p.1 % 2 ^ (8 * n)) ∧
    (∀ k ∈ ([(.atomAdd t f, fun o a _ => addTy f.ty o a), (.atomMin t f, fun o a _ => minMax false f.ty o a),
        (.atomMax t f, fun o a _ => minMax true f.ty o a),
        (.atomAnd t f, fun o a _ => (BitVec.ofNat 32 o &&& BitVec.ofNat 32 a).toNat),
        (.atomOr t f, fun o a _ => (BitVec.ofNat 32 o ||| BitVec.ofNat 32 a).toNat),
        (.atomXor t f, fun o a _ => (BitVec.ofNat 32 o ^^^ BitVec.ofNat 32 a).toNat), (.atomExch t f, fun _ a _ => a),
        (.atomCas t f, fun o a b => if o = a then b else o)] : List (Instr × (Nat → Nat → Nat → Nat))),
      s.issues t k.1 = some (x, w, e, u) → (∀ p ∈ es 2, p.2 % n = 0 ∧ p.2 + n ≤ w.lm4k * 4096) →
      ∀ m c, code 2 = some (m, c) →
      ∃ (y : ThrSt) (v : WgSt), exec k.1 s = .next ((read 2 c).afterIssue t y v) ∧ y = { x.past with vr := y.vr, err := y.err } ∧
        v = { w with lm := v.lm, err := v.err } ∧ bytesKept 2 v ∧ (∀ r l, l < 32 → r ≠ f.d ∨ l ∉ act → y.v r l = x.v r l) ∧
        ∀ pre p post, es 2 = pre ++ p :: post → (∀ q ∈ pre, q.2 ≠ p.2) → y.v f.d p.1 = w.lmGet p.2 4 ∧
          ((∀ q ∈ post, q.2 ≠ p.2) →
            v.lmGet p.2 4 = k.2 (w.lmGet p.2 4) (x.v f.d p.1) (x.v (f.d + 1) p.1) % 2 ^ 32))

/-- R259, R263, R267: device memory. A load reads its codewords and its data wait for their return; a store, and an atomic,
must lie in the declared ranges, an atomic in scratchpad; a store writes its elements; an atomic of one lane reads, updates
and gives the old value. TEX reads its table entry first: a lane's SAMPLE or FETCH gives four channels, zero out of range. -/
def Obligations.DeviceMemoryAndTextures : Prop :=
  ∀ (t : Thr) (f : MFmt) (g : TFmt) (s : State) (x : ThrSt) (w : WgSt) (e : VEnv) (u : State),
    let n := fmtBits f.ty / 8
    let k8 := e.core / 8
    let fault (v : State) (c d : Nat) : State := v.launchFail e.d (t.core / 8) c (if 0xA0 ≤ c ∧ c ≤ 0xA7 then vecDetail e x.pc d else d)
    (f.space = 1 →
      (∀ k ∈ ([(.ldUnit t f, 0), (.ldStrided t f, 1), (.ldGather t f, 2), (.ldBroadcast t f, 3)] : List (Instr × Nat)),
        s.issues t k.1 = some (x, w, e, u) → (∀ p ∈ x.elems f k.2, p.2 % n = 0) →
        exec k.1 s = .next (match (eReadCws e n (x.elems f k.2)).run.run u with
          | (.ok cws, v) => v.afterIssue t { x.past with
              loads := x.loads ++ [(cws.length, loadCells x f ((x.elems f k.2).map (fun p => (p.1, eltIn cws p.2 n))))] } w
          | (.error .wait, v) => s.keepRequests v
          | (.error (.fail c d), v) => fault v c d)) ∧
      (∀ k ∈ ([(.stUnit t f, 0), (.stStrided t f, 1), (.stScatter t f, 2)] : List (Instr × Nat)),
        s.issues t k.1 = some (x, w, e, u) → (∀ p ∈ x.elems f k.2, p.2 % n = 0) →
        exec k.1 s = .next (if ∃ p ∈ x.elems f k.2, e.k.declares p.2 n = false then fault u 0xA7 0 else
          match (eStore e n ((x.elems f k.2).map (fun p => (p.2, x.stElt f p.1)))).run.run u with
          | (.ok _, v) => v.afterIssue t x.past w
          | (.error .wait, v) => s.keepRequests v
          | (.error (.fail c d), v) => fault v c d)) ∧
      (∀ k ∈ ([(.atomAdd t f, fun o a _ => addTy f.ty o a), (.atomMin t f, fun o a _ => minMax false f.ty o a),
          (.atomMax t f, fun o a _ => minMax true f.ty o a), (.atomAnd t f, fun o a _ => Nat.land o a),
          (.atomOr t f, fun o a _ => Nat.lor o a), (.atomXor t f, fun o a _ => Nat.xor o a), (.atomExch t f, fun _ a _ => a),
          (.atomCas t f, fun o a b => if o = a then b else o)] : List (Instr × (Nat → Nat → Nat → Nat))),
        s.issues t k.1 = some (x, w, e, u) → (∀ p ∈ x.elems f 2, p.2 % n = 0) →
        ((∃ p ∈ x.elems f 2, e.k.declares p.2 4 = false ∨ spaceOf p.2 ≠ .spd) → exec k.1 s = .next (fault u 0xA7 0)) ∧
        ∀ l a bs v v2, x.elems f 2 = [(l, a)] → e.k.declares a 4 = true → spaceOf a = .spd → u.readMem e.rq a 4 = (v, .ok bs) →
          v.writeMem e.rq false 0 a (leBytes 4 (k.2 (leNat bs) (x.v f.d l) (x.v (f.d + 1) l))) = (v2, none) →
          exec k.1 s = .next (((v2.vbump k8 (VEC_CNT_DEV_RD_COUNT k8) 1).vbump k8 (VEC_CNT_DEV_WR_COUNT k8) 1).afterIssue t
            (x.past.putV f.d l (leNat bs)) w))) ∧
    (∀ k ∈ ([(.texSample t g, false), (.texSampleL t g, true), (.texFetch t g, true)] : List (Instr × Bool)),
      s.issues t k.1 = some (x, w, e, u) →
      (e.k.textab = 0 → exec k.1 s = .next (fault u 0xA0 0)) ∧
      (e.k.textab ≠ 0 → ∀ v bs, u.readMem e.rq (e.k.textab + 64 * g.tex) 64 = (v, .ok bs) →
        (texOk bs = false → exec k.1 s = .next (fault v 0xAA (g.tex + e.k.textab * 65536))) ∧
        (texOk bs = true → ∀ l, x.acting g.mask g.mneg = [l] →
          let tx := texOf bs
          let q := l / 4 * 4
          let du (r p size : Nat) : Val := vmul (vsub (ofF32 (x.v r p)) (ofF32 (x.v r q))) (Val.ofInt (size : Int))
          let lod : Int := lodFix tx.bias + (if k.2 then lodFix (x.v (g.u + 3) l) else
            lodOf (du g.u (q + 1) tx.w) (du (g.u + 1) (q + 1) tx.h) (du g.u (q + 2) tx.w) (du (g.u + 1) (q + 2) tx.h))
          let put (c : List Nat) : ThrSt := (((x.past.putV g.d l (nth 0 c 0)).putV (g.d + 1) l (nth 0 c 1)).putV (g.d + 2) l
            (nth 0 c 2)).putV (g.d + 3) l (nth 0 c 3)
          let co (j : Nat) : Int := (BitVec.ofNat 32 (x.v (g.u + j) l)).toInt
          let level := (co 3).toNat
          let inside := 0 ≤ co 0 ∧ co 0 < levelSize tx.w level ∧ 0 ≤ co 1 ∧ co 1 < levelSize tx.h level ∧ 0 ≤ co 2 ∧
            co 2 < tx.layers ∧ 0 ≤ co 3 ∧ co 3 < tx.levels
          (k.1 ≠ .texFetch t g → ∀ c m v2,
            (tx.filtered e.rq e.core (x.v g.u l) (x.v (g.u + 1) l) (x.v (g.u + 2) l) lod).run.run v = (.ok (c, m), v2) →
            exec k.1 s = .next ((v2.vbump k8 (VEC_CNT_TEXEL_COUNT k8) m).afterIssue t (put c) w)) ∧
          (k.1 = .texFetch t g → ¬ inside → exec k.1 s = .next (v.afterIssue t (put [0, 0, 0, 0]) w)) ∧
          (k.1 = .texFetch t g → inside → ∀ c v2,
            (tx.texel e.rq e.core (co 0).toNat (co 1).toNat (co 2).toNat level).run.run v = (.ok c, v2) →
            exec k.1 s = .next (v2.afterIssue t (put c) w)))))

/-- R251, R259: SYS, BR and MASK. TRAP, and a JR outside the code, fail the launch. A BAR opens when every thread of the
workgroup that has not ended waits at one. -/
def Obligations.ControlFlowAndMasks : Prop :=
  ∀ (t : Thr) (b : BFmt) (f : RFmt) (c : SFmt) (s : State) (x : ThrSt) (w : WgSt) (e : VEnv) (u : State),
    let A : Word32 := BitVec.ofNat 32 (x.s b.sa)
    let B : Word32 := BitVec.ofNat 32 (x.s b.sb)
    let M : Word32 := BitVec.ofNat 32 (x.m (b.sa % 8))
    let P : Word32 := BitVec.ofNat 32 (x.m f.a)
    let Q : Word32 := BitVec.ofNat 32 (x.m f.b)
    let jump : ThrSt := { x with pc := ((x.pc : Int) + b.off.toInt).toNat }
    (∀ k ∈ ([(.brJmp t b, true), (.brBeq t b, A == B), (.brBne t b, A != B), (.brBlt t b, A.slt B), (.brBge t b, B.sle A),
        (.brBltu t b, A.ult B), (.brBgeu t b, B.ule A), (.brBany t b, M != 0), (.brBnone t b, M == 0),
        (.brBall t b, M == 0xFFFFFFFF)] : List (Instr × Bool)),
      s.issues t k.1 = some (x, w, e, u) → exec k.1 s = .next (u.afterIssue t (if k.2 then jump else x.past) w)) ∧
    (s.issues t (.brJal t b) = some (x, w, e, u) → exec (.brJal t b) s = .next (u.afterIssue t (jump.putS b.sa (x.pc + 1)) w)) ∧
    (s.issues t (.brJr t b) = some (x, w, e, u) →
      exec (.brJr t b) s = .next (if x.s b.sa < e.k.code then u.afterIssue t { x with pc := x.s b.sa } w
        else u.launchFail e.d (t.core / 8) 0xA0 (vecDetail e x.pc 0))) ∧
    (∀ k ∈ ([(.maskMand t f, P &&& Q), (.maskMor t f, P ||| Q), (.maskMxor t f, P ^^^ Q), (.maskMandn t f, P &&& ~~~Q),
        (.maskMnot t f, ~~~P), (.maskStom t f, BitVec.ofNat 32 (x.s f.a))] : List (Instr × Word32)),
      s.issues t k.1 = some (x, w, e, u) → exec k.1 s = .next (u.afterIssue t (x.past.putM f.d k.2.toNat) w)) ∧
    (∀ k ∈ ([(.maskMtos t f, P.toNat), (.maskMpop t f, (lanes.filter (fun i => P.getLsbD i)).length),
        (.maskMfirst t f, (lanes.find? (fun i => P.getLsbD i)).getD 32)] : List (Instr × Nat)),
      s.issues t k.1 = some (x, w, e, u) → exec k.1 s = .next (u.afterIssue t (x.past.putS f.d k.2) w)) ∧
    (∀ d m r, (x.putM d m).m r = if r = 0 then 0xFFFFFFFF else if r = d then m % 2 ^ 32 else x.m r) ∧
    (∀ k ∈ ([(.vecNop t c, x.past), (.vecFence t c, x.past), (.vecBar t c, { x.past with bar := true }),
        (.vecEnd t c, { x.past with ended := true, loads := [] })] : List (Instr × ThrSt)),
      s.issues t k.1 = some (x, w, e, u) → exec k.1 s = .next (u.afterIssue t k.2 w)) ∧
    (s.issues t (.vecTrap t c) = some (x, w, e, u) →
      exec (.vecTrap t c) s = .next (u.launchFail e.d (t.core / 8) 0xA4 (vecDetail e x.pc (c.imm.toNat % 65536)))) ∧
    (s.issues t (.vecLaneid t c) = some (x, w, e, u) →
      ∃ y : ThrSt, exec (.vecLaneid t c) s = .next (u.afterIssue t y w) ∧ y = { x.past with vr := y.vr, err := y.err } ∧
        ∀ r l, l < 32 → y.v r l = if r = c.d then l else x.v r l) ∧
    (s.issues t (.vecSread t c) = some (x, w, e, u) →
      let low := u.beacon % 2 ^ 32
      let high := u.beacon / 2 ^ 32
      exec (.vecSread t c) s = .next (match c.imm.toNat with
        | 7 => u.afterIssue t ({ x.past with hi := some high }.putS c.d low) w
        | 8 => u.afterIssue t ({ x.past with hi := none }.putS c.d (x.hi.getD high)) w
        | m => u.afterIssue t (x.past.putS c.d (nth 0 [w.x, w.y, w.z, x.idx, e.k.threads, t.core, u.ctxOf e.d, 0, 0, e.k.arg % 2 ^ 32,
            e.k.arg / 2 ^ 32, e.d.layerId, e.d.opId] m)) w)) ∧
    ∀ v : State, (∃ sl ∈ w.slots, ∃ y, v.thread ⟨w.core, sl⟩ = some y ∧ y.ended = false) →
      (∀ sl ∈ w.slots, sl < 8) → (∀ sl ∈ w.slots, ∀ y, v.thread ⟨w.core, sl⟩ = some y → y.ended = true ∨ y.bar = true) →
      ∃ v2 : State, v.settleWg w = v2 ∧ v2 = { v with thr := v2.thr } ∧
        ∀ sl ∈ w.slots, ∀ y, v.thread ⟨w.core, sl⟩ = some y → v2.thread ⟨w.core, sl⟩ = some { y with bar := false }

/-- R249, R267 to R272, R275, R283: launches. VEC_LAUNCH checks its image header and places its workgroups in order; a
workgroup start takes the lowest core with room, with cleared registers and PC at the entry; returned data go into their
registers; a thread that cannot issue leaves the device as it was; an illegal word, and an issue past BUDGET, fail the launch,
which stops all its threads. A pass ends its parts with its outcome. -/
def Obligations.LaunchesAndPasses : Prop :=
  ∀ (i : Nat) (d : Desc) (t : Thr) (s : State),
    (s.desc? i = some d → d.runnable 0x80 = true → s.clkOff = [] → s.kern? i = none →
      exec (.vecLaunch i) s = .next (match (eKern d).run.run s with
        | (.ok k, v) => ({ v with kerns := v.kerns ++ [k], lastCl := mset (fun _ => 4) v.lastCl (v.ctxOf d) (nth 4 d.isls 0 - 4) } :
            State).startWgs i (min 256 (k.gx * k.gy * k.gz))
        | (.error .wait, v) => s.keepRequests v
        | (.error (.fail c y), v) => v.launchFail d (nth 4 d.isls 0 - 4) c y)) ∧
    ((s.clkOff ≠ [] ∨ s.desc? i = none ∨ s.kern? i = none) → exec (.workgroupStart i) s = .next s) ∧
    (∀ k core, s.clkOff = [] → s.desc? i = some d → s.kern? i = some k → k.next < k.gx * k.gy * k.gz → d.effected = false →
      s.coreFor d k = some core →
      let free := (List.range 8).filter (fun sl => (s.thread ⟨core, sl⟩).isNone)
      k.threads ≤ free.length → 0 < k.threads →
      let v := s.startWg i
      exec (.workgroupStart i) s = .next v ∧ v.mem = s.mem ∧ v.descs = s.descs ∧
        v.wgs = s.wgs ++ [⟨i, core, k.next % k.gx, k.next / k.gx % k.gy, k.next / (k.gx * k.gy), free.take k.threads, [], k.lm4k, 0, []⟩] ∧
        (∀ j, j < k.threads → ∃ y, v.thread ⟨core, nth 8 free j⟩ = some y ∧ y.desc = i ∧ y.idx = j ∧ y.pc = k.entry ∧
          y.ended = false ∧ y.bar = false ∧ y.loads = [] ∧ y.err = [] ∧ (∀ r l, y.v r l = 0) ∧ (∀ r, y.s r = 0) ∧
          ∀ r, y.m r = if r = 0 then 0xFFFFFFFF else 0) ∧
        ∀ c sl, sl < 8 → (c ≠ core ∨ sl ∉ free) → v.thread ⟨c, sl⟩ = s.thread ⟨c, sl⟩) ∧
    (∀ x l ls, s.thread t = some x → x.loads = l :: ls →
      let vr := l.2.foldl (fun m c => mset word0 m c.1 c.2) x.vr
      let err := l.2.foldl (fun m c => mdel c.1 m) x.err
      exec (.vecLoadReturn t) s = .next (s.setThread t.core t.slot (some { x with loads := ls, vr := vr, err := err }))) ∧
    (∀ x, s.thread t = some x → x.loads = [] → exec (.vecLoadReturn t) s = .next (s.setThread t.core t.slot (some x))) ∧
    (s.thread t = none → exec (.vecLoadReturn t) s = .next s) ∧
    (∀ f, (s.clkOff ≠ [] ∨ s.issuing t = none) → exec (.vecNop t f) s = .next s) ∧
    (∀ x w e word v f, s.clkOff = [] → s.issuing t = some (x, w, e) → (eFetch e x).run.run s = (.ok word, v) →
      (vecDecode x.pc e.k.code word t = none →
        exec (.vecNop t f) s = .next (v.launchFail e.d (t.core / 8) 0xA0 (vecDetail e x.pc 0))) ∧
      (∀ j, vecDecode x.pc e.k.code word t = some j → j ≠ .vecNop t f ∨ x.ready j = false → exec (.vecNop t f) s = .next s) ∧
      (vecDecode x.pc e.k.code word t = some (.vecNop t f) → x.ready (.vecNop t f) = true → e.k.budget ≠ 0 →
        e.k.budget * 1024 < w.issued + 1 →
        exec (.vecNop t f) s = .next (v.launchFail e.d (t.core / 8) 0xA5 (vecDetail e x.pc 0)))) ∧
    (∀ k c y, (s.launchFail d k c y).wgs = s.wgs.filter (fun w => w.desc != d.id) ∧
      (s.launchFail d k c y).kerns = s.kerns.filter (fun q => q.desc != d.id) ∧
      ∀ q, (s.launchFail d k c y).desc? d.id = some q → q.effected = true) ∧
    exec (.gfxPass i) s = .next (s.passRun shaderFuel i).refreshGfx ∧
    (∀ n, s.desc? i = none ∨ (s.desc? i = some d ∧ (d.runnable 0xA0 = false ∨ s.clocked d = false)) → s.passRun n i = s) ∧
    (∀ n, s.desc? i = some d → d.runnable 0xA0 = true → s.clocked d = true →
      let counted (v : State) : State := if s.secureDesc d then s.keepCounters v else v
      s.passRun (n + 1) i = match (passMove d (s.passOf? i)).run.run s with
        | (.ok (some st), v) => State.passRun n i
            { counted v with passes := (counted v).passes.filter (fun x => x.desc != i) ++ [st] }
        | (.ok none, v) => ((counted { v with lastCl := mset (fun _ => 4) v.lastCl (s.ctxOf d) (nth 0 d.passUnits 0) }).dropLaunch
            i).setResults i (d.parts.map (fun p => (p.isl, 0, 0)))
        | (.error .wait, v) => s.keepRequests v
        | (.error (.fail c y), v) =>
          let isl := ((v.desc? i).map Desc.unitId).getD 4
          (((counted v).gfxLog d (isl - 4) c y).dropLaunch i).setResults i
            (d.parts.map (fun p => if p.isl = isl then (isl, c, y) else (p.isl, 0, 0))))

/-- R248 to R259: words and instructions of the vector cores agree. A legal instruction's word decodes to it, and the word of
a decoded instruction is the word that it was decoded from, so that no bit of an encoding is dropped. -/
def Obligations.VectorWordsAndInstructionsAgree : Prop :=
  ∀ (pc code : Nat) (t : Thr) (w : Nat) (i : Instr),
    (i.wf = true → vecEncode i = some (t, w) → vecReserved w = false → vecLegal pc code i = true →
      w < 2 ^ 64 ∧ vecDecode pc code w t = some i) ∧
    (w < 2 ^ 64 → vecDecode pc code w t = some i → vecEncode i = some (t, w))

/-- Every command completes: whatever the state and its operands, it leads to a next state. A command whose conditions do not
hold changes nothing or what its rule gives; no command ends the run, which is the model's choice where the source promises no
outcome (R1, log 4). -/
def Obligations.EveryCommandHasANextState : Prop :=
  ∀ (c : Instr) (s : State), ∃ t : State, exec c s = .next t
end

