-- ==== Sys2Proof/Laws/State.lean ====
section
/-!
SUPPORT. What the named updates of State leave alone: one lemma per field per update.
-/

namespace Sys2Proof.Machine

/-! ### State.setReg changes regs only -/

@[simp] theorem setReg_now (s : State) (b : Nat) (v : Word64) : (s.setReg b v).now = s.now := rfl
@[simp] theorem setReg_fresh (s : State) (b : Nat) (v : Word64) : (s.setReg b v).fresh = s.fresh := rfl
@[simp] theorem setReg_pending (s : State) (b : Nat) (v : Word64) : (s.setReg b v).pending = s.pending := rfl
@[simp] theorem setReg_rdata (s : State) (b : Nat) (v : Word64) : (s.setReg b v).rdata = s.rdata := rfl
@[simp] theorem setReg_active (s : State) (b : Nat) (v : Word64) : (s.setReg b v).active = s.active := rfl
@[simp] theorem setReg_shadow (s : State) (b : Nat) (v : Word64) : (s.setReg b v).shadow = s.shadow := rfl
@[simp] theorem setReg_latches (s : State) (b : Nat) (v : Word64) : (s.setReg b v).latches = s.latches := rfl
@[simp] theorem setReg_mem (s : State) (b : Nat) (v : Word64) : (s.setReg b v).mem = s.mem := rfl
@[simp] theorem setReg_tags (s : State) (b : Nat) (v : Word64) : (s.setReg b v).tags = s.tags := rfl
@[simp] theorem setReg_ecc (s : State) (b : Nat) (v : Word64) : (s.setReg b v).ecc = s.ecc := rfl
@[simp] theorem setReg_host (s : State) (b : Nat) (v : Word64) : (s.setReg b v).host = s.host := rfl
@[simp] theorem setReg_out (s : State) (b : Nat) (v : Word64) : (s.setReg b v).out = s.out := rfl
@[simp] theorem setReg_pins (s : State) (b : Nat) (v : Word64) : (s.setReg b v).pins = s.pins := rfl
@[simp] theorem setReg_arm (s : State) (b : Nat) (v : Word64) : (s.setReg b v).arm = s.arm := rfl
@[simp] theorem setReg_descs (s : State) (b : Nat) (v : Word64) : (s.setReg b v).descs = s.descs := rfl
@[simp] theorem setReg_nextId (s : State) (b : Nat) (v : Word64) : (s.setReg b v).nextId = s.nextId := rfl
@[simp] theorem setReg_dbLatch (s : State) (b : Nat) (v : Word64) : (s.setReg b v).dbLatch = s.dbLatch := rfl
@[simp] theorem setReg_coal (s : State) (b : Nat) (v : Word64) : (s.setReg b v).coal = s.coal := rfl
@[simp] theorem setReg_signallers (s : State) (b : Nat) (v : Word64) : (s.setReg b v).signallers = s.signallers := rfl
@[simp] theorem setReg_transients (s : State) (b : Nat) (v : Word64) : (s.setReg b v).transients = s.transients := rfl
@[simp] theorem setReg_retired (s : State) (b : Nat) (v : Word64) : (s.setReg b v).retired = s.retired := rfl
@[simp] theorem setReg_trace (s : State) (b : Nat) (v : Word64) : (s.setReg b v).trace = s.trace := rfl
@[simp] theorem setReg_pcie (s : State) (b : Nat) (v : Word64) : (s.setReg b v).pcie = s.pcie := rfl
@[simp] theorem setReg_lnkOut (s : State) (b : Nat) (v : Word64) : (s.setReg b v).lnkOut = s.lnkOut := rfl
@[simp] theorem setReg_peerData (s : State) (b : Nat) (v : Word64) : (s.setReg b v).peerData = s.peerData := rfl
@[simp] theorem setReg_trail (s : State) (b : Nat) (v : Word64) : (s.setReg b v).trail = s.trail := rfl
@[simp] theorem setReg_cplTries (s : State) (b : Nat) (v : Word64) : (s.setReg b v).cplTries = s.cplTries := rfl
@[simp] theorem setReg_posted (s : State) (b : Nat) (v : Word64) : (s.setReg b v).posted = s.posted := rfl
@[simp] theorem setReg_dirty (s : State) (b : Nat) (v : Word64) : (s.setReg b v).dirty = s.dirty := rfl
@[simp] theorem setReg_ports (s : State) (b : Nat) (v : Word64) : (s.setReg b v).ports = s.ports := rfl
@[simp] theorem setReg_chkInject (s : State) (b : Nat) (v : Word64) : (s.setReg b v).chkInject = s.chkInject := rfl
@[simp] theorem setReg_att (s : State) (b : Nat) (v : Word64) : (s.setReg b v).att = s.att := rfl
@[simp] theorem setReg_seq (s : State) (b : Nat) (v : Word64) : (s.setReg b v).seq = s.seq := rfl
@[simp] theorem setReg_stoppedQ (s : State) (b : Nat) (v : Word64) : (s.setReg b v).stoppedQ = s.stoppedQ := rfl
@[simp] theorem setReg_fetchFn (s : State) (b : Nat) (v : Word64) : (s.setReg b v).fetchFn = s.fetchFn := rfl
@[simp] theorem setReg_fetchTaken (s : State) (b : Nat) (v : Word64) : (s.setReg b v).fetchTaken = s.fetchTaken := rfl
@[simp] theorem setReg_jobs (s : State) (b : Nat) (v : Word64) : (s.setReg b v).jobs = s.jobs := rfl
@[simp] theorem setReg_spills (s : State) (b : Nat) (v : Word64) : (s.setReg b v).spills = s.spills := rfl
@[simp] theorem setReg_grants (s : State) (b : Nat) (v : Word64) : (s.setReg b v).grants = s.grants := rfl
@[simp] theorem setReg_borrowSeq (s : State) (b : Nat) (v : Word64) : (s.setReg b v).borrowSeq = s.borrowSeq := rfl
@[simp] theorem setReg_dwins (s : State) (b : Nat) (v : Word64) : (s.setReg b v).dwins = s.dwins := rfl
@[simp] theorem setReg_gold (s : State) (b : Nat) (v : Word64) : (s.setReg b v).gold = s.gold := rfl
@[simp] theorem setReg_consec (s : State) (b : Nat) (v : Word64) : (s.setReg b v).consec = s.consec := rfl
@[simp] theorem setReg_scrub (s : State) (b : Nat) (v : Word64) : (s.setReg b v).scrub = s.scrub := rfl
@[simp] theorem setReg_rgnHeld (s : State) (b : Nat) (v : Word64) : (s.setReg b v).rgnHeld = s.rgnHeld := rfl
@[simp] theorem setReg_reloc (s : State) (b : Nat) (v : Word64) : (s.setReg b v).reloc = s.reloc := rfl
@[simp] theorem setReg_memEvents (s : State) (b : Nat) (v : Word64) : (s.setReg b v).memEvents = s.memEvents := rfl
@[simp] theorem setReg_zqLast (s : State) (b : Nat) (v : Word64) : (s.setReg b v).zqLast = s.zqLast := rfl
@[simp] theorem setReg_kerns (s : State) (b : Nat) (v : Word64) : (s.setReg b v).kerns = s.kerns := rfl
@[simp] theorem setReg_wgs (s : State) (b : Nat) (v : Word64) : (s.setReg b v).wgs = s.wgs := rfl
@[simp] theorem setReg_thr (s : State) (b : Nat) (v : Word64) : (s.setReg b v).thr = s.thr := rfl
@[simp] theorem setReg_caches (s : State) (b : Nat) (v : Word64) : (s.setReg b v).caches = s.caches := rfl
@[simp] theorem setReg_passes (s : State) (b : Nat) (v : Word64) : (s.setReg b v).passes = s.passes := rfl
@[simp] theorem setReg_lastCl (s : State) (b : Nat) (v : Word64) : (s.setReg b v).lastCl = s.lastCl := rfl
@[simp] theorem setReg_disps (s : State) (b : Nat) (v : Word64) : (s.setReg b v).disps = s.disps := rfl
@[simp] theorem setReg_auxs (s : State) (b : Nat) (v : Word64) : (s.setReg b v).auxs = s.auxs := rfl
@[simp] theorem setReg_caps (s : State) (b : Nat) (v : Word64) : (s.setReg b v).caps = s.caps := rfl
@[simp] theorem setReg_auds (s : State) (b : Nat) (v : Word64) : (s.setReg b v).auds = s.auds := rfl
@[simp] theorem setReg_tdm (s : State) (b : Nat) (v : Word64) : (s.setReg b v).tdm = s.tdm := rfl
@[simp] theorem setReg_fsyncEnd (s : State) (b : Nat) (v : Word64) : (s.setReg b v).fsyncEnd = s.fsyncEnd := rfl
@[simp] theorem setReg_fsync (s : State) (b : Nat) (v : Word64) : (s.setReg b v).fsync = s.fsync := rfl
@[simp] theorem setReg_relC (s : State) (b : Nat) (v : Word64) : (s.setReg b v).relC = s.relC := rfl
@[simp] theorem setReg_waking (s : State) (b : Nat) (v : Word64) : (s.setReg b v).waking = s.waking := rfl
@[simp] theorem setReg_denied (s : State) (b : Nat) (v : Word64) : (s.setReg b v).denied = s.denied := rfl
@[simp] theorem setReg_clkOff (s : State) (b : Nat) (v : Word64) : (s.setReg b v).clkOff = s.clkOff := rfl
@[simp] theorem setReg_qosUsed (s : State) (b : Nat) (v : Word64) : (s.setReg b v).qosUsed = s.qosUsed := rfl
@[simp] theorem setReg_qosHeld (s : State) (b : Nat) (v : Word64) : (s.setReg b v).qosHeld = s.qosHeld := rfl
@[simp] theorem setReg_qosHold (s : State) (b : Nat) (v : Word64) : (s.setReg b v).qosHold = s.qosHold := rfl
@[simp] theorem setReg_qosWin (s : State) (b : Nat) (v : Word64) : (s.setReg b v).qosWin = s.qosWin := rfl
@[simp] theorem setReg_qosLive (s : State) (b : Nat) (v : Word64) : (s.setReg b v).qosLive = s.qosLive := rfl
@[simp] theorem setReg_qosPaid (s : State) (b : Nat) (v : Word64) : (s.setReg b v).qosPaid = s.qosPaid := rfl
@[simp] theorem setReg_qosCur (s : State) (b : Nat) (v : Word64) : (s.setReg b v).qosCur = s.qosCur := rfl
@[simp] theorem setReg_ddrQ (s : State) (b : Nat) (v : Word64) : (s.setReg b v).ddrQ = s.ddrQ := rfl
@[simp] theorem setReg_ddrRow (s : State) (b : Nat) (v : Word64) : (s.setReg b v).ddrRow = s.ddrRow := rfl
@[simp] theorem setReg_ddrPass (s : State) (b : Nat) (v : Word64) : (s.setReg b v).ddrPass = s.ddrPass := rfl
@[simp] theorem setReg_ddrSpill (s : State) (b : Nat) (v : Word64) : (s.setReg b v).ddrSpill = s.ddrSpill := rfl
@[simp] theorem setReg_hbDue (s : State) (b : Nat) (v : Word64) : (s.setReg b v).hbDue = s.hbDue := rfl
@[simp] theorem setReg_flrC (s : State) (b : Nat) (v : Word64) : (s.setReg b v).flrC = s.flrC := rfl
@[simp] theorem setReg_flrSq (s : State) (b : Nat) (v : Word64) : (s.setReg b v).flrSq = s.flrSq := rfl
@[simp] theorem setReg_flrGone (s : State) (b : Nat) (v : Word64) : (s.setReg b v).flrGone = s.flrGone := rfl
@[simp] theorem setReg_chkReal (s : State) (b : Nat) (v : Word64) : (s.setReg b v).chkReal = s.chkReal := rfl
@[simp] theorem setReg_pairRuns (s : State) (b : Nat) (v : Word64) : (s.setReg b v).pairRuns = s.pairRuns := rfl
@[simp] theorem setReg_fttiT (s : State) (b : Nat) (v : Word64) : (s.setReg b v).fttiT = s.fttiT := rfl
@[simp] theorem setReg_slotT (s : State) (b : Nat) (v : Word64) : (s.setReg b v).slotT = s.slotT := rfl
@[simp] theorem setReg_fttiFrom (s : State) (b : Nat) (v : Word64) : (s.setReg b v).fttiFrom = s.fttiFrom := rfl
@[simp] theorem setReg_cycle (s : State) (b : Nat) (v : Word64) : (s.setReg b v).cycle = s.cycle := rfl
@[simp] theorem setReg_seqC (s : State) (b : Nat) (v : Word64) : (s.setReg b v).seqC = s.seqC := rfl
@[simp] theorem setReg_seqT (s : State) (b : Nat) (v : Word64) : (s.setReg b v).seqT = s.seqT := rfl
@[simp] theorem setReg_seqF (s : State) (b : Nat) (v : Word64) : (s.setReg b v).seqF = s.seqF := rfl
@[simp] theorem setReg_wdgHit (s : State) (b : Nat) (v : Word64) : (s.setReg b v).wdgHit = s.wdgHit := rfl
@[simp] theorem setReg_gtInject (s : State) (b : Nat) (v : Word64) : (s.setReg b v).gtInject = s.gtInject := rfl
@[simp] theorem setReg_chkHist (s : State) (b : Nat) (v : Word64) : (s.setReg b v).chkHist = s.chkHist := rfl
@[simp] theorem setReg_gtReq (s : State) (b : Nat) (v : Word64) : (s.setReg b v).gtReq = s.gtReq := rfl
@[simp] theorem setReg_wakeTest (s : State) (b : Nat) (v : Word64) : (s.setReg b v).wakeTest = s.wakeTest := rfl
@[simp] theorem setReg_sst (s : State) (b : Nat) (v : Word64) : (s.setReg b v).sst = s.sst := rfl
@[simp] theorem setReg_flash (s : State) (b : Nat) (v : Word64) : (s.setReg b v).flash = s.flash := rfl
@[simp] theorem setReg_lnt (s : State) (b : Nat) (v : Word64) : (s.setReg b v).lnt = s.lnt := rfl
@[simp] theorem setReg_svc (s : State) (b : Nat) (v : Word64) : (s.setReg b v).svc = s.svc := rfl
@[simp] theorem setReg_actv (s : State) (b : Nat) (v : Word64) : (s.setReg b v).actv = s.actv := rfl
@[simp] theorem setReg_runImg (s : State) (b : Nat) (v : Word64) : (s.setReg b v).runImg = s.runImg := rfl
@[simp] theorem setReg_stageImg (s : State) (b : Nat) (v : Word64) : (s.setReg b v).stageImg = s.stageImg := rfl
@[simp] theorem setReg_gw (s : State) (b : Nat) (v : Word64) : (s.setReg b v).gw = s.gw := rfl
@[simp] theorem setReg_bcn (s : State) (b : Nat) (v : Word64) : (s.setReg b v).bcn = s.bcn := rfl
@[simp] theorem setReg_pwr (s : State) (b : Nat) (v : Word64) : (s.setReg b v).pwr = s.pwr := rfl

/-! ### State.put changes regs only -/

@[simp] theorem put_now (s : State) (f : Fref) (n : Nat) : (s.put f n).now = s.now := rfl
@[simp] theorem put_fresh (s : State) (f : Fref) (n : Nat) : (s.put f n).fresh = s.fresh := rfl
@[simp] theorem put_pending (s : State) (f : Fref) (n : Nat) : (s.put f n).pending = s.pending := rfl
@[simp] theorem put_rdata (s : State) (f : Fref) (n : Nat) : (s.put f n).rdata = s.rdata := rfl
@[simp] theorem put_active (s : State) (f : Fref) (n : Nat) : (s.put f n).active = s.active := rfl
@[simp] theorem put_shadow (s : State) (f : Fref) (n : Nat) : (s.put f n).shadow = s.shadow := rfl
@[simp] theorem put_latches (s : State) (f : Fref) (n : Nat) : (s.put f n).latches = s.latches := rfl
@[simp] theorem put_mem (s : State) (f : Fref) (n : Nat) : (s.put f n).mem = s.mem := rfl
@[simp] theorem put_tags (s : State) (f : Fref) (n : Nat) : (s.put f n).tags = s.tags := rfl
@[simp] theorem put_ecc (s : State) (f : Fref) (n : Nat) : (s.put f n).ecc = s.ecc := rfl
@[simp] theorem put_host (s : State) (f : Fref) (n : Nat) : (s.put f n).host = s.host := rfl
@[simp] theorem put_out (s : State) (f : Fref) (n : Nat) : (s.put f n).out = s.out := rfl
@[simp] theorem put_pins (s : State) (f : Fref) (n : Nat) : (s.put f n).pins = s.pins := rfl
@[simp] theorem put_arm (s : State) (f : Fref) (n : Nat) : (s.put f n).arm = s.arm := rfl
@[simp] theorem put_descs (s : State) (f : Fref) (n : Nat) : (s.put f n).descs = s.descs := rfl
@[simp] theorem put_nextId (s : State) (f : Fref) (n : Nat) : (s.put f n).nextId = s.nextId := rfl
@[simp] theorem put_dbLatch (s : State) (f : Fref) (n : Nat) : (s.put f n).dbLatch = s.dbLatch := rfl
@[simp] theorem put_coal (s : State) (f : Fref) (n : Nat) : (s.put f n).coal = s.coal := rfl
@[simp] theorem put_signallers (s : State) (f : Fref) (n : Nat) : (s.put f n).signallers = s.signallers := rfl
@[simp] theorem put_transients (s : State) (f : Fref) (n : Nat) : (s.put f n).transients = s.transients := rfl
@[simp] theorem put_retired (s : State) (f : Fref) (n : Nat) : (s.put f n).retired = s.retired := rfl
@[simp] theorem put_trace (s : State) (f : Fref) (n : Nat) : (s.put f n).trace = s.trace := rfl
@[simp] theorem put_pcie (s : State) (f : Fref) (n : Nat) : (s.put f n).pcie = s.pcie := rfl
@[simp] theorem put_lnkOut (s : State) (f : Fref) (n : Nat) : (s.put f n).lnkOut = s.lnkOut := rfl
@[simp] theorem put_peerData (s : State) (f : Fref) (n : Nat) : (s.put f n).peerData = s.peerData := rfl
@[simp] theorem put_trail (s : State) (f : Fref) (n : Nat) : (s.put f n).trail = s.trail := rfl
@[simp] theorem put_cplTries (s : State) (f : Fref) (n : Nat) : (s.put f n).cplTries = s.cplTries := rfl
@[simp] theorem put_posted (s : State) (f : Fref) (n : Nat) : (s.put f n).posted = s.posted := rfl
@[simp] theorem put_dirty (s : State) (f : Fref) (n : Nat) : (s.put f n).dirty = s.dirty := rfl
@[simp] theorem put_ports (s : State) (f : Fref) (n : Nat) : (s.put f n).ports = s.ports := rfl
@[simp] theorem put_chkInject (s : State) (f : Fref) (n : Nat) : (s.put f n).chkInject = s.chkInject := rfl
@[simp] theorem put_att (s : State) (f : Fref) (n : Nat) : (s.put f n).att = s.att := rfl
@[simp] theorem put_seq (s : State) (f : Fref) (n : Nat) : (s.put f n).seq = s.seq := rfl
@[simp] theorem put_stoppedQ (s : State) (f : Fref) (n : Nat) : (s.put f n).stoppedQ = s.stoppedQ := rfl
@[simp] theorem put_fetchFn (s : State) (f : Fref) (n : Nat) : (s.put f n).fetchFn = s.fetchFn := rfl
@[simp] theorem put_fetchTaken (s : State) (f : Fref) (n : Nat) : (s.put f n).fetchTaken = s.fetchTaken := rfl
@[simp] theorem put_jobs (s : State) (f : Fref) (n : Nat) : (s.put f n).jobs = s.jobs := rfl
@[simp] theorem put_spills (s : State) (f : Fref) (n : Nat) : (s.put f n).spills = s.spills := rfl
@[simp] theorem put_grants (s : State) (f : Fref) (n : Nat) : (s.put f n).grants = s.grants := rfl
@[simp] theorem put_borrowSeq (s : State) (f : Fref) (n : Nat) : (s.put f n).borrowSeq = s.borrowSeq := rfl
@[simp] theorem put_dwins (s : State) (f : Fref) (n : Nat) : (s.put f n).dwins = s.dwins := rfl
@[simp] theorem put_gold (s : State) (f : Fref) (n : Nat) : (s.put f n).gold = s.gold := rfl
@[simp] theorem put_consec (s : State) (f : Fref) (n : Nat) : (s.put f n).consec = s.consec := rfl
@[simp] theorem put_scrub (s : State) (f : Fref) (n : Nat) : (s.put f n).scrub = s.scrub := rfl
@[simp] theorem put_rgnHeld (s : State) (f : Fref) (n : Nat) : (s.put f n).rgnHeld = s.rgnHeld := rfl
@[simp] theorem put_reloc (s : State) (f : Fref) (n : Nat) : (s.put f n).reloc = s.reloc := rfl
@[simp] theorem put_memEvents (s : State) (f : Fref) (n : Nat) : (s.put f n).memEvents = s.memEvents := rfl
@[simp] theorem put_zqLast (s : State) (f : Fref) (n : Nat) : (s.put f n).zqLast = s.zqLast := rfl
@[simp] theorem put_kerns (s : State) (f : Fref) (n : Nat) : (s.put f n).kerns = s.kerns := rfl
@[simp] theorem put_wgs (s : State) (f : Fref) (n : Nat) : (s.put f n).wgs = s.wgs := rfl
@[simp] theorem put_thr (s : State) (f : Fref) (n : Nat) : (s.put f n).thr = s.thr := rfl
@[simp] theorem put_caches (s : State) (f : Fref) (n : Nat) : (s.put f n).caches = s.caches := rfl
@[simp] theorem put_passes (s : State) (f : Fref) (n : Nat) : (s.put f n).passes = s.passes := rfl
@[simp] theorem put_lastCl (s : State) (f : Fref) (n : Nat) : (s.put f n).lastCl = s.lastCl := rfl
@[simp] theorem put_disps (s : State) (f : Fref) (n : Nat) : (s.put f n).disps = s.disps := rfl
@[simp] theorem put_auxs (s : State) (f : Fref) (n : Nat) : (s.put f n).auxs = s.auxs := rfl
@[simp] theorem put_caps (s : State) (f : Fref) (n : Nat) : (s.put f n).caps = s.caps := rfl
@[simp] theorem put_auds (s : State) (f : Fref) (n : Nat) : (s.put f n).auds = s.auds := rfl
@[simp] theorem put_tdm (s : State) (f : Fref) (n : Nat) : (s.put f n).tdm = s.tdm := rfl
@[simp] theorem put_fsyncEnd (s : State) (f : Fref) (n : Nat) : (s.put f n).fsyncEnd = s.fsyncEnd := rfl
@[simp] theorem put_fsync (s : State) (f : Fref) (n : Nat) : (s.put f n).fsync = s.fsync := rfl
@[simp] theorem put_relC (s : State) (f : Fref) (n : Nat) : (s.put f n).relC = s.relC := rfl
@[simp] theorem put_waking (s : State) (f : Fref) (n : Nat) : (s.put f n).waking = s.waking := rfl
@[simp] theorem put_denied (s : State) (f : Fref) (n : Nat) : (s.put f n).denied = s.denied := rfl
@[simp] theorem put_clkOff (s : State) (f : Fref) (n : Nat) : (s.put f n).clkOff = s.clkOff := rfl
@[simp] theorem put_qosUsed (s : State) (f : Fref) (n : Nat) : (s.put f n).qosUsed = s.qosUsed := rfl
@[simp] theorem put_qosHeld (s : State) (f : Fref) (n : Nat) : (s.put f n).qosHeld = s.qosHeld := rfl
@[simp] theorem put_qosHold (s : State) (f : Fref) (n : Nat) : (s.put f n).qosHold = s.qosHold := rfl
@[simp] theorem put_qosWin (s : State) (f : Fref) (n : Nat) : (s.put f n).qosWin = s.qosWin := rfl
@[simp] theorem put_qosLive (s : State) (f : Fref) (n : Nat) : (s.put f n).qosLive = s.qosLive := rfl
@[simp] theorem put_qosPaid (s : State) (f : Fref) (n : Nat) : (s.put f n).qosPaid = s.qosPaid := rfl
@[simp] theorem put_qosCur (s : State) (f : Fref) (n : Nat) : (s.put f n).qosCur = s.qosCur := rfl
@[simp] theorem put_ddrQ (s : State) (f : Fref) (n : Nat) : (s.put f n).ddrQ = s.ddrQ := rfl
@[simp] theorem put_ddrRow (s : State) (f : Fref) (n : Nat) : (s.put f n).ddrRow = s.ddrRow := rfl
@[simp] theorem put_ddrPass (s : State) (f : Fref) (n : Nat) : (s.put f n).ddrPass = s.ddrPass := rfl
@[simp] theorem put_ddrSpill (s : State) (f : Fref) (n : Nat) : (s.put f n).ddrSpill = s.ddrSpill := rfl
@[simp] theorem put_hbDue (s : State) (f : Fref) (n : Nat) : (s.put f n).hbDue = s.hbDue := rfl
@[simp] theorem put_flrC (s : State) (f : Fref) (n : Nat) : (s.put f n).flrC = s.flrC := rfl
@[simp] theorem put_flrSq (s : State) (f : Fref) (n : Nat) : (s.put f n).flrSq = s.flrSq := rfl
@[simp] theorem put_flrGone (s : State) (f : Fref) (n : Nat) : (s.put f n).flrGone = s.flrGone := rfl
@[simp] theorem put_chkReal (s : State) (f : Fref) (n : Nat) : (s.put f n).chkReal = s.chkReal := rfl
@[simp] theorem put_pairRuns (s : State) (f : Fref) (n : Nat) : (s.put f n).pairRuns = s.pairRuns := rfl
@[simp] theorem put_fttiT (s : State) (f : Fref) (n : Nat) : (s.put f n).fttiT = s.fttiT := rfl
@[simp] theorem put_slotT (s : State) (f : Fref) (n : Nat) : (s.put f n).slotT = s.slotT := rfl
@[simp] theorem put_fttiFrom (s : State) (f : Fref) (n : Nat) : (s.put f n).fttiFrom = s.fttiFrom := rfl
@[simp] theorem put_cycle (s : State) (f : Fref) (n : Nat) : (s.put f n).cycle = s.cycle := rfl
@[simp] theorem put_seqC (s : State) (f : Fref) (n : Nat) : (s.put f n).seqC = s.seqC := rfl
@[simp] theorem put_seqT (s : State) (f : Fref) (n : Nat) : (s.put f n).seqT = s.seqT := rfl
@[simp] theorem put_seqF (s : State) (f : Fref) (n : Nat) : (s.put f n).seqF = s.seqF := rfl
@[simp] theorem put_wdgHit (s : State) (f : Fref) (n : Nat) : (s.put f n).wdgHit = s.wdgHit := rfl
@[simp] theorem put_gtInject (s : State) (f : Fref) (n : Nat) : (s.put f n).gtInject = s.gtInject := rfl
@[simp] theorem put_chkHist (s : State) (f : Fref) (n : Nat) : (s.put f n).chkHist = s.chkHist := rfl
@[simp] theorem put_gtReq (s : State) (f : Fref) (n : Nat) : (s.put f n).gtReq = s.gtReq := rfl
@[simp] theorem put_wakeTest (s : State) (f : Fref) (n : Nat) : (s.put f n).wakeTest = s.wakeTest := rfl
@[simp] theorem put_sst (s : State) (f : Fref) (n : Nat) : (s.put f n).sst = s.sst := rfl
@[simp] theorem put_flash (s : State) (f : Fref) (n : Nat) : (s.put f n).flash = s.flash := rfl
@[simp] theorem put_lnt (s : State) (f : Fref) (n : Nat) : (s.put f n).lnt = s.lnt := rfl
@[simp] theorem put_svc (s : State) (f : Fref) (n : Nat) : (s.put f n).svc = s.svc := rfl
@[simp] theorem put_actv (s : State) (f : Fref) (n : Nat) : (s.put f n).actv = s.actv := rfl
@[simp] theorem put_runImg (s : State) (f : Fref) (n : Nat) : (s.put f n).runImg = s.runImg := rfl
@[simp] theorem put_stageImg (s : State) (f : Fref) (n : Nat) : (s.put f n).stageImg = s.stageImg := rfl
@[simp] theorem put_gw (s : State) (f : Fref) (n : Nat) : (s.put f n).gw = s.gw := rfl
@[simp] theorem put_bcn (s : State) (f : Fref) (n : Nat) : (s.put f n).bcn = s.bcn := rfl
@[simp] theorem put_pwr (s : State) (f : Fref) (n : Nat) : (s.put f n).pwr = s.pwr := rfl

/-! ### State.bump changes regs only -/

@[simp] theorem bump_now (s : State) (f : Fref) (n : Nat) : (s.bump f n).now = s.now := rfl
@[simp] theorem bump_fresh (s : State) (f : Fref) (n : Nat) : (s.bump f n).fresh = s.fresh := rfl
@[simp] theorem bump_pending (s : State) (f : Fref) (n : Nat) : (s.bump f n).pending = s.pending := rfl
@[simp] theorem bump_rdata (s : State) (f : Fref) (n : Nat) : (s.bump f n).rdata = s.rdata := rfl
@[simp] theorem bump_active (s : State) (f : Fref) (n : Nat) : (s.bump f n).active = s.active := rfl
@[simp] theorem bump_shadow (s : State) (f : Fref) (n : Nat) : (s.bump f n).shadow = s.shadow := rfl
@[simp] theorem bump_latches (s : State) (f : Fref) (n : Nat) : (s.bump f n).latches = s.latches := rfl
@[simp] theorem bump_mem (s : State) (f : Fref) (n : Nat) : (s.bump f n).mem = s.mem := rfl
@[simp] theorem bump_tags (s : State) (f : Fref) (n : Nat) : (s.bump f n).tags = s.tags := rfl
@[simp] theorem bump_ecc (s : State) (f : Fref) (n : Nat) : (s.bump f n).ecc = s.ecc := rfl
@[simp] theorem bump_host (s : State) (f : Fref) (n : Nat) : (s.bump f n).host = s.host := rfl
@[simp] theorem bump_out (s : State) (f : Fref) (n : Nat) : (s.bump f n).out = s.out := rfl
@[simp] theorem bump_pins (s : State) (f : Fref) (n : Nat) : (s.bump f n).pins = s.pins := rfl
@[simp] theorem bump_arm (s : State) (f : Fref) (n : Nat) : (s.bump f n).arm = s.arm := rfl
@[simp] theorem bump_descs (s : State) (f : Fref) (n : Nat) : (s.bump f n).descs = s.descs := rfl
@[simp] theorem bump_nextId (s : State) (f : Fref) (n : Nat) : (s.bump f n).nextId = s.nextId := rfl
@[simp] theorem bump_dbLatch (s : State) (f : Fref) (n : Nat) : (s.bump f n).dbLatch = s.dbLatch := rfl
@[simp] theorem bump_coal (s : State) (f : Fref) (n : Nat) : (s.bump f n).coal = s.coal := rfl
@[simp] theorem bump_signallers (s : State) (f : Fref) (n : Nat) : (s.bump f n).signallers = s.signallers := rfl
@[simp] theorem bump_transients (s : State) (f : Fref) (n : Nat) : (s.bump f n).transients = s.transients := rfl
@[simp] theorem bump_retired (s : State) (f : Fref) (n : Nat) : (s.bump f n).retired = s.retired := rfl
@[simp] theorem bump_trace (s : State) (f : Fref) (n : Nat) : (s.bump f n).trace = s.trace := rfl
@[simp] theorem bump_pcie (s : State) (f : Fref) (n : Nat) : (s.bump f n).pcie = s.pcie := rfl
@[simp] theorem bump_lnkOut (s : State) (f : Fref) (n : Nat) : (s.bump f n).lnkOut = s.lnkOut := rfl
@[simp] theorem bump_peerData (s : State) (f : Fref) (n : Nat) : (s.bump f n).peerData = s.peerData := rfl
@[simp] theorem bump_trail (s : State) (f : Fref) (n : Nat) : (s.bump f n).trail = s.trail := rfl
@[simp] theorem bump_cplTries (s : State) (f : Fref) (n : Nat) : (s.bump f n).cplTries = s.cplTries := rfl
@[simp] theorem bump_posted (s : State) (f : Fref) (n : Nat) : (s.bump f n).posted = s.posted := rfl
@[simp] theorem bump_dirty (s : State) (f : Fref) (n : Nat) : (s.bump f n).dirty = s.dirty := rfl
@[simp] theorem bump_ports (s : State) (f : Fref) (n : Nat) : (s.bump f n).ports = s.ports := rfl
@[simp] theorem bump_chkInject (s : State) (f : Fref) (n : Nat) : (s.bump f n).chkInject = s.chkInject := rfl
@[simp] theorem bump_att (s : State) (f : Fref) (n : Nat) : (s.bump f n).att = s.att := rfl
@[simp] theorem bump_seq (s : State) (f : Fref) (n : Nat) : (s.bump f n).seq = s.seq := rfl
@[simp] theorem bump_stoppedQ (s : State) (f : Fref) (n : Nat) : (s.bump f n).stoppedQ = s.stoppedQ := rfl
@[simp] theorem bump_fetchFn (s : State) (f : Fref) (n : Nat) : (s.bump f n).fetchFn = s.fetchFn := rfl
@[simp] theorem bump_fetchTaken (s : State) (f : Fref) (n : Nat) : (s.bump f n).fetchTaken = s.fetchTaken := rfl
@[simp] theorem bump_jobs (s : State) (f : Fref) (n : Nat) : (s.bump f n).jobs = s.jobs := rfl
@[simp] theorem bump_spills (s : State) (f : Fref) (n : Nat) : (s.bump f n).spills = s.spills := rfl
@[simp] theorem bump_grants (s : State) (f : Fref) (n : Nat) : (s.bump f n).grants = s.grants := rfl
@[simp] theorem bump_borrowSeq (s : State) (f : Fref) (n : Nat) : (s.bump f n).borrowSeq = s.borrowSeq := rfl
@[simp] theorem bump_dwins (s : State) (f : Fref) (n : Nat) : (s.bump f n).dwins = s.dwins := rfl
@[simp] theorem bump_gold (s : State) (f : Fref) (n : Nat) : (s.bump f n).gold = s.gold := rfl
@[simp] theorem bump_consec (s : State) (f : Fref) (n : Nat) : (s.bump f n).consec = s.consec := rfl
@[simp] theorem bump_scrub (s : State) (f : Fref) (n : Nat) : (s.bump f n).scrub = s.scrub := rfl
@[simp] theorem bump_rgnHeld (s : State) (f : Fref) (n : Nat) : (s.bump f n).rgnHeld = s.rgnHeld := rfl
@[simp] theorem bump_reloc (s : State) (f : Fref) (n : Nat) : (s.bump f n).reloc = s.reloc := rfl
@[simp] theorem bump_memEvents (s : State) (f : Fref) (n : Nat) : (s.bump f n).memEvents = s.memEvents := rfl
@[simp] theorem bump_zqLast (s : State) (f : Fref) (n : Nat) : (s.bump f n).zqLast = s.zqLast := rfl
@[simp] theorem bump_kerns (s : State) (f : Fref) (n : Nat) : (s.bump f n).kerns = s.kerns := rfl
@[simp] theorem bump_wgs (s : State) (f : Fref) (n : Nat) : (s.bump f n).wgs = s.wgs := rfl
@[simp] theorem bump_thr (s : State) (f : Fref) (n : Nat) : (s.bump f n).thr = s.thr := rfl
@[simp] theorem bump_caches (s : State) (f : Fref) (n : Nat) : (s.bump f n).caches = s.caches := rfl
@[simp] theorem bump_passes (s : State) (f : Fref) (n : Nat) : (s.bump f n).passes = s.passes := rfl
@[simp] theorem bump_lastCl (s : State) (f : Fref) (n : Nat) : (s.bump f n).lastCl = s.lastCl := rfl
@[simp] theorem bump_disps (s : State) (f : Fref) (n : Nat) : (s.bump f n).disps = s.disps := rfl
@[simp] theorem bump_auxs (s : State) (f : Fref) (n : Nat) : (s.bump f n).auxs = s.auxs := rfl
@[simp] theorem bump_caps (s : State) (f : Fref) (n : Nat) : (s.bump f n).caps = s.caps := rfl
@[simp] theorem bump_auds (s : State) (f : Fref) (n : Nat) : (s.bump f n).auds = s.auds := rfl
@[simp] theorem bump_tdm (s : State) (f : Fref) (n : Nat) : (s.bump f n).tdm = s.tdm := rfl
@[simp] theorem bump_fsyncEnd (s : State) (f : Fref) (n : Nat) : (s.bump f n).fsyncEnd = s.fsyncEnd := rfl
@[simp] theorem bump_fsync (s : State) (f : Fref) (n : Nat) : (s.bump f n).fsync = s.fsync := rfl
@[simp] theorem bump_relC (s : State) (f : Fref) (n : Nat) : (s.bump f n).relC = s.relC := rfl
@[simp] theorem bump_waking (s : State) (f : Fref) (n : Nat) : (s.bump f n).waking = s.waking := rfl
@[simp] theorem bump_denied (s : State) (f : Fref) (n : Nat) : (s.bump f n).denied = s.denied := rfl
@[simp] theorem bump_clkOff (s : State) (f : Fref) (n : Nat) : (s.bump f n).clkOff = s.clkOff := rfl
@[simp] theorem bump_qosUsed (s : State) (f : Fref) (n : Nat) : (s.bump f n).qosUsed = s.qosUsed := rfl
@[simp] theorem bump_qosHeld (s : State) (f : Fref) (n : Nat) : (s.bump f n).qosHeld = s.qosHeld := rfl
@[simp] theorem bump_qosHold (s : State) (f : Fref) (n : Nat) : (s.bump f n).qosHold = s.qosHold := rfl
@[simp] theorem bump_qosWin (s : State) (f : Fref) (n : Nat) : (s.bump f n).qosWin = s.qosWin := rfl
@[simp] theorem bump_qosLive (s : State) (f : Fref) (n : Nat) : (s.bump f n).qosLive = s.qosLive := rfl
@[simp] theorem bump_qosPaid (s : State) (f : Fref) (n : Nat) : (s.bump f n).qosPaid = s.qosPaid := rfl
@[simp] theorem bump_qosCur (s : State) (f : Fref) (n : Nat) : (s.bump f n).qosCur = s.qosCur := rfl
@[simp] theorem bump_ddrQ (s : State) (f : Fref) (n : Nat) : (s.bump f n).ddrQ = s.ddrQ := rfl
@[simp] theorem bump_ddrRow (s : State) (f : Fref) (n : Nat) : (s.bump f n).ddrRow = s.ddrRow := rfl
@[simp] theorem bump_ddrPass (s : State) (f : Fref) (n : Nat) : (s.bump f n).ddrPass = s.ddrPass := rfl
@[simp] theorem bump_ddrSpill (s : State) (f : Fref) (n : Nat) : (s.bump f n).ddrSpill = s.ddrSpill := rfl
@[simp] theorem bump_hbDue (s : State) (f : Fref) (n : Nat) : (s.bump f n).hbDue = s.hbDue := rfl
@[simp] theorem bump_flrC (s : State) (f : Fref) (n : Nat) : (s.bump f n).flrC = s.flrC := rfl
@[simp] theorem bump_flrSq (s : State) (f : Fref) (n : Nat) : (s.bump f n).flrSq = s.flrSq := rfl
@[simp] theorem bump_flrGone (s : State) (f : Fref) (n : Nat) : (s.bump f n).flrGone = s.flrGone := rfl
@[simp] theorem bump_chkReal (s : State) (f : Fref) (n : Nat) : (s.bump f n).chkReal = s.chkReal := rfl
@[simp] theorem bump_pairRuns (s : State) (f : Fref) (n : Nat) : (s.bump f n).pairRuns = s.pairRuns := rfl
@[simp] theorem bump_fttiT (s : State) (f : Fref) (n : Nat) : (s.bump f n).fttiT = s.fttiT := rfl
@[simp] theorem bump_slotT (s : State) (f : Fref) (n : Nat) : (s.bump f n).slotT = s.slotT := rfl
@[simp] theorem bump_fttiFrom (s : State) (f : Fref) (n : Nat) : (s.bump f n).fttiFrom = s.fttiFrom := rfl
@[simp] theorem bump_cycle (s : State) (f : Fref) (n : Nat) : (s.bump f n).cycle = s.cycle := rfl
@[simp] theorem bump_seqC (s : State) (f : Fref) (n : Nat) : (s.bump f n).seqC = s.seqC := rfl
@[simp] theorem bump_seqT (s : State) (f : Fref) (n : Nat) : (s.bump f n).seqT = s.seqT := rfl
@[simp] theorem bump_seqF (s : State) (f : Fref) (n : Nat) : (s.bump f n).seqF = s.seqF := rfl
@[simp] theorem bump_wdgHit (s : State) (f : Fref) (n : Nat) : (s.bump f n).wdgHit = s.wdgHit := rfl
@[simp] theorem bump_gtInject (s : State) (f : Fref) (n : Nat) : (s.bump f n).gtInject = s.gtInject := rfl
@[simp] theorem bump_chkHist (s : State) (f : Fref) (n : Nat) : (s.bump f n).chkHist = s.chkHist := rfl
@[simp] theorem bump_gtReq (s : State) (f : Fref) (n : Nat) : (s.bump f n).gtReq = s.gtReq := rfl
@[simp] theorem bump_wakeTest (s : State) (f : Fref) (n : Nat) : (s.bump f n).wakeTest = s.wakeTest := rfl
@[simp] theorem bump_sst (s : State) (f : Fref) (n : Nat) : (s.bump f n).sst = s.sst := rfl
@[simp] theorem bump_flash (s : State) (f : Fref) (n : Nat) : (s.bump f n).flash = s.flash := rfl
@[simp] theorem bump_lnt (s : State) (f : Fref) (n : Nat) : (s.bump f n).lnt = s.lnt := rfl
@[simp] theorem bump_svc (s : State) (f : Fref) (n : Nat) : (s.bump f n).svc = s.svc := rfl
@[simp] theorem bump_actv (s : State) (f : Fref) (n : Nat) : (s.bump f n).actv = s.actv := rfl
@[simp] theorem bump_runImg (s : State) (f : Fref) (n : Nat) : (s.bump f n).runImg = s.runImg := rfl
@[simp] theorem bump_stageImg (s : State) (f : Fref) (n : Nat) : (s.bump f n).stageImg = s.stageImg := rfl
@[simp] theorem bump_gw (s : State) (f : Fref) (n : Nat) : (s.bump f n).gw = s.gw := rfl
@[simp] theorem bump_bcn (s : State) (f : Fref) (n : Nat) : (s.bump f n).bcn = s.bcn := rfl
@[simp] theorem bump_pwr (s : State) (f : Fref) (n : Nat) : (s.bump f n).pwr = s.pwr := rfl

/-! ### State.drop changes regs only -/

@[simp] theorem drop_now (s : State) (f : Fref) (n : Nat) : (s.drop f n).now = s.now := rfl
@[simp] theorem drop_fresh (s : State) (f : Fref) (n : Nat) : (s.drop f n).fresh = s.fresh := rfl
@[simp] theorem drop_pending (s : State) (f : Fref) (n : Nat) : (s.drop f n).pending = s.pending := rfl
@[simp] theorem drop_rdata (s : State) (f : Fref) (n : Nat) : (s.drop f n).rdata = s.rdata := rfl
@[simp] theorem drop_active (s : State) (f : Fref) (n : Nat) : (s.drop f n).active = s.active := rfl
@[simp] theorem drop_shadow (s : State) (f : Fref) (n : Nat) : (s.drop f n).shadow = s.shadow := rfl
@[simp] theorem drop_latches (s : State) (f : Fref) (n : Nat) : (s.drop f n).latches = s.latches := rfl
@[simp] theorem drop_mem (s : State) (f : Fref) (n : Nat) : (s.drop f n).mem = s.mem := rfl
@[simp] theorem drop_tags (s : State) (f : Fref) (n : Nat) : (s.drop f n).tags = s.tags := rfl
@[simp] theorem drop_ecc (s : State) (f : Fref) (n : Nat) : (s.drop f n).ecc = s.ecc := rfl
@[simp] theorem drop_host (s : State) (f : Fref) (n : Nat) : (s.drop f n).host = s.host := rfl
@[simp] theorem drop_out (s : State) (f : Fref) (n : Nat) : (s.drop f n).out = s.out := rfl
@[simp] theorem drop_pins (s : State) (f : Fref) (n : Nat) : (s.drop f n).pins = s.pins := rfl
@[simp] theorem drop_arm (s : State) (f : Fref) (n : Nat) : (s.drop f n).arm = s.arm := rfl
@[simp] theorem drop_descs (s : State) (f : Fref) (n : Nat) : (s.drop f n).descs = s.descs := rfl
@[simp] theorem drop_nextId (s : State) (f : Fref) (n : Nat) : (s.drop f n).nextId = s.nextId := rfl
@[simp] theorem drop_dbLatch (s : State) (f : Fref) (n : Nat) : (s.drop f n).dbLatch = s.dbLatch := rfl
@[simp] theorem drop_coal (s : State) (f : Fref) (n : Nat) : (s.drop f n).coal = s.coal := rfl
@[simp] theorem drop_signallers (s : State) (f : Fref) (n : Nat) : (s.drop f n).signallers = s.signallers := rfl
@[simp] theorem drop_transients (s : State) (f : Fref) (n : Nat) : (s.drop f n).transients = s.transients := rfl
@[simp] theorem drop_retired (s : State) (f : Fref) (n : Nat) : (s.drop f n).retired = s.retired := rfl
@[simp] theorem drop_trace (s : State) (f : Fref) (n : Nat) : (s.drop f n).trace = s.trace := rfl
@[simp] theorem drop_pcie (s : State) (f : Fref) (n : Nat) : (s.drop f n).pcie = s.pcie := rfl
@[simp] theorem drop_lnkOut (s : State) (f : Fref) (n : Nat) : (s.drop f n).lnkOut = s.lnkOut := rfl
@[simp] theorem drop_peerData (s : State) (f : Fref) (n : Nat) : (s.drop f n).peerData = s.peerData := rfl
@[simp] theorem drop_trail (s : State) (f : Fref) (n : Nat) : (s.drop f n).trail = s.trail := rfl
@[simp] theorem drop_cplTries (s : State) (f : Fref) (n : Nat) : (s.drop f n).cplTries = s.cplTries := rfl
@[simp] theorem drop_posted (s : State) (f : Fref) (n : Nat) : (s.drop f n).posted = s.posted := rfl
@[simp] theorem drop_dirty (s : State) (f : Fref) (n : Nat) : (s.drop f n).dirty = s.dirty := rfl
@[simp] theorem drop_ports (s : State) (f : Fref) (n : Nat) : (s.drop f n).ports = s.ports := rfl
@[simp] theorem drop_chkInject (s : State) (f : Fref) (n : Nat) : (s.drop f n).chkInject = s.chkInject := rfl
@[simp] theorem drop_att (s : State) (f : Fref) (n : Nat) : (s.drop f n).att = s.att := rfl
@[simp] theorem drop_seq (s : State) (f : Fref) (n : Nat) : (s.drop f n).seq = s.seq := rfl
@[simp] theorem drop_stoppedQ (s : State) (f : Fref) (n : Nat) : (s.drop f n).stoppedQ = s.stoppedQ := rfl
@[simp] theorem drop_fetchFn (s : State) (f : Fref) (n : Nat) : (s.drop f n).fetchFn = s.fetchFn := rfl
@[simp] theorem drop_fetchTaken (s : State) (f : Fref) (n : Nat) : (s.drop f n).fetchTaken = s.fetchTaken := rfl
@[simp] theorem drop_jobs (s : State) (f : Fref) (n : Nat) : (s.drop f n).jobs = s.jobs := rfl
@[simp] theorem drop_spills (s : State) (f : Fref) (n : Nat) : (s.drop f n).spills = s.spills := rfl
@[simp] theorem drop_grants (s : State) (f : Fref) (n : Nat) : (s.drop f n).grants = s.grants := rfl
@[simp] theorem drop_borrowSeq (s : State) (f : Fref) (n : Nat) : (s.drop f n).borrowSeq = s.borrowSeq := rfl
@[simp] theorem drop_dwins (s : State) (f : Fref) (n : Nat) : (s.drop f n).dwins = s.dwins := rfl
@[simp] theorem drop_gold (s : State) (f : Fref) (n : Nat) : (s.drop f n).gold = s.gold := rfl
@[simp] theorem drop_consec (s : State) (f : Fref) (n : Nat) : (s.drop f n).consec = s.consec := rfl
@[simp] theorem drop_scrub (s : State) (f : Fref) (n : Nat) : (s.drop f n).scrub = s.scrub := rfl
@[simp] theorem drop_rgnHeld (s : State) (f : Fref) (n : Nat) : (s.drop f n).rgnHeld = s.rgnHeld := rfl
@[simp] theorem drop_reloc (s : State) (f : Fref) (n : Nat) : (s.drop f n).reloc = s.reloc := rfl
@[simp] theorem drop_memEvents (s : State) (f : Fref) (n : Nat) : (s.drop f n).memEvents = s.memEvents := rfl
@[simp] theorem drop_zqLast (s : State) (f : Fref) (n : Nat) : (s.drop f n).zqLast = s.zqLast := rfl
@[simp] theorem drop_kerns (s : State) (f : Fref) (n : Nat) : (s.drop f n).kerns = s.kerns := rfl
@[simp] theorem drop_wgs (s : State) (f : Fref) (n : Nat) : (s.drop f n).wgs = s.wgs := rfl
@[simp] theorem drop_thr (s : State) (f : Fref) (n : Nat) : (s.drop f n).thr = s.thr := rfl
@[simp] theorem drop_caches (s : State) (f : Fref) (n : Nat) : (s.drop f n).caches = s.caches := rfl
@[simp] theorem drop_passes (s : State) (f : Fref) (n : Nat) : (s.drop f n).passes = s.passes := rfl
@[simp] theorem drop_lastCl (s : State) (f : Fref) (n : Nat) : (s.drop f n).lastCl = s.lastCl := rfl
@[simp] theorem drop_disps (s : State) (f : Fref) (n : Nat) : (s.drop f n).disps = s.disps := rfl
@[simp] theorem drop_auxs (s : State) (f : Fref) (n : Nat) : (s.drop f n).auxs = s.auxs := rfl
@[simp] theorem drop_caps (s : State) (f : Fref) (n : Nat) : (s.drop f n).caps = s.caps := rfl
@[simp] theorem drop_auds (s : State) (f : Fref) (n : Nat) : (s.drop f n).auds = s.auds := rfl
@[simp] theorem drop_tdm (s : State) (f : Fref) (n : Nat) : (s.drop f n).tdm = s.tdm := rfl
@[simp] theorem drop_fsyncEnd (s : State) (f : Fref) (n : Nat) : (s.drop f n).fsyncEnd = s.fsyncEnd := rfl
@[simp] theorem drop_fsync (s : State) (f : Fref) (n : Nat) : (s.drop f n).fsync = s.fsync := rfl
@[simp] theorem drop_relC (s : State) (f : Fref) (n : Nat) : (s.drop f n).relC = s.relC := rfl
@[simp] theorem drop_waking (s : State) (f : Fref) (n : Nat) : (s.drop f n).waking = s.waking := rfl
@[simp] theorem drop_denied (s : State) (f : Fref) (n : Nat) : (s.drop f n).denied = s.denied := rfl
@[simp] theorem drop_clkOff (s : State) (f : Fref) (n : Nat) : (s.drop f n).clkOff = s.clkOff := rfl
@[simp] theorem drop_qosUsed (s : State) (f : Fref) (n : Nat) : (s.drop f n).qosUsed = s.qosUsed := rfl
@[simp] theorem drop_qosHeld (s : State) (f : Fref) (n : Nat) : (s.drop f n).qosHeld = s.qosHeld := rfl
@[simp] theorem drop_qosHold (s : State) (f : Fref) (n : Nat) : (s.drop f n).qosHold = s.qosHold := rfl
@[simp] theorem drop_qosWin (s : State) (f : Fref) (n : Nat) : (s.drop f n).qosWin = s.qosWin := rfl
@[simp] theorem drop_qosLive (s : State) (f : Fref) (n : Nat) : (s.drop f n).qosLive = s.qosLive := rfl
@[simp] theorem drop_qosPaid (s : State) (f : Fref) (n : Nat) : (s.drop f n).qosPaid = s.qosPaid := rfl
@[simp] theorem drop_qosCur (s : State) (f : Fref) (n : Nat) : (s.drop f n).qosCur = s.qosCur := rfl
@[simp] theorem drop_ddrQ (s : State) (f : Fref) (n : Nat) : (s.drop f n).ddrQ = s.ddrQ := rfl
@[simp] theorem drop_ddrRow (s : State) (f : Fref) (n : Nat) : (s.drop f n).ddrRow = s.ddrRow := rfl
@[simp] theorem drop_ddrPass (s : State) (f : Fref) (n : Nat) : (s.drop f n).ddrPass = s.ddrPass := rfl
@[simp] theorem drop_ddrSpill (s : State) (f : Fref) (n : Nat) : (s.drop f n).ddrSpill = s.ddrSpill := rfl
@[simp] theorem drop_hbDue (s : State) (f : Fref) (n : Nat) : (s.drop f n).hbDue = s.hbDue := rfl
@[simp] theorem drop_flrC (s : State) (f : Fref) (n : Nat) : (s.drop f n).flrC = s.flrC := rfl
@[simp] theorem drop_flrSq (s : State) (f : Fref) (n : Nat) : (s.drop f n).flrSq = s.flrSq := rfl
@[simp] theorem drop_flrGone (s : State) (f : Fref) (n : Nat) : (s.drop f n).flrGone = s.flrGone := rfl
@[simp] theorem drop_chkReal (s : State) (f : Fref) (n : Nat) : (s.drop f n).chkReal = s.chkReal := rfl
@[simp] theorem drop_pairRuns (s : State) (f : Fref) (n : Nat) : (s.drop f n).pairRuns = s.pairRuns := rfl
@[simp] theorem drop_fttiT (s : State) (f : Fref) (n : Nat) : (s.drop f n).fttiT = s.fttiT := rfl
@[simp] theorem drop_slotT (s : State) (f : Fref) (n : Nat) : (s.drop f n).slotT = s.slotT := rfl
@[simp] theorem drop_fttiFrom (s : State) (f : Fref) (n : Nat) : (s.drop f n).fttiFrom = s.fttiFrom := rfl
@[simp] theorem drop_cycle (s : State) (f : Fref) (n : Nat) : (s.drop f n).cycle = s.cycle := rfl
@[simp] theorem drop_seqC (s : State) (f : Fref) (n : Nat) : (s.drop f n).seqC = s.seqC := rfl
@[simp] theorem drop_seqT (s : State) (f : Fref) (n : Nat) : (s.drop f n).seqT = s.seqT := rfl
@[simp] theorem drop_seqF (s : State) (f : Fref) (n : Nat) : (s.drop f n).seqF = s.seqF := rfl
@[simp] theorem drop_wdgHit (s : State) (f : Fref) (n : Nat) : (s.drop f n).wdgHit = s.wdgHit := rfl
@[simp] theorem drop_gtInject (s : State) (f : Fref) (n : Nat) : (s.drop f n).gtInject = s.gtInject := rfl
@[simp] theorem drop_chkHist (s : State) (f : Fref) (n : Nat) : (s.drop f n).chkHist = s.chkHist := rfl
@[simp] theorem drop_gtReq (s : State) (f : Fref) (n : Nat) : (s.drop f n).gtReq = s.gtReq := rfl
@[simp] theorem drop_wakeTest (s : State) (f : Fref) (n : Nat) : (s.drop f n).wakeTest = s.wakeTest := rfl
@[simp] theorem drop_sst (s : State) (f : Fref) (n : Nat) : (s.drop f n).sst = s.sst := rfl
@[simp] theorem drop_flash (s : State) (f : Fref) (n : Nat) : (s.drop f n).flash = s.flash := rfl
@[simp] theorem drop_lnt (s : State) (f : Fref) (n : Nat) : (s.drop f n).lnt = s.lnt := rfl
@[simp] theorem drop_svc (s : State) (f : Fref) (n : Nat) : (s.drop f n).svc = s.svc := rfl
@[simp] theorem drop_actv (s : State) (f : Fref) (n : Nat) : (s.drop f n).actv = s.actv := rfl
@[simp] theorem drop_runImg (s : State) (f : Fref) (n : Nat) : (s.drop f n).runImg = s.runImg := rfl
@[simp] theorem drop_stageImg (s : State) (f : Fref) (n : Nat) : (s.drop f n).stageImg = s.stageImg := rfl
@[simp] theorem drop_gw (s : State) (f : Fref) (n : Nat) : (s.drop f n).gw = s.gw := rfl
@[simp] theorem drop_bcn (s : State) (f : Fref) (n : Nat) : (s.drop f n).bcn = s.bcn := rfl
@[simp] theorem drop_pwr (s : State) (f : Fref) (n : Nat) : (s.drop f n).pwr = s.pwr := rfl

/-! ### State.setAct changes active only -/

@[simp] theorem setAct_now (s : State) (b : Nat) (v : Word64) : (s.setAct b v).now = s.now := rfl
@[simp] theorem setAct_fresh (s : State) (b : Nat) (v : Word64) : (s.setAct b v).fresh = s.fresh := rfl
@[simp] theorem setAct_pending (s : State) (b : Nat) (v : Word64) : (s.setAct b v).pending = s.pending := rfl
@[simp] theorem setAct_rdata (s : State) (b : Nat) (v : Word64) : (s.setAct b v).rdata = s.rdata := rfl
@[simp] theorem setAct_regs (s : State) (b : Nat) (v : Word64) : (s.setAct b v).regs = s.regs := rfl
@[simp] theorem setAct_shadow (s : State) (b : Nat) (v : Word64) : (s.setAct b v).shadow = s.shadow := rfl
@[simp] theorem setAct_latches (s : State) (b : Nat) (v : Word64) : (s.setAct b v).latches = s.latches := rfl
@[simp] theorem setAct_mem (s : State) (b : Nat) (v : Word64) : (s.setAct b v).mem = s.mem := rfl
@[simp] theorem setAct_tags (s : State) (b : Nat) (v : Word64) : (s.setAct b v).tags = s.tags := rfl
@[simp] theorem setAct_ecc (s : State) (b : Nat) (v : Word64) : (s.setAct b v).ecc = s.ecc := rfl
@[simp] theorem setAct_host (s : State) (b : Nat) (v : Word64) : (s.setAct b v).host = s.host := rfl
@[simp] theorem setAct_out (s : State) (b : Nat) (v : Word64) : (s.setAct b v).out = s.out := rfl
@[simp] theorem setAct_pins (s : State) (b : Nat) (v : Word64) : (s.setAct b v).pins = s.pins := rfl
@[simp] theorem setAct_arm (s : State) (b : Nat) (v : Word64) : (s.setAct b v).arm = s.arm := rfl
@[simp] theorem setAct_descs (s : State) (b : Nat) (v : Word64) : (s.setAct b v).descs = s.descs := rfl
@[simp] theorem setAct_nextId (s : State) (b : Nat) (v : Word64) : (s.setAct b v).nextId = s.nextId := rfl
@[simp] theorem setAct_dbLatch (s : State) (b : Nat) (v : Word64) : (s.setAct b v).dbLatch = s.dbLatch := rfl
@[simp] theorem setAct_coal (s : State) (b : Nat) (v : Word64) : (s.setAct b v).coal = s.coal := rfl
@[simp] theorem setAct_signallers (s : State) (b : Nat) (v : Word64) : (s.setAct b v).signallers = s.signallers := rfl
@[simp] theorem setAct_transients (s : State) (b : Nat) (v : Word64) : (s.setAct b v).transients = s.transients := rfl
@[simp] theorem setAct_retired (s : State) (b : Nat) (v : Word64) : (s.setAct b v).retired = s.retired := rfl
@[simp] theorem setAct_trace (s : State) (b : Nat) (v : Word64) : (s.setAct b v).trace = s.trace := rfl
@[simp] theorem setAct_pcie (s : State) (b : Nat) (v : Word64) : (s.setAct b v).pcie = s.pcie := rfl
@[simp] theorem setAct_lnkOut (s : State) (b : Nat) (v : Word64) : (s.setAct b v).lnkOut = s.lnkOut := rfl
@[simp] theorem setAct_peerData (s : State) (b : Nat) (v : Word64) : (s.setAct b v).peerData = s.peerData := rfl
@[simp] theorem setAct_trail (s : State) (b : Nat) (v : Word64) : (s.setAct b v).trail = s.trail := rfl
@[simp] theorem setAct_cplTries (s : State) (b : Nat) (v : Word64) : (s.setAct b v).cplTries = s.cplTries := rfl
@[simp] theorem setAct_posted (s : State) (b : Nat) (v : Word64) : (s.setAct b v).posted = s.posted := rfl
@[simp] theorem setAct_dirty (s : State) (b : Nat) (v : Word64) : (s.setAct b v).dirty = s.dirty := rfl
@[simp] theorem setAct_ports (s : State) (b : Nat) (v : Word64) : (s.setAct b v).ports = s.ports := rfl
@[simp] theorem setAct_chkInject (s : State) (b : Nat) (v : Word64) : (s.setAct b v).chkInject = s.chkInject := rfl
@[simp] theorem setAct_att (s : State) (b : Nat) (v : Word64) : (s.setAct b v).att = s.att := rfl
@[simp] theorem setAct_seq (s : State) (b : Nat) (v : Word64) : (s.setAct b v).seq = s.seq := rfl
@[simp] theorem setAct_stoppedQ (s : State) (b : Nat) (v : Word64) : (s.setAct b v).stoppedQ = s.stoppedQ := rfl
@[simp] theorem setAct_fetchFn (s : State) (b : Nat) (v : Word64) : (s.setAct b v).fetchFn = s.fetchFn := rfl
@[simp] theorem setAct_fetchTaken (s : State) (b : Nat) (v : Word64) : (s.setAct b v).fetchTaken = s.fetchTaken := rfl
@[simp] theorem setAct_jobs (s : State) (b : Nat) (v : Word64) : (s.setAct b v).jobs = s.jobs := rfl
@[simp] theorem setAct_spills (s : State) (b : Nat) (v : Word64) : (s.setAct b v).spills = s.spills := rfl
@[simp] theorem setAct_grants (s : State) (b : Nat) (v : Word64) : (s.setAct b v).grants = s.grants := rfl
@[simp] theorem setAct_borrowSeq (s : State) (b : Nat) (v : Word64) : (s.setAct b v).borrowSeq = s.borrowSeq := rfl
@[simp] theorem setAct_dwins (s : State) (b : Nat) (v : Word64) : (s.setAct b v).dwins = s.dwins := rfl
@[simp] theorem setAct_gold (s : State) (b : Nat) (v : Word64) : (s.setAct b v).gold = s.gold := rfl
@[simp] theorem setAct_consec (s : State) (b : Nat) (v : Word64) : (s.setAct b v).consec = s.consec := rfl
@[simp] theorem setAct_scrub (s : State) (b : Nat) (v : Word64) : (s.setAct b v).scrub = s.scrub := rfl
@[simp] theorem setAct_rgnHeld (s : State) (b : Nat) (v : Word64) : (s.setAct b v).rgnHeld = s.rgnHeld := rfl
@[simp] theorem setAct_reloc (s : State) (b : Nat) (v : Word64) : (s.setAct b v).reloc = s.reloc := rfl
@[simp] theorem setAct_memEvents (s : State) (b : Nat) (v : Word64) : (s.setAct b v).memEvents = s.memEvents := rfl
@[simp] theorem setAct_zqLast (s : State) (b : Nat) (v : Word64) : (s.setAct b v).zqLast = s.zqLast := rfl
@[simp] theorem setAct_kerns (s : State) (b : Nat) (v : Word64) : (s.setAct b v).kerns = s.kerns := rfl
@[simp] theorem setAct_wgs (s : State) (b : Nat) (v : Word64) : (s.setAct b v).wgs = s.wgs := rfl
@[simp] theorem setAct_thr (s : State) (b : Nat) (v : Word64) : (s.setAct b v).thr = s.thr := rfl
@[simp] theorem setAct_caches (s : State) (b : Nat) (v : Word64) : (s.setAct b v).caches = s.caches := rfl
@[simp] theorem setAct_passes (s : State) (b : Nat) (v : Word64) : (s.setAct b v).passes = s.passes := rfl
@[simp] theorem setAct_lastCl (s : State) (b : Nat) (v : Word64) : (s.setAct b v).lastCl = s.lastCl := rfl
@[simp] theorem setAct_disps (s : State) (b : Nat) (v : Word64) : (s.setAct b v).disps = s.disps := rfl
@[simp] theorem setAct_auxs (s : State) (b : Nat) (v : Word64) : (s.setAct b v).auxs = s.auxs := rfl
@[simp] theorem setAct_caps (s : State) (b : Nat) (v : Word64) : (s.setAct b v).caps = s.caps := rfl
@[simp] theorem setAct_auds (s : State) (b : Nat) (v : Word64) : (s.setAct b v).auds = s.auds := rfl
@[simp] theorem setAct_tdm (s : State) (b : Nat) (v : Word64) : (s.setAct b v).tdm = s.tdm := rfl
@[simp] theorem setAct_fsyncEnd (s : State) (b : Nat) (v : Word64) : (s.setAct b v).fsyncEnd = s.fsyncEnd := rfl
@[simp] theorem setAct_fsync (s : State) (b : Nat) (v : Word64) : (s.setAct b v).fsync = s.fsync := rfl
@[simp] theorem setAct_relC (s : State) (b : Nat) (v : Word64) : (s.setAct b v).relC = s.relC := rfl
@[simp] theorem setAct_waking (s : State) (b : Nat) (v : Word64) : (s.setAct b v).waking = s.waking := rfl
@[simp] theorem setAct_denied (s : State) (b : Nat) (v : Word64) : (s.setAct b v).denied = s.denied := rfl
@[simp] theorem setAct_clkOff (s : State) (b : Nat) (v : Word64) : (s.setAct b v).clkOff = s.clkOff := rfl
@[simp] theorem setAct_qosUsed (s : State) (b : Nat) (v : Word64) : (s.setAct b v).qosUsed = s.qosUsed := rfl
@[simp] theorem setAct_qosHeld (s : State) (b : Nat) (v : Word64) : (s.setAct b v).qosHeld = s.qosHeld := rfl
@[simp] theorem setAct_qosHold (s : State) (b : Nat) (v : Word64) : (s.setAct b v).qosHold = s.qosHold := rfl
@[simp] theorem setAct_qosWin (s : State) (b : Nat) (v : Word64) : (s.setAct b v).qosWin = s.qosWin := rfl
@[simp] theorem setAct_qosLive (s : State) (b : Nat) (v : Word64) : (s.setAct b v).qosLive = s.qosLive := rfl
@[simp] theorem setAct_qosPaid (s : State) (b : Nat) (v : Word64) : (s.setAct b v).qosPaid = s.qosPaid := rfl
@[simp] theorem setAct_qosCur (s : State) (b : Nat) (v : Word64) : (s.setAct b v).qosCur = s.qosCur := rfl
@[simp] theorem setAct_ddrQ (s : State) (b : Nat) (v : Word64) : (s.setAct b v).ddrQ = s.ddrQ := rfl
@[simp] theorem setAct_ddrRow (s : State) (b : Nat) (v : Word64) : (s.setAct b v).ddrRow = s.ddrRow := rfl
@[simp] theorem setAct_ddrPass (s : State) (b : Nat) (v : Word64) : (s.setAct b v).ddrPass = s.ddrPass := rfl
@[simp] theorem setAct_ddrSpill (s : State) (b : Nat) (v : Word64) : (s.setAct b v).ddrSpill = s.ddrSpill := rfl
@[simp] theorem setAct_hbDue (s : State) (b : Nat) (v : Word64) : (s.setAct b v).hbDue = s.hbDue := rfl
@[simp] theorem setAct_flrC (s : State) (b : Nat) (v : Word64) : (s.setAct b v).flrC = s.flrC := rfl
@[simp] theorem setAct_flrSq (s : State) (b : Nat) (v : Word64) : (s.setAct b v).flrSq = s.flrSq := rfl
@[simp] theorem setAct_flrGone (s : State) (b : Nat) (v : Word64) : (s.setAct b v).flrGone = s.flrGone := rfl
@[simp] theorem setAct_chkReal (s : State) (b : Nat) (v : Word64) : (s.setAct b v).chkReal = s.chkReal := rfl
@[simp] theorem setAct_pairRuns (s : State) (b : Nat) (v : Word64) : (s.setAct b v).pairRuns = s.pairRuns := rfl
@[simp] theorem setAct_fttiT (s : State) (b : Nat) (v : Word64) : (s.setAct b v).fttiT = s.fttiT := rfl
@[simp] theorem setAct_slotT (s : State) (b : Nat) (v : Word64) : (s.setAct b v).slotT = s.slotT := rfl
@[simp] theorem setAct_fttiFrom (s : State) (b : Nat) (v : Word64) : (s.setAct b v).fttiFrom = s.fttiFrom := rfl
@[simp] theorem setAct_cycle (s : State) (b : Nat) (v : Word64) : (s.setAct b v).cycle = s.cycle := rfl
@[simp] theorem setAct_seqC (s : State) (b : Nat) (v : Word64) : (s.setAct b v).seqC = s.seqC := rfl
@[simp] theorem setAct_seqT (s : State) (b : Nat) (v : Word64) : (s.setAct b v).seqT = s.seqT := rfl
@[simp] theorem setAct_seqF (s : State) (b : Nat) (v : Word64) : (s.setAct b v).seqF = s.seqF := rfl
@[simp] theorem setAct_wdgHit (s : State) (b : Nat) (v : Word64) : (s.setAct b v).wdgHit = s.wdgHit := rfl
@[simp] theorem setAct_gtInject (s : State) (b : Nat) (v : Word64) : (s.setAct b v).gtInject = s.gtInject := rfl
@[simp] theorem setAct_chkHist (s : State) (b : Nat) (v : Word64) : (s.setAct b v).chkHist = s.chkHist := rfl
@[simp] theorem setAct_gtReq (s : State) (b : Nat) (v : Word64) : (s.setAct b v).gtReq = s.gtReq := rfl
@[simp] theorem setAct_wakeTest (s : State) (b : Nat) (v : Word64) : (s.setAct b v).wakeTest = s.wakeTest := rfl
@[simp] theorem setAct_sst (s : State) (b : Nat) (v : Word64) : (s.setAct b v).sst = s.sst := rfl
@[simp] theorem setAct_flash (s : State) (b : Nat) (v : Word64) : (s.setAct b v).flash = s.flash := rfl
@[simp] theorem setAct_lnt (s : State) (b : Nat) (v : Word64) : (s.setAct b v).lnt = s.lnt := rfl
@[simp] theorem setAct_svc (s : State) (b : Nat) (v : Word64) : (s.setAct b v).svc = s.svc := rfl
@[simp] theorem setAct_actv (s : State) (b : Nat) (v : Word64) : (s.setAct b v).actv = s.actv := rfl
@[simp] theorem setAct_runImg (s : State) (b : Nat) (v : Word64) : (s.setAct b v).runImg = s.runImg := rfl
@[simp] theorem setAct_stageImg (s : State) (b : Nat) (v : Word64) : (s.setAct b v).stageImg = s.stageImg := rfl
@[simp] theorem setAct_gw (s : State) (b : Nat) (v : Word64) : (s.setAct b v).gw = s.gw := rfl
@[simp] theorem setAct_bcn (s : State) (b : Nat) (v : Word64) : (s.setAct b v).bcn = s.bcn := rfl
@[simp] theorem setAct_pwr (s : State) (b : Nat) (v : Word64) : (s.setAct b v).pwr = s.pwr := rfl

/-! ### State.setTag changes tags only -/

@[simp] theorem setTag_now (s : State) (k n : Nat) : (s.setTag k n).now = s.now := rfl
@[simp] theorem setTag_fresh (s : State) (k n : Nat) : (s.setTag k n).fresh = s.fresh := rfl
@[simp] theorem setTag_pending (s : State) (k n : Nat) : (s.setTag k n).pending = s.pending := rfl
@[simp] theorem setTag_rdata (s : State) (k n : Nat) : (s.setTag k n).rdata = s.rdata := rfl
@[simp] theorem setTag_regs (s : State) (k n : Nat) : (s.setTag k n).regs = s.regs := rfl
@[simp] theorem setTag_active (s : State) (k n : Nat) : (s.setTag k n).active = s.active := rfl
@[simp] theorem setTag_shadow (s : State) (k n : Nat) : (s.setTag k n).shadow = s.shadow := rfl
@[simp] theorem setTag_latches (s : State) (k n : Nat) : (s.setTag k n).latches = s.latches := rfl
@[simp] theorem setTag_mem (s : State) (k n : Nat) : (s.setTag k n).mem = s.mem := rfl
@[simp] theorem setTag_ecc (s : State) (k n : Nat) : (s.setTag k n).ecc = s.ecc := rfl
@[simp] theorem setTag_host (s : State) (k n : Nat) : (s.setTag k n).host = s.host := rfl
@[simp] theorem setTag_out (s : State) (k n : Nat) : (s.setTag k n).out = s.out := rfl
@[simp] theorem setTag_pins (s : State) (k n : Nat) : (s.setTag k n).pins = s.pins := rfl
@[simp] theorem setTag_arm (s : State) (k n : Nat) : (s.setTag k n).arm = s.arm := rfl
@[simp] theorem setTag_descs (s : State) (k n : Nat) : (s.setTag k n).descs = s.descs := rfl
@[simp] theorem setTag_nextId (s : State) (k n : Nat) : (s.setTag k n).nextId = s.nextId := rfl
@[simp] theorem setTag_dbLatch (s : State) (k n : Nat) : (s.setTag k n).dbLatch = s.dbLatch := rfl
@[simp] theorem setTag_coal (s : State) (k n : Nat) : (s.setTag k n).coal = s.coal := rfl
@[simp] theorem setTag_signallers (s : State) (k n : Nat) : (s.setTag k n).signallers = s.signallers := rfl
@[simp] theorem setTag_transients (s : State) (k n : Nat) : (s.setTag k n).transients = s.transients := rfl
@[simp] theorem setTag_retired (s : State) (k n : Nat) : (s.setTag k n).retired = s.retired := rfl
@[simp] theorem setTag_trace (s : State) (k n : Nat) : (s.setTag k n).trace = s.trace := rfl
@[simp] theorem setTag_pcie (s : State) (k n : Nat) : (s.setTag k n).pcie = s.pcie := rfl
@[simp] theorem setTag_lnkOut (s : State) (k n : Nat) : (s.setTag k n).lnkOut = s.lnkOut := rfl
@[simp] theorem setTag_peerData (s : State) (k n : Nat) : (s.setTag k n).peerData = s.peerData := rfl
@[simp] theorem setTag_trail (s : State) (k n : Nat) : (s.setTag k n).trail = s.trail := rfl
@[simp] theorem setTag_cplTries (s : State) (k n : Nat) : (s.setTag k n).cplTries = s.cplTries := rfl
@[simp] theorem setTag_posted (s : State) (k n : Nat) : (s.setTag k n).posted = s.posted := rfl
@[simp] theorem setTag_dirty (s : State) (k n : Nat) : (s.setTag k n).dirty = s.dirty := rfl
@[simp] theorem setTag_ports (s : State) (k n : Nat) : (s.setTag k n).ports = s.ports := rfl
@[simp] theorem setTag_chkInject (s : State) (k n : Nat) : (s.setTag k n).chkInject = s.chkInject := rfl
@[simp] theorem setTag_att (s : State) (k n : Nat) : (s.setTag k n).att = s.att := rfl
@[simp] theorem setTag_seq (s : State) (k n : Nat) : (s.setTag k n).seq = s.seq := rfl
@[simp] theorem setTag_stoppedQ (s : State) (k n : Nat) : (s.setTag k n).stoppedQ = s.stoppedQ := rfl
@[simp] theorem setTag_fetchFn (s : State) (k n : Nat) : (s.setTag k n).fetchFn = s.fetchFn := rfl
@[simp] theorem setTag_fetchTaken (s : State) (k n : Nat) : (s.setTag k n).fetchTaken = s.fetchTaken := rfl
@[simp] theorem setTag_jobs (s : State) (k n : Nat) : (s.setTag k n).jobs = s.jobs := rfl
@[simp] theorem setTag_spills (s : State) (k n : Nat) : (s.setTag k n).spills = s.spills := rfl
@[simp] theorem setTag_grants (s : State) (k n : Nat) : (s.setTag k n).grants = s.grants := rfl
@[simp] theorem setTag_borrowSeq (s : State) (k n : Nat) : (s.setTag k n).borrowSeq = s.borrowSeq := rfl
@[simp] theorem setTag_dwins (s : State) (k n : Nat) : (s.setTag k n).dwins = s.dwins := rfl
@[simp] theorem setTag_gold (s : State) (k n : Nat) : (s.setTag k n).gold = s.gold := rfl
@[simp] theorem setTag_consec (s : State) (k n : Nat) : (s.setTag k n).consec = s.consec := rfl
@[simp] theorem setTag_scrub (s : State) (k n : Nat) : (s.setTag k n).scrub = s.scrub := rfl
@[simp] theorem setTag_rgnHeld (s : State) (k n : Nat) : (s.setTag k n).rgnHeld = s.rgnHeld := rfl
@[simp] theorem setTag_reloc (s : State) (k n : Nat) : (s.setTag k n).reloc = s.reloc := rfl
@[simp] theorem setTag_memEvents (s : State) (k n : Nat) : (s.setTag k n).memEvents = s.memEvents := rfl
@[simp] theorem setTag_zqLast (s : State) (k n : Nat) : (s.setTag k n).zqLast = s.zqLast := rfl
@[simp] theorem setTag_kerns (s : State) (k n : Nat) : (s.setTag k n).kerns = s.kerns := rfl
@[simp] theorem setTag_wgs (s : State) (k n : Nat) : (s.setTag k n).wgs = s.wgs := rfl
@[simp] theorem setTag_thr (s : State) (k n : Nat) : (s.setTag k n).thr = s.thr := rfl
@[simp] theorem setTag_caches (s : State) (k n : Nat) : (s.setTag k n).caches = s.caches := rfl
@[simp] theorem setTag_passes (s : State) (k n : Nat) : (s.setTag k n).passes = s.passes := rfl
@[simp] theorem setTag_lastCl (s : State) (k n : Nat) : (s.setTag k n).lastCl = s.lastCl := rfl
@[simp] theorem setTag_disps (s : State) (k n : Nat) : (s.setTag k n).disps = s.disps := rfl
@[simp] theorem setTag_auxs (s : State) (k n : Nat) : (s.setTag k n).auxs = s.auxs := rfl
@[simp] theorem setTag_caps (s : State) (k n : Nat) : (s.setTag k n).caps = s.caps := rfl
@[simp] theorem setTag_auds (s : State) (k n : Nat) : (s.setTag k n).auds = s.auds := rfl
@[simp] theorem setTag_tdm (s : State) (k n : Nat) : (s.setTag k n).tdm = s.tdm := rfl
@[simp] theorem setTag_fsyncEnd (s : State) (k n : Nat) : (s.setTag k n).fsyncEnd = s.fsyncEnd := rfl
@[simp] theorem setTag_fsync (s : State) (k n : Nat) : (s.setTag k n).fsync = s.fsync := rfl
@[simp] theorem setTag_relC (s : State) (k n : Nat) : (s.setTag k n).relC = s.relC := rfl
@[simp] theorem setTag_waking (s : State) (k n : Nat) : (s.setTag k n).waking = s.waking := rfl
@[simp] theorem setTag_denied (s : State) (k n : Nat) : (s.setTag k n).denied = s.denied := rfl
@[simp] theorem setTag_clkOff (s : State) (k n : Nat) : (s.setTag k n).clkOff = s.clkOff := rfl
@[simp] theorem setTag_qosUsed (s : State) (k n : Nat) : (s.setTag k n).qosUsed = s.qosUsed := rfl
@[simp] theorem setTag_qosHeld (s : State) (k n : Nat) : (s.setTag k n).qosHeld = s.qosHeld := rfl
@[simp] theorem setTag_qosHold (s : State) (k n : Nat) : (s.setTag k n).qosHold = s.qosHold := rfl
@[simp] theorem setTag_qosWin (s : State) (k n : Nat) : (s.setTag k n).qosWin = s.qosWin := rfl
@[simp] theorem setTag_qosLive (s : State) (k n : Nat) : (s.setTag k n).qosLive = s.qosLive := rfl
@[simp] theorem setTag_qosPaid (s : State) (k n : Nat) : (s.setTag k n).qosPaid = s.qosPaid := rfl
@[simp] theorem setTag_qosCur (s : State) (k n : Nat) : (s.setTag k n).qosCur = s.qosCur := rfl
@[simp] theorem setTag_ddrQ (s : State) (k n : Nat) : (s.setTag k n).ddrQ = s.ddrQ := rfl
@[simp] theorem setTag_ddrRow (s : State) (k n : Nat) : (s.setTag k n).ddrRow = s.ddrRow := rfl
@[simp] theorem setTag_ddrPass (s : State) (k n : Nat) : (s.setTag k n).ddrPass = s.ddrPass := rfl
@[simp] theorem setTag_ddrSpill (s : State) (k n : Nat) : (s.setTag k n).ddrSpill = s.ddrSpill := rfl
@[simp] theorem setTag_hbDue (s : State) (k n : Nat) : (s.setTag k n).hbDue = s.hbDue := rfl
@[simp] theorem setTag_flrC (s : State) (k n : Nat) : (s.setTag k n).flrC = s.flrC := rfl
@[simp] theorem setTag_flrSq (s : State) (k n : Nat) : (s.setTag k n).flrSq = s.flrSq := rfl
@[simp] theorem setTag_flrGone (s : State) (k n : Nat) : (s.setTag k n).flrGone = s.flrGone := rfl
@[simp] theorem setTag_chkReal (s : State) (k n : Nat) : (s.setTag k n).chkReal = s.chkReal := rfl
@[simp] theorem setTag_pairRuns (s : State) (k n : Nat) : (s.setTag k n).pairRuns = s.pairRuns := rfl
@[simp] theorem setTag_fttiT (s : State) (k n : Nat) : (s.setTag k n).fttiT = s.fttiT := rfl
@[simp] theorem setTag_slotT (s : State) (k n : Nat) : (s.setTag k n).slotT = s.slotT := rfl
@[simp] theorem setTag_fttiFrom (s : State) (k n : Nat) : (s.setTag k n).fttiFrom = s.fttiFrom := rfl
@[simp] theorem setTag_cycle (s : State) (k n : Nat) : (s.setTag k n).cycle = s.cycle := rfl
@[simp] theorem setTag_seqC (s : State) (k n : Nat) : (s.setTag k n).seqC = s.seqC := rfl
@[simp] theorem setTag_seqT (s : State) (k n : Nat) : (s.setTag k n).seqT = s.seqT := rfl
@[simp] theorem setTag_seqF (s : State) (k n : Nat) : (s.setTag k n).seqF = s.seqF := rfl
@[simp] theorem setTag_wdgHit (s : State) (k n : Nat) : (s.setTag k n).wdgHit = s.wdgHit := rfl
@[simp] theorem setTag_gtInject (s : State) (k n : Nat) : (s.setTag k n).gtInject = s.gtInject := rfl
@[simp] theorem setTag_chkHist (s : State) (k n : Nat) : (s.setTag k n).chkHist = s.chkHist := rfl
@[simp] theorem setTag_gtReq (s : State) (k n : Nat) : (s.setTag k n).gtReq = s.gtReq := rfl
@[simp] theorem setTag_wakeTest (s : State) (k n : Nat) : (s.setTag k n).wakeTest = s.wakeTest := rfl
@[simp] theorem setTag_sst (s : State) (k n : Nat) : (s.setTag k n).sst = s.sst := rfl
@[simp] theorem setTag_flash (s : State) (k n : Nat) : (s.setTag k n).flash = s.flash := rfl
@[simp] theorem setTag_lnt (s : State) (k n : Nat) : (s.setTag k n).lnt = s.lnt := rfl
@[simp] theorem setTag_svc (s : State) (k n : Nat) : (s.setTag k n).svc = s.svc := rfl
@[simp] theorem setTag_actv (s : State) (k n : Nat) : (s.setTag k n).actv = s.actv := rfl
@[simp] theorem setTag_runImg (s : State) (k n : Nat) : (s.setTag k n).runImg = s.runImg := rfl
@[simp] theorem setTag_stageImg (s : State) (k n : Nat) : (s.setTag k n).stageImg = s.stageImg := rfl
@[simp] theorem setTag_gw (s : State) (k n : Nat) : (s.setTag k n).gw = s.gw := rfl
@[simp] theorem setTag_bcn (s : State) (k n : Nat) : (s.setTag k n).bcn = s.bcn := rfl
@[simp] theorem setTag_pwr (s : State) (k n : Nat) : (s.setTag k n).pwr = s.pwr := rfl

/-! ### State.setEcc changes ecc only -/

@[simp] theorem setEcc_now (s : State) (k : Nat) (e : Option EccErr) : (s.setEcc k e).now = s.now := rfl
@[simp] theorem setEcc_fresh (s : State) (k : Nat) (e : Option EccErr) : (s.setEcc k e).fresh = s.fresh := rfl
@[simp] theorem setEcc_pending (s : State) (k : Nat) (e : Option EccErr) : (s.setEcc k e).pending = s.pending := rfl
@[simp] theorem setEcc_rdata (s : State) (k : Nat) (e : Option EccErr) : (s.setEcc k e).rdata = s.rdata := rfl
@[simp] theorem setEcc_regs (s : State) (k : Nat) (e : Option EccErr) : (s.setEcc k e).regs = s.regs := rfl
@[simp] theorem setEcc_active (s : State) (k : Nat) (e : Option EccErr) : (s.setEcc k e).active = s.active := rfl
@[simp] theorem setEcc_shadow (s : State) (k : Nat) (e : Option EccErr) : (s.setEcc k e).shadow = s.shadow := rfl
@[simp] theorem setEcc_latches (s : State) (k : Nat) (e : Option EccErr) : (s.setEcc k e).latches = s.latches := rfl
@[simp] theorem setEcc_mem (s : State) (k : Nat) (e : Option EccErr) : (s.setEcc k e).mem = s.mem := rfl
@[simp] theorem setEcc_tags (s : State) (k : Nat) (e : Option EccErr) : (s.setEcc k e).tags = s.tags := rfl
@[simp] theorem setEcc_host (s : State) (k : Nat) (e : Option EccErr) : (s.setEcc k e).host = s.host := rfl
@[simp] theorem setEcc_out (s : State) (k : Nat) (e : Option EccErr) : (s.setEcc k e).out = s.out := rfl
@[simp] theorem setEcc_pins (s : State) (k : Nat) (e : Option EccErr) : (s.setEcc k e).pins = s.pins := rfl
@[simp] theorem setEcc_arm (s : State) (k : Nat) (e : Option EccErr) : (s.setEcc k e).arm = s.arm := rfl
@[simp] theorem setEcc_descs (s : State) (k : Nat) (e : Option EccErr) : (s.setEcc k e).descs = s.descs := rfl
@[simp] theorem setEcc_nextId (s : State) (k : Nat) (e : Option EccErr) : (s.setEcc k e).nextId = s.nextId := rfl
@[simp] theorem setEcc_dbLatch (s : State) (k : Nat) (e : Option EccErr) : (s.setEcc k e).dbLatch = s.dbLatch := rfl
@[simp] theorem setEcc_coal (s : State) (k : Nat) (e : Option EccErr) : (s.setEcc k e).coal = s.coal := rfl
@[simp] theorem setEcc_signallers (s : State) (k : Nat) (e : Option EccErr) : (s.setEcc k e).signallers = s.signallers := rfl
@[simp] theorem setEcc_transients (s : State) (k : Nat) (e : Option EccErr) : (s.setEcc k e).transients = s.transients := rfl
@[simp] theorem setEcc_retired (s : State) (k : Nat) (e : Option EccErr) : (s.setEcc k e).retired = s.retired := rfl
@[simp] theorem setEcc_trace (s : State) (k : Nat) (e : Option EccErr) : (s.setEcc k e).trace = s.trace := rfl
@[simp] theorem setEcc_pcie (s : State) (k : Nat) (e : Option EccErr) : (s.setEcc k e).pcie = s.pcie := rfl
@[simp] theorem setEcc_lnkOut (s : State) (k : Nat) (e : Option EccErr) : (s.setEcc k e).lnkOut = s.lnkOut := rfl
@[simp] theorem setEcc_peerData (s : State) (k : Nat) (e : Option EccErr) : (s.setEcc k e).peerData = s.peerData := rfl
@[simp] theorem setEcc_trail (s : State) (k : Nat) (e : Option EccErr) : (s.setEcc k e).trail = s.trail := rfl
@[simp] theorem setEcc_cplTries (s : State) (k : Nat) (e : Option EccErr) : (s.setEcc k e).cplTries = s.cplTries := rfl
@[simp] theorem setEcc_posted (s : State) (k : Nat) (e : Option EccErr) : (s.setEcc k e).posted = s.posted := rfl
@[simp] theorem setEcc_dirty (s : State) (k : Nat) (e : Option EccErr) : (s.setEcc k e).dirty = s.dirty := rfl
@[simp] theorem setEcc_ports (s : State) (k : Nat) (e : Option EccErr) : (s.setEcc k e).ports = s.ports := rfl
@[simp] theorem setEcc_chkInject (s : State) (k : Nat) (e : Option EccErr) : (s.setEcc k e).chkInject = s.chkInject := rfl
@[simp] theorem setEcc_att (s : State) (k : Nat) (e : Option EccErr) : (s.setEcc k e).att = s.att := rfl
@[simp] theorem setEcc_seq (s : State) (k : Nat) (e : Option EccErr) : (s.setEcc k e).seq = s.seq := rfl
@[simp] theorem setEcc_stoppedQ (s : State) (k : Nat) (e : Option EccErr) : (s.setEcc k e).stoppedQ = s.stoppedQ := rfl
@[simp] theorem setEcc_fetchFn (s : State) (k : Nat) (e : Option EccErr) : (s.setEcc k e).fetchFn = s.fetchFn := rfl
@[simp] theorem setEcc_fetchTaken (s : State) (k : Nat) (e : Option EccErr) : (s.setEcc k e).fetchTaken = s.fetchTaken := rfl
@[simp] theorem setEcc_jobs (s : State) (k : Nat) (e : Option EccErr) : (s.setEcc k e).jobs = s.jobs := rfl
@[simp] theorem setEcc_spills (s : State) (k : Nat) (e : Option EccErr) : (s.setEcc k e).spills = s.spills := rfl
@[simp] theorem setEcc_grants (s : State) (k : Nat) (e : Option EccErr) : (s.setEcc k e).grants = s.grants := rfl
@[simp] theorem setEcc_borrowSeq (s : State) (k : Nat) (e : Option EccErr) : (s.setEcc k e).borrowSeq = s.borrowSeq := rfl
@[simp] theorem setEcc_dwins (s : State) (k : Nat) (e : Option EccErr) : (s.setEcc k e).dwins = s.dwins := rfl
@[simp] theorem setEcc_gold (s : State) (k : Nat) (e : Option EccErr) : (s.setEcc k e).gold = s.gold := rfl
@[simp] theorem setEcc_consec (s : State) (k : Nat) (e : Option EccErr) : (s.setEcc k e).consec = s.consec := rfl
@[simp] theorem setEcc_scrub (s : State) (k : Nat) (e : Option EccErr) : (s.setEcc k e).scrub = s.scrub := rfl
@[simp] theorem setEcc_rgnHeld (s : State) (k : Nat) (e : Option EccErr) : (s.setEcc k e).rgnHeld = s.rgnHeld := rfl
@[simp] theorem setEcc_reloc (s : State) (k : Nat) (e : Option EccErr) : (s.setEcc k e).reloc = s.reloc := rfl
@[simp] theorem setEcc_memEvents (s : State) (k : Nat) (e : Option EccErr) : (s.setEcc k e).memEvents = s.memEvents := rfl
@[simp] theorem setEcc_zqLast (s : State) (k : Nat) (e : Option EccErr) : (s.setEcc k e).zqLast = s.zqLast := rfl
@[simp] theorem setEcc_kerns (s : State) (k : Nat) (e : Option EccErr) : (s.setEcc k e).kerns = s.kerns := rfl
@[simp] theorem setEcc_wgs (s : State) (k : Nat) (e : Option EccErr) : (s.setEcc k e).wgs = s.wgs := rfl
@[simp] theorem setEcc_thr (s : State) (k : Nat) (e : Option EccErr) : (s.setEcc k e).thr = s.thr := rfl
@[simp] theorem setEcc_caches (s : State) (k : Nat) (e : Option EccErr) : (s.setEcc k e).caches = s.caches := rfl
@[simp] theorem setEcc_passes (s : State) (k : Nat) (e : Option EccErr) : (s.setEcc k e).passes = s.passes := rfl
@[simp] theorem setEcc_lastCl (s : State) (k : Nat) (e : Option EccErr) : (s.setEcc k e).lastCl = s.lastCl := rfl
@[simp] theorem setEcc_disps (s : State) (k : Nat) (e : Option EccErr) : (s.setEcc k e).disps = s.disps := rfl
@[simp] theorem setEcc_auxs (s : State) (k : Nat) (e : Option EccErr) : (s.setEcc k e).auxs = s.auxs := rfl
@[simp] theorem setEcc_caps (s : State) (k : Nat) (e : Option EccErr) : (s.setEcc k e).caps = s.caps := rfl
@[simp] theorem setEcc_auds (s : State) (k : Nat) (e : Option EccErr) : (s.setEcc k e).auds = s.auds := rfl
@[simp] theorem setEcc_tdm (s : State) (k : Nat) (e : Option EccErr) : (s.setEcc k e).tdm = s.tdm := rfl
@[simp] theorem setEcc_fsyncEnd (s : State) (k : Nat) (e : Option EccErr) : (s.setEcc k e).fsyncEnd = s.fsyncEnd := rfl
@[simp] theorem setEcc_fsync (s : State) (k : Nat) (e : Option EccErr) : (s.setEcc k e).fsync = s.fsync := rfl
@[simp] theorem setEcc_relC (s : State) (k : Nat) (e : Option EccErr) : (s.setEcc k e).relC = s.relC := rfl
@[simp] theorem setEcc_waking (s : State) (k : Nat) (e : Option EccErr) : (s.setEcc k e).waking = s.waking := rfl
@[simp] theorem setEcc_denied (s : State) (k : Nat) (e : Option EccErr) : (s.setEcc k e).denied = s.denied := rfl
@[simp] theorem setEcc_clkOff (s : State) (k : Nat) (e : Option EccErr) : (s.setEcc k e).clkOff = s.clkOff := rfl
@[simp] theorem setEcc_qosUsed (s : State) (k : Nat) (e : Option EccErr) : (s.setEcc k e).qosUsed = s.qosUsed := rfl
@[simp] theorem setEcc_qosHeld (s : State) (k : Nat) (e : Option EccErr) : (s.setEcc k e).qosHeld = s.qosHeld := rfl
@[simp] theorem setEcc_qosHold (s : State) (k : Nat) (e : Option EccErr) : (s.setEcc k e).qosHold = s.qosHold := rfl
@[simp] theorem setEcc_qosWin (s : State) (k : Nat) (e : Option EccErr) : (s.setEcc k e).qosWin = s.qosWin := rfl
@[simp] theorem setEcc_qosLive (s : State) (k : Nat) (e : Option EccErr) : (s.setEcc k e).qosLive = s.qosLive := rfl
@[simp] theorem setEcc_qosPaid (s : State) (k : Nat) (e : Option EccErr) : (s.setEcc k e).qosPaid = s.qosPaid := rfl
@[simp] theorem setEcc_qosCur (s : State) (k : Nat) (e : Option EccErr) : (s.setEcc k e).qosCur = s.qosCur := rfl
@[simp] theorem setEcc_ddrQ (s : State) (k : Nat) (e : Option EccErr) : (s.setEcc k e).ddrQ = s.ddrQ := rfl
@[simp] theorem setEcc_ddrRow (s : State) (k : Nat) (e : Option EccErr) : (s.setEcc k e).ddrRow = s.ddrRow := rfl
@[simp] theorem setEcc_ddrPass (s : State) (k : Nat) (e : Option EccErr) : (s.setEcc k e).ddrPass = s.ddrPass := rfl
@[simp] theorem setEcc_ddrSpill (s : State) (k : Nat) (e : Option EccErr) : (s.setEcc k e).ddrSpill = s.ddrSpill := rfl
@[simp] theorem setEcc_hbDue (s : State) (k : Nat) (e : Option EccErr) : (s.setEcc k e).hbDue = s.hbDue := rfl
@[simp] theorem setEcc_flrC (s : State) (k : Nat) (e : Option EccErr) : (s.setEcc k e).flrC = s.flrC := rfl
@[simp] theorem setEcc_flrSq (s : State) (k : Nat) (e : Option EccErr) : (s.setEcc k e).flrSq = s.flrSq := rfl
@[simp] theorem setEcc_flrGone (s : State) (k : Nat) (e : Option EccErr) : (s.setEcc k e).flrGone = s.flrGone := rfl
@[simp] theorem setEcc_chkReal (s : State) (k : Nat) (e : Option EccErr) : (s.setEcc k e).chkReal = s.chkReal := rfl
@[simp] theorem setEcc_pairRuns (s : State) (k : Nat) (e : Option EccErr) : (s.setEcc k e).pairRuns = s.pairRuns := rfl
@[simp] theorem setEcc_fttiT (s : State) (k : Nat) (e : Option EccErr) : (s.setEcc k e).fttiT = s.fttiT := rfl
@[simp] theorem setEcc_slotT (s : State) (k : Nat) (e : Option EccErr) : (s.setEcc k e).slotT = s.slotT := rfl
@[simp] theorem setEcc_fttiFrom (s : State) (k : Nat) (e : Option EccErr) : (s.setEcc k e).fttiFrom = s.fttiFrom := rfl
@[simp] theorem setEcc_cycle (s : State) (k : Nat) (e : Option EccErr) : (s.setEcc k e).cycle = s.cycle := rfl
@[simp] theorem setEcc_seqC (s : State) (k : Nat) (e : Option EccErr) : (s.setEcc k e).seqC = s.seqC := rfl
@[simp] theorem setEcc_seqT (s : State) (k : Nat) (e : Option EccErr) : (s.setEcc k e).seqT = s.seqT := rfl
@[simp] theorem setEcc_seqF (s : State) (k : Nat) (e : Option EccErr) : (s.setEcc k e).seqF = s.seqF := rfl
@[simp] theorem setEcc_wdgHit (s : State) (k : Nat) (e : Option EccErr) : (s.setEcc k e).wdgHit = s.wdgHit := rfl
@[simp] theorem setEcc_gtInject (s : State) (k : Nat) (e : Option EccErr) : (s.setEcc k e).gtInject = s.gtInject := rfl
@[simp] theorem setEcc_chkHist (s : State) (k : Nat) (e : Option EccErr) : (s.setEcc k e).chkHist = s.chkHist := rfl
@[simp] theorem setEcc_gtReq (s : State) (k : Nat) (e : Option EccErr) : (s.setEcc k e).gtReq = s.gtReq := rfl
@[simp] theorem setEcc_wakeTest (s : State) (k : Nat) (e : Option EccErr) : (s.setEcc k e).wakeTest = s.wakeTest := rfl
@[simp] theorem setEcc_sst (s : State) (k : Nat) (e : Option EccErr) : (s.setEcc k e).sst = s.sst := rfl
@[simp] theorem setEcc_flash (s : State) (k : Nat) (e : Option EccErr) : (s.setEcc k e).flash = s.flash := rfl
@[simp] theorem setEcc_lnt (s : State) (k : Nat) (e : Option EccErr) : (s.setEcc k e).lnt = s.lnt := rfl
@[simp] theorem setEcc_svc (s : State) (k : Nat) (e : Option EccErr) : (s.setEcc k e).svc = s.svc := rfl
@[simp] theorem setEcc_actv (s : State) (k : Nat) (e : Option EccErr) : (s.setEcc k e).actv = s.actv := rfl
@[simp] theorem setEcc_runImg (s : State) (k : Nat) (e : Option EccErr) : (s.setEcc k e).runImg = s.runImg := rfl
@[simp] theorem setEcc_stageImg (s : State) (k : Nat) (e : Option EccErr) : (s.setEcc k e).stageImg = s.stageImg := rfl
@[simp] theorem setEcc_gw (s : State) (k : Nat) (e : Option EccErr) : (s.setEcc k e).gw = s.gw := rfl
@[simp] theorem setEcc_bcn (s : State) (k : Nat) (e : Option EccErr) : (s.setEcc k e).bcn = s.bcn := rfl
@[simp] theorem setEcc_pwr (s : State) (k : Nat) (e : Option EccErr) : (s.setEcc k e).pwr = s.pwr := rfl

/-! ### State.updDesc changes descs only -/

@[simp] theorem updDesc_now (s : State) (i : Nat) (f : Desc → Desc) : (s.updDesc i f).now = s.now := rfl
@[simp] theorem updDesc_fresh (s : State) (i : Nat) (f : Desc → Desc) : (s.updDesc i f).fresh = s.fresh := rfl
@[simp] theorem updDesc_pending (s : State) (i : Nat) (f : Desc → Desc) : (s.updDesc i f).pending = s.pending := rfl
@[simp] theorem updDesc_rdata (s : State) (i : Nat) (f : Desc → Desc) : (s.updDesc i f).rdata = s.rdata := rfl
@[simp] theorem updDesc_regs (s : State) (i : Nat) (f : Desc → Desc) : (s.updDesc i f).regs = s.regs := rfl
@[simp] theorem updDesc_active (s : State) (i : Nat) (f : Desc → Desc) : (s.updDesc i f).active = s.active := rfl
@[simp] theorem updDesc_shadow (s : State) (i : Nat) (f : Desc → Desc) : (s.updDesc i f).shadow = s.shadow := rfl
@[simp] theorem updDesc_latches (s : State) (i : Nat) (f : Desc → Desc) : (s.updDesc i f).latches = s.latches := rfl
@[simp] theorem updDesc_mem (s : State) (i : Nat) (f : Desc → Desc) : (s.updDesc i f).mem = s.mem := rfl
@[simp] theorem updDesc_tags (s : State) (i : Nat) (f : Desc → Desc) : (s.updDesc i f).tags = s.tags := rfl
@[simp] theorem updDesc_ecc (s : State) (i : Nat) (f : Desc → Desc) : (s.updDesc i f).ecc = s.ecc := rfl
@[simp] theorem updDesc_host (s : State) (i : Nat) (f : Desc → Desc) : (s.updDesc i f).host = s.host := rfl
@[simp] theorem updDesc_out (s : State) (i : Nat) (f : Desc → Desc) : (s.updDesc i f).out = s.out := rfl
@[simp] theorem updDesc_pins (s : State) (i : Nat) (f : Desc → Desc) : (s.updDesc i f).pins = s.pins := rfl
@[simp] theorem updDesc_arm (s : State) (i : Nat) (f : Desc → Desc) : (s.updDesc i f).arm = s.arm := rfl
@[simp] theorem updDesc_nextId (s : State) (i : Nat) (f : Desc → Desc) : (s.updDesc i f).nextId = s.nextId := rfl
@[simp] theorem updDesc_dbLatch (s : State) (i : Nat) (f : Desc → Desc) : (s.updDesc i f).dbLatch = s.dbLatch := rfl
@[simp] theorem updDesc_coal (s : State) (i : Nat) (f : Desc → Desc) : (s.updDesc i f).coal = s.coal := rfl
@[simp] theorem updDesc_signallers (s : State) (i : Nat) (f : Desc → Desc) : (s.updDesc i f).signallers = s.signallers := rfl
@[simp] theorem updDesc_transients (s : State) (i : Nat) (f : Desc → Desc) : (s.updDesc i f).transients = s.transients := rfl
@[simp] theorem updDesc_retired (s : State) (i : Nat) (f : Desc → Desc) : (s.updDesc i f).retired = s.retired := rfl
@[simp] theorem updDesc_trace (s : State) (i : Nat) (f : Desc → Desc) : (s.updDesc i f).trace = s.trace := rfl
@[simp] theorem updDesc_pcie (s : State) (i : Nat) (f : Desc → Desc) : (s.updDesc i f).pcie = s.pcie := rfl
@[simp] theorem updDesc_lnkOut (s : State) (i : Nat) (f : Desc → Desc) : (s.updDesc i f).lnkOut = s.lnkOut := rfl
@[simp] theorem updDesc_peerData (s : State) (i : Nat) (f : Desc → Desc) : (s.updDesc i f).peerData = s.peerData := rfl
@[simp] theorem updDesc_trail (s : State) (i : Nat) (f : Desc → Desc) : (s.updDesc i f).trail = s.trail := rfl
@[simp] theorem updDesc_cplTries (s : State) (i : Nat) (f : Desc → Desc) : (s.updDesc i f).cplTries = s.cplTries := rfl
@[simp] theorem updDesc_posted (s : State) (i : Nat) (f : Desc → Desc) : (s.updDesc i f).posted = s.posted := rfl
@[simp] theorem updDesc_dirty (s : State) (i : Nat) (f : Desc → Desc) : (s.updDesc i f).dirty = s.dirty := rfl
@[simp] theorem updDesc_ports (s : State) (i : Nat) (f : Desc → Desc) : (s.updDesc i f).ports = s.ports := rfl
@[simp] theorem updDesc_chkInject (s : State) (i : Nat) (f : Desc → Desc) : (s.updDesc i f).chkInject = s.chkInject := rfl
@[simp] theorem updDesc_att (s : State) (i : Nat) (f : Desc → Desc) : (s.updDesc i f).att = s.att := rfl
@[simp] theorem updDesc_seq (s : State) (i : Nat) (f : Desc → Desc) : (s.updDesc i f).seq = s.seq := rfl
@[simp] theorem updDesc_stoppedQ (s : State) (i : Nat) (f : Desc → Desc) : (s.updDesc i f).stoppedQ = s.stoppedQ := rfl
@[simp] theorem updDesc_fetchFn (s : State) (i : Nat) (f : Desc → Desc) : (s.updDesc i f).fetchFn = s.fetchFn := rfl
@[simp] theorem updDesc_fetchTaken (s : State) (i : Nat) (f : Desc → Desc) : (s.updDesc i f).fetchTaken = s.fetchTaken := rfl
@[simp] theorem updDesc_jobs (s : State) (i : Nat) (f : Desc → Desc) : (s.updDesc i f).jobs = s.jobs := rfl
@[simp] theorem updDesc_spills (s : State) (i : Nat) (f : Desc → Desc) : (s.updDesc i f).spills = s.spills := rfl
@[simp] theorem updDesc_grants (s : State) (i : Nat) (f : Desc → Desc) : (s.updDesc i f).grants = s.grants := rfl
@[simp] theorem updDesc_borrowSeq (s : State) (i : Nat) (f : Desc → Desc) : (s.updDesc i f).borrowSeq = s.borrowSeq := rfl
@[simp] theorem updDesc_dwins (s : State) (i : Nat) (f : Desc → Desc) : (s.updDesc i f).dwins = s.dwins := rfl
@[simp] theorem updDesc_gold (s : State) (i : Nat) (f : Desc → Desc) : (s.updDesc i f).gold = s.gold := rfl
@[simp] theorem updDesc_consec (s : State) (i : Nat) (f : Desc → Desc) : (s.updDesc i f).consec = s.consec := rfl
@[simp] theorem updDesc_scrub (s : State) (i : Nat) (f : Desc → Desc) : (s.updDesc i f).scrub = s.scrub := rfl
@[simp] theorem updDesc_rgnHeld (s : State) (i : Nat) (f : Desc → Desc) : (s.updDesc i f).rgnHeld = s.rgnHeld := rfl
@[simp] theorem updDesc_reloc (s : State) (i : Nat) (f : Desc → Desc) : (s.updDesc i f).reloc = s.reloc := rfl
@[simp] theorem updDesc_memEvents (s : State) (i : Nat) (f : Desc → Desc) : (s.updDesc i f).memEvents = s.memEvents := rfl
@[simp] theorem updDesc_zqLast (s : State) (i : Nat) (f : Desc → Desc) : (s.updDesc i f).zqLast = s.zqLast := rfl
@[simp] theorem updDesc_kerns (s : State) (i : Nat) (f : Desc → Desc) : (s.updDesc i f).kerns = s.kerns := rfl
@[simp] theorem updDesc_wgs (s : State) (i : Nat) (f : Desc → Desc) : (s.updDesc i f).wgs = s.wgs := rfl
@[simp] theorem updDesc_thr (s : State) (i : Nat) (f : Desc → Desc) : (s.updDesc i f).thr = s.thr := rfl
@[simp] theorem updDesc_caches (s : State) (i : Nat) (f : Desc → Desc) : (s.updDesc i f).caches = s.caches := rfl
@[simp] theorem updDesc_passes (s : State) (i : Nat) (f : Desc → Desc) : (s.updDesc i f).passes = s.passes := rfl
@[simp] theorem updDesc_lastCl (s : State) (i : Nat) (f : Desc → Desc) : (s.updDesc i f).lastCl = s.lastCl := rfl
@[simp] theorem updDesc_disps (s : State) (i : Nat) (f : Desc → Desc) : (s.updDesc i f).disps = s.disps := rfl
@[simp] theorem updDesc_auxs (s : State) (i : Nat) (f : Desc → Desc) : (s.updDesc i f).auxs = s.auxs := rfl
@[simp] theorem updDesc_caps (s : State) (i : Nat) (f : Desc → Desc) : (s.updDesc i f).caps = s.caps := rfl
@[simp] theorem updDesc_auds (s : State) (i : Nat) (f : Desc → Desc) : (s.updDesc i f).auds = s.auds := rfl
@[simp] theorem updDesc_tdm (s : State) (i : Nat) (f : Desc → Desc) : (s.updDesc i f).tdm = s.tdm := rfl
@[simp] theorem updDesc_fsyncEnd (s : State) (i : Nat) (f : Desc → Desc) : (s.updDesc i f).fsyncEnd = s.fsyncEnd := rfl
@[simp] theorem updDesc_fsync (s : State) (i : Nat) (f : Desc → Desc) : (s.updDesc i f).fsync = s.fsync := rfl
@[simp] theorem updDesc_relC (s : State) (i : Nat) (f : Desc → Desc) : (s.updDesc i f).relC = s.relC := rfl
@[simp] theorem updDesc_waking (s : State) (i : Nat) (f : Desc → Desc) : (s.updDesc i f).waking = s.waking := rfl
@[simp] theorem updDesc_denied (s : State) (i : Nat) (f : Desc → Desc) : (s.updDesc i f).denied = s.denied := rfl
@[simp] theorem updDesc_clkOff (s : State) (i : Nat) (f : Desc → Desc) : (s.updDesc i f).clkOff = s.clkOff := rfl
@[simp] theorem updDesc_qosUsed (s : State) (i : Nat) (f : Desc → Desc) : (s.updDesc i f).qosUsed = s.qosUsed := rfl
@[simp] theorem updDesc_qosHeld (s : State) (i : Nat) (f : Desc → Desc) : (s.updDesc i f).qosHeld = s.qosHeld := rfl
@[simp] theorem updDesc_qosHold (s : State) (i : Nat) (f : Desc → Desc) : (s.updDesc i f).qosHold = s.qosHold := rfl
@[simp] theorem updDesc_qosWin (s : State) (i : Nat) (f : Desc → Desc) : (s.updDesc i f).qosWin = s.qosWin := rfl
@[simp] theorem updDesc_qosLive (s : State) (i : Nat) (f : Desc → Desc) : (s.updDesc i f).qosLive = s.qosLive := rfl
@[simp] theorem updDesc_qosPaid (s : State) (i : Nat) (f : Desc → Desc) : (s.updDesc i f).qosPaid = s.qosPaid := rfl
@[simp] theorem updDesc_qosCur (s : State) (i : Nat) (f : Desc → Desc) : (s.updDesc i f).qosCur = s.qosCur := rfl
@[simp] theorem updDesc_ddrQ (s : State) (i : Nat) (f : Desc → Desc) : (s.updDesc i f).ddrQ = s.ddrQ := rfl
@[simp] theorem updDesc_ddrRow (s : State) (i : Nat) (f : Desc → Desc) : (s.updDesc i f).ddrRow = s.ddrRow := rfl
@[simp] theorem updDesc_ddrPass (s : State) (i : Nat) (f : Desc → Desc) : (s.updDesc i f).ddrPass = s.ddrPass := rfl
@[simp] theorem updDesc_ddrSpill (s : State) (i : Nat) (f : Desc → Desc) : (s.updDesc i f).ddrSpill = s.ddrSpill := rfl
@[simp] theorem updDesc_hbDue (s : State) (i : Nat) (f : Desc → Desc) : (s.updDesc i f).hbDue = s.hbDue := rfl
@[simp] theorem updDesc_flrC (s : State) (i : Nat) (f : Desc → Desc) : (s.updDesc i f).flrC = s.flrC := rfl
@[simp] theorem updDesc_flrSq (s : State) (i : Nat) (f : Desc → Desc) : (s.updDesc i f).flrSq = s.flrSq := rfl
@[simp] theorem updDesc_flrGone (s : State) (i : Nat) (f : Desc → Desc) : (s.updDesc i f).flrGone = s.flrGone := rfl
@[simp] theorem updDesc_chkReal (s : State) (i : Nat) (f : Desc → Desc) : (s.updDesc i f).chkReal = s.chkReal := rfl
@[simp] theorem updDesc_pairRuns (s : State) (i : Nat) (f : Desc → Desc) : (s.updDesc i f).pairRuns = s.pairRuns := rfl
@[simp] theorem updDesc_fttiT (s : State) (i : Nat) (f : Desc → Desc) : (s.updDesc i f).fttiT = s.fttiT := rfl
@[simp] theorem updDesc_slotT (s : State) (i : Nat) (f : Desc → Desc) : (s.updDesc i f).slotT = s.slotT := rfl
@[simp] theorem updDesc_fttiFrom (s : State) (i : Nat) (f : Desc → Desc) : (s.updDesc i f).fttiFrom = s.fttiFrom := rfl
@[simp] theorem updDesc_cycle (s : State) (i : Nat) (f : Desc → Desc) : (s.updDesc i f).cycle = s.cycle := rfl
@[simp] theorem updDesc_seqC (s : State) (i : Nat) (f : Desc → Desc) : (s.updDesc i f).seqC = s.seqC := rfl
@[simp] theorem updDesc_seqT (s : State) (i : Nat) (f : Desc → Desc) : (s.updDesc i f).seqT = s.seqT := rfl
@[simp] theorem updDesc_seqF (s : State) (i : Nat) (f : Desc → Desc) : (s.updDesc i f).seqF = s.seqF := rfl
@[simp] theorem updDesc_wdgHit (s : State) (i : Nat) (f : Desc → Desc) : (s.updDesc i f).wdgHit = s.wdgHit := rfl
@[simp] theorem updDesc_gtInject (s : State) (i : Nat) (f : Desc → Desc) : (s.updDesc i f).gtInject = s.gtInject := rfl
@[simp] theorem updDesc_chkHist (s : State) (i : Nat) (f : Desc → Desc) : (s.updDesc i f).chkHist = s.chkHist := rfl
@[simp] theorem updDesc_gtReq (s : State) (i : Nat) (f : Desc → Desc) : (s.updDesc i f).gtReq = s.gtReq := rfl
@[simp] theorem updDesc_wakeTest (s : State) (i : Nat) (f : Desc → Desc) : (s.updDesc i f).wakeTest = s.wakeTest := rfl
@[simp] theorem updDesc_sst (s : State) (i : Nat) (f : Desc → Desc) : (s.updDesc i f).sst = s.sst := rfl
@[simp] theorem updDesc_flash (s : State) (i : Nat) (f : Desc → Desc) : (s.updDesc i f).flash = s.flash := rfl
@[simp] theorem updDesc_lnt (s : State) (i : Nat) (f : Desc → Desc) : (s.updDesc i f).lnt = s.lnt := rfl
@[simp] theorem updDesc_svc (s : State) (i : Nat) (f : Desc → Desc) : (s.updDesc i f).svc = s.svc := rfl
@[simp] theorem updDesc_actv (s : State) (i : Nat) (f : Desc → Desc) : (s.updDesc i f).actv = s.actv := rfl
@[simp] theorem updDesc_runImg (s : State) (i : Nat) (f : Desc → Desc) : (s.updDesc i f).runImg = s.runImg := rfl
@[simp] theorem updDesc_stageImg (s : State) (i : Nat) (f : Desc → Desc) : (s.updDesc i f).stageImg = s.stageImg := rfl
@[simp] theorem updDesc_gw (s : State) (i : Nat) (f : Desc → Desc) : (s.updDesc i f).gw = s.gw := rfl
@[simp] theorem updDesc_bcn (s : State) (i : Nat) (f : Desc → Desc) : (s.updDesc i f).bcn = s.bcn := rfl
@[simp] theorem updDesc_pwr (s : State) (i : Nat) (f : Desc → Desc) : (s.updDesc i f).pwr = s.pwr := rfl

/-! ### State.delDesc changes descs, caps, auds, auxs only -/

@[simp] theorem delDesc_now (s : State) (i : Nat) : (s.delDesc i).now = s.now := rfl
@[simp] theorem delDesc_fresh (s : State) (i : Nat) : (s.delDesc i).fresh = s.fresh := rfl
@[simp] theorem delDesc_pending (s : State) (i : Nat) : (s.delDesc i).pending = s.pending := rfl
@[simp] theorem delDesc_rdata (s : State) (i : Nat) : (s.delDesc i).rdata = s.rdata := rfl
@[simp] theorem delDesc_regs (s : State) (i : Nat) : (s.delDesc i).regs = s.regs := rfl
@[simp] theorem delDesc_active (s : State) (i : Nat) : (s.delDesc i).active = s.active := rfl
@[simp] theorem delDesc_shadow (s : State) (i : Nat) : (s.delDesc i).shadow = s.shadow := rfl
@[simp] theorem delDesc_latches (s : State) (i : Nat) : (s.delDesc i).latches = s.latches := rfl
@[simp] theorem delDesc_mem (s : State) (i : Nat) : (s.delDesc i).mem = s.mem := rfl
@[simp] theorem delDesc_tags (s : State) (i : Nat) : (s.delDesc i).tags = s.tags := rfl
@[simp] theorem delDesc_ecc (s : State) (i : Nat) : (s.delDesc i).ecc = s.ecc := rfl
@[simp] theorem delDesc_host (s : State) (i : Nat) : (s.delDesc i).host = s.host := rfl
@[simp] theorem delDesc_out (s : State) (i : Nat) : (s.delDesc i).out = s.out := rfl
@[simp] theorem delDesc_pins (s : State) (i : Nat) : (s.delDesc i).pins = s.pins := rfl
@[simp] theorem delDesc_arm (s : State) (i : Nat) : (s.delDesc i).arm = s.arm := rfl
@[simp] theorem delDesc_nextId (s : State) (i : Nat) : (s.delDesc i).nextId = s.nextId := rfl
@[simp] theorem delDesc_dbLatch (s : State) (i : Nat) : (s.delDesc i).dbLatch = s.dbLatch := rfl
@[simp] theorem delDesc_coal (s : State) (i : Nat) : (s.delDesc i).coal = s.coal := rfl
@[simp] theorem delDesc_signallers (s : State) (i : Nat) : (s.delDesc i).signallers = s.signallers := rfl
@[simp] theorem delDesc_transients (s : State) (i : Nat) : (s.delDesc i).transients = s.transients := rfl
@[simp] theorem delDesc_retired (s : State) (i : Nat) : (s.delDesc i).retired = s.retired := rfl
@[simp] theorem delDesc_trace (s : State) (i : Nat) : (s.delDesc i).trace = s.trace := rfl
@[simp] theorem delDesc_pcie (s : State) (i : Nat) : (s.delDesc i).pcie = s.pcie := rfl
@[simp] theorem delDesc_lnkOut (s : State) (i : Nat) : (s.delDesc i).lnkOut = s.lnkOut := rfl
@[simp] theorem delDesc_peerData (s : State) (i : Nat) : (s.delDesc i).peerData = s.peerData := rfl
@[simp] theorem delDesc_trail (s : State) (i : Nat) : (s.delDesc i).trail = s.trail := rfl
@[simp] theorem delDesc_cplTries (s : State) (i : Nat) : (s.delDesc i).cplTries = s.cplTries := rfl
@[simp] theorem delDesc_posted (s : State) (i : Nat) : (s.delDesc i).posted = s.posted := rfl
@[simp] theorem delDesc_dirty (s : State) (i : Nat) : (s.delDesc i).dirty = s.dirty := rfl
@[simp] theorem delDesc_ports (s : State) (i : Nat) : (s.delDesc i).ports = s.ports := rfl
@[simp] theorem delDesc_chkInject (s : State) (i : Nat) : (s.delDesc i).chkInject = s.chkInject := rfl
@[simp] theorem delDesc_att (s : State) (i : Nat) : (s.delDesc i).att = s.att := rfl
@[simp] theorem delDesc_seq (s : State) (i : Nat) : (s.delDesc i).seq = s.seq := rfl
@[simp] theorem delDesc_stoppedQ (s : State) (i : Nat) : (s.delDesc i).stoppedQ = s.stoppedQ := rfl
@[simp] theorem delDesc_fetchFn (s : State) (i : Nat) : (s.delDesc i).fetchFn = s.fetchFn := rfl
@[simp] theorem delDesc_fetchTaken (s : State) (i : Nat) : (s.delDesc i).fetchTaken = s.fetchTaken := rfl
@[simp] theorem delDesc_jobs (s : State) (i : Nat) : (s.delDesc i).jobs = s.jobs := rfl
@[simp] theorem delDesc_spills (s : State) (i : Nat) : (s.delDesc i).spills = s.spills := rfl
@[simp] theorem delDesc_grants (s : State) (i : Nat) : (s.delDesc i).grants = s.grants := rfl
@[simp] theorem delDesc_borrowSeq (s : State) (i : Nat) : (s.delDesc i).borrowSeq = s.borrowSeq := rfl
@[simp] theorem delDesc_dwins (s : State) (i : Nat) : (s.delDesc i).dwins = s.dwins := rfl
@[simp] theorem delDesc_gold (s : State) (i : Nat) : (s.delDesc i).gold = s.gold := rfl
@[simp] theorem delDesc_consec (s : State) (i : Nat) : (s.delDesc i).consec = s.consec := rfl
@[simp] theorem delDesc_scrub (s : State) (i : Nat) : (s.delDesc i).scrub = s.scrub := rfl
@[simp] theorem delDesc_rgnHeld (s : State) (i : Nat) : (s.delDesc i).rgnHeld = s.rgnHeld := rfl
@[simp] theorem delDesc_reloc (s : State) (i : Nat) : (s.delDesc i).reloc = s.reloc := rfl
@[simp] theorem delDesc_memEvents (s : State) (i : Nat) : (s.delDesc i).memEvents = s.memEvents := rfl
@[simp] theorem delDesc_zqLast (s : State) (i : Nat) : (s.delDesc i).zqLast = s.zqLast := rfl
@[simp] theorem delDesc_kerns (s : State) (i : Nat) : (s.delDesc i).kerns = s.kerns := rfl
@[simp] theorem delDesc_wgs (s : State) (i : Nat) : (s.delDesc i).wgs = s.wgs := rfl
@[simp] theorem delDesc_thr (s : State) (i : Nat) : (s.delDesc i).thr = s.thr := rfl
@[simp] theorem delDesc_caches (s : State) (i : Nat) : (s.delDesc i).caches = s.caches := rfl
@[simp] theorem delDesc_passes (s : State) (i : Nat) : (s.delDesc i).passes = s.passes := rfl
@[simp] theorem delDesc_lastCl (s : State) (i : Nat) : (s.delDesc i).lastCl = s.lastCl := rfl
@[simp] theorem delDesc_disps (s : State) (i : Nat) : (s.delDesc i).disps = s.disps := rfl
@[simp] theorem delDesc_tdm (s : State) (i : Nat) : (s.delDesc i).tdm = s.tdm := rfl
@[simp] theorem delDesc_fsyncEnd (s : State) (i : Nat) : (s.delDesc i).fsyncEnd = s.fsyncEnd := rfl
@[simp] theorem delDesc_fsync (s : State) (i : Nat) : (s.delDesc i).fsync = s.fsync := rfl
@[simp] theorem delDesc_relC (s : State) (i : Nat) : (s.delDesc i).relC = s.relC := rfl
@[simp] theorem delDesc_waking (s : State) (i : Nat) : (s.delDesc i).waking = s.waking := rfl
@[simp] theorem delDesc_denied (s : State) (i : Nat) : (s.delDesc i).denied = s.denied := rfl
@[simp] theorem delDesc_clkOff (s : State) (i : Nat) : (s.delDesc i).clkOff = s.clkOff := rfl
@[simp] theorem delDesc_qosUsed (s : State) (i : Nat) : (s.delDesc i).qosUsed = s.qosUsed := rfl
@[simp] theorem delDesc_qosHeld (s : State) (i : Nat) : (s.delDesc i).qosHeld = s.qosHeld := rfl
@[simp] theorem delDesc_qosHold (s : State) (i : Nat) : (s.delDesc i).qosHold = s.qosHold := rfl
@[simp] theorem delDesc_qosWin (s : State) (i : Nat) : (s.delDesc i).qosWin = s.qosWin := rfl
@[simp] theorem delDesc_qosLive (s : State) (i : Nat) : (s.delDesc i).qosLive = s.qosLive := rfl
@[simp] theorem delDesc_qosPaid (s : State) (i : Nat) : (s.delDesc i).qosPaid = s.qosPaid := rfl
@[simp] theorem delDesc_qosCur (s : State) (i : Nat) : (s.delDesc i).qosCur = s.qosCur := rfl
@[simp] theorem delDesc_ddrQ (s : State) (i : Nat) : (s.delDesc i).ddrQ = s.ddrQ := rfl
@[simp] theorem delDesc_ddrRow (s : State) (i : Nat) : (s.delDesc i).ddrRow = s.ddrRow := rfl
@[simp] theorem delDesc_ddrPass (s : State) (i : Nat) : (s.delDesc i).ddrPass = s.ddrPass := rfl
@[simp] theorem delDesc_ddrSpill (s : State) (i : Nat) : (s.delDesc i).ddrSpill = s.ddrSpill := rfl
@[simp] theorem delDesc_hbDue (s : State) (i : Nat) : (s.delDesc i).hbDue = s.hbDue := rfl
@[simp] theorem delDesc_flrC (s : State) (i : Nat) : (s.delDesc i).flrC = s.flrC := rfl
@[simp] theorem delDesc_flrSq (s : State) (i : Nat) : (s.delDesc i).flrSq = s.flrSq := rfl
@[simp] theorem delDesc_flrGone (s : State) (i : Nat) : (s.delDesc i).flrGone = s.flrGone := rfl
@[simp] theorem delDesc_chkReal (s : State) (i : Nat) : (s.delDesc i).chkReal = s.chkReal := rfl
@[simp] theorem delDesc_pairRuns (s : State) (i : Nat) : (s.delDesc i).pairRuns = s.pairRuns := rfl
@[simp] theorem delDesc_fttiT (s : State) (i : Nat) : (s.delDesc i).fttiT = s.fttiT := rfl
@[simp] theorem delDesc_slotT (s : State) (i : Nat) : (s.delDesc i).slotT = s.slotT := rfl
@[simp] theorem delDesc_fttiFrom (s : State) (i : Nat) : (s.delDesc i).fttiFrom = s.fttiFrom := rfl
@[simp] theorem delDesc_cycle (s : State) (i : Nat) : (s.delDesc i).cycle = s.cycle := rfl
@[simp] theorem delDesc_seqC (s : State) (i : Nat) : (s.delDesc i).seqC = s.seqC := rfl
@[simp] theorem delDesc_seqT (s : State) (i : Nat) : (s.delDesc i).seqT = s.seqT := rfl
@[simp] theorem delDesc_seqF (s : State) (i : Nat) : (s.delDesc i).seqF = s.seqF := rfl
@[simp] theorem delDesc_wdgHit (s : State) (i : Nat) : (s.delDesc i).wdgHit = s.wdgHit := rfl
@[simp] theorem delDesc_gtInject (s : State) (i : Nat) : (s.delDesc i).gtInject = s.gtInject := rfl
@[simp] theorem delDesc_chkHist (s : State) (i : Nat) : (s.delDesc i).chkHist = s.chkHist := rfl
@[simp] theorem delDesc_gtReq (s : State) (i : Nat) : (s.delDesc i).gtReq = s.gtReq := rfl
@[simp] theorem delDesc_wakeTest (s : State) (i : Nat) : (s.delDesc i).wakeTest = s.wakeTest := rfl
@[simp] theorem delDesc_sst (s : State) (i : Nat) : (s.delDesc i).sst = s.sst := rfl
@[simp] theorem delDesc_flash (s : State) (i : Nat) : (s.delDesc i).flash = s.flash := rfl
@[simp] theorem delDesc_lnt (s : State) (i : Nat) : (s.delDesc i).lnt = s.lnt := rfl
@[simp] theorem delDesc_svc (s : State) (i : Nat) : (s.delDesc i).svc = s.svc := rfl
@[simp] theorem delDesc_actv (s : State) (i : Nat) : (s.delDesc i).actv = s.actv := rfl
@[simp] theorem delDesc_runImg (s : State) (i : Nat) : (s.delDesc i).runImg = s.runImg := rfl
@[simp] theorem delDesc_stageImg (s : State) (i : Nat) : (s.delDesc i).stageImg = s.stageImg := rfl
@[simp] theorem delDesc_gw (s : State) (i : Nat) : (s.delDesc i).gw = s.gw := rfl
@[simp] theorem delDesc_bcn (s : State) (i : Nat) : (s.delDesc i).bcn = s.bcn := rfl
@[simp] theorem delDesc_pwr (s : State) (i : Nat) : (s.delDesc i).pwr = s.pwr := rfl

/-! ### State.freshen changes fresh only -/

@[simp] theorem freshen_now (s : State) (n : Nat) : (s.freshen n).now = s.now := rfl
@[simp] theorem freshen_pending (s : State) (n : Nat) : (s.freshen n).pending = s.pending := rfl
@[simp] theorem freshen_rdata (s : State) (n : Nat) : (s.freshen n).rdata = s.rdata := rfl
@[simp] theorem freshen_regs (s : State) (n : Nat) : (s.freshen n).regs = s.regs := rfl
@[simp] theorem freshen_active (s : State) (n : Nat) : (s.freshen n).active = s.active := rfl
@[simp] theorem freshen_shadow (s : State) (n : Nat) : (s.freshen n).shadow = s.shadow := rfl
@[simp] theorem freshen_latches (s : State) (n : Nat) : (s.freshen n).latches = s.latches := rfl
@[simp] theorem freshen_mem (s : State) (n : Nat) : (s.freshen n).mem = s.mem := rfl
@[simp] theorem freshen_tags (s : State) (n : Nat) : (s.freshen n).tags = s.tags := rfl
@[simp] theorem freshen_ecc (s : State) (n : Nat) : (s.freshen n).ecc = s.ecc := rfl
@[simp] theorem freshen_host (s : State) (n : Nat) : (s.freshen n).host = s.host := rfl
@[simp] theorem freshen_out (s : State) (n : Nat) : (s.freshen n).out = s.out := rfl
@[simp] theorem freshen_pins (s : State) (n : Nat) : (s.freshen n).pins = s.pins := rfl
@[simp] theorem freshen_arm (s : State) (n : Nat) : (s.freshen n).arm = s.arm := rfl
@[simp] theorem freshen_descs (s : State) (n : Nat) : (s.freshen n).descs = s.descs := rfl
@[simp] theorem freshen_nextId (s : State) (n : Nat) : (s.freshen n).nextId = s.nextId := rfl
@[simp] theorem freshen_dbLatch (s : State) (n : Nat) : (s.freshen n).dbLatch = s.dbLatch := rfl
@[simp] theorem freshen_coal (s : State) (n : Nat) : (s.freshen n).coal = s.coal := rfl
@[simp] theorem freshen_signallers (s : State) (n : Nat) : (s.freshen n).signallers = s.signallers := rfl
@[simp] theorem freshen_transients (s : State) (n : Nat) : (s.freshen n).transients = s.transients := rfl
@[simp] theorem freshen_retired (s : State) (n : Nat) : (s.freshen n).retired = s.retired := rfl
@[simp] theorem freshen_trace (s : State) (n : Nat) : (s.freshen n).trace = s.trace := rfl
@[simp] theorem freshen_pcie (s : State) (n : Nat) : (s.freshen n).pcie = s.pcie := rfl
@[simp] theorem freshen_lnkOut (s : State) (n : Nat) : (s.freshen n).lnkOut = s.lnkOut := rfl
@[simp] theorem freshen_peerData (s : State) (n : Nat) : (s.freshen n).peerData = s.peerData := rfl
@[simp] theorem freshen_trail (s : State) (n : Nat) : (s.freshen n).trail = s.trail := rfl
@[simp] theorem freshen_cplTries (s : State) (n : Nat) : (s.freshen n).cplTries = s.cplTries := rfl
@[simp] theorem freshen_posted (s : State) (n : Nat) : (s.freshen n).posted = s.posted := rfl
@[simp] theorem freshen_dirty (s : State) (n : Nat) : (s.freshen n).dirty = s.dirty := rfl
@[simp] theorem freshen_ports (s : State) (n : Nat) : (s.freshen n).ports = s.ports := rfl
@[simp] theorem freshen_chkInject (s : State) (n : Nat) : (s.freshen n).chkInject = s.chkInject := rfl
@[simp] theorem freshen_att (s : State) (n : Nat) : (s.freshen n).att = s.att := rfl
@[simp] theorem freshen_seq (s : State) (n : Nat) : (s.freshen n).seq = s.seq := rfl
@[simp] theorem freshen_stoppedQ (s : State) (n : Nat) : (s.freshen n).stoppedQ = s.stoppedQ := rfl
@[simp] theorem freshen_fetchFn (s : State) (n : Nat) : (s.freshen n).fetchFn = s.fetchFn := rfl
@[simp] theorem freshen_fetchTaken (s : State) (n : Nat) : (s.freshen n).fetchTaken = s.fetchTaken := rfl
@[simp] theorem freshen_jobs (s : State) (n : Nat) : (s.freshen n).jobs = s.jobs := rfl
@[simp] theorem freshen_spills (s : State) (n : Nat) : (s.freshen n).spills = s.spills := rfl
@[simp] theorem freshen_grants (s : State) (n : Nat) : (s.freshen n).grants = s.grants := rfl
@[simp] theorem freshen_borrowSeq (s : State) (n : Nat) : (s.freshen n).borrowSeq = s.borrowSeq := rfl
@[simp] theorem freshen_dwins (s : State) (n : Nat) : (s.freshen n).dwins = s.dwins := rfl
@[simp] theorem freshen_gold (s : State) (n : Nat) : (s.freshen n).gold = s.gold := rfl
@[simp] theorem freshen_consec (s : State) (n : Nat) : (s.freshen n).consec = s.consec := rfl
@[simp] theorem freshen_scrub (s : State) (n : Nat) : (s.freshen n).scrub = s.scrub := rfl
@[simp] theorem freshen_rgnHeld (s : State) (n : Nat) : (s.freshen n).rgnHeld = s.rgnHeld := rfl
@[simp] theorem freshen_reloc (s : State) (n : Nat) : (s.freshen n).reloc = s.reloc := rfl
@[simp] theorem freshen_memEvents (s : State) (n : Nat) : (s.freshen n).memEvents = s.memEvents := rfl
@[simp] theorem freshen_zqLast (s : State) (n : Nat) : (s.freshen n).zqLast = s.zqLast := rfl
@[simp] theorem freshen_kerns (s : State) (n : Nat) : (s.freshen n).kerns = s.kerns := rfl
@[simp] theorem freshen_wgs (s : State) (n : Nat) : (s.freshen n).wgs = s.wgs := rfl
@[simp] theorem freshen_thr (s : State) (n : Nat) : (s.freshen n).thr = s.thr := rfl
@[simp] theorem freshen_caches (s : State) (n : Nat) : (s.freshen n).caches = s.caches := rfl
@[simp] theorem freshen_passes (s : State) (n : Nat) : (s.freshen n).passes = s.passes := rfl
@[simp] theorem freshen_lastCl (s : State) (n : Nat) : (s.freshen n).lastCl = s.lastCl := rfl
@[simp] theorem freshen_disps (s : State) (n : Nat) : (s.freshen n).disps = s.disps := rfl
@[simp] theorem freshen_auxs (s : State) (n : Nat) : (s.freshen n).auxs = s.auxs := rfl
@[simp] theorem freshen_caps (s : State) (n : Nat) : (s.freshen n).caps = s.caps := rfl
@[simp] theorem freshen_auds (s : State) (n : Nat) : (s.freshen n).auds = s.auds := rfl
@[simp] theorem freshen_tdm (s : State) (n : Nat) : (s.freshen n).tdm = s.tdm := rfl
@[simp] theorem freshen_fsyncEnd (s : State) (n : Nat) : (s.freshen n).fsyncEnd = s.fsyncEnd := rfl
@[simp] theorem freshen_fsync (s : State) (n : Nat) : (s.freshen n).fsync = s.fsync := rfl
@[simp] theorem freshen_relC (s : State) (n : Nat) : (s.freshen n).relC = s.relC := rfl
@[simp] theorem freshen_waking (s : State) (n : Nat) : (s.freshen n).waking = s.waking := rfl
@[simp] theorem freshen_denied (s : State) (n : Nat) : (s.freshen n).denied = s.denied := rfl
@[simp] theorem freshen_clkOff (s : State) (n : Nat) : (s.freshen n).clkOff = s.clkOff := rfl
@[simp] theorem freshen_qosUsed (s : State) (n : Nat) : (s.freshen n).qosUsed = s.qosUsed := rfl
@[simp] theorem freshen_qosHeld (s : State) (n : Nat) : (s.freshen n).qosHeld = s.qosHeld := rfl
@[simp] theorem freshen_qosHold (s : State) (n : Nat) : (s.freshen n).qosHold = s.qosHold := rfl
@[simp] theorem freshen_qosWin (s : State) (n : Nat) : (s.freshen n).qosWin = s.qosWin := rfl
@[simp] theorem freshen_qosLive (s : State) (n : Nat) : (s.freshen n).qosLive = s.qosLive := rfl
@[simp] theorem freshen_qosPaid (s : State) (n : Nat) : (s.freshen n).qosPaid = s.qosPaid := rfl
@[simp] theorem freshen_qosCur (s : State) (n : Nat) : (s.freshen n).qosCur = s.qosCur := rfl
@[simp] theorem freshen_ddrQ (s : State) (n : Nat) : (s.freshen n).ddrQ = s.ddrQ := rfl
@[simp] theorem freshen_ddrRow (s : State) (n : Nat) : (s.freshen n).ddrRow = s.ddrRow := rfl
@[simp] theorem freshen_ddrPass (s : State) (n : Nat) : (s.freshen n).ddrPass = s.ddrPass := rfl
@[simp] theorem freshen_ddrSpill (s : State) (n : Nat) : (s.freshen n).ddrSpill = s.ddrSpill := rfl
@[simp] theorem freshen_hbDue (s : State) (n : Nat) : (s.freshen n).hbDue = s.hbDue := rfl
@[simp] theorem freshen_flrC (s : State) (n : Nat) : (s.freshen n).flrC = s.flrC := rfl
@[simp] theorem freshen_flrSq (s : State) (n : Nat) : (s.freshen n).flrSq = s.flrSq := rfl
@[simp] theorem freshen_flrGone (s : State) (n : Nat) : (s.freshen n).flrGone = s.flrGone := rfl
@[simp] theorem freshen_chkReal (s : State) (n : Nat) : (s.freshen n).chkReal = s.chkReal := rfl
@[simp] theorem freshen_pairRuns (s : State) (n : Nat) : (s.freshen n).pairRuns = s.pairRuns := rfl
@[simp] theorem freshen_fttiT (s : State) (n : Nat) : (s.freshen n).fttiT = s.fttiT := rfl
@[simp] theorem freshen_slotT (s : State) (n : Nat) : (s.freshen n).slotT = s.slotT := rfl
@[simp] theorem freshen_fttiFrom (s : State) (n : Nat) : (s.freshen n).fttiFrom = s.fttiFrom := rfl
@[simp] theorem freshen_cycle (s : State) (n : Nat) : (s.freshen n).cycle = s.cycle := rfl
@[simp] theorem freshen_seqC (s : State) (n : Nat) : (s.freshen n).seqC = s.seqC := rfl
@[simp] theorem freshen_seqT (s : State) (n : Nat) : (s.freshen n).seqT = s.seqT := rfl
@[simp] theorem freshen_seqF (s : State) (n : Nat) : (s.freshen n).seqF = s.seqF := rfl
@[simp] theorem freshen_wdgHit (s : State) (n : Nat) : (s.freshen n).wdgHit = s.wdgHit := rfl
@[simp] theorem freshen_gtInject (s : State) (n : Nat) : (s.freshen n).gtInject = s.gtInject := rfl
@[simp] theorem freshen_chkHist (s : State) (n : Nat) : (s.freshen n).chkHist = s.chkHist := rfl
@[simp] theorem freshen_gtReq (s : State) (n : Nat) : (s.freshen n).gtReq = s.gtReq := rfl
@[simp] theorem freshen_wakeTest (s : State) (n : Nat) : (s.freshen n).wakeTest = s.wakeTest := rfl
@[simp] theorem freshen_sst (s : State) (n : Nat) : (s.freshen n).sst = s.sst := rfl
@[simp] theorem freshen_flash (s : State) (n : Nat) : (s.freshen n).flash = s.flash := rfl
@[simp] theorem freshen_lnt (s : State) (n : Nat) : (s.freshen n).lnt = s.lnt := rfl
@[simp] theorem freshen_svc (s : State) (n : Nat) : (s.freshen n).svc = s.svc := rfl
@[simp] theorem freshen_actv (s : State) (n : Nat) : (s.freshen n).actv = s.actv := rfl
@[simp] theorem freshen_runImg (s : State) (n : Nat) : (s.freshen n).runImg = s.runImg := rfl
@[simp] theorem freshen_stageImg (s : State) (n : Nat) : (s.freshen n).stageImg = s.stageImg := rfl
@[simp] theorem freshen_gw (s : State) (n : Nat) : (s.freshen n).gw = s.gw := rfl
@[simp] theorem freshen_bcn (s : State) (n : Nat) : (s.freshen n).bcn = s.bcn := rfl
@[simp] theorem freshen_pwr (s : State) (n : Nat) : (s.freshen n).pwr = s.pwr := rfl

end Sys2Proof.Machine
end

