-- ==== Sys2Proof/Laws/Regs.lean ====
section
/-!
SUPPORT. Bit fields, sparse maps and registers: what reading gives after writing, and the canonical form of the maps.
-/

namespace Sys2Proof

theorem bitsOf_lt (v lo w : Nat) : bitsOf v lo w < 2 ^ w := Nat.mod_lt _ (Nat.two_pow_pos w)

theorem putBits_split (v lo w x : Nat) :
    putBits v lo w x = v / 2 ^ (lo + w) * 2 ^ (lo + w) + x % 2 ^ w * 2 ^ lo + v % 2 ^ lo := by
  have h1 := Nat.div_add_mod v (2 ^ lo)
  have h2 := Nat.div_add_mod (v / 2 ^ lo) (2 ^ w)
  rw [Nat.div_div_eq_div_mul, ← pow_add] at h2
  have h3 : v = v / 2 ^ (lo + w) * 2 ^ (lo + w) + bitsOf v lo w * 2 ^ lo + v % 2 ^ lo := by
    unfold bitsOf
    calc v = 2 ^ lo * (v / 2 ^ lo) + v % 2 ^ lo := h1.symm
      _ = 2 ^ lo * (2 ^ w * (v / 2 ^ (lo + w)) + v / 2 ^ lo % 2 ^ w) + v % 2 ^ lo := by rw [h2]
      _ = _ := by rw [pow_add]; ring
  unfold putBits
  omega

/-- A field read back after it was written. -/
theorem bitsOf_putBits (v lo w x : Nat) : bitsOf (putBits v lo w x) lo w = x % 2 ^ w := by
  rw [putBits_split, bitsOf]
  have hx : x % 2 ^ w < 2 ^ w := Nat.mod_lt _ (Nat.two_pow_pos w)
  have hr : v % 2 ^ lo < 2 ^ lo := Nat.mod_lt _ (Nat.two_pow_pos lo)
  have : v / 2 ^ (lo + w) * 2 ^ (lo + w) + x % 2 ^ w * 2 ^ lo + v % 2 ^ lo =
      2 ^ lo * (2 ^ w * (v / 2 ^ (lo + w)) + x % 2 ^ w) + v % 2 ^ lo := by rw [pow_add]; ring
  rw [this, Nat.mul_add_div (Nat.two_pow_pos lo), Nat.div_eq_of_lt hr, Nat.add_zero, Nat.mul_add_mod, Nat.mod_mod]

/-- A field below the written one is kept. -/
theorem bitsOf_putBits_below (v lo w x l2 w2 : Nat) (h : l2 + w2 ≤ lo) :
    bitsOf (putBits v lo w x) l2 w2 = bitsOf v l2 w2 := by
  rw [putBits_split]
  obtain ⟨k, rfl⟩ := Nat.exists_eq_add_of_le h
  have key : ∀ y, y % 2 ^ (l2 + w2 + k) % 2 ^ (l2 + w2) = y % 2 ^ (l2 + w2) := fun y =>
    Nat.mod_mod_of_dvd y (pow_dvd_pow 2 (by omega))
  have red : ∀ y, bitsOf y l2 w2 = bitsOf (y % 2 ^ (l2 + w2)) l2 w2 := by
    intro y
    unfold bitsOf
    rw [← Nat.mod_mul_right_div_self, ← Nat.mod_mul_right_div_self, ← pow_add, Nat.mod_mod]
  rw [red, red v]
  congr 1
  have e : v / 2 ^ (l2 + w2 + k + w) * 2 ^ (l2 + w2 + k + w) + x % 2 ^ w * 2 ^ (l2 + w2 + k) + v % 2 ^ (l2 + w2 + k) =
      2 ^ (l2 + w2) * (v / 2 ^ (l2 + w2 + k + w) * 2 ^ (k + w) + x % 2 ^ w * 2 ^ k) + v % 2 ^ (l2 + w2 + k) := by
    simp only [pow_add]; ring
  rw [e, Nat.mul_add_mod, key]

/-- A field above the written one is kept. -/
theorem bitsOf_putBits_above (v lo w x l2 w2 : Nat) (h : lo + w ≤ l2) :
    bitsOf (putBits v lo w x) l2 w2 = bitsOf v l2 w2 := by
  rw [putBits_split]
  obtain ⟨k, rfl⟩ := Nat.exists_eq_add_of_le h
  unfold bitsOf
  congr 1
  have hx : x % 2 ^ w < 2 ^ w := Nat.mod_lt _ (Nat.two_pow_pos w)
  have hr : v % 2 ^ lo < 2 ^ lo := Nat.mod_lt _ (Nat.two_pow_pos lo)
  have hlt : x % 2 ^ w * 2 ^ lo + v % 2 ^ lo < 2 ^ (lo + w) := by
    calc x % 2 ^ w * 2 ^ lo + v % 2 ^ lo < x % 2 ^ w * 2 ^ lo + 2 ^ lo := by omega
      _ = (x % 2 ^ w + 1) * 2 ^ lo := by ring
      _ ≤ 2 ^ w * 2 ^ lo := Nat.mul_le_mul_right _ hx
      _ = 2 ^ (lo + w) := by rw [pow_add]; ring
  rw [pow_add 2 (lo + w) k, ← Nat.div_div_eq_div_mul, ← Nat.div_div_eq_div_mul]
  congr 1
  rw [show v / 2 ^ (lo + w) * 2 ^ (lo + w) + x % 2 ^ w * 2 ^ lo + v % 2 ^ lo =
    2 ^ (lo + w) * (v / 2 ^ (lo + w)) + (x % 2 ^ w * 2 ^ lo + v % 2 ^ lo) by ring,
    Nat.mul_add_div (Nat.two_pow_pos _), Nat.div_eq_of_lt hlt, Nat.add_zero]

theorem putBits_lt (v lo w x : Nat) (hv : v < 2 ^ 64) (h : lo + w ≤ 64) : putBits v lo w x < 2 ^ 64 := by
  obtain ⟨k, hk⟩ := Nat.exists_eq_add_of_le h
  rw [putBits_split]
  have hx : x % 2 ^ w < 2 ^ w := Nat.mod_lt _ (Nat.two_pow_pos w)
  have hr : v % 2 ^ lo < 2 ^ lo := Nat.mod_lt _ (Nat.two_pow_pos lo)
  have hq : v / 2 ^ (lo + w) < 2 ^ k := by
    rw [Nat.div_lt_iff_lt_mul (Nat.two_pow_pos _), ← pow_add]
    rwa [show k + (lo + w) = 64 by omega]
  have hlt : x % 2 ^ w * 2 ^ lo + v % 2 ^ lo < 2 ^ (lo + w) := by
    calc x % 2 ^ w * 2 ^ lo + v % 2 ^ lo < x % 2 ^ w * 2 ^ lo + 2 ^ lo := by omega
      _ = (x % 2 ^ w + 1) * 2 ^ lo := by ring
      _ ≤ 2 ^ w * 2 ^ lo := Nat.mul_le_mul_right _ hx
      _ = 2 ^ (lo + w) := by rw [pow_add]; ring
  calc _ < v / 2 ^ (lo + w) * 2 ^ (lo + w) + 2 ^ (lo + w) := by omega
    _ = (v / 2 ^ (lo + w) + 1) * 2 ^ (lo + w) := by ring
    _ ≤ 2 ^ k * 2 ^ (lo + w) := Nat.mul_le_mul_right _ hq
    _ = 2 ^ 64 := by rw [← pow_add]; congr 1; omega

end Sys2Proof

namespace Sys2Proof.Machine

/-! ### Sparse maps -/

theorem mget_mins {β : Type} (d : Nat → β) (m : SMap β) (k i : Nat) (v : β) :
    mget d (mins k v m) i = if i = k then v else mget d m i := by
  induction m with
  | nil => simp [mins, mget]
  | cons e m ih =>
    obtain ⟨j, w⟩ := e
    simp only [mins]
    by_cases h : k = j
    · subst h; by_cases hi : i = k <;> simp [mget, hi]
    · by_cases h2 : k < j
      · simp [h, h2, mget]
      · by_cases hi : i = j
        · subst hi; simp [h, h2, mget, Ne.symm h]
        · simp [h, h2, mget, hi, ih]

theorem mget_mdel {β : Type} (d : Nat → β) (m : SMap β) (k i : Nat) :
    mget d (mdel k m) i = if i = k then d k else mget d m i := by
  induction m with
  | nil => by_cases hi : i = k <;> simp [mdel, mget, hi]
  | cons e m ih =>
    obtain ⟨j, w⟩ := e
    simp only [mdel]
    by_cases h : k = j
    · subst h
      rw [if_pos rfl, ih]
      by_cases hi : i = k <;> simp [mget, hi]
    · by_cases hi : i = j
      · subst hi; simp [h, mget, Ne.symm h]
      · simp [h, mget, hi, ih]

/-- Reading a sparse map after a write. -/
theorem mget_mset {β : Type} [DecidableEq β] (d : Nat → β) (m : SMap β) (k i : Nat) (v : β) :
    mget d (mset d m k v) i = if i = k then v else mget d m i := by
  unfold mset
  split
  · next h => rw [mget_mdel, ← h]
  · rw [mget_mins]

/-- A lower bound below every key keeps a sorted map sorted. -/
theorem msorted_weaken {β : Type} (b c : Nat) (m : SMap β) (h : c ≤ b) (hs : msorted (some b) m = true) :
    msorted (some c) m = true := by
  cases m with
  | nil => rfl
  | cons e m =>
    obtain ⟨j, w⟩ := e
    simp only [msorted, Bool.and_eq_true, decide_eq_true_eq] at *
    exact ⟨by omega, hs.2⟩

theorem msorted_none {β : Type} (b : Nat) (m : SMap β) (hs : msorted (some b) m = true) : msorted none m = true := by
  cases m with
  | nil => rfl
  | cons e m => obtain ⟨j, w⟩ := e; simp [msorted] at *; exact hs.2

theorem msorted_mdel {β : Type} (k : Nat) (m : SMap β) :
    ∀ b, msorted b m = true → msorted b (mdel k m) = true := by
  induction m with
  | nil => intro b h; cases b <;> rfl
  | cons e m ih =>
    obtain ⟨j, w⟩ := e
    intro b h
    simp only [mdel]
    split
    · cases b with
      | none => exact msorted_none j _ (ih _ h)
      | some c => simp [msorted] at h; exact msorted_weaken j c _ (by omega) (ih _ h.2)
    · cases b with
      | none => simp [msorted] at *; exact ih _ h
      | some c => simp [msorted] at *; exact ⟨h.1, ih _ h.2⟩

theorem msorted_mins {β : Type} (k : Nat) (v : β) (m : SMap β) :
    ∀ b, msorted b m = true → (∀ c, b = some c → c < k) → msorted b (mins k v m) = true := by
  induction m with
  | nil => intro b _ hb; cases b <;> simp [mins, msorted]; exact hb _ rfl
  | cons e m ih =>
    obtain ⟨j, w⟩ := e
    intro b h hb
    simp only [mins]
    split
    · next hkj =>
      subst hkj
      cases b <;> simp [msorted] at * <;> exact h
    · split
      · next hne hlt =>
        cases b <;> simp [msorted] at *
        · exact ⟨hlt, h⟩
        · exact ⟨hb, hlt, h.2⟩
      · next hne hnlt =>
        cases b <;> simp [msorted] at *
        · exact ih _ h (by intro c hc; simp at hc; omega)
        · exact ⟨h.1, ih _ h.2 (by intro c hc; simp at hc; omega)⟩

theorem mem_mins {β : Type} (k : Nat) (v : β) (m : SMap β) (e : Nat × β) (h : e ∈ mins k v m) : e = (k, v) ∨ e ∈ m := by
  induction m with
  | nil => simpa [mins] using h
  | cons f m ih =>
    obtain ⟨j, w⟩ := f
    simp only [mins] at h
    split at h
    · simp at h ⊢; tauto
    · split at h
      · simp at h ⊢; tauto
      · simp at h ⊢
        rcases h with h | h
        · tauto
        · have := ih h; tauto

theorem mem_mdel {β : Type} (k : Nat) (m : SMap β) (e : Nat × β) (h : e ∈ mdel k m) : e ∈ m := by
  induction m with
  | nil => simp [mdel] at h
  | cons f m ih =>
    obtain ⟨j, w⟩ := f
    simp only [mdel] at h
    split at h
    · simp; right; exact ih h
    · simp at h ⊢
      rcases h with h | h
      · tauto
      · have := ih h; tauto

/-- A write keeps the canonical form. -/
theorem mwf_mset {β : Type} [DecidableEq β] (d : Nat → β) (m : SMap β) (k : Nat) (v : β) (h : mwf d m = true) :
    mwf d (mset d m k v) = true := by
  simp only [mwf, Bool.and_eq_true, List.all_eq_true, decide_eq_true_eq] at *
  unfold mset
  split
  · exact ⟨msorted_mdel k m _ h.1, fun e he => h.2 e (mem_mdel k m e he)⟩
  · next hv =>
    refine ⟨msorted_mins k v m _ h.1 (by simp), fun e he => ?_⟩
    rcases mem_mins k v m e he with rfl | hm
    · exact hv
    · exact h.2 e hm

/-- Equal contents in canonical form are equal lists. -/
theorem mget_of_lt {β : Type} (d : Nat → β) (m : SMap β) (b i : Nat) (h : msorted (some b) m = true) (hi : i ≤ b) :
    mget d m i = d i := by
  induction m generalizing b with
  | nil => rfl
  | cons e m ih =>
    obtain ⟨j, w⟩ := e
    simp [msorted] at h
    simp only [mget]
    rw [if_neg (by omega)]
    exact ih j h.2 (by omega)

/-! ### Registers and their fields -/

theorem reg_setReg (s : State) (b i : Nat) (v : Word64) :
    (s.setReg b v).reg i = if i = b then v else s.reg i := mget_mset _ _ _ _ _

theorem act_setAct (s : State) (b i : Nat) (v : Word64) :
    (s.setAct b v).act i = if i = b then v else s.act i := mget_mset _ _ _ _ _

theorem reg_put (s : State) (f : Fref) (n i : Nat) :
    (s.put f n).reg i = if i = f.off then BitVec.ofNat 64 (putBits (s.reg f.off).toNat f.lo f.w n) else s.reg i :=
  reg_setReg _ _ _ _

/-- A register that a field write does not name is kept. -/
theorem reg_put_ne (s : State) (f : Fref) (n i : Nat) (h : i ≠ f.off) : (s.put f n).reg i = s.reg i := by
  rw [reg_put, if_neg h]

/-- A field reads back as written, within its width. -/
theorem get_put (s : State) (f : Fref) (n : Nat) (h : f.lo + f.w ≤ 64) : (s.put f n).get f = n % 2 ^ f.w := by
  unfold State.get
  rw [reg_put, if_pos rfl, BitVec.toNat_ofNat, Nat.mod_eq_of_lt (putBits_lt _ _ _ _ (s.reg f.off).isLt h), bitsOf_putBits]

/-- A field of another register is kept. -/
theorem get_put_ne (s : State) (f g : Fref) (n : Nat) (h : g.off ≠ f.off) : (s.put f n).get g = s.get g := by
  unfold State.get
  rw [reg_put_ne _ _ _ _ h]

/-- A disjoint field of the same register is kept. -/
theorem get_put_disjoint (s : State) (f g : Fref) (n : Nat) (hw : f.lo + f.w ≤ 64)
    (h : g.lo + g.w ≤ f.lo ∨ f.lo + f.w ≤ g.lo) : (s.put f n).get g = s.get g := by
  by_cases ho : g.off = f.off
  · unfold State.get
    rw [reg_put, if_pos ho, BitVec.toNat_ofNat, Nat.mod_eq_of_lt (putBits_lt _ _ _ _ (s.reg f.off).isLt hw), ho]
    rcases h with h | h
    · exact bitsOf_putBits_below _ _ _ _ _ _ h
    · exact bitsOf_putBits_above _ _ _ _ _ _ h
  · exact get_put_ne _ _ _ _ ho

theorem get_bump (s : State) (f : Fref) (n : Nat) (h : f.lo + f.w ≤ 64) :
    (s.bump f n).get f = satN f.w (s.get f + n) := by
  unfold State.bump
  rw [get_put _ _ _ h, Nat.mod_eq_of_lt]
  have := Nat.two_pow_pos f.w
  unfold satN
  omega

theorem get_drop (s : State) (f : Fref) (n : Nat) (h : f.lo + f.w ≤ 64) :
    (s.drop f n).get f = s.get f - n := by
  unfold State.drop
  rw [get_put _ _ _ h, Nat.mod_eq_of_lt]
  have : s.get f < 2 ^ f.w := bitsOf_lt _ _ _
  omega

/-- A field write changes the register file only. -/
theorem put_only_regs (s : State) (f : Fref) (n : Nat) : s.put f n = { s with regs := (s.put f n).regs } := rfl

end Sys2Proof.Machine
end

