-- ==== Sys2Proof/Laws/Reports.lean ====
section
/-!
SUPPORT. The shared report operations: counters, messages, trace events, safety and security events touch registers and
reports only.
-/

namespace Sys2Proof.Machine

@[simp] theorem still_setReg (s : State) (b : Nat) (v : Word64) : (s.setReg b v).still = s.still := (rfl)
@[simp] theorem still_put (s : State) (f : Fref) (n : Nat) : (s.put f n).still = s.still := (rfl)
@[simp] theorem still_bump (s : State) (f : Fref) (n : Nat) : (s.bump f n).still = s.still := (rfl)
@[simp] theorem still_drop (s : State) (f : Fref) (n : Nat) : (s.drop f n).still = s.still := (rfl)
@[simp] theorem still_trace (s : State) (x : TraceSt) : ({ s with trace := x } : State).still = s.still := (rfl)
@[simp] theorem still_out (s : State) (x : Outputs) : ({ s with out := x } : State).still = s.still := (rfl)
@[simp] theorem still_pcie (s : State) (x : PcieSt) : ({ s with pcie := x } : State).still = s.still := (rfl)
@[simp] theorem still_shadow (s : State) (x : SMap Word64) : ({ s with shadow := x } : State).still = s.still := (rfl)
@[simp] theorem still_fresh_pwr (s : State) (n : Nat) (x : PwrSt) : ({ s with fresh := n, pwr := x } : State).still = s.still := (rfl)
@[simp] theorem still_freshen (s : State) (n : Nat) : (s.freshen n).still = s.still := (rfl)

theorem still_foldl {α : Type} (f : State → α → State) (hf : ∀ t a, (f t a).still = t.still) (l : List α) :
    ∀ s, (l.foldl f s).still = s.still := by
  induction l with
  | nil => intro s; rfl
  | cons a l ih => intro s; exact (ih (f s a)).trans (hf s a)

@[simp] theorem still_msix (s : State) (fn v : Nat) : (s.msix fn v).still = s.still := by
  unfold State.msix
  split_ifs <;> simp

@[simp] theorem still_pfIrq (s : State) (a b : Fref) : (s.pfIrq a b).still = s.still := by
  unfold State.pfIrq
  split_ifs <;> simp

@[simp] theorem still_fnEvt (s : State) (fn bit : Nat) : (s.fnEvt fn bit).still = s.still := by
  simp only [State.fnEvt]
  split_ifs <;> simp

@[simp] theorem still_accTime (s : State) : s.accTime.still = s.still := by
  have hf : ∀ (t : State) (g : Nat → State → State) (l : List Nat), (∀ i u, (g i u).still = u.still) →
      (l.foldl (fun s i => g i s) t).still = t.still := fun t g l hg => still_foldl _ (fun u i => hg i u) l t
  simp only [State.accTime, apply_ite State.still]
  split
  · rfl
  · refine Eq.trans (still_fresh_pwr _ _ _) (still_foldl _ ?_ _ s)
    intro t a
    simp only [still_bump, apply_ite State.still, ite_self]

@[simp] theorem still_snapshot (s : State) : s.snapshot.still = s.still := by
  simp only [State.snapshot]
  split_ifs <;> simp

@[simp] theorem still_trigFire (s : State) (t : Nat) (e : Event) : (s.trigFire t e).still = s.still := by
  simp only [State.trigFire, apply_ite State.still, still_put, still_pfIrq, still_snapshot, still_trace, ite_self]

@[simp] theorem still_emit (s : State) (e : Event) : (s.emit e).still = s.still := by
  have hf : ∀ u : State, ((List.range 4).foldl (fun s t => if s.trigMatch t e then s.trigFire t e else s) u).still = u.still :=
    still_foldl _ (fun t a => by split_ifs <;> simp) _
  simp only [State.emit, apply_ite State.still, still_bump, still_trace, hf, ite_self]

@[simp] theorem still_emitPlain (s : State) (i k a b : Nat) : (s.emitPlain i k a b).still = s.still := still_emit _ _
@[simp] theorem still_emitError (s : State) (i b v : Nat) : (s.emitError i b v).still = s.still := still_emit _ _

@[simp] theorem still_emitDesc (s : State) (d : Desc) (i k st a b : Nat) : (s.emitDesc d i k st a b).still = s.still := by
  unfold State.emitDesc
  split_ifs <;> simp

@[simp] theorem still_refreshSafe (s : State) : s.refreshSafe.still = s.still := (rfl)

@[simp] theorem still_startDump (s : State) (c i d : Nat) : (s.startDump c i d).still = s.still := by
  unfold State.startDump
  split_ifs <;> simp

@[simp] theorem still_safetyReact (s : State) (code react isl detail : Nat) (inj : Bool) :
    (s.safetyReact code react isl detail inj).still = s.still := by
  simp only [State.safetyReact, apply_ite State.still, still_refreshSafe, still_put, still_bump, still_pfIrq, still_out,
    still_startDump, still_emitPlain, ite_self]

@[simp] theorem still_safety (s : State) (code isl detail : Nat) (inj : Bool) :
    (s.safety code isl detail inj).still = s.still := still_safetyReact _ _ _ _ _ _

@[simp] theorem still_secEvent (s : State) (off : Nat) (rq : Requester) (k i : Nat) :
    (s.secEvent off rq k i).still = s.still := by
  simp only [State.secEvent, still_emitError, still_put, still_bump]

@[simp] theorem still_unmapped (s : State) : s.unmapped.still = s.still := (rfl)

@[simp] theorem still_srwLog (s : State) (rq : Requester) (b o m : Nat) : (s.srwLog rq b o m).still = s.still := by
  unfold State.srwLog
  split_ifs <;> simp

/-- States that agree when still have the same memories. -/
theorem mem_of_still {s t : State} (h : t.still = s.still) :
    t.mem = s.mem ∧ t.tags = s.tags ∧ t.ecc = s.ecc ∧ t.host = s.host := by
  refine ⟨?_, ?_, ?_, ?_⟩
  · show t.still.mem = s.still.mem; rw [h]
  · show t.still.tags = s.still.tags; rw [h]
  · show t.still.ecc = s.still.ecc; rw [h]
  · show t.still.host = s.still.host; rw [h]

end Sys2Proof.Machine
end

