-- ==== Sys2Proof/Laws/Access.lean ====
section
/-!
SUPPORT. The gates in front of a register write, and a write by access types field by field.
-/

namespace Sys2Proof.Machine

theorem srwLog_eq (s : State) (rq : Requester) (b o m : Nat) (h : openFields b = true) : s.srwLog rq b o m = s := by
  unfold State.srwLog
  rw [if_neg]
  intro hc
  simp at hc
  obtain ⟨_, f, hf, h1, _⟩ := hc
  have := List.all_eq_true.mp h f hf
  simp [h1] at this

/-- What the gate does to an access that it lets through. -/
theorem guarded_eq (s : State) (rq : Requester) (off : Nat) (f : State → State) (h : s.opens rq off = true)
    (ho : openFields off = true) : s.guarded rq off f = f s := by
  unfold State.opens at h
  simp only [Bool.and_eq_true] at h
  obtain ⟨⟨⟨h1, h2⟩, h3⟩, h4⟩ := h
  unfold State.guarded
  rw [h1, h3]
  have hsh : s.shut rq off = none := by simpa using h4
  cases rq with
  | fn n =>
    simp at h2
    subst h2
    simp [hsh, srwLog_eq _ _ _ _ _ ho]
  | debug => simp [hsh, srwLog_eq _ _ _ _ _ ho]
  | keeper => simp [hsh, srwLog_eq _ _ _ _ _ ho]
  | lantern => simp [hsh, srwLog_eq _ _ _ _ _ ho]

/-- What the gate of a function's view does to an access that it lets through. -/
theorem guardedView_eq (s : State) (rq : Requester) (off i : Nat) (idx : Option Nat) (f : Nat → State → State)
    (hr : s.reaches rq = true) (hb : s.resetting rq = false) (hi : idx = some i) (ha : s.answers off = true) :
    s.guardedView rq off idx f = f i s := by
  unfold State.guardedView
  subst hi
  rw [hr, ha]
  cases rq <;> simp_all [State.resetting]

end Sys2Proof.Machine
end

