-- ==== Sys2Proof/Laws/Events.lean ====
section
/-!
SUPPORT. Which registers the shared report operations can change: messages none, trace events those of block DBG.
-/

namespace Sys2Proof.Machine

/-- Registers outside block DBG. -/
def notDbg (b : Nat) : Prop := b < 0x1500000 ∨ 0x1600000 ≤ b

@[simp] theorem reg_msix (s : State) (fn v b : Nat) : (s.msix fn v).reg b = s.reg b := by
  unfold State.msix; split_ifs <;> rfl
@[simp] theorem reg_pfIrq (s : State) (x y : Fref) (b : Nat) : (s.pfIrq x y).reg b = s.reg b := by
  unfold State.pfIrq; split_ifs <;> simp

theorem reg_foldl {α : Type} (f : State → α → State) (b : Nat) (l : List α) (hf : ∀ t a, a ∈ l → (f t a).reg b = t.reg b) :
    ∀ s, (l.foldl f s).reg b = s.reg b := by
  induction l with
  | nil => intro s; rfl
  | cons a l ih => intro s; exact (ih (fun t x hx => hf t x (List.mem_cons_of_mem _ hx)) (f s a)).trans (hf s a List.mem_cons_self)

theorem reg_bump_ne (s : State) (f : Fref) (n b : Nat) (h : b ≠ f.off) : (s.bump f n).reg b = s.reg b := reg_put_ne _ _ _ _ h
theorem reg_drop_ne (s : State) (f : Fref) (n b : Nat) (h : b ≠ f.off) : (s.drop f n).reg b = s.reg b := reg_put_ne _ _ _ _ h

theorem reg_accTime (s : State) (b : Nat) (h : notDbg b) : s.accTime.reg b = s.reg b := by
  simp only [State.accTime]
  split
  · rfl
  · refine Eq.trans (b := ((List.range 38).foldl _ s).reg b) rfl (reg_foldl _ b _ ?_ s)
    intro t i hi
    have hi : i < 38 := List.mem_range.mp hi
    rw [reg_bump_ne _ _ _ _ (by simp only [DBG_ISL_W2_ENERGY_UJ, DBG_ISL_W2]; unfold notDbg at h; omega)]
    split_ifs
    · rw [reg_bump_ne _ _ _ _ (by simp only [DBG_ISL_W1_GATED_NS, DBG_ISL_W1]; unfold notDbg at h; omega)]
    · rfl
    · rw [reg_bump_ne _ _ _ _ (by simp only [DBG_ISL_W0_CLK_ON_NS, DBG_ISL_W0]; unfold notDbg at h; omega)]

theorem reg_snapshot (s : State) (b : Nat) (h : notDbg b) : s.snapshot.reg b = s.reg b := by
  simp only [State.snapshot]
  split
  · exact reg_bump_ne _ _ _ _ (by simp only [DBG_SNAP_MISSED_COUNT, DBG_SNAP_MISSED]; unfold notDbg at h; omega)
  · rw [reg_put_ne _ _ _ _ (by simp only [DBG_SNAP_TIME_TIME, DBG_SNAP_TIME]; unfold notDbg at h; omega),
      reg_put_ne _ _ _ _ (by simp only [DBG_SNAP_CTL_HELD, DBG_SNAP_CTL]; unfold notDbg at h; omega)]
    exact reg_accTime s b h

theorem reg_putDbg (s : State) (f : Fref) (n b : Nat) (h : notDbg b) (hf : 0x1500000 ≤ f.off ∧ f.off < 0x1600000) :
    (s.put f n).reg b = s.reg b := reg_put_ne _ _ _ _ (by unfold notDbg at h; omega)

theorem reg_trigFire (s : State) (t : Nat) (e : Event) (b : Nat) (h : notDbg b) : (s.trigFire t e).reg b = s.reg b := by
  have hp : ∀ (s : State) (x : TraceSt), ({ s with trace := x } : State).reg b = s.reg b := fun _ _ => rfl
  have h1 : ∀ (s : State) (n : Nat), (s.put DBG_TRIG_STAT_HIT n).reg b = s.reg b := fun s n => reg_putDbg s _ _ b h (by decide)
  have h2 : ∀ (s : State) (n : Nat), (s.put DBG_TRIG_STAT_TRIG_IDX n).reg b = s.reg b := fun s n => reg_putDbg s _ _ b h (by decide)
  have h3 : ∀ (s : State) (n : Nat), (s.put DBG_TRIG_TIME_TRIG_TIME n).reg b = s.reg b := fun s n => reg_putDbg s _ _ b h (by decide)
  have h4 : ∀ (s : State) (n : Nat), (s.put DBG_TRIG_STAT_FIRST n).reg b = s.reg b := fun s n => reg_putDbg s _ _ b h (by decide)
  have h5 : ∀ (s : State) (n : Nat), (s.put DBG_TRACE_STAT_FROZEN n).reg b = s.reg b := fun s n => reg_putDbg s _ _ b h (by decide)
  have h6 : ∀ (s : State) (n : Nat), (s.put DBG_IRQ_TRIG n).reg b = s.reg b := fun s n => reg_putDbg s _ _ b h (by decide)
  simp only [State.trigFire, apply_ite (fun u : State => u.reg b), hp, h1, h2, h3, h4, h5, h6, reg_pfIrq,
    reg_snapshot _ _ h, ite_self]

/-- An event changes registers of block DBG only. -/
theorem reg_emit (s : State) (e : Event) (b : Nat) (h : notDbg b) : (s.emit e).reg b = s.reg b := by
  have hp : ∀ (s : State) (x : TraceSt), ({ s with trace := x } : State).reg b = s.reg b := fun _ _ => rfl
  have hl : ∀ (s : State) (n : Nat), (s.bump DBG_TRACE_LOST_COUNT n).reg b = s.reg b := fun s n => reg_putDbg s _ _ b h (by decide)
  have hf : ∀ u : State, ((List.range 4).foldl (fun s t => if s.trigMatch t e then s.trigFire t e else s) u).reg b = u.reg b :=
    reg_foldl _ b _ (fun t a _ => by split_ifs <;> simp [reg_trigFire _ _ _ _ h])
  simp only [State.emit, apply_ite (fun u : State => u.reg b), hp, hl, hf, ite_self]

theorem reg_emitPlain (s : State) (isl k x y b : Nat) (h : notDbg b) : (s.emitPlain isl k x y).reg b = s.reg b := reg_emit _ _ _ h
theorem reg_emitDesc (s : State) (d : Desc) (isl k st x y b : Nat) (h : notDbg b) : (s.emitDesc d isl k st x y).reg b = s.reg b := by
  unfold State.emitDesc; split_ifs
  · rfl
  · exact reg_emit _ _ _ h
theorem reg_emitError (s : State) (isl k y b : Nat) (h : notDbg b) : (s.emitError isl k y).reg b = s.reg b := reg_emit _ _ _ h
theorem get_of_reg {s t : State} {f : Fref} (h : t.reg f.off = s.reg f.off) : t.get f = s.get f := by
  unfold State.get; rw [h]
/-- Registers outside block SAF. -/
def notSaf (b : Nat) : Prop := b < 0xE00000 ∨ 0xF00000 ≤ b

theorem reg_startDump (s : State) (c i d b : Nat) (h : notDbg b) : (s.startDump c i d).reg b = s.reg b := by
  unfold State.startDump
  split_ifs
  · rfl
  · exact reg_putDbg _ _ _ b h (by decide)
  · rfl

/-- A safety event changes registers of blocks SAF and DBG only. -/
theorem reg_safetyReact (s : State) (code react isl detail : Nat) (inj : Bool) (b : Nat) (hc : code < 64) (h : notDbg b)
    (hs : notSaf b) : (s.safetyReact code react isl detail inj).reg b = s.reg b := by
  have hp : ∀ (u : State) (f : Fref) (n : Nat), 0xE00000 ≤ f.off ∧ f.off < 0xF00000 → (u.put f n).reg b = u.reg b :=
    fun u f n hf => reg_put_ne _ _ _ _ (by unfold notSaf at hs; omega)
  have ho : ∀ (u : State) (x : Outputs), ({ u with out := x } : State).reg b = u.reg b := fun _ _ => rfl
  have hl : ∀ (u : State) (l0 l1 : Nat) (n1 n2 n3 n4 n5 : Nat), 0xE00000 ≤ l0 ∧ l0 < 0xF00000 → 0xE00000 ≤ l1 ∧ l1 < 0xF00000 →
      (((((u.put ⟨l0, 0, 5⟩ n1).put ⟨l0, 5, 1⟩ n2).put ⟨l0, 6, 6⟩ n3).put ⟨l0, 32, 32⟩ n4).put ⟨l1, 0, 64⟩ n5).reg b = u.reg b := by
    intro u l0 l1 n1 n2 n3 n4 n5 h0 h1
    rw [hp _ _ _ h1, hp _ _ _ h0, hp _ _ _ h0, hp _ _ _ h0, hp _ _ _ h0]
  have hr : ∀ u : State, u.refreshSafe.reg b = u.reg b := by
    intro u
    exact (ho _ _).trans (hp u SAF_STATUS_SAFE_REQ _ (by decide))
  have h1 : ∀ (u : State) (n : Nat), (u.put ⟨SAF_EVT, code, 1⟩ n).reg b = u.reg b := fun u n => hp u _ n (by show 0xE00000 ≤ SAF_EVT ∧ SAF_EVT < 0xF00000; decide)
  have h2 : ∀ (u : State) (n : Nat), (u.bump (SAF_CNT_COUNT code) n).reg b = u.reg b :=
    fun u n => hp u _ _ (by simp only [SAF_CNT_COUNT, SAF_CNT]; omega)
  have h3 : ∀ (u : State) (n : Nat), (u.put SAF_STATUS_FAULT n).reg b = u.reg b := fun u n => hp u _ n (by decide)
  have h4 := fun (u : State) (a b c d e : Nat) => hl u SAF_EVT_LOG0 SAF_EVT_LOG1 a b c d e (by decide) (by decide)
  have h5 := fun (u : State) (a b c d e : Nat) => hl u SAF_FIRST_LOG0 SAF_FIRST_LOG1 a b c d e (by decide) (by decide)
  simp only [State.safetyReact, apply_ite (fun u : State => u.reg b), hr, ho, h1, h2, h3, h4, h5, reg_pfIrq,
    reg_startDump _ _ _ _ _ h, reg_emitPlain _ _ _ _ _ _ h, ite_self]

theorem reg_safety (s : State) (code isl detail : Nat) (inj : Bool) (b : Nat) (hc : code < 64) (h : notDbg b) (hs : notSaf b) :
    (s.safety code isl detail inj).reg b = s.reg b := reg_safetyReact _ _ _ _ _ _ _ hc h hs

end Sys2Proof.Machine
end

