-- ==== Sys2Proof/Laws/Memory.lean ====
section
/-!
SUPPORT. The canonical form of the memories: every operation that writes them keeps it, and the machine starts with it;
what a byte reads after a byte string has been stored.
-/

namespace Sys2Proof.Machine

/-! ### Sorted maps as pairwise rising keys -/

theorem msorted_iff {β : Type} (m : SMap β) : ∀ b : Option Nat,
    msorted b m = true ↔ m.Pairwise (fun x y => x.1 < y.1) ∧ ∀ c, b = some c → ∀ x ∈ m, c < x.1 := by
  induction m with
  | nil => intro b; cases b <;> simp [msorted]
  | cons e m ih =>
    obtain ⟨j, w⟩ := e
    intro b
    cases b with
    | none => simp [msorted, ih]; tauto
    | some c =>
      simp [msorted, ih]
      constructor
      · rintro ⟨h1, h2, h3⟩
        exact ⟨⟨h3, h2⟩, h1, fun a b hab => lt_trans h1 (h3 a b hab)⟩
      · rintro ⟨⟨h1, h2⟩, h3, _⟩
        exact ⟨h3, h2, h1⟩

theorem mwf_iff {β : Type} [DecidableEq β] (d : Nat → β) (m : SMap β) :
    mwf d m = true ↔ m.Pairwise (fun x y => x.1 < y.1) ∧ ∀ e ∈ m, e.2 ≠ d e.1 := by
  simp [mwf, msorted_iff]

theorem mwf_mclear {β : Type} [DecidableEq β] (d : Nat → β) (lo hi : Nat) (m : SMap β) (h : mwf d m = true) :
    mwf d (mclear lo hi m) = true := by
  rw [mwf_iff] at *
  exact ⟨h.1.filter _, fun e he => h.2 e (List.mem_of_mem_filter he)⟩

theorem mwf_mfill {β : Type} [DecidableEq β] (d : Nat → β) (lo n : Nat) (v : β) (m : SMap β) (h : mwf d m = true) :
    mwf d (mfill d lo n v m) = true := by
  rw [mwf_iff] at *
  unfold mfill
  constructor
  · rw [List.pairwise_append, List.pairwise_append]
    refine ⟨⟨h.1.filter _, ?_, ?_⟩, h.1.filter _, ?_⟩
    · refine List.Pairwise.filter _ ?_
      rw [List.pairwise_map]
      exact List.Pairwise.imp (fun hab => by simpa using hab) (List.pairwise_lt_range)
    · intro x hx y hy
      simp at hx hy
      obtain ⟨⟨i, hi, rfl⟩, _⟩ := hy
      simp; omega
    · intro x hx y hy
      simp at hx hy
      rcases hx with hx | ⟨⟨i, hi, rfl⟩, _⟩ <;> (try simp) <;> omega
  · intro e he
    simp at he
    rcases he with he | he | he
    · exact h.2 e he.1
    · exact he.2
    · exact h.2 e he.1

theorem mwf_moveRange {β : Type} [DecidableEq β] (v : β) (src dst len : Nat) (m : SMap β) (h : mwf (fun _ => v) m = true) :
    mwf (fun _ => v) (moveRange src dst len m) = true := by
  rw [mwf_iff] at *
  unfold moveRange
  constructor
  · rw [List.pairwise_append, List.pairwise_append]
    refine ⟨⟨h.1.filter _, ?_, ?_⟩, h.1.filter _, ?_⟩
    · rw [List.pairwise_map]
      have hp : (m.filter (fun e => src ≤ e.1 && e.1 < src + len)).Pairwise (fun x y => x.1 < y.1) := h.1.filter _
      refine hp.imp_of_mem ?_
      intro a b ha hb hab
      simp at ha hb
      simp; omega
    · intro x hx y hy
      simp at hx hy
      obtain ⟨a, b, ⟨_, h1, h2⟩, rfl⟩ := hy
      simp; omega
    · intro x hx y hy
      simp at hx hy
      rcases hx with hx | ⟨a, b, ⟨_, h1, h2⟩, rfl⟩ <;> (try simp) <;> omega
  · intro e he
    simp at he
    rcases he with he | ⟨a, b, ⟨hm, _⟩, rfl⟩ | he
    · exact h.2 e he.1
    · exact h.2 (a, b) hm
    · exact h.2 e he.1

/-! ### Byte strings -/

theorem wf_storeBytes (bs : List Byte) : ∀ (m : List Host.Cell) (a : Nat), Memory.wf m = true →
    Memory.wf (storeBytes m a bs) = true := by
  induction bs with
  | nil => intro m a h; exact h
  | cons b bs ih => intro m a h; exact ih _ _ (mwf_mset _ _ _ _ h)

/-- What a byte reads after a store: the byte stored there, or what it read before. -/
theorem mget_storeBytes (bs : List Byte) : ∀ (m : List Host.Cell) (a i : Nat),
    mget memDefault (storeBytes m a bs) i = if a ≤ i ∧ i < a + bs.length then bs.getD (i - a) 0 else mget memDefault m i := by
  induction bs with
  | nil => intro m a i; simp [storeBytes]
  | cons b bs ih =>
    intro m a i
    simp only [storeBytes, ih, mget_mset, List.length_cons]
    by_cases h : i = a
    · subst h
      simp
    · by_cases h2 : a + 1 ≤ i ∧ i < a + 1 + bs.length
      · have e : i - a = (i - (a + 1)) + 1 := by omega
        rw [if_pos h2, if_pos (by omega), e, List.getD_cons_succ]
      · rw [if_neg h2, if_neg h, if_neg (by omega)]

theorem wf_writeLine (h : List Host.Cell) (l : DirtyLine) (hw : Memory.wf h = true) : Memory.wf (writeLine h l) = true :=
  wf_storeBytes _ _ _ hw

/-! ### The machine's memory operations -/

/-- The canonical form of all that the state holds by address. -/
def MemoriesWf (s : State) : Prop :=
  Memory.wf s.mem = true ∧ mwf tagDefault s.tags = true ∧ mwf eccDefault s.ecc = true ∧ Memory.wf s.host = true

theorem reset_wf : MemoriesWf State.reset := ⟨rfl, rfl, rfl, rfl⟩

theorem memoriesWf_of_eq {s t : State} (h : t.mem = s.mem ∧ t.tags = s.tags ∧ t.ecc = s.ecc ∧ t.host = s.host)
    (hs : MemoriesWf s) : MemoriesWf t := by
  obtain ⟨h1, h2, h3, h4⟩ := h
  unfold MemoriesWf at *
  rwa [h1, h2, h3, h4]

theorem memoriesWf_of_still {s t : State} (h : t.still = s.still) (hs : MemoriesWf s) : MemoriesWf t :=
  memoriesWf_of_eq (mem_of_still h) hs

theorem memoriesWf_setTag (s : State) (k n : Nat) (h : MemoriesWf s) : MemoriesWf (s.setTag k n) :=
  ⟨h.1, mwf_mset _ _ _ _ h.2.1, h.2.2.1, h.2.2.2⟩

theorem memoriesWf_setEcc (s : State) (k : Nat) (e : Option EccErr) (h : MemoriesWf s) : MemoriesWf (s.setEcc k e) :=
  ⟨h.1, h.2.1, mwf_mset _ _ _ _ h.2.2.1, h.2.2.2⟩

@[simp] theorem still_memLog (s : State) (r : MReq) (st a : Nat) : (s.memLog r st a).still = s.still := by
  simp only [State.memLog]
  split_ifs <;> simp

@[simp] theorem still_refuseAccess (s : State) (r : MReq) (st a : Nat) : (s.refuseAccess r st a).still = s.still := by
  simp only [State.refuseAccess]
  split_ifs <;> simp

@[simp] theorem still_countCorr (s : State) (a : Nat) : (s.countCorr a).still = s.still := by
  unfold State.countCorr
  split <;> simp

theorem memoriesWf_bump (s : State) (f : Fref) (n : Nat) (h : MemoriesWf s) : MemoriesWf (s.bump f n) :=
  memoriesWf_of_eq ⟨rfl, rfl, rfl, rfl⟩ h

theorem memoriesWf_transient (s : State) (k : Nat) (h : MemoriesWf s) : MemoriesWf (s.transient k) := h

theorem memoriesWf_countUncorr (s : State) (r : MReq) (a : Nat) (e : EccErr) (h : MemoriesWf s) :
    MemoriesWf (s.countUncorr r a e) := by
  have hl : MemoriesWf (s.memLog r 0x23 a) := memoriesWf_of_still (still_memLog _ _ _ _) h
  simp only [State.countUncorr]
  generalize s.memLog r 0x23 a = u at hl
  have step : ∀ (v : State), MemoriesWf v → ∀ c i d b,
      MemoriesWf (if c = 2 then v.safety 13 i d b else v) := by
    intro v hv c i d b
    split
    · exact memoriesWf_of_still (still_safety _ _ _ _ _) hv
    · exact hv
  have bank : ∀ (v : State), MemoriesWf v → ∀ k c i d b, MemoriesWf (if c = true then
      { v.safety 12 i d b with retired := v.retired ++ [k] } else v) := by
    intro v hv k c i d b
    split
    · have hw := memoriesWf_of_still (still_safety v 12 i d b) hv
      exact memoriesWf_of_eq ⟨rfl, rfl, rfl, rfl⟩ hw
    · exact hv
  apply step
  split
  · apply bank
    apply memoriesWf_transient
    split
    · exact memoriesWf_bump _ _ _ (memoriesWf_bump _ _ _ hl)
    · exact memoriesWf_bump _ _ _ hl
  · exact memoriesWf_bump _ _ _ hl
  · apply memoriesWf_transient
    apply memoriesWf_bump
    split
    · exact memoriesWf_bump _ _ _ (memoriesWf_bump _ _ _ hl)
    · exact memoriesWf_bump _ _ _ hl
  · exact hl

theorem memoriesWf_decodeCw (s : State) (r : MReq) (a : Nat) (h : MemoriesWf s) : MemoriesWf (s.decodeCw r a).1 := by
  unfold State.decodeCw
  split
  · exact h
  · split
    · exact memoriesWf_of_still (still_countCorr _ _) (memoriesWf_setEcc _ _ _ h)
    · exact memoriesWf_setTag _ _ _ (memoriesWf_setEcc _ _ _ (memoriesWf_countUncorr _ _ _ _ h))

/-- A fold over a list keeps the canonical form when each of its steps does. -/
theorem memoriesWf_foldl {β : Type} {f : State → β → State} (hf : ∀ u b, MemoriesWf u → MemoriesWf (f u b)) (l : List β) :
    ∀ u, MemoriesWf u → MemoriesWf (l.foldl f u) := by
  induction l with
  | nil => intro u hu; exact hu
  | cons x l ih => intro u hu; exact ih _ (hf _ _ hu)

theorem memoriesWf_countDdr (s : State) (wr : Bool) (a n : Nat) (h : MemoriesWf s) : MemoriesWf (s.countDdr wr a n) := by
  simp only [State.countDdr]
  split
  · refine memoriesWf_foldl ?_ _ s h
    intro u p hu
    exact memoriesWf_of_eq ⟨rfl, rfl, rfl, rfl⟩ hu
  · exact h

theorem memoriesWf_enqueue (s : State) (q : BusReq) (h : MemoriesWf s) : MemoriesWf (s.enqueue q) := by
  refine memoriesWf_foldl ?_ _ s h
  intro u p hu
  exact memoriesWf_of_eq ⟨rfl, rfl, rfl, rfl⟩ hu

theorem memoriesWf_issueReq (s : State) (q : BusReq) (now : Bool) (h : MemoriesWf s) : MemoriesWf (s.issueReq q now) := by
  simp only [State.issueReq]
  apply memoriesWf_enqueue
  split <;> split <;> exact h

theorem memoriesWf_refreshHeld (s : State) (p : Nat) (h : MemoriesWf s) : MemoriesWf (s.refreshHeld p) := by
  refine memoriesWf_foldl ?_ _ s h
  intro u c hu
  exact memoriesWf_of_eq ⟨rfl, rfl, rfl, rfl⟩ hu

theorem memoriesWf_holdReq (s : State) (q : BusReq) (h : MemoriesWf s) : MemoriesWf (s.holdReq q) := by
  simp only [State.holdReq]
  split
  · exact h
  · exact memoriesWf_refreshHeld _ _ h

theorem memoriesWf_charge (s : State) (r : MReq) (wr : Bool) (a n : Nat) (h : MemoriesWf s) :
    MemoriesWf (s.charge r wr a n).1 := by
  simp only [State.charge]
  split
  · split
    · exact memoriesWf_enqueue _ _ h
    · split
      · exact h
      · split
        · exact h
        · split
          · exact memoriesWf_issueReq _ _ _ h
          · exact memoriesWf_holdReq _ _ h
  · exact h

theorem memoriesWf_storeCws (r : MReq) (a n c : Nat) (o : Option Nat) (l : List Nat) :
    ∀ s, MemoriesWf s → MemoriesWf (s.storeCws r a n c o l) := by
  induction l with
  | nil => intro s h; exact h
  | cons x l ih =>
    intro s h
    simp only [State.storeCws]
    apply ih
    apply memoriesWf_setTag
    split
    · exact memoriesWf_setEcc _ _ _ h
    · exact memoriesWf_decodeCw _ _ _ h

/-- A checked write of local memory keeps the canonical form. -/
theorem memoriesWf_writeLocal (s : State) (r : MReq) (own : Bool) (a c : Nat) (bs : List Byte) (h : MemoriesWf s) :
    MemoriesWf (s.writeLocal r own a c bs).1 := by
  simp only [State.writeLocal]
  split
  · exact memoriesWf_of_still (still_refuseAccess _ _ _ _) h
  · split
    · exact memoriesWf_of_still (still_refuseAccess _ _ _ _) h
    · have hc := memoriesWf_charge s r true a bs.length h
      split
      · next u heq => rw [heq] at hc; exact hc
      · next u heq =>
        rw [heq] at hc
        apply memoriesWf_countDdr
        have hs := memoriesWf_storeCws r a bs.length c (if own = true then some (u.ownerTag r a) else none)
          (cwAddrs a bs.length) u hc
        exact ⟨wf_storeBytes _ _ _ hs.1, hs.2.1, hs.2.2.1, hs.2.2.2⟩

theorem memoriesWf_readCws (r : MReq) (l : List Nat) : ∀ s, MemoriesWf s → MemoriesWf (s.readCws r l).1 := by
  induction l with
  | nil => intro s h; exact h
  | cons x l ih =>
    intro s h
    have hd := memoriesWf_decodeCw s r x h
    simp only [State.readCws]
    split
    · exact hd
    · split
      · exact hd
      · exact ih _ hd

/-- A checked read of local memory keeps the canonical form. -/
theorem memoriesWf_readLocal (s : State) (r : MReq) (a n : Nat) (h : MemoriesWf s) : MemoriesWf (s.readLocal r a n).1 := by
  unfold State.readLocal
  split
  · exact memoriesWf_of_still (still_refuseAccess _ _ _ _) h
  · have hc := memoriesWf_charge s r false a n h
    split
    · next u heq => rw [heq] at hc; exact hc
    · next u heq =>
      rw [heq] at hc
      have hr := memoriesWf_readCws r (cwAddrs a n) u hc
      split <;> simp_all

theorem memoriesWf_flushDirty (s : State) (fn : Nat) (h : MemoriesWf s) : MemoriesWf (s.flushDirty fn) := by
  refine ⟨h.1, h.2.1, h.2.2.1, ?_⟩
  have : ∀ (l : List DirtyLine) (m : List Host.Cell), Memory.wf m = true → Memory.wf (l.foldl writeLine m) = true := by
    intro l
    induction l with
    | nil => intro m hm; exact hm
    | cons x l ih => intro m hm; exact ih _ (wf_writeLine _ _ hm)
  exact this _ _ h.2.2.2

theorem memoriesWf_markPage (s : State) (fn p : Nat) (h : MemoriesWf s) : MemoriesWf (s.markPage fn p) := by
  simp only [State.markPage]
  split
  · exact h
  · split
    · exact h
    · split
      · exact h
      · exact ⟨h.1, h.2.1, h.2.2.1, wf_writeLine _ _ h.2.2.2⟩

theorem memoriesWf_logDirty (s : State) (fn b n : Nat) (h : MemoriesWf s) : MemoriesWf (s.logDirty fn b n) := by
  simp only [State.logDirty]
  split
  · exact h
  · refine memoriesWf_foldl ?_ _ s h
    intro u i hu
    split
    · exact memoriesWf_markPage _ _ _ hu
    · exact hu

/-- A write of host memory keeps the canonical form. -/
theorem memoriesWf_hostWrite (s : State) (fn b : Nat) (bs : List Byte) (h : MemoriesWf s) :
    MemoriesWf (s.hostWrite fn b bs).1 := by
  unfold State.hostWrite
  split
  · exact h
  · apply memoriesWf_logDirty
    exact ⟨h.1, h.2.1, h.2.2.1, wf_storeBytes _ _ _ h.2.2.2⟩

@[simp] theorem still_wbrLog (s : State) (k c w i x a b : Nat) : (s.wbrLog k c w i x a b).still = s.still := by
  simp only [State.wbrLog]
  split_ifs <;> simp

theorem memoriesWf_readHost (s : State) (r : MReq) (a n : Nat) (h : MemoriesWf s) : MemoriesWf (s.readHost r a n).1 := by
  unfold State.readHost
  split
  · exact h
  · split
    · exact memoriesWf_of_still (still_wbrLog _ _ _ _ _ _ _ _) h
    · exact h

theorem memoriesWf_writeHost (s : State) (r : MReq) (a : Nat) (bs : List Byte) (h : MemoriesWf s) :
    MemoriesWf (s.writeHost r a bs).1 := by
  unfold State.writeHost
  split
  · exact h
  · next w bus _ =>
    have hw := memoriesWf_hostWrite s (s.get (WBR_WIN_W0_FUNC w)) bus (s.winBytes w bs) h
    simp only []
    split
    · exact hw
    · split
      · exact memoriesWf_of_still (still_wbrLog _ _ _ _ _ _ _ _) hw
      · exact hw

@[simp] theorem still_lnkFail (s : State) (a b c : Nat) : (s.lnkFail a b c).still = s.still := by
  simp only [State.lnkFail]
  simp

theorem memoriesWf_txPkt (s : State) (p : Nat) (k : LnkPkt) (h : MemoriesWf s) : MemoriesWf (s.txPkt p k) := by
  simp only [State.txPkt]
  split
  · exact h
  · split
    · exact h
    · exact h

theorem memoriesWf_peerIssue (s : State) (r : MReq) (op dev o u a b c : Nat) (bs : List Byte) (h : MemoriesWf s) :
    MemoriesWf (s.peerIssue r op dev o u a b c bs).1 := by
  unfold State.peerIssue
  split
  · exact memoriesWf_of_still (still_lnkFail _ _ _ _) h
  · apply memoriesWf_txPkt
    exact h

theorem memoriesWf_peerGather (r : MReq) (dev : Nat) (l : List (Nat × Nat)) :
    ∀ s, MemoriesWf s → MemoriesWf (s.peerGather r dev l).1 := by
  induction l with
  | nil => intro s h; exact h
  | cons x l ih =>
    obtain ⟨a, n⟩ := x
    intro s h
    have h1 := ih s h
    have h2 := memoriesWf_peerIssue s r 0 dev (a % 0x10000000000) (n / 32) 0 0 0 [] h
    simp only [State.peerGather]
    split
    · next p _ =>
      split
      · exact h
      · split
        · exact h
        · have h3 : MemoriesWf (match p.rx with
              | some x => s.readLocal r x n
              | none => (s, .ok p.data)).1 := by
            split
            · exact memoriesWf_readLocal _ _ _ _ h
            · exact h
          split
          · exact h3
          · have h4 := ih _ h3
            split
            · next heq =>
              have h5 := congrArg Prod.fst heq
              simp only at h5
              exact h5 ▸ h4
            · exact h4
    · split
      · split <;> simp_all
      · split
        · simp_all
        · next s' heq =>
          have h3 := ih s' (by rw [heq] at h2; exact h2)
          split <;> simp_all

theorem memoriesWf_readPeer (s : State) (r : MReq) (dev a n : Nat) (h : MemoriesWf s) :
    MemoriesWf (s.readPeer r dev a n).1 := by
  have h1 := memoriesWf_peerGather r dev (peerChunks a n) s h
  unfold State.readPeer
  split <;> simp_all

theorem memoriesWf_peerSend (r : MReq) (dev c : Nat) (l : List (Nat × Nat)) :
    ∀ bs s, MemoriesWf s → MemoriesWf (s.peerSend r dev c bs l).1 := by
  induction l with
  | nil => intro bs s h; exact h
  | cons x l ih =>
    obtain ⟨a, n⟩ := x
    intro bs s h
    have h2 := memoriesWf_peerIssue s r 1 dev (a % 0x10000000000) (n / 32) 0 0 c (bs.take n) h
    simp only [State.peerSend]
    split
    · simp_all
    · next s' heq => exact ih _ s' (by rw [heq] at h2; exact h2)

theorem memoriesWf_writePeer (s : State) (r : MReq) (dev c a : Nat) (bs : List Byte) (h : MemoriesWf s) :
    MemoriesWf (s.writePeer r dev c a bs).1 := by
  simp only [State.writePeer]
  split
  · exact memoriesWf_peerSend _ _ _ _ _ _ h
  · have h1 := memoriesWf_peerGather r dev (peerChunks a bs.length) s h
    split
    · next s' old heq => exact memoriesWf_peerSend _ _ _ _ _ _ (by rw [heq] at h1; exact h1)
    · simp_all

/-- The one read of every engine keeps the canonical form of the memories. -/
theorem memoriesWf_readMem (s : State) (r : MReq) (a n : Nat) (h : MemoriesWf s) : MemoriesWf (s.readMem r a n).1 := by
  unfold State.readMem
  split
  · exact h
  · split
    · exact h
    · split
      · exact memoriesWf_readHost _ _ _ _ h
      · exact memoriesWf_readPeer _ _ _ _ _ h
      · have h1 := memoriesWf_readLocal s r a n h
        split
        · next s' bs heq => exact memoriesWf_countDdr _ _ _ _ (by rw [heq] at h1; exact h1)
        · exact h1

/-- The one write of every engine keeps the canonical form of the memories. -/
theorem memoriesWf_writeMem (s : State) (r : MReq) (own : Bool) (c a : Nat) (bs : List Byte) (h : MemoriesWf s) :
    MemoriesWf (s.writeMem r own c a bs).1 := by
  unfold State.writeMem
  split
  · exact h
  · split
    · exact h
    · split
      · exact memoriesWf_writeHost _ _ _ _ h
      · exact memoriesWf_writePeer _ _ _ _ _ _ h
      · exact memoriesWf_writeLocal _ _ _ _ _ _ h

/-- Poisoning keeps the canonical form. -/
theorem memoriesWf_poison (s : State) (r : MReq) (own : Bool) (a n : Nat) (h : MemoriesWf s) :
    MemoriesWf (s.poison r own a n) := by
  have hf : ∀ (f : State → Nat → State) (l : List Nat), (∀ u i, MemoriesWf u → MemoriesWf (f u i)) →
      ∀ u, MemoriesWf u → MemoriesWf (l.foldl f u) := by
    intro f l hf
    induction l with
    | nil => intro u hu; exact hu
    | cons x l ih => intro u hu; exact ih _ (hf _ _ hu)
  have hg : MemoriesWf ((cwAddrs a n).foldl (fun s x =>
      if (s.addrError x 32).isNone && s.regionOk r true x &&
          (if own then (s.firstUneven r a n [x]).isNone else s.tagWriteOk r x) then
        (s.setEcc (x / 32) none).setTag (x / 32)
          (s.tagAfter true 7 (if own then some (s.ownerTag r a) else none) (x / 32))
      else s) s) := by
    refine hf _ _ ?_ s h
    intro u i hu
    have hp : ∀ (b : Prop) [Decidable b] (k v : Nat), MemoriesWf (if b then (u.setEcc k none).setTag k v else u) := by
      intro b _ k v
      split
      · exact memoriesWf_setTag _ _ _ (memoriesWf_setEcc _ _ _ hu)
      · exact hu
    exact hp _ _ _
  unfold State.poison
  split
  · exact hg
  · exact hg
  · exact hg
  · split
    · exact h
    · exact memoriesWf_peerSend _ _ _ _ _ _ h
  · exact h

/-- A move of codewords between a granule and its backing keeps the canonical form. -/
theorem memoriesWf_copyCws (s : State) (r : MReq) (a b n : Nat) (h : MemoriesWf s) : MemoriesWf (s.copyCws r a b n) := by
  simp only [State.copyCws]
  have hf : ∀ (l : List (Nat × Option EccErr)), ∀ u, MemoriesWf u →
      MemoriesWf (l.foldl (fun s e => (s.decodeCw r (e.1 * 32)).1) u) := by
    intro l
    induction l with
    | nil => intro u hu; exact hu
    | cons x l ih => intro u hu; exact ih _ (memoriesWf_decodeCw _ _ _ hu)
  have h1 := hf (s.ecc.filter (fun e => a / 32 ≤ e.1 && e.1 < (a + n) / 32)) s h
  exact ⟨mwf_moveRange _ _ _ _ _ h1.1, mwf_moveRange _ _ _ _ _ h1.2.1, mwf_mclear _ _ _ _ h1.2.2.1, h1.2.2.2⟩

end Sys2Proof.Machine
end

