-- ==== Sys2Proof/Laws/Vector.lean ====
section
/-!
SUPPORT. What the issue of one instruction can do; registers of a thread after a write.
-/

namespace Sys2Proof.Machine

/-! ### Registers of a thread -/

theorem v_putV (x : ThrSt) (r l n q j : Nat) :
    (x.putV r l n).v q j = if 32 * q + j = 32 * r + l then n % 2 ^ 32 else x.v q j := by
  unfold ThrSt.putV ThrSt.v
  simp only [mget_mset]
  split <;> simp

theorem s_putV (x : ThrSt) (r l n q : Nat) : (x.putV r l n).s q = x.s q := rfl
theorem m_putV (x : ThrSt) (r l n q : Nat) : (x.putV r l n).m q = x.m q := rfl

theorem s_putS (x : ThrSt) (r n q : Nat) :
    (x.putS r n).s q = if q = 0 then 0 else if q = r then n % 2 ^ 32 else x.s q := by
  unfold ThrSt.putS ThrSt.s
  by_cases h : r = 0
  · subst h
    by_cases hq : q = 0 <;> simp [hq]
  · by_cases hq : q = 0
    · simp [hq]
    · simp only [h, hq, if_false, mget_mset]
      split <;> simp

theorem m_putM (x : ThrSt) (r n q : Nat) :
    (x.putM r n).m q = if q = 0 then 0xFFFFFFFF else if q = r then n % 2 ^ 32 else x.m q := by
  unfold ThrSt.putM ThrSt.m
  by_cases h : r = 0
  · subst h
    by_cases hq : q = 0 <;> simp [hq]
  · by_cases hq : q = 0
    · simp [hq]
    · simp only [h, hq, if_false, mget_mset]
      split <;> simp

/-- Writing acting lanes changes those lanes of that register, and nothing else of the thread. -/
theorem v_setV (r : Nat) (ws : List Nat) (act : List Nat) : ∀ (x : ThrSt), (∀ l ∈ act, l < 32) → ∀ q j, j < 32 →
    (x.setV r act ws).v q j = if q = r ∧ j ∈ act then nth 0 ws j % 2 ^ 32 else x.v q j := by
  induction act with
  | nil => intro x _ q j _; simp [ThrSt.setV]
  | cons a as ih =>
    intro x h q j hj
    have ha : a < 32 := h a (by simp)
    show ((x.putV r a (nth 0 ws a)).setV r as ws).v q j = _
    rw [ih _ (fun l hl => h l (by simp [hl])) q j hj, v_putV]
    by_cases hq : q = r
    · subst hq
      by_cases hja : j = a
      · subst hja; simp
      · simp [hja]
    · have : ¬ (32 * q + j = 32 * r + a) := by omega
      simp [hq, this]

theorem setV_eq (r : Nat) (ws : List Nat) (act : List Nat) : ∀ (x : ThrSt),
    x.setV r act ws = { x with vr := (x.setV r act ws).vr, err := (x.setV r act ws).err } := by
  induction act with
  | nil => intro x; rfl
  | cons a as ih =>
    intro x
    show (x.putV r a (nth 0 ws a)).setV r as ws = _
    rw [ih]
    rfl

theorem acting_lt (x : ThrSt) (m : Nat) (n : Bool) : ∀ l ∈ x.acting m n, l < 32 := by
  intro l hl
  have := (List.mem_filter.mp hl).1
  simpa [lanes] using this

/-! ### Issue -/

/-- The environment of a thread that may issue names its own slot. -/
theorem issuing_env {s : State} {t : Thr} {x : ThrSt} {w : WgSt} {e : VEnv} (h : s.issuing t = some (x, w, e)) :
    e.core = t.core ∧ e.slot = t.slot := by
  unfold State.issuing at h
  split at h
  · cases h
  · split at h
    · split at h
      · cases h
        exact ⟨rfl, rfl⟩
      · cases h
    · cases h

/-- A step of an engine after another: it runs on the state that the first leaves, unless that one fails. -/
theorem eng_bind {α β : Type} (m : Eng α) (g : α → Eng β) (s : State) :
    (m >>= g).run.run s = (match m.run.run s with
      | (.ok a, s1) => (g a).run.run s1
      | (.error q, s1) => (.error q, s1)) := by
  show (match m s with | (a, s1) => ExceptT.bindCont g a s1) = (match m s with
      | (.ok a, s1) => (g a).run.run s1
      | (.error q, s1) => (.error q, s1))
  rcases m s with ⟨a, s1⟩
  cases a <;> rfl

theorem eng_mod {β : Type} (f : State → State) (g : Unit → Eng β) (s : State) :
    (eMod f >>= g).run.run s = (g ()).run.run (f s) := rfl

theorem eng_get {β : Type} (g : State → Eng β) (s : State) : (eGet >>= g).run.run s = (g s).run.run s := rfl

/-- The state and the errors left once an instruction's issue is counted and the registers it reads are corrected. -/
theorem eIssue_run (e : VEnv) (i : Instr) (x : ThrSt) (w : WgSt) (s s2 : State) (m : SMap (BitVec 39))
    (h : e.k.budget = 0 ∨ w.issued + 1 ≤ e.k.budget * 1024)
    (hm : (eWords e.core x.err (vecReads i)).run.run ((s.vbump (e.core / 8) (VEC_CNT_ISSUE_COUNT (e.core / 8)) 1).vbump
      (e.core / 8) (VEC_CNT_LANES_COUNT (e.core / 8)) (x.laneCount i)) = (.ok m, s2)) :
    (eIssue e i x w).run.run s =
      (vecOp i e ({ x with err := m } : ThrSt).past { w with issued := w.issued + 1 }).run.run s2 := by
  have hb : ¬ (e.k.budget ≠ 0 ∧ e.k.budget * 1024 < w.issued + 1) := by omega
  unfold eIssue
  simp only [hb, if_false]
  rw [eng_mod, eng_bind, hm]
  rfl

/-- A thread that issues an instruction does what its operation does. -/
theorem issue_of_issues {s : State} {t : Thr} {i : Instr} {x : ThrSt} {w : WgSt} {e : VEnv} {u : State}
    (h : s.issues t i = some (x, w, e, u)) :
    s.issue t i = (match (vecOp i e x.past { w with issued := w.issued + 1 }).run.run u with
      | (.ok (y, v), s2) => ((s2.setThread t.core t.slot (some y)).setWg v).settleWg v
      | (.error .wait, s2) => s.keepRequests s2
      | (.error (.fail c n), s2) =>
        s2.launchFail e.d (t.core / 8) c (if 0xA0 ≤ c ∧ c ≤ 0xA7 then vecDetail e x.pc n else n)) := by
  unfold State.issues at h
  split at h
  · cases h
  · next x0 w0 e0 hs =>
    unfold State.issue
    rw [hs]
    split at h
    · next word s1 hf =>
      split at h
      · next hc =>
        split at h
        · next m s2 hm =>
          simp only [Option.some.injEq, Prod.mk.injEq] at h
          obtain ⟨rfl, rfl, rfl, rfl⟩ := h
          have hk : (eThreadStep t i eIssue x0 w0 e0).run.run s =
              (match (vecOp i e0 ({ x0 with err := m } : ThrSt).past { w0 with issued := w0.issued + 1 }).run.run s2 with
                | (.ok r, s2) => (.ok (some r), s2)
                | (.error q, s2) => (.error q, s2)) := by
            have hgo : ¬ (i ≠ i ∨ (!x0.ready i) = true ∨ x0.requests i ≠ 0 ∧ 64 < s1.coreReqs t.core + x0.requests i) := by
              have := hc.2.2.1
              simp [hc.2.1]
              omega
            rw [← eIssue_run e0 i x0 w0 s1 s2 m hc.2.2.2 hm]
            unfold eThreadStep
            rw [eng_bind, hf]
            simp only [hc.1]
            rw [eng_get]
            simp only [if_neg hgo]
            rw [eng_bind]
            rcases (eIssue e0 i x0 w0).run.run s1 with ⟨r, s2⟩
            cases r <;> rfl
          simp only [hk]
          rcases (vecOp i e0 ({ x0 with err := m } : ThrSt).past { w0 with issued := w0.issued + 1 }).run.run s2 with ⟨r, s2⟩
          cases r with
          | ok r => rfl
          | error q => cases q <;> rfl
        · cases h
      · cases h
    · cases h

end Sys2Proof.Machine
end

