-- ==== Sys2Proof/Tests/Slice0.lean ====
section
/-!
SUPPORT. Tests: an ill-formed command for each check, words of the vector cores written out from R247 to R259, and, for each
statement of the obligations, states that meet the hypotheses of its clauses.
-/

open Sys2Proof Sys2Proof.Machine

section Witnesses

set_option Elab.async false

/-! ### Small states -/

/-- Out of cold reset with the link up, nothing booted. -/
def tLive : State :=
  { State.reset with
    pins := { State.reset.pins with held := false }
    pcie := { State.reset.pcie with linkUp := true } }

/-- Fields set one after another. -/
def tSet (s : State) (l : List (Fref × Nat)) : State := l.foldl (fun s p => s.put p.1 p.2) s

/-- Firmware is ready and the first pair serves. -/
def tUp : State := tSet tLive [(TOP_FW_STAT_READY, 1), (KPR_PAIR_STAT_STATE 0, 2)]

/-- An armed commit of the fourth array island. -/
def tArm : Armed := ⟨1, 10, 8, 20000000, 32, none, [], false⟩

/-- A descriptor of queue 16383 just fetched. -/
def tDesc (id : Nat) (bytes : List Byte) : Desc :=
  ⟨id, 16383, 0, bytes, 0, .fetched, 0, 0, [], 0, 0, 36, false, none, false, false, false, [], [], none, 0, false, false, false,
   false, false, 0, 0⟩

/-- Queue 16383 of the PF and group 1023, both enabled. -/
def tQueue : State := tSet tUp
  [(CMD_CQ_CFG_ENABLE 1023, 1), (CMD_CQ_CFG_SIZE_LOG2 1023, 4), (CMD_Q_CFG_CQG 16383, 1023), (CMD_Q_CFG_ENABLE 16383, 1),
   (CMD_Q_CFG_SIZE_LOG2 16383, 4), (CMD_Q_PTR_STATE 16383, 1)]


/-- Context 5 of partition 3, moored, with granule 0 as its share and two codewords of it. -/
def tCtx : State :=
  { tSet tQueue [(QOS_PART_EN 3, 1), (QOS_PART_CRIT 3, 1), (SCH_CTX_CFG_PART 5, 3), (SCH_CTX_CFG_CRIT 5, 1),
      (SCH_CTX_CFG_GRAN 5, 1), (SCH_CTX_STAT_STATE 5, 2), (SPD_GRAN_STATE 0, 1), (SPD_GRAN_CTX 0, 5), (SPD_GRAN_PART 0, 3),
      (SPD_GRAN_CRIT 0, 1)] with
    tags := [(0, BitVec.ofNat 12 (mkTag 3 0 1 0)), (1, BitVec.ofNat 12 (mkTag 3 0 1 0))] }

/-- Header of a descriptor of queue 16383 and context 5 without wait or signal. -/
def tHdr (opc : Nat) : List Byte := leBytes 4 (opc + 5 * 256 + 16383 * 65536) ++ List.replicate 12 0

/-- A running part on an island. -/
def tPart (isl : Nat) : Part := ⟨isl, 0, .running, 0, 0, 0, 0, 0, 0, 0, 0, false, false, 0⟩

/-- Descriptor `7`, dispatched and running on the islands. -/
def tRun (opc : Nat) (body : List Byte) (isls : List Nat) : Desc :=
  { tDesc 7 (tHdr opc ++ body) with phase := .dispatched, slot := true, parts := isls.map tPart }

/-- The context's state with one descriptor. -/
def tWith (d : Desc) : State := { tCtx with descs := [d], nextId := 8 }

/-- Fields of active copies. -/
def tAct (s : State) (l : List (Fref × Nat)) : State := { s with active := (tSet { s with regs := s.active } l).regs }

/-- VF 31 enabled alone at the end of the range, with a message vector. -/
def tVf : State :=
  { tUp with pcie := { tUp.pcie with vfEnable := true, numVf := 31 } }

/-! ### Well-formedness -/

/-- Every field of every instruction format and record, one past its width. -/
theorem test_wf_fields :
    (Requester.fn 32).wf = false ∧ (Requester.fn 31).wf = true ∧ Thr.wf ⟨32, 0⟩ = false ∧ Thr.wf ⟨0, 8⟩ = false ∧ Thr.wf ⟨31, 7⟩ = true ∧
    [({ mask := 8 } : RFmt), { d := 64 }, { a := 64 }, { b := 64 }, { c := 64 }, { ty := 16 }, { cvt := 256 }].all (fun f => !f.wf) = true ∧
    ({ mask := 7, d := 63, a := 63, b := 63, c := 63, ty := 15, cvt := 255 } : RFmt).wf = true ∧
    [({ mask := 8 } : IFmt), { d := 64 }, { a := 64 }, { ty := 16 }].all (fun f => !f.wf) = true ∧
    (AluSrc.r { d := 64 }).wf = false ∧ (AluSrc.i { d := 64 }).wf = false ∧
    [({ mask := 8 } : MFmt), { d := 64 }, { sb := 64 }, { vx := 64 }, { ty := 16 }, { space := 4 }].all (fun f => !f.wf) = true ∧
    [({ sa := 64 } : BFmt), { sb := 64 }].all (fun f => !f.wf) = true ∧ [({ d := 64 } : SFmt), { a := 64 }].all (fun f => !f.wf) = true ∧
    [({ mask := 8 } : TFmt), { d := 64 }, { u := 64 }, { tex := 64 }].all (fun f => !f.wf) = true ∧
    (ScrubUnit.ddr 8).wf = false ∧ (DebugAccess.core 4).wf = false ∧
    [(⟨64, 0, 0, 0, 0, 0, false, 0⟩ : LnkReq), ⟨0, 64, 0, 0, 0, 0, false, 0⟩, ⟨0, 0, 65536, 0, 0, 0, false, 0⟩, ⟨0, 0, 0, 2 ^ 40, 0, 0, false, 0⟩,
      ⟨0, 0, 0, 0, 0, 64, false, 0⟩].all (fun k => !k.wf) = true ∧
    [(⟨64, 0, 0⟩ : LnkRsp), ⟨0, 65536, 0⟩, ⟨0, 0, 256⟩].all (fun k => !k.wf) = true ∧
    [(⟨2048, false, false, false, false, []⟩ : CanFrame), ⟨2 ^ 29, true, false, false, false, []⟩,
      ⟨0, false, false, false, false, List.replicate 9 0⟩, ⟨0, false, true, false, false, List.replicate 65 0⟩].all (fun f => !f.wf) = true := by
  decide +kernel

/-- A command with an ill-formed part, for each shape of command. -/
theorem test_wf_parts :
    ([.vecLoadReturn ⟨32, 0⟩, .vecNop ⟨0, 8⟩ {}, .vecNop ⟨0, 0⟩ { d := 64 }, .saluAdd ⟨0, 0⟩ (.r { d := 64 }), .valuSel ⟨0, 0⟩ { b := 64 },
      .ldUnit ⟨0, 0⟩ { sb := 64 }, .stScatter ⟨0, 0⟩ { space := 4 }, .atomAdd ⟨0, 0⟩ { pack := true }, .texFetch ⟨0, 0⟩ { tex := 64 },
      .brJmp ⟨0, 0⟩ { sa := 64 }, .maskMand ⟨0, 0⟩ { mask := 8 }, .patrolScrub (.ddr 8), .debugPortAccess (.core 4),
      .ddrCommandFault 8 .phyLock, .tdmFrame 4 0 [], .csiPacket 8 ⟨0, 0, [], false, false, false⟩, .auxReply 4 .nack,
      .rdReq 0 ⟨64, 0, 0, 0, 0, 0, false, 0⟩, .wrAck 0 ⟨0, 0, 256⟩, .canFrameReceived 0 ⟨2048, false, false, false, false, []⟩] :
        List Instr).all (fun i => !i.wf) = true := by decide +kernel

/-- Every number one past its range. -/
theorem test_wf_refuses_1 : (
    [.registerWrite (.fn 32) 0 0 0, .bar0UnmappedAccess (.fn 32) 0 0 false 0, .bar0RefusedAccess (.fn 32) 0 0 false,
     .lowHalfRead (.fn 32) 0, .highHalfRead (.fn 32) 0, .pcieAtomicOp (.fn 32) 0 0 .fetchAdd 0 0,
     .stagedRegisterWrite (.fn 32) 0 0 0, .arm (.fn 32) 0, .cancel (.fn 32) 0, .islandAck 38, .peerReady 64 0,
     .queueEnable (.fn 32) 16383 0, .queueEnable (.fn 31) 16384 0, .queueDisable (.fn 32) 16383 0,
     .queueDisable (.fn 31) 16384 0, .queueResume (.fn 32) 16383 0, .queueResume (.fn 31) 16384 0, .sqTail 32 16383 0,
     .sqTail 31 16384 0, .cqHead 32 16383 0, .cqHead 31 16384 0, .cqGroupEnable (.fn 32) 1023 0,
     .cqGroupEnable (.fn 31) 1024 0, .cqGroupDisable (.fn 32) 1023 0, .cqGroupDisable (.fn 31) 1024 0,
     .descriptorFetch 16384 false, .engineComplete 0 38, .coalesceTimeout 1024, .spillComplete 512, .granuleRestore 256,
     .restoreComplete 256, .memRgnWord0Write (.fn 32) 127 0, .memRgnWord0Write (.fn 31) 128 0, .latchInstant 4,
     .vblankStart 4, .regionCrcCheck 4 15, .regionCrcCheck 3 16, .dispLinkTraining 4 false, .hotPlug 4 false false,
     .csiFrameStart 8 15 0, .csiFrameStart 7 16 0, .csiFrameEnd 8 15, .csiFrameEnd 7 16, .contextMoor (.fn 32) 255 0,
     .contextMoor (.fn 31) 256 0, .contextRelease (.fn 32) 255 0, .contextRelease (.fn 31) 256 0, .releaseDone 256,
     .windowOpen 8 31, .windowOpen 7 32, .displayWindowOpen 4, .engineStopDone 38, .deadlineCheck 256,
     .deferredReceiveLand 256 false, .fnHb 32 0, .heartbeatExpiry 32, .quiesce (.fn 32) 31, .quiesce (.fn 31) 32,
     .vfResume (.fn 32) 31, .vfResume (.fn 31) 32, .flr 32, .flrDrainTimeout 32, .flrComplete 32, .dirtySwap (.fn 32) 31,
     .dirtySwap (.fn 31) 32, .swapDone 32, .goldenTestEnd 8 false, .goldenSlotEnd 8, .lockstepMismatch 4,
     .safEvtClear (.fn 32) 0, .mailboxGo (.fn 32) 0, .verifySlot 2, .preload 2, .storeOpen 2 0, .islPower 38 0 0,
     .rgnRelocate 128 0 false, .pairTrap 4, .pairHeartbeatTimeout 4, .pairOnline 4 false, .blockMove 256 3] : List Instr).all
    (fun i => !i.wf) = true := by decide +kernel

/-- Every number one past its range. -/
theorem test_wf_refuses_2 : (
    [.blockMove 255 4, .bootActStage (.fn 32) 0, .actNow (.fn 32) 0, .bcnStep (.fn 32) 0, .bcnForcedStep (.fn 32) 0,
     .bcnRateWrite (.fn 32) 0, .comparatorFire 64, .comparatorWrite (.fn 32) 63 2 0, .comparatorWrite (.fn 31) 64 2 0,
     .comparatorWrite (.fn 31) 63 3 0, .pulseEnd 8, .portEnable (.fn 32) 3 0, .portEnable (.fn 31) 4 0,
     .trainingDone 4 63 3 15, .trainingDone 3 64 3 15, .trainingDone 3 63 4 15, .trainingDone 3 63 3 16,
     .rdReq 4 ⟨63, 63, 65535, 0, 0, 63, false, 0⟩, .wrReq 4 ⟨63, 63, 65535, 0, 0, 63, false, 0⟩ [] [],
     .rdRsp 4 ⟨63, 65535, 255⟩ [] [], .wrAck 4 ⟨63, 65535, 255⟩, .semReq 4 63 65535 4095 4294967295,
     .semReq 3 64 65535 4095 4294967295, .semReq 3 63 65536 4095 4294967295, .semReq 3 63 65535 4096 4294967295,
     .semReq 3 63 65535 4095 4294967296, .semAck 4 ⟨63, 65535, 255⟩, .echoReq 4 63 65535 0, .echoReq 3 64 65535 0,
     .echoReq 3 63 65536 0, .echoRsp 4 63 65535, .echoRsp 3 64 65535, .echoRsp 3 63 65536, .nak 4 0, .lnkTime 4 0 0,
     .flitReceiveError 4 false, .flitForward 4 ⟨0, 0, 0, List.replicate 72 0⟩, .flitForward 0 ⟨0, 0, 0, []⟩,
     .gptpSync ⟨8, 0⟩ 0, .peerTimeout 65536,
     .canFrameReceived 16 ⟨0, false, false, false, false, []⟩, .canFrameSent 16, .canBusOff 16, .busOffRecovery 16,
     .ethFrameReceived 8 ⟨0, 0, 0, 0, false, []⟩, .gateChange 8, .streamGateChange 64, .acfTalkerPeriod 32,
     .acfFrameReceived 32 ⟨0, 0, 0, 0, false, 0, 0, []⟩, .acfPresentation 32, .routeInstant 1024, .wbrWinWrite (.fn 32) 63 2 0,
     .wbrWinWrite (.fn 31) 64 2 0, .wbrWinWrite (.fn 31) 63 3 0, .wbrSemWrite (.fn 32) 15 0, .wbrSemWrite (.fn 31) 16 0,
     .trailingReadDone 8, .dumpNow (.fn 32) 0, .ringLatch (.fn 32) 0, .traceEnable (.fn 32) 0, .islandWakeDone 24,
     .droopStart 8, .droopEnd 8, .thermalSample 38 0, .thermalCapStep 8, .ageRecordLoad (.fn 32) 0, .frameStart 4,
     .scanOutLine 4, .idleFlit 4 0 []] : List Instr).all
    (fun i => !i.wf) = true := by decide +kernel

/-- Every number at the end of its range. -/
theorem test_wf_accepts_1 : (
    [.registerWrite (.fn 31) 0 0 0, .bar0UnmappedAccess (.fn 31) 0 0 false 0, .bar0RefusedAccess (.fn 31) 0 0 false,
     .lowHalfRead (.fn 31) 0, .highHalfRead (.fn 31) 0, .pcieAtomicOp (.fn 31) 0 0 .fetchAdd 0 0,
     .stagedRegisterWrite (.fn 31) 0 0 0, .arm (.fn 31) 0, .cancel (.fn 31) 0, .islandAck 37, .peerReady 63 0,
     .queueEnable (.fn 31) 16383 0, .queueDisable (.fn 31) 16383 0, .queueResume (.fn 31) 16383 0, .sqTail 31 16383 0,
     .cqHead 31 16383 0, .cqGroupEnable (.fn 31) 1023 0, .cqGroupDisable (.fn 31) 1023 0, .descriptorFetch 16383 false,
     .engineComplete 0 37, .coalesceTimeout 1023, .spillComplete 511, .granuleRestore 255, .restoreComplete 255,
     .patrolScrub (.ddr 7), .memRgnWord0Write (.fn 31) 127 0, .latchInstant 3, .vblankStart 3, .regionCrcCheck 3 15,
     .dispLinkTraining 3 false, .hotPlug 3 false false, .csiFrameStart 7 15 0, .csiFrameEnd 7 15,
     .contextMoor (.fn 31) 255 0, .contextRelease (.fn 31) 255 0, .releaseDone 255, .windowOpen 7 31, .displayWindowOpen 3,
     .engineStopDone 37, .deadlineCheck 255, .deferredReceiveLand 255 false, .fnHb 31 0, .heartbeatExpiry 31,
     .quiesce (.fn 31) 31, .vfResume (.fn 31) 31, .flr 31, .flrDrainTimeout 31, .flrComplete 31, .dirtySwap (.fn 31) 31,
     .swapDone 31, .goldenTestEnd 7 false, .goldenSlotEnd 7, .lockstepMismatch 3, .safEvtClear (.fn 31) 0,
     .mailboxGo (.fn 31) 0, .verifySlot 1, .preload 1, .storeOpen 1 0, .islPower 37 0 0, .rgnRelocate 127 0 false,
     .pairTrap 3, .pairHeartbeatTimeout 3, .pairOnline 3 false, .blockMove 255 3, .bootActStage (.fn 31) 0,
     .actNow (.fn 31) 0, .bcnStep (.fn 31) 0, .bcnForcedStep (.fn 31) 0, .bcnRateWrite (.fn 31) 0, .comparatorFire 63,
     .comparatorWrite (.fn 31) 63 2 0, .pulseEnd 7, .portEnable (.fn 31) 3 0, .trainingDone 3 63 3 15,
     .rdReq 3 ⟨63, 63, 65535, 0, 0, 63, false, 0⟩, .wrReq 3 ⟨63, 63, 65535, 0, 0, 63, false, 0⟩ [] [],
     .rdRsp 3 ⟨63, 65535, 255⟩ [] [], .wrAck 3 ⟨63, 65535, 255⟩, .semReq 3 63 65535 4095 4294967295,
     .semAck 3 ⟨63, 65535, 255⟩, .echoReq 3 63 65535 (2 ^ 64 - 1), .echoRsp 3 63 65535, .nak 3 0, .lnkTime 3 0 0,
     .flitReceiveError 3 false, .flitForward 3 ⟨63, 0, 5, List.replicate 72 0⟩, .gptpSync ⟨7, 0⟩ 0, .peerTimeout 65535,
     .canFrameReceived 15 ⟨0, false, false, false, false, []⟩, .canFrameSent 15, .canBusOff 15, .busOffRecovery 15,
     .ethFrameReceived 7 ⟨0, 0, 0, 0, false, []⟩, .gateChange 7, .streamGateChange 63, .acfTalkerPeriod 31,
     .acfFrameReceived 31 ⟨0, 0, 0, 0, false, 0, 0, []⟩, .acfPresentation 31, .routeInstant 1023, .wbrWinWrite (.fn 31) 63 2 0,
     .wbrSemWrite (.fn 31) 15 0] : List Instr).all Instr.wf = true := by decide +kernel

/-- Every number at the end of its range. -/
theorem test_wf_accepts_2 : (
    [.trailingReadDone 7, .dumpNow (.fn 31) 0, .ringLatch (.fn 31) 0, .traceEnable (.fn 31) 0, .islandWakeDone 23,
     .droopStart 7, .droopEnd 7, .thermalSample 37 0, .thermalCapStep 7, .ageRecordLoad (.fn 31) 0, .frameStart 3,
     .scanOutLine 3, .idleFlit 3 0 [], .debugPortAccess (.core 3)] : List Instr).all Instr.wf = true := by decide +kernel

/-! ### An ageing record of this device -/

theorem leBytes_leNat (l : List Byte) : leBytes l.length (leNat l) = l := by
  induction l with
  | nil => rfl
  | cons b bs ih =>
    have h1 : (b.toNat + 256 * leNat bs) / 256 = leNat bs := by have := b.isLt; omega
    have h2 : BitVec.ofNat 8 (b.toNat + 256 * leNat bs) = b := by
      apply BitVec.eq_of_toNat_eq
      have := b.isLt
      simp only [BitVec.toNat_ofNat]
      omega
    simp only [leNat, List.length_cons, leBytes, h1, h2, ih]

theorem leNat_lt (l : List Byte) : leNat l < 256 ^ l.length := by
  induction l with
  | nil => simp [leNat]
  | cons b bs ih =>
    have := b.isLt
    simp only [leNat, List.length_cons, Nat.pow_succ]
    omega

theorem leNat_leBytes (n v : Nat) : leNat (leBytes n v) = v % 256 ^ n := by
  induction n generalizing v with
  | zero => simp [leBytes, leNat, Nat.mod_one]
  | succ n ih =>
    rw [Nat.pow_succ, Nat.mul_comm (256 ^ n) 256, Nat.mod_mul]
    simp [leBytes, leNat, ih]

theorem crc32cByte_lt (c b : Nat) (hc : c < 2 ^ 32) (hb : b < 2 ^ 32) : crc32cByte c b < 2 ^ 32 := by
  have step (x : Nat) (h : x < 2 ^ 32) : (if x % 2 = 1 then Nat.xor (x / 2) 0x82F63B78 else x / 2) < 2 ^ 32 := by
    split
    · exact Nat.xor_lt_two_pow (by omega) (by omega)
    · omega
  have go (l : List Nat) : ∀ x, x < 2 ^ 32 →
      l.foldl (fun c _ => if c % 2 = 1 then Nat.xor (c / 2) 0x82F63B78 else c / 2) x < 2 ^ 32 := by
    induction l with
    | nil => intro x h; exact h
    | cons a l ih => intro x h; exact ih _ (step x h)
  exact go _ _ (Nat.xor_lt_two_pow hc hb)

theorem crc32c_lt (bs : List Byte) : crc32c bs < 2 ^ 32 := by
  have go : ∀ c, c < 2 ^ 32 → bs.foldl (fun c b => crc32cByte c b.toNat) c < 2 ^ 32 := by
    induction bs with
    | nil => intro c h; exact h
    | cons b bs ih =>
      intro c h
      exact ih _ (crc32cByte_lt c b.toNat h (by have := b.isLt; omega))
  exact Nat.xor_lt_two_pow (go _ (by omega)) (by omega)

/-- The words of a record of this device without its CRC, and with it. -/
def tAge (crc : Nat) : State :=
  { tUp with regs := [(PWR_AGE_LOAD 0, 0x14147), (PWR_AGE_LOAD 1, BitVec.ofNat 64 (leNat (fitTo 8 tUp.deviceId))),
      (PWR_AGE_LOAD 63, BitVec.ofNat 64 (crc * 2 ^ 32))] }

theorem tAge_word (k i : Nat) (h : i < 61) : (tAge k).reg (PWR_AGE_LOAD (i + 2)) = 0 := by
  have hr : ∀ i < 61, regReset (PWR_AGE_LOAD (i + 2)) = 0 := by decide +kernel
  have hk : mget regReset (tAge k).regs (PWR_AGE_LOAD (i + 2)) = regReset (PWR_AGE_LOAD (i + 2)) := by
    simp only [tAge, mget, PWR_AGE_LOAD]
    split
    · omega
    · split
      · omega
      · split
        · omega
        · rfl
  exact hk.trans (hr i h)

theorem tAge_bytes (k : Nat) : (tAge k).ageBytes PWR_AGE_LOAD =
    leBytes 8 0x14147 ++ (leBytes 8 (BitVec.ofNat 64 (leNat (fitTo 8 tUp.deviceId))).toNat ++
      (List.replicate 488 0 ++ leBytes 8 (BitVec.ofNat 64 (k * 2 ^ 32)).toNat)) := by
  have hl : List.range 64 = 0 :: 1 :: ((List.range 61).map (· + 2) ++ [63]) := by decide
  have hm : ((List.range 61).map (· + 2)).flatMap (fun i => leBytes 8 ((tAge k).reg (PWR_AGE_LOAD i)).toNat) =
      (List.range 61).flatMap (fun _ => List.replicate 8 0) := by
    rw [List.flatMap_map]
    exact List.flatMap_congr (fun i hi => by rw [tAge_word k i (List.mem_range.mp hi)]; rfl)
  have h61 : (List.range 61).flatMap (fun _ => List.replicate 8 (0 : Byte)) = List.replicate 488 0 := by decide +kernel
  unfold State.ageBytes
  rw [hl]
  simp only [List.flatMap_cons, List.flatMap_append, List.flatMap_nil, List.append_nil, hm, h61]
  rfl

/-- The last clause on ageing records: a record of this device with its CRC. -/
theorem test_age_record :
    ∃ s : State, let bs := s.ageBytes PWR_AGE_LOAD
      Machine.u bs 0 2 = 0x4147 ∧ Machine.u bs 2 1 = 1 ∧ bytesAt bs 8 8 = fitTo 8 s.deviceId ∧
      Machine.u bs 508 4 = crc32c (bs.take 508) ∧ s.pwr.sampled = false := by
  have hid : (fitTo 8 tUp.deviceId).length = 8 := by simp [fitTo]
  have hlt := leNat_lt (fitTo 8 tUp.deviceId)
  rw [hid] at hlt
  let z : List Byte := leBytes 8 0x14147 ++ (fitTo 8 tUp.deviceId ++ List.replicate 492 0)
  have hc := crc32c_lt z
  generalize hk : crc32c z = k at hc
  have hB : leBytes 8 (BitVec.ofNat 64 (leNat (fitTo 8 tUp.deviceId))).toNat = fitTo 8 tUp.deviceId := by
    rw [BitVec.toNat_ofNat, Nat.mod_eq_of_lt (by omega)]
    have h := leBytes_leNat (fitTo 8 tUp.deviceId)
    rw [hid] at h
    exact h
  have hW : (BitVec.ofNat 64 (k * 2 ^ 32)).toNat = k * 2 ^ 32 := by
    rw [BitVec.toNat_ofNat]
    omega
  have hL : leBytes 8 (k * 2 ^ 32) = List.replicate 4 0 ++ leBytes 4 k := by
    have e (j : Nat) (x : Nat) (h : x % 256 = 0) : (BitVec.ofNat 8 x : Byte) = 0 := by
      apply BitVec.eq_of_toNat_eq
      simp [h]
    show BitVec.ofNat 8 (k * 2 ^ 32) :: BitVec.ofNat 8 (k * 2 ^ 32 / 256) :: BitVec.ofNat 8 (k * 2 ^ 32 / 256 / 256) ::
      BitVec.ofNat 8 (k * 2 ^ 32 / 256 / 256 / 256) :: leBytes 4 (k * 2 ^ 32 / 256 / 256 / 256 / 256) =
        0 :: 0 :: 0 :: 0 :: leBytes 4 k
    rw [e 0 _ (by omega), e 1 _ (by omega), e 2 _ (by omega), e 3 _ (by omega),
      show k * 2 ^ 32 / 256 / 256 / 256 / 256 = k by omega]
  have hb : (tAge k).ageBytes PWR_AGE_LOAD = z ++ leBytes 4 k := by
    rw [tAge_bytes, hB, hW, hL]
    show _ = (leBytes 8 0x14147 ++ (fitTo 8 tUp.deviceId ++ (List.replicate (488 + 4) 0))) ++ leBytes 4 k
    rw [List.replicate_add]
    simp only [List.append_assoc]
  have hz : z.length = 508 := by
    show (leBytes 8 0x14147 ++ (fitTo 8 tUp.deviceId ++ List.replicate 492 0)).length = 508
    rw [List.length_append, List.length_append, hid, List.length_replicate, show (leBytes 8 0x14147).length = 8 from rfl]
  refine ⟨tAge k, ?_, ?_, ?_, ?_, rfl⟩
  · rw [hb]
    show leNat [0x47, 0x41] = 0x4147
    decide
  · rw [hb]
    show leNat [1] = 1
    decide
  · rw [hb]
    show ((fitTo 8 tUp.deviceId ++ List.replicate 492 0) ++ leBytes 4 k).take 8 = fitTo 8 tUp.deviceId
    rw [List.append_assoc, List.take_append_of_le_length (by omega), List.take_of_length_le (by omega)]
  · rw [hb]
    unfold Machine.u
    rw [← hz, List.take_left, List.drop_left, hk, show (leBytes 4 k).take 4 = leBytes 4 k from rfl, leNat_leBytes]
    omega

theorem test_front_command :
    let s := { tLive with pending := [.sysclkLoss, .ackCutoff] }
    s.pending = .sysclkLoss :: [.ackCutoff] ∧ step s = exec .sysclkLoss { s with pending := [.ackCutoff] } := by
  exact ⟨rfl, rfl⟩

theorem test_idle_tick :
    (State.reset.pending = [] ∧ State.reset.dead = true) ∧
    (tLive.pending = [] ∧ tLive.dead = false ∧ tLive.flag DBG_TRACE_CFG_EN = false ∧ tLive.ddrQ = [] ∧
      tLive.gw.ethQ = []) := by decide +kernel

theorem test_refused_access :
    tLive.reaches (.fn 0) = true ∧ tLive.resetting (.fn 0) = false ∧ 0x1000002 < 0x100000000 ∧
    ¬ ((4 = 4 ∨ 4 = 8) ∧ 0x1000002 % 4 = 0) ∧ ¬ ((2 = 4 ∨ 2 = 8) ∧ 0x1000002 % 2 = 0) := by decide +kernel

theorem test_unmapped_access :
    tLive.reaches (.fn 0) = true ∧ 0x1800000 % 8 = 0 ∧ 0x1800000 < 0x100000000 ∧
    (∀ o ∈ [0xE8, 0xEC], regAt o = none ∧ reservedWord o = false) := by decide +kernel

theorem test_low_half_read :
    tLive.reaches (.fn 0) = true ∧ tLive.resetting (.fn 0) = false ∧ TOP_MODE_TIME % 8 = 0 ∧
    (match tLive.placeAt (.fn 0) TOP_MODE_TIME, tLive.placeAt (.fn 0) (TOP_MODE_TIME + 4) with
     | .reg sp base false, .reg sp2 base2 true =>
       sp.bits == 64 && sp2 == sp && base2 == base && (tLive.latchOf (.fn 0) base).isNone &&
         (({ tLive with latches := [(base, reqCode (.fn 0), 5)] } : State).latchOf (.fn 0) base == some 5)
     | _, _ => false) = true := by decide +kernel

theorem test_write_acts :
    let fs : List FieldSpec := fieldsAt (ARR_CHK_CFG 0)
    fs.Pairwise (fun a b => a.lo + a.w ≤ b.lo ∨ b.lo + b.w ≤ a.lo) ∧ fs ≠ [] ∧
    ∀ f ∈ fs, bitsOf 0xFFFFFFFF f.lo f.w = 2 ^ f.w - 1 := by decide +kernel

theorem test_top_write :
    tLive.reaches (.fn 0) = true ∧ TOP_MODE_PEERS % 4 = 0 ∧ TOP_MODE_PEERS < 0x100000 ∧ TOP_MODE_PEERS ≠ TOP_MODE_CTRL ∧
    (regAt TOP_MODE_PEERS).map (·.2) = some TOP_MODE_PEERS ∧ tLive.flag DBG_SNAP_CTL_VIEW = false ∧ TOP_MODE_PEERS % 8 = 0 ∧
    (regAt TOP_MODE_PEERS).map (·.1.bits) = some 64 ∧ tVf.reaches (.fn 31) = true ∧ tVf.resetting (.fn 31) = false := by decide +kernel

theorem test_staged_write :
    tUp.reaches (.fn 0) = true ∧ tUp.flag DBG_SNAP_CTL_VIEW = false ∧
    (∀ p ∈ [(ARR_CHK_CFG 3, 3), (SCH_DWIN 3, 36), (CAP_CSI_CFG 7, 32), (BCN_CFG, 36), (SCH_WIN 7 31, 36), (GW_GCL 7 255, 33),
      (GW_SGL 63 63, 33), (QOS_PORT 74 2, 36)], tUp.answers p.1 = true ∧ tUp.shut (.fn 0) p.1 = none ∧ p.1 % 4 = 0 ∧
      stagedIsland p.1 = some p.2 ∧ (regAt p.1).map (·.2) = some p.1) ∧ exemptPort 74 = false ∧
    (regAt (GW_GCL 7 255)).map (·.1.bits) = some 64 ∧ GW_GCL 7 255 % 8 = 0 ∧ tUp.armedFor 3 = false ∧
    ({ tUp with arm := some tArm } : State).armedFor 3 = true := by decide +kernel

theorem test_atomic_op :
    tLive.reaches (.fn 0) = true ∧ tLive.flag DBG_SNAP_CTL_VIEW = false ∧
    ([(TOP_MODE_PEERS, true), (TOP_ERR_UNMAPPED, false)].all (fun p => p.1 % 4 == 0 && decide (p.1 < 0x100000) &&
      p.1 != TOP_MODE_CTRL && (match regAt p.1 with
      | some (sp, o) => o == p.1 && sp.flds.any (fun f => f.acc == .rw && bitsOf 0xFFFFFFFF f.lo f.w != 0) == p.2
      | none => false))) = true := by decide +kernel

theorem test_arm_refused :
    let v : Word32 := 0x1000001
    tUp.opens (.fn 0) TOP_MODE_CTRL = true ∧ bitOf v.toNat 24 = true ∧ bitOf v.toNat 25 = false ∧
    ({ tUp with arm := some tArm } : State).arm.isSome = true ∧
    (tUp.arm = none ∧ (tUp.plainWrite TOP_MODE_CTRL v.toNat 0xFFFFFFFF).get TOP_MODE_TIME_TIME = 0 ∧
      0 < (tUp.plainWrite TOP_MODE_CTRL v.toNat 0xFFFFFFFF).beacon + 10000) ∧
    (let u := (tSet tUp [(TOP_MODE_TIME_TIME, 20000000)]).plainWrite TOP_MODE_CTRL v.toNat 0xFFFFFFFF
     u.beacon + u.get TOP_MODE_CTRL_GUARD_US * 1000 + 10000 ≤ u.get TOP_MODE_TIME_TIME ∧
     u.get TOP_MODE_TIME_TIME ≤ u.beacon + 10000000000 ∧ u.get TOP_MODE_UNITS_UNITS = 0) := by decide +kernel

theorem test_arm_accepted :
    let v : Word32 := 0x1000001
    let u := (tSet tUp [(TOP_MODE_TIME_TIME, 20000000), (TOP_MODE_UNITS_UNITS, 0x101)]).plainWrite TOP_MODE_CTRL v.toNat 0xFFFFFFFF
    (tSet tUp [(TOP_MODE_TIME_TIME, 20000000), (TOP_MODE_UNITS_UNITS, 0x101)]).opens (.fn 0) TOP_MODE_CTRL = true ∧
    u.beacon + u.get TOP_MODE_CTRL_GUARD_US * 1000 + 10000 ≤ u.get TOP_MODE_TIME_TIME ∧
    u.get TOP_MODE_TIME_TIME ≤ u.beacon + 10000000000 ∧ u.get TOP_MODE_UNITS_UNITS = 0x101 ∧
    u.get (TOP_ISL_MODE_PRESENT 0) = 1 ∧ u.get (TOP_ISL_MODE_PRESENT 8) = 1 := by decide +kernel

theorem test_cancel :
    tUp.opens (.fn 0) TOP_MODE_CTRL = true ∧ bitOf 0x2000000 25 = true ∧ bitOf 0x2000000 24 = false ∧ tUp.arm = none ∧
    bitOf 0x3000000 25 = true ∧ bitOf 0x3000000 24 = true := by decide +kernel

theorem test_acks_and_ready :
    let s := { tUp with arm := some tArm }
    tArm.frozen = none ∧ bitOf tArm.units 3 = true ∧ s.islOn 3 = true ∧ s.get (ARR_CLK_CFG_FREQ_MHZ 3) = 750 ∧
    750 ≤ s.get (ARR_CLK_STAT_FMAX_NOW 3) ∧ s.get (ARR_CHK_CFG_TOL_EXP 3) = 16 ∧ s.get (ATT_CFG_PREFETCH 3) = 2 ∧
    s.beacon + tArm.guardUs * 1000 < tArm.time ∧
    tArm.time ≤ ({ s with now := 0x10000000 } : State).beacon + tArm.guardUs * 1000 ∧ bitOf tArm.peers 5 = true ∧
    ({ tArm with peers := 0 } : Armed).peers = 0 := by decide +kernel

theorem test_commit_instant :
    let a := { tArm with frozen := some 8, peers := 0 }
    let find (a : Armed) (m : Nat) := (List.range 38).find? (fun i => bitOf a.units i && !bitOf m i)
    tArm.time ≤ ({ tUp with now := 0x10000000, arm := some a } : State).beacon ∧ find a 8 = none ∧ find a 0 = some 3 ∧
    (List.range 64).find? (fun d => bitOf tArm.peers d && !tArm.ready.contains d) = some 5 := by decide +kernel

theorem test_queue_enable :
    let off := tSet tQueue [(CMD_Q_CFG_ENABLE 16383, 0), (CMD_Q_PTR_STATE 16383, 0)]
    tQueue.opensView (.fn 0) (CMD_Q_CFG 16383) = true ∧ tQueue.viewQ (.fn 0) 16383 = some 16383 ∧
    tQueue.flag (CMD_Q_CFG_ENABLE 16383) = true ∧ off.flag (CMD_Q_CFG_ENABLE 16383) = false ∧
    off.opensView (.fn 0) (CMD_Q_CFG 16383) = true ∧ bitOf 0x103FF04 24 = true ∧ bitOf 0 24 = false ∧
    off.get (CMD_Q_PTR_INFLIGHT 16383) = 0 ∧ bitsOf 0x103FF04 8 10 = 1023 ∧ off.flag (CMD_CQ_CFG_ENABLE 1023) = true ∧
    off.get (CMD_CQ_CFG_FUNC 1023) = bitsOf 0x103FF04 18 5 ∧ off.flag (CMD_CQ_CFG_ENABLE 0) = false ∧
    off.flag (VIRT_FN_W5_QUIESCED 0) = false := by decide +kernel

theorem test_queue_enabled :
    (exec (.queueEnable (.fn 0) 16383 0x103FF04) (tSet tQueue [(CMD_Q_CFG_ENABLE 16383, 0), (CMD_Q_PTR_TAIL 16383, 3)]) |> nextOf).map
      (fun t => (t.get (CMD_Q_PTR_STATE 16383), t.get (CMD_Q_PTR_TAIL 16383), t.get (CMD_Q_CFG_SIZE_LOG2 16383))) =
      some (1, 0, 4) := by decide +kernel

theorem test_queue_resume :
    let bad := tSet tQueue [(CMD_Q_ERR_MALFORMED 16383, 1)]
    tQueue.opensView (.fn 0) (CMD_Q_ERR 16383) = true ∧ tQueue.viewQ (.fn 0) 16383 = some 16383 ∧ bitOf 0x8000000000000000 63 = true ∧
    bad.opensView (.fn 0) (CMD_Q_ERR 16383) = true ∧ bad.flag (CMD_Q_ERR_MALFORMED 16383) = true ∧
    tQueue.flag (CMD_Q_ERR_MALFORMED 16383) = false ∧ tQueue.flag (CMD_Q_ERR_FETCH_ERR 16383) = false := by decide +kernel

theorem test_doorbell :
    tQueue.bellOk 0 = true ∧ tQueue.viewQ (.fn 0) 16383 = some 16383 ∧ tQueue.flag TOP_FW_STAT_PAUSE = false ∧
    (tSet tQueue [(TOP_FW_STAT_PAUSE, 1)]).flag TOP_FW_STAT_PAUSE = true ∧
    (tSet tQueue [(VIRT_FN_W5_QUIESCED 0, 1)]).flag (VIRT_FN_W5_QUIESCED 0) = true ∧ tQueue.viewQ (.fn 0) 5 = some 5 ∧
    tQueue.flag (CMD_Q_CFG_ENABLE 5) = false ∧ 15 < 2 ^ tQueue.get (CMD_Q_CFG_SIZE_LOG2 16383) ∧
    2 ^ tQueue.get (CMD_Q_CFG_SIZE_LOG2 16383) ≤ 16 := by decide +kernel

theorem test_doorbell_tail :
    (nextOf (exec (.sqTail 0 16383 15) tQueue)).map (fun t => t.get (CMD_Q_PTR_TAIL 16383)) = some 15 ∧
    (nextOf (exec (.sqTail 0 16383 16) tQueue)).map (fun t => t.get (CMD_Q_ERR_BAD_TAIL 16383)) = some 1 := by decide +kernel

theorem test_cq_head :
    let s := tSet tQueue [(CMD_CQ_PTR_HEAD 1023, 14), (CMD_CQ_PTR_TAIL 1023, 2)]
    s.bellOk 0 = true ∧ s.viewQ (.fn 0) 16383 = some 16383 ∧ s.get (CMD_Q_CFG_CQG 16383) = 1023 ∧
    s.flag (CMD_CQ_CFG_ENABLE 1023) = true ∧ s.get (CMD_CQ_CFG_FUNC 1023) = s.get (CMD_Q_CFG_FUNC 16383) ∧
    2 ^ s.get (CMD_CQ_CFG_SIZE_LOG2 1023) = 16 ∧ ((2 : Int) - 14) % 16 ≤ ((2 : Int) - 14) % 16 ∧
    ¬ ((3 : Int) - 14) % 16 ≤ ((2 : Int) - 14) % 16 ∧ s.viewQ (.fn 0) 5 = some 5 ∧ s.flag (CMD_CQ_CFG_ENABLE (s.get (CMD_Q_CFG_CQG 5))) = false := by
  decide +kernel

theorem test_group :
    let off := tSet tQueue [(CMD_CQ_CFG_ENABLE 1023, 0)]
    tQueue.opensView (.fn 0) (CMD_CQ_CFG 1023) = true ∧ tQueue.viewG (.fn 0) 1023 = some 1023 ∧
    tQueue.flag (CMD_CQ_CFG_ENABLE 1023) = true ∧ off.flag (CMD_CQ_CFG_ENABLE 1023) = false ∧
    off.opensView (.fn 0) (CMD_CQ_CFG 1023) = true ∧ bitOf 0x20000004 29 = true ∧
    (tSet tQueue [(CMD_Q_CFG_ENABLE 16383, 0)]).groupUsed 1023 = false ∧
    tQueue.get (CMD_Q_CFG_CQG (tDesc 1 []).q) = 1023 := by decide +kernel

theorem test_coalesce :
    let s := tSet tQueue [(CMD_CQ_COAL_COAL_US 1023, 1)]
    let s1 := { s with coal := [(1023, ⟨1, 0⟩)] }
    s.get (CMD_CQ_COAL_COAL_US 1023) = 1 ∧ (mget (fun _ => (⟨0, 0⟩ : Coal)) s.coal 1023).cnt = 0 ∧
    (mget (fun _ => (⟨0, 0⟩ : Coal)) s1.coal 1023).cnt ≠ 0 ∧ s1.c < 0 + 800 * 1 ∧ 0 + 800 * 1 ≤ ({ s1 with now := 800 } : State).c := by
  decide +kernel

theorem test_fetch :
    let s := tSet tQueue [(CMD_Q_PTR_TAIL 16383, 1)]
    s.fwFor 16383 = true ∧ s.flag (VIRT_FN_W5_FLR_BUSY (s.qFn 16383)) = false ∧ s.jobOf SCH_JOB_W0_FQ 16383 = none ∧
    s.jobOf SCH_JOB_W0_PQ 16383 = none ∧ s.flag (CMD_Q_CFG_ENABLE 16383) = true ∧ s.stoppedQ.contains 16383 = false ∧
    s.flag (VIRT_FN_W5_QUIESCED (s.qFn 16383)) = false ∧ s.get (CMD_Q_PTR_HEAD 16383) ≠ s.get (CMD_Q_PTR_TAIL 16383) ∧
    s.nextFetch = some 16383 ∧ tQueue.nextFetch ≠ some 16383 ∧
    s.busOk (s.qFn 16383) = true ∧ ({ s with pcie := { s.pcie with busMaster := [] } } : State).nextFetch = some 16383 ∧
    ({ s with pcie := { s.pcie with busMaster := [] } } : State).busOk (s.qFn 16383) = false ∧ tQueue.get (CMD_Q_PTR_HEAD 16383) = tQueue.get (CMD_Q_PTR_TAIL 16383) := by decide +kernel

theorem test_fetched :
    (nextOf (exec (.descriptorFetch 16383 true) (tSet tQueue [(CMD_Q_PTR_TAIL 16383, 1)]))).map
      (fun t => (t.get (CMD_Q_PTR_HEAD 16383), t.descs.map (·.bytes))) = some (1, [List.replicate 64 0]) := by decide +kernel

/-- Which verdict the check of a ready descriptor gives. -/
def tVerdict (opc : Nat) (body : List Byte) : Nat :=
  let d := { tDesc 7 (tHdr opc ++ body) with phase := .ready }
  let s := tWith d
  if !s.mayDispatch d then 9
  else match (s.verdict d).2 with
    | .go p => match s.choose d p with
      | some (all, _) => if s.freeSlots 1023 ≠ 0 ∧ s.endedOf 1023 = [] ∧ s.unitFull d = false ∧ s.outranked d all p.units = false
          then 1 else 0
      | none => 0
    | .stop _ _ => 2
    | .pbRead _ _ => 3
    | .refuse _ _ _ => 4
    | .wait => 5

theorem test_dispatch_go : tVerdict 0x00 (List.replicate 48 0) = 1 := by decide +kernel
theorem test_dispatch_stop : tVerdict 0x00 (List.replicate 47 0 ++ [1]) = 2 := by decide +kernel
theorem test_dispatch_block_unreadable : tVerdict 0x20 (leBytes 8 (0x2000000000000 + 0x10000000) ++ List.replicate 40 0) = 3 := by
  decide +kernel
theorem test_dispatch_refused :
    (let d := { tDesc 7 (tHdr 0x22 ++ leBytes 4 (1 + 2 ^ 14) ++ List.replicate 44 0) with phase := .ready }
     let s := { tWith d with retired := [0] }
     s.mayDispatch d && (match (s.verdict d).2 with
      | .refuse 0x89 1 _ => true
      | _ => false)) = true := by decide +kernel
theorem test_dispatch_no_slot :
    (let d := { tDesc 7 (tHdr 0 ++ List.replicate 48 0) with phase := .ready }
     let s := tSet (tWith d) [(CMD_CQ_PTR_TAIL 1023, 15)]
     s.mayDispatch d && s.freeSlots (s.get (CMD_Q_CFG_CQG d.q)) == 0) = true := by decide +kernel
theorem test_dispatch_not_ready : (tWith (tDesc 7 [])).mayDispatch (tDesc 7 []) = false := by decide +kernel
theorem test_desc_ready :
    let d := { tDesc 7 (tHdr 0 ++ List.replicate 48 0) with phase := .ready }
    (tWith d).desc? 7 = some d ∧ d.phase = .ready := by decide +kernel

theorem test_wait_limit :
    let d := { tDesc 7 (tHdr 0 ++ List.replicate 48 0) with phase := .waiting }
    let s := tSet (tWith d) [(CMD_Q_LIMIT_WAIT_MS 16383, 1)]
    s.desc? 7 = some d ∧ s.get (CMD_Q_LIMIT_WAIT_MS d.q) = 1 ∧ s.c ≤ d.waitC + 800000 * 1 ∧
    d.waitC + 800000 * 1 < ({ s with now := 800001 } : State).c ∧ pbRule d.opc = none ∧ s.semOf d d.waitIdx < 4096 ∧
    tUp.get (CMD_Q_LIMIT_WAIT_MS 16383) = 0 := by decide +kernel

theorem test_common_opcodes :
    (∀ k ∈ [0x00, 0x01, 0x02, 0xE1], (tRun k [] [36]).runnable k = true ∧ (tWith (tRun k [] [36])).desc? 7 = some (tRun k [] [36])) ∧
    bitOf ((tRun 1 [0, 0] [36]).u 16 2) 12 = false ∧ bitOf ((tRun 1 [0, 0x10] [36]).u 16 2) 12 = true ∧
    ({ tRun 0 [] [36] with effected := true } : Desc).effected = true := by decide +kernel

/-- Descriptors ready to be dispatched, the first of them `7`. -/
def tReady (i opc : Nat) (b : List Byte) : Desc := { tDesc i (tHdr opc ++ b) with phase := .ready }

def tMany (d : Desc) (l : List Desc) : State := { tWith d with descs := d :: l }

/-- The clauses on a block in peer memory, and on a full unit, a full choice and a better descriptor. -/
theorem test_dispatch_waits :
    let peer := tReady 7 0x20 (leBytes 8 (0x2000000000000 + peerBase + 2 ^ 40) ++ List.replicate 40 0)
    let gw := tReady 7 0xC1 (List.replicate 48 0)
    let s := tSet (tMany peer []) [(LNK_CFG_TOPO, 1), (LNK_CFG_DIM_X, 4), (LNK_CFG_DIM_Y, 1), (LNK_PORT_STAT_STATE 0, 2),
      (LNK_PORT_STAT_LANES 0, 15), (LNK_PORT_STAT_STATE 1, 2), (LNK_PORT_STAT_LANES 1, 15)]
    s.mayDispatch peer = true ∧
    (match (s.verdict peer).2 with
     | .wait => true
     | _ => false) = true ∧
    (tMany gw ((List.range 8).map (fun i => { gw with id := 8 + i, phase := .dispatched }))).unitFull gw = true := by decide +kernel

theorem test_dispatch_chooses :
    let arr := tReady 7 0x22 (leBytes 4 (1 + 2 ^ 14) ++ List.replicate 44 0)
    (match ((tMany arr []).verdict arr).2 with
     | .go p => ((tMany arr [{ tRun 0x22 (leBytes 4 1) [0] with id := 8, parts := [{ tPart 0 with eng := 15 }] }]).choose arr p).isNone &&
       ((tMany arr []).choose arr p).isSome && (tMany arr [{ arr with id := 6 }]).outranked arr [0] p.units
     | _ => false) = true := by decide +kernel

theorem test_timestamp_writes :
    (nextOf (exec (.timestamp 7) { tWith (tRun 2 (List.replicate 48 0) [36]) with now := 800 })).map (fun t => (t.byte 0, t.byte 1)) =
      some (0xE8, 0x03) ∧
    ((tWith (tRun 2 (List.replicate 48 0) [36])).writeMem ((tWith (tRun 2 (List.replicate 48 0) [36])).mreq
      (tRun 2 (List.replicate 48 0) [36]) 36) false 0 64 (leBytes 8 5)).2 = some (.fail 0x21 64) := by decide +kernel

theorem test_semaphore_saturates :
    tUp.waitersOf 4095 = [] ∧ tUp.flag DBG_TRACE_CFG_EN = false ∧ (∀ t < 4, tUp.flag (DBG_TRIG_W2_EN t) = false) ∧
    ((tSet tUp [(CMD_SEM_COUNT 4095, 0xFFFFFFFF)]).descAdd (tDesc 7 []) 4095 1 1).2 = true := by decide +kernel

theorem test_engine_work :
    (∀ k ∈ [0x20, 0x21, 0x22, 0x40, 0x41, 0x60, 0x61, 0x62, 0x63, 0x10, 0x11, 0x12, 0x13, 0xA1, 0x81],
      (tRun k [] [0]).runnable k = true ∧ (tWith (tRun k [] [0])).clocked (tRun k [] [0]) = true) ∧
    (tWith (tRun 0x20 [] [0])).desc? 7 = some (tRun 0x20 [] [0]) := by decide +kernel

/-- One row of 32 bytes of the pattern at address 32. -/
def tFill : Desc :=
  tRun 0x11 (leBytes 8 32 ++ leBytes 8 0x04030201 ++ leBytes 4 32 ++ leBytes 4 1 ++ List.replicate 24 0) [8] |> ({ · with step := 1 })

theorem test_fill :
    let s := tWith tFill
    s.desc? 7 = some tFill ∧ tFill.runnable 0x11 = true ∧ s.clocked tFill = true ∧ s.secureDesc tFill = false ∧ tFill.parts = [tPart 8] ∧
    tFill.step = 1 ∧
    (tPart 8).st = .running ∧ (tPart 8).row = 0 ∧ (tPart 8).status < 0x10 ∧
    tFill.u 36 2 = 1 ∧ bitsOf (tFill.u 16 8) 0 48 = 32 ∧ tFill.u 32 4 = 32 ∧
    s.firstRefused (s.mreq tFill 8) true false (cwAddrs 32 32) = none := by decide +kernel

theorem test_fill_pattern :
    (nextOf (exec (.dmaFill 7) (tWith tFill))).map (fun t => (t.byte 31, t.byte 32, t.byte 61, t.byte 63, t.byte 64)) =
      some (0, 1, 2, 4, 0) := by decide +kernel

theorem test_part_finishes :
    let d := { tFill with parts := [{ tPart 8 with worked := true }] }
    (tWith d).desc? 7 = some d ∧ d.phase = .dispatched ∧ (∃ p ∈ d.parts, p.isl = 8 ∧ p.active = true ∧ p.worked = true) ∧
    (∀ p ∈ tFill.parts, p.isl = 8 → p.active = false ∨ p.worked = false) := by decide +kernel

/-- Four GiB of DRAM on channel 0, its first 64 MiB a region of partition 3; the backing of context 5 with two slots there. -/
def tDram : State := tSet tCtx
  [(DDR_MAP_EN 0, 1), (DDR_MAP_CHMASK 0, 1), (DDR_MAP_SIZE_GB 0, 4), (DDR_CFG_PRESENT 0, 1), (DDR_CFG_RANKS 0, 1), (MEM_RGN_W0_EN 127, 1),
   (MEM_RGN_W0_WR 127, 1), (MEM_RGN_W0_CRIT 127, 1), (MEM_RGN_W0_PART 127, 3), (MEM_RGN_W0_BASE 127, 0x10000000),
   (MEM_RGN_W1_LIMIT 127, 0x10003FFF), (SPD_CTX_SPILL_SPILL_BASE 5, 0x10000000), (SPD_CTX_SPILL_BORROW_MAX 5, 2)]

/-- A borrow or return of `n` granules with its list at address 0. -/
def tGran (opc n : Nat) : Desc := tRun opc (leBytes 8 n ++ List.replicate 40 0) [36]

theorem test_pass_granule : 511 < 512 ∧ 255 < 256 ∧ 7 < 8 := by decide

theorem test_borrow :
    (∀ n ∈ [3], let d := tGran 0x14 n
      let s := { tDram with descs := [d] }
      s.desc? 7 = some d ∧ d.runnable 0x14 = true ∧ d.step = 0 ∧ d.count10 = n ∧ s.canWrite (s.mreq d 36) d.a24 (8 * n) = none ∧
      s.backingOk 5 = true ∧ (s.freeBorrowSlots 5).length = 2 ∧ 3 ≤ min (s.canGive 1) s.freeGrans.length ∧ s.overMax 5 n = false) ∧
    (let d := tGran 0x14 2
     let s := { tDram with descs := [d] }
     s.canWrite (s.mreq d 36) d.a24 16 = none ∧ s.backingOk 5 = true ∧ ¬ (s.freeBorrowSlots 5).length < 2 ∧
     2 ≤ min (s.canGive 1) s.freeGrans.length ∧ s.overMax 5 2 = false ∧ (tCtx).backingOk 5 = false ∧
     (s.canWrite (s.mreq d 36) 64 16).isSome = true) ∧
    ({ tGran 0x14 2 with step := 1 } : Desc).runnable 0x14 = true := by decide +kernel

theorem test_return :
    let d := tGran 0x15 1
    let s := { tSet tDram [(SPD_GRAN_STATE 2, 2), (SPD_GRAN_CTX 2, 5)] with descs := [d], mem := [(2, 8)] }
    d.runnable 0x15 = true ∧ (s.readMem (s.mreq d 36) d.a24 8).2 = .ok (leBytes 8 0x80000) ∧
    s.get (SPD_GRAN_STATE (0x80000 / 0x40000)) = 2 ∧ s.get (SPD_GRAN_CTX (0x80000 / 0x40000)) = 5 ∧
    (tDram.readMem (tDram.mreq d 36) d.a24 8).2 = .ok (leBytes 8 0) ∧
    (tDram.readMem (tDram.mreq d 36) 64 8).2 = .error (.fail 0x21 64) ∧ tDram.get (SPD_GRAN_STATE 0) ≠ 2 := by decide +kernel

theorem test_spill :
    let s := tSet tDram [(SCH_CTX_STAT_STATE 5, 3)]
    s.ecc = [] ∧ s.get (SCH_CTX_STAT_STATE 5) = 3 ∧ s.backing 5 1 = 0x10000040000 ∧ s.addrError (s.backing 5 1) 0x40000 = none ∧
    0x8000000 ≤ s.backing 5 1 ∧ s.backing 5 1 % 32 = 0 ∧ s.ctxQuiet 5 = true ∧ s.get (SPD_GRAN_STATE 511) = 0 ∧
    (let p : Spill := ⟨5, 1, 511, 0, 0⟩
     let x : Grant := ⟨255, none, [], [(511, 0), (510, 0)]⟩
     let t := { s with spills := [p], grants := [x] }
     t.ecc = [] ∧ p.st = 0 ∧ x.victims = [(p.gran, 0), (510, 0)] ∧ t.ctxQuiet 5 = true ∧
     t.addrError (t.backing 5 1) 0x40000 = none) := by decide +kernel

theorem test_moor :
    let ok : Word64 := BitVec.ofNat 64 (2 ^ 45)
    tDram.opensView (.fn 0) (SCH_CTX_CFG 255) = true ∧ tDram.viewC (.fn 0) 255 = some 255 ∧ bitsOf ok.toNat 45 2 = 1 ∧
    tDram.get (SCH_CTX_STAT_STATE 255) = 0 ∧ tDram.get (SCH_CTX_STAT_STATE 5) = 2 ∧ tDram.moorBad false 255 = true := by decide +kernel

/-- Context 255 of partition 3 before its mooring. -/
def tFresh (grans slots : Nat) : State := tSet tDram
  [(SCH_CTX_CFG_PART 255, 3), (SCH_CTX_CFG_CRIT 255, 1), (SCH_CTX_CFG_GRAN 255, grans), (SCH_CTX_CFG_VSLOTS 255, slots),
   (SCH_CTX_CFG_VCLUSTERS 255, 8), (SCH_CTX_CFG_VSLOTS 5, 1), (SCH_CTX_CFG_VCLUSTERS 5, 8)]

theorem test_moor_reasons :
    (tFresh 1 8).moorBad false 255 = false ∧ (tFresh 1 8).shareShort 255 = true ∧ (tFresh 511 7).shareShort 255 = false ∧
    (tFresh 511 7).overMax 255 511 = false ∧ (tFresh 511 7).pickRun 1 511 = some (1, []) ∧ 1 + 511 ≤ 512 ∧
    (tFresh 512 7).pickRun 1 512 = none := by decide +kernel

theorem test_release :
    let rel : Word64 := BitVec.ofNat 64 (2 * 2 ^ 45)
    let ending := tSet tDram [(SCH_CTX_STAT_STATE 5, 4)]
    bitsOf rel.toNat 45 2 = 2 ∧ tDram.get (SCH_CTX_STAT_STATE 5) = 2 ∧ tDram.viewC (.fn 0) 5 = some 5 ∧
    tDram.opensView (.fn 0) (SCH_CTX_CFG 5) = true ∧ ending.get (SCH_CTX_STAT_STATE 5) = 4 ∧ ending.ctxIdle 5 = true ∧
    ({ ending with descs := [tGran 0x14 1] } : State).ctxIdle 5 = false ∧ tDram.get (SCH_CTX_STAT_STATE 0) = 0 ∧
    ending.lntLetsGo 5 = true ∧ (tSet tDram [(SCH_CTX_STAT_STATE 5, 3)]).opensView (.fn 0) (SCH_CTX_CFG 5) = true := by decide +kernel

theorem test_region_word :
    tUp.reaches (.fn 0) = true ∧ tUp.answers (MEM_RGN_W0 15) = true ∧ isVf (.fn 0) = false ∧
    tDram.opens (.fn 0) (MEM_RGN_W0 16) = true ∧ openFields (MEM_RGN_W0 16) = true ∧
    (let s := tDram.holdWord 16 1 0x10004FFF000 mask64
     s.pageInDram 0x10004000 = true ∧ s.pageInDram (bitsOf (s.heldWord 16 1) 12 36) = true ∧
     0x10004000 ≤ bitsOf (s.heldWord 16 1) 12 36 ∧ s.get (QOS_PART_EN 3) = 1 ∧ s.get (QOS_PART_CRIT 3) = 1 ∧
     s.get (QOS_PART_W 3) = 0) ∧ tDram.pageInDram 0 = false := by decide +kernel

theorem test_command_fault :
    tDram.flag (DDR_CFG_PRESENT 0) = true ∧ tDram.flag (DDR_CFG_PRESENT 7) = false ∧ tDram.get SAF_CTL_ATTEMPTS = 3 := by
  decide +kernel

theorem test_upkeep :
    tDram.fwRuns = true ∧ tDram.zqLast + 128 * 800000 ≤ ({ tDram with now := 102400000 } : State).c ∧
    tDram.c < tDram.zqLast + 128 * 800000 ∧ tDram.flag (DDR_CFG_PRESENT 0) = true ∧ tDram.get (DDR_CFG_RANKS 0) = 1 ∧
    tDram.flag PWR_IRQ_EN = false ∧ tDram.get SPD_CFG_SCRUB_MS ≠ 0 ∧ tDram.dead = false ∧
    (tSet tDram [(SPD_CFG_SCRUB_MS, 0)]).get SPD_CFG_SCRUB_MS = 0 ∧ tDram.get (DDR_SCRUB_PERIOD_H 0) ≠ 0 ∧
    tDram.nextLocal 0 0 = some 0 ∧ tDram.localAddr 0 0 = some 0x10000000000 ∧ tDram.eccAt 0 = none ∧
    ({ tDram with ecc := [(0, some ⟨3, false⟩)] } : State).eccAt 0 = some ⟨3, false⟩ ∧
    (⟨3, false⟩ : EccErr).bits ≤ 2 ∧ (⟨3, false⟩ : EccErr).misdir = false := by decide +kernel

theorem test_hot_dram :
    (nextOf (exec (.dramTempPoll [85, 86]) tDram)).map (fun t => t.get (DDR_CFG_HOT 0)) = some 1 ∧
    (nextOf (exec (.dramTempPoll [85, 85]) tDram)).map (fun t => t.get (DDR_CFG_HOT 0)) = some 0 := by decide +kernel

/-- Window 31 of engine 7 over the whole frame. -/
def tWindows : State := tAct tCtx
  [(SCH_CFG_TP_EN, 1), (SCH_WIN_EN 7 31, 1), (SCH_WIN_LEN_US 7 31, 10000), (SCH_WIN_PART 7 31, 63), (SCH_DWIN_EN 3, 1),
   (SCH_DWIN_LEN_US 3, 20), (DISP_TIM_CLK_ENABLE 3, 1), (DISP_TIM_CLK_PCLK_KHZ 3, 1000), (DISP_TIM_H_HACT 3, 640),
   (DISP_TIM_V_VACT 3, 480)]

theorem test_window_open :
    tWindows.flagA SCH_CFG_TP_EN = true ∧ tWindows.flagA (SCH_WIN_EN 7 31) = true ∧
    tWindows.getA (SCH_WIN_START_US 7 31) * 1000 ≤ tWindows.framePos tWindows.beacon ∧
    tWindows.framePos tWindows.beacon < tWindows.getA (SCH_WIN_START_US 7 31) * 1000 + tWindows.getA (SCH_WIN_LEN_US 7 31) * 1000 * 1000 ∧
    tWindows.fwRuns = true ∧ tWindows.dwins = [] ∧ tCtx.flagA SCH_CFG_TP_EN = false := by decide +kernel

theorem test_display_window :
    tWindows.flagA (SCH_DWIN_EN 3) = true ∧ tWindows.flagA (DISP_TIM_CLK_ENABLE 3) = true ∧ tWindows.isRetired (chDisp 3) = false ∧
    tWindows.periodAbove 3 (tWindows.getA (SCH_DWIN_LEN_US 3)) = true ∧ tWindows.dwins.contains 3 = false ∧
    tCtx.flagA (SCH_DWIN_EN 3) = false ∧ maskBits 8 (tWindows.getA (SCH_DWIN_ENG 3)) = [] := by decide +kernel

/-- The clauses on one display window and one engine: the window rules, and gives way to a window of a higher class. -/
theorem test_display_window_rules :
    let s := tAct { tWindows with regs := (tSet tWindows [(QOS_PART_CRIT 63, 2)]).regs } [(SCH_DWIN_ENG 3, 64), (SCH_DWIN_PART 3, 3)]
    let t := tAct s [(SCH_DWIN_ENG 3, 128)]
    let rules (s : State) (k : Nat) := ({ s with dwins := [3] } : State).winOn k
    (¬ s.dwins.contains 3 = true ∧ maskBits 8 (s.getA (SCH_DWIN_ENG 3)) = [6] ∧ maskBits 8 (t.getA (SCH_DWIN_ENG 3)) = [7]) ∧
    (s.islOn 6 = true ∧ rules s 6 = some (3, true, true) ∧ rules t 7 = some (63, false, false)) := by decide +kernel

theorem test_engine_stop :
    let d := { tRun 0x11 (List.replicate 48 0) [23] with parts := [{ tPart 23 with st := .stopping }] }
    let s := tWith d
    8 ≤ 23 ∧ s.descs = [d] ∧ d.phase = .dispatched ∧ s.readsOut d = [] ∧ s.portHeld d 23 = false ∧
    (∀ x ∈ tCtx.descs, ∀ q ∈ x.parts, q.isl = 23 → q.st ≠ .stopping) := by decide +kernel

/-- Job 255 running since the counter value 0 with a deadline. -/
def tJob (dl : Nat) (missed : Bool) : State :=
  { tSet tCtx [(SCH_JOB_W3_STATE 255, 1), (SCH_JOB_W3_EST_NOW_US 255, 100), (SCH_JOB_W2_EN 255, 1)] with
    now := 40000, jobs := [(255, ⟨0, some dl, [], [], missed, 0, 0, 0, 0⟩)] }

theorem test_deadline :
    let s := tJob 1000 false
    s.fwRuns = true ∧ s.get (SCH_JOB_W3_STATE 255) = 1 ∧ (s.job 255).dl = some 1000 ∧
    s.get (SCH_JOB_W3_DONE 255) ≤ s.get (SCH_JOB_W0_N_M1 255) ∧ (s.job 255).checks < s.checksDue 255 ∧
    s.flag (SCH_JOB_W2_FB_EN 255) = false ∧ (tSet s [(SCH_JOB_W2_FB_EN 255, 1)]).flag (SCH_JOB_W2_FB_EN 255) = true ∧
    s.get (SCH_JOB_W1_FEST_US 255) = 0 ∧ (s.job 255).missed = false ∧ ((tJob 1000 true).job 255).missed = true := by decide +kernel

theorem test_deadline_late :
    ((1000 : Rat) / 4 < 5 / 4 * 40000 + max (100 * 1000 * 1 / 1) 0 * (100 + 10) / 100) ∧
    ¬ ((1000000 : Rat) / 4 < 5 / 4 * 40000 + max (100 * 1000 * 1 / 1) 0 * (100 + 10) / 100) := by norm_num

theorem test_deadline_figures :
    (tJob 1000 false).get (SCH_JOB_W3_EST_NOW_US 255) = 100 ∧ (tJob 1000 false).get (SCH_JOB_W0_N_M1 255) = 0 ∧
    (tJob 1000 false).get (SCH_JOB_W2_MARGIN_PCT 255) = 10 := by decide +kernel

theorem test_deferred_land :
    let x : PeerData := ⟨7, 9, 0, [], [], none, true, some 0⟩
    let s := { tWith (tRun 0 [0] [36]) with peerData := [x] }
    s.rxMine 5 x = true ∧ s.peerData.find? (fun x => x.land && s.rxMine 5 x) = some x ∧
    (∀ x ∈ tCtx.peerData, x.land = true → tCtx.rxMine 5 x = false) := by decide +kernel

theorem test_regulation :
    tCtx.qosIndex tCtx.beacon = tCtx.qosWin ∧ tCtx.dead = false ∧ tCtx.qosHeld = [] ∧
    ({ tCtx with qosWin := 5 } : State).qosIndex tCtx.beacon ≠ 5 := by decide +kernel

theorem test_vf_enable :
    let s := { tSet tUp [(VIRT_FN_W2_VECBASE 1, 64), (VIRT_FN_W2_VECCNT 1, 1), (VIRT_FN_W0_QBASE 1, 64), (VIRT_FN_W0_QCNT 1, 1)] with
               pcie := { tUp.pcie with vfEnable := false } }
    s.dead = false ∧ s.pcie.linkUp = true ∧ s.pcie.vfEnable = false ∧ s.flrGone = [] ∧ s.vfBad 1 1 = false ∧ s.vfBad 2 2 = true := by
  decide +kernel

theorem test_vf_enabled :
    let s := tSet tUp [(VIRT_FN_W2_VECBASE 1, 64), (VIRT_FN_W2_VECCNT 1, 1), (VIRT_FN_W0_QBASE 1, 16383), (VIRT_FN_W0_QCNT 1, 1)]
    (nextOf (exec (.vfEnable 1) s)).map (fun t => (t.get (VIRT_FN_W5_CFG_ERR 1), t.get (CMD_Q_CFG_FUNC 16383), t.get VIRT_CFG_NUM_VF)) =
      some (0, 1, 1) := by decide +kernel

theorem test_heartbeat :
    tVf.bellOk 31 = true ∧ tVf.answers (FN_HB 0) = true ∧ tVf.flag (VIRT_FN_W5_QUIESCED 31) = false ∧
    (tSet tVf [(VIRT_FN_W5_QUIESCED 31, 1)]).flag (VIRT_FN_W5_QUIESCED 31) = true ∧
    mget (fun _ => 0) tVf.hbDue 31 = 0 ∧ mget (fun _ => 0) ({ tVf with hbDue := [(31, 800)], now := 799 } : State).hbDue 31 = 800 ∧
    ({ tVf with hbDue := [(31, 800)], now := 799 } : State).c < 800 ∧ 800 ≤ ({ tVf with hbDue := [(31, 800)], now := 800 } : State).c := by
  decide +kernel

theorem test_quiesce :
    tVf.opens (.fn 0) (VIRT_FN_W4 31) = true ∧ openFields (VIRT_FN_W4 31) = true ∧ tVf.flag (VIRT_FN_W5_QUIESCED 31) = false ∧
    tVf.flag (VIRT_FN_W5_FLR_BUSY 31) = false ∧ (tSet tVf [(VIRT_FN_W5_QUIESCED 31, 1)]).opens (.fn 0) (VIRT_FN_W4 31) = true ∧
    mget (fun _ => 0) ({ tVf with hbDue := [(31, 800)], now := 800 } : State).hbDue 31 ≠ 0 := by decide +kernel

theorem test_flr :
    tVf.reaches (.fn 31) = true ∧ tUp.reaches (.fn 31) = false ∧ tVf.flag (VIRT_FN_W5_FLR_BUSY 31) = false ∧
    (let s := { tSet tVf [(VIRT_FN_W5_FLR_BUSY 31, 1)] with now := 63999999 }
     s.flag (VIRT_FN_W5_FLR_BUSY 31) = true ∧ s.flrSq.contains 31 = false ∧ mget (fun _ => 0) s.flrC 31 + 80 * 800000 ≤ s.c + 1 ∧
     (∀ d ∈ s.descs, s.qFn d.q ≠ 31) ∧ (s.fnCtxs 31).all s.ctxIdle = true ∧ s.flrGone.contains 31 = false) := by decide +kernel

theorem test_pf_flr :
    tUp.reaches (.fn 0) = true ∧ tUp.flag (VIRT_FN_W5_FLR_BUSY 0) = false ∧ tUp.pcie.numVf = 0 ∧ tUp.descs = [] ∧
    State.reset.reaches (.fn 0) = false ∧
    (let s := { tSet tUp [(VIRT_FN_W5_FLR_BUSY 0, 1)] with flrGone := [0] }
     s.flag (VIRT_FN_W5_FLR_BUSY 0) = true ∧ (∀ d ∈ s.descs, s.qFn d.q ≠ 0) ∧ (s.fnCtxs 0).all s.ctxIdle = true ∧
     ∀ f ∈ s.flrGone, f = 0) := by decide +kernel

theorem test_dirty_swap :
    tVf.opens (.fn 0) (VIRT_FN_W6 31) = true ∧ openFields (VIRT_FN_W6 31) = true ∧ tVf.flag (VIRT_FN_W6_SWAP_BUSY 31) = false ∧
    (let s := tSet tVf [(VIRT_FN_W6_SWAP_BUSY 31, 1)]
     s.opens (.fn 0) (VIRT_FN_W6 31) = true ∧ s.flag (VIRT_FN_W6_SWAP_BUSY 31) = true) := by decide +kernel

/-- Display engine 3 on, four lines of two pixels, partition 3 its safe partition; the block of a flip of plane 7 at address 0. -/
def tDisp (d : Desc) : State :=
  let s := tAct (tSet (tWith d) [(DISP_STAT_LINK 3, 2), (DISP_STAT_HPD 3, 1), (DISP_CFG_SAFE_PART 3, 3)])
    [(DISP_TIM_CLK_ENABLE 3, 1), (DISP_TIM_H_HACT 3, 2), (DISP_TIM_V_VACT 3, 4)]
  { s with mem := [(0, 3), (1, 2)], tags := mfill tagDefault 0 16 (BitVec.ofNat 12 (mkTag 3 0 1 0)) [] }

/-- A flip of engine 3 with its block at address 0. -/
def tFlip (opc : Nat) : Desc := tRun opc (leBytes 8 (5 * 2 ^ 48) ++ List.replicate 40 0) [36]

theorem test_flip :
    let s := tDisp (tFlip 0xB0)
    s.desc? 7 = some (tFlip 0xB0) ∧ (tFlip 0xB0).runnable 0xB0 = true ∧
    (match (ePb (tFlip 0xB0)).run.run s with
     | (.ok pb, s1) => bitsOf (u pb 0 4) 0 2 == 3 && bitsOf (u pb 0 4) 2 8 == 128 && s1.dispOn 3 &&
         s1.descPart (tFlip 0xB0) == s1.get (DISP_CFG_SAFE_PART 3) && Nat.land 128 (s1.planesOf (tFlip 0xB0) 3) == 128 &&
         !(tSet s1 [(DISP_STAT_LINK 3, 0)]).dispOn 3 &&
         (tSet s1 [(DISP_CFG_SAFE_PART 3, 4)]).descPart (tFlip 0xB0) != 4
     | _ => false) = true := by decide +kernel

theorem test_latch_instant :
    let s := tDisp (tFlip 0xB0)
    let held := { s with disps := [(3, some { s.disp 3 with held := some 7 })] }
    let taken := { s with disps := [(3, some { s.disp 3 with taken := some 7 })] }
    s.dispOn 3 = true ∧ (held.disp 3).held = some 7 ∧ held.dispOn 3 = true ∧ (s.disp 3).held = none ∧
    (s.disp 3).planes.all (fun p => p.isNone) = true ∧ (taken.disp 3).taken = some 7 ∧ (s.disp 3).taken = none ∧
    (s.disp 3).nextRegions = [] ∧ tUp.dispOn 3 = false ∧ (∃ p ∈ (tFlip 0xB0).parts, p.active = true) ∧
    (∀ p ∈ [({ tPart 36 with st := .stopped } : Part)], p.active = false) := by decide +kernel

/-- Engine 3 scanning at line 3 with a region that ended on line 2. -/
def tScan : State :=
  let s := tDisp (tFlip 0xB1)
  let rs : List Region := List.replicate 15 ⟨0, 0, 0, 0, 0, false, false, 0, 0⟩ ++ [⟨0, 0, 1, 2, 5, true, false, 0xFFFFFFFF, 0⟩]
  { s with disps := [(3, some { s.disp 3 with scanning := true, row := 3, regions := rs })] }

theorem test_scan_out :
    tScan.dispOn 3 = true ∧ (tScan.disp 3).scanning = true ∧ (tScan.disp 3).row < tScan.getA (DISP_TIM_V_VACT 3) ∧
    (tScan.disp 3).planes.filterMap id = [] ∧ (tScan.disp 3).regions.length = 16 ∧
    ((tScan.disp 3).regions[15]?).map (fun g => (g.en, decide (g.y1 < (tScan.disp 3).row), decide (g.crc < 2 ^ 32))) =
      some (true, true, true) ∧ (tUp.disp 3).scanning = false := by decide +kernel

theorem test_disp_safety :
    (tFlip 0xB1).runnable 0xB1 = true ∧
    (match (ePb (tFlip 0xB1)).run.run tScan with
     | (.ok pb, s1) => bitsOf (u pb 0 4) 0 2 == 3 && s1.descPart (tFlip 0xB1) == s1.get (DISP_CFG_SAFE_PART 3) &&
         s1.planesOf (tFlip 0xB1) 3 != 0 && (tSet s1 [(DISP_CFG_SAFE_PART 3, 4)]).descPart (tFlip 0xB1) != 4
     | _ => false) = true := by decide +kernel

/-- An AUX write request of engine 3. -/
def tAux : Desc := tRun 0xB2 (leBytes 8 7 ++ List.replicate 40 0) [36]

theorem test_link_and_aux :
    let s := tDisp tAux
    let vf := tSet s [(CMD_Q_CFG_FUNC 16383, 31), (SCH_CTX_CFG_FUNC 5, 31)]
    s.get (DISP_STAT_LINK 3) ≠ 1 ∧ (tSet s [(DISP_STAT_LINK 3, 1)]).get (DISP_STAT_LINK 3) = 1 ∧
    (tSet s [(DISP_STAT_LINK 3, 0), (DISP_STAT_HPD 3, 0)]).get (DISP_STAT_HPD 3) = 0 ∧ s.get (DISP_STAT_HPD 3) = 1 ∧
    s.isRetired (chDisp 3) = false ∧ s.flagA (DISP_TIM_CLK_ENABLE 3) = true ∧ s.desc? 7 = some tAux ∧ tAux.runnable 0xB2 = true ∧
    bitsOf (tAux.u 16 1) 0 2 = 3 ∧ s.planesOf tAux 3 ≠ 0 ∧ vf.planesOf tAux 3 = 0 ∧ bitOf (tAux.u 16 1) 2 = true ∧
    bitOf ((tRun 0xB2 [3] [36]).u 16 1) 2 = false ∧
    (∀ a ∈ [(⟨7, 3, 5, 1, 0⟩ : AuxSt), ⟨7, 3, 6, 2, 0⟩],
      ({ s with auxs := [a] } : State).auxs.find? (fun b => b.eng == 3) = some a ∧ a.eng = 3 ∧ ({ s with auxs := [a] } : State).desc? a.desc = some tAux) := by
  decide +kernel

/-- What an AUX write reads and where an AUX read writes, and the last request. -/
theorem test_aux_data :
    let s := tDisp tAux
    (s.readMem (s.mreq tAux 32) 0 1).2 = .ok [3] ∧ (s.readMem (s.mreq tAux 32) 4096 1).2 = .error (.fail 0x21 4096) ∧
    (s.writeMem (s.mreq tAux 32) false 0 0 [5]).2 = none ∧
    (((s.sendAux ⟨3, 1, 0, 1, []⟩).out.aux.filter (fun r => r.eng == 3)).getLast?).isSome = true := by decide +kernel

/-- A provider that began at 10000 ns: its first frame is due then, and its second after one period. -/
theorem test_tdm_due :
    let s (n : Nat) := { tAct tCtx [(CAP_TDM_CFG_EN 3, 1), (CAP_TDM_CFG_PROVIDER 3, 1)] with
      tdm := [(3, n)], tdmT0 := [(3, 10000)], now := 8000 }
    (s 1).tdmDue 3 = some 0 ∧ (s 2).tdmDue 3 = some 0 ∧ 0 + 1 < 2 ∧ 1 ≤ 0 + 1 ∧ mget (fun _ => 0) (s 1).tdm 3 = 1 := by decide +kernel

/-- A frame buffer for channel 15 of input 7. -/
def tFrame : Desc := tRun 0xB8 (List.replicate 12 0 ++ leBytes 2 (7 + 15 * 8 + 0x12 * 128) ++ List.replicate 6 0 ++ leBytes 2 1 ++ [2, 0, 1, 0] ++
  List.replicate 22 0) [36]

theorem test_capture :
    let s := tAct (tWith tFrame) [(CAP_CSI_CFG_EN 7, 1), (CAP_TDM_CFG_EN 3, 1), (CAP_TDM_CFG_PROVIDER 3, 1)]
    let b : CapBuf := ⟨7, false, 0, 0, 0, 0, [], 0, false⟩
    let one := { s with caps := [b] }
    s.desc? 7 = some tFrame ∧ tFrame.runnable 0xB8 = true ∧ tFrame.capIn = 7 ∧ tFrame.capVc = 15 ∧ s.camOn 7 = true ∧
    s.capsOf 7 = [] ∧ tCtx.camOn 7 = false ∧ one.caps.find? (fun b => b.desc == 7 && !b.on) = some b ∧ s.secureDesc tFrame = false ∧
    one.c < tFrame.dispC + 800000 * tFrame.u 38 2 ∧ tFrame.dispC + 800000 * tFrame.u 38 2 ≤ ({ one with now := 1600000 } : State).c ∧
    (tRun 0xB9 [] [36]).runnable 0xB9 = true ∧ s.flagA (CAP_TDM_CFG_EN 3) = true ∧ s.flagA (CAP_TDM_CFG_PROVIDER 3) = true ∧
    s.auds = [] ∧ tCtx.flagA (CAP_TDM_CFG_EN 3) = false ∧ mget (fun _ => 0) ({ s with tdm := [(3, 1)] } : State).tdm 3 ≠ 0 ∧
    one.capsOf 7 = [(b, tFrame)] ∧ csiBytes tFrame.capDt = true ∧
    ({ s with caps := [{ b with overrun := true, lines := 1 }] } : State).capsOf 7 = [({ b with overrun := true, lines := 1 }, tFrame)] ∧
    1 = tFrame.u 36 2 ∧ s.tdmDue 3 = none ∧ (tAct s [(CAP_TDM_CFG_PROVIDER 3, 0)]).tdmSlip 3 0 = true ∧
    (tAct s [(CAP_TDM_CFG_PROVIDER 3, 0)]).tdmSlip 3 (1000000000 / s.tdmRate 3) = false := by decide +kernel

/-- The safety block ready, its acknowledgement path open. -/
def tSafe : State := tSet tUp [(SAF_STATUS_SAFETY_READY, 1), (SAF_CTL_ACK_EN, 1), (SAF_CTL_INJECT_EN, 1)]

theorem test_safety_events :
    tSafe.flag SAF_STATUS_SAFETY_READY = true ∧ tSafe.wdgHit = false ∧
    tSafe.seqC + 800000 * (tSafe.seqF + tSafe.getA SAF_CFG_FTTI_MS) ≤ ({ tSafe with now := 800000000 } : State).c ∧
    ¬ tSafe.seqC + 800000 * (tSafe.seqF + tSafe.getA SAF_CFG_FTTI_MS) ≤ tSafe.c ∧ tSafe.opens (.fn 0) SAF_EVT = true ∧
    openFields SAF_EVT = true ∧ tSafe.dead = false ∧ tSafe.flag SAF_CTL_ACK_EN = true ∧
    (tSet tSafe [(SAF_CTL_ACK_EN, 0)]).flag SAF_CTL_ACK_EN = false := by
  decide +kernel

theorem test_golden :
    let g : Gold := ⟨true, false, 0, 0, true, false, false⟩
    let s := { tSafe with gold := [(7, some g)], now := 0x10000000 }
    s.flag SAF_STATUS_SAFETY_READY = true ∧ s.fwRuns = true ∧ s.fttiT < s.beacon / s.fttiNs * s.fttiNs ∧
    s.isRetired 7 = false ∧ s.islOn 7 = true ∧ (tSet s [(PWR_STAT_GATED, 128)]).islOn 7 = false ∧
    mget (fun _ => none) tSafe.gold 7 = none ∧ mget (fun _ => none) s.gold 7 = some g ∧ mget (fun _ => 0) s.gtInject 7 = 0 ∧
    0 + 1 < s.get SAF_CTL_ATTEMPTS ∧ s.get SAF_CTL_ATTEMPTS ≤ 2 + 1 ∧ (s.transient 7).rateHit 7 = false ∧
    s.fttiFrom ≤ s.beacon / s.fttiNs * s.fttiNs ∧ ((tSet s [(SAF_CTL_RATE_CNT, 0)]).transient 7).rateHit 7 = true ∧
    s.slotT + s.getA SAF_CFG_VCL_SLOT_US * 1000 ≤ s.beacon ∧
    ¬ tSafe.slotT + tSafe.getA SAF_CFG_VCL_SLOT_US * 1000 ≤ tSafe.beacon ∧ tUp.flag SAF_STATUS_SAFETY_READY = false := by decide +kernel

theorem test_golden_opcodes :
    let run := tRun 0xE8 (leBytes 8 128 ++ List.replicate 40 0) [36]
    let inj := tRun 0xE9 (List.replicate 48 0) [36]
    let s := { tSafe with descs := [run] }
    run.runnable 0xE8 = true ∧ run.step = 0 ∧ s.qFn run.q = 0 ∧ run.u 16 1 = 2 ^ 7 ∧ s.isRetired 7 = false ∧
    inj.runnable 0xE9 = true ∧ tSafe.flag SAF_CTL_INJECT_EN = true ∧ tUp.flag SAF_CTL_INJECT_EN = false ∧
    (tSet s [(CMD_Q_CFG_FUNC 16383, 31)]).qFn run.q ≠ 0 ∧
    (∀ n ∈ [0, 1, 2, 3, 4], (List.range 256).any (fun k => injKind (tRun 0xE9 (leBytes 8 k ++ List.replicate 40 0) [36]) == n) = true) ∧
    spaceOf inj.a24 = .spd ∧ tSafe.addrError inj.a24 32 = none := by decide +kernel

/-- Pairs 0 and 3 online, every block owned by pair 0. -/
def tPairs : State := tSet tUp [(KPR_PAIR_STAT_STATE 3, 2)]

theorem test_pairs :
    tPairs.pairSt 3 = 2 ∧ tPairs.pairSt 1 ≠ 2 ∧ (tSet tPairs [(KPR_PAIR_STAT_STATE 0, 3)]).fewest = some 3 ∧ tPairs.dead = false ∧
    (tSet tPairs [(KPR_PAIR_STAT_STATE 3, 3)]).pairSt 3 = 3 ∧ tPairs.spreadOwner 255 = 3 ∧ tPairs.blockOwner 255 = 0 ∧
    (∃ d ∈ [tDesc 7 []], d.q / 64 = 255 ∧ d.phase = .fetched) ∧
    (∀ d ∈ tPairs.descs, d.q / 64 = 255 → d.phase = .dispatched ∨ d.phase = .ended) := by decide +kernel

/-- A request in the host mailbox. -/
def tMail (cmd len seq ctr : Nat) (payload : List Byte) : State :=
  let s := tSet { tUp with lnt := { tUp.lnt with goSeq := seq, life := 1, uds := List.replicate 32 1 } }
    [(LNT_INFO_READY, 1), (LNT_MB_CTL_BUSY, 1)]
  let bs := leBytes 2 cmd ++ leBytes 2 len ++ leBytes 4 seq ++ leBytes 8 ctr ++ payload
  (List.range ((bs.length + 7) / 8)).foldl (fun s i => s.setReg (LNT_MB_REQ i) (BitVec.ofNat 64 (leNat (bytesAt bs (8 * i) 8)))) s

/-- The same with a host secure channel key. -/
def tSealed (cmd len : Nat) (payload : List Byte) : State :=
  let s := tMail cmd len 9 5 payload
  { s with lnt := { s.lnt with hsck := some (List.replicate 32 1), hsckOtp := some (List.replicate 32 1) } }

theorem test_mailbox :
    let go := tSet tUp [(LNT_INFO_READY, 1)]
    go.opens (.fn 0) LNT_MB_CTL = true ∧ go.flag LNT_MB_CTL_BUSY = false ∧ (tMail 1 0 9 0 []).flag LNT_MB_CTL_BUSY = true ∧
    bitOf (0xFFFFFFFF#32).toNat 0 = true ∧ (mbLenOf (tMail 1 0 9 0 []).mbCmd).isSome = true ∧ tUp.mbIs 1 = false ∧
    (tMail 1 1 9 0 []).mbIs 1 = true ∧ (tMail 1 1 9 0 []).mbCheck 1 = 2 ∧ (tMail 2 0 9 0 []).mbCheck 2 = 2 ∧
    (tMail 3 0 8 1 []).mbCheck 3 = 9 ∧ (tMail 0x20 31 9 0 []).mbCheck 0x20 = 2 := by decide +kernel

theorem test_mailbox_acts :
    (tMail 1 0 9 0 []).mbIs 1 = true ∧ (tMail 1 0 9 0 []).mbCheck 1 = 0 ∧ (tMail 2 4 9 0 [0, 0, 0, 0]).mbIs 2 = true ∧
    (tMail 2 4 9 0 [0, 0, 0, 0]).mbCheck 2 = 0 ∧ (tMail 3 64 9 0 (List.replicate 64 7)).mbIs 3 = true ∧
    (tMail 3 64 9 0 (List.replicate 64 7)).mbCheck 3 = 0 ∧ (tMail 0x20 32 9 0 (List.replicate 32 7)).mbIs 0x20 = true ∧
    (tMail 0x20 32 9 0 (List.replicate 32 7)).mbCheck 0x20 = 0 ∧ (List.replicate 16376 (0 : Byte)).length ≤ 16376 := by decide +kernel

theorem test_secure_commands :
    (∀ k ∈ [(0x10, 4), (0x11, 32), (0x12, 4), (0x13, 16), (0x14, 4), (0x15, 16), (0x21, 0)],
      let s := tSealed k.1 k.2 (List.replicate 48 0)
      s.lnt.wait = none ∧ s.mbIs k.1 = true ∧ s.mbCheck k.1 = 0 ∧ (tSealed k.1 (k.2 + 1) []).mbCheck k.1 ≠ 0 ∧ tUp.mbIs k.1 = false) ∧
    (let s := tSealed 0x14 4 [5, 0, 0, 0]
     let w := tSet { s with lnt := { s.lnt with wait := some 5 } } [(SCH_CTX_STAT_STATE 5, 4)]
     w.lnt.wait = some 5 ∧ w.mbIs 0x14 = true ∧ w.lnt.tampered = false ∧ w.get (SCH_CTX_STAT_STATE 5) = 4) ∧
    (let s := tSealed 0x13 16 (List.replicate 16 0)
     let w := tSet { s with lnt := { s.lnt with wait := some 5 } } [(SCH_CTX_STAT_STATE 5, 1)]
     w.lnt.wait = some 5 ∧ w.mbIs 0x13 = true ∧ w.lnt.tampered = false ∧ w.get (SCH_CTX_STAT_STATE 5) = 1) := by decide +kernel

theorem test_secure_cases :
    tCtx.partInUse 3 = true ∧ tCtx.get (SCH_CTX_STAT_STATE 5) = 2 ∧ tUp.get (SCH_CTX_STAT_STATE 5) = 0 ∧
    bitsOf 0 45 2 = 0 ∧ tUp.funcHeld (tUp.get (SCH_CTX_CFG_FUNC 5)) = false ∧ regAt 0xE8 = none ∧
    (regAt (ARR_CHK_CFG 3)).map (·.2) = some (ARR_CHK_CFG 3) ∧ stagedIsland (ARR_CHK_CFG 3) = some 3 ∧ tUp.secIsl 3 = false := by
  decide +kernel

/-- A dispatched secure descriptor holds island 3. -/
def tSecIsl : State :=
  tSet (tWith (tRun 0x10 (List.replicate 48 0) [3])) [(⟨LNT_SQ 255, 63, 1⟩, 1), (QOS_PART_W 3, 1)]

theorem test_tamper :
    State.reset.pins.held = true ∧ tUp.pins.held = false ∧
    (∀ c < 256, tUp.ctxW c = true → tUp.get (SCH_CTX_STAT_STATE c) = 0 ∨ tUp.get (SCH_CTX_STAT_STATE c) = 5) ∧
    tUp.flag LNT_INFO_READY = false ∧ (tSet tUp [(LNT_INFO_READY, 1)]).flag LNT_INFO_READY = true ∧ tUp.dead = false := by
  decide +kernel

/-- Lantern and firmware run. -/
def tKeeper : State := tSet tUp [(LNT_INFO_READY, 1)]

theorem test_keeper_requests :
    let s := tKeeper
    let x : StoreSt := ⟨1, 4, [], [1, 2, 3]⟩
    s.dead = false ∧ s.flag LNT_INFO_READY = true ∧ s.flag TOP_FW_STAT_RECOVERY = false ∧ s.pairsOn ≠ [] ∧ s.lnt.tampered = false ∧
    ({ s with lnt := { s.lnt with tampered := true } } : State).lnt.tampered = true ∧ s.lnt.store = none ∧
    ({ s with lnt := { s.lnt with store := some x } } : State).lnt.store = some x ∧ x.len < x.plain.length + [1, 2].length ∧
    ([9] : List Byte) ≠ [] ∧ [9].length ≤ 4076 ∧ x.plain.length + [9].length ≤ x.len ∧ s.lnt.hsck = none ∧ s.lnt.sk = none ∧
    ({ s with lnt := { s.lnt with hsck := some [], sk := some [] } } : State).lnt.sk ≠ none ∧ s.secIsl 3 = false ∧
    tSecIsl.secIsl 3 = true ∧ tSecIsl.lntCap 3 < 65537 ∧ 65536 ≤ tSecIsl.lntCap 3 ∧ tSecIsl.islWorks 3 = true ∧
    s.flag LNT_MB_CTL_BUSY = false ∧ State.reset.dead = true ∧
    (let t := tSet tCtx [(QOS_PART_W 3, 1), (SCH_CTX_CFG_VCLUSTERS 5, 8)]
     t.secIsl 7 = true ∧ t.islWorks 7 = false ∧ t.secRes 7 = false) := by decide +kernel

/-- Recovery mode with the port open, and firmware with a session. -/
def tRecov : State :=
  let s := tSet tLive [(TOP_FW_STAT_RECOVERY, 1)]
  { s with lnt := { s.lnt with uds := List.replicate 32 1 } }
def tSession : State :=
  { tUp with svc := { tUp.svc with opened := true, next := 5 }, lnt := { tUp.lnt with sk := some (List.replicate 32 3) } }

theorem test_service_frames :
    let f (ty fl : Nat) (b : List Byte) := mkFrame ty fl 5 b
    tUp.svcUp = true ∧ tLive.svcUp = false ∧ frOk (f 1 0 (List.replicate 32 0)) = true ∧ frOk (f 1 4 []) = false ∧
    frOk (f 1 0 [] ++ [0]) = false ∧ bitOf (frFlags (f 1 0 [])) 1 = false ∧ bitOf (frFlags (f 1 2 [])) 1 = true ∧
    frType (f 0x10 0 []) ≠ 1 ∧ frKnown (frType (f 0x10 0 [])) = true ∧ bitOf (frFlags (f 1 0 [])) 0 = false ∧
    frSeq (f 1 0 []) = ({ tUp with svc := { tUp.svc with seq := 5, cached := some [] } } : State).svc.seq ∧
    (tUp.svc.seq = 5 → tUp.svc.cached = none) ∧ tUp.flag TOP_FW_STAT_RECOVERY = false := by decide +kernel

theorem test_recovery_frames :
    let f (ty : Nat) (b : List Byte) := mkFrame ty 0 5 b
    let u : UpdSt := ⟨true, 0, 5, [1, 2, 3, 4]⟩
    let up := { tRecov with svc := { tRecov.svc with upd := some u } }
    tRecov.svcUp = true ∧ tRecov.flag TOP_FW_STAT_RECOVERY = true ∧ frBody (f 1 (List.replicate 32 1)) = List.replicate 32 1 ∧
    frBody (f 2 [4]) = [4] ∧ leNat ([4] : List Byte) ≤ 4 ∧ frBody (f 0x10 []) = [] ∧ tRecov.erased = false ∧ tRecov.svc.upd = none ∧
    8192 ≤ leNat (leBytes 4 6287360) ∧ leNat (leBytes 4 6287360) ≤ 6287360 ∧
    up.svc.upd = some u ∧ u.recov = true ∧ leNat ((leBytes 4 4 ++ [9]).take 4) = u.data.length ∧
    u.data.length + ((leBytes 4 4 ++ [(9 : Byte)]).length - 4) ≤ u.len ∧ (leBytes 4 4 ++ [(9 : Byte)]).length = 5 ∧
    ({ u with data := u.data ++ [9] } : UpdSt).data.length = u.len := by decide +kernel

theorem test_encrypted_frames :
    let f := mkFrame 0x30 1 5 (List.replicate 40 0)
    tSession.svcUp = true ∧ frOk f = true ∧ bitOf (frFlags f) 0 = true ∧ bitOf (frFlags f) 1 = false ∧ frSeq f = tSession.svc.next ∧
    tSession.flag TOP_FW_STAT_RECOVERY = false ∧ tSession.svc.opened = true ∧ tSession.lnt.sk ≠ none ∧
    tSession.flag TOP_FW_STAT_PAUSE = false ∧ tSession.armedFor 36 = false ∧ tSession.svc.upd = none ∧ tSession.arm = none ∧
    0 % 2 = tSession.get BOOT_ACT_SLOT ∧ (List.replicate 24 (0 : Byte)).length = 24 ∧ tSession.dead = false ∧
    tSession.c < tSession.svc.lastC + 4000000000 ∧ tSession.svc.lastC + 4000000000 ≤ ({ tSession with now := 4000000000 } : State).c ∧
    tSession.svc.resetC = 0 ∧ ({ tSession with svc := { tSession.svc with resetC := 1 }, now := 8000000 } : State).svc.resetC + 8000000 ≤
      ({ tSession with now := 8000000 } : State).c + 1 := by decide +kernel

theorem test_activation :
    let img : List Byte := [1, 2, 3]
    let s := { tSet tUp [(BOOT_STAT_PRELOAD, 2), (BOOT_SLOT_STATE 1, 1), (BOOT_ACT_SLOT, 1)] with stageImg := some (1, img), runImg := img }
    s.opens (.fn 0) BOOT_ACT = true ∧ s.armedFor 36 = false ∧ s.actv = none ∧ s.fwRuns = true ∧ s.bootOk 1 = true ∧
    s.dirtyKeys 36 ⊆ [BOOT_ACT] ∧ ¬ tUp.bootOk 1 = true ∧ bitsOf (3#32).toNat 0 1 = s.get BOOT_ACT_SLOT ∧ bitOf (3#32).toNat 1 = true ∧
    bitOf (1#32).toNat 1 = false ∧ ({ tUp with arm := some { tArm with units := 2 ^ 36 } } : State).armedFor 36 = true ∧
    tUp.get BOOT_STAT_PRELOAD ≠ 1 ∧ (tSet tUp [(BOOT_STAT_PRELOAD, 1)]).get BOOT_STAT_PRELOAD = 1 ∧
    (let a : ActSt := ⟨1, 7⟩
     let t := { s with actv := some a }
     t.actv = some a ∧ t.dead = false ∧ t.c < a.c0 + 12000000 ∧ t.svc.actWait = false ∧ t.dbLatch = [] ∧
     t.stageImg = some (a.slot, img) ∧ a.c0 + 12000000 ≤ ({ t with now := 12000007 } : State).c ∧
     a.c0 + 12000000 < ({ t with now := 12000008 } : State).c) := by decide +kernel

/-- The driver sets Beacon time. -/
def tBcn : State := { tSet tUp [(BCN_STATUS_SRC_ACTIVE, 3), (BCN_JUMP_LIMIT_LIMIT_NS, 1000), (BCN_STEP_DELTA_DELTA, 1000)] with now := 4000000 }

theorem test_beacon_steps :
    tUp.opens (.fn 0) BCN_RATE = true ∧ tBcn.get BCN_STATUS_SRC_ACTIVE = 3 ∧ tUp.get BCN_STATUS_SRC_ACTIVE ≠ 3 ∧
    (0x13FDF3B63#64).toNat % 2 ^ 40 < 0x13FDF3B64 ∧ 0x14020C49C < (0x14020C49D#64).toNat % 2 ^ 40 ∧
    (0x14020C49C#64).toNat % 2 ^ 40 ≤ 0x14020C49C ∧ tBcn.opens (.fn 0) BCN_STEP_CTL = true ∧ bitOf (3#32).toNat 0 = true ∧
    bitOf (1#32).toNat 1 = false ∧ bitOf (3#32).toNat 1 = true ∧
    ¬ tBcn.get BCN_JUMP_LIMIT_LIMIT_NS < absDelta (tBcn.get BCN_STEP_DELTA_DELTA) ∧
    (tSet tBcn [(BCN_STEP_DELTA_DELTA, 2 ^ 64 - 1001)]).get BCN_JUMP_LIMIT_LIMIT_NS <
      absDelta ((tSet tBcn [(BCN_STEP_DELTA_DELTA, 2 ^ 64 - 1001)]).get BCN_STEP_DELTA_DELTA) ∧
    tBcn.arm = none ∧ tBcn.flag SAF_STATUS_SAFETY_READY = false ∧ (∀ n < 64, tBcn.trigNext n = none) := by decide +kernel

theorem test_beacon_sources :
    let g := tSet tBcn [(BCN_STATUS_SRC_ACTIVE, 1), (BCN_STATUS_STATE, 1)]
    let p := tAct (tSet tBcn [(BCN_STATUS_SRC_ACTIVE, 2), (BCN_STATUS_STATE, 1)]) [(BCN_CFG_PEER_ID, 7)]
    g.get BCN_STATUS_SRC_ACTIVE = 1 ∧ g.fwRuns = true ∧ p.get BCN_STATUS_SRC_ACTIVE = 2 ∧ p.getA BCN_CFG_PEER_ID = 7 ∧
    p.bcn.lastC + 100000 ≤ p.c ∧ p.bcn.lastC + 800000 ≤ p.c ∧ ({ p with now := 99999 } : State).c < p.bcn.lastC + 100000 ∧
    g.get BCN_STATUS_STATE ≠ 0 ∧ g.get BCN_JUMP_LIMIT_LIMIT_NS < absDelta ((2 ^ 63 + 2 ^ 64 - g.beacon) % 2 ^ 64) ∧
    g.get BCN_STATUS_STATE = 1 ∧ tUp.get BCN_STATUS_STATE ≠ 1 ∧ (tSet g [(GW_ETH_PORT_EN 7, 1), (GW_ETH_PORT_AS_EN 7, 1)]).asPort 7 = true ∧
    g.asPort 7 = false := by decide +kernel

theorem test_comparators :
    let s := { tSet tBcn [(BCN_TRIG_W0_TIME 47, 5000000), (BCN_TRIG_W1_PERIOD_NS 47, 1)] with
      bcn := { tBcn.bcn with next := [(63, some 5000000), (62, some 5000001)], pulse := [(3, 4000001), (2, 4000002)] } }
    s.beacon = 5000000 ∧ s.trigNext 63 = some 5000000 ∧ s.dead = false ∧ s.trigNext 62 = some 5000001 ∧ s.trigNext 61 = none ∧
    s.opens (.fn 0) (BCN_TRIG_W2 48) = true ∧ s.opens (.fn 0) (BCN_TRIG_W2 47) = true ∧ s.flag (BCN_TRIG_W2_EN 47) = false ∧
    s.beacon ≤ s.get (BCN_TRIG_W0_TIME 47) ∧ s.get (BCN_TRIG_W0_TIME 46) < s.beacon ∧ 0 < s.get (BCN_TRIG_W1_PERIOD_NS 47) ∧
    bitOf (1#64).toNat 0 = true ∧ bitOf (1#64).toNat 1 = false ∧ bitOf (3#64).toNat 1 = true ∧ bitOf (2#64).toNat 0 = false ∧
    mget (fun _ => 0) s.bcn.pulse 3 ≠ 0 ∧ mget (fun _ => 0) s.bcn.pulse 3 ≤ s.c + 1 ∧ s.c + 1 < mget (fun _ => 0) s.bcn.pulse 2 ∧
    mget (fun _ => 0) s.bcn.pulse 1 = 0 := by decide +kernel

/-- Device 0 of a ring of four, port 0 up, its imports open to partition 3. -/
def tLink (ds : List Desc) : State :=
  { tSet tCtx [(LNK_CFG_TOPO, 1), (LNK_CFG_DIM_X, 4), (LNK_CFG_DIM_Y, 1), (LNK_PORT_STAT_STATE 0, 2), (LNK_PORT_STAT_LANES 0, 15),
      (LNK_PORT_STAT_STATE 1, 1), (LNK_RSEM_BASE, 4095), (LNK_RSEM_CNT, 1), (LNK_IMPORT_PARTS, 8)] with descs := ds, nextId := 8 }

theorem test_peer_requests :
    let s := tLink []
    let k : LnkReq := ⟨1, 0, 5, 0, 32, 3, false, 0⟩
    s.linkIn 0 = true ∧ s.linkIn 1 = false ∧ s.get LNK_RSEM_BASE ≤ 4095 ∧ 4095 < s.get LNK_RSEM_BASE + s.get LNK_RSEM_CNT ∧
    4094 < s.get LNK_RSEM_BASE ∧ s.waitersOf 4095 = [] ∧ k.dst = s.get LNK_CFG_DEV_ID ∧ 0 < k.len ∧
    (List.replicate 32 (7 : Byte)).length = k.len ∧ bitOf (s.get LNK_IMPORT_PARTS) 4 = false ∧ s.flag LNK_SEC_SEC_EN = false ∧
    (s.lnkCheck (lnkReq 0 k) false (windowAddr k.addr) k.len).2 = none ∧ s.ecc = [] ∧
    (s.lnkCheck (lnkReq 0 k) true (windowAddr k.addr) k.len).2 = none ∧ windowAddr k.addr % 32 = 0 ∧ k.len % 32 = 0 ∧
    [1] = List.replicate (k.len / 32) 1 ∧ 2 ≠ s.get LNK_CFG_DEV_ID ∧ (s.gotFlits 0 1).routePort 2 0 = some 0 ∧
    (s.gotFlits 0 1).routePort 4 0 = none ∧ nth 0 (s.port 0).credits 0 ≠ 0 ∧ (s.port 0).fwd = [] := by decide +kernel

/-- A request to a codeword of another partition, and one to a codeword with three bits in error. -/
theorem test_peer_requests_refused :
    let s := { tLink [] with ecc := [(0, some ⟨BitVec.ofNat 288 (1 + 2 ^ 100 + 2 ^ 200), false⟩)] }
    let k : LnkReq := ⟨1, 0, 5, 64, 32, 3, false, 0⟩
    ((s.gotFlits 0 1).lnkCheck (lnkReq 0 k) false (windowAddr k.addr) 32).2 = some 0x21 ∧
    ((s.gotFlits 0 2).lnkCheck (lnkReq 0 k) true (windowAddr k.addr) 32).2 = some 0x21 ∧
    ((s.gotFlits 0 1).lnkCheck (lnkReq 0 k) false 0 32).2 = none ∧
    ((s.gotFlits 0 1).decodeAll (lnkReq 0 k) (cwAddrs 0 32)).2 = false ∧
    ((tLink []).decodeAll (lnkReq 0 k) (cwAddrs 0 32)).2 = true := by decide +kernel

theorem test_ports :
    let s := tLink []
    let r := { s with ports := [(0, ⟨0, 0, [64, 64, 64, 64, 64, 64], [1, 2], [], [], 0, none, false, 0⟩)] }
    s.opens (.fn 0) (LNK_PORT_CFG 3) = true ∧ openFields (LNK_PORT_CFG 3) = true ∧ s.get (LNK_PORT_STAT_STATE 3) ≠ 4 ∧
    s.flag (LNK_PORT_CFG_EN 3) = false ∧ (tSet s [(LNK_PORT_CFG_EN 3, 1)]).flag (LNK_PORT_CFG_EN 3) = true ∧
    bitOf (1#32).toNat 0 = true ∧ s.get (LNK_PORT_STAT_STATE 3) ≠ 1 ∧ s.get (LNK_PORT_STAT_STATE 3) ≠ 3 ∧ s.dead = false ∧
    s.get (LNK_PORT_STAT_STATE 1) = 1 ∧ s.neighbour 1 = some 3 ∧ 3 ≠ s.get LNK_CFG_DEV_ID ∧ s.goodLanes 1 8 ≠ 0 ∧
    (s.port 1).queued = [] ∧ s.neighbour 1 ≠ some 2 ∧ (s.port 0).nakSent = false ∧
    (r.port 0).replay.contains 2 = true ∧ ((r.port 0).replay.dropWhile (· != 1)).drop 1 ≠ [] ∧
    ({ s with ports := [(0, { portDefault 0 with nakSent := true })] } : State).port 0 = { portDefault 0 with nakSent := true } := by
  decide +kernel

/-- A link descriptor for device 1 and semaphore 4095. -/
def tLnkDesc (opc : Nat) : Desc := tRun opc (leBytes 4 (1 + 4095 * 64) ++ leBytes 4 1 ++ List.replicate 40 0) [34]

theorem test_peer_responses :
    let o (op : Nat) : LnkOut := ⟨9, 1, 7, op, 0, 1, 0, false, 0⟩
    let s (op opc : Nat) := { tLink [tLnkDesc opc] with lnkOut := [o op] }
    let k : LnkRsp := ⟨1, 9, 0⟩
    (tLink []).linkIn 0 = true ∧ (tLink []).outReq k 0 = none ∧ (tLink []).outReq k 1 = none ∧ (tLink []).outReq k 4 = none ∧
    (tLink []).outReq k 6 = none ∧ (s 0 0x00).outReq k 0 = some (o 0) ∧ (List.replicate 32 (1 : Byte)).length = 32 * (o 0).len ∧
    (s 1 0x00).outReq k 1 = some (o 1) ∧ (s 4 0xD0).outReq k 4 = some (o 4) ∧ (s 4 0xD0).desc? (o 4).desc = some (tLnkDesc 0xD0) ∧
    bitsOf ((tLnkDesc 0xD0).u 16 4) 6 12 = 4095 ∧ (s 6 0xD1).outReq k 6 = some (o 6) ∧
    (tLink []).lnkOut.find? (fun o => o.tag == 9) = none ∧ (s 0 0).lnkOut.find? (fun o => o.tag == 9) = some (o 0) ∧
    (s 0 0).c < (o 0).sentC + 800 * (tSet (s 0 0) [(LNK_CFG_TIMEOUT_US, 1)]).get LNK_CFG_TIMEOUT_US ∧
    (tLnkDesc 0xD0).runnable 0xD0 = true ∧ (tLnkDesc 0xD0).step = 0 ∧ (tLnkDesc 0xD1).runnable 0xD1 = true ∧
    lnkDev (tLnkDesc 0xD0) = 1 ∧ (tLink []).routePort 1 0 = some 0 ∧ tCtx.routePort 1 0 = none ∧
    2 ≤ ({ tLnkDesc 0xD1 with step := 2 } : Desc).step ∧ ({ tLnkDesc 0xD1 with step := 1 } : Desc).runnable 0xD1 = true := by
  decide +kernel

/-- CAN controller 15 on; route 1023 takes its frame 5 into slot 1023. -/
def tCan : State :=
  { tSet tUp [(GW_CAN_CFG_EN 15, 1), (GW_CAN_CFG_FD 15, 1), (GW_CAN_STAT_STATE 15, 1), (GW_ROUTE_W0_EN 1023, 1),
      (GW_ROUTE_W0_SRC_IF 1023, 15), (GW_ROUTE_W0_DST_KIND 1023, 2), (GW_ROUTE_W1_ID 1023, 5), (GW_ROUTE_W1_ID_MASK 1023, 0x1FFFFFFF),
      (GW_ROUTE_W2_SLOT 1023, 1023), (GW_ROUTE_W0_PERIOD_US 1023, 1)] with now := 8000 }

def tFrameC (rtr : Bool) : CanFrame := ⟨5, false, false, false, rtr, [1, 2, 3]⟩

theorem test_can_routes :
    (∀ r < 1024, tCan.routeMatch 0 15 (tFrameC false) r = true ↔ r = 1023) ∧
    tCan.flag (GW_ROUTE_W0_MODE 1023) = false ∧ tCan.get (GW_ROUTE_W0_DST_KIND 1023) = 2 ∧ (tFrameC false).data.length ≤ 64 ∧
    (tSet tCan [(GW_ROUTE_W0_MODE 1023, 1)]).flag (GW_ROUTE_W0_MODE 1023) = true ∧ (tCan.rte 1023).fresh = false ∧
    (tCan.rte 1023).lastT = 0 := by decide +kernel

theorem test_can_frames :
    let p : CanPend := ⟨tFrameC false, 0, none, none⟩
    let s := { tCan with gw := { tCan.gw with can := [(15, ⟨[p], 0⟩)] } }
    tCan.canOn 15 = true ∧ tCan.dead = false ∧ tCan.canOn 14 = false ∧ (tFrameC true).rtr = true ∧
    tCan.flag (GW_CAN_CFG_FD 15) = true ∧ tCan.flag (GW_CAN_CFG_FD 14) = false ∧ tCan.flag (GW_CAN_CFG_LISTEN 15) = false ∧
    s.get SAF_CTL_ATTEMPTS = 3 ∧ (s.can 15).pend ≠ [] ∧ (tCan.can 15).pend = [] ∧ s.gw.tx = [] ∧ s.canState 15 ≠ 3 ∧
    (tSet s [(GW_CAN_STAT_STATE 15, 3)]).canState 15 = 3 ∧
    (∀ r < 1, tCan.routeMatch 0 15 (tFrameC false) r = false) := by decide +kernel

theorem test_route_instant :
    let m := tSet tCan [(GW_ROUTE_W0_MODE 1023, 1)]
    let v (x : RouteSt) : State := { m with gw := { m.gw with routes := [(1023, x)] } }
    m.flag (GW_ROUTE_W0_EN 1023) = true ∧ m.flag (GW_ROUTE_W0_MODE 1023) = true ∧ m.rteInstant 1023 = some 10000 ∧
    (m.rte 1023).value = none ∧ (m.rte 1023).lastT ≤ 10000 ∧ 10000 < ((v ⟨none, false, 10001⟩).rte 1023).lastT ∧
    ((v ⟨some (tFrameC false, 10000), true, 10000⟩).rte 1023).value = some (tFrameC false, 10000) ∧
    tCan.rteInstant 1022 = none ∧ tCan.flag (GW_ROUTE_W0_EN 0) = false := by decide +kernel

theorem test_acf_streams :
    let ms : List AcfMsg := [⟨2, 5, false, false, false, 0, [1, 2]⟩]
    let t := { tSet tCan [(GW_ACF_W0_EN 31, 1), (GW_ACF_W0_TALKER 31, 1), (GW_ACF_W0_PERIOD_US 31, 1)] with
      gw := { tCan.gw with acf := [(31, ⟨0, false, ms, [], 0⟩)] } }
    let l := { tSet tCan [(GW_ACF_W0_EN 31, 1), (GW_ACF_W0_TSCF 31, 1)] with
      gw := { tCan.gw with acf := [(31, ⟨0, false, [], [(10000, ms), (10001, [])], 0⟩)] } }
    let f (ts : Nat) (k : Nat) : AcfFrame := ⟨0, 5, 0, 0, true, ts, 1522, [⟨k, 5, false, false, false, 0, [1, 2]⟩]⟩
    t.get (GW_ACF_W0_PERIOD_US 31) ≠ 0 ∧ t.flag (GW_ACF_W0_EN 31) = true ∧ t.flag (GW_ACF_W0_TALKER 31) = true ∧ t.dead = false ∧
    (t.acf 31).lastT < t.beacon / (t.get (GW_ACF_W0_PERIOD_US 31) * 1000) * (t.get (GW_ACF_W0_PERIOD_US 31) * 1000) + 1 ∧
    (t.acf 31).msgs ≠ [] ∧ ((t.acf 31).msgs.map acfBytes).sum ≤ 1400 ∧ (l.acf 31).msgs = [] ∧
    l.flag (GW_ACF_W0_EN 31) = true ∧ l.flag (GW_ACF_W0_TALKER 31) = false ∧ (f 0 2).streamId = l.get (GW_ACF_W1_STREAM_ID 31) ∧
    l.flag (GW_ACF_W0_TSCF 31) = true ∧ (∀ m ∈ (f 0 2).msgs, m.kind = 1 ∨ m.kind = 2 ∨ m.kind = 5) ∧ (f 0 2).len ≤ 1522 ∧
    ¬ (∀ m ∈ (f 0 3).msgs, m.kind = 1 ∨ m.kind = 2 ∨ m.kind = 5) ∧
    0 < sgn 32 ((f 10001 2).ts + 2 ^ 32 - l.beacon % 2 ^ 32) ∧ sgn 32 ((f 9999 2).ts + 2 ^ 32 - l.beacon % 2 ^ 32) < 0 ∧
    sgn 32 ((f 10000 2).ts + 2 ^ 32 - l.beacon % 2 ^ 32) = 0 ∧ (l.acf 31).pres = [(10000, ms), (10001, [])] ∧ 10000 ≤ l.beacon ∧
    l.beacon < 10001 ∧ (∀ p ∈ (t.acf 31).pres, t.beacon < p.1) := by decide +kernel

/-- Port 7 of the switch on. -/
def tEth : State := tSet tCtx [(GW_ETH_PORT_EN 7, 1)]

theorem test_switch :
    let f : EthFrame := ⟨2, 4, 0, 0, false, List.replicate 14 0⟩
    let q := { tEth with gw := { tEth.gw with ethQ := [(7, 7, f)] } }
    7 < 8 ∧ tEth.dead = false ∧ tEth.flag (GW_ETH_PORT_EN 7) = true ∧ 14 ≤ f.data.length ∧ ethLen f ≤ 2000 ∧
    (∀ i < 256, tEth.flag (GW_PSFP_SF_W0_EN i) = false) ∧ tEth.flag (GW_ETH_PORT_EN 6) = false ∧ tEth.gw.ethQ = [] ∧
    q.gw.ethQ = [(7, 7, f)] ∧ q.portBusy 7 = false ∧ f.vid ≠ 4095 ∧
    ({ q with gw := { q.gw with busy := [(7, 10 ^ 9, f)] } } : State).portBusy 7 = true ∧ (q.gateTake 7).mayStart 7 7 f = true ∧
    ((tSet tEth [(GW_PSFP_SF_W0_EN 255, 1), (GW_PSFP_SF_W0_DMAC 255, 2), (GW_PSFP_SF_W0_ANY_VID 255, 1), (GW_PSFP_SF_W1_PCP 255, 8),
      (GW_PSFP_SF_W1_PORTS 255, 128), (GW_PSFP_SF_W1_MAX_SDU 255, 17)]).psfp 7 f).2 = false := by decide +kernel

/-- GW_TX of one record to controller 15, of partition 3. -/
def tTx (st : Nat) : State :=
  { tSet (tWith (tRun 0xC0 (List.replicate 8 0 ++ leBytes 4 32 ++ leBytes 2 1 ++ List.replicate 34 0) [33])) [(GW_OWN_PART 15, 3), (GW_OWN_PART 16, 3)] with
    mem := [(8, 8), (10, 15)], gw := { tCtx.gw with tx := if st = 9 then [] else [⟨7, 0, 0, 15, 0, 0, tFrameC false, st⟩] }, now := 800000 }

theorem test_gw_tx :
    let d := tRun 0xC0 (List.replicate 8 0 ++ leBytes 4 32 ++ leBytes 2 1 ++ List.replicate 34 0) [33]
    let s := tTx 9
    let r : TxRec := ⟨7, 0, 0, 15, 0, 0, tFrameC false, 1⟩
    let e : TxRec := ⟨7, 0, 0, 16, 0, 0, tFrameC false, 1⟩
    let es := { tTx 1 with gw := { tCtx.gw with tx := [e] } }
    s.desc? 7 = some d ∧ d.runnable 0xC0 = true ∧ d.step = 0 ∧
    (match s.readMem (s.mreq d 33) d.a16 (d.u 24 4) with
     | (u, .ok bs) => bs.length == 32 && (match u.txRecords d bs 2 0 0 with | .ok rs => rs.length == 1 | .error _ => false) &&
         (match (tSet u [(GW_OWN_PART 15, 4)]).txRecords d bs 2 0 0 with | .ok _ => false | .error e => e == (0xB8, 15))
     | _ => false) = true ∧
    (tTx 1).gw.tx.find? (fun r => r.desc == 7 && r.idx == 0) = some r ∧ r.st = 1 ∧ r.ifc ≠ 16 ∧
    es.gw.tx.find? (fun r => r.desc == 7 && r.idx == 0) = some e ∧ (∀ x ∈ es.gw.ethQ, x.2.2 ≠ ethOf e.f.data) ∧
    (∀ x ∈ es.gw.busy, x.2.2 = ethOf e.f.data → x.2.1 ≤ es.c) ∧
    d.dispC + 800000 * d.u 28 2 ≤ s.c ∧ ((tTx 1).txOf 7).find? (fun r => r.ifc != 16 && r.st != 2) = some r ∧
    ({ s with now := 799999 } : State).c < d.dispC + 800000 * d.u 28 2 := by decide +kernel

theorem test_gw_rx_and_signals :
    let d := tRun 0xC1 (List.replicate 12 0 ++ leBytes 2 1 ++ leBytes 2 0 ++ leBytes 4 0x18000 ++ List.replicate 28 0) [33]
    let s := tTx 9
    let b : RxBuf := ⟨7, 32, 1⟩
    let w := { s with descs := [d], gw := { s.gw with rx := [b] } }
    let g (n : Nat) := tRun 0xC2 (leBytes 8 0 ++ leBytes 4 (1024 - n + n * 1024) ++ List.replicate 36 0) [33]
    d.runnable 0xC1 = true ∧ d.step = 0 ∧ (∀ k < 17, bitOf (d.u 32 4) k = true → s.get (GW_OWN_PART k) = s.descPart d) ∧
    s.gw.rx = [] ∧ bitOf (d.u 32 4) 16 = true ∧
    (let t := tSet s [(GW_OWN_PART 16, 4)]; t.get (GW_OWN_PART 16) ≠ t.descPart d ∧
      (∀ m < 16, bitOf (d.u 32 4) m = true → t.get (GW_OWN_PART m) = t.descPart d)) ∧
    w.gw.rx.find? (fun b => b.desc == 7) = some b ∧ s.gw.rx.find? (fun b => b.desc == 7) = none ∧ b.first ≠ 0 ∧
    b.first + 800 * d.u 28 2 ≤ w.c + 1 ∧ (g 1).runnable 0xC2 = true ∧ sigCount (g 1) = 1 ∧ sigFirst (g 1) = 1023 ∧
    (let t := { tSet (tWith (g 1)) [(GW_OWN_PART 32, 3)] with tags := mfill tagDefault 0 16 (BitVec.ofNat 12 (mkTag 3 0 1 0)) [] }
     t.desc? 7 = some (g 1) ∧ (t.readMem (t.mreq (g 1) 33) 4096 32).2 = .error (.fail 0x21 4096) ∧ (∀ k ∈ (List.range (sigCount (g 1))).map (sigFirst (g 1) + ·), t.get (GW_OWN_PART (17 + k / 64)) = t.descPart (g 1)) ∧
     (t.writeMem (t.mreq (g 1) 33) false 0 (g 1).a16 (List.replicate 96 0)).2 = none) ∧
    ((List.range 1).map (1023 + ·)).find? (fun k => s.get (GW_OWN_PART (17 + k / 64)) != s.descPart (g 1)) = some 1023 := by decide +kernel

/-- Window 63 at the start of the host windows, of partition 3, with bridge semaphore 15. -/
def tWin (d : Desc) : State :=
  tSet (tWith d) [(WBR_WIN_W0_EN 63, 1), (WBR_WIN_W0_PART 63, 3), (WBR_WIN_W0_SIZE_LOG2 63, 12), (WBR_WIN_W0_SEM_EN 63, 1),
    (WBR_WIN_W0_SEM 63, 15)]

/-- WBR_ATOMIC on the window's first word. -/
def tAtomic (form new : Nat) : Desc :=
  tRun 0xC3 (leBytes 8 0x800000000000 ++ leBytes 8 form ++ leBytes 8 0 ++ leBytes 8 new ++ List.replicate 16 0) [33]

theorem test_bridge_writes :
    tUp.opens (.fn 0) (WBR_WIN_W0 63 + 8) = true ∧ openFields (WBR_WIN_W0 63 + 8) = true ∧ openFields (WBR_WIN_W0 63 + 16) = true ∧
    tUp.opens (.fn 0) (WBR_WIN_W0 63 + 16) = true ∧ tUp.opens .lantern (WBR_WIN_W0 63) = true ∧ tUp.opens (.fn 0) (WBR_SEM 15) = true ∧
    openFields (WBR_SEM 15) = true ∧ tUp.get (WBR_SEM_HOLDER 15) = 0 ∧ (tSet tUp [(WBR_SEM_HOLDER 15, 1)]).get (WBR_SEM_HOLDER 15) = 1 := by
  decide +kernel

theorem test_bridge_atomic :
    let d := tAtomic 1 1
    let s := tWin d
    s.desc? 7 = some d ∧ d.runnable 0xC3 = true ∧ d.step < atomicOut ∧
    (match s.winCheck (s.mreq d 33) d.a16 4 with | .ok (w, _) => w == 63 && s.get (WBR_WIN_W0_SEM w) == 15 | _ => false) = true ∧
    (match (tWith d).winCheck (s.mreq d 33) d.a16 4 with | .error e => e.1 == 0x20 | _ => false) = true ∧
    (match (tSet s [(WBR_WIN_W0_PART 63, 4)]).winCheck (s.mreq d 33) d.a16 4 with | .error e => e.1 == 0x22 | _ => false) = true ∧
    (tSet s [(WBR_SEM_HOLDER 15, 1)]).get (WBR_SEM_HOLDER 15) ≠ 0 ∧ d.step = 0 ∧ s.get (WBR_SEM_HOLDER 15) = 0 ∧
    (match (s.put (WBR_SEM_HOLDER 15) 0xFF).readHost (s.mreq d 33) d.a16 4 with
     | (u, .ok bs) => atomicNew d 4 (leNat bs) == some 1 && atomicNew (tAtomic 0 9) 4 (leNat bs) == some 9 &&
         (atomicNew (tAtomic 0 9) 4 5).isNone && (u.hostWrite (s.get (WBR_WIN_W0_FUNC 63)) 0 (s.winBytes 63 (leBytes 4 1))).2
     | _ => false) = true ∧
    ({ d with step := atomicOut } : Desc).runnable 0xC3 = true ∧
    (let w := { d with step := 1 }; let t := { tWin w with now := 800000 }
     w.step ≠ 0 ∧ w.step < atomicOut ∧ w.step + 800000 ≤ t.c + 1 ∧ ({ t with now := 799999 } : State).c + 1 < w.step + 800000) := by
  decide +kernel

theorem test_trailing_reads :
    let t : TrailRd := ⟨7, 63, 0x800000000000, 0, 33, 5, true⟩
    let s := { tCtx with trail := [t] }
    tCtx.trail = [] ∧ s.trail = t :: [] ∧ s.desc? t.desc = none ∧ s.trail.find? (fun t => t.desc == 7 && t.addr == 0x800000000000) = some t ∧
    tCtx.desc? 7 = none := by decide +kernel

/-- A read through window 63 that waits for its completion, the window prefetchable or not. -/
theorem test_completion_timeouts :
    let d := { tRun 0x10 (List.replicate 48 0) [8] with effected := false }
    let s := tWin d
    let a := 0x800000000000
    s.trail.find? (fun t => t.desc == 7 && t.addr == a) = none ∧ s.desc? 7 = some d ∧ s.winOf a = some 63 ∧ spaceOf a = .host ∧
    d.phase = .dispatched ∧ d.effected = false ∧ d.parts.any (fun p => p.active) = true ∧ s.flag (WBR_WIN_W0_PREF 63) = false ∧
    (tSet s [(WBR_WIN_W0_PREF 63, 1)]).flag (WBR_WIN_W0_PREF 63) = true ∧ mget (fun _ => 0) s.cplTries 7 + 1 < s.get SAF_CTL_ATTEMPTS := by
  decide +kernel

/-- DBG_SNAPSHOT with a time. -/
def tSnap (time step : Nat) : Desc := { tRun 0xE0 (leBytes 8 time ++ List.replicate 40 0) [36] with step := step }

theorem test_snapshots :
    let s := tWith (tSnap 10000 0)
    let p := tWith (tSnap 0 1)
    s.desc? 7 = some (tSnap 10000 0) ∧ (tSnap 10000 0).runnable 0xE0 = true ∧ (tSnap 10000 0).step = 0 ∧ s.qFn 16383 = 0 ∧
    (tSet s [(CMD_Q_CFG_FUNC 16383, 31)]).qFn 16383 ≠ 0 ∧ s.beaconAt (tSnap 10000 0).dispC + 10000 ≤ (tSnap 10000 0).u 16 8 ∧
    (tSnap 10000000000 0).u 16 8 ≤ s.beaconAt 0 + 10000000000 ∧ s.beaconAt 0 + 10000000000 < (tSnap 10000000001 0).u 16 8 ∧
    (tSnap 9999 0).u 16 8 < s.beaconAt 0 + 10000 ∧ (tSnap 0 0).u 16 8 = 0 ∧ s.flag DBG_SNAP_CTL_HELD = false ∧
    (tSet s [(DBG_SNAP_CTL_HELD, 1)]).flag DBG_SNAP_CTL_HELD = true ∧ p.descs = [tSnap 0 1] ∧ (tSnap 0 1).step = 1 ∧
    (tSnap 0 1).u 16 8 ≤ p.beacon ∧ p.beacon < (tSnap 1 1).u 16 8 ∧ tCtx.descs = [] := by decide +kernel

/-- DBG_DUMP. -/
def tDump : Desc := tRun 0xE2 (List.replicate 48 0) [36]

theorem test_dumps :
    let s := tWith tDump
    let q := { tSet tCtx [(DBG_DUMP_BASE_DUMP_PART, 3)] with
      trace := { tCtx.trace with dump := some (0, 63, 0) }, tags := mfill tagDefault 0 16 (BitVec.ofNat 12 (mkTag 3 0 1 0)) [] }
    tDump.runnable 0xE2 = true ∧ tDump.step = 0 ∧ s.qFn 16383 = 0 ∧ s.flag DBG_DUMP_STAT_VALID = false ∧ s.trace.dump = none ∧
    s.pairsOn ≠ [] ∧ (tSet s [(DBG_DUMP_STAT_VALID, 1)]).flag DBG_DUMP_STAT_VALID = true ∧ q.trace.dump = some (0, 63, 0) ∧
    q.fwRuns = true ∧ q.descs = [] ∧
    (let s0 : State := { q with trace := { q.trace with dump := none } }
     let w := s0.writeMem ⟨3, q.flag (QOS_PART_W 3), 36, 0, some 0⟩ false 0 (q.get DBG_DUMP_BASE_BASE * 4096) (List.replicate 256 1)
     w.2 = none ∧ w.1.descs = [] ∧
     (s0.writeMem ⟨3, q.flag (QOS_PART_W 3), 36, 0, some 0⟩ false 0 4096 (List.replicate 256 1)).2 = some (.fail 0x21 4096)) := by decide +kernel

theorem test_debug_controls :
    tUp.opens (.fn 0) DBG_TRACE_CFG = true ∧ openFields DBG_TRACE_CFG = true ∧ tUp.flag DBG_TRACE_CFG_EN = false ∧
    (tSet tUp [(DBG_TRACE_CFG_EN, 1)]).flag DBG_TRACE_CFG_EN = true ∧ bitOf (1#32).toNat 0 = true ∧ tUp.opens (.fn 0) DBG_RING_SEL = true ∧
    openFields DBG_RING_SEL = true ∧ bitOf (64#32).toNat 6 = true ∧ tUp.opens (.fn 0) DBG_HANG_CFG = true ∧
    openFields DBG_HANG_CFG = true ∧ bitOf (0x80000#32).toNat 19 = true ∧ tUp.dead = false ∧
    ({ tUp with lnt := { tUp.lnt with life := 2 } } : State).lnt.life = 2 := by decide +kernel

theorem test_hang :
    let d := tRun 0x10 (List.replicate 48 0) [23]
    let s := { tSet (tWith d) [(DBG_HANG_CFG_HANG_MS, 1)] with now := 800000 }
    s.fwRuns = true ∧ s.get DBG_HANG_CFG_HANG_MS ≠ 0 ∧ s.descs = [d] ∧ d.parts = [tPart 23] ∧ s.hungPart d (tPart 23) = true ∧
    ({ s with now := 799999 } : State).hungPart d (tPart 23) = false ∧ (tSet s [(DBG_HANG_CFG_HANG_MS, 0)]).get DBG_HANG_CFG_HANG_MS = 0 := by
  decide +kernel

theorem test_power_states :
    let g := { tSet tUp [(PWR_STAT_GATED, 2 ^ 23)] with waking := [23] }
    tUp.fwRuns = true ∧ tLive.fwRuns = false ∧ tUp.islOn 23 = true ∧ g.islOn 23 = false ∧ g.waking.contains 23 = true ∧
    (let w := tAct (tSet tUp [(PWR_STAT_GATED, 128)]) [(SCH_DWIN_EN 3, 1), (SCH_DWIN_ENG 3, 128)]
     w.islOn 7 = false ∧ w.flagA (SCH_DWIN_EN 3) = true ∧ bitOf (w.getA (SCH_DWIN_ENG 3)) 7 = true) ∧
    g.wakeTest.contains 23 = false ∧ g.dead = false ∧ tUp.pcie.linkUp = true ∧ tUp.working = false ∧
    tUp.pwr.ltrC + 800000 ≤ ({ tUp with now := 800000 } : State).c ∧ ({ tUp with now := 799999 } : State).c < tUp.pwr.ltrC + 800000 := by
  decide +kernel

theorem test_power_limits :
    let p := { tUp with pwr := { tUp.pwr with peaks := 1, droop := [7] }, clkOff := [1] }
    tUp.dead = false ∧ 1 ≤ p.pwr.peaks ∧ bitOf p.pwr.fast 0 = false ∧ tUp.fwRuns = true ∧
    0 < (tSet tUp [(PWR_LIM_LIMIT_W, 1)]).get PWR_LIM_LIMIT_W * 1000 ∧ p.pwr.droop.contains 7 = true ∧ tUp.pwr.droop.contains 7 = false ∧
    p.clkOff.contains 1 = true ∧ tUp.clkOff.contains 1 = false := by decide +kernel

theorem test_temperature :
    let s := tSet tUp [(DBG_ISL_W3_TEMP_NOW 7, 800), (THM_CFG_TJ_THROTTLE_C, 100)]
    tUp.clkOff = [] ∧ tUp.dead = false ∧ sgn 16 (999 % 65536) < 1000 ∧ sgn 16 (0xFFFF % 65536) < 1000 ∧ 1000 ≤ sgn 16 (1000 % 65536) ∧
    s.fwRuns = true ∧ (8 * s.get THM_CFG_TJ_THROTTLE_C : Int) ≤ s.temp8 7 ∧
    (let c := tSet s [(DBG_ISL_W3_TEMP_NOW 7, 777)]
     ¬ (8 * c.get THM_CFG_TJ_THROTTLE_C : Int) ≤ c.temp8 7 ∧ (8 * c.get THM_CFG_TJ_THROTTLE_C : Int) - 24 < c.temp8 7) ∧
    tUp.opens (.fn 0) PWR_AGE_CTL = true ∧ openFields PWR_AGE_CTL = true ∧ bitOf (1#32).toNat 0 = true ∧
    Machine.u (tUp.ageBytes PWR_AGE_LOAD) 0 2 ≠ 0x4147 := by decide +kernel

theorem test_pins :
    State.reset.pins.held = true ∧ tUp.pins.held = false ∧ State.reset.pins.vin = true ∧ State.reset.pins.clk = true ∧
    tUp.pins.clk = true ∧ ({ tUp with pins := { tUp.pins with clk := false } } : State).pins.clk = false ∧ State.reset.dead = true ∧
    ({ tUp with lnt := { tUp.lnt with uds := List.replicate 32 1 } } : State).erased = false ∧
    ({ tUp with lnt := { tUp.lnt with uds := List.replicate 32 0xFF#8 } } : State).erased = true := by decide +kernel

theorem test_pcie_reset :
    tUp.dead = false ∧ tUp.trail = [] ∧ tUp.descs = [] ∧ tUp.pcie.numVf = 0 ∧ tUp.flag (VIRT_FN_W5_FLR_BUSY 0) = false := by
  decide +kernel

/-- The thread of the vector tests, and its registers: s1 = 5, s31 = 64, s2 = 256, m6 = lane 3, m7 = lanes 3 and 31, v63 = lane numbers. -/
def tT : Thr := ⟨31, 7⟩
def tThr : ThrSt :=
  ⟨7, 0, 0, (List.range 32).map (fun l => (2016 + l, BitVec.ofNat 32 (4 * l))), [(1, 5), (2, 256), (31, 64)],
    [(6, 8), (7, 0x80000008)], false, false, none, [], []⟩

/-- A launch whose image at address 0 holds one instruction, running in thread 7 of core 31. -/
def tVec (i : Instr) (textab : Nat) : State :=
  let w := match vecEncode i with
    | some (_, w) => w
    | none => 0
  { tWith (tRun 0x80 (List.replicate 48 0) [7]) with
    mem := storeBytes [] 64 (leBytes 8 w), tags := mfill tagDefault 0 64 (BitVec.ofNat 12 (mkTag 3 0 1 0)) []
    kerns := [⟨7, 0, 0, 2, 0, textab, 1, 1, 1, 1, 2, 0, [(256, 256)], 1⟩], wgs := [⟨7, 31, 0, 0, 0, [7], [], 2, 0, []⟩]
    thr := [(255, some tThr)] }

def tIssues (i : Instr) : Bool := ((tVec i 0).issues tT i).isSome

theorem test_scalar_arithmetic :
    let f : AluSrc := .r { d := 31, a := 1, b := 31, ty := 4 }
    let g : AluSrc := .i { d := 31, a := 1, ty := 4, imm := 0xFFFFFFFF }
    [Instr.saluAdd tT f, .saluSub tT g, .saluMul tT f, .saluMulh tT g, .saluAnd tT f, .saluOr tT g, .saluXor tT f,
      .saluMov tT (.r { d := 31, b := 31, ty := 4 }), .saluShl tT g, .saluShr tT f, .saluSra tT g, .saluSlt tT f, .saluSltu tT g, .saluMin tT f,
      .saluMax tT g].all tIssues = true := by decide +kernel

theorem test_lane_arithmetic :
    let f (ty : Nat) : AluSrc := .r { mask := 7, d := 63, a := 62, b := 63, ty := ty }
    let g (ty : Nat) : AluSrc := .i { mask := 7, mneg := true, d := 63, a := 63, ty := ty, imm := 0xFFFFFFFF }
    [Instr.valuAdd tT (f 3), .valuSub tT (g 9), .valuMul tT (f 7), .valuMin tT (f 8), .valuMax tT (g 4), .valuAbs tT (f 3),
      .valuNeg tT (f 9), .valuAdds tT (f 3), .valuSubs tT (g 4), .valuMulhi tT (f 4), .valuAnd tT (f 3), .valuOr tT (f 4),
      .valuXor tT (f 3), .valuShl tT (g 4), .valuShr tT (f 3), .valuSra tT (f 4), .valuMov tT (f 9), .valuRint tT (f 9),
      .valuSel tT { mask := 7, d := 63, a := 31, b := 63, c := 7, ty := 4, sA := true }].all tIssues = true := by decide +kernel

theorem test_fused_and_comparisons :
    let f (ty : Nat) : RFmt := { mask := 7, d := 63, a := 31, b := 62, c := 63, ty := ty, sA := true }
    let c (ty d : Nat) : RFmt := { mask := 7, d := d, a := 31, b := 62, ty := ty, sA := true }
    [Instr.vfmaFma tT (f 9), .vfmaFms tT (f 7), .vfmaFnma tT (f 8), .vfmaMad tT (f 3), .vfmaDp4 tT (f 2), .vcmpEq tT (c 9 7),
      .vcmpNe tT (c 7 6), .vcmpLt tT (c 4 1), .vcmpLe tT (c 9 7), .vcmpGt tT (c 3 6), .vcmpGe tT (c 9 7), .vcmpIsnan tT (c 8 6),
      .vcmpLtu tT (c 4 7), .vcmpGeu tT (c 3 6)].all tIssues = true := by decide +kernel

theorem test_conversions :
    let f (ty cvt : Nat) : RFmt := { mask := 7, d := 62, a := 62, ty := ty, cvt := cvt }
    let g : RFmt := { mask := 7, d := 63, a := 63, ty := 9 }
    [Instr.vcvtConvert tT (f 9 4), .vcvtConvert tT (f 7 8), .vcvtConvert tT (f 7 9), .vcvtConvert tT (f 9 7), .vtransExp tT g,
      .vtransExp2 tT g, .vtransLog2 tT g, .vtransRcp tT g, .vtransRsqrt tT g, .vtransSqrt tT g, .vtransSin tT g, .vtransCos tT g,
      .vtransTanh tT g].all tIssues = true ∧ ofF32 0x7FC00000 = .nan ∧
    (match ofF32 0x3F800000 with | .fin false m _ => m != 0 | _ => false) = true := by decide +kernel

theorem test_cross_lane :
    let f (ty : Nat) : RFmt := { mask := 7, d := 31, a := 63, b := 31, ty := ty }
    let g : RFmt := { mask := 7, d := 62, a := 63, b := 31, ty := 9 }
    [Instr.vxlRadd tT (f 9), .vxlRmin tT (f 4), .vxlRmax tT (f 9), .vxlScan tT g, .vxlPerm tT g, .vxlBcast tT g, .vxlShiftup tT g,
      .vxlExtract tT (f 4), .vxlCompress tT g, .vxlSort tT g].all tIssues = true ∧
    tThr.acting 7 false = [3, 31] ∧ tThr.acting 5 false = [] := by decide +kernel

theorem test_local_memory :
    let f (off : BitVec 24) (pack : Bool) : MFmt := { mask := 7, d := 62, vx := 63, ty := 4, pack := pack, off := off }
    let g : MFmt := { mask := 7, d := 63, sb := 1, vx := 31, ty := 1, off := 59 }
    [Instr.ldUnit tT (f 0 false), .ldUnit tT { f 0 true with ty := 7 }, .ldStrided tT g, .ldGather tT (f 0 false), .ldBroadcast tT g,
      .stUnit tT (f 0 false), .stStrided tT g, .stScatter tT (f 0 false), .atomAdd tT (f 0 false), .atomMin tT (f 0 false),
      .atomMax tT (f 0 false), .atomAnd tT (f 0 false), .atomOr tT (f 0 false), .atomXor tT (f 0 false), .atomExch tT (f 0 false),
      .atomCas tT (f 8068 false), .ldUnit tT (f 1 false), .ldUnit tT (f 8069 false)].all tIssues = true ∧
    tThr.elems (f 0 false) 0 = [(3, 12), (31, 124)] ∧ tThr.elems (f 0 false) 2 = [(3, 12), (31, 124)] ∧
    tThr.elems (f 8068 false) 2 = [(3, 8080), (31, 8192)] ∧ tThr.elems (f 8064 false) 2 = [(3, 8076), (31, 8188)] ∧
    (tVec (.ldUnit tT (f 0 false)) 0).wgs.map (fun w => w.lm4k * 4096) = [8192] ∧ secded [] [3, 31] = some ([], 0) ∧
    secded [(3, 1)] [3, 31] = some ([], 1) ∧ secded [(3, 3)] [3, 31] = none := by decide +kernel

/-- An element form of device memory in v62 at s2 = 256 and the offsets in v63. -/
def tDev (mask : Nat) : MFmt := { mask := mask, d := 62, sb := 2, vx := 63, ty := 4, space := 1 }

theorem test_device_memory :
    let f : MFmt := tDev 7
    let one : MFmt := tDev 6
    [Instr.ldUnit tT f, .ldStrided tT { f with vx := 31 }, .ldGather tT f, .ldBroadcast tT f, .stUnit tT f,
      .stStrided tT { f with vx := 31 }, .stScatter tT f, .atomAdd tT one,
      .atomMin tT one, .atomMax tT one, .atomAnd tT one, .atomOr tT one, .atomXor tT one, .atomExch tT one, .atomCas tT one].all
        tIssues = true ∧
    tThr.elems f 0 = [(3, 268), (31, 380)] ∧ tThr.elems one 2 = [(3, 268)] ∧ spaceOf 268 = .spd ∧
    tThr.elems { f with sb := 30 } 0 = [(3, 0x400000000C), (31, 0x400000007C)] ∧
    (match (tVec (.atomAdd tT one) 0).issues tT (.atomAdd tT one) with
     | some (x, _, e, u) =>
       e.k.declares 268 4 && !e.k.declares 252 8 &&
         (match u.readMem e.rq 268 4 with
          | (v, .ok bs) => bs == [0, 0, 0, 0] && (v.writeMem e.rq false 0 268 (leBytes 4 5)).2.isNone
          | _ => false) &&
         (match (eReadCws e 4 (x.elems f 0)).run.run u with | (.ok _, _) => true | _ => false) &&
         (match (eStore e 4 [(268, 5)]).run.run u with | (.ok _, _) => true | _ => false)
     | none => false) = true := by decide +kernel

/-- A 1 × 1 texture of format 0 at address 1024, described at 512; its pixel is 0x80. -/
def tTex (i : Instr) : State :=
  let s := tVec i 512
  { s with mem := storeBytes (storeBytes s.mem 512 (leBytes 8 1024 ++ leBytes 4 0 ++ leBytes 4 0 ++ leBytes 4 32)) 1024 [0x80] }

theorem test_textures :
    let g : TFmt := { mask := 6, d := 60, u := 0, tex := 0 }
    [Instr.texSample tT g, .texSampleL tT g, .texFetch tT g].all (fun i =>
      match (tTex i).issues tT i with
      | some (x, _, e, u) =>
        x.acting 6 false == [3] && e.k.textab == 512 &&
          (match u.readMem e.rq 512 64 with
           | (v, .ok bs) => texOk bs && !texOk (bs.take 6 ++ [1] ++ bs.drop 7) &&
               (match ((texOf bs).filtered e.rq e.core 0 0 0 0).run.run v with | (.ok c, _) => c.1.length == 4 | _ => false) &&
               (match ((texOf bs).texel e.rq e.core 0 0 0 0).run.run v with | (.ok c, _) => c.length == 4 | _ => false)
           | _ => false)
      | none => false) = true ∧
    ((tVec (.texFetch tT g) 0).issues tT (.texFetch tT g)).isSome = true := by decide +kernel

theorem test_control_flow :
    let b (off : Word32) : BFmt := { sa := 1, sb := 31, off := off }
    let m (d : Nat) : RFmt := { d := d, a := 7, b := 6, ty := 4 }
    let c (n : Word32) : SFmt := { d := 31, imm := n }
    [Instr.brJmp tT (b 1), .brBeq tT (b 0), .brBne tT (b 1), .brBlt tT (b 0), .brBge tT (b 1), .brBltu tT (b 1), .brBgeu tT (b 0),
      .brBany tT { b 1 with sa := 7 }, .brBnone tT { b 1 with sa := 7 }, .brBall tT { b 1 with sa := 7 }, .brJal tT (b 1),
      .brJr tT { sa := 1 }, .maskMand tT (m 7), .maskMor tT (m 7), .maskMxor tT (m 7), .maskMandn tT (m 7), .maskMnot tT (m 7),
      .maskStom tT { d := 7, a := 31, ty := 4 }, .maskMtos tT (m 31), .maskMpop tT (m 31), .maskMfirst tT (m 31), .vecNop tT {},
      .vecFence tT {}, .vecBar tT {}, .vecEnd tT {}, .vecTrap tT { imm := 65536 }, .vecLaneid tT { d := 63 }, .vecSread tT (c 7),
      .vecSread tT (c 8), .vecSread tT (c 12)].all tIssues = true := by decide +kernel

theorem test_barrier :
    let x : ThrSt := { tThr with bar := true }
    let s : State := { tVec (.vecNop tT {}) 0 with thr := [(254, some { x with ended := true, bar := false }), (255, some x)] }
    let w : WgSt := ⟨7, 31, 0, 0, 0, [6, 7], [], 2, 0, []⟩
    (∃ sl ∈ w.slots, (s.thread ⟨31, sl⟩).any (fun y => !y.ended) = true) ∧ (∀ sl ∈ w.slots, sl < 8) ∧
    (∀ sl ∈ w.slots, (s.thread ⟨31, sl⟩).all (fun y => y.ended || y.bar) = true) := by decide +kernel

theorem test_launch :
    let d := tRun 0x80 (List.replicate 48 0) [7]
    let s := tWith d
    let k : Kern := ⟨7, 0, 0, 2, 0, 0, 1, 1, 1, 8, 2, 1, [], 0⟩
    let v := { tSet s [(VEC_CTX_SLOTS_SLOTS 5, 8), (VEC_CTX_SLOTS_LM_4K 5, 2)] with kerns := [k] }
    s.desc? 7 = some d ∧ d.runnable 0x80 = true ∧ s.clkOff = [] ∧ s.kern? 7 = none ∧ v.kern? 7 = some k ∧
    k.next < k.gx * k.gy * k.gz ∧ d.effected = false ∧ v.coreFor d k = some 24 ∧
    k.threads ≤ ((List.range 8).filter (fun sl => (v.thread ⟨24, sl⟩).isNone)).length ∧ 0 < k.threads ∧ tUp.desc? 7 = none := by
  decide +kernel

theorem test_thread_commands :
    let x : ThrSt := { tThr with loads := [(2, [(2016, 1)])] }
    let s := { tVec (.vecNop tT {}) 0 with thr := [(255, some x)] }
    let bad := tVec (.registerWrite (.fn 0) 0 4 0) 0
    let word (s : State) : Option (Nat × Nat × Nat) := match s.issuing tT with
      | some (x, _, e) => (match (eFetch e x).run.run s with
        | (.ok w, _) => some (w, x.pc, e.k.code)
        | _ => none)
      | none => none
    s.thread tT = some x ∧ x.loads = (2, [(2016, 1)]) :: [] ∧ s.thread ⟨0, 0⟩ = none ∧ s.issuing ⟨0, 0⟩ = none ∧
    (match word s with | some (w, pc, code) => vecDecode pc code w tT == some (.vecNop tT {}) | none => false) = true ∧
    (match word { bad with mem := storeBytes [] 64 (leBytes 8 63) } with
     | some (w, pc, code) => vecDecode pc code w tT == none | none => false) = true ∧
    x.ready (.valuMov tT (.r { d := 62, a := 63, ty := 9 })) = false ∧ x.ready (.vecNop tT {}) = true := by decide +kernel

theorem test_budget :
    let s := tVec (.vecNop tT {}) 0
    let t := { s with kerns := s.kerns.map (fun (k : Kern) => { k with budget := 1 }), wgs := s.wgs.map (fun (w : WgSt) => { w with issued := 1024 }) }
    (match t.issuing tT with
     | some (x, w, e) => e.k.budget != 0 && decide (e.k.budget * 1024 < w.issued + 1) &&
         (match (eFetch e x).run.run t with | (.ok _, _) => true | _ => false)
     | none => false) = true := by decide +kernel

theorem test_pass :
    let d := tRun 0xA0 (leBytes 8 0 ++ leBytes 4 2 ++ List.replicate 36 0) [4]
    let s := { tWith d with tags := mfill tagDefault 0 64 (BitVec.ofNat 12 (mkTag 3 0 1 0)) [] }
    s.desc? 7 = some d ∧ d.runnable 0xA0 = true ∧ s.clocked d = true ∧ s.secureDesc d = false ∧
    (match s.readMem (s.mreq d 36) d.pbAddr (64 * d.pbLen) with | (_, .ok _) => true | _ => false) = true ∧
    ({ s with clkOff := [1] } : State).clkOff ≠ [] ∧ ({ s with clkOff := [1], descs := [{ d with parts := [tPart 4] }] } : State).clocked d = false := by
  decide +kernel

/-- A word of each class, its fields placed by R247 and R248. The first word is the example at the end of the chapter. -/
theorem test_vector_words :
    let w (cls fn mask mneg rest : Nat) : Nat := cls + fn * 2 ^ 6 + mask * 2 ^ 12 + mneg * 2 ^ 15 + rest
    let r (d a b c ty : Nat) : Nat := d * 2 ^ 16 + a * 2 ^ 22 + b * 2 ^ 28 + c * 2 ^ 34 + ty * 2 ^ 40
    let i (d a ty imm : Nat) : Nat := d * 2 ^ 16 + a * 2 ^ 22 + ty * 2 ^ 28 + imm * 2 ^ 32
    let m (d sb vx ty space off : Nat) : Nat := d * 2 ^ 16 + sb * 2 ^ 22 + vx * 2 ^ 28 + ty * 2 ^ 34 + space * 2 ^ 38 + off * 2 ^ 40
    ([(0x00002928408A1005, .vfmaFma tT { mask := 1, d := 10, a := 2, b := 4, c := 10, ty := 9, sB := true }),
      (w 0 4 0 0 (3 * 2 ^ 16 + 12 * 2 ^ 32), .vecSread tT { d := 3, imm := 12 }),
      (w 1 1 0 0 (r 1 2 3 0 4), .saluSub tT (.r { d := 1, a := 2, b := 3, ty := 4 })),
      (w 2 14 0 0 (i 1 2 4 0xFFFFFFFE), .saluMax tT (.i { d := 1, a := 2, ty := 4, imm := 0xFFFFFFFE })),
      (w 3 13 2 1 (r 1 2 3 0 3), .valuShl tT (.r { mask := 2, mneg := true, d := 1, a := 2, b := 3, ty := 3 })),
      (w 4 0 0 0 (i 63 1 9 1), .valuAdd tT (.i { d := 63, a := 1, ty := 9, imm := 1 })),
      (w 5 4 0 0 (r 1 2 3 4 2 + 2 ^ 47), .vfmaDp4 tT { d := 1, a := 2, b := 3, c := 4, ty := 2, bU := true }),
      (w 6 8 0 0 (r 6 2 0 0 7), .vcmpIsnan tT { d := 6, a := 2, ty := 7 }),
      (w 7 0 0 0 (r 1 2 0 0 9 + 4 * 2 ^ 48), .vcvtConvert tT { d := 1, a := 2, ty := 9, cvt := 4 }),
      (w 8 9 0 0 (r 62 2 0 0 4), .vxlSort tT { d := 62, a := 2, ty := 4 }),
      (w 9 5 0 0 (r 1 2 0 0 9), .vtransSqrt tT { d := 1, a := 2, ty := 9 }),
      (w 0xA 0x20 0 0 (m 1 2 0 7 0 0xFFFFFE), .ldUnit tT { d := 1, sb := 2, ty := 7, pack := true, off := 0xFFFFFE }),
      (w 0xB 2 3 1 (m 1 2 5 4 1 8), .stScatter tT { mask := 3, mneg := true, d := 1, sb := 2, vx := 5, ty := 4, space := 1, off := 8 }),
      (w 0xC 7 0 0 (m 62 2 5 4 0 0), .atomCas tT { d := 62, sb := 2, vx := 5, ty := 4 }),
      (w 0xD 1 1 0 (60 * 2 ^ 16 + 8 * 2 ^ 22 + 63 * 2 ^ 28), .texSampleL tT { mask := 1, d := 60, u := 8, tex := 63 }),
      (w 0xE 2 0 0 (1 * 2 ^ 16 + 2 * 2 ^ 22 + 3 * 2 ^ 32), .brBne tT { sa := 1, sb := 2, off := 3 }),
      (w 0xF 3 0 0 (r 7 1 2 0 0), .maskMandn tT { d := 7, a := 1, b := 2 })] : List (Nat × Instr)).all
        (fun x => vecDecode 0 4 x.1 tT == some x.2) = true ∧
    [w 0x10 0 0 0 0, w 0 7 0 0 0, w 0 0 1 0 0, w 2 0 0 0 (i 1 2 9 0), w 7 1 0 0 (r 1 2 0 0 9), w 8 9 0 0 (r 63 2 0 0 4),
      w 0xF 3 0 0 (r 0 1 2 0 0), w 0xE 0 0 0 (4 * 2 ^ 32), w 0xD 0 0 0 (61 * 2 ^ 16)].all (fun x => (vecDecode 0 4 x tT).isNone) = true := by
  decide +kernel

theorem test_words_and_instructions :
    let f : AluSrc := .i { d := 31, a := 31, ty := 4, imm := 0xFFFFFFFF }
    let i : Instr := .saluAdd tT f
    i.wf = true ∧ vecLegal 0 1 i = true ∧
    (match vecEncode i with | some (t, w) => t == tT && !vecReserved w && vecDecode 0 1 w tT == some i | none => false) = true := by
  decide +kernel

end Witnesses
end

section
/-!
SUPPORT. Accesses to BAR0: what an accepted, a refused and an unmapped access do, the place of an offset in the PF's view, and
the latches of 64-bit registers; with the obligations on refused and unmapped accesses and on the latches.
-/

namespace Sys2Proof.Machine

/-! ### The access that each command makes -/

theorem exec_registerWrite (rq : Requester) (off size : Nat) (v : Word64) (s : State) :
    exec (.registerWrite rq off size v) s = .next (s.bar0Write rq off size v.toNat) := rfl

theorem exec_stagedRegisterWrite (rq : Requester) (off size : Nat) (v : Word64) (s : State) :
    exec (.stagedRegisterWrite rq off size v) s = .next (s.bar0Write rq off size v.toNat) := rfl

theorem exec_bar0UnmappedAccess (rq : Requester) (off size : Nat) (write : Bool) (v : Word64) (s : State) :
    exec (.bar0UnmappedAccess rq off size write v) s =
      .next (if write then s.bar0Write rq off size v.toNat else s.bar0Read rq off size) := rfl

theorem exec_bar0RefusedAccess (rq : Requester) (off size : Nat) (write : Bool) (s : State) :
    exec (.bar0RefusedAccess rq off size write) s =
      .next (if write then s.bar0Write rq off size 0 else s.bar0Read rq off size) := rfl

theorem exec_lowHalfRead (rq : Requester) (off : Nat) (s : State) :
    exec (.lowHalfRead rq off) s = .next (s.bar0Read rq off 4) := rfl

theorem exec_highHalfRead (rq : Requester) (off : Nat) (s : State) :
    exec (.highHalfRead rq off) s = .next (s.bar0Read rq off 4) := rfl

/-! ### Reads and writes below BAR4 -/

theorem accepted_iff (off size : Nat) : accepted off size = true ↔ (size = 4 ∨ size = 8) ∧ off % size = 0 := by
  simp [accepted]

theorem resetting_pf (s : State) : s.resetting (.fn 0) = false := rfl

/-- A write of BAR0 by a requester that reaches it (R7). -/
theorem bar0Write_eq (s : State) (rq : Requester) (off size v : Nat) (hr : s.reaches rq = true)
    (hb : s.resetting rq = false) (ho : off < 0x100000000) :
    s.bar0Write rq off size v =
      if accepted off size then s.writeAt rq off size v else s.bump TOP_ERR_ACCESS_COUNT 1 := by
  have hlow : decide (bar4Base ≤ off) = false := decide_eq_false (by unfold bar4Base; omega)
  unfold State.bar0Write
  rw [hr, hb, hlow]
  cases accepted off size <;> cases rq <;> rfl

/-- A read of BAR0 by a requester that reaches it (R7). -/
theorem bar0Read_eq (s : State) (rq : Requester) (off size : Nat) (hr : s.reaches rq = true)
    (hb : s.resetting rq = false) (ho : off < 0x100000000) :
    s.bar0Read rq off size =
      if accepted off size then { (s.readAt rq off size).1 with rdata := BitVec.ofNat 64 (s.readAt rq off size).2 }
      else { s.bump TOP_ERR_ACCESS_COUNT 1 with rdata := allOnes size } := by
  have hlow : decide (bar4Base ≤ off) = false := decide_eq_false (by unfold bar4Base; omega)
  unfold State.bar0Read
  rw [hr, hb, hlow]
  cases accepted off size <;> cases rq <;> rfl

/-- An offset at or above 2^32 is one of the function's BAR4 (log 1). -/
theorem bar0Write_bar4 (s : State) (fn off size v : Nat) (hr : s.reaches (.fn fn) = true)
    (hb : s.resetting (.fn fn) = false) (ho : off < 0x100000000) :
    s.bar0Write (.fn fn) (0x100000000 + off) size v = s.writeBar4 fn off size v := by
  have hhigh : decide (bar4Base ≤ 0x100000000 + off) = true := decide_eq_true (by unfold bar4Base; omega)
  have hbell : ¬ bar2Base ≤ 0x100000000 + off := by unfold bar2Base; omega
  unfold State.bar0Write
  rw [hr, hb, hhigh]
  simp [hbell, bar4Base]

/-! ### What a register write leaves alone -/

theorem onlyRegs_setReg (s : State) (b : Nat) (v : Word64) : OnlyRegs [b] s (s.setReg b v) :=
  ⟨rfl, fun c hc => (reg_setReg s b c v).trans (if_neg (List.mem_singleton.not.mp hc))⟩

theorem onlyRegs_put (s : State) (f : Fref) (n : Nat) : OnlyRegs [f.off] s (s.put f n) := onlyRegs_setReg s f.off _

theorem onlyRegs_bump (s : State) (f : Fref) (n : Nat) : OnlyRegs [f.off] s (s.bump f n) := onlyRegs_put s f _

theorem OnlyRegs.trans {L M : List Nat} {s t u : State} (h : OnlyRegs L s t) (h' : OnlyRegs M t u) : OnlyRegs (L ++ M) s u := by
  obtain ⟨ht, hst⟩ := h
  obtain ⟨hu, htu⟩ := h'
  refine ⟨hu.trans (congrArg (fun x : State => { x with regs := u.regs }) ht), fun b hb => ?_⟩
  obtain ⟨hL, hM⟩ := not_or.mp (List.mem_append.not.mp hb)
  exact (htu b hM).trans (hst b hL)

theorem get_bump_one (s : State) (off : Nat) :
    (s.bump ⟨off, 0, 32⟩ 1).get ⟨off, 0, 32⟩ = min (s.get ⟨off, 0, 32⟩ + 1) 0xFFFFFFFF :=
  get_bump s ⟨off, 0, 32⟩ 1 (by norm_num)

/-! ### What lies at an offset of the PF's view -/

theorem pfOffset_pf (s : State) (off : Nat) :
    s.pfOffset (.fn 0) off = if off < 0x1800000 then some off else none := rfl

/-- Nothing lies above the blocks, nor where no block assigns a register or a reserved word (R17). -/
theorem placeAt_none (s : State) (off : Nat)
    (h : 0x1800000 ≤ off ∨ regAt off = none ∧ reservedWord off = false) : s.placeAt (.fn 0) off = .none := by
  unfold State.placeAt
  rw [pfOffset_pf]
  split_ifs with hlt
  · obtain ⟨hreg, hres⟩ := h.resolve_left (by omega)
    simp [hreg, hres]
  · rfl

theorem placeAt_reg (s : State) (off : Nat) (sp : RegSpec) (hlt : off < 0x1800000) (ha : s.answers off = true)
    (hreg : regAt off = some (sp, off)) : s.placeAt (.fn 0) off = .reg sp off false := by
  unfold State.placeAt
  rw [pfOffset_pf, if_pos hlt]
  simp [ha, hreg]

/-- A write that no half of the access answers counts once (R17). -/
theorem writeAt_none (s : State) (rq : Requester) (off size v : Nat) (h : s.placeAt rq off = .none)
    (h' : size = 4 ∨ s.placeAt rq (off + 4) = .none) : s.writeAt rq off size v = s.unmapped := by
  unfold State.writeAt
  by_cases hs : size = 4
  · simp [h, hs, Place.isNone, State.writeHalf]
  · simp [h, h'.resolve_left hs, hs, Place.isNone, Place.wide, State.writeHalf]

/-- A read that no half of the access answers counts once and gives all ones (R17). -/
theorem readAt_none (s : State) (rq : Requester) (off size : Nat) (h : s.placeAt rq off = .none)
    (h' : size = 4 ∨ s.placeAt rq (off + 4) = .none) :
    s.readAt rq off size = (s.unmapped, if size = 4 then mask32 else mask32 + mask32 * 2 ^ 32) := by
  unfold State.readAt
  by_cases hs : size = 4
  · simp [h, hs, Place.isNone, State.readHalf]
  · simp [h, h'.resolve_left hs, hs, Place.isNone, Place.wide, State.readHalf]

theorem allOnes_of_unmapped (size : Nat) (h : size = 4 ∨ size = 8) :
    (if size = 4 then mask32 else mask32 + mask32 * 2 ^ 32) = 2 ^ (8 * size) - 1 := by
  rcases h with rfl | rfl <;> rfl

/-! ### Refused and unmapped accesses (R7, R17) -/

/-- Settles O3: a refused access ends in the count of TOP_ERR_ACCESS before any register is looked for, and an access whose
halves hold nothing in the count of TOP_ERR_UNMAPPED. -/
theorem refusedAndUnmappedAccessesAreCounted : Obligations.RefusedAndUnmappedAccessesAreCounted := by
  refine ⟨fun rq off size v s hr hb ho hbad => ?_, fun off size v s hr hsize hal ho hplace => ?_⟩
  · have hacc : ¬ accepted off size = true := fun h => hbad ((accepted_iff off size).mp h)
    refine ⟨?_, ?_, ?_, get_bump_one s TOP_ERR_ACCESS, onlyRegs_bump s TOP_ERR_ACCESS_COUNT 1⟩
    · rw [exec_bar0RefusedAccess, if_pos rfl, bar0Write_eq s rq off size 0 hr hb ho, if_neg hacc]
    · rw [exec_registerWrite, bar0Write_eq s rq off size v.toNat hr hb ho, if_neg hacc]
    · rw [exec_bar0RefusedAccess, if_neg Bool.false_ne_true, bar0Read_eq s rq off size hr hb ho, if_neg hacc]
      rfl
  · have hacc : accepted off size = true := (accepted_iff off size).mpr ⟨hsize, hal⟩
    have hlow : s.placeAt (.fn 0) off = .none :=
      placeAt_none s off (hplace.imp_right fun h => h off (.inl rfl))
    have hhigh : size = 4 ∨ s.placeAt (.fn 0) (off + 4) = .none :=
      hsize.imp_right fun h8 => placeAt_none s (off + 4)
        (hplace.imp (fun h => by omega) fun h => h (off + 4) (.inr ⟨h8, rfl⟩))
    refine ⟨?_, ?_, get_bump_one s TOP_ERR_UNMAPPED, onlyRegs_bump s TOP_ERR_UNMAPPED_COUNT 1⟩
    · rw [exec_bar0UnmappedAccess, if_pos rfl, bar0Write_eq s _ off size v.toNat hr (resetting_pf s) ho, if_pos hacc,
        writeAt_none s _ off size _ hlow hhigh]
      rfl
    · rw [exec_bar0UnmappedAccess, if_neg Bool.false_ne_true, bar0Read_eq s _ off size hr (resetting_pf s) ho, if_pos hacc,
        readAt_none s _ off size hlow hhigh, allOnes_of_unmapped size hsize]
      rfl

/-! ### The latches of 64-bit registers (R8) -/

/-- The answer of an accepted 32-bit read of a register's half. -/
theorem bar0Read_half (s : State) (rq : Requester) (off : Nat) (sp : RegSpec) (base : Nat) (hi : Bool)
    (hr : s.reaches rq = true) (hb : s.resetting rq = false) (ho : off < 0x100000000) (hal : off % 4 = 0)
    (hp : s.placeAt rq off = .reg sp base hi) :
    s.bar0Read rq off 4 =
      { (s.readHalf rq (.reg sp base hi)).1 with rdata := BitVec.ofNat 64 (s.readHalf rq (.reg sp base hi)).2 } := by
  rw [bar0Read_eq s rq off 4 hr hb ho, if_pos ((accepted_iff off 4).mpr ⟨.inl rfl, hal⟩)]
  unfold State.readAt
  rw [hp]
  rfl

theorem readHalf_low (s : State) (rq : Requester) (sp : RegSpec) (base : Nat) (h : sp.bits = 64) :
    s.readHalf rq (.reg sp base false) =
      ((s.readReg rq sp base).1.setLatch rq base ((s.readReg rq sp base).2 / 2 ^ 32), (s.readReg rq sp base).2 % 2 ^ 32) := by
  simp [State.readHalf, h]

theorem readHalf_high_latched (s : State) (rq : Requester) (sp : RegSpec) (base : Nat) (l : Word32)
    (h : s.latchOf rq base = some l) : s.readHalf rq (.reg sp base true) = (s.dropLatch rq base, l.toNat) := by
  simp [State.readHalf, h]

theorem readHalf_high_empty (s : State) (rq : Requester) (sp : RegSpec) (base : Nat)
    (h : s.latchOf rq base = none) :
    s.readHalf rq (.reg sp base true) = ((s.readReg rq sp base).1, (s.readReg rq sp base).2 / 2 ^ 32) := by
  simp [State.readHalf, h]

/-- Settles O4, by the three ways in which a half of a 64-bit register is read. -/
theorem lowHalfReadLatchesTheHighHalf : Obligations.LowHalfReadLatchesTheHighHalf := by
  intro rq off sp base s hr hb hal ho hbits hlow
  refine ⟨?_, fun hhigh => ⟨fun l hl => ?_, fun hempty => ?_⟩⟩
  · rw [exec_lowHalfRead, bar0Read_half s rq off sp base false hr hb (by omega) (by omega) hlow,
      readHalf_low s rq sp base hbits]
    rfl
  · rw [exec_highHalfRead, bar0Read_half s rq (off + 4) sp base true hr hb (by omega) (by omega) hhigh,
      readHalf_high_latched s rq sp base l hl]
    rfl
  · rw [exec_highHalfRead, bar0Read_half s rq (off + 4) sp base true hr hb (by omega) (by omega) hhigh,
      readHalf_high_empty s rq sp base hempty]

end Sys2Proof.Machine
end

section
/-!
SUPPORT. What a write by access types leaves in a field, with the obligation on it.
-/

namespace Sys2Proof.Machine

/-- Two fields of a register share no bit. -/
def FieldSpec.Apart (a b : FieldSpec) : Prop := a.lo + a.w ≤ b.lo ∨ b.lo + b.w ≤ a.lo

theorem FieldSpec.Apart.symm {a b : FieldSpec} (h : a.Apart b) : b.Apart a := Or.symm h

/-- Writing a field keeps one apart from it. -/
theorem bitsOf_putBits_apart (v x : Nat) {f g : FieldSpec} (h : g.Apart f) :
    bitsOf (putBits v g.lo g.w x) f.lo f.w = bitsOf v f.lo f.w := by
  rcases h with h | h
  · exact bitsOf_putBits_above v g.lo g.w x f.lo f.w h
  · exact bitsOf_putBits_below v g.lo g.w x f.lo f.w h

/-- Writing fields keeps one apart from all of them. -/
theorem bitsOf_foldl_apart (x : FieldSpec → Nat) (f : FieldSpec) (fs : List FieldSpec) (h : ∀ g ∈ fs, g.Apart f) (v : Nat) :
    bitsOf (fs.foldl (fun v g => putBits v g.lo g.w (x g)) v) f.lo f.w = bitsOf v f.lo f.w := by
  induction fs generalizing v with
  | nil => rfl
  | cons g gs ih =>
    obtain ⟨hg, hgs⟩ := List.forall_mem_cons.mp h
    exact (ih hgs _).trans (bitsOf_putBits_apart v (x g) hg)

/-- Each of several disjoint fields holds what was written to it. -/
theorem bitsOf_foldl_mem (x : FieldSpec → Nat) (f : FieldSpec) (fs : List FieldSpec) (hd : fs.Pairwise FieldSpec.Apart)
    (hf : f ∈ fs) (v : Nat) :
    bitsOf (fs.foldl (fun v g => putBits v g.lo g.w (x g)) v) f.lo f.w = x f % 2 ^ f.w := by
  induction fs generalizing v with
  | nil => cases hf
  | cons g gs ih =>
    obtain ⟨hg, hgs⟩ := List.pairwise_cons.mp hd
    rcases List.mem_cons.mp hf with rfl | hf
    · exact (bitsOf_foldl_apart x f gs (fun a ha => (hg a ha).symm) _).trans (bitsOf_putBits v f.lo f.w (x f))
    · exact ih hgs hf _

/-- A field of a register after a write, by the field's own access type. -/
theorem bitsOf_writeFields (fs : List FieldSpec) (locked secure : Bool) (old new mask : Nat) (f : FieldSpec)
    (hd : fs.Pairwise FieldSpec.Apart) (hf : f ∈ fs) :
    bitsOf (writeFields fs locked secure old new mask) f.lo f.w = f.after locked secure old new mask % 2 ^ f.w :=
  bitsOf_foldl_mem (fun g => g.after locked secure old new mask) f fs hd hf old

/-! ### A write that covers the field -/

theorem land_ones_of_lt {x w : Nat} (h : x < 2 ^ w) : Nat.land x (2 ^ w - 1) = x := by
  show x &&& (2 ^ w - 1) = x
  rw [Nat.and_two_pow_sub_one_eq_mod, Nat.mod_eq_of_lt h]

/-- Under a mask that covers it a field takes the written bits. -/
theorem merge_covered (f : FieldSpec) (old new mask : Nat) (hm : bitsOf mask f.lo f.w = 2 ^ f.w - 1) :
    f.merge old new mask = bitsOf new f.lo f.w := by
  unfold FieldSpec.merge
  simp only [hm, land_ones_of_lt (bitsOf_lt _ f.lo f.w), Nat.sub_self]
  exact Nat.or_zero _

theorem after_lt (f : FieldSpec) (locked secure : Bool) (old new mask : Nat)
    (hm : bitsOf mask f.lo f.w = 2 ^ f.w - 1) : f.after locked secure old new mask < 2 ^ f.w := by
  have hwas : bitsOf old f.lo f.w < 2 ^ f.w := bitsOf_lt _ _ _
  have hset : (if f.ok.ok (bitsOf new f.lo f.w) then bitsOf new f.lo f.w else bitsOf old f.lo f.w) < 2 ^ f.w := by
    split_ifs
    · exact bitsOf_lt _ _ _
    · exact hwas
  simp only [FieldSpec.after, merge_covered f old new mask hm]
  cases f.acc with
  | rw => exact hset
  | ro => exact hwas
  | w1c => exact lt_of_le_of_lt (Nat.sub_le _ _) hwas
  | wo => exact Nat.two_pow_pos _
  | rwl => cases locked <;> assumption
  | srw => cases secure <;> assumption

/-- Settles O5: the field keeps what its own access type gives, since no later field of the register touches its bits. -/
theorem writeActsByAccessType : Obligations.WriteActsByAccessType := by
  intro fs locked secure old new mask f hd hf hm
  dsimp only
  rw [bitsOf_writeFields fs locked secure old new mask f hd hf, Nat.mod_eq_of_lt (after_lt f locked secure old new mask hm)]
  cases hacc : f.acc <;>
    simp only [FieldSpec.after, hacc, merge_covered f old new mask hm, hm, land_ones_of_lt (bitsOf_lt new f.lo f.w)]

end Sys2Proof.Machine
end

section
/-!
SUPPORT. Writes of whole registers: what the register tables say of block TOP and of the staged registers, the gate that such a
write passes, the staged copies and DIRTY, and the obligation on register and staged writes.
-/

namespace Sys2Proof.Machine

/-! ### The register tables -/

/-- The block of an offset alone picks its table; everything from 0x1800000 on belongs to VIRT. -/
theorem blockTable_block (off : Nat) : blockTable off = blockTable (min (off / 0x100000) 24 * 0x100000) := by
  by_cases h : 0x1800000 ≤ off
  · have h24 : min (off / 0x100000) 24 = 24 := by omega
    rw [h24]
    simp [blockTable, h]
  · have hlt : ¬ 0x1800000 ≤ off / 0x100000 * 0x100000 := by omega
    have hmin : min (off / 0x100000) 24 = off / 0x100000 := by omega
    rw [hmin]
    simp only [blockTable, ge_iff_le, if_neg h, if_neg hlt, Nat.mul_div_cancel _ (show 0 < 0x100000 by decide)]

/-- What every table holds, one block after the other. -/
theorem blockTable_all (p : RegSpec → Bool)
    (h : ∀ n ∈ List.range 25, (blockTable (n * 0x100000)).all p = true) (off : Nat) (sp : RegSpec)
    (hsp : sp ∈ blockTable off) : p sp = true := by
  rw [blockTable_block] at hsp
  exact List.all_eq_true.mp (h (min (off / 0x100000) 24) (List.mem_range.mpr (by omega))) sp hsp

theorem regAt_go_some {off : Nat} {sps : List RegSpec} {sp : RegSpec} {b : Nat} (h : regAt.go off sps = some (sp, b)) :
    sp ∈ sps ∧ ∃ r, sp.within off = some r ∧ b = off - r := by
  induction sps with
  | nil => simp [regAt.go] at h
  | cons a as ih =>
    unfold regAt.go at h
    split at h
    · next r hr =>
      simp only [Option.some.injEq, Prod.mk.injEq] at h
      obtain ⟨rfl, rfl⟩ := h
      exact ⟨List.mem_cons_self, r, hr, rfl⟩
    · exact (ih h).imp_left (List.mem_cons_of_mem a)

/-- The register at an offset stands in the table of its block and covers the offset. -/
theorem regAt_some {off : Nat} {sp : RegSpec} {b : Nat} (h : regAt off = some (sp, b)) :
    sp ∈ blockTable off ∧ ∃ r, sp.within off = some r ∧ b = off - r := regAt_go_some h

theorem fieldsAt_of_regAt {off b : Nat} {sp : RegSpec} (h : regAt off = some (sp, b)) : fieldsAt off = sp.flds := by
  simp [fieldsAt, h]

/-- The first index of an offset that a register set covers counts its elements. -/
theorem index_lt_of_within {sp : RegSpec} {off r : Nat} (h : sp.within off = some r) (k : Nat) :
    (sp.index (off - k)).1 < sp.n1 := by
  unfold RegSpec.within at h
  simp only [Option.ite_none_left_eq_some, Option.ite_none_right_eq_some] at h
  obtain ⟨-, ⟨hi, -, -⟩, -⟩ := h
  refine lt_of_le_of_lt ?_ hi
  simp only [RegSpec.index]
  split_ifs
  · exact le_rfl
  · exact Nat.div_le_div_right (by omega)

/-! ### Staged registers in the tables (R33) -/

/-- A staged register belongs to one of the 38 islands and has no field of the secure world. -/
def RegSpec.stagingFits (sp : RegSpec) : Bool :=
  match sp.staging with
  | .none => true
  | .island n => decide (n < 38) && sp.flds.all (fun f => f.acc != .srw)
  | .perUnit n => decide (n + sp.n1 ≤ 38) && sp.flds.all (fun f => f.acc != .srw)

theorem stagingFits_of_mem {off : Nat} {sp : RegSpec} (h : sp ∈ blockTable off) : sp.stagingFits = true :=
  blockTable_all RegSpec.stagingFits (by decide +kernel) off sp h

/-- What makes an offset one of a staged register. -/
theorem stagedIsland_some {off i : Nat} (h : stagedIsland off = some i) :
    ∃ sp b, regAt off = some (sp, b) ∧ (sp.staging = .island i ∨ ∃ n, sp.staging = .perUnit n ∧ i = n + (sp.index b).1) := by
  unfold stagedIsland at h
  split at h
  · cases h
  · next sp b hreg =>
    refine ⟨sp, b, hreg, ?_⟩
    split at h
    · cases h
    · next n hs => cases h; exact .inl hs
    · next n hs => cases h; exact .inr ⟨n, hs, rfl⟩

theorem stagedIsland_lt {off i : Nat} (h : stagedIsland off = some i) : i < 38 := by
  obtain ⟨sp, b, hreg, hs⟩ := stagedIsland_some h
  obtain ⟨hmem, r, hin, rfl⟩ := regAt_some hreg
  have hfit := stagingFits_of_mem hmem
  rcases hs with hs | ⟨n, hs, rfl⟩
  · simp only [RegSpec.stagingFits, hs, Bool.and_eq_true, decide_eq_true_eq] at hfit
    exact hfit.1
  · simp only [RegSpec.stagingFits, hs, Bool.and_eq_true, decide_eq_true_eq] at hfit
    have := index_lt_of_within hin r
    omega

theorem openFields_of_staged {off i : Nat} (h : stagedIsland off = some i) : openFields off = true := by
  obtain ⟨sp, b, hreg, hs⟩ := stagedIsland_some h
  have hfit := stagingFits_of_mem (regAt_some hreg).1
  unfold openFields
  rw [fieldsAt_of_regAt hreg]
  rcases hs with hs | ⟨n, hs, -⟩ <;>
    · simp only [RegSpec.stagingFits, hs, Bool.and_eq_true] at hfit
      exact hfit.2

theorem stagedIsland_none_of_table {off : Nat} (h : (blockTable off).all (fun sp => sp.staging == .none) = true) :
    stagedIsland off = none := by
  refine Option.eq_none_iff_forall_ne_some.mpr fun i hi => ?_
  obtain ⟨sp, b, hreg, hs⟩ := stagedIsland_some hi
  have hnone := List.all_eq_true.mp h sp (regAt_some hreg).1
  rcases hs with hs | ⟨n, hs, -⟩ <;> simp [hs] at hnone

/-! ### Block TOP -/

theorem blockTable_top {off : Nat} (h : off < 0x100000) : blockTable off = regsTOP := by
  have h0 : off / 0x100000 = 0 := by omega
  rw [blockTable_block, h0]
  rfl

theorem stagedIsland_top {off : Nat} (h : off < 0x100000) : stagedIsland off = none :=
  stagedIsland_none_of_table (by rw [blockTable_top h]; decide +kernel)

theorem openFields_top {off b : Nat} {sp : RegSpec} (h : off < 0x100000) (hreg : regAt off = some (sp, b)) :
    openFields off = true := by
  have hmem := (regAt_some hreg).1
  rw [blockTable_top h] at hmem
  have hall : regsTOP.all (fun sp => sp.flds.all (fun f => f.acc != .srw)) = true := by decide +kernel
  unfold openFields
  rw [fieldsAt_of_regAt hreg]
  exact List.all_eq_true.mp hall sp hmem

/-- Block TOP is open to every requester in every state of the part. -/
theorem answers_top (s : State) {off : Nat} (h : off < 0x100000) : s.answers off = true := by
  simp [State.answers, h]

theorem shut_top (s : State) (rq : Requester) {off : Nat} (h : off < 0x100000) : s.shut rq off = none := by
  have hw : ¬ (0x510000 ≤ off ∧ off < 0x510200) := by omega
  simp only [State.shut, controlIsland, stagedIsland_top h, if_neg hw, ite_self]

theorem staged_lt_bar0 {off i : Nat} (h : stagedIsland off = some i) : 0x100000 ≤ off ∧ off < 0x1800000 := by
  refine ⟨?_, ?_⟩ <;> by_contra hc
  · simp [stagedIsland_top (show off < 0x100000 by omega)] at h
  · have h24 : min (off / 0x100000) 24 = 24 := by omega
    have hnone : stagedIsland off = none :=
      stagedIsland_none_of_table (by rw [blockTable_block, h24]; decide +kernel)
    simp [hnone] at h

/-! ### The way of a write to its block -/

/-- A write of a register that is no shown counter, not shut and without a field of the secure world goes to its block. -/
theorem writeReg_eq (s : State) (rq : Requester) (sp : RegSpec) (base at' v mask : Nat)
    (hv : s.flag DBG_SNAP_CTL_VIEW = false) (hs : s.shut rq base = none) (hf : openFields base = true) :
    s.writeReg rq sp base at' v mask = s.writeBlock rq base at' v mask := by
  unfold State.writeReg
  rw [hv, hs]
  simp only [Bool.false_and, Bool.false_eq_true, if_false]
  rw [srwLog_eq s rq base at' mask hf]

theorem writeAt_word (s : State) (off v : Nat) (sp : RegSpec) (h : s.placeAt (.fn 0) off = .reg sp off false) :
    s.writeAt (.fn 0) off 4 v = s.writeReg (.fn 0) sp off off (v % 2 ^ 32) mask32 := by
  simp [State.writeAt, h, Place.isNone, State.writeHalf, reqFn]

theorem writeAt_double (s : State) (off v : Nat) (sp : RegSpec) (h : s.placeAt (.fn 0) off = .reg sp off false)
    (hb : sp.bits = 64) : s.writeAt (.fn 0) off 8 v = s.writeReg (.fn 0) sp off off v mask64 := by
  simp [State.writeAt, h, hb, Place.wide, reqFn]

/-- A write by the PF of a register that its gate lets through, of 32 or of 64 bits. -/
theorem bar0Write_open (s : State) (off : Nat) (sp : RegSpec) (hr : s.reaches (.fn 0) = true) (ha : s.answers off = true)
    (hs : s.shut (.fn 0) off = none) (hv : s.flag DBG_SNAP_CTL_VIEW = false) (hal : off % 4 = 0) (hlt : off < 0x1800000)
    (hreg : regAt off = some (sp, off)) (hf : openFields off = true) (v : Nat) :
    s.bar0Write (.fn 0) off 4 v = s.writeBlock (.fn 0) off off (v % 2 ^ 32) mask32 ∧
    (off % 8 = 0 → sp.bits = 64 → s.bar0Write (.fn 0) off 8 v = s.writeBlock (.fn 0) off off v mask64) := by
  have hp := placeAt_reg s off sp hlt ha hreg
  have hw := fun n mask => writeReg_eq s (.fn 0) sp off off n mask hv hs hf
  have hacc := fun size hsize hsz =>
    (bar0Write_eq s (.fn 0) off size v hr (resetting_pf s) (by omega)).trans
      (if_pos ((accepted_iff off size).mpr ⟨hsize, hsz⟩))
  refine ⟨?_, fun hal8 hbits => ?_⟩
  · rw [hacc 4 (.inl rfl) hal, writeAt_word s off v sp hp, hw]
  · rw [hacc 8 (.inr rfl) hal8, writeAt_double s off v sp hp hbits, hw]

theorem writeBlock_top (s : State) (rq : Requester) (off at' v mask : Nat) (h : off < 0x100000) (hc : off ≠ TOP_MODE_CTRL) :
    s.writeBlock rq off at' v mask = s.plainWrite off v mask := by
  have h0 : off / 0x100000 = 0 := by omega
  simp only [State.writeBlock, if_neg (show ¬ 0x1800000 ≤ off by omega), h0, State.writeTop, if_neg hc]

theorem plainWrite_of_regAt (s : State) {off b : Nat} {sp : RegSpec} (h : regAt off = some (sp, b)) (v mask : Nat) :
    s.plainWrite off v mask =
      s.setReg off (BitVec.ofNat 64 (writeFields sp.flds false false (s.reg off).toNat v mask)) := by
  unfold State.plainWrite
  rw [fieldsAt_of_regAt h]

/-! ### Blocks that keep a staged write to the staged copy -/

theorem setIdx_none {off first k n : Nat} (h : off < first ∨ first + k * n ≤ off) : setIdx off first k n = none := if_pos h

theorem writeSch_staged (s : State) (rq : Requester) (base v mask : Nat) (h1 : base < 0xB01000 ∨ 0xB02000 ≤ base)
    (h2 : base < 0xB08000) : s.writeSch rq base v mask = s.stageWrite base v mask := by
  unfold State.writeSch
  rw [setIdx_none (off := base) (first := 0xB01000) (by omega), setIdx_none (off := base) (first := 0xB08000) (.inl h2)]

theorem writeQos_staged (s : State) (rq : Requester) (base v mask : Nat) (h1 : base < 0xC00100 ∨ 0xC00300 ≤ base)
    (h2 : 0xC01000 ≤ base → exemptPort ((base - 0xC01000) / 32) = false) :
    s.writeQos rq base v mask = s.stageWrite base v mask := by
  unfold State.writeQos
  rw [setIdx_none (off := base) (first := 0xC00100) (by omega)]
  by_cases hr : base < 0xC01000 ∨ 0xC01000 + 32 * 75 ≤ base
  · rw [setIdx_none hr]
  · have hex := h2 (by omega)
    simp only [exemptPort, Bool.or_eq_false_iff, beq_eq_false_iff_ne] at hex
    simp [setIdx, hr, hex]

theorem writeSaf_staged (s : State) (rq : Requester) (v mask : Nat) :
    s.writeSaf rq SAF_CFG v mask = s.stageWrite SAF_CFG v mask := by
  simp [State.writeSaf, SAF_CFG, SAF_CTL, SAF_REACT, SAF_EVT]

theorem writeBcn_staged (s : State) (rq : Requester) (v mask : Nat) :
    s.writeBcn rq BCN_CFG v mask = s.stageWrite BCN_CFG v mask := by
  simp [State.writeBcn, setIdx, BCN_CFG, BCN_STEP_CTL, BCN_RATE]

theorem writeGw_staged (s : State) (base v mask : Nat) (h1 : 0x1302000 ≤ base)
    (h2 : 0x1303800 ≤ base ∨ (base - 0x1303000) % 0x100 ≠ 0) (h3 : base < 0x1310000 ∨ 0x1318000 ≤ base) :
    s.writeGw base v mask = s.stageWrite base v mask := by
  unfold State.writeGw
  rw [setIdx_none (off := base) (first := 0x1301000) (by omega), setIdx_none (off := base) (first := 0x1310000) (by omega)]
  by_cases hr : base < 0x1303000 ∨ 0x1303000 + 0x100 * 8 ≤ base
  · rw [setIdx_none hr]
  · obtain ⟨m, hm⟩ := Nat.exists_eq_succ_of_ne_zero (h2.resolve_left (by omega))
    simp only [setIdx, if_neg hr, hm]

end Sys2Proof.Machine
end

section
/-!
SUPPORT. Writes of staged registers: the blocks that hold them, the staged copies and DIRTY; with the obligation on register and
staged writes.
-/

namespace Sys2Proof.Machine

/-! ### The staged registers without a rule of their own -/

/-- The staged registers but BOOT_ACT and the budgets of the exempt ports, by block (R33). -/
def PlainStaged (off : Nat) : Prop :=
  (∃ n, n < 4 ∧ off ∈ [ARR_CLK_CFG n, ARR_CHK_CFG n, WIN_CFG n, ATT_CFG n, VEC_CLK_CFG n, GFX_CFG n, DISP_TIM_H n, DISP_TIM_V n,
    DISP_TIM_CLK n, CAP_TDM_CFG n, SCH_DWIN n]) ∨ (∃ n, n < 8 ∧ off ∈ [CAP_CSI_CFG n, GW_ETH_QBV n, GW_ETH_QBV_BASE n]) ∨
  off ∈ [SCH_CFG, QOS_CFG, SAF_CFG, BCN_CFG] ∨ (∃ e w, e < 8 ∧ w < 32 ∧ off = SCH_WIN e w) ∨
  (∃ p c, p < 75 ∧ c < 3 ∧ exemptPort p = false ∧ off = QOS_PORT p c) ∨ (∃ p k, p < 8 ∧ k < 256 ∧ off = GW_GCL p k) ∨
  (∃ g, g < 64 ∧ off = GW_SGATE g) ∨ ∃ g k, g < 64 ∧ k < 64 ∧ off = GW_SGL g k

/-- Where such registers lie. -/
inductive StagedPlace (off : Nat) : Prop where
  | plain (h : off / 0x100000 ∈ [2, 3, 4, 7, 8, 10])
  | disp (h : off / 0x100000 = 9)
  | sch (h : off / 0x100000 = 11) (h1 : off < 0xB01000 ∨ 0xB02000 ≤ off) (h2 : off < 0xB08000)
  | qos (h : off / 0x100000 = 12) (h1 : off < 0xC00100 ∨ 0xC00300 ≤ off)
      (h2 : 0xC01000 ≤ off → exemptPort ((off - 0xC01000) / 32) = false)
  | saf (h : off = SAF_CFG)
  | bcn (h : off = BCN_CFG)
  | gw (h : off / 0x100000 = 19) (h1 : 0x1302000 ≤ off) (h2 : 0x1303800 ≤ off ∨ (off - 0x1303000) % 0x100 ≠ 0)
      (h3 : off < 0x1310000 ∨ 0x1318000 ≤ off)

theorem PlainStaged.place {off : Nat} (h : PlainStaged off) : StagedPlace off := by
  rcases h with ⟨n, hn, h⟩ | ⟨n, hn, h⟩ | h | ⟨e, w, he, hw, rfl⟩ | ⟨p, c, hp, hc, hex, rfl⟩ | ⟨p, k, hp, hk, rfl⟩ |
    ⟨g, hg, rfl⟩ | ⟨g, k, hg, hk, rfl⟩
  · have hblock : off / 0x100000 ∈ [2, 3, 4, 7, 8, 10] ∨ off / 0x100000 = 9 ∨ off / 0x100000 = 11 ∧ off < 0xB01000 := by
      simp only [ARR_CLK_CFG, ARR_CHK_CFG, WIN_CFG, ATT_CFG, VEC_CLK_CFG, GFX_CFG, DISP_TIM_H, DISP_TIM_V, DISP_TIM_CLK,
        CAP_TDM_CFG, SCH_DWIN, List.mem_cons, List.not_mem_nil, or_false] at h ⊢
      omega
    rcases hblock with h | h | ⟨h, hlt⟩
    · exact .plain h
    · exact .disp h
    · exact .sch h (.inl hlt) (by omega)
  · simp only [List.mem_cons, List.not_mem_nil, or_false] at h
    rcases h with rfl | rfl | rfl
    · refine .plain ?_
      simp only [CAP_CSI_CFG, List.mem_cons, List.not_mem_nil, or_false]
      omega
    · unfold GW_ETH_QBV
      exact .gw (by omega) (by omega) (by omega) (by omega)
    · unfold GW_ETH_QBV_BASE
      exact .gw (by omega) (by omega) (by omega) (by omega)
  · simp only [List.mem_cons, List.not_mem_nil, or_false] at h
    rcases h with rfl | rfl | rfl | rfl
    · exact .sch (by decide) (by decide) (by decide)
    · exact .qos (by decide) (by decide) (by decide)
    · exact .saf rfl
    · exact .bcn rfl
  · unfold SCH_WIN
    exact .sch (by omega) (by omega) (by omega)
  · have hport : (QOS_PORT p c - 0xC01000) / 32 = p := by unfold QOS_PORT; omega
    refine .qos ?_ ?_ fun _ => by rw [hport, hex]
    all_goals
      unfold QOS_PORT
      omega
  · unfold GW_GCL
    exact .gw (by omega) (by omega) (by omega) (by omega)
  · unfold GW_SGATE
    exact .gw (by omega) (by omega) (by omega) (by omega)
  · unfold GW_SGL
    exact .gw (by omega) (by omega) (by omega) (by omega)

/-- A write that reaches the block of such a register changes its staged copy only (R33). -/
theorem writeBlock_staged (s : State) (rq : Requester) (off at' v mask : Nat) {i : Nat} (hs : stagedIsland off = some i)
    (hp : StagedPlace off) : s.writeBlock rq off at' v mask = s.stageWrite off v mask := by
  have hlt : ¬ 0x1800000 ≤ off := by have := (staged_lt_bar0 hs).2; omega
  unfold State.writeBlock
  rw [if_neg hlt]
  cases hp with
  | plain h =>
    simp only [List.mem_cons, List.not_mem_nil, or_false] at h
    rcases h with h | h | h | h | h | h <;> simp only [h]
  | disp h =>
    rw [h]
    simp [State.writeDisp, hs]
  | sch h h1 h2 =>
    rw [h]
    exact writeSch_staged s rq off v mask h1 h2
  | qos h h1 h2 =>
    rw [h]
    exact writeQos_staged s rq off v mask h1 h2
  | saf h => rw [h]; exact writeSaf_staged s rq v mask
  | bcn h => rw [h]; exact writeBcn_staged s rq v mask
  | gw h h1 h2 h3 =>
    rw [h]
    exact writeGw_staged s off v mask h1 h2 h3

/-! ### DIRTY (R33) -/

/-- A key that a sparse map does not list has its default. -/
theorem mget_of_not_mem {β : Type} (d : Nat → β) (m : SMap β) (k : Nat) (h : k ∉ m.map (fun e => e.1)) : mget d m k = d k := by
  induction m with
  | nil => rfl
  | cons e m ih =>
    obtain ⟨hne, hm⟩ := not_or.mp (fun hc => h (List.mem_cons.mpr hc))
    exact (if_neg hne).trans (ih hm)

theorem mem_stagedKeys (s : State) (isl k : Nat) :
    k ∈ s.stagedKeys isl ↔
      stagedIsland k = some isl ∧ (k ∈ s.regs.map (fun e => e.1) ∨ k ∈ s.active.map (fun e => e.1)) := by
  simp only [State.stagedKeys, List.mem_append, List.mem_filter, beq_iff_eq, Bool.and_eq_true, Bool.not_eq_true',
    List.contains_eq_mem, decide_eq_false_iff_not]
  tauto

/-- The keys kept for DIRTY miss no register: one that neither copy lists has its reset value in both. -/
theorem dirtyKeys_eq_nil_iff (s : State) (isl : Nat) :
    s.dirtyKeys isl = [] ↔ ∀ k, stagedIsland k = some isl → s.reg k = s.act k := by
  simp only [State.dirtyKeys, List.filter_eq_nil_iff, bne_iff_ne, ne_eq, not_not]
  refine ⟨fun h k hk => ?_, fun h k hk => h k ((mem_stagedKeys s isl k).mp hk).1⟩
  by_cases hlist : k ∈ s.regs.map (fun e => e.1) ∨ k ∈ s.active.map (fun e => e.1)
  · exact h k ((mem_stagedKeys s isl k).mpr ⟨hk, hlist⟩)
  · obtain ⟨hreg, hact⟩ := not_or.mp hlist
    exact (mget_of_not_mem regReset s.regs k hreg).trans (mget_of_not_mem regReset s.active k hact).symm

/-- The mode register of an island is none of the staged ones. -/
theorem ne_islMode_of_staged {k j i : Nat} (hk : stagedIsland k = some j) (hi : i < 38) : k ≠ TOP_ISL_MODE i := by
  have hle := (staged_lt_bar0 hk).1
  unfold TOP_ISL_MODE
  omega

theorem active_refreshDirtyBit (s : State) (isl : Nat) : (s.refreshDirtyBit isl).active = s.active := put_active s _ _

theorem act_refreshDirtyBit (s : State) (isl k : Nat) : (s.refreshDirtyBit isl).act k = s.act k := by
  unfold State.act
  rw [active_refreshDirtyBit]

theorem reg_refreshDirtyBit_ne (s : State) (isl k : Nat) (h : k ≠ TOP_ISL_MODE isl) :
    (s.refreshDirtyBit isl).reg k = s.reg k := reg_put_ne s _ _ k h

/-- DIRTY tells whether a staged register of the island differs from its active copy. -/
theorem get_dirty_refreshDirtyBit (s : State) (isl : Nat) (hi : isl < 38) :
    (s.refreshDirtyBit isl).get (TOP_ISL_MODE_DIRTY isl) = 0 ↔
      ∀ k, stagedIsland k = some isl → (s.refreshDirtyBit isl).reg k = (s.refreshDirtyBit isl).act k := by
  have hw : (TOP_ISL_MODE_DIRTY isl).w = 1 := rfl
  have hget : (s.refreshDirtyBit isl).get (TOP_ISL_MODE_DIRTY isl) =
      b2n (!(s.dirtyKeys isl).isEmpty) % 2 ^ (TOP_ISL_MODE_DIRTY isl).w := by
    unfold State.refreshDirtyBit
    exact get_put s _ _ (by simp [TOP_ISL_MODE_DIRTY])
  have hempty : b2n (!(s.dirtyKeys isl).isEmpty) % 2 ^ 1 = 0 ↔ s.dirtyKeys isl = [] := by
    cases s.dirtyKeys isl <;> simp [b2n]
  rw [hget, hw, hempty, dirtyKeys_eq_nil_iff]
  refine forall₂_congr fun k hk => ?_
  rw [reg_refreshDirtyBit_ne s isl k (ne_islMode_of_staged hk hi), act_refreshDirtyBit]

/-! ### A write of a staged register -/

theorem stageWrite_armed (s : State) {off i : Nat} (hs : stagedIsland off = some i) (ha : s.armedFor i = true) (n m : Nat) :
    s.stageWrite off n m = s.put (TOP_ISL_MODE_LOST_WRITE i) 1 := by
  simp [State.stageWrite, hs, ha]

theorem stageWrite_open (s : State) {off i : Nat} (hs : stagedIsland off = some i) (ha : s.armedFor i = false) (n m : Nat) :
    s.stageWrite off n m = (s.plainWrite off n m).refreshDirtyBit i := by
  simp [State.stageWrite, hs, ha]

theorem onlyRegs_staged (s : State) (off i n m : Nat) :
    OnlyRegs [off, TOP_ISL_MODE i] s ((s.plainWrite off n m).refreshDirtyBit i) :=
  (onlyRegs_setReg s off _).trans (onlyRegs_put (s.plainWrite off n m) (TOP_ISL_MODE_DIRTY i) _)

/-- What the staged copy, the active copies and DIRTY are after a write that no armed commit stops. -/
theorem stageWrite_effect (s : State) {off i : Nat} {sp : RegSpec} (hreg : regAt off = some (sp, off))
    (hs : stagedIsland off = some i) (ha : s.armedFor i = false) (n m : Nat) :
    let t := s.stageWrite off n m
    t.reg off = BitVec.ofNat 64 (writeFields sp.flds false false (s.reg off).toNat n m) ∧ t.active = s.active ∧
      (t.get (TOP_ISL_MODE_DIRTY i) = 0 ↔ ∀ k, stagedIsland k = some i → t.reg k = t.act k) ∧
      OnlyRegs [off, TOP_ISL_MODE i] s t := by
  have hi := stagedIsland_lt hs
  dsimp only
  rw [stageWrite_open s hs ha]
  refine ⟨?_, (active_refreshDirtyBit _ i).trans (setReg_active s off _), get_dirty_refreshDirtyBit _ i hi,
    onlyRegs_staged s off i n m⟩
  rw [reg_refreshDirtyBit_ne _ i off (ne_islMode_of_staged hs hi), plainWrite_of_regAt s hreg]
  exact (reg_setReg s off off _).trans (if_pos rfl)

/-- Settles O6: a write that reaches its register comes down to the rule of its block, which is the plain write in block TOP and
the staged write for a staged register. -/
theorem registerAndStagedWrites : Obligations.RegisterAndStagedWrites := by
  refine ⟨⟨fun rq off size v s hr hb ho hsize hal => ?_, fun fn off size v s hr hb ho => ?_,
    fun off sp v s hr hal hlt hc hreg hv => ?_⟩, fun off i sp v s hr ha hsh hv hal hreg hs hplain => ?_⟩
  · rw [exec_registerWrite, bar0Write_eq s rq off size v.toNat hr hb ho, if_pos ((accepted_iff off size).mpr ⟨hsize, hal⟩)]
  · rw [exec_registerWrite, bar0Write_bar4 s fn off size v.toNat hr hb ho]
  · obtain ⟨hword, hdouble⟩ := bar0Write_open s off sp hr (answers_top s hlt) (shut_top s (.fn 0) hlt) hv hal (by omega) hreg
      (openFields_top hlt hreg) v.toNat
    have hblock := fun n mask =>
      (writeBlock_top s (.fn 0) off off n mask hlt hc).trans (plainWrite_of_regAt s hreg n mask)
    refine ⟨?_, fun hal8 hbits => ?_⟩
    · rw [exec_registerWrite, hword, hblock]
      rfl
    · rw [exec_registerWrite, hdouble hal8 hbits, hblock]
      rfl
  · have hplace : StagedPlace off := PlainStaged.place hplain
    obtain ⟨hword, hdouble⟩ := bar0Write_open s off sp hr ha hsh hv hal (staged_lt_bar0 hs).2 hreg (openFields_of_staged hs)
      v.toNat
    refine ⟨?_, fun hal8 hbits => ?_, fun n m => ⟨fun harm => stageWrite_armed s hs harm n m,
      fun harm => stageWrite_effect s hreg hs harm n m⟩⟩
    · rw [exec_stagedRegisterWrite, hword, writeBlock_staged s _ off off _ _ hs hplace]
      rfl
    · rw [exec_stagedRegisterWrite, hdouble hal8 hbits, writeBlock_staged s _ off off _ _ hs hplace]
      rfl

end Sys2Proof.Machine
end

section
/-!
SUPPORT. Writes of TOP_MODE_CTRL (R32, R33, R36): the gate, what the write leaves of the registers, the report of a refusal
or a cancel, and the outcomes of ARM and CANCEL; acknowledgements, the cut-off and READY (R33, R34). With the obligations on
arming, cancelling and acknowledging a commit.
-/

namespace Sys2Proof.Machine

/-! ### The write of TOP_MODE_CTRL -/

theorem openFields_modeCtrl : openFields TOP_MODE_CTRL = true := by decide +kernel

theorem land_mask32 (v : Word32) : Nat.land v.toNat mask32 = v.toNat := land_ones_of_lt (w := 32) v.isLt

/-- The fields first, then CANCEL, then ARM. -/
theorem writeModeCtrl_word (s : State) (v : Word32) :
    s.writeModeCtrl v.toNat mask32 =
      let u := s.plainWrite TOP_MODE_CTRL v.toNat mask32
      let w := if bitOf v.toNat 25 then u.cancelCommit else u
      if bitOf v.toNat 24 then w.tryArm else w := by
  unfold State.writeModeCtrl
  rw [land_mask32]

theorem exec_arm (rq : Requester) (v : Word32) (s : State) (h : s.opens rq TOP_MODE_CTRL = true) :
    exec (.arm rq v) s = .next (s.writeModeCtrl v.toNat mask32) :=
  congrArg Host.Outcome.next (guarded_eq s rq TOP_MODE_CTRL _ h openFields_modeCtrl)

theorem exec_cancel (rq : Requester) (v : Word32) (s : State) (h : s.opens rq TOP_MODE_CTRL = true) :
    exec (.cancel rq v) s = .next (s.writeModeCtrl v.toNat mask32) :=
  congrArg Host.Outcome.next (guarded_eq s rq TOP_MODE_CTRL _ h openFields_modeCtrl)

theorem reg_plainWrite_ne (s : State) (off v mask b : Nat) (h : b ≠ off) : (s.plainWrite off v mask).reg b = s.reg b :=
  (reg_setReg s off b _).trans (if_neg h)

theorem get_plainWrite_ne (s : State) (off v mask : Nat) (f : Fref) (h : f.off ≠ off) :
    (s.plainWrite off v mask).get f = s.get f := get_of_reg (reg_plainWrite_ne s off v mask f.off h)

/-! ### The PF message -/

theorem get_pfIrq (s : State) (vec en f : Fref) : (s.pfIrq vec en).get f = s.get f := get_of_reg (reg_pfIrq s vec en f.off)

theorem pfIrq_off (s : State) (vec en : Fref) (h : s.flag en = false) : s.pfIrq vec en = s := by
  simp [State.pfIrq, h]

theorem msix_eq (s : State) (fn v : Nat) :
    s.msix fn v = { s with out := (s.msix fn v).out, pcie := (s.msix fn v).pcie } := by
  unfold State.msix
  split_ifs <;> rfl

/-- A message changes what is put out and what is pending only. -/
theorem pfIrq_eq (s : State) (vec en : Fref) :
    s.pfIrq vec en = { s with out := (s.pfIrq vec en).out, pcie := (s.pfIrq vec en).pcie } := by
  unfold State.pfIrq
  split_ifs
  · exact msix_eq s 0 _
  · rfl

theorem pfIrq_regs (s : State) (vec en : Fref) : (s.pfIrq vec en).regs = s.regs := by
  rw [pfIrq_eq]

/-- What a message puts out depends on the vector, the enable, the reset of the PF and the message table alone. -/
theorem out_pfIrq_congr {s t : State} {vec en : Fref} (hv : t.get vec = s.get vec) (he : t.get en = s.get en)
    (hb : t.get (VIRT_FN_W5_FLR_BUSY 0) = s.get (VIRT_FN_W5_FLR_BUSY 0)) (hp : t.pcie = s.pcie) (ho : t.out = s.out) :
    (t.pfIrq vec en).out = (s.pfIrq vec en).out := by
  simp only [State.pfIrq, State.msix, State.flag, State.poolVec, apply_ite State.out, hv, he, hb, hp, ho, if_true]

/-! ### The report of a refusal or a cancel -/

theorem OnlyRegs.refl (L : List Nat) (s : State) : OnlyRegs L s s := ⟨rfl, fun _ _ => rfl⟩

theorem OnlyRegs.mono {L M : List Nat} {s t : State} (h : OnlyRegs L s t) (hLM : L ⊆ M) : OnlyRegs M s t :=
  ⟨h.1, fun b hb => h.2 b fun hL => hb (hLM hL)⟩

/-- The fields of TOP_MODE_STATUS that report an outcome. -/
def State.modeReport (s : State) (result isl peer : Nat) : State :=
  (((s.put TOP_MODE_STATUS_RESULT result).put TOP_MODE_STATUS_FIRST_MISSING isl).put TOP_MODE_STATUS_PEER_MISSING peer).put
    TOP_MODE_STATUS_DONE 1

theorem modeDone_eq_pfIrq (s : State) (r i p : Nat) :
    s.modeDone r i p = (s.modeReport r i p).pfIrq TOP_IRQ_VECTOR TOP_MODE_CTRL_IRQ_EN := rfl

/-- The fields of TOP_MODE_STATUS after a report: LAST_GEN and STATE stay. -/
theorem modeReport_status (s : State) (r i p : Nat) :
    (s.modeReport r i p).get TOP_MODE_STATUS_RESULT = r % 16 ∧ (s.modeReport r i p).get TOP_MODE_STATUS_DONE = 1 ∧
    (s.modeReport r i p).get TOP_MODE_STATUS_FIRST_MISSING = i % 64 ∧
    (s.modeReport r i p).get TOP_MODE_STATUS_PEER_MISSING = p % 64 ∧
    (s.modeReport r i p).get TOP_MODE_STATUS_LAST_GEN = s.get TOP_MODE_STATUS_LAST_GEN ∧
    (s.modeReport r i p).get TOP_MODE_STATUS_STATE = s.get TOP_MODE_STATUS_STATE := by
  simp (disch := decide) only [State.modeReport, get_put, get_put_disjoint]
  exact ⟨rfl, rfl, rfl, rfl, trivial, trivial⟩

theorem onlyRegs_modeReport (s : State) (r i p : Nat) : OnlyRegs [TOP_MODE_STATUS] s (s.modeReport r i p) := by
  have hputs := (((onlyRegs_put s TOP_MODE_STATUS_RESULT r).trans (onlyRegs_put _ TOP_MODE_STATUS_FIRST_MISSING i)).trans
    (onlyRegs_put _ TOP_MODE_STATUS_PEER_MISSING p)).trans (onlyRegs_put _ TOP_MODE_STATUS_DONE 1)
  exact hputs.mono (by decide)

theorem get_modeDone (s : State) (r i p : Nat) (f : Fref) : (s.modeDone r i p).get f = (s.modeReport r i p).get f :=
  get_pfIrq _ _ _ f

theorem reg_modeDone_ne (s : State) (r i p b : Nat) (h : b ≠ TOP_MODE_STATUS) : (s.modeDone r i p).reg b = s.reg b := by
  rw [modeDone_eq_pfIrq, reg_pfIrq]
  exact (onlyRegs_modeReport s r i p).2 b (List.mem_singleton.not.mpr h)

theorem modeDone_eq (s : State) (r i p : Nat) :
    s.modeDone r i p = { s with regs := (s.modeDone r i p).regs, out := (s.modeDone r i p).out,
                                pcie := (s.modeDone r i p).pcie } := by
  obtain ⟨heq, -⟩ := onlyRegs_modeReport s r i p
  rw [modeDone_eq_pfIrq, pfIrq_regs]
  generalize hx : s.modeReport r i p = x at heq
  exact (pfIrq_eq x _ _).trans (congrArg (fun y : State => { y with
    out := (x.pfIrq TOP_IRQ_VECTOR TOP_MODE_CTRL_IRQ_EN).out
    pcie := (x.pfIrq TOP_IRQ_VECTOR TOP_MODE_CTRL_IRQ_EN).pcie }) heq)

theorem out_modeDone (s : State) (r i p : Nat) :
    (s.modeDone r i p).out = (s.pfIrq TOP_IRQ_VECTOR TOP_MODE_CTRL_IRQ_EN).out := by
  obtain ⟨heq, hreg⟩ := onlyRegs_modeReport s r i p
  have hget : ∀ f : Fref, f.off ≠ TOP_MODE_STATUS → (s.modeReport r i p).get f = s.get f :=
    fun f hf => get_of_reg (hreg f.off (List.mem_singleton.not.mpr hf))
  rw [modeDone_eq_pfIrq]
  exact out_pfIrq_congr (hget _ (by decide)) (hget _ (by decide)) (hget _ (by decide)) (congrArg State.pcie heq :)
    (congrArg State.out heq :)

@[simp] theorem still_modeDone (s : State) (r i p : Nat) : (s.modeDone r i p).still = s.still := by
  rw [modeDone_eq_pfIrq]
  simp only [still_pfIrq, State.modeReport, still_put]

@[simp] theorem modeDone_arm (s : State) (r i p : Nat) : (s.modeDone r i p).arm = s.arm :=
  (congrArg State.arm (modeDone_eq s r i p) :)

/-! ### Why an arm is refused (R32) -/

theorem get_lt (s : State) (f : Fref) : s.get f < 2 ^ f.w := bitsOf_lt _ f.lo f.w

theorem flag_eq_false_iff (s : State) (f : Fref) (hw : f.w = 1) : s.flag f = false ↔ s.get f = 0 := by
  have hlt := get_lt s f
  rw [hw] at hlt
  unfold State.flag
  rw [beq_eq_false_iff_ne]
  omega

theorem armRefusal_armed {s : State} (h : s.arm.isSome = true) : s.armRefusal = some 5 := by
  simp only [State.armRefusal, h, if_true]

theorem armRefusal_time {s : State} (h : s.arm = none)
    (ht : s.get TOP_MODE_TIME_TIME < s.beacon + s.get TOP_MODE_CTRL_GUARD_US * 1000 + 10000 ∨
      s.beacon + 10000000000 < s.get TOP_MODE_TIME_TIME) : s.armRefusal = some 4 := by
  simp only [State.armRefusal, h, Option.isSome_none, Bool.false_eq_true, if_false, if_pos ht]

theorem armRefusal_units {s : State} (h : s.arm = none)
    (ht : ¬ (s.get TOP_MODE_TIME_TIME < s.beacon + s.get TOP_MODE_CTRL_GUARD_US * 1000 + 10000 ∨
      s.beacon + 10000000000 < s.get TOP_MODE_TIME_TIME))
    (hu : s.get TOP_MODE_UNITS_UNITS = 0 ∨ 2 ^ 38 ≤ s.get TOP_MODE_UNITS_UNITS ∨
      ∃ i, i < 38 ∧ bitOf (s.get TOP_MODE_UNITS_UNITS) i = true ∧ s.get (TOP_ISL_MODE_PRESENT i) = 0) :
    s.armRefusal = some 6 := by
  have habsent : (∃ i, i < 38 ∧ bitOf (s.get TOP_MODE_UNITS_UNITS) i = true ∧ s.get (TOP_ISL_MODE_PRESENT i) = 0) →
      (maskBits 38 (s.get TOP_MODE_UNITS_UNITS)).any (fun i => !s.flag (TOP_ISL_MODE_PRESENT i)) = true := by
    rintro ⟨i, hi, hbit, hp⟩
    refine List.any_eq_true.mpr ⟨i, List.mem_filter.mpr ⟨List.mem_range.mpr hi, hbit⟩, ?_⟩
    rw [(flag_eq_false_iff s _ rfl).mpr hp]
    rfl
  simp only [State.armRefusal, h, Option.isSome_none, Bool.false_eq_true, if_false, if_neg ht,
    if_pos (hu.imp_right (Or.imp_right habsent))]

theorem tryArm_refused {s : State} {r : Nat} (h : s.armRefusal = some r) : s.tryArm = s.modeDone r 0x3F 0x3F := by
  simp only [State.tryArm, h]

/-- Settles O8: the three rows are the branches of `armRefusal`, and what a refusal reports is the same for each of them. -/
theorem armIsRefusedByTheFirstRowThatApplies : Obligations.ArmIsRefusedByTheFirstRowThatApplies := by
  intro rq v s ho h24 h25 u time units badTime badUnits refusedBy
  have hreg : ∀ b, b ≠ TOP_MODE_CTRL → u.reg b = s.reg b := fun b hb => reg_plainWrite_ne s TOP_MODE_CTRL v.toNat _ b hb
  have hget : ∀ f : Fref, f.off ≠ TOP_MODE_CTRL → u.get f = s.get f :=
    fun f hf => get_plainWrite_ne s TOP_MODE_CTRL v.toNat _ f hf
  have harm : u.arm = s.arm := setReg_arm s _ _
  have hstill : u.still = s.still := still_setReg s _ _
  have refused : ∀ r, r < 16 → u.armRefusal = some r → refusedBy r := by
    intro r hr hrow
    obtain ⟨hres, hdone, hfirst, hpeer, hgen, hstate⟩ := modeReport_status u r 0x3F 0x3F
    rw [← get_modeDone] at hres hdone hfirst hpeer hgen hstate
    refine ⟨?_, hres.trans (Nat.mod_eq_of_lt hr), hdone, hfirst, hpeer, hgen.trans (hget _ (by decide)),
      hstate.trans (hget _ (by decide)), (modeDone_arm u r _ _).trans harm, out_modeDone u r _ _,
      (still_modeDone u r _ _).trans hstill,
      fun b hc hs => (reg_modeDone_ne u r _ _ b hs).trans (hreg b hc)⟩
    rw [exec_arm rq v s ho, writeModeCtrl_word]
    simp only [h24, h25, if_true, Bool.false_eq_true, if_false]
    exact congrArg Host.Outcome.next (tryArm_refused hrow)
  exact ⟨fun ha => refused 5 (by decide) (armRefusal_armed ((congrArg Option.isSome harm).trans ha)),
    fun ha ht => refused 4 (by decide) (armRefusal_time (harm.trans ha) ht),
    fun ha ht hu => refused 6 (by decide) (armRefusal_units (harm.trans ha) ht hu)⟩

/-! ### An accepted arm (R33) -/

/-- A fold keeps what each of its steps keeps. -/
theorem foldl_keeps {α β : Type} (p : State → β) (f : State → α → State) (hf : ∀ u a, p (f u a) = p u) (l : List α) (s : State) :
    p (l.foldl f s) = p s := by
  induction l generalizing s with
  | nil => rfl
  | cons a l ih => exact (ih (f s a)).trans (hf s a)

theorem wakeIsls_arm (s : State) (l : List Nat) : (s.wakeIsls l).arm = s.arm :=
  foldl_keeps State.arm _ (fun u i => by split_ifs <;> rfl) l s

/-- ACK cleared on every island. -/
def State.ackCleared (s : State) : State := (List.range 38).foldl (fun s i => s.put (TOP_ISL_MODE_ACK i) 0) s

/-- The islands of `units` take the staged generation, and those without staged registers acknowledge. -/
def State.generationStaged (s : State) (units gen : Nat) : State :=
  (maskBits 38 units).foldl (fun s i =>
    let s := s.put (TOP_ISL_MODE_STAGED_GEN i) gen
    if unstaged i then s.put (TOP_ISL_MODE_ACK i) 1 else s) s

theorem ackCleared_arm (s : State) : s.ackCleared.arm = s.arm := foldl_keeps State.arm _ (fun u _ => put_arm u _ _) _ s

theorem generationStaged_arm (s : State) (units gen : Nat) : (s.generationStaged units gen).arm = s.arm :=
  foldl_keeps State.arm _ (fun u i => by
    by_cases hi : unstaged i = true
    · rw [if_pos hi]
      exact (put_arm _ _ _).trans (put_arm _ _ _)
    · rw [if_neg hi]
      exact put_arm _ _ _) _ s

/-- The commit that an accepted arm latches. -/
def State.latchedCommit (s : State) : Armed where
  gen := s.get TOP_MODE_CTRL_GEN
  guardUs := s.get TOP_MODE_CTRL_GUARD_US
  units := s.get TOP_MODE_UNITS_UNITS
  time := s.get TOP_MODE_TIME_TIME
  peers := s.get TOP_MODE_PEERS_PEERS
  frozen := none
  ready := []
  readySent := false

theorem armCommit_eq (s : State) :
    s.armCommit = (((({ s with arm := some s.latchedCommit } : State).put TOP_MODE_STATUS_STATE 1).put TOP_MODE_STATUS_LAST_GEN
      (s.get TOP_MODE_CTRL_GEN)).ackCleared.generationStaged (s.get TOP_MODE_UNITS_UNITS) (s.get TOP_MODE_CTRL_GEN)).wakeIsls
        (maskBits 38 (s.get TOP_MODE_UNITS_UNITS)) := rfl

theorem armCommit_arm (s : State) : s.armCommit.arm = some s.latchedCommit := by
  rw [armCommit_eq, wakeIsls_arm, generationStaged_arm, ackCleared_arm, put_arm, put_arm]

/-- Out of cold reset with TIME 1 ms ahead, island 8 in UNITS, and the reset values everywhere else. -/
def readyToArm : State :=
  (({ State.reset with pins := { State.reset.pins with held := false } }).put TOP_MODE_UNITS_UNITS (2 ^ 8)).put
    TOP_MODE_TIME_TIME 1000000

/-- ARM = 1 with GEN = 0 and the reserved GUARD_US = 0. -/
def armWithReservedGuard : Word32 := BitVec.ofNat 32 (2 ^ 24)

/-- The reserved encoding 0 is not taken: GUARD_US keeps its reset value of 5 µs, which the arm then latches. -/
theorem guard_of_reserved :
    (readyToArm.plainWrite TOP_MODE_CTRL armWithReservedGuard.toNat 0xFFFFFFFF).get TOP_MODE_CTRL_GUARD_US = 5 := by
  decide +kernel

/-- Refutes O9: a write of ARM = 1 with the reserved GUARD_US = 0 leaves the register's GUARD_US as it was (R6), here 5 µs,
and the accepted arm latches that, not the 0 of the written word. -/
theorem not_acceptedArmLatchesTheCommit : ¬ Obligations.AcceptedArmLatchesTheCommit := by
  intro h
  obtain ⟨-, hlatched, -⟩ := h .keeper armWithReservedGuard readyToArm (by decide +kernel) (by decide) (by decide) rfl
    (by decide +kernel) (by decide +kernel) (by decide +kernel) (by decide +kernel) (by decide +kernel)
  have hguard := congrArg (Option.map Armed.guardUs) ((armCommit_arm _).symm.trans hlatched)
  have hzero : (readyToArm.plainWrite TOP_MODE_CTRL armWithReservedGuard.toNat 0xFFFFFFFF).get TOP_MODE_CTRL_GUARD_US = 0 :=
    Option.some.inj hguard
  rw [guard_of_reserved] at hzero
  exact absurd hzero (by decide)

/-! ### CANCEL (R36) -/

theorem cancelCommit_unarmed {s : State} (h : s.arm = none) : s.cancelCommit = s := by
  simp only [State.cancelCommit, h, Option.isNone_none, if_true]

theorem cancelCommit_armed {s : State} (h : s.arm.isSome = true) :
    s.cancelCommit = ({ s with arm := none }.put TOP_MODE_STATUS_STATE 0).modeDone 7 (s.get TOP_MODE_STATUS_FIRST_MISSING)
      (s.get TOP_MODE_STATUS_PEER_MISSING) := by
  have harm : ¬ s.arm.isNone = true := by simpa using Option.isSome_iff_ne_none.mp h
  exact if_neg harm

/-- A cancel of an armed commit: RESULT = CANCELLED with DONE and the message; only TOP_MODE_STATUS, the armed commit and the
messages change, and LAST_GEN stays. -/
theorem cancelCommit_effect {s : State} (h : s.arm.isSome = true) :
    s.cancelCommit.arm = none ∧ s.cancelCommit.get TOP_MODE_STATUS_STATE = 0 ∧
    s.cancelCommit.get TOP_MODE_STATUS_RESULT = 7 ∧ s.cancelCommit.get TOP_MODE_STATUS_DONE = 1 ∧
    s.cancelCommit.get TOP_MODE_STATUS_LAST_GEN = s.get TOP_MODE_STATUS_LAST_GEN ∧
    s.cancelCommit.out = (s.pfIrq TOP_IRQ_VECTOR TOP_MODE_CTRL_IRQ_EN).out ∧
    s.cancelCommit = { s with regs := s.cancelCommit.regs, arm := none, out := s.cancelCommit.out, pcie := s.cancelCommit.pcie } ∧
    ∀ b, b ≠ TOP_MODE_STATUS → s.cancelCommit.reg b = s.reg b := by
  let x : State := { s with arm := none }.put TOP_MODE_STATUS_STATE 0
  let i := s.get TOP_MODE_STATUS_FIRST_MISSING
  let p := s.get TOP_MODE_STATUS_PEER_MISSING
  have hx : s.cancelCommit = x.modeDone 7 i p := cancelCommit_armed h
  have hreg : ∀ b, b ≠ TOP_MODE_STATUS → x.reg b = s.reg b := fun b hb => reg_put_ne { s with arm := none } _ 0 b hb
  obtain ⟨hres, hdone, -, -, hgen, hstate⟩ := modeReport_status x 7 i p
  rw [← get_modeDone] at hres hdone hgen hstate
  rw [hx]
  refine ⟨modeDone_arm x 7 i p, hstate.trans (get_put _ _ 0 (by decide)), hres, hdone,
    hgen.trans (get_put_disjoint { s with arm := none } _ _ 0 (by decide) (by decide)), (out_modeDone x 7 i p).trans ?_,
    modeDone_eq x 7 i p, fun b hb => (reg_modeDone_ne x 7 i p b hb).trans (hreg b hb)⟩
  exact out_pfIrq_congr (get_of_reg (hreg _ (by decide))) (get_of_reg (hreg _ (by decide)))
    (get_of_reg (hreg _ (by decide))) rfl rfl

/-! ### Acknowledgements, the cut-off and READY (R33, R34) -/

theorem bitOf_eq_testBit (v i : Nat) : bitOf v i = v.testBit i := by
  rw [Nat.testBit_eq_decide_div_mod_eq]
  rfl

/-- The mask of the cut-off holds ACK of each island. -/
theorem bitOf_ackMask (s : State) {i : Nat} (hi : i < 38) : bitOf s.ackMask i = s.flag (TOP_ISL_MODE_ACK i) := by
  have hsum : s.ackMask = (((List.range 38).filter (fun i => s.flag (TOP_ISL_MODE_ACK i))).map (2 ^ ·)).sum := by
    rw [List.sum_eq_foldl, List.foldl_map]
    rfl
  have hsorted : ((List.range 38).filter (fun i => s.flag (TOP_ISL_MODE_ACK i))).SortedLT :=
    (List.pairwise_lt_range.filter _).sortedLT
  rw [bitOf_eq_testBit, Bool.eq_iff_iff, ← Nat.mem_bitIndices, hsum, Nat.bitIndices_sum_map_two_pow hsorted, List.mem_filter,
    List.mem_range]
  exact and_iff_right hi

theorem stagedOk_array (s : State) {i : Nat} (hi : i < 4) (h5 : s.get (ARR_CLK_CFG_FREQ_MHZ i) % 5 = 0)
    (hlo : 200 ≤ s.get (ARR_CLK_CFG_FREQ_MHZ i)) (hhi : s.get (ARR_CLK_CFG_FREQ_MHZ i) ≤ s.get (ARR_CLK_STAT_FMAX_NOW i))
    (ht : 10 ≤ s.get (ARR_CHK_CFG_TOL_EXP i)) (ht' : s.get (ARR_CHK_CFG_TOL_EXP i) ≤ 18)
    (hp : s.get (ATT_CFG_PREFETCH i) ≤ 4) : s.stagedOk i = true := by
  simp only [State.stagedOk, State.stagedFreq, State.fmaxNow, hi, if_true, h5, hlo, hhi, ht, ht', hp, decide_true,
    beq_self_eq_true, Bool.and_self]

theorem exec_islandAck {s : State} {i : Nat} (ha : s.armedFor i = true) (hon : s.islOn i = true) (hok : s.stagedOk i = true) :
    exec (.islandAck i) s = .next (s.put (TOP_ISL_MODE_ACK i) 1) := by
  show Host.Outcome.next _ = _
  rw [ha, hon, hok]
  rfl

theorem cutOff_open {s : State} {a : Armed} (ha : s.arm = some a) (hf : a.frozen = none) (hp : a.peers = 0) :
    s.cutOff = { s with arm := some { a with frozen := some s.ackMask, readySent := false } } := by
  simp [State.cutOff, ha, hf, hp, maskBits, bitOf]

theorem exec_ackCutoff {s : State} {a : Armed} (ha : s.arm = some a) :
    exec .ackCutoff s = .next (if a.time ≤ s.beacon + a.guardUs * 1000 then s.cutOff else s) := by
  show Host.Outcome.next (match s.arm with | some a => _ | none => _) = _
  rw [ha]

theorem exec_peerReady {s : State} {a : Armed} (ha : s.arm = some a) (dev gen : Nat) :
    exec (.peerReady dev gen) s = .next (if a.gen = gen ∧ bitOf a.peers dev ∧ ¬ a.ready.contains dev
      then { s with arm := some { a with ready := a.ready ++ [dev] } } else s) := by
  show Host.Outcome.next (match s.arm with | some a => _ | none => _) = _
  rw [ha]

/-- Settles O10, by the order of CANCEL and ARM in one write, and the guards of the three events of an armed commit. -/
theorem cancelAcknowledgeAndReady : Obligations.CancelAcknowledgeAndReady := by
  refine ⟨fun rq v s ho h25 => ?_, fun s a ha => ⟨fun i hi hu hon h5 hlo hhi ht ht' hp => ?_, fun hf hcut hpeers => ?_,
    fun hearly => ?_, fun dev gen hgen hpeer hready => ?_, fun dev gen hgen => ?_⟩⟩
  · intro u
    have hreg : ∀ b, b ≠ TOP_MODE_CTRL → u.reg b = s.reg b := fun b hb => reg_plainWrite_ne s TOP_MODE_CTRL v.toNat _ b hb
    have harm : u.arm = s.arm := setReg_arm s _ _
    have hregs : u = { s with regs := u.regs } := (onlyRegs_setReg s TOP_MODE_CTRL _).1
    have hexec : exec (.cancel rq v) s =
        .next (if bitOf v.toNat 24 then (State.cancelCommit u).tryArm else State.cancelCommit u) := by
      rw [exec_cancel rq v s ho, writeModeCtrl_word]
      simp only [h25, if_true, u, mask32]
    refine ⟨fun h24 ha => ?_, fun h24 ha => ?_, fun h24 => ?_⟩
    · rw [hexec, if_neg (Bool.eq_false_iff.mp h24), cancelCommit_unarmed (harm.trans ha)]
    · obtain ⟨harm, hstate, hres, hdone, hgen, hout, heq, hkept⟩ := cancelCommit_effect ((congrArg Option.isSome harm).trans ha)
      refine ⟨?_, harm, hstate, hres, hdone, hgen.trans (get_of_reg (hreg _ (by decide))), hout,
        heq.trans ?_, fun b hc hs => (hkept b hs).trans (hreg b hc)⟩
      · rw [hexec, if_neg (Bool.eq_false_iff.mp h24)]
      · exact congrArg (fun y : State => { y with
          regs := u.cancelCommit.regs, arm := none, out := u.cancelCommit.out, pcie := u.cancelCommit.pcie }) hregs
    · rw [hexec, if_pos h24]
  · exact exec_islandAck (by simp only [State.armedFor, ha, hu]) hon (stagedOk_array s hi h5 hlo hhi ht ht' hp)
  · exact ⟨s.ackMask, by rw [exec_ackCutoff ha, if_pos hcut, cutOff_open ha hf hpeers], fun i hi => bitOf_ackMask s hi⟩
  · rw [exec_ackCutoff ha, if_neg (by omega)]
  · rw [exec_peerReady ha, if_pos ⟨hgen.symm, hpeer, by simpa using hready⟩]
  · rw [exec_peerReady ha, if_neg (fun h => hgen h.1.symm)]

end Sys2Proof.Machine
end

section
/-!
SUPPORT. Faults, calibration, refresh and scrubbing of the memories (R28, R217 to R220), with the obligation on them.
-/

namespace Sys2Proof.Machine

/-! ### Command faults of a DDR4 channel (R28, R220) -/

/-- The counters of channel `ch` after a command fault of kind `k`. -/
def State.ddrCounted (s : State) (ch : Nat) (k : DdrFault) : State :=
  (if k = .caParity then s.bump (DDR_CNT_CAPAR_COUNT ch) 1 else s).bump (DDR_CNT_TRANSIENT_COUNT ch) 1

/-- The fault counted, noted at its time for the rate of R28, and added to those in a row. -/
def State.ddrFaulted (s : State) (ch : Nat) (k : DdrFault) : State :=
  { (s.ddrCounted ch k).transient (chIsl (24 + ch)) with
    consec := mset (fun _ => 0) s.consec ch (mget (fun _ => 0) s.consec ch + 1) }

theorem onlyRegs_ddrCounted (s : State) (ch : Nat) (k : DdrFault) :
    OnlyRegs [DDR_CNT_CAPAR ch, DDR_CNT_TRANSIENT ch] s (s.ddrCounted ch k) := by
  have hcapar : OnlyRegs [DDR_CNT_CAPAR ch] s (if k = .caParity then s.bump (DDR_CNT_CAPAR_COUNT ch) 1 else s) := by
    split_ifs
    · exact onlyRegs_bump s (DDR_CNT_CAPAR_COUNT ch) 1
    · exact OnlyRegs.refl _ s
  exact hcapar.trans (onlyRegs_bump _ (DDR_CNT_TRANSIENT_COUNT ch) 1)

theorem get_ddrFaulted (s : State) (ch : Nat) (k : DdrFault) (f : Fref) :
    (s.ddrFaulted ch k).get f = (s.ddrCounted ch k).get f := rfl

theorem ddrFaulted_eq (s : State) (ch : Nat) (k : DdrFault) :
    s.ddrFaulted ch k = { s with regs := (s.ddrFaulted ch k).regs, consec := (s.ddrFaulted ch k).consec,
                                 transients := (s.ddrFaulted ch k).transients } :=
  congrArg (fun x : State => { x with
    consec := (s.ddrFaulted ch k).consec, transients := (s.ddrFaulted ch k).transients }) (onlyRegs_ddrCounted s ch k).1

theorem consec_ddrFaulted (s : State) (ch : Nat) (k : DdrFault) :
    mget (fun _ => 0) (s.ddrFaulted ch k).consec ch = mget (fun _ => 0) s.consec ch + 1 :=
  (mget_mset (fun _ => 0) s.consec ch ch (mget (fun _ => 0) s.consec ch + 1)).trans (if_pos rfl)

theorem capar_ne_transient (ch : Nat) : DDR_CNT_CAPAR ch ≠ DDR_CNT_TRANSIENT ch := by
  unfold DDR_CNT_CAPAR DDR_CNT_TRANSIENT
  omega

theorem get_transientCount_ddrCounted (s : State) (ch : Nat) (k : DdrFault) :
    (s.ddrCounted ch k).get (DDR_CNT_TRANSIENT_COUNT ch) = min (s.get (DDR_CNT_TRANSIENT_COUNT ch) + 1) 0xFFFFFFFF := by
  have hkept : (if k = .caParity then s.bump (DDR_CNT_CAPAR_COUNT ch) 1 else s).get (DDR_CNT_TRANSIENT_COUNT ch) =
      s.get (DDR_CNT_TRANSIENT_COUNT ch) := by
    split_ifs
    · exact get_put_ne s (DDR_CNT_CAPAR_COUNT ch) (DDR_CNT_TRANSIENT_COUNT ch) _ (capar_ne_transient ch).symm
    · rfl
  rw [← hkept]
  exact get_bump_one _ (DDR_CNT_TRANSIENT ch)

theorem get_caparCount_ddrCounted (s : State) (ch : Nat) (k : DdrFault) :
    (s.ddrCounted ch k).get (DDR_CNT_CAPAR_COUNT ch) =
      if k = .caParity then min (s.get (DDR_CNT_CAPAR_COUNT ch) + 1) 0xFFFFFFFF else s.get (DDR_CNT_CAPAR_COUNT ch) := by
  refine (get_put_ne _ (DDR_CNT_TRANSIENT_COUNT ch) (DDR_CNT_CAPAR_COUNT ch) _ (capar_ne_transient ch)).trans ?_
  split_ifs
  · exact get_bump_one s (DDR_CNT_CAPAR ch)
  · rfl

theorem exec_ddrCommandFault_absent {s : State} {ch : Nat} (k : DdrFault) (h : s.flag (DDR_CFG_PRESENT ch) = false) :
    exec (.ddrCommandFault ch k) s = .next s := by
  show Host.Outcome.next (if _ then _ else _) = _
  rw [h]
  rfl

theorem exec_ddrCommandFault_present {s : State} {ch : Nat} (k : DdrFault) (hch : ch < 8)
    (h : s.flag (DDR_CFG_PRESENT ch) = true) :
    exec (.ddrCommandFault ch k) s =
      .next (if s.get SAF_CTL_ATTEMPTS ≤ mget (fun _ => 0) s.consec ch + 1 ∨
          (s.ddrFaulted ch k).rateHit (chIsl (24 + ch)) = true
        then (s.ddrFaulted ch k).retireDdr ch else s.ddrFaulted ch k) := by
  have hattempts : (s.ddrFaulted ch k).get SAF_CTL_ATTEMPTS = s.get SAF_CTL_ATTEMPTS :=
    get_of_reg ((onlyRegs_ddrCounted s ch k).2 _ (by
      simp only [SAF_CTL_ATTEMPTS, SAF_CTL, DDR_CNT_CAPAR, DDR_CNT_TRANSIENT, List.mem_cons, List.not_mem_nil, or_false]
      omega))
  have hexec : exec (.ddrCommandFault ch k) s =
      .next (if decide ((s.ddrFaulted ch k).get SAF_CTL_ATTEMPTS ≤ mget (fun _ => 0) s.consec ch + 1) ||
          (s.ddrFaulted ch k).rateHit (chIsl (24 + ch))
        then (s.ddrFaulted ch k).retireDdr ch else s.ddrFaulted ch k) := by
    show Host.Outcome.next (if _ then _ else _) = _
    rw [h]
    cases k <;> rfl
  simp only [hexec, hattempts, Bool.or_eq_true, decide_eq_true_eq]

/-! ### ZQ calibration and the temperature poll (R217, R218) -/

theorem exec_zqCalibration (s : State) :
    exec .zqCalibration s = .next (if s.fwRuns ∧ s.zqLast + msTicks 128 ≤ s.c then { s with zqLast := s.c } else s) := rfl

theorem exec_dramTempPoll (l : List Nat) (s : State) :
    exec (.dramTempPoll l) s =
      .next (if s.fwRuns then (List.range 8).foldl (fun s ch => s.pollChannel l ch) s else s) := rfl

/-- A channel of which no component was read keeps its refresh. -/
theorem pollChannel_unread (s : State) (l : List Nat) (ch : Nat) (h : l.length ≤ 2 * ch) : s.pollChannel l ch = s := by
  simp [State.pollChannel, List.drop_eq_nil_of_le h]

/-- Readings of channel 0 alone touch channel 0 alone. -/
theorem poll_first (s : State) (x y : Nat) :
    (List.range 8).foldl (fun s ch => s.pollChannel [x, y] ch) s = s.pollChannel [x, y] 0 := by
  have hrest : ∀ (u : State) (ch : Nat), u.pollChannel [x, y] (ch + 1) = u := fun u ch =>
    pollChannel_unread u [x, y] (ch + 1) (by simp only [List.length_cons, List.length_nil]; omega)
  rw [List.range_succ_eq_map, List.foldl_cons, List.foldl_map]
  exact foldl_keeps id _ (fun u ch => hrest u ch) _ _

/-- The refresh state of channel `ch` set by whether it is hot. -/
def State.refreshSet (s : State) (ch : Nat) (hot : Bool) : State := (s.put (DDR_CFG_HOT ch) (b2n hot)).refreshTrefi ch

theorem onlyRegs_refreshSet (s : State) (ch : Nat) (hot : Bool) :
    OnlyRegs [DDR_CFG ch, DDR_TIM ch] s (s.refreshSet ch hot) :=
  (onlyRegs_put s (DDR_CFG_HOT ch) (b2n hot)).trans (onlyRegs_put (s.put (DDR_CFG_HOT ch) (b2n hot)) (DDR_TIM_TREFI ch) _)

theorem get_hot_refreshSet (s : State) (ch : Nat) (hot : Bool) :
    (s.refreshSet ch hot).get (DDR_CFG_HOT ch) = if hot then 1 else 0 := by
  have hne : DDR_CFG ch ≠ DDR_TIM ch := by
    unfold DDR_CFG DDR_TIM
    omega
  refine (get_put_ne _ (DDR_TIM_TREFI ch) (DDR_CFG_HOT ch) _ hne).trans ((get_put s (DDR_CFG_HOT ch) _ ?_).trans ?_)
  · simp [DDR_CFG_HOT]
  · cases hot <;> rfl

theorem get_refreshSet_pwr (s : State) (ch : Nat) (hot : Bool) (f : Fref) (h : f.off = PWR_EVT ∨ f.off = PWR_IRQ) :
    (s.refreshSet ch hot).get f = s.get f := by
  refine get_of_reg ((onlyRegs_refreshSet s ch hot).2 _ ?_)
  simp only [PWR_EVT, PWR_IRQ, DDR_CFG, DDR_TIM, List.mem_cons, List.not_mem_nil, or_false] at h ⊢
  omega

/-- The poll of a present channel whose components read `xs`. -/
theorem pollChannel_read (s : State) (l xs : List Nat) (ch : Nat) (hp : s.flag (DDR_CFG_PRESENT ch) = true)
    (hxs : (l.drop (2 * ch)).take (s.get (DDR_CFG_RANKS ch) + 1) = xs) (hne : xs ≠ []) :
    s.pollChannel l ch =
      if xs.any (fun x => decide (85 < x)) then (s.refreshSet ch true).pwrEvt PWR_EVT_DRAM_HOT else s.refreshSet ch false := by
  have hempty : xs.isEmpty = false := by simpa using hne
  simp only [State.pollChannel, hxs, hp, hempty, Bool.not_true, Bool.or_self, Bool.false_eq_true, if_false, State.refreshSet]
  cases xs.any (fun x => decide (85 < x)) <;> simp only [Bool.false_eq_true, if_true, if_false]

/-- A channel is hot above 85 °C, which PWR_EVT then notes; with the message off, only its refresh and PWR_EVT change. -/
theorem pollChannel_effect (s : State) (l xs : List Nat) (ch : Nat) (hp : s.flag (DDR_CFG_PRESENT ch) = true)
    (hxs : (l.drop (2 * ch)).take (s.get (DDR_CFG_RANKS ch) + 1) = xs) (hne : xs ≠ []) (hen : s.flag PWR_IRQ_EN = false) :
    (s.pollChannel l ch).get (DDR_CFG_HOT ch) = (if xs.any (fun x => decide (85 < x)) then 1 else 0) ∧
    (s.pollChannel l ch).get PWR_EVT_DRAM_HOT =
      (if xs.any (fun x => decide (85 < x)) then 1 else s.get PWR_EVT_DRAM_HOT) ∧
    OnlyRegs [DDR_CFG ch, DDR_TIM ch, PWR_EVT] s (s.pollChannel l ch) := by
  rw [pollChannel_read s l xs ch hp hxs hne]
  split_ifs with hhot
  · have hquiet : (s.refreshSet ch true).pwrEvt PWR_EVT_DRAM_HOT = (s.refreshSet ch true).put PWR_EVT_DRAM_HOT 1 := by
      refine pfIrq_off _ _ _ ?_
      unfold State.flag
      rw [get_put_ne _ PWR_EVT_DRAM_HOT PWR_IRQ_EN 1 (by decide), get_refreshSet_pwr s ch true PWR_IRQ_EN (.inr rfl)]
      exact hen
    have hcfg : DDR_CFG ch ≠ PWR_EVT := by
      unfold DDR_CFG PWR_EVT
      omega
    rw [hquiet]
    exact ⟨(get_put_ne _ PWR_EVT_DRAM_HOT (DDR_CFG_HOT ch) 1 hcfg).trans (get_hot_refreshSet s ch true),
      get_put _ PWR_EVT_DRAM_HOT 1 (by decide), (onlyRegs_refreshSet s ch true).trans (onlyRegs_put _ PWR_EVT_DRAM_HOT 1)⟩
  · exact ⟨get_hot_refreshSet s ch false, get_refreshSet_pwr s ch false _ (.inl rfl),
      (onlyRegs_refreshSet s ch false).mono (by simp)⟩

/-! ### Patrol scrubbing (R219) -/

theorem exec_patrolScrub_spd (s : State) :
    exec (.patrolScrub .spd) s = .next (if s.dead then s else if s.get SPD_CFG_SCRUB_MS = 0 then s else
      let n := mget (fun _ => 0) s.scrub 0
      let u := s.scrubAt (8 + (spdBank (32 * n)).1) (32 * n)
      { u with scrub := mset (fun _ => 0) u.scrub 0 ((n + 1) % 4194304) }) := rfl

theorem exec_patrolScrub_ddr_idle {s : State} {ch : Nat}
    (h : s.get (DDR_SCRUB_PERIOD_H ch) = 0 ∨ s.flag (DDR_CFG_PRESENT ch) = false) :
    exec (.patrolScrub (.ddr ch)) s = .next s := by
  show Host.Outcome.next (if s.dead then s else if s.get (DDR_SCRUB_PERIOD_H ch) = 0 ∨ ¬ s.flag (DDR_CFG_PRESENT ch) then s
    else _) = _
  rw [if_pos (h.imp_right Bool.eq_false_iff.mp), ite_self]

theorem exec_patrolScrub_ddr {s : State} {ch n a : Nat} (hd : s.dead = false) (hp : s.get (DDR_SCRUB_PERIOD_H ch) ≠ 0)
    (hc : s.flag (DDR_CFG_PRESENT ch) = true) (hn : s.nextLocal ch (mget (fun _ => 0) s.scrub (1 + ch)) = some n)
    (ha : s.localAddr ch n = some a) :
    exec (.patrolScrub (.ddr ch)) s = .next ({ s.scrubAt (24 + ch) a with
      scrub := mset (fun _ => 0) (s.scrubAt (24 + ch) a).scrub (1 + ch) (n + 1) } : State).ddrCheck := by
  have hidle : ¬ (s.get (DDR_SCRUB_PERIOD_H ch) = 0 ∨ ¬ s.flag (DDR_CFG_PRESENT ch) = true) := by simp [hp, hc]
  show execPatrolScrub (.ddr ch) s = _
  simp only [execPatrolScrub, hd, Bool.false_eq_true, if_false, if_neg hidle, hn, ha]

theorem scrubAt_clean {s : State} {a : Nat} (isl : Nat) (h : s.eccAt (a / 32) = none) : s.scrubAt isl a = s := by
  simp only [State.scrubAt, State.decodeCw, h]

/-- A correctable codeword is written back and counted. -/
theorem scrubAt_corrected {s : State} {a : Nat} {e : EccErr} (isl : Nat) (h : s.eccAt (a / 32) = some e) (hb : e.bits ≤ 2)
    (hm : e.misdir = false) : s.scrubAt isl a = (s.setEcc (a / 32) none).countCorr a := by
  simp only [State.scrubAt, State.decodeCw, h, hb, hm, decide_true, Bool.not_false, Bool.and_self, if_true]

theorem countCorr_spd (s : State) {a : Nat} (h : a < spdEnd) : s.countCorr a = s.bump SPD_CNT_CORR_COUNT 1 := by
  simp only [State.countCorr, spaceOf, if_pos h]

theorem eccAt_setEcc_self (s : State) (k : Nat) : (s.setEcc k none).eccAt k = none :=
  (mget_mset eccDefault s.ecc k k none).trans (if_pos rfl)

/-- What the scrubber leaves of a correctable codeword of the scratchpad. -/
theorem scrubAt_spd_effect {s : State} {n : Nat} {e : EccErr} (isl : Nat) (h : s.eccAt n = some e) (hb : e.bits ≤ 2)
    (hm : e.misdir = false) (hn : n < 4194304) :
    (s.scrubAt isl (32 * n)).eccAt n = none ∧ (s.scrubAt isl (32 * n)).tag n = s.tag n ∧
    (s.scrubAt isl (32 * n)).mem = s.mem ∧
    (s.scrubAt isl (32 * n)).get SPD_CNT_CORR_COUNT = min (s.get SPD_CNT_CORR_COUNT + 1) (2 ^ SPD_CNT_CORR_COUNT.w - 1) := by
  have hcw : 32 * n / 32 = n := Nat.mul_div_cancel_left n (by decide)
  have hscrub : s.scrubAt isl (32 * n) = (s.setEcc n none).bump SPD_CNT_CORR_COUNT 1 := by
    rw [scrubAt_corrected isl (hcw.symm ▸ h) hb hm, hcw, countCorr_spd _ (by unfold spdEnd; omega)]
  rw [hscrub]
  exact ⟨eccAt_setEcc_self s n, rfl, rfl, get_bump (s.setEcc n none) SPD_CNT_CORR_COUNT 1 (by decide)⟩

/-- Settles O25, by the branches of the four commands: what a command fault counts, the guard of ZQ calibration, a poll that
reads channel 0 alone, and the codeword that a scrubber reads next. -/
theorem dramFaultsAndUpkeep : Obligations.DramFaultsAndUpkeep := by
  refine ⟨fun ch k s hch => ⟨exec_ddrCommandFault_absent k, fun hp => ?_⟩, fun s => ⟨fun hfw hdue => ?_, fun hearly => ?_,
    fun hfw l => ?_, fun hfw => ⟨?_, fun l => ?_⟩, fun x y hfw hp hranks hen => ?_, fun hoff => ?_,
    fun ch hidle => exec_patrolScrub_ddr_idle hidle, fun ch n a hd hperiod hp hn ha => ?_, fun hd hperiod => ?_⟩⟩
  · exact ⟨get_transientCount_ddrCounted s ch k, get_caparCount_ddrCounted s ch k,
      consec_ddrFaulted s ch k, ddrFaulted_eq s ch k, exec_ddrCommandFault_present k hch hp⟩
  · rw [exec_zqCalibration, if_pos ⟨hfw, hdue⟩]
  · rw [exec_zqCalibration, if_neg fun h => absurd h.2 (Nat.not_le.mpr hearly)]
  · rw [exec_dramTempPoll, if_pos hfw]
  · rw [exec_zqCalibration, if_neg fun h => Bool.eq_false_iff.mp hfw h.1]
  · rw [exec_dramTempPoll, if_neg (Bool.eq_false_iff.mp hfw)]
  · have hread : ([x, y].drop (2 * 0)).take (s.get (DDR_CFG_RANKS 0) + 1) = [x, y] := by rw [hranks]; rfl
    have hany : [x, y].any (fun x => decide (85 < x)) = true ↔ 85 < x ∨ 85 < y := by simp
    obtain ⟨hhot, hevt, honly⟩ := pollChannel_effect s [x, y] [x, y] 0 hp hread (List.cons_ne_nil _ _) hen
    simp only [hany] at hhot hevt
    exact ⟨by rw [exec_dramTempPoll, if_pos hfw, poll_first], hhot, hevt, honly⟩
  · rw [exec_patrolScrub_spd, if_pos hoff, ite_self]
  · exact ⟨exec_patrolScrub_ddr hd hperiod hp hn ha, fun hclean => scrubAt_clean (24 + ch) hclean⟩
  · intro n u t
    have hcw : 32 * n / 32 = n := Nat.mul_div_cancel_left n (by decide)
    refine ⟨?_, (mget_mset _ _ _ _ _).trans (if_pos rfl), fun hclean => scrubAt_clean _ (hcw.symm ▸ hclean),
      fun e he hb hm hn => scrubAt_spd_effect _ he hb hm hn⟩
    rw [exec_patrolScrub_spd, if_neg (Bool.eq_false_iff.mp hd), if_neg hperiod]

end Sys2Proof.Machine
end

section
/-!
SUPPORT. The registers of queues and completion groups: what the tables say of their fields, a word written whole, STATE and
STALLED as they are refreshed, and latency messages.
-/

namespace Sys2Proof.Machine

/-! ### Their fields in the table of block CMD -/

theorem blockTable_cmd {off : Nat} (h : 0x100000 ≤ off) (h' : off < 0x200000) : blockTable off = regsCMD := by
  have h1 : off / 0x100000 = 1 := by omega
  rw [blockTable_block, h1]
  rfl

theorem fieldsAt_qCfg {g : Nat} (h : g < 16384) : fieldsAt (CMD_Q_CFG g) =
    [⟨0, 5, .rw, 4, .range 4 16⟩, ⟨8, 10, .rw, 0, .any⟩, ⟨18, 5, .rw, 0, .any⟩, ⟨24, 1, .rw, 0, .any⟩] := by
  unfold fieldsAt regAt CMD_Q_CFG
  rw [blockTable_cmd (by omega) (by omega)]
  simp (disch := omega) [regsCMD, regAt.go, RegSpec.within, if_neg, if_pos]

theorem fieldsAt_qErr {g : Nat} (h : g < 16384) : fieldsAt (CMD_Q_ERR g) =
    [⟨0, 1, .w1c, 0, .any⟩, ⟨1, 1, .w1c, 0, .any⟩, ⟨2, 1, .w1c, 0, .any⟩, ⟨3, 1, .w1c, 0, .any⟩, ⟨32, 16, .ro, 0, .any⟩,
      ⟨63, 1, .wo, 0, .any⟩] := by
  unfold fieldsAt regAt CMD_Q_ERR
  rw [blockTable_cmd (by omega) (by omega)]
  simp (disch := omega) [regsCMD, regAt.go, RegSpec.within, if_neg, if_pos]

theorem fieldsAt_cqCfg {g : Nat} (h : g < 1024) : fieldsAt (CMD_CQ_CFG g) =
    [⟨0, 5, .rw, 4, .range 4 16⟩, ⟨5, 11, .rw, 0, .any⟩, ⟨16, 8, .rw, 0, .any⟩, ⟨24, 5, .rw, 0, .any⟩,
      ⟨29, 1, .rw, 0, .any⟩] := by
  unfold fieldsAt regAt CMD_CQ_CFG
  rw [blockTable_cmd (by omega) (by omega)]
  simp (disch := omega) [regsCMD, regAt.go, RegSpec.within, if_neg, if_pos]

/-! ### A word written whole -/

theorem bitsOf_mod_word (v : Nat) {lo w : Nat} (h : lo + w ≤ 64) : bitsOf (v % 2 ^ 64) lo w = bitsOf v lo w := by
  obtain ⟨k, hk⟩ := Nat.exists_eq_add_of_le h
  unfold bitsOf
  rw [hk, Nat.add_assoc, Nat.pow_add, Nat.mod_mul_right_div_self,
    Nat.mod_mod_of_dvd _ (Nat.pow_dvd_pow 2 (Nat.le_add_right w k))]

/-- A field of a register that takes a word. -/
theorem get_setReg (s : State) (f : Fref) (v : Nat) (h : f.lo + f.w ≤ 64) :
    (s.setReg f.off (BitVec.ofNat 64 v)).get f = bitsOf v f.lo f.w := by
  unfold State.get
  rw [reg_setReg, if_pos rfl, BitVec.toNat_ofNat, bitsOf_mod_word v h]

/-- A value that fits its field reads back. -/
theorem get_put_fits (s : State) (f : Fref) (n : Nat) (h : f.lo + f.w ≤ 64) (hn : n < 2 ^ f.w) : (s.put f n).get f = n :=
  (get_put s f n h).trans (Nat.mod_eq_of_lt hn)

theorem get_setReg_ne (s : State) (b : Nat) (v : Word64) (f : Fref) (h : f.off ≠ b) : (s.setReg b v).get f = s.get f :=
  get_of_reg ((reg_setReg s b f.off v).trans (if_neg h))

/-- An RW field that a write covers takes the written bits, unless they are a reserved encoding (R5). -/
theorem bitsOf_writeFields_rw {fs : List FieldSpec} (old new mask : Nat) {f : FieldSpec}
    (hd : fs.Pairwise (fun a b => a.lo + a.w ≤ b.lo ∨ b.lo + b.w ≤ a.lo)) (hf : f ∈ fs) (ha : f.acc = .rw)
    (hm : bitsOf mask f.lo f.w = 2 ^ f.w - 1) :
    bitsOf (writeFields fs false false old new mask) f.lo f.w =
      if f.ok.ok (bitsOf new f.lo f.w) then bitsOf new f.lo f.w else bitsOf old f.lo f.w := by
  have h := writeActsByAccessType fs false false old new mask f hd hf hm
  simpa only [ha] using h

/-! ### STATE of a queue (R40, R42, R396) -/

theorem onlyRegs_refreshQueue (s : State) (q : Nat) : OnlyRegs [CMD_Q_PTR q] s (s.refreshQueue q) := onlyRegs_put s _ _

/-- A refresh of STATE keeps every other field. -/
theorem get_refreshQueue (s : State) (q : Nat) (f : Fref) (h : f.off ≠ CMD_Q_PTR q ∨ f.lo + f.w ≤ 32 ∨ 35 ≤ f.lo) :
    (s.refreshQueue q).get f = s.get f := by
  rcases h with h | h
  · exact get_put_ne s (CMD_Q_PTR_STATE q) f _ h
  · exact get_put_disjoint s (CMD_Q_PTR_STATE q) f _ (by simp [CMD_Q_PTR_STATE]) h

theorem get_state_refreshQueue (s : State) (q : Nat) : (s.refreshQueue q).get (CMD_Q_PTR_STATE q) =
    if s.flag (CMD_Q_CFG_ENABLE q) = false then (if s.get (CMD_Q_PTR_INFLIGHT q) = 0 then 0 else 2)
    else if s.flag (VIRT_FN_W5_QUIESCED (s.qFn q)) = true then 4
    else if s.stoppedQ.contains q = true then 3
    else if s.get (CMD_Q_PTR_INFLIGHT q) ≠ 0 ∨ (s.get (CMD_Q_PTR_HEAD q) ≠ s.get (CMD_Q_PTR_TAIL q) ∧ ¬ s.fallbackQ q = true)
      then 2 else 1 := by
  refine (get_put s (CMD_Q_PTR_STATE q) _ (by simp [CMD_Q_PTR_STATE])).trans ?_
  simp only [Bool.not_eq_true', CMD_Q_PTR_STATE]
  split_ifs <;> rfl

/-! ### STALLED of a group (R60) -/

theorem onlyRegs_refreshGroup (s : State) (g : Nat) : OnlyRegs [CMD_CQ_PTR g] s (s.refreshGroup g) := onlyRegs_put s _ _

/-- A refresh of STALLED keeps every other field. -/
theorem get_refreshGroup (s : State) (g : Nat) (f : Fref) (h : f.off ≠ CMD_CQ_PTR g ∨ f.lo + f.w ≤ 33 ∨ 34 ≤ f.lo) :
    (s.refreshGroup g).get f = s.get f := by
  rcases h with h | h
  · exact get_put_ne s (CMD_CQ_PTR_STALLED g) f _ h
  · exact get_put_disjoint s (CMD_CQ_PTR_STALLED g) f _ (by simp [CMD_CQ_PTR_STALLED]) h

/-- A disabled group is not stalled. -/
theorem get_stalled_refreshGroup (s : State) (g : Nat) (h : s.flag (CMD_CQ_CFG_ENABLE g) = false) :
    (s.refreshGroup g).get (CMD_CQ_PTR_STALLED g) = 0 := by
  refine (get_put s (CMD_CQ_PTR_STALLED g) _ (by simp [CMD_CQ_PTR_STALLED])).trans ?_
  rw [h]
  rfl

/-! ### Latency messages (R591) -/

/-- A latency message changes pins and the account of activity only. -/
theorem refreshLtr_eq (s : State) :
    s.refreshLtr = { s with regs := s.refreshLtr.regs, out := s.refreshLtr.out, pwr := s.refreshLtr.pwr } := by
  unfold State.refreshLtr State.sendLtr
  split_ifs <;> rfl

theorem reg_refreshLtr (s : State) (b : Nat) : s.refreshLtr.reg b = s.reg b := by
  unfold State.refreshLtr State.sendLtr
  split_ifs <;> rfl

/-- What a latency message leaves of a state of which only registers differ. -/
theorem OnlyRegs.refreshLtr {L : List Nat} {s u : State} (h : OnlyRegs L s u) :
    u.refreshLtr = { s with regs := u.refreshLtr.regs, out := u.refreshLtr.out, pwr := u.refreshLtr.pwr } ∧
      ∀ b, b ∉ L → u.refreshLtr.reg b = s.reg b := by
  obtain ⟨heq, hreg⟩ := h
  exact ⟨(refreshLtr_eq u).trans (congrArg (fun x : State => { x with
    regs := u.refreshLtr.regs, out := u.refreshLtr.out, pwr := u.refreshLtr.pwr }) heq),
    fun b hb => (reg_refreshLtr u b).trans (hreg b hb)⟩

theorem get_refreshLtr (s : State) (f : Fref) : s.refreshLtr.get f = s.get f := get_of_reg (reg_refreshLtr s f.off)

/-! ### Registers that differ -/

theorem qPtr_ne_qCfg (g g' : Nat) : CMD_Q_PTR g ≠ CMD_Q_CFG g' := by
  unfold CMD_Q_PTR CMD_Q_CFG
  omega

theorem qErr_ne_qPtr (g g' : Nat) : CMD_Q_ERR g ≠ CMD_Q_PTR g' := by
  unfold CMD_Q_ERR CMD_Q_PTR
  omega

theorem qErr_ne_qCfg (g g' : Nat) : CMD_Q_ERR g ≠ CMD_Q_CFG g' := by
  unfold CMD_Q_ERR CMD_Q_CFG
  omega

theorem cqPtr_ne_cqCfg (g g' : Nat) : CMD_CQ_PTR g ≠ CMD_CQ_CFG g' := by
  unfold CMD_CQ_PTR CMD_CQ_CFG
  omega

end Sys2Proof.Machine
end

section
/-!
SUPPORT. Doorbells (R48, R49, R630), with the obligations on tails and heads.
-/

namespace Sys2Proof.Machine

/-! ### Tails (R48, R49) -/

theorem exec_sqTail {fn q g : Nat} (v : Word32) {s : State} (hb : s.bellOk fn = true) (hv : s.viewQ (.fn fn) q = some g) :
    exec (.sqTail fn q v) s =
      .next (if s.flag TOP_FW_STAT_PAUSE = true then { s with dbLatch := mset (fun _ => 65536) s.dbLatch g (v.toNat % 65536) }
        else s.acceptTail g (v.toNat % 65536)) := by
  show Host.Outcome.next (s.sqTail fn q v.toNat) = _
  simp only [State.sqTail, hb, hv, Bool.not_true, Bool.false_eq_true, if_false]

theorem acceptTail_disabled {s : State} {g : Nat} (t : Nat) (he : s.flag (CMD_Q_CFG_ENABLE g) = false) :
    s.acceptTail g t = s.put (CMD_Q_ERR_DB_DISABLED g) 1 := by
  simp [State.acceptTail, he]

theorem acceptTail_quiesced {s : State} {g : Nat} (t : Nat) (he : s.flag (CMD_Q_CFG_ENABLE g) = true)
    (hq : s.flag (VIRT_FN_W5_QUIESCED (s.qFn g)) = true) : s.acceptTail g t = s := by
  simp [State.acceptTail, he, hq]

theorem acceptTail_outside {s : State} {g t : Nat} (he : s.flag (CMD_Q_CFG_ENABLE g) = true)
    (hq : s.flag (VIRT_FN_W5_QUIESCED (s.qFn g)) = false) (ht : 2 ^ s.get (CMD_Q_CFG_SIZE_LOG2 g) ≤ t) :
    s.acceptTail g t = s.put (CMD_Q_ERR_BAD_TAIL g) 1 := by
  simp [State.acceptTail, he, hq, ht]

theorem acceptTail_inside {s : State} {g t : Nat} (he : s.flag (CMD_Q_CFG_ENABLE g) = true)
    (hq : s.flag (VIRT_FN_W5_QUIESCED (s.qFn g)) = false) (ht : t < 2 ^ s.get (CMD_Q_CFG_SIZE_LOG2 g)) :
    s.acceptTail g t = if s.fallbackQ g then s.put (CMD_Q_PTR_TAIL g) t
      else ((s.put (CMD_Q_PTR_TAIL g) t).refreshQueue g).refreshLtr := by
  simp [State.acceptTail, he, hq, Nat.not_le.mpr ht]

/-- A tail within the ring is TAIL afterwards; HEAD, the count in flight and every other register stay. -/
theorem acceptTail_effect {s : State} {g t : Nat} (he : s.flag (CMD_Q_CFG_ENABLE g) = true)
    (hq : s.flag (VIRT_FN_W5_QUIESCED (s.qFn g)) = false) (ht : t < 2 ^ s.get (CMD_Q_CFG_SIZE_LOG2 g)) (hw : t < 65536) :
    (s.acceptTail g t).get (CMD_Q_PTR_TAIL g) = t ∧ (s.acceptTail g t).get (CMD_Q_PTR_HEAD g) = s.get (CMD_Q_PTR_HEAD g) ∧
    (s.acceptTail g t).get (CMD_Q_PTR_INFLIGHT g) = s.get (CMD_Q_PTR_INFLIGHT g) ∧
    s.acceptTail g t =
      { s with regs := (s.acceptTail g t).regs, out := (s.acceptTail g t).out, pwr := (s.acceptTail g t).pwr } ∧
    ∀ b, b ≠ CMD_Q_PTR g → (s.acceptTail g t).reg b = s.reg b := by
  have htail : (s.put (CMD_Q_PTR_TAIL g) t).get (CMD_Q_PTR_TAIL g) = t :=
    get_put_fits s (CMD_Q_PTR_TAIL g) t (by simp [CMD_Q_PTR_TAIL]) (by simpa [CMD_Q_PTR_TAIL] using hw)
  have hkept : ∀ f : Fref, f.lo + f.w ≤ 16 ∨ 32 ≤ f.lo → (s.put (CMD_Q_PTR_TAIL g) t).get f = s.get f :=
    fun f hf => get_put_disjoint s (CMD_Q_PTR_TAIL g) f t (by simp [CMD_Q_PTR_TAIL]) hf
  have hhead := hkept (CMD_Q_PTR_HEAD g) (by simp [CMD_Q_PTR_HEAD])
  have hfly := hkept (CMD_Q_PTR_INFLIGHT g) (by simp [CMD_Q_PTR_INFLIGHT])
  have honly := onlyRegs_put s (CMD_Q_PTR_TAIL g) t
  rw [acceptTail_inside he hq ht]
  split_ifs
  · exact ⟨htail, hhead, hfly, honly.1, fun b hb => honly.2 b (List.mem_singleton.not.mpr hb)⟩
  · obtain ⟨heq, hreg⟩ := (honly.trans (onlyRegs_refreshQueue _ g)).refreshLtr
    simp only [get_refreshLtr]
    refine ⟨?_, ?_, ?_, heq, fun b hb => hreg b (by simp [CMD_Q_PTR_TAIL, hb])⟩
    · exact (get_refreshQueue _ g _ (by simp [CMD_Q_PTR_TAIL])).trans htail
    · exact (get_refreshQueue _ g _ (by simp [CMD_Q_PTR_HEAD])).trans hhead
    · exact (get_refreshQueue _ g _ (by simp [CMD_Q_PTR_INFLIGHT])).trans hfly

/-- Settles O13, by the branches of a doorbell: the pause, then the state of the queue and of its function, then the ring. -/
theorem doorbellTakesTheTail : Obligations.DoorbellTakesTheTail := by
  intro fn q g v s hb hv t
  have hexec := exec_sqTail v hb hv
  refine ⟨fun hp => ⟨_, hexec.trans (by rw [if_pos hp]), (mget_mset _ _ _ _ _).trans (if_pos rfl),
    fun k hk => (mget_mset _ _ _ _ _).trans (if_neg hk)⟩, fun hp => ?_⟩
  rw [hp, if_neg Bool.false_ne_true] at hexec
  refine ⟨fun he => hexec.trans (by rw [acceptTail_disabled _ he]),
    fun he hq => hexec.trans (by rw [acceptTail_quiesced _ he hq]),
    fun he hq => ⟨fun ht => hexec.trans (by rw [acceptTail_outside he hq ht]), fun ht => ⟨hexec, ?_⟩⟩⟩
  exact acceptTail_effect he hq ht (Nat.mod_lt _ (by decide))

/-! ### Heads (R630) -/

/-- Distances round a ring of `n` from `d`, as the model adds them and as integers. -/
theorem ring_distance (x d n : Nat) (hn : 0 < n) : (((x + n - d % n) % n : Nat) : Int) = ((x : Int) - d) % n := by
  have hd : d % n ≤ x + n := le_trans (Nat.mod_lt d hn).le (Nat.le_add_left n x)
  rw [Int.natCast_emod, Nat.cast_sub hd, Nat.cast_add, Int.natCast_emod, add_sub_right_comm, Int.add_emod_right,
    Int.sub_emod_emod]

theorem ring_distance_le_iff (x y d n : Nat) (hn : 0 < n) :
    (x + n - d % n) % n ≤ (y + n - d % n) % n ↔ ((x : Int) - d) % n ≤ ((y : Int) - d) % n := by
  rw [← ring_distance x d n hn, ← ring_distance y d n hn, Nat.cast_le]

/-- A head counts round the ring from HEAD, up to TAIL. -/
theorem acceptHead_eq (s : State) (g h : Nat) :
    s.acceptHead g h =
      if h < 2 ^ s.get (CMD_CQ_CFG_SIZE_LOG2 g) ∧
          ((h : Int) - s.get (CMD_CQ_PTR_HEAD g)) % (2 ^ s.get (CMD_CQ_CFG_SIZE_LOG2 g) : Nat) ≤
            ((s.get (CMD_CQ_PTR_TAIL g) : Int) - s.get (CMD_CQ_PTR_HEAD g)) % (2 ^ s.get (CMD_CQ_CFG_SIZE_LOG2 g) : Nat)
      then ((s.put (CMD_CQ_PTR_HEAD g) h).refreshGroup g).settle else s.put (CMD_CQ_PTR_BAD_HEAD g) 1 := by
  unfold State.acceptHead
  rw [← ite_not]
  exact if_congr (by rw [not_or, not_le, not_lt, ring_distance_le_iff _ _ _ _ (Nat.two_pow_pos _)]) rfl rfl

theorem exec_cqHead_ignored {fn q i : Nat} (v : Word32) {s : State} (hb : s.bellOk fn = true)
    (hv : s.viewQ (.fn fn) q = some i) (hoff : s.flag (CMD_CQ_CFG_ENABLE (s.get (CMD_Q_CFG_CQG i))) = false ∨
      s.get (CMD_CQ_CFG_FUNC (s.get (CMD_Q_CFG_CQG i))) ≠ s.get (CMD_Q_CFG_FUNC i)) :
    exec (.cqHead fn q v) s = .next s := by
  show Host.Outcome.next (s.cqHead fn q v.toNat) = _
  rcases hoff with h | h <;> simp [State.cqHead, hb, hv, h, State.qGroup, State.qFn]

theorem exec_cqHead_taken {fn q i : Nat} (v : Word32) {s : State} (hb : s.bellOk fn = true)
    (hv : s.viewQ (.fn fn) q = some i) (he : s.flag (CMD_CQ_CFG_ENABLE (s.get (CMD_Q_CFG_CQG i))) = true)
    (hf : s.get (CMD_CQ_CFG_FUNC (s.get (CMD_Q_CFG_CQG i))) = s.get (CMD_Q_CFG_FUNC i)) :
    exec (.cqHead fn q v) s = .next (s.acceptHead (s.get (CMD_Q_CFG_CQG i)) (v.toNat % 65536)) := by
  show Host.Outcome.next (s.cqHead fn q v.toNat) = _
  simp [State.cqHead, hb, hv, he, hf, State.qGroup, State.qFn]

/-- An accepted head is HEAD afterwards; TAIL, BAD_HEAD and every register but the group's CMD_CQ_PTR stay. -/
theorem acceptedHead_effect (s : State) (g h : Nat) (hw : h < 65536) :
    ((s.put (CMD_CQ_PTR_HEAD g) h).refreshGroup g).get (CMD_CQ_PTR_HEAD g) = h ∧
    ((s.put (CMD_CQ_PTR_HEAD g) h).refreshGroup g).get (CMD_CQ_PTR_TAIL g) = s.get (CMD_CQ_PTR_TAIL g) ∧
    ((s.put (CMD_CQ_PTR_HEAD g) h).refreshGroup g).get (CMD_CQ_PTR_BAD_HEAD g) = s.get (CMD_CQ_PTR_BAD_HEAD g) ∧
    OnlyRegs [CMD_CQ_PTR g] s ((s.put (CMD_CQ_PTR_HEAD g) h).refreshGroup g) := by
  have hkept : ∀ f : Fref, f.lo + f.w ≤ 16 ∨ 34 ≤ f.lo →
      ((s.put (CMD_CQ_PTR_HEAD g) h).refreshGroup g).get f = s.get f := fun f hlo =>
    (get_refreshGroup _ g f (.inr (by omega))).trans
      (get_put_disjoint s (CMD_CQ_PTR_HEAD g) f h (by simp [CMD_CQ_PTR_HEAD]) (by simp only [CMD_CQ_PTR_HEAD]; omega))
  refine ⟨?_, hkept _ (by simp [CMD_CQ_PTR_TAIL]), hkept _ (by simp [CMD_CQ_PTR_BAD_HEAD]), ?_⟩
  · refine (get_refreshGroup _ g _ (by simp [CMD_CQ_PTR_HEAD])).trans ?_
    exact get_put_fits s (CMD_CQ_PTR_HEAD g) h (by simp [CMD_CQ_PTR_HEAD]) (by simpa [CMD_CQ_PTR_HEAD] using hw)
  · exact ((onlyRegs_put s (CMD_CQ_PTR_HEAD g) h).trans (onlyRegs_refreshGroup _ g)).mono (by simp [CMD_CQ_PTR_HEAD])

/-- Settles O14: the distance of a head from HEAD, as the model adds it round the ring, is that of the integers. -/
theorem headIsAcceptedUpToTheTail : Obligations.HeadIsAcceptedUpToTheTail := by
  intro fn q i v s hb hv g h n hd tl
  refine ⟨exec_cqHead_ignored v hb hv, fun he hf => ?_⟩
  have hexec := (exec_cqHead_taken v hb hv he hf).trans (congrArg _ (acceptHead_eq s g h))
  exact ⟨fun hbad => hexec.trans (congrArg _ (if_neg hbad)), fun hlt hle =>
    ⟨hexec.trans (congrArg _ (if_pos ⟨hlt, hle⟩)), acceptedHead_effect s g h (Nat.mod_lt _ (by decide))⟩⟩

end Sys2Proof.Machine
end

section
/-!
SUPPORT. Writes of CMD_Q_CFG and CMD_Q_ERR (R40 to R42, R67), with the obligation on enabling, disabling and resuming a queue.
-/

namespace Sys2Proof.Machine

/-! ### The way of the write -/

/-- A write that a function's view shows, where it reaches its block (R391). -/
theorem guardedView_of_opensView {s : State} {rq : Requester} {off i : Nat} {idx : Option Nat} (f : Nat → State → State)
    (h : s.opensView rq off = true) (hi : idx = some i) : s.guardedView rq off idx f = f i s := by
  simp only [State.opensView, Bool.and_eq_true, Bool.not_eq_true'] at h
  obtain ⟨⟨hr, ha⟩, hb⟩ := h
  exact guardedView_eq s rq off i idx f hr hb hi ha

theorem exec_queueEnable {rq : Requester} {q g : Nat} (v : Word32) {s : State} (ho : s.opensView rq (CMD_Q_CFG q) = true)
    (hv : s.viewQ rq q = some g) : exec (.queueEnable rq q v) s = .next (s.writeQCfg rq g v.toNat) :=
  congrArg Host.Outcome.next (guardedView_of_opensView (fun i u => u.writeQCfg rq i v.toNat) ho hv)

theorem exec_queueDisable {rq : Requester} {q g : Nat} (v : Word32) {s : State} (ho : s.opensView rq (CMD_Q_CFG q) = true)
    (hv : s.viewQ rq q = some g) : exec (.queueDisable rq q v) s = .next (s.writeQCfg rq g v.toNat) :=
  congrArg Host.Outcome.next (guardedView_of_opensView (fun i u => u.writeQCfg rq i v.toNat) ho hv)

theorem exec_queueResume {rq : Requester} {q g : Nat} (v : Word64) {s : State} (ho : s.opensView rq (CMD_Q_ERR q) = true)
    (hv : s.viewQ rq q = some g) : exec (.queueResume rq q v) s = .next (s.writeQErr g v.toNat mask64) :=
  congrArg Host.Outcome.next (guardedView_of_opensView (fun i u => u.writeQErr i v.toNat mask64) ho hv)

/-! ### The word in CMD_Q_CFG of a disabled queue -/

/-- The value written, as far as it reaches the fields: a function's view gives CQG as a local value and not FUNC, which VF
Enable can also hold (R388, R391); ENABLE is apart. -/
def State.qCfgValue (s : State) (rq : Requester) (g v : Nat) : Nat :=
  let v1 := if isVf rq then putBits (putBits v 18 5 (rqFn rq)) 8 10 (bitsOf v 8 10 + s.get (VIRT_FN_W0_CQBASE (rqFn rq))) else v
  putBits (if isVf rq || s.funcHeld (s.get (CMD_Q_CFG_FUNC g)) then putBits v1 18 5 (s.get (CMD_Q_CFG_FUNC g)) else v1) 24 1 0

/-- The word that a write leaves in CMD_Q_CFG of a disabled queue, but for ENABLE (R41). -/
def State.qCfgNew (s : State) (rq : Requester) (g v : Nat) : Nat :=
  if s.get (CMD_Q_PTR_INFLIGHT g) != 0 then (s.reg (CMD_Q_CFG g)).toNat
  else writeFields (fieldsAt (CMD_Q_CFG g)) false false (s.reg (CMD_Q_CFG g)).toNat (s.qCfgValue rq g v) mask32

/-- The stops of a queue forgotten. -/
def State.unstop (s : State) (g : Nat) : State := { s with stoppedQ := s.stoppedQ.filter (· != g) }

/-- A queue with the word `n` and ENABLE in CMD_Q_CFG: its ring is empty and an earlier stop forgotten. -/
def State.emptyRing (s : State) (g n : Nat) : State :=
  (((s.setReg (CMD_Q_CFG g) (BitVec.ofNat 64 (putBits n 24 1 1))).unstop g).put (CMD_Q_PTR_HEAD g) 0).put (CMD_Q_PTR_TAIL g) 0

/-- A queue enabled with the word `n`. -/
def State.openQueue (s : State) (g n : Nat) : State := (s.emptyRing g n).refreshQueue g

/-- A write of CMD_Q_CFG with its requester resolved (R41, R391). -/
theorem writeQCfg_eq (s : State) (rq : Requester) (g v : Nat) :
    s.writeQCfg rq g v =
      if s.flag (CMD_Q_CFG_ENABLE g) then
        if bitOf v 24 then s else (s.put (CMD_Q_CFG_ENABLE g) 0).refreshQueue g
      else if !bitOf v 24 then s.setReg (CMD_Q_CFG g) (BitVec.ofNat 64 (s.qCfgNew rq g v))
      else if isVf rq && decide (s.cnt (VIRT_FN_W0_CQCNT (rqFn rq)) ≤ bitsOf v 8 10) ||
          !s.flag (CMD_CQ_CFG_ENABLE (bitsOf (s.qCfgNew rq g v) 8 10)) ||
          s.get (CMD_CQ_CFG_FUNC (bitsOf (s.qCfgNew rq g v) 8 10)) != bitsOf (s.qCfgNew rq g v) 18 5 then s
      else s.openQueue g (s.qCfgNew rq g v) := by
  rcases rq with (_ | n) | _ | _ | _ <;> rfl

theorem writeQCfg_keep {s : State} {g v : Nat} (rq : Requester) (he : s.flag (CMD_Q_CFG_ENABLE g) = true)
    (hv : bitOf v 24 = true) : s.writeQCfg rq g v = s := by
  rw [writeQCfg_eq, if_pos he, if_pos hv]

theorem writeQCfg_clear {s : State} {g v : Nat} (rq : Requester) (he : s.flag (CMD_Q_CFG_ENABLE g) = true)
    (hv : bitOf v 24 = false) : s.writeQCfg rq g v = (s.put (CMD_Q_CFG_ENABLE g) 0).refreshQueue g := by
  rw [writeQCfg_eq, if_pos he, hv, if_neg Bool.false_ne_true]

/-- A write that sets ENABLE of a disabled queue opens it, unless its group turns it away (R41, R391). -/
theorem writeQCfg_open {s : State} {g v : Nat} (rq : Requester) (he : s.flag (CMD_Q_CFG_ENABLE g) = false)
    (hv : bitOf v 24 = true) :
    s.writeQCfg rq g v =
      if (isVf rq = true ∧ s.cnt (VIRT_FN_W0_CQCNT (rqFn rq)) ≤ bitsOf v 8 10) ∨
          s.flag (CMD_CQ_CFG_ENABLE (bitsOf (s.qCfgNew rq g v) 8 10)) = false ∨
          s.get (CMD_CQ_CFG_FUNC (bitsOf (s.qCfgNew rq g v) 8 10)) ≠ bitsOf (s.qCfgNew rq g v) 18 5 then s
      else s.openQueue g (s.qCfgNew rq g v) := by
  rw [writeQCfg_eq, if_neg (Bool.eq_false_iff.mp he), hv, Bool.not_true, if_neg Bool.false_ne_true]
  simp only [Bool.or_eq_true, Bool.and_eq_true, decide_eq_true_eq, Bool.not_eq_true', bne_iff_ne, or_assoc]

/-! ### The fields of that word -/

/-- A field of a queue that has nothing in flight takes what the write gives it; with descriptors in flight it keeps its
value (R41). -/
theorem bitsOf_qCfgNew (s : State) (rq : Requester) {g : Nat} (v : Nat) (hg : g < 16384) {f : FieldSpec}
    (hf : f ∈ fieldsAt (CMD_Q_CFG g)) (hb : f.lo + f.w ≤ 24) :
    bitsOf (s.qCfgNew rq g v) f.lo f.w =
      if s.get (CMD_Q_PTR_INFLIGHT g) = 0 ∧ f.ok.ok (bitsOf (s.qCfgValue rq g v) f.lo f.w) = true
      then bitsOf (s.qCfgValue rq g v) f.lo f.w else s.get ⟨CMD_Q_CFG g, f.lo, f.w⟩ := by
  rw [fieldsAt_qCfg hg] at hf
  unfold State.qCfgNew
  by_cases hfly : s.get (CMD_Q_PTR_INFLIGHT g) = 0
  · rw [hfly, fieldsAt_qCfg hg, if_neg (by decide), bitsOf_writeFields_rw _ _ _ (by decide) hf]
    · simp only [true_and]
      rfl
    · revert f; decide
    · revert f; decide
  · simp only [bne_iff_ne, ne_eq, hfly, not_false_eq_true, if_true, false_and, if_false]
    rfl

theorem bitsOf_qCfgNew_size (s : State) (rq : Requester) {g : Nat} (v : Nat) (hg : g < 16384) :
    bitsOf (s.qCfgNew rq g v) 0 5 = if s.get (CMD_Q_PTR_INFLIGHT g) = 0 ∧ 4 ≤ bitsOf v 0 5 ∧ bitsOf v 0 5 ≤ 16
      then bitsOf v 0 5 else s.get (CMD_Q_CFG_SIZE_LOG2 g) := by
  have hvalue : bitsOf (s.qCfgValue rq g v) 0 5 = bitsOf v 0 5 := by
    unfold State.qCfgValue
    rw [bitsOf_putBits_below _ _ _ _ _ _ (by decide)]
    split_ifs <;> simp (disch := decide) only [bitsOf_putBits_below]
  have h := bitsOf_qCfgNew s rq v hg (f := ⟨0, 5, .rw, 4, .range 4 16⟩) (by simp [fieldsAt_qCfg hg]) (by decide)
  simp only [hvalue, Accept.ok, Bool.and_eq_true, decide_eq_true_eq] at h
  exact h

/-- CQG, which a function gives as a number of its own (R391). -/
theorem bitsOf_qCfgNew_cqg (s : State) (rq : Requester) {g : Nat} (v : Nat) (hg : g < 16384) :
    bitsOf (s.qCfgNew rq g v) 8 10 = if s.get (CMD_Q_PTR_INFLIGHT g) = 0
      then (bitsOf v 8 10 + if isVf rq then s.get (VIRT_FN_W0_CQBASE (rqFn rq)) else 0) % 1024
      else s.get (CMD_Q_CFG_CQG g) := by
  have hfits : bitsOf v 8 10 % 1024 = bitsOf v 8 10 := Nat.mod_eq_of_lt (bitsOf_lt v 8 10)
  have hvalue : bitsOf (s.qCfgValue rq g v) 8 10 =
      (bitsOf v 8 10 + if isVf rq then s.get (VIRT_FN_W0_CQBASE (rqFn rq)) else 0) % 1024 := by
    unfold State.qCfgValue
    rw [bitsOf_putBits_below _ _ _ _ _ _ (by decide)]
    cases isVf rq <;> cases s.funcHeld (s.get (CMD_Q_CFG_FUNC g)) <;>
      simp (disch := decide) [bitsOf_putBits_below, bitsOf_putBits, hfits]
  have h := bitsOf_qCfgNew s rq v hg (f := ⟨8, 10, .rw, 0, .any⟩) (by simp [fieldsAt_qCfg hg]) (by decide)
  simp only [hvalue, Accept.ok, and_true] at h
  exact h

/-- FUNC, which neither a function nor a write under VF Enable changes (R388, R391). -/
theorem bitsOf_qCfgNew_func (s : State) (rq : Requester) {g : Nat} (v : Nat) (hg : g < 16384) :
    bitsOf (s.qCfgNew rq g v) 18 5 =
      if s.get (CMD_Q_PTR_INFLIGHT g) = 0 ∧ isVf rq = false ∧ s.funcHeld (s.get (CMD_Q_CFG_FUNC g)) = false
      then bitsOf v 18 5 else s.get (CMD_Q_CFG_FUNC g) := by
  have hfits : s.get (CMD_Q_CFG_FUNC g) % 32 = s.get (CMD_Q_CFG_FUNC g) := Nat.mod_eq_of_lt (get_lt s (CMD_Q_CFG_FUNC g))
  have hvalue : bitsOf (s.qCfgValue rq g v) 18 5 =
      if isVf rq = false ∧ s.funcHeld (s.get (CMD_Q_CFG_FUNC g)) = false then bitsOf v 18 5
      else s.get (CMD_Q_CFG_FUNC g) := by
    unfold State.qCfgValue
    rw [bitsOf_putBits_below _ _ _ _ _ _ (by decide)]
    cases isVf rq <;> cases s.funcHeld (s.get (CMD_Q_CFG_FUNC g)) <;> simp [bitsOf_putBits, hfits]
  have h := bitsOf_qCfgNew s rq v hg (f := ⟨18, 5, .rw, 0, .any⟩) (by simp [fieldsAt_qCfg hg]) (by decide)
  simp only [hvalue, Accept.ok, and_true] at h
  exact h.trans (ite_and ..).symm

/-! ### A queue that opens or stops -/

theorem unstop_setReg (s : State) (g b : Nat) (v : Word64) : (s.setReg b v).unstop g = (s.unstop g).setReg b v := rfl

theorem stoppedQ_unstop (s : State) (g : Nat) : (s.unstop g).stoppedQ = s.stoppedQ.filter (· != g) := rfl

theorem get_unstop (s : State) (g : Nat) (f : Fref) : (s.unstop g).get f = s.get f := rfl

theorem onlyRegs_openQueue (s : State) (g n : Nat) :
    OnlyRegs [CMD_Q_CFG g, CMD_Q_PTR g] (s.unstop g) (s.openQueue g n) := by
  have h := (((onlyRegs_setReg (s.unstop g) (CMD_Q_CFG g) (BitVec.ofNat 64 (putBits n 24 1 1))).trans
    (onlyRegs_put _ (CMD_Q_PTR_HEAD g) 0)).trans (onlyRegs_put _ (CMD_Q_PTR_TAIL g) 0)).trans (onlyRegs_refreshQueue _ g)
  rw [← unstop_setReg] at h
  exact h.mono (by simp [CMD_Q_PTR_HEAD, CMD_Q_PTR_TAIL])

/-- A state of which only registers and the stops of a queue differ. -/
theorem OnlyRegs.unstopped {L : List Nat} {s u : State} {g : Nat} (h : OnlyRegs L (s.unstop g) u) :
    u.stoppedQ = s.stoppedQ.filter (· != g) ∧ u = { s with regs := u.regs, stoppedQ := u.stoppedQ } ∧
      ∀ b, b ∉ L → u.reg b = s.reg b := by
  obtain ⟨heq, hreg⟩ := h
  have hstop : u.stoppedQ = s.stoppedQ.filter (· != g) := (congrArg State.stoppedQ heq :)
  exact ⟨hstop, by rw [hstop]; exact heq, hreg⟩

/-- The word in CMD_Q_CFG of a queue that opens. -/
theorem get_qCfg_emptyRing (s : State) (g n lo w : Nat) (h : lo + w ≤ 64) :
    (s.emptyRing g n).get ⟨CMD_Q_CFG g, lo, w⟩ = bitsOf (putBits n 24 1 1) lo w := by
  have hne : CMD_Q_CFG g ≠ CMD_Q_PTR g := (qPtr_ne_qCfg g g).symm
  refine (get_put_ne _ (CMD_Q_PTR_TAIL g) _ 0 hne).trans ((get_put_ne _ (CMD_Q_PTR_HEAD g) _ 0 hne).trans ?_)
  exact (get_unstop _ g _).trans (get_setReg s ⟨CMD_Q_CFG g, lo, w⟩ _ h)

theorem get_qCfg_openQueue (s : State) (g n lo w : Nat) (h : lo + w ≤ 64) :
    (s.openQueue g n).get ⟨CMD_Q_CFG g, lo, w⟩ = bitsOf (putBits n 24 1 1) lo w :=
  (get_refreshQueue _ g _ (.inl (qPtr_ne_qCfg g g).symm)).trans (get_qCfg_emptyRing s g n lo w h)

theorem stoppedQ_emptyRing (s : State) (g n : Nat) : (s.emptyRing g n).stoppedQ = s.stoppedQ.filter (· != g) := by
  rw [State.emptyRing, put_stoppedQ, put_stoppedQ, stoppedQ_unstop, setReg_stoppedQ]

/-- HEAD, TAIL and the count in flight of a queue that opens. -/
theorem emptyRing_ring (s : State) (g n : Nat) :
    (s.emptyRing g n).get (CMD_Q_PTR_HEAD g) = 0 ∧ (s.emptyRing g n).get (CMD_Q_PTR_TAIL g) = 0 ∧
    (s.emptyRing g n).get (CMD_Q_PTR_INFLIGHT g) = s.get (CMD_Q_PTR_INFLIGHT g) := by
  refine ⟨(get_put_disjoint _ (CMD_Q_PTR_TAIL g) (CMD_Q_PTR_HEAD g) 0 ?_ ?_).trans
    (get_put_fits _ (CMD_Q_PTR_HEAD g) 0 ?_ (Nat.two_pow_pos _)), get_put_fits _ (CMD_Q_PTR_TAIL g) 0 ?_ (Nat.two_pow_pos _),
    (get_put_disjoint _ (CMD_Q_PTR_TAIL g) (CMD_Q_PTR_INFLIGHT g) 0 ?_ ?_).trans
    ((get_put_disjoint _ (CMD_Q_PTR_HEAD g) (CMD_Q_PTR_INFLIGHT g) 0 ?_ ?_).trans
    ((get_unstop _ g _).trans (get_setReg_ne s _ _ (CMD_Q_PTR_INFLIGHT g) (qPtr_ne_qCfg g g))))⟩
  all_goals simp [CMD_Q_PTR_HEAD, CMD_Q_PTR_TAIL, CMD_Q_PTR_INFLIGHT]

/-- A queue that opens is active only while earlier descriptors are in flight, unless its function is quiesced. -/
theorem get_state_openQueue {s : State} {g n : Nat} (hg : g < 16384)
    (hq : s.flag (VIRT_FN_W5_QUIESCED (bitsOf n 18 5)) = false) :
    (s.openQueue g n).get (CMD_Q_PTR_STATE g) = if s.get (CMD_Q_PTR_INFLIGHT g) = 0 then 1 else 2 := by
  obtain ⟨hhead, htail, hfly⟩ := emptyRing_ring s g n
  have hen : (s.emptyRing g n).flag (CMD_Q_CFG_ENABLE g) = true := by
    rw [State.flag, CMD_Q_CFG_ENABLE, get_qCfg_emptyRing s g n 24 1 (by decide), bitsOf_putBits]
    rfl
  have hfn : (s.emptyRing g n).qFn g = bitsOf n 18 5 :=
    (get_qCfg_emptyRing s g n 18 5 (by decide)).trans (bitsOf_putBits_below n 24 1 1 18 5 (by decide))
  have hquiet : (s.emptyRing g n).flag (VIRT_FN_W5_QUIESCED (bitsOf n 18 5)) = false := by
    have hvirt : ∀ b, b < 0x200000 → VIRT_FN_W5 (bitsOf n 18 5) ≠ b := fun b hb => by
      unfold VIRT_FN_W5
      omega
    rw [← hq, State.flag, State.flag]
    refine congrArg (· == 1) ?_
    refine (get_put_ne _ (CMD_Q_PTR_TAIL g) _ 0 ?_).trans ((get_put_ne _ (CMD_Q_PTR_HEAD g) _ 0 ?_).trans
      ((get_unstop _ g _).trans (get_setReg_ne s _ _ _ ?_)))
    · exact hvirt _ (by simp only [CMD_Q_PTR_TAIL, CMD_Q_PTR]; omega)
    · exact hvirt _ (by simp only [CMD_Q_PTR_HEAD, CMD_Q_PTR]; omega)
    · exact hvirt _ (by simp only [CMD_Q_CFG]; omega)
  have hstop : (s.emptyRing g n).stoppedQ.contains g = false := by
    rw [stoppedQ_emptyRing]
    simp
  refine (get_state_refreshQueue _ g).trans ?_
  rw [hen, hfn, hquiet, hstop, hhead, htail, hfly]
  simp

/-- The clearing of ENABLE: STATE waits for what is in flight, and nothing else changes (R42). -/
theorem clearEnable_effect (s : State) (g : Nat) :
    ((s.put (CMD_Q_CFG_ENABLE g) 0).refreshQueue g).get (CMD_Q_CFG_ENABLE g) = 0 ∧
    ((s.put (CMD_Q_CFG_ENABLE g) 0).refreshQueue g).get (CMD_Q_PTR_STATE g) =
      (if s.get (CMD_Q_PTR_INFLIGHT g) = 0 then 0 else 2) ∧
    ((s.put (CMD_Q_CFG_ENABLE g) 0).refreshQueue g).get (CMD_Q_PTR_INFLIGHT g) = s.get (CMD_Q_PTR_INFLIGHT g) ∧
    OnlyRegs [CMD_Q_CFG g, CMD_Q_PTR g] s ((s.put (CMD_Q_CFG_ENABLE g) 0).refreshQueue g) := by
  have hen : (s.put (CMD_Q_CFG_ENABLE g) 0).get (CMD_Q_CFG_ENABLE g) = 0 :=
    get_put_fits s (CMD_Q_CFG_ENABLE g) 0 (by simp [CMD_Q_CFG_ENABLE]) (Nat.two_pow_pos _)
  have hfly : (s.put (CMD_Q_CFG_ENABLE g) 0).get (CMD_Q_PTR_INFLIGHT g) = s.get (CMD_Q_PTR_INFLIGHT g) :=
    get_put_ne s (CMD_Q_CFG_ENABLE g) (CMD_Q_PTR_INFLIGHT g) 0 (qPtr_ne_qCfg g g)
  have hoff : (s.put (CMD_Q_CFG_ENABLE g) 0).flag (CMD_Q_CFG_ENABLE g) = false := by
    rw [State.flag, hen]
    rfl
  refine ⟨(get_refreshQueue _ g _ (.inl (qPtr_ne_qCfg g g).symm)).trans hen, ?_,
    (get_refreshQueue _ g _ (.inr (.inr (by simp [CMD_Q_PTR_INFLIGHT])))).trans hfly,
    (onlyRegs_put s (CMD_Q_CFG_ENABLE g) 0).trans (onlyRegs_refreshQueue _ g)⟩
  rw [get_state_refreshQueue, if_pos hoff, hfly]

/-! ### CMD_Q_ERR (R40, R67) -/

/-- A W1C field of one bit is cleared by a bit written as 1. -/
theorem w1c_bit (x v n : Nat) (hx : x < 2) : x - Nat.land x (bitsOf v n 1) = if bitOf v n then 0 else x := by
  have hb : bitsOf v n 1 < 2 := bitsOf_lt v n 1
  have hv : bitOf v n = (bitsOf v n 1 == 1) := rfl
  rw [hv]
  generalize bitsOf v n 1 = b at hb ⊢
  interval_cases x <;> interval_cases b <;> rfl

theorem plainWrite_qErr_field (s : State) {g : Nat} (v : Nat) (hg : g < 16384) {f : FieldSpec}
    (hf : f ∈ fieldsAt (CMD_Q_ERR g)) :
    (s.plainWrite (CMD_Q_ERR g) v mask64).get ⟨CMD_Q_ERR g, f.lo, f.w⟩ =
      f.after false false (s.reg (CMD_Q_ERR g)).toNat v mask64 := by
  rw [fieldsAt_qErr hg] at hf
  have hw : f.lo + f.w ≤ 64 := by revert f; decide
  have hm : bitsOf mask64 f.lo f.w = 2 ^ f.w - 1 := by revert f; decide
  refine (get_setReg s ⟨CMD_Q_ERR g, f.lo, f.w⟩ _ hw).trans ?_
  rw [fieldsAt_qErr hg]
  refine (bitsOf_writeFields _ _ _ _ _ _ f ?_ hf).trans (Nat.mod_eq_of_lt (after_lt f _ _ _ _ _ hm))
  show List.Pairwise (fun a b : FieldSpec => a.lo + a.w ≤ b.lo ∨ b.lo + b.w ≤ a.lo) _
  decide

/-- A write of CMD_Q_ERR clears the error bits written as 1 and keeps STOP_IDX. -/
theorem plainWrite_qErr (s : State) {g : Nat} (v : Nat) (hg : g < 16384) :
    (s.plainWrite (CMD_Q_ERR g) v mask64).get (CMD_Q_ERR_MALFORMED g) =
      (if bitOf v 1 then 0 else s.get (CMD_Q_ERR_MALFORMED g)) ∧
    (s.plainWrite (CMD_Q_ERR g) v mask64).get (CMD_Q_ERR_FETCH_ERR g) =
      (if bitOf v 2 then 0 else s.get (CMD_Q_ERR_FETCH_ERR g)) ∧
    (s.plainWrite (CMD_Q_ERR g) v mask64).get (CMD_Q_ERR_STOP_IDX g) = s.get (CMD_Q_ERR_STOP_IDX g) := by
  have hmal := plainWrite_qErr_field s v hg (f := ⟨1, 1, .w1c, 0, .any⟩) (by simp [fieldsAt_qErr hg])
  have hfet := plainWrite_qErr_field s v hg (f := ⟨2, 1, .w1c, 0, .any⟩) (by simp [fieldsAt_qErr hg])
  have hidx := plainWrite_qErr_field s v hg (f := ⟨32, 16, .ro, 0, .any⟩) (by simp [fieldsAt_qErr hg])
  have hcov : ∀ n, bitsOf mask64 n 1 = 1 → Nat.land (bitsOf v n 1) (bitsOf mask64 n 1) = bitsOf v n 1 := fun n hn => by
    rw [hn]
    exact land_ones_of_lt (bitsOf_lt v n 1)
  refine ⟨hmal.trans ?_, hfet.trans ?_, hidx⟩
  · rw [FieldSpec.after, hcov 1 (by decide)]
    exact w1c_bit _ v 1 (bitsOf_lt _ 1 1)
  · rw [FieldSpec.after, hcov 2 (by decide)]
    exact w1c_bit _ v 2 (bitsOf_lt _ 2 1)

theorem onlyRegs_plainWrite (s : State) (b v m : Nat) : OnlyRegs [b] s (s.plainWrite b v m) := onlyRegs_setReg s b _

theorem writeQErr_stuck {s : State} {g : Nat} (v : Nat)
    (h : s.flag (CMD_Q_ERR_MALFORMED g) = true ∨ s.flag (CMD_Q_ERR_FETCH_ERR g) = true) :
    s.writeQErr g v mask64 = s.plainWrite (CMD_Q_ERR g) v mask64 := by
  refine if_neg ?_
  rcases h with h | h <;> simp [h]

/-- RESUME of a queue without an error: it is no longer stopped. -/
theorem writeQErr_resume {s : State} {g v : Nat} (hm : s.flag (CMD_Q_ERR_MALFORMED g) = false)
    (hf : s.flag (CMD_Q_ERR_FETCH_ERR g) = false) (hv : v < 2 ^ 64) (hr : bitOf v 63 = true) :
    s.writeQErr g v mask64 = (((s.plainWrite (CMD_Q_ERR g) v mask64).unstop g).refreshQueue g).refreshLtr := by
  refine if_pos ?_
  have hland : Nat.land v mask64 = v := land_ones_of_lt (w := 64) hv
  rw [hm, hf, hland, hr]
  rfl

/-- What RESUME of a queue without an error leaves: only the queue's own registers, its stop and the latency message differ. -/
theorem resume_effect (s : State) (g v : Nat) :
    let t := (((s.plainWrite (CMD_Q_ERR g) v mask64).unstop g).refreshQueue g).refreshLtr
    t.stoppedQ = s.stoppedQ.filter (· != g) ∧ t.get (CMD_Q_PTR_HEAD g) = s.get (CMD_Q_PTR_HEAD g) ∧
      t.get (CMD_Q_PTR_TAIL g) = s.get (CMD_Q_PTR_TAIL g) ∧
      t = { s with regs := t.regs, stoppedQ := t.stoppedQ, out := t.out, pwr := t.pwr } ∧
      ∀ b, b ≠ CMD_Q_ERR g → b ≠ CMD_Q_PTR g → t.reg b = s.reg b := by
  intro t
  have honly : OnlyRegs ([CMD_Q_ERR g] ++ [CMD_Q_PTR g]) (s.unstop g)
      (((s.plainWrite (CMD_Q_ERR g) v mask64).unstop g).refreshQueue g) := by
    rw [State.plainWrite, unstop_setReg]
    exact (onlyRegs_setReg (s.unstop g) _ _).trans (onlyRegs_refreshQueue _ g)
  have hkept : ∀ f : Fref, f.off = CMD_Q_PTR g → f.lo + f.w ≤ 32 → t.get f = s.get f := fun f ho hw =>
    (get_refreshLtr _ f).trans ((get_refreshQueue _ g f (.inr (.inl hw))).trans
      ((get_unstop _ g f).trans (get_setReg_ne s _ _ f (ho ▸ (qErr_ne_qPtr g g).symm))))
  obtain ⟨heq, hreg⟩ := honly.refreshLtr
  have hstop : t.stoppedQ = s.stoppedQ.filter (· != g) := (congrArg State.stoppedQ heq :)
  refine ⟨hstop, hkept _ rfl (by simp [CMD_Q_PTR_HEAD]), hkept _ rfl (by simp [CMD_Q_PTR_TAIL]), ?_,
    fun b h1 h2 => hreg b (by simp [h1, h2])⟩
  rw [hstop]
  exact heq

/-! ### The obligation -/

/-- What a queue opened by a write holds: the fields written, an empty ring, and STATE by what is still in flight. -/
theorem openQueue_effect {s : State} {g n : Nat} (hg : g < 16384) :
    let t := s.openQueue g n
    t.get (CMD_Q_CFG_ENABLE g) = 1 ∧ t.get (CMD_Q_CFG_CQG g) = bitsOf n 8 10 ∧ t.get (CMD_Q_CFG_FUNC g) = bitsOf n 18 5 ∧
      t.get (CMD_Q_CFG_SIZE_LOG2 g) = bitsOf n 0 5 ∧ t.get (CMD_Q_PTR_HEAD g) = 0 ∧ t.get (CMD_Q_PTR_TAIL g) = 0 ∧
      (s.flag (VIRT_FN_W5_QUIESCED (bitsOf n 18 5)) = false →
        t.get (CMD_Q_PTR_STATE g) = if s.get (CMD_Q_PTR_INFLIGHT g) = 0 then 1 else 2) ∧
      t = { s with regs := t.regs, stoppedQ := t.stoppedQ } ∧
      ∀ b, b ≠ CMD_Q_CFG g → b ≠ CMD_Q_PTR g → t.reg b = s.reg b := by
  intro t
  obtain ⟨hhead, htail, -⟩ := emptyRing_ring s g n
  obtain ⟨-, heq, hreg⟩ := (onlyRegs_openQueue s g n).unstopped
  have hbelow : ∀ lo w, lo + w ≤ 24 → t.get ⟨CMD_Q_CFG g, lo, w⟩ = bitsOf n lo w := fun lo w h =>
    (get_qCfg_openQueue s g n lo w (by omega)).trans (bitsOf_putBits_below n 24 1 1 lo w h)
  refine ⟨(get_qCfg_openQueue s g n 24 1 (by decide)).trans (bitsOf_putBits n 24 1 1), hbelow 8 10 (by decide),
    hbelow 18 5 (by decide), hbelow 0 5 (by decide), (get_refreshQueue _ g _ (.inr (.inl ?_))).trans hhead,
    (get_refreshQueue _ g _ (.inr (.inl ?_))).trans htail, get_state_openQueue hg, heq,
    fun b h1 h2 => hreg b (by simp [h1, h2])⟩
  · simp [CMD_Q_PTR_HEAD]
  · simp [CMD_Q_PTR_TAIL]

/-- Settles O12, by the branches of the two writes: a queue that is enabled, one that the write opens, and RESUME. -/
theorem queueEnableDisableAndResume : Obligations.QueueEnableDisableAndResume := by
  refine ⟨fun rq q g v s ho hv => ?_, fun rq q g v s ho hv hg hr => ?_⟩
  · intro t
    refine ⟨exec_queueEnable v ho hv, exec_queueDisable v ho hv, writeQCfg_keep rq, fun he hoff => ?_, fun he hon hg => ?_⟩
    · have ht : t = (s.put (CMD_Q_CFG_ENABLE g) 0).refreshQueue g := writeQCfg_clear rq he hoff
      obtain ⟨hen, hst, hfly, honly⟩ := clearEnable_effect s g
      rw [ht]
      exact ⟨hen, hst, hfly, (congrArg State.descs honly.1 :), honly⟩
    · intro free local' cqg fn size outside
      have hcqg : bitsOf (s.qCfgNew rq g v.toNat) 8 10 = cqg := bitsOf_qCfgNew_cqg s rq v.toNat hg
      have hfn : bitsOf (s.qCfgNew rq g v.toNat) 18 5 = fn := bitsOf_qCfgNew_func s rq v.toNat hg
      have hsize : bitsOf (s.qCfgNew rq g v.toNat) 0 5 = size := bitsOf_qCfgNew_size s rq v.toNat hg
      have ht := writeQCfg_open rq he hon
      rw [hcqg, hfn] at ht
      refine ⟨fun h => ht.trans (if_pos h), fun hin hcq hfunc => ?_⟩
      have hopen : t = s.openQueue g (s.qCfgNew rq g v.toNat) := ht.trans (if_neg (by
        rintro (h | h | h)
        · exact hin h
        · exact Bool.false_ne_true (h.symm.trans hcq)
        · exact h hfunc))
      have heffect := openQueue_effect (s := s) (n := s.qCfgNew rq g v.toNat) hg
      rw [← hopen, hcqg, hfn, hsize] at heffect
      exact heffect
  · intro t
    refine ⟨exec_queueResume v ho hv, fun h => ?_, fun hm hf => ?_⟩
    · obtain ⟨hmal, hfet, hidx⟩ := plainWrite_qErr s v.toNat hg
      have ht : t = s.plainWrite (CMD_Q_ERR g) v.toNat mask64 := writeQErr_stuck v.toNat h
      rw [ht]
      exact ⟨onlyRegs_plainWrite s _ _ _, hmal, hfet, hidx⟩
    · have ht : t = (((s.plainWrite (CMD_Q_ERR g) v.toNat mask64).unstop g).refreshQueue g).refreshLtr :=
        writeQErr_resume hm hf v.isLt hr
      rw [ht]
      exact resume_effect s g v.toNat

end Sys2Proof.Machine
end

section
/-!
SUPPORT. Writes of CMD_CQ_CFG and the coalescing limit (R58, R59, R62), with the obligation on completion groups.
-/

namespace Sys2Proof.Machine

/-! ### The way of the write -/

theorem exec_cqGroupEnable {rq : Requester} {q g : Nat} (v : Word32) {s : State} (ho : s.opensView rq (CMD_CQ_CFG q) = true)
    (hv : s.viewG rq q = some g) : exec (.cqGroupEnable rq q v) s = .next (s.writeGCfg rq g v.toNat) :=
  congrArg Host.Outcome.next (guardedView_of_opensView (fun i u => u.writeGCfg rq i v.toNat) ho hv)

theorem exec_cqGroupDisable {rq : Requester} {q g : Nat} (v : Word32) {s : State} (ho : s.opensView rq (CMD_CQ_CFG q) = true)
    (hv : s.viewG rq q = some g) : exec (.cqGroupDisable rq q v) s = .next (s.writeGCfg rq g v.toNat) :=
  congrArg Host.Outcome.next (guardedView_of_opensView (fun i u => u.writeGCfg rq i v.toNat) ho hv)

/-! ### A group that is enabled (R59) -/

theorem writeGCfg_keep {s : State} {g v : Nat} (rq : Requester) (he : s.flag (CMD_CQ_CFG_ENABLE g) = true)
    (h : bitOf v 29 = true ∨ s.groupUsed g = true) : s.writeGCfg rq g v = s := by
  refine (if_pos he).trans ?_
  by_cases hv : bitOf v 29 = true
  · exact if_pos hv
  · exact (if_neg hv).trans (if_pos (h.resolve_left hv))

theorem writeGCfg_clear {s : State} {g v : Nat} (rq : Requester) (he : s.flag (CMD_CQ_CFG_ENABLE g) = true)
    (hv : bitOf v 29 = false) (hu : s.groupUsed g = false) :
    s.writeGCfg rq g v = (s.put (CMD_CQ_CFG_ENABLE g) 0).refreshGroup g :=
  (if_pos he).trans ((if_neg (Bool.eq_false_iff.mp hv)).trans (if_neg (Bool.eq_false_iff.mp hu)))

/-- A record that a descriptor still brings to a group is owed to it. -/
theorem groupUsed_of_desc {s : State} {g : Nat} {d : Desc} (hd : d ∈ s.descs) (hg : s.get (CMD_Q_CFG_CQG d.q) = g) :
    s.groupUsed g = true := by
  have hany : s.descs.any (fun d => s.qGroup d.q == g) = true :=
    List.any_eq_true.mpr ⟨d, hd, beq_iff_eq.mpr hg⟩
  simp only [State.groupUsed, hany, Bool.or_true, Bool.true_or]

/-- The clearing of ENABLE: the group is no longer stalled, and nothing else changes. -/
theorem clearGroup_effect (s : State) (g : Nat) :
    ((s.put (CMD_CQ_CFG_ENABLE g) 0).refreshGroup g).get (CMD_CQ_CFG_ENABLE g) = 0 ∧
    ((s.put (CMD_CQ_CFG_ENABLE g) 0).refreshGroup g).get (CMD_CQ_PTR_STALLED g) = 0 ∧
    OnlyRegs [CMD_CQ_CFG g, CMD_CQ_PTR g] s ((s.put (CMD_CQ_CFG_ENABLE g) 0).refreshGroup g) := by
  have hen : (s.put (CMD_CQ_CFG_ENABLE g) 0).get (CMD_CQ_CFG_ENABLE g) = 0 :=
    get_put_fits s (CMD_CQ_CFG_ENABLE g) 0 (by simp [CMD_CQ_CFG_ENABLE]) (Nat.two_pow_pos _)
  refine ⟨(get_refreshGroup _ g _ (.inl (cqPtr_ne_cqCfg g g).symm)).trans hen, get_stalled_refreshGroup _ g ?_,
    (onlyRegs_put s (CMD_CQ_CFG_ENABLE g) 0).trans (onlyRegs_refreshGroup _ g)⟩
  rw [State.flag, hen]
  rfl

/-! ### A group that a write enables -/

/-- The value written to CMD_CQ_CFG, with FUNC as it stood where the requester may not change it (R388, R391). -/
def State.cqCfgValue (s : State) (rq : Requester) (g v : Nat) : Nat :=
  if isVf rq || s.funcHeld (s.get (CMD_CQ_CFG_FUNC g)) then putBits v 24 5 (s.get (CMD_CQ_CFG_FUNC g)) else v

/-- The word that a write leaves in CMD_CQ_CFG of a disabled group. -/
def State.cqCfgNew (s : State) (rq : Requester) (g v : Nat) : Nat :=
  writeFields (fieldsAt (CMD_CQ_CFG g)) false false (s.reg (CMD_CQ_CFG g)).toNat (s.cqCfgValue rq g v) mask32

/-- A group with the word `n` in CMD_CQ_CFG and an empty ring in its first phase. -/
def State.emptyGroup (s : State) (g n : Nat) : State :=
  (((s.setReg (CMD_CQ_CFG g) (BitVec.ofNat 64 n)).put (CMD_CQ_PTR_TAIL g) 0).put (CMD_CQ_PTR_HEAD g) 0).put
    (CMD_CQ_PTR_PHASE g) 1

/-- No unsignalled record counted. -/
def State.uncounted (s : State) (g : Nat) : State := { s with coal := mset (fun _ => ⟨0, 0⟩) s.coal g ⟨0, 0⟩ }

theorem writeGCfg_open {s : State} {g v : Nat} (rq : Requester) (he : s.flag (CMD_CQ_CFG_ENABLE g) = false)
    (hv : bitOf v 29 = true) :
    s.writeGCfg rq g v = (((s.emptyGroup g (s.cqCfgNew rq g v)).uncounted g).refreshGroup g) := by
  refine (if_neg (Bool.eq_false_iff.mp he)).trans ?_
  refine (if_pos hv).trans ?_
  rcases rq with n | _ | _ | _ <;> rfl

/-! ### The fields of that word -/

theorem bitsOf_cqCfgNew (s : State) (rq : Requester) {g : Nat} (v : Nat) (hg : g < 1024) {f : FieldSpec}
    (hf : f ∈ fieldsAt (CMD_CQ_CFG g)) :
    bitsOf (s.cqCfgNew rq g v) f.lo f.w =
      if f.ok.ok (bitsOf (s.cqCfgValue rq g v) f.lo f.w) = true then bitsOf (s.cqCfgValue rq g v) f.lo f.w
      else s.get ⟨CMD_CQ_CFG g, f.lo, f.w⟩ := by
  rw [fieldsAt_cqCfg hg] at hf
  unfold State.cqCfgNew
  rw [fieldsAt_cqCfg hg]
  refine bitsOf_writeFields_rw _ _ _ (by decide) hf ?_ ?_
  · revert f; decide
  · revert f; decide

/-- Every field but FUNC comes from the value written. -/
theorem bitsOf_cqCfgValue_ne (s : State) (rq : Requester) (g v : Nat) {lo w : Nat} (h : lo + w ≤ 24 ∨ 29 ≤ lo) :
    bitsOf (s.cqCfgValue rq g v) lo w = bitsOf v lo w := by
  unfold State.cqCfgValue
  split_ifs
  · rcases h with h | h
    · exact bitsOf_putBits_below v 24 5 _ lo w h
    · exact bitsOf_putBits_above v 24 5 _ lo w h
  · rfl

theorem bitsOf_cqCfgValue_func (s : State) (rq : Requester) (g v : Nat) :
    bitsOf (s.cqCfgValue rq g v) 24 5 = if isVf rq = false ∧ s.funcHeld (s.get (CMD_CQ_CFG_FUNC g)) = false
      then bitsOf v 24 5 else s.get (CMD_CQ_CFG_FUNC g) := by
  have hfits : s.get (CMD_CQ_CFG_FUNC g) % 32 = s.get (CMD_CQ_CFG_FUNC g) := Nat.mod_eq_of_lt (get_lt s (CMD_CQ_CFG_FUNC g))
  unfold State.cqCfgValue
  cases isVf rq <;> cases s.funcHeld (s.get (CMD_CQ_CFG_FUNC g)) <;> simp [bitsOf_putBits, hfits]

/-- VECTOR, COAL_CNT and ENABLE, of which no encoding is reserved. -/
theorem bitsOf_cqCfgNew_any (s : State) (rq : Requester) {g : Nat} (v lo w : Nat) (hg : g < 1024)
    (hf : (⟨lo, w, .rw, 0, .any⟩ : FieldSpec) ∈ fieldsAt (CMD_CQ_CFG g)) (h : lo + w ≤ 24 ∨ 29 ≤ lo) :
    bitsOf (s.cqCfgNew rq g v) lo w = bitsOf v lo w := by
  have hnew := bitsOf_cqCfgNew s rq v hg hf
  simp only [Accept.ok, if_true] at hnew
  exact hnew.trans (bitsOf_cqCfgValue_ne s rq g v h)

theorem bitsOf_cqCfgNew_size (s : State) (rq : Requester) {g : Nat} (v : Nat) (hg : g < 1024) :
    bitsOf (s.cqCfgNew rq g v) 0 5 =
      if 4 ≤ bitsOf v 0 5 ∧ bitsOf v 0 5 ≤ 16 then bitsOf v 0 5 else s.get (CMD_CQ_CFG_SIZE_LOG2 g) := by
  have hnew := bitsOf_cqCfgNew s rq v hg (f := ⟨0, 5, .rw, 4, .range 4 16⟩) (by simp [fieldsAt_cqCfg hg])
  simp only [Accept.ok, Bool.and_eq_true, decide_eq_true_eq,
    bitsOf_cqCfgValue_ne s rq g v (show 0 + 5 ≤ 24 ∨ 29 ≤ 0 by decide)] at hnew
  exact hnew

theorem bitsOf_cqCfgNew_func (s : State) (rq : Requester) {g : Nat} (v : Nat) (hg : g < 1024) :
    bitsOf (s.cqCfgNew rq g v) 24 5 = if isVf rq = false ∧ s.funcHeld (s.get (CMD_CQ_CFG_FUNC g)) = false
      then bitsOf v 24 5 else s.get (CMD_CQ_CFG_FUNC g) := by
  have hnew := bitsOf_cqCfgNew s rq v hg (f := ⟨24, 5, .rw, 0, .any⟩) (by simp [fieldsAt_cqCfg hg])
  simp only [Accept.ok, if_true] at hnew
  exact hnew.trans (bitsOf_cqCfgValue_func s rq g v)

/-! ### The group after the write -/

theorem OnlyRegs.uncounted {L : List Nat} {s u : State} (h : OnlyRegs L s u) (g : Nat) :
    OnlyRegs L (s.uncounted g) (u.uncounted g) := ⟨congrArg (fun x : State => x.uncounted g) h.1, h.2⟩

theorem onlyRegs_emptyGroup (s : State) (g n : Nat) : OnlyRegs [CMD_CQ_CFG g, CMD_CQ_PTR g] s (s.emptyGroup g n) := by
  have h := (((onlyRegs_setReg s (CMD_CQ_CFG g) (BitVec.ofNat 64 n)).trans (onlyRegs_put _ (CMD_CQ_PTR_TAIL g) 0)).trans
    (onlyRegs_put _ (CMD_CQ_PTR_HEAD g) 0)).trans (onlyRegs_put _ (CMD_CQ_PTR_PHASE g) 1)
  exact h.mono (by simp [CMD_CQ_PTR_HEAD, CMD_CQ_PTR_TAIL, CMD_CQ_PTR_PHASE])

theorem get_cqCfg_emptyGroup (s : State) (g n lo w : Nat) (h : lo + w ≤ 64) :
    (s.emptyGroup g n).get ⟨CMD_CQ_CFG g, lo, w⟩ = bitsOf n lo w := by
  have hne : CMD_CQ_CFG g ≠ CMD_CQ_PTR g := (cqPtr_ne_cqCfg g g).symm
  refine (get_put_ne _ (CMD_CQ_PTR_PHASE g) _ 1 hne).trans ((get_put_ne _ (CMD_CQ_PTR_HEAD g) _ 0 hne).trans
    ((get_put_ne _ (CMD_CQ_PTR_TAIL g) _ 0 hne).trans ?_))
  exact get_setReg s ⟨CMD_CQ_CFG g, lo, w⟩ n h

theorem emptyGroup_ring (s : State) (g n : Nat) :
    (s.emptyGroup g n).get (CMD_CQ_PTR_TAIL g) = 0 ∧ (s.emptyGroup g n).get (CMD_CQ_PTR_HEAD g) = 0 ∧
    (s.emptyGroup g n).get (CMD_CQ_PTR_PHASE g) = 1 := by
  refine ⟨(get_put_disjoint _ (CMD_CQ_PTR_PHASE g) (CMD_CQ_PTR_TAIL g) 1 ?_ ?_).trans
      ((get_put_disjoint _ (CMD_CQ_PTR_HEAD g) (CMD_CQ_PTR_TAIL g) 0 ?_ ?_).trans
        (get_put_fits _ (CMD_CQ_PTR_TAIL g) 0 ?_ (Nat.two_pow_pos _))),
    (get_put_disjoint _ (CMD_CQ_PTR_PHASE g) (CMD_CQ_PTR_HEAD g) 1 ?_ ?_).trans
      (get_put_fits _ (CMD_CQ_PTR_HEAD g) 0 ?_ (Nat.two_pow_pos _)),
    get_put_fits _ (CMD_CQ_PTR_PHASE g) 1 ?_ ?_⟩
  all_goals simp [CMD_CQ_PTR_HEAD, CMD_CQ_PTR_TAIL, CMD_CQ_PTR_PHASE]

theorem get_uncounted (s : State) (g : Nat) (f : Fref) : (s.uncounted g).get f = s.get f := rfl

/-- A group enabled with the word `n`: its fields, an empty ring in its first phase, and no other register. -/
theorem openGroup_effect (s : State) (g n : Nat) :
    let t := ((s.emptyGroup g n).uncounted g).refreshGroup g
    (∀ lo w, lo + w ≤ 64 → t.get ⟨CMD_CQ_CFG g, lo, w⟩ = bitsOf n lo w) ∧
      t.get (CMD_CQ_PTR_TAIL g) = 0 ∧ t.get (CMD_CQ_PTR_HEAD g) = 0 ∧ t.get (CMD_CQ_PTR_PHASE g) = 1 ∧
      t = { s with regs := t.regs, coal := t.coal } ∧ ∀ b, b ≠ CMD_CQ_CFG g → b ≠ CMD_CQ_PTR g → t.reg b = s.reg b := by
  intro t
  obtain ⟨htail, hhead, hphase⟩ := emptyGroup_ring s g n
  have hkept : ∀ f : Fref, f.off ≠ CMD_CQ_PTR g ∨ f.lo + f.w ≤ 33 ∨ 34 ≤ f.lo → t.get f = (s.emptyGroup g n).get f :=
    fun f hf => (get_refreshGroup _ g f hf).trans (get_uncounted _ g f)
  obtain ⟨heq, hreg⟩ := ((onlyRegs_emptyGroup s g n).uncounted g).trans (onlyRegs_refreshGroup _ g)
  have hcoal : t.coal = (s.uncounted g).coal := (congrArg State.coal heq :)
  refine ⟨fun lo w h => (hkept ⟨CMD_CQ_CFG g, lo, w⟩ (.inl (cqPtr_ne_cqCfg g g).symm)).trans
      (get_cqCfg_emptyGroup s g n lo w h),
    (hkept _ (.inr (.inl ?_))).trans htail, (hkept _ (.inr (.inl ?_))).trans hhead, (hkept _ (.inr (.inl ?_))).trans hphase, ?_,
    fun b h1 h2 => hreg b (by simp [h1, h2])⟩
  · simp [CMD_CQ_PTR_TAIL]
  · simp [CMD_CQ_PTR_HEAD]
  · simp [CMD_CQ_PTR_PHASE]
  · rw [hcoal]
    exact heq

/-! ### Coalescing (R62) -/

theorem exec_coalesceTimeout (g : Nat) (s : State) :
    exec (.coalesceTimeout g) s = .next (
      if s.get (CMD_CQ_COAL_COAL_US g) = 0 ∨ (mget (fun _ => (⟨0, 0⟩ : Coal)) s.coal g).cnt = 0 ∨
          s.c < (mget (fun _ => (⟨0, 0⟩ : Coal)) s.coal g).since + usTicks (s.get (CMD_CQ_COAL_COAL_US g)) then s
      else (s.uncounted g).msix (s.get (CMD_CQ_CFG_FUNC g)) (s.get (CMD_CQ_CFG_VECTOR g))) := rfl

theorem cnt_uncounted (s : State) (g : Nat) : (mget (fun _ => (⟨0, 0⟩ : Coal)) (s.uncounted g).coal g).cnt = 0 :=
  congrArg Coal.cnt ((mget_mset _ s.coal g g ⟨0, 0⟩).trans (if_pos rfl))

/-- Settles O15, by the state of the group and the ENABLE bit written, and by the guard of the coalescing limit. -/
theorem groupsAndCoalescing : Obligations.GroupsAndCoalescing := by
  refine ⟨fun rq q g v s ho hv hg => ?_, fun g s => ?_⟩
  · intro t
    refine ⟨exec_cqGroupEnable v ho hv, exec_cqGroupDisable v ho hv, fun he hon => writeGCfg_keep rq he (.inl hon),
      fun he hoff => ⟨fun d hd hq => writeGCfg_keep rq he (.inr (groupUsed_of_desc hd hq)), fun hu => ?_⟩, fun he hon => ?_⟩
    · have ht : t = _ := writeGCfg_clear rq he hoff hu
      rw [ht]
      exact clearGroup_effect s g
    · have ht : t = _ := writeGCfg_open rq he hon
      obtain ⟨hcfg, hring⟩ := openGroup_effect s g (s.cqCfgNew rq g v.toNat)
      rw [← ht] at hcfg hring
      have hen : bitsOf v.toNat 29 1 = 1 := beq_iff_eq.mp hon
      refine ⟨?_, ?_, ?_, ?_, ?_, hring⟩
      · exact ((hcfg 29 1 (by decide)).trans
          (bitsOf_cqCfgNew_any s rq v.toNat 29 1 hg (by simp [fieldsAt_cqCfg hg]) (by decide))).trans hen
      · exact (hcfg 5 11 (by decide)).trans
          (bitsOf_cqCfgNew_any s rq v.toNat 5 11 hg (by simp [fieldsAt_cqCfg hg]) (by decide))
      · exact (hcfg 16 8 (by decide)).trans
          (bitsOf_cqCfgNew_any s rq v.toNat 16 8 hg (by simp [fieldsAt_cqCfg hg]) (by decide))
      · exact (hcfg 24 5 (by decide)).trans (bitsOf_cqCfgNew_func s rq v.toNat hg)
      · exact (hcfg 0 5 (by decide)).trans (bitsOf_cqCfgNew_size s rq v.toNat hg)
  · intro x us
    have hlimit : usTicks us = 800 * us := Nat.mul_comm us 800
    refine ⟨fun h => ?_, fun hus hcnt hlate => ⟨(s.uncounted g).coal, ?_, cnt_uncounted s g⟩⟩
    · rw [← hlimit] at h
      exact (exec_coalesceTimeout g s).trans (congrArg _ (if_pos h))
    · rw [← hlimit] at hlate
      exact (exec_coalesceTimeout g s).trans (congrArg _ (if_neg (not_or.mpr ⟨hus, not_or.mpr ⟨hcnt, Nat.not_lt.mpr hlate⟩⟩)))

end Sys2Proof.Machine
end

section
/-!
SUPPORT. The fetch of descriptors and the limit of a wait (R43, R44, R66, R74, R390), with the obligation on them.
-/

namespace Sys2Proof.Machine

/-! ### Whose turn it is (R390) -/

theorem exec_descriptorFetch_idle {s : State} {q : Nat} (ok : Bool) (h : s.nextFetch ≠ some q) :
    exec (.descriptorFetch q ok) s = .next s := by
  show execDescriptorFetch q ok s = _
  unfold execDescriptorFetch
  rw [if_neg h]

/-- A queue whose turn it is has a slot to fetch. -/
theorem fetchSlot_of_nextFetch {s : State} {q : Nat} (h : s.nextFetch = some q) : (s.fetchSlot q).isSome = true := by
  unfold State.nextFetch at h
  split at h
  · exact (List.mem_filter.mp (List.mem_of_find?_eq_some h)).2
  · cases h

/-- A queue that no job has as its fallback queue is fetched at HEAD, while it may be (R42, R43, R396). -/
theorem fetchSlot_eq {s : State} {q : Nat} (hj : s.jobOf SCH_JOB_W0_FQ q = none) :
    s.fetchSlot q =
      if s.fwFor q = false ∨ s.flag (VIRT_FN_W5_FLR_BUSY (s.qFn q)) = true ∨ s.flag (CMD_Q_CFG_ENABLE q) = false ∨
          s.stoppedQ.contains q = true ∨ s.flag (VIRT_FN_W5_QUIESCED (s.qFn q)) = true ∨
          s.get (CMD_Q_PTR_HEAD q) = s.get (CMD_Q_PTR_TAIL q) then none
      else some (s.get (CMD_Q_PTR_HEAD q), none) := by
  unfold State.fetchSlot
  rw [hj]
  simp only [Bool.or_eq_true, Bool.not_eq_true', beq_iff_eq, ite_or]

/-- A fetch counted for its function changes neither registers nor memories. -/
theorem countFetch_keeps (s : State) (f : Nat) :
    (s.countFetch f).regs = s.regs ∧ (s.countFetch f).descs = s.descs ∧ (s.countFetch f).nextId = s.nextId ∧
    (s.countFetch f).now = s.now ∧ (s.countFetch f).pcie = s.pcie ∧ (s.countFetch f).mem = s.mem ∧
    (s.countFetch f).host = s.host ∧ (s.countFetch f).stoppedQ = s.stoppedQ := by
  unfold State.countFetch
  split_ifs <;> exact ⟨rfl, rfl, rfl, rfl, rfl, rfl, rfl, rfl⟩

theorem get_countFetch (s : State) (f : Nat) (r : Fref) : (s.countFetch f).get r = s.get r := by
  obtain ⟨hregs, -⟩ := countFetch_keeps s f
  rw [State.get, State.reg, hregs]
  rfl

theorem flag_countFetch (s : State) (f : Nat) (r : Fref) : (s.countFetch f).flag r = s.flag r :=
  congrArg (· == 1) (get_countFetch s f r)

theorem jobOf_countFetch (s : State) (f : Nat) (r : Nat → Fref) (q : Nat) : (s.countFetch f).jobOf r q = s.jobOf r q := by
  unfold State.jobOf
  simp only [flag_countFetch, get_countFetch]

theorem hostBytes_congr {s t : State} (h : t.host = s.host) (n : Nat) : ∀ a, t.hostBytes a n = s.hostBytes a n := by
  induction n with
  | zero => exact fun _ => rfl
  | succ n ih => exact fun a => by rw [State.hostBytes, State.hostBytes, ih, State.hostByte, State.hostByte, h]

theorem busOk_countFetch (s : State) (q : Nat) :
    (s.countFetch (s.qFn q)).busOk ((s.countFetch (s.qFn q)).qFn q) = s.busOk (s.qFn q) := by
  obtain ⟨-, -, -, -, hpcie, -⟩ := countFetch_keeps s (s.qFn q)
  rw [show (s.countFetch (s.qFn q)).qFn q = s.qFn q from get_countFetch s _ _, State.busOk, hpcie]
  rfl

theorem execDescriptorFetch_slot {s : State} {q slot : Nat} (ok : Bool) (hn : s.nextFetch = some q)
    (hs : s.fetchSlot q = some (slot, none)) :
    exec (.descriptorFetch q ok) s = .next (
      let c := s.countFetch (s.qFn q)
      let bus := c.get (CMD_Q_BASE_ADDR q) * 4096 + 64 * slot
      (if ok && c.busOk (c.qFn q) then c.fetched q slot (c.hostBytes bus 64) none
        else c.fetchFailed q slot bus none).settle.refreshLtr) := by
  show execDescriptorFetch q ok s = _
  unfold execDescriptorFetch
  rw [if_pos hn, hs]

/-- The slot is copied where the bus answers (R43). -/
theorem exec_descriptorFetch_copied {s : State} {q slot : Nat} (hn : s.nextFetch = some q)
    (hs : s.fetchSlot q = some (slot, none)) (hb : s.busOk (s.qFn q) = true) :
    exec (.descriptorFetch q true) s = .next ((s.countFetch (s.qFn q)).fetched q slot
      (s.hostBytes (s.get (CMD_Q_BASE_ADDR q) * 4096 + 64 * slot) 64) none).settle.refreshLtr := by
  obtain ⟨-, -, -, -, -, -, hhost, -⟩ := countFetch_keeps s (s.qFn q)
  rw [execDescriptorFetch_slot true hn hs]
  dsimp only
  rw [busOk_countFetch, hb, Bool.and_self, if_pos rfl, get_countFetch, hostBytes_congr hhost]

/-- A read that fails ends in the record of R66. -/
theorem exec_descriptorFetch_failed {s : State} {q slot : Nat} {ok : Bool} (hn : s.nextFetch = some q)
    (hs : s.fetchSlot q = some (slot, none)) (hb : ok = false ∨ s.busOk (s.qFn q) = false) :
    exec (.descriptorFetch q ok) s = .next ((s.countFetch (s.qFn q)).fetchFailed q slot
      (s.get (CMD_Q_BASE_ADDR q) * 4096 + 64 * slot) none).settle.refreshLtr := by
  have hoff : ¬ (ok && s.busOk (s.qFn q)) = true := by
    rcases hb with h | h <;> simp [h]
  rw [execDescriptorFetch_slot ok hn hs]
  dsimp only
  rw [busOk_countFetch, if_neg hoff, get_countFetch]

/-! ### A slot copied (R43, R44) -/

/-- A commit record more. -/
def State.addDesc (s : State) (d : Desc) : State := { s with descs := s.descs ++ [d], nextId := s.nextId + 1 }

theorem jobOf_congr {s t : State} {f : Nat → Fref} (q : Nat) (h : ∀ j < 256, t.reg (SCH_JOB_W2 j) = s.reg (SCH_JOB_W2 j) ∧
    t.get (f j) = s.get (f j)) : t.jobOf f q = s.jobOf f q := by
  refine List.find?_congr fun j hj => ?_
  obtain ⟨hen, hf⟩ := h j (List.mem_range.mp hj)
  rw [hf, State.flag, State.flag, get_of_reg (f := SCH_JOB_W2_EN j) hen]

/-- HEAD written leaves the jobs' registers alone. -/
theorem jobOf_putHead (s : State) {q : Nat} (n q' : Nat) (hq : q < 16384) :
    (s.put (CMD_Q_PTR_HEAD q) n).jobOf SCH_JOB_W0_PQ q' = s.jobOf SCH_JOB_W0_PQ q' := by
  refine jobOf_congr q' fun j _ => ⟨reg_put_ne s (CMD_Q_PTR_HEAD q) n _ ?_, get_put_ne s (CMD_Q_PTR_HEAD q) _ n ?_⟩
  · simp only [SCH_JOB_W2, CMD_Q_PTR_HEAD, CMD_Q_PTR]
    omega
  · simp only [SCH_JOB_W0_PQ, SCH_JOB_W0, CMD_Q_PTR_HEAD, CMD_Q_PTR]
    omega

/-- A descriptor copied from a queue of no job: HEAD advances and the descriptor counts as in flight. -/
theorem fetched_eq {s : State} {q : Nat} (slot : Nat) (bytes : List Byte) (hq : q < 16384)
    (hj : s.jobOf SCH_JOB_W0_PQ q = none) :
    s.fetched q slot bytes none =
      ((((s.put (CMD_Q_PTR_HEAD q) ((slot + 1) % 2 ^ s.get (CMD_Q_CFG_SIZE_LOG2 q))).addDesc (s.newDesc q slot bytes)).bump
        (CMD_Q_PTR_INFLIGHT q) 1).refreshQueue q).emitDesc (s.newDesc q slot bytes) 36 0x01 0
        (s.newDesc q slot bytes).opc 0 := by
  have hput := (jobOf_putHead s ((slot + 1) % 2 ^ s.get (CMD_Q_CFG_SIZE_LOG2 q)) q hq).trans hj
  unfold State.fetched
  dsimp only
  rw [hput]
  rfl

theorem still_refreshQueue (s : State) (q : Nat) : (s.refreshQueue q).still = s.still := still_put s _ _

theorem still_fetched {s : State} {q : Nat} (slot : Nat) (bytes : List Byte) (hq : q < 16384)
    (hj : s.jobOf SCH_JOB_W0_PQ q = none) :
    (s.fetched q slot bytes none).still = (s.addDesc (s.newDesc q slot bytes)).still := by
  rw [fetched_eq slot bytes hq hj, still_emitDesc, still_refreshQueue, still_bump]
  rfl

theorem fetched_ptr {s : State} {q : Nat} (slot : Nat) (bytes : List Byte) (hq : q < 16384)
    (hj : s.jobOf SCH_JOB_W0_PQ q = none) :
    (s.fetched q slot bytes none).get (CMD_Q_PTR_HEAD q) = (slot + 1) % 2 ^ s.get (CMD_Q_CFG_SIZE_LOG2 q) % 65536 ∧
    (s.fetched q slot bytes none).get (CMD_Q_PTR_TAIL q) = s.get (CMD_Q_PTR_TAIL q) := by
  have hkept : ∀ f : Fref, f.off = CMD_Q_PTR q → f.lo + f.w ≤ 32 → (s.fetched q slot bytes none).get f =
      (s.put (CMD_Q_PTR_HEAD q) ((slot + 1) % 2 ^ s.get (CMD_Q_CFG_SIZE_LOG2 q))).get f := by
    intro f ho hw
    rw [fetched_eq slot bytes hq hj]
    refine (get_of_reg (reg_emitDesc _ _ _ _ _ _ _ f.off (.inl ?_))).trans ((get_refreshQueue _ q f (.inr (.inl hw))).trans
      (get_put_disjoint _ (CMD_Q_PTR_INFLIGHT q) f _ (by simp [CMD_Q_PTR_INFLIGHT]) (.inl ?_)))
    · rw [ho, CMD_Q_PTR]
      omega
    · simp only [CMD_Q_PTR_INFLIGHT]
      omega
  refine ⟨(hkept (CMD_Q_PTR_HEAD q) rfl (by simp [CMD_Q_PTR_HEAD])).trans ?_,
    (hkept (CMD_Q_PTR_TAIL q) rfl (by simp [CMD_Q_PTR_TAIL])).trans ?_⟩
  · exact (get_put s (CMD_Q_PTR_HEAD q) _ (by simp [CMD_Q_PTR_HEAD])).trans (by simp [CMD_Q_PTR_HEAD])
  · exact get_put_disjoint s (CMD_Q_PTR_HEAD q) _ _ (by simp [CMD_Q_PTR_HEAD]) (by simp [CMD_Q_PTR_HEAD, CMD_Q_PTR_TAIL])

/-- The memories and the stops are those before the fetch, and the record is the last of all. -/
theorem fetched_effect {s : State} {q : Nat} (slot : Nat) (bytes : List Byte) (hq : q < 16384)
    (hj : s.jobOf SCH_JOB_W0_PQ q = none) :
    (s.fetched q slot bytes none).descs = s.descs ++ [s.newDesc q slot bytes] ∧
    (s.fetched q slot bytes none).nextId = s.nextId + 1 ∧ (s.fetched q slot bytes none).mem = s.mem ∧
    (s.fetched q slot bytes none).host = s.host ∧ (s.fetched q slot bytes none).stoppedQ = s.stoppedQ := by
  have h := still_fetched slot bytes hq hj
  exact ⟨(congrArg State.descs h :), (congrArg State.nextId h :), (congrArg State.mem h :), (congrArg State.host h :),
    (congrArg State.stoppedQ h :)⟩

/-! ### A slot that cannot be read (R66) -/

/-- The stop of a queue, in the list of the stopped ones. -/
def State.markStopped (s : State) (q : Nat) : State :=
  { s with stoppedQ := if s.stoppedQ.contains q then s.stoppedQ else s.stoppedQ ++ [q] }

theorem stopQueue_eq (s : State) (q idx : Nat) (flag : Fref) :
    s.stopQueue q idx flag = (((s.markStopped q).put flag 1).put (CMD_Q_ERR_STOP_IDX q) idx).refreshQueue q := rfl

theorem onlyRegs_stopQueue (s : State) (q idx n : Nat) :
    OnlyRegs [CMD_Q_ERR q, CMD_Q_PTR q] (s.markStopped q) (s.stopQueue q idx ⟨CMD_Q_ERR q, n, 1⟩) := by
  rw [stopQueue_eq]
  have h := ((onlyRegs_put (s.markStopped q) ⟨CMD_Q_ERR q, n, 1⟩ 1).trans (onlyRegs_put _ (CMD_Q_ERR_STOP_IDX q) idx)).trans
    (onlyRegs_refreshQueue _ q)
  exact h.mono (by simp [CMD_Q_ERR_STOP_IDX])

theorem contains_markStopped (s : State) (q : Nat) : (s.markStopped q).stoppedQ.contains q = true := by
  unfold State.markStopped
  split_ifs with h
  · exact h
  · simp

theorem get_markStopped (s : State) (q : Nat) (f : Fref) : (s.markStopped q).get f = s.get f := rfl

/-- CMD_Q_ERR of a queue stopped on an error. -/
theorem stopQueue_err (s : State) (q idx n : Nat) (hn : n < 32) (hi : idx < 65536) :
    (s.stopQueue q idx ⟨CMD_Q_ERR q, n, 1⟩).get ⟨CMD_Q_ERR q, n, 1⟩ = 1 ∧
    (s.stopQueue q idx ⟨CMD_Q_ERR q, n, 1⟩).get (CMD_Q_ERR_STOP_IDX q) = idx := by
  rw [stopQueue_eq]
  refine ⟨(get_refreshQueue _ q _ (.inl (qErr_ne_qPtr q q))).trans
      ((get_put_disjoint _ (CMD_Q_ERR_STOP_IDX q) _ idx ?_ ?_).trans (get_put_fits _ _ 1 ?_ ?_)),
    (get_refreshQueue _ q _ (.inl (qErr_ne_qPtr q q))).trans (get_put_fits _ _ idx ?_ ?_)⟩
  · simp [CMD_Q_ERR_STOP_IDX]
  · simp only [CMD_Q_ERR_STOP_IDX]
    omega
  · show n + 1 ≤ 64
    omega
  · exact Nat.one_lt_two
  · simp [CMD_Q_ERR_STOP_IDX]
  · simpa [CMD_Q_ERR_STOP_IDX] using hi

/-- A stop leaves HEAD and TAIL. -/
theorem get_stopQueue_ring (s : State) (q idx n : Nat) (f : Fref) (ho : f.off = CMD_Q_PTR q) (hw : f.lo + f.w ≤ 32) :
    (s.stopQueue q idx ⟨CMD_Q_ERR q, n, 1⟩).get f = s.get f := by
  have hne : f.off ≠ CMD_Q_ERR q := ho ▸ (qErr_ne_qPtr q q).symm
  rw [stopQueue_eq]
  exact (get_refreshQueue _ q f (.inr (.inl hw))).trans ((get_put_ne _ (CMD_Q_ERR_STOP_IDX q) f idx hne).trans
    ((get_put_ne _ ⟨CMD_Q_ERR q, n, 1⟩ f 1 hne).trans (get_markStopped s q f)))

/-- Nothing that a stop writes tells whether a queue is enabled or its function quiesced. -/
theorem get_state_stopQueue {s : State} {q : Nat} (idx n : Nat) (he : s.flag (CMD_Q_CFG_ENABLE q) = true)
    (hu : s.flag (VIRT_FN_W5_QUIESCED (s.qFn q)) = false) :
    (s.stopQueue q idx ⟨CMD_Q_ERR q, n, 1⟩).get (CMD_Q_PTR_STATE q) = 3 := by
  rw [stopQueue_eq]
  have hkept : ∀ f : Fref, f.off ≠ CMD_Q_ERR q →
      (((s.markStopped q).put ⟨CMD_Q_ERR q, n, 1⟩ 1).put (CMD_Q_ERR_STOP_IDX q) idx).get f = s.get f := fun f hf =>
    (get_put_ne _ (CMD_Q_ERR_STOP_IDX q) f idx hf).trans (get_put_ne _ ⟨CMD_Q_ERR q, n, 1⟩ f 1 hf)
  have hvirt : VIRT_FN_W5 (s.qFn q) ≠ CMD_Q_ERR q := by
    unfold VIRT_FN_W5 CMD_Q_ERR
    omega
  have hen := hkept (CMD_Q_CFG_ENABLE q) (qErr_ne_qCfg q q).symm
  have hfn := hkept (CMD_Q_CFG_FUNC q) (qErr_ne_qCfg q q).symm
  have hquiet := hkept (VIRT_FN_W5_QUIESCED (s.qFn q)) hvirt
  rw [get_state_refreshQueue, if_neg, if_neg, if_pos]
  · rw [put_stoppedQ, put_stoppedQ, contains_markStopped]
  · rw [State.qFn, hfn, State.flag]
    exact fun h => Bool.false_ne_true (hu.symm.trans ((congrArg (· == 1) hquiet).symm.trans h))
  · rw [State.flag, hen]
    exact fun h => Bool.false_ne_true (h.symm.trans he)

/-- The record of a slot whose read failed. -/
def State.failedDesc (s : State) (q slot bus : Nat) : Desc :=
  { s.newDesc q slot (List.replicate 64 0) with
    phase := .ended, status := 0x15, detail := bus, noSignal := true, step := s.seq + 1 }

/-- That record added, with the order of its end, and counted in flight. -/
def State.addFailed (s : State) (q slot bus : Nat) : State :=
  { s with descs := s.descs ++ [s.failedDesc q slot bus], nextId := s.nextId + 1, seq := s.seq + 1 }.bump
    (CMD_Q_PTR_INFLIGHT q) 1

theorem fetchFailed_eq (s : State) (q slot bus : Nat) :
    s.fetchFailed q slot bus none = (s.addFailed q slot bus).stopQueue q slot (CMD_Q_ERR_FETCH_ERR q) := rfl

theorem get_addFailed (s : State) (q slot bus : Nat) (f : Fref) (h : f.off ≠ CMD_Q_PTR q ∨ f.lo + f.w ≤ 35) :
    (s.addFailed q slot bus).get f = s.get f := by
  rcases h with h | h
  · exact get_put_ne _ (CMD_Q_PTR_INFLIGHT q) f _ h
  · exact get_put_disjoint _ (CMD_Q_PTR_INFLIGHT q) f _ (by simp [CMD_Q_PTR_INFLIGHT]) (.inl h)

theorem addFailed_frame (s : State) (q slot bus : Nat) :
    s.addFailed q slot bus = { s with descs := s.descs ++ [s.failedDesc q slot bus], nextId := s.nextId + 1, seq := s.seq + 1,
                                      regs := (s.addFailed q slot bus).regs } := rfl

/-- The state with the record of a failed fetch, and with the registers `r`. -/
def State.failedWith (s : State) (q slot bus : Nat) (r : SMap Word64) : State :=
  { s with descs := s.descs ++ [s.failedDesc q slot bus], nextId := s.nextId + 1, seq := s.seq + 1, regs := r }

theorem markStopped_failedWith (s : State) (q slot bus : Nat) (r r' : SMap Word64) :
    { (s.failedWith q slot bus r).markStopped q with regs := r' } = (s.failedWith q slot bus r').markStopped q := rfl

/-- A failed fetch adds its record and stops the queue; for the rest it changes registers. -/
theorem fetchFailed_frame (s : State) (q slot bus : Nat) :
    ∃ r, s.fetchFailed q slot bus none = (s.failedWith q slot bus r).markStopped q := by
  rw [fetchFailed_eq]
  generalize hr : ((s.addFailed q slot bus).stopQueue q slot (CMD_Q_ERR_FETCH_ERR q)).regs = r
  have hstop : (s.addFailed q slot bus).stopQueue q slot (CMD_Q_ERR_FETCH_ERR q) =
      { (s.addFailed q slot bus).markStopped q with regs := r } :=
    hr ▸ (onlyRegs_stopQueue (s.addFailed q slot bus) q slot 2).1
  exact ⟨r, (hstop.trans (congrArg (fun x : State => { x.markStopped q with regs := r }) (addFailed_frame s q slot bus))).trans
    (markStopped_failedWith s q slot bus _ r)⟩

theorem fetchFailed_only (s : State) (q slot bus : Nat) :
    let u := s.fetchFailed q slot bus none
    u.descs = s.descs ++ [s.failedDesc q slot bus] ∧ u.stoppedQ.contains q = true ∧
      u = { s with descs := u.descs, nextId := u.nextId, seq := u.seq, regs := u.regs, stoppedQ := u.stoppedQ } := by
  obtain ⟨r, h⟩ := fetchFailed_frame s q slot bus
  rw [h]
  exact ⟨rfl, contains_markStopped (s.failedWith q slot bus r) q, rfl⟩

/-- The queue's registers after a failed fetch: HEAD stays at the slot, which STOP_IDX names. -/
theorem fetchFailed_regs {s : State} {q : Nat} (bus : Nat) (he : s.flag (CMD_Q_CFG_ENABLE q) = true)
    (hu : s.flag (VIRT_FN_W5_QUIESCED (s.qFn q)) = false) :
    let slot := s.get (CMD_Q_PTR_HEAD q)
    let u := s.fetchFailed q slot bus none
    u.get (CMD_Q_PTR_HEAD q) = slot ∧ u.get (CMD_Q_ERR_FETCH_ERR q) = 1 ∧ u.get (CMD_Q_ERR_STOP_IDX q) = slot ∧
      u.get (CMD_Q_PTR_STATE q) = 3 := by
  intro slot
  rw [fetchFailed_eq]
  have hslot : slot < 65536 := get_lt s (CMD_Q_PTR_HEAD q)
  have hcfg : ∀ f : Fref, f.off ≠ CMD_Q_PTR q → (s.addFailed q slot bus).get f = s.get f :=
    fun f hf => get_addFailed s q slot bus f (.inl hf)
  have hen : (s.addFailed q slot bus).flag (CMD_Q_CFG_ENABLE q) = true :=
    (congrArg (· == 1) (hcfg (CMD_Q_CFG_ENABLE q) (qPtr_ne_qCfg q q).symm)).trans he
  have hfn : (s.addFailed q slot bus).qFn q = s.qFn q := hcfg (CMD_Q_CFG_FUNC q) (qPtr_ne_qCfg q q).symm
  have hquiet : (s.addFailed q slot bus).flag (VIRT_FN_W5_QUIESCED ((s.addFailed q slot bus).qFn q)) = false := by
    rw [hfn]
    refine (congrArg (· == 1) (hcfg (VIRT_FN_W5_QUIESCED (s.qFn q)) ?_)).trans hu
    simp only [VIRT_FN_W5_QUIESCED, VIRT_FN_W5, CMD_Q_PTR]
    omega
  have hhead : (s.addFailed q slot bus).get (CMD_Q_PTR_HEAD q) = slot :=
    get_addFailed s q slot bus _ (.inr (by simp [CMD_Q_PTR_HEAD]))
  generalize s.addFailed q slot bus = x at hen hquiet hhead
  obtain ⟨herr, hidx⟩ := stopQueue_err x q slot 2 (by decide) hslot
  exact ⟨(get_stopQueue_ring x q slot 2 _ rfl (by simp [CMD_Q_PTR_HEAD])).trans hhead, herr, hidx,
    get_state_stopQueue slot 2 hen hquiet⟩

/-! ### The limit of a wait (R74) -/

theorem exec_semTimeout {s : State} {i : Nat} {d : Desc} (hd : s.desc? i = some d) :
    exec (.semTimeout i) s = .next (
      if d.phase ≠ .waiting ∨ s.get (CMD_Q_LIMIT_WAIT_MS d.q) = 0 ∨
          s.c ≤ d.waitC + msTicks (s.get (CMD_Q_LIMIT_WAIT_MS d.q)) then s
      else ((((s.declOuts d).1.emitDesc d 36 0x09 0 (waitA (s.semOf d d.waitIdx) d.waitTgt)
        ((s.declOuts d).1.get (CMD_SEM_COUNT (s.semOf d d.waitIdx)))).endUndisp i 0x33 d.waitIdx
          (s.declOuts d).2 true).settle)) := by
  show execSemTimeout i s = _
  unfold execSemTimeout
  rw [hd]

/-- The check of an opcode without a parameter block reads nothing. -/
theorem verdict_unread {s : State} {d : Desc} (h : pbRule d.opc = none) : (s.verdict d).1 = s := by
  simp only [State.verdict, h]
  split
  · rfl
  split
  · rfl
  split_ifs
  · rfl
  split
  · rfl
  split <;> rfl

theorem declOuts_fst (s : State) (d : Desc) : (s.declOuts d).1 = (s.verdict d).1 := by
  unfold State.declOuts
  split <;> simp_all

theorem get_declOuts_unread {s : State} {d : Desc} (h : pbRule d.opc = none) : (s.declOuts d).1 = s :=
  (declOuts_fst s d).trans (verdict_unread h)

/-! ### The obligation -/

theorem descFetch_slot {s : State} {q : Nat} (hn : s.nextFetch = some q) (hj : s.jobOf SCH_JOB_W0_FQ q = none) :
    s.fetchSlot q = some (s.get (CMD_Q_PTR_HEAD q), none) ∧ s.flag (CMD_Q_CFG_ENABLE q) = true ∧
      s.flag (VIRT_FN_W5_QUIESCED (s.qFn q)) = false := by
  have hsome := fetchSlot_of_nextFetch hn
  rw [fetchSlot_eq hj] at hsome ⊢
  split_ifs at hsome ⊢ with h
  · cases hsome
  · simp only [not_or, Bool.not_eq_false, Bool.not_eq_true] at h
    obtain ⟨-, -, hen, -, hquiet, -⟩ := h
    exact ⟨rfl, hen, hquiet⟩

/-- Settles O16: the turn and the slot of a fetch, the two ways in which it ends, and the guard of a wait's limit. -/
theorem fetchAndWaitLimit : Obligations.FetchAndWaitLimit := by
  refine ⟨fun q s => ⟨fun ok => exec_descriptorFetch_idle ok, fun hj hstop hn => ?_, fun hn hfq hpq hq => ?_⟩,
    fun i d s hd => ?_⟩
  · have hsome := fetchSlot_of_nextFetch hn
    rw [fetchSlot_eq hj, if_pos hstop] at hsome
    cases hsome
  · obtain ⟨hslot, hen, hquiet⟩ := descFetch_slot hn hfq
    intro hd bus n c
    obtain ⟨-, hdescs, hid, hnow, -, hmem, hhost, hstop⟩ := countFetch_keeps s (s.qFn q)
    refine ⟨fun hbus => ?_, fun ok hbad => ?_⟩
    · intro u
      have hjob : c.jobOf SCH_JOB_W0_PQ q = none := (jobOf_countFetch s _ _ q).trans hpq
      obtain ⟨hd1, hid1, hmem1, hhost1, hstop1⟩ := fetched_effect hd (s.hostBytes bus 64) hq hjob
      obtain ⟨hhead, htail⟩ := fetched_ptr hd (s.hostBytes bus 64) hq hjob
      rw [hdescs] at hd1
      rw [hid] at hid1
      rw [get_countFetch] at hhead htail
      exact ⟨exec_descriptorFetch_copied hn hslot hbus, c.newDesc q hd (s.hostBytes bus 64), hd1, rfl, rfl, rfl, rfl,
        congrArg BitVec.toNat hnow, hid, hid1, hhead, htail, hmem1.trans hmem, hhost1.trans hhost, hstop1.trans hstop⟩
    · intro u
      have hfn : c.qFn q = s.qFn q := get_countFetch s _ _
      obtain ⟨hd1, hcont, hframe⟩ := fetchFailed_only c q hd bus
      obtain ⟨hhead, herr, hidx, hstate⟩ := fetchFailed_regs (s := c) bus ((flag_countFetch s _ _).trans hen)
        (hfn ▸ (flag_countFetch s _ _).trans hquiet)
      rw [hdescs] at hd1
      rw [get_countFetch] at hhead herr hidx hstate
      exact ⟨exec_descriptorFetch_failed hn hslot hbad, c.failedDesc q hd bus, hd1, rfl, rfl, rfl, rfl, rfl, rfl, rfl, rfl,
        rfl, hhead, herr, hidx, hstate, hcont, hframe⟩
  · intro ms
    have hlimit : msTicks ms = 800000 * ms := Nat.mul_comm ms 800000
    refine ⟨fun h => ?_, fun hw hms hlate => ?_⟩
    · rw [← hlimit] at h
      exact (exec_semTimeout hd).trans (congrArg _ (if_pos h))
    · intro v u
      rw [← hlimit] at hlate
      refine ⟨(exec_semTimeout hd).trans (congrArg _ (if_neg ?_)), fun hpb hsem => ?_⟩
      · exact not_or.mpr ⟨not_not.mpr hw, not_or.mpr ⟨hms, Nat.not_le.mpr hlate⟩⟩
      · have hv : v = s := get_declOuts_unread hpb
        have hu : u = s.emitDesc d 36 0x09 0 (waitA (s.semOf d d.waitIdx) d.waitTgt)
            (s.get (CMD_SEM_COUNT (s.semOf d d.waitIdx))) :=
          congrArg (fun x : State => x.emitDesc d 36 0x09 0 (waitA (s.semOf d d.waitIdx) d.waitTgt)
            (x.get (CMD_SEM_COUNT (s.semOf d d.waitIdx)))) hv
        rw [hu]
        refine ⟨get_of_reg (reg_emitDesc _ _ _ _ _ _ _ _ (.inl ?_)), still_emitDesc _ _ _ _ _ _ _⟩
        simp only [CMD_SEM_COUNT, CMD_SEM]
        omega

end Sys2Proof.Machine
end

section
/-!
SUPPORT. Dispatch by the verdict of the check, and the records of what ends undispatched and of what is dispatched (R57, R60,
R65, R474), with the obligation on dispatch.
-/

namespace Sys2Proof.Machine

/-! ### A descriptor and its update -/

theorem id_of_desc? {s : State} {i : Nat} {d : Desc} (h : s.desc? i = some d) : d.id = i :=
  beq_iff_eq.mp (List.find?_some (p := fun d : Desc => d.id == i) h)

/-- An update that keeps numbers is what the descriptor reads as afterwards. -/
theorem desc?_updDesc {s : State} {i : Nat} {d : Desc} (f : Desc → Desc) (h : s.desc? i = some d) (hf : ∀ x, (f x).id = x.id) :
    (s.updDesc i f).desc? i = some (f d) := by
  have hid : ∀ x : Desc, (if x.id = i then f x else x).id = x.id := fun x => by
    split_ifs
    · exact hf x
    · rfl
  show (s.descs.map (fun d => if d.id = i then f d else d)).find? (fun d => d.id == i) = some (f d)
  rw [List.find?_map, show (fun d : Desc => d.id == i) ∘ (fun d => if d.id = i then f d else d) = fun d => d.id == i from
    funext fun x => congrArg (· == i) (hid x)]
  rw [show s.descs.find? (fun d => d.id == i) = some d from h, Option.map_some, if_pos (id_of_desc? h)]

theorem desc?_congr {s t : State} (h : t.descs = s.descs) (i : Nat) : t.desc? i = s.desc? i := by
  rw [State.desc?, h]
  rfl

/-! ### Dispatch by its verdict -/

theorem exec_descriptorDispatch {s : State} {i : Nat} {d : Desc} (h : s.desc? i = some d) :
    exec (.descriptorDispatch i) s = .next (if s.mayDispatch d then (s.dispatch d).settle else s) := by
  show execDescriptorDispatch i s = _
  unfold execDescriptorDispatch
  rw [h]

theorem verdict_eq {s : State} {d : Desc} {v : Verdict} (h : (s.verdict d).2 = v) : s.verdict d = ((s.verdict d).1, v) :=
  Prod.ext rfl h

/-- A malformed descriptor ends without its signal and stops its queue (R65). -/
def State.malformedEnd (s : State) (d : Desc) (c x : Nat) : State :=
  (((s.verdict d).1.endUndisp d.id c x [] false).unfetch d).stopQueue d.q d.idx (CMD_Q_ERR_MALFORMED d.q)

theorem dispatch_stop_queue {s : State} {d : Desc} {c x : Nat} (h : (s.verdict d).2 = .stop c x)
    (hj : d.job = none ∨ d.program = false) : s.dispatch d = s.malformedEnd d c x := by
  unfold State.dispatch
  rw [verdict_eq h]
  dsimp only
  rcases hj with hj | hj
  · rw [hj]
    rfl
  · rw [hj]
    split <;> rfl

theorem dispatch_stop_program {s : State} {d : Desc} {c x j : Nat} (h : (s.verdict d).2 = .stop c x) (hj : d.job = some j)
    (hp : d.program = true) :
    s.dispatch d = (s.malformedEnd d c x).setJob j
      { (s.malformedEnd d c x).job j with stop := ((s.malformedEnd d c x).job j).next } := by
  unfold State.dispatch
  rw [verdict_eq h]
  dsimp only
  rw [hj, hp]
  rfl

theorem dispatch_pbRead {s : State} {d : Desc} {c x : Nat} (h : (s.verdict d).2 = .pbRead c x) :
    s.dispatch d = (s.verdict d).1.endUndisp d.id c x [] true := by
  unfold State.dispatch
  rw [verdict_eq h]

theorem dispatch_refuse {s : State} {d : Desc} {c x : Nat} {o : List (Nat × Nat)} (h : (s.verdict d).2 = .refuse c x o) :
    s.dispatch d = ((s.verdict d).1.refusalLog d c).endUndisp d.id c x o true := by
  unfold State.dispatch
  rw [verdict_eq h]

theorem dispatch_wait {s : State} {d : Desc} (h : (s.verdict d).2 = .wait) : s.dispatch d = (s.verdict d).1 := by
  unfold State.dispatch
  rw [verdict_eq h]

/-- What becomes of a descriptor that passes its check, by the islands chosen for it (R348, R350). -/
def State.placed (s : State) (d : Desc) (p : Plan) : Option (List Nat × List Nat) → State
  | none => s.hold d p
  | some (all, go) => if s.outranked d all p.units then s else s.dispatchOn d p all go

/-- A descriptor that passes its check waits for a record slot, then for its unit and its engines (R60, R350). -/
theorem dispatch_go {s : State} {d : Desc} {p : Plan} (h : (s.verdict d).2 = .go p) :
    s.dispatch d =
      if (s.verdict d).1.freeSlots (s.qGroup d.q) = 0 ∨ (s.verdict d).1.endedOf (s.qGroup d.q) ≠ []
      then (s.verdict d).1.refreshGroup (s.qGroup d.q)
      else if (s.verdict d).1.unitFull d then (s.verdict d).1
      else (s.verdict d).1.placed d p ((s.verdict d).1.choose d p) := by
  unfold State.dispatch
  rw [verdict_eq h]
  refine if_congr ?_ rfl (if_congr Iff.rfl rfl ?_)
  · rw [Bool.not_eq_true', List.isEmpty_eq_false_iff]
  · dsimp only
    rcases (s.verdict d).1.choose d p with _ | ⟨all, go⟩ <;> rfl

/-! ### The records (R60, R65, R474) -/

/-- The record of a descriptor that has ended undispatched, `n`-th of all ends. -/
def Desc.endedWith (d : Desc) (status detail n : Nat) (signal : Bool) : Desc :=
  { d with phase := .ended, status := status, detail := detail, unitId := 0xFF, step := n, noSignal := !signal }

/-- A ready descriptor that ends undispatched waits on no semaphore. -/
theorem endUndisp_ready {s : State} {i : Nat} {d : Desc} (c x : Nat) (sig : Bool) (h : s.desc? i = some d)
    (hp : d.phase = .ready) :
    s.endUndisp i c x [] sig =
      ({ s with seq := s.seq + 1 } : State).updDesc i (fun d => d.endedWith c x (s.seq + 1) sig) := by
  unfold State.endUndisp
  rw [h]
  dsimp only
  rw [hp, if_neg (by decide), if_neg (by decide)]
  rfl

theorem desc?_endUndisp {s : State} {i : Nat} {d : Desc} (c x : Nat) (sig : Bool) (h : s.desc? i = some d)
    (hp : d.phase = .ready) : (s.endUndisp i c x [] sig).desc? i = some (d.endedWith c x (s.seq + 1) sig) := by
  rw [endUndisp_ready c x sig h hp]
  exact desc?_updDesc _ ((desc?_congr rfl i).trans h) fun _ => rfl

/-- The record of a descriptor dispatched on the islands `all` at counter value `c`, none of its parts started. -/
def Desc.dispatchedOn (d : Desc) (c : Nat) (p : Plan) (all : List Nat) : Desc :=
  { d with
    phase := .dispatched, dispC := c, slot := true, step := if p.auto = 3 then all.length else 0
    outs := p.outs all, rows := p.rows all
    parts := all.mapIdx (fun n i => (⟨i, p.units, .notStarted, 0, 0, 0, 0, 0, 0, 0, 0, false, false, n⟩ : Part)) }

theorem isls_dispatchedOn (d : Desc) (c : Nat) (p : Plan) (all : List Nat) : (d.dispatchedOn c p all).isls = all := by
  refine List.ext_getElem ?_ fun n h1 h2 => ?_
  · simp [Desc.isls, Desc.dispatchedOn]
  · simp [Desc.isls, Desc.dispatchedOn]

theorem descs_wakeIsls (s : State) (l : List Nat) : (s.wakeIsls l).descs = s.descs :=
  foldl_keeps State.descs _ (fun u i => by split_ifs <;> rfl) l s

theorem desc?_dispatchOn {s : State} {d : Desc} (p : Plan) (all : List Nat) (h : s.desc? d.id = some d) :
    (s.dispatchOn d p all []).desc? d.id = some (d.dispatchedOn s.c p all) := by
  have hdescs : (s.dispatchOn d p all []).descs = (s.updDesc d.id (fun x => x.dispatchedOn s.c p all)).descs := by
    unfold State.dispatchOn
    exact (put_descs _ _ _).trans (descs_wakeIsls _ _)
  exact (desc?_congr hdescs d.id).trans (desc?_updDesc _ h fun _ => rfl)

/-- Settles O17, by the verdict of the check and, where it passes, by what the descriptor still waits for. -/
theorem dispatchChecksThenPlaces : Obligations.DispatchChecksThenPlaces := by
  refine ⟨fun i d s hd => ⟨fun hm => ?_, fun hm => ?_⟩, fun i c x sig d s hd hp => ⟨?_, fun p all => ?_⟩⟩
  · exact (exec_descriptorDispatch hd).trans (congrArg _ (if_neg (Bool.eq_false_iff.mp hm)))
  · have hid := id_of_desc? hd
    subst hid
    have hexec := (exec_descriptorDispatch hd).trans (congrArg _ (if_pos hm))
    intro s1 g
    refine ⟨fun c x hv => ⟨fun hj => ?_, fun j hj hprog => ?_⟩, fun c x hv => ?_, fun c x o hv => ?_, fun hv => ?_,
      fun p hv => ?_⟩
    · exact hexec.trans (by rw [dispatch_stop_queue hv hj]; rfl)
    · exact hexec.trans (by rw [dispatch_stop_program hv hj hprog]; rfl)
    · exact hexec.trans (by rw [dispatch_pbRead hv])
    · exact hexec.trans (by rw [dispatch_refuse hv])
    · exact hexec.trans (by rw [dispatch_wait hv])
    · intro full
      have hgo := hexec.trans (congrArg (fun u : State => Host.Outcome.next u.settle) (dispatch_go hv))
      refine ⟨fun hf => hgo.trans ?_, fun hf hu => hgo.trans ?_, fun hf hu hc => hgo.trans ?_,
        fun all go hf hu hc => hgo.trans ?_⟩ <;>
        refine congrArg (fun u : State => Host.Outcome.next u.settle) ?_
      · exact if_pos hf
      · exact (if_neg hf).trans (if_pos hu)
      · exact (if_neg hf).trans ((if_neg (Bool.eq_false_iff.mp hu)).trans (congrArg (s1.placed d p) hc))
      · exact (if_neg hf).trans ((if_neg (Bool.eq_false_iff.mp hu)).trans (congrArg (s1.placed d p) hc))
  · exact ⟨_, desc?_endUndisp c x sig hd hp, rfl, rfl, rfl, rfl, rfl, rfl, rfl⟩
  · have hid := id_of_desc? hd
    subst hid
    exact ⟨_, desc?_dispatchOn p all hd, rfl, rfl, rfl, rfl, isls_dispatchedOn d s.c p all, rfl⟩

end Sys2Proof.Machine
end

section
/-!
SUPPORT. Work that one command does whole, trace events while nothing traces, and additions to semaphores (R55, R64, R71),
with the obligation on the common opcodes.
-/

namespace Sys2Proof.Machine

/-! ### Work of one command (R55, R64) -/

theorem runnable_of_effected {d : Desc} (h : d.effected = true) (opc : Nat) : d.runnable opc = false := by
  simp [Desc.runnable, h]

theorem ownWork_idle {s : State} {i opc : Nat} {d : Desc} (isl : Nat) (work : Desc → Eng (Nat × Nat)) (hd : s.desc? i = some d)
    (hr : d.runnable opc = false) : s.ownWork i opc isl work = s := by
  unfold State.ownWork
  rw [hd]
  dsimp only
  rw [hr]
  rfl

/-- The end of a part with the status of its work, and what follows by itself. -/
def State.endPart (s : State) (i isl st dt : Nat) : State :=
  (({ s with seq := s.seq + 1 } : State).finishPart i isl st dt).settle

theorem ownWork_done {s u : State} {i opc st dt : Nat} {d : Desc} (isl : Nat) {work : Desc → Eng (Nat × Nat)}
    (hd : s.desc? i = some d) (hr : d.runnable opc = true) (hw : (work d).run.run s = (.ok (st, dt), u)) :
    s.ownWork i opc isl work = u.endPart i isl st dt := by
  unfold State.ownWork
  rw [hd]
  dsimp only
  rw [hr, hw]
  rfl

theorem ownWork_failed {s u : State} {i opc c x : Nat} {d : Desc} (isl : Nat) {work : Desc → Eng (Nat × Nat)}
    (hd : s.desc? i = some d) (hr : d.runnable opc = true) (hw : (work d).run.run s = (.error (.fail c x), u)) :
    s.ownWork i opc isl work = u.endPart i isl c x := by
  unfold State.ownWork
  rw [hd]
  dsimp only
  rw [hr, hw]
  rfl

theorem workNop_run (d : Desc) (s : State) : (workNop d).run.run s = (.ok (0, 0), s) := rfl

theorem workSemWrite_set {d : Desc} (s : State) (h : bitOf (d.u 16 2) 12 = false) :
    (workSemWrite d).run.run s = (.ok (0, 0), s.semSet (s.semOf d (bitsOf (d.u 16 2) 0 12)) (d.u 20 4)) := by
  unfold workSemWrite
  rw [eng_get, h]
  rfl

theorem workSemWrite_add {d : Desc} (s : State) (h : bitOf (d.u 16 2) 12 = true) :
    (workSemWrite d).run.run s =
      (.ok (if (s.descAdd d (s.semOf d (bitsOf (d.u 16 2) 0 12)) (d.u 20 4) 1).2 then (0x02, bitsOf (d.u 16 2) 0 12)
          else (0, 0)),
        (s.descAdd d (s.semOf d (bitsOf (d.u 16 2) 0 12)) (d.u 20 4) 1).1) := by
  unfold workSemWrite
  rw [eng_get, h]
  rfl

theorem eWrite_done {r : MReq} {own : Bool} {c a : Nat} {bs : List Byte} {s u : State}
    (h : s.writeMem r own c a bs = (u, none)) : (eWrite r own c a bs).run.run s = (.ok (), u) := by
  unfold eWrite
  simp only [ExceptT.run_mk, StateT.run, h]

theorem eWrite_refused {r : MReq} {own : Bool} {c a : Nat} {bs : List Byte} {e : MErr} {s u : State}
    (h : s.writeMem r own c a bs = (u, some e)) : (eWrite r own c a bs).run.run s = (.error e, u) := by
  unfold eWrite
  simp only [ExceptT.run_mk, StateT.run, h]

theorem workTimestamp_done {d : Desc} {s u : State}
    (h : s.writeMem (s.mreq d 36) false 0 d.a16 (leBytes 8 s.beacon) = (u, none)) :
    (workTimestamp d).run.run s = (.ok (0, 0), u) := by
  unfold workTimestamp
  rw [eng_get, eng_bind, eWrite_done h]
  rfl

theorem workTimestamp_refused {d : Desc} {e : MErr} {s u : State}
    (h : s.writeMem (s.mreq d 36) false 0 d.a16 (leBytes 8 s.beacon) = (u, some e)) :
    (workTimestamp d).run.run s = (.error e, u) := by
  unfold workTimestamp
  rw [eng_get, eng_bind, eWrite_refused h]

theorem workDbgMark_run (d : Desc) (s : State) :
    (workDbgMark d).run.run s = (.ok (0, 0), s.emitDesc d 36 0x10 0 (d.u 16 4) (d.u 24 8)) := rfl

/-! ### Events while nothing traces (R575 to R578) -/

/-- Neither the trace writer nor a trigger takes events. -/
def State.Untraced (s : State) : Prop :=
  s.flag DBG_TRACE_CFG_EN = false ∧ ∀ t, t < 4 → s.flag (DBG_TRIG_W2_EN t) = false

/-- Without a trigger an event fires none. -/
theorem foldl_triggers_untraced {s : State} (h : s.Untraced) (e : Event) :
    (List.range 4).foldl (fun s t => if s.trigMatch t e then s.trigFire t e else s) s = s := by
  have hstep : ∀ t, t < 4 → (if s.trigMatch t e then s.trigFire t e else s) = s := fun t ht => by
    rw [State.trigMatch, h.2 t ht]
    rfl
  show (List.foldl _ s [0, 1, 2, 3]) = s
  simp only [List.foldl_cons, List.foldl_nil, hstep 0 (by decide), hstep 1 (by decide), hstep 2 (by decide),
    hstep 3 (by decide)]

/-- An event then reaches its island's ring only, and no register. -/
theorem regs_emit_untraced {s : State} (h : s.Untraced) (e : Event) : (s.emit e).regs = s.regs := by
  have hring : ∀ (b : Bool) (x : TraceSt), (if b = true then s else { s with trace := x }).Untraced := fun b x => by
    cases b <;> exact h
  have hoff : ∀ (b : Bool) (x : TraceSt), (if b = true then s else { s with trace := x }).flag DBG_TRACE_CFG_EN = false :=
    fun b x => (hring b x).1
  simp only [State.emit, foldl_triggers_untraced (hring _ _), hoff, Bool.not_false, if_true, apply_ite State.regs, ite_self]

theorem regs_emitDesc_untraced {s : State} (h : s.Untraced) (d : Desc) (isl k st x y : Nat) :
    (s.emitDesc d isl k st x y).regs = s.regs := by
  unfold State.emitDesc
  split_ifs
  · rfl
  · exact regs_emit_untraced h _

/-! ### Additions to a semaphore (R71) -/

/-- COUNT and SATURATED after an addition. -/
def State.semSummed (s : State) (i n : Nat) : State :=
  if decide (0xFFFFFFFF < s.get (CMD_SEM_COUNT i) + n)
  then (s.put (CMD_SEM_COUNT i) (satN 32 (s.get (CMD_SEM_COUNT i) + n))).put (CMD_SEM_SATURATED i) 1
  else s.put (CMD_SEM_COUNT i) (satN 32 (s.get (CMD_SEM_COUNT i) + n))

/-- The addition noted with its signaller. -/
def State.semSigned (s : State) (i : Nat) (g : Signaller) : State :=
  { s with signallers := mset (fun _ => none) s.signallers i (some g) }

theorem reg_of_regs {s t : State} (h : t.regs = s.regs) (b : Nat) : t.reg b = s.reg b := by
  rw [State.reg, h]
  rfl

theorem onlyRegs_semSummed (s : State) (i n : Nat) : OnlyRegs [CMD_SEM i] s (s.semSummed i n) := by
  unfold State.semSummed
  split_ifs
  · exact ((onlyRegs_put s (CMD_SEM_COUNT i) _).trans (onlyRegs_put _ (CMD_SEM_SATURATED i) 1)).mono
      (by simp [CMD_SEM_COUNT, CMD_SEM_SATURATED])
  · exact onlyRegs_put s (CMD_SEM_COUNT i) _

/-- The sum saturates at the largest COUNT and says so; MODE stays. -/
theorem semSummed_fields (s : State) (i n : Nat) :
    (s.semSummed i n).get (CMD_SEM_COUNT i) = min (s.get (CMD_SEM_COUNT i) + n) 0xFFFFFFFF ∧
    (s.semSummed i n).get (CMD_SEM_SATURATED i) =
      (if 0xFFFFFFFF < s.get (CMD_SEM_COUNT i) + n then 1 else s.get (CMD_SEM_SATURATED i)) ∧
    (s.semSummed i n).get (CMD_SEM_MODE i) = s.get (CMD_SEM_MODE i) := by
  have hsum : ∀ m, satN 32 m < 2 ^ (CMD_SEM_COUNT i).w := fun m => by
    simp only [satN, CMD_SEM_COUNT]
    omega
  have hcount := fun m => get_put_fits s (CMD_SEM_COUNT i) (satN 32 m) (by simp [CMD_SEM_COUNT]) (hsum m)
  have hkept : ∀ (f : Fref) m, 32 ≤ f.lo → (s.put (CMD_SEM_COUNT i) m).get f = s.get f := fun f m hf =>
    get_put_disjoint s (CMD_SEM_COUNT i) f m (by simp [CMD_SEM_COUNT]) (.inr hf)
  unfold State.semSummed
  simp only [decide_eq_true_eq]
  split_ifs
  · refine ⟨(get_put_disjoint _ (CMD_SEM_SATURATED i) _ 1 ?_ ?_).trans (hcount _), get_put_fits _ (CMD_SEM_SATURATED i) 1 ?_ ?_,
      (get_put_disjoint _ (CMD_SEM_SATURATED i) _ 1 ?_ ?_).trans (hkept _ _ ?_)⟩
    all_goals simp [CMD_SEM_SATURATED, CMD_SEM_COUNT, CMD_SEM_MODE]
  · exact ⟨hcount _, hkept _ _ (by simp [CMD_SEM_SATURATED]), hkept _ _ (by simp [CMD_SEM_MODE])⟩

/-- Which descriptors wait on a semaphore hangs on no semaphore's register. -/
theorem waitersOf_congr {s t : State} {i : Nat} (j : Nat) (hi : i < 4096) (hd : t.descs = s.descs)
    (hr : ∀ b, b ≠ CMD_SEM i → t.reg b = s.reg b) : t.waitersOf j = s.waitersOf j := by
  have hfn : ∀ q, t.qFn q = s.qFn q := fun q => get_of_reg (hr _ (by
    simp only [CMD_Q_CFG_FUNC, CMD_Q_CFG, CMD_SEM]
    omega))
  have hbase : ∀ f, t.get (VIRT_FN_W1_SEMBASE f) = s.get (VIRT_FN_W1_SEMBASE f) := fun f => get_of_reg (hr _ (by
    simp only [VIRT_FN_W1_SEMBASE, VIRT_FN_W1, CMD_SEM]
    omega))
  have hsem : ∀ d k, t.semOf d k = s.semOf d k := fun d k => by
    simp only [State.semOf, hfn, hbase]
  unfold State.waitersOf
  simp only [hd, hsem]

theorem descAdd_steps (s : State) (d : Desc) (i n src : Nat) :
    ∃ g a b, s.descAdd d i n src = ((((s.semSummed i n).semSigned i g).emitDesc d 36 0x08 0 a b).serve i,
      decide (0xFFFFFFFF < s.get (CMD_SEM_COUNT i) + n)) := ⟨_, _, _, rfl⟩

/-- An addition while nothing traces and nobody waits changes the semaphore's own register and no other. -/
theorem descAdd_alone {s : State} {i : Nat} (d : Desc) (n src : Nat) (hi : i < 4096) (hw : s.waitersOf i = [])
    (hu : s.Untraced) :
    (s.descAdd d i n src).1.regs = (s.semSummed i n).regs ∧
      (s.descAdd d i n src).2 = decide (0xFFFFFFFF < s.get (CMD_SEM_COUNT i) + n) := by
  obtain ⟨g, a, b, hadd⟩ := descAdd_steps s d i n src
  obtain ⟨hframe, hreg⟩ := onlyRegs_semSummed s i n
  have hdbg : ∀ c, 0x1500000 ≤ c → (s.semSummed i n).reg c = s.reg c := fun c hc => hreg c (by
    simp only [CMD_SEM, List.mem_singleton]
    omega)
  have hquiet : ((s.semSummed i n).semSigned i g).Untraced := by
    refine ⟨(congrArg (· == 1) (get_of_reg (f := DBG_TRACE_CFG_EN) (hdbg _ (by decide)))).trans hu.1, fun t ht => ?_⟩
    exact (congrArg (· == 1) (get_of_reg (f := DBG_TRIG_W2_EN t) (hdbg _ (by
      simp only [DBG_TRIG_W2_EN, DBG_TRIG_W2]
      omega)))).trans (hu.2 t ht)
  have hregs := regs_emitDesc_untraced hquiet d 36 0x08 0 a b
  have hdescs : (((s.semSummed i n).semSigned i g).emitDesc d 36 0x08 0 a b).descs = s.descs :=
    (congrArg State.descs (still_emitDesc _ _ _ _ _ _ _) :).trans (congrArg State.descs hframe :)
  have hnone : (((s.semSummed i n).semSigned i g).emitDesc d 36 0x08 0 a b).waitersOf i = [] :=
    (waitersOf_congr i hi hdescs fun c hc =>
      (reg_of_regs hregs c).trans (hreg c (List.mem_singleton.not.mpr hc))).trans hw
  rw [hadd, State.serve, hnone]
  exact ⟨hregs, rfl⟩

/-- Settles O18: each opcode's work as its engine runs it, and an addition by the sum that COUNT takes. -/
theorem commonOpcodesAndSemaphores : Obligations.CommonOpcodesAndSemaphores := by
  refine ⟨fun i d s hd => ?_, fun d i n src s hi hw hen htrig => ?_⟩
  · intro done sem
    refine ⟨fun hr => ?_, fun hr hset => ?_, fun hr hadd => ?_, fun hr u hu => ?_, fun hr u c x hu => ?_,
      fun hr => ?_, fun he => ?_⟩
    · exact congrArg Host.Outcome.next (ownWork_done 36 hd hr (workNop_run d s))
    · exact congrArg Host.Outcome.next (ownWork_done 36 hd hr (workSemWrite_set s hset))
    · intro r
      have hwork := workSemWrite_add s hadd
      cases hsat : r.2
      · rw [show (s.descAdd d _ _ 1).2 = false from hsat] at hwork
        exact congrArg Host.Outcome.next (ownWork_done 36 hd hr hwork)
      · rw [show (s.descAdd d _ _ 1).2 = true from hsat] at hwork
        exact congrArg Host.Outcome.next (ownWork_done 36 hd hr hwork)
    · exact congrArg Host.Outcome.next (ownWork_done 36 hd hr (workTimestamp_done hu))
    · exact congrArg Host.Outcome.next (ownWork_failed 36 hd hr (workTimestamp_refused hu))
    · exact congrArg Host.Outcome.next (ownWork_done 36 hd hr (workDbgMark_run d s))
    · have hidle : ∀ opc work, s.ownWork i opc 36 work = s := fun opc work =>
        ownWork_idle 36 work hd (runnable_of_effected he opc)
      exact ⟨congrArg Host.Outcome.next (hidle 0x00 workNop), congrArg Host.Outcome.next (hidle 0x01 workSemWrite),
        congrArg Host.Outcome.next (hidle 0x02 workTimestamp), congrArg Host.Outcome.next (hidle 0xE1 workDbgMark)⟩
  · intro r
    obtain ⟨hregs, hsat⟩ := descAdd_alone d n src hi hw ⟨hen, htrig⟩
    obtain ⟨hcount, hsatd, hmode⟩ := semSummed_fields s i n
    have hget : ∀ f, r.1.get f = (s.semSummed i n).get f := fun f => get_of_reg (reg_of_regs hregs f.off)
    refine ⟨(hget _).trans hcount, ?_, (hget _).trans hsatd, (hget _).trans hmode, fun b hb => ?_⟩
    · rw [show r.2 = _ from hsat, decide_eq_true_eq]
    · exact (reg_of_regs hregs b).trans ((onlyRegs_semSummed s i n).2 b (List.mem_singleton.not.mpr hb))

end Sys2Proof.Machine
end

section
/-!
SUPPORT. The work of the engines and the end of a part (R55, R64, R350), with the obligation on them.
-/

namespace Sys2Proof.Machine

/-! ### Work of the engines -/

/-- What the engines' work leaves: results of the parts, or only the requests of a wait (R350, R457). -/
def State.afterWork (s : State) (i : Nat) (d : Desc) : Except MErr (List PartRes) × State → State
  | (.ok rs, s1) => (if s.secureDesc d then s.keepCounters s1 else s1).setResults i rs
  | (.error (.fail c x), s1) =>
    (if s.secureDesc d then s.keepCounters s1 else s1).setResults i (d.todo.map (fun a => (a, c, x)))
  | (.error .wait, s1) => s.keepRequests s1

theorem runWork_runs {s : State} {i opc : Nat} {d : Desc} (work : Desc → Eng (List PartRes)) (hd : s.desc? i = some d)
    (hr : d.runnable opc = true) (hc : s.clocked d = true) :
    s.runWork i opc work = s.afterWork i d ((work d).run.run s) := by
  unfold State.runWork
  rw [hd]
  dsimp only
  rw [hr, hc]
  rcases (work d).run.run s with ⟨_ | _, s1⟩
  · next e => cases e <;> rfl
  · rfl

theorem runWork_idle {s : State} {i opc : Nat} {d : Desc} (work : Desc → Eng (List PartRes)) (hd : s.desc? i = some d)
    (hr : d.runnable opc = false) : s.runWork i opc work = s := by
  unfold State.runWork
  rw [hd]
  dsimp only
  rw [hr]
  rfl

/-! ### The end of a part (R64, R350) -/

/-- The parts of an island are done, `n`-th of all ends. -/
def Desc.partEnded (d : Desc) (isl n : Nat) : Desc :=
  { d with parts := d.parts.map (fun p => if p.isl = isl then { p with st := .done, fin := n } else p) }

theorem exec_engineComplete {s : State} {i : Nat} {d : Desc} (isl : Nat) (hd : s.desc? i = some d) :
    exec (.engineComplete i isl) s = .next (
      if d.phase == .dispatched && d.parts.any (fun p => p.isl == isl && p.active && p.worked)
      then (({ s with seq := s.seq + 1 } : State).partDone i isl).ddrCheck.settle.refreshLtr else s) := by
  show execEngineComplete i isl s = _
  unfold execEngineComplete
  rw [hd]

theorem any_worked_iff (l : List Part) (isl : Nat) :
    l.any (fun p => p.isl == isl && p.active && p.worked) = true ↔
      ∃ p ∈ l, p.isl = isl ∧ p.active = true ∧ p.worked = true := by
  simp only [List.any_eq_true, Bool.and_eq_true, beq_iff_eq, and_assoc]

theorem countBusy_shared (s : State) (d : Desc) {p : Part} (h : 4 ≤ p.isl) : s.countBusy d p = s := by
  rw [State.countBusy, decide_eq_false (Nat.not_lt.mpr h)]
  rfl

theorem worldReturn_shared (s : State) {isl : Nat} (h : 4 ≤ isl) : s.worldReturn isl = s := by
  rw [State.worldReturn, decide_eq_false (Nat.not_lt.mpr h)]
  rfl

/-- Away from the arrays the mark is all that the end of a part leaves. -/
theorem partDone_shared {s : State} {i isl : Nat} {d : Desc} (hd : s.desc? i = some d) (hi : 4 ≤ isl) :
    s.partDone i isl = s.updDesc i (fun e => e.partEnded isl s.seq) := by
  have hbusy : (d.parts.filter (fun p => p.isl == isl)).foldl (fun s p => s.countBusy d p) s = s := by
    rw [List.foldl_filter]
    refine foldl_keeps id _ (fun u p => ?_) _ s
    split_ifs with hp
    · exact countBusy_shared u d (beq_iff_eq.mp hp ▸ hi)
    · rfl
  unfold State.partDone
  rw [hd]
  dsimp only
  rw [hbusy, decide_eq_false (Nat.not_lt.mpr hi)]
  simp only [Bool.false_and, Bool.false_eq_true, if_false, worldReturn_shared _ hi, ite_self]
  rfl

/-- Settles O19: all commands of the table run their work in one way, and the end of a part is that of an island. -/
theorem engineWorkActsOnce : Obligations.EngineWorkActsOnce := by
  refine ⟨fun i d s hd => ?_, fun i isl d s hd => ⟨fun h => ?_, fun hp hw => ?_⟩⟩
  · intro counted k hk
    have hwork : ∀ (c : Instr) (opc : Nat) (work : Desc → Eng (List PartRes)),
        exec c s = .next (s.runWork i opc work) →
        (d.runnable opc = true → s.clocked d = true → exec c s = .next (s.afterWork i d ((work d).run.run s))) ∧
          (d.effected = true → exec c s = .next s) := fun c opc work hx =>
      ⟨fun hr hc => hx.trans (congrArg _ (runWork_runs work hd hr hc)),
        fun he => hx.trans (congrArg _ (runWork_idle work hd (runnable_of_effected he opc)))⟩
    revert k
    simp only [List.forall_mem_cons, List.not_mem_nil, false_imp_iff, implies_true, and_true]
    exact ⟨hwork (.arrGemm i) 0x20 workArrGemm rfl, hwork (.arrAccDrain i) 0x21 workArrAccDrain rfl,
      hwork (.arrAccClear i) 0x22 workArrAccClear rfl, hwork (.winGroup i) 0x40 workWinGroup rfl,
      hwork (.winWinoPrep i) 0x41 prepWork rfl, hwork (.attRun i) 0x60 workAttRun rfl,
      hwork (.attMerge i) 0x61 workAttMerge rfl, hwork (.attKvAppend i) 0x62 appendWork rfl,
      hwork (.attTlbInval i) 0x63 workAttTlbInval rfl, hwork (.dmaCopy i) 0x10 workDmaCopy rfl,
      hwork (.dmaFill i) 0x11 workDmaFill rfl, hwork (.dmaClaim i) 0x12 workDmaClaim rfl,
      hwork (.dmaWload i) 0x13 workDmaWload rfl, hwork (.gfxTexSwizzle i) 0xA1 workGfxTexSwizzle rfl,
      hwork (.vecIcacheInval i) 0x81 workVecIcacheInval rfl⟩
  · refine (exec_engineComplete isl hd).trans (congrArg _ (if_neg ?_))
    rw [Bool.and_eq_true, any_worked_iff, beq_iff_eq]
    rintro ⟨hp, p, hpm, hisl, hact, hwork⟩
    rcases h with h | h
    · exact h hp
    · rcases h p hpm hisl with h | h
      · exact Bool.false_ne_true (h.symm.trans hact)
      · exact Bool.false_ne_true (h.symm.trans hwork)
  · intro u
    refine ⟨(exec_engineComplete isl hd).trans (congrArg _ (if_pos ?_)), fun hi => ?_⟩
    · rw [Bool.and_eq_true, any_worked_iff, beq_iff_eq]
      exact ⟨hp, hw⟩
    · exact partDone_shared ((desc?_congr rfl i).trans hd) hi

end Sys2Proof.Machine
end

section
/-!
SUPPORT. Region entries: what the table says of their words, the gate in front of them, and the three words applied at once
(R208, R209), with the obligation on them.
-/

namespace Sys2Proof.Machine

/-! ### Their fields in the table of block SPD -/

theorem blockTable_spd {off : Nat} (h : 0x500000 ≤ off) (h' : off < 0x600000) : blockTable off = regsSPD := by
  have h5 : off / 0x100000 = 5 := by omega
  rw [blockTable_block, h5]
  rfl

/-- The fields of word 0 of a region entry: EN, WR, W, CRIT, PART and BASE. -/
def rgnW0Fields : List FieldSpec :=
  [⟨0, 1, .rw, 0, .any⟩, ⟨1, 1, .rw, 0, .any⟩, ⟨2, 1, .rw, 0, .any⟩, ⟨3, 2, .rw, 0, .any⟩, ⟨5, 6, .rw, 0, .any⟩,
    ⟨12, 36, .rw, 0, .any⟩]

theorem fieldsAt_rgnW0 {i : Nat} (h : i < 128) : fieldsAt (MEM_RGN_W0 i) = rgnW0Fields := by
  unfold fieldsAt regAt MEM_RGN_W0
  rw [blockTable_spd (by omega) (by omega)]
  simp (disch := omega) [regsSPD, regAt.go, RegSpec.within, rgnW0Fields, if_neg, if_pos]

theorem fieldsAt_rgnW1 {i : Nat} (h : i < 128) : fieldsAt (MEM_RGN_W1 i) = [⟨12, 36, .rw, 0, .any⟩] := by
  unfold fieldsAt regAt MEM_RGN_W1
  rw [blockTable_spd (by omega) (by omega)]
  simp (disch := omega) [regsSPD, regAt.go, RegSpec.within, if_neg, if_pos]

/-! ### The gate in front of them (R209) -/

/-- The entries 0 to 15 are shut to all but Lantern. -/
theorem shut_lowRegion (s : State) {rq : Requester} {i : Nat} (hrq : rq ≠ .lantern) (hi : i < 16) :
    s.shut rq (MEM_RGN_W0 i) = some (0, 0x3F) := by
  have hlow : 0x510000 ≤ MEM_RGN_W0 i ∧ MEM_RGN_W0 i < 0x510200 := by
    unfold MEM_RGN_W0
    omega
  have hstaged : stagedIsland (MEM_RGN_W0 i) = none :=
    stagedIsland_none_of_table (by rw [blockTable_spd (by omega) (by omega)]; rfl)
  simp only [State.shut, if_neg hrq, controlIsland, hstaged, if_pos hlow]

/-- A write by a requester other than a virtual function to a register that is shut to it is logged and does nothing more. -/
theorem guarded_shut {s : State} {rq : Requester} {off k n : Nat} (f : State → State) (hr : s.reaches rq = true)
    (hv : isVf rq = false) (ha : s.answers off = true) (hs : s.shut rq off = some (k, n)) :
    s.guarded rq off f = s.secEvent off rq k n := by
  unfold State.guarded
  rw [hr, ha, hs]
  cases rq with
  | fn m =>
    obtain rfl : m = 0 := by simpa [isVf, rqFn] using hv
    rfl
  | keeper => rfl
  | debug => rfl
  | lantern => rfl

theorem exec_memRgnWord0Write (rq : Requester) (i : Nat) (v : Word64) (s : State) :
    exec (.memRgnWord0Write rq i v) s = .next (s.guarded rq (MEM_RGN_W0 i) (fun s => s.rgnWord0 i v.toNat)) := rfl

/-! ### Does an entry fit (R208)? -/

/-- The entry of the words `w0` and `w1` cannot be enabled. -/
def State.rgnBad (s : State) (w0 w1 : Nat) : Bool :=
  !s.pageInDram (bitsOf w0 12 36) || !s.pageInDram (bitsOf w1 12 36) || decide (bitsOf w1 12 36 < bitsOf w0 12 36) ||
    !s.flag (QOS_PART_EN (bitsOf w0 5 6)) || s.get (QOS_PART_CRIT (bitsOf w0 5 6)) != bitsOf w0 3 2 ||
    b2n (s.flag (QOS_PART_W (bitsOf w0 5 6))) != bitsOf w0 2 1

theorem b2n_flag (s : State) (f : Fref) (hw : f.w = 1) : b2n (s.flag f) = s.get f := by
  have h := get_lt s f
  rw [hw] at h
  have h01 : s.get f = 0 ∨ s.get f = 1 := by omega
  unfold State.flag
  rcases h01 with h0 | h1
  · rw [h0]
    rfl
  · rw [h1]
    rfl

theorem rgnBad_eq_false_iff (s : State) (w0 w1 : Nat) : s.rgnBad w0 w1 = false ↔
    s.pageInDram (bitsOf w0 12 36) = true ∧ s.pageInDram (bitsOf w1 12 36) = true ∧ bitsOf w0 12 36 ≤ bitsOf w1 12 36 ∧
      s.get (QOS_PART_EN (bitsOf w0 5 6)) = 1 ∧ s.get (QOS_PART_CRIT (bitsOf w0 5 6)) = bitsOf w0 3 2 ∧
      s.get (QOS_PART_W (bitsOf w0 5 6)) = bitsOf w0 2 1 := by
  unfold State.rgnBad
  rw [b2n_flag s _ rfl]
  simp only [Bool.or_eq_false_iff, Bool.not_eq_false', bne_eq_false_iff_eq, decide_eq_false_iff_not, Nat.not_lt,
    State.flag, beq_iff_eq, and_assoc]

/-! ### The words of an entry -/

/-- A field that any value may be written to takes the written bits. -/
theorem bitsOf_writeFields_any {fs : List FieldSpec} (new : Nat) {f : FieldSpec}
    (hd : fs.Pairwise (fun a b => a.lo + a.w ≤ b.lo ∨ b.lo + b.w ≤ a.lo)) (hf : f ∈ fs) (ha : f.acc = .rw) (ho : f.ok = .any)
    (hm : bitsOf mask64 f.lo f.w = 2 ^ f.w - 1) :
    bitsOf (writeFields fs false true 0 new mask64) f.lo f.w = bitsOf new f.lo f.w := by
  have h := writeActsByAccessType fs false true 0 new mask64 f hd hf hm
  simpa only [ha, ho, Accept.ok, if_true] using h

/-- Word 0 as an entry takes it: EN is cleared where the entry does not fit. -/
def rgnWord (bad : Bool) (w0 : Nat) : Nat := if bad then putBits w0 0 1 0 else w0

theorem bitsOf_rgnWord (bad : Bool) (w0 : Nat) {lo : Nat} (w : Nat) (h : 1 ≤ lo) :
    bitsOf (rgnWord bad w0) lo w = bitsOf w0 lo w := by
  unfold rgnWord
  split_ifs
  · exact bitsOf_putBits_above w0 0 1 0 lo w h
  · rfl

theorem bitsOf_rgnWord_en (bad : Bool) (w0 : Nat) : bitsOf (rgnWord bad w0) 0 1 = if bad then 0 else bitsOf w0 0 1 := by
  unfold rgnWord
  split_ifs
  · exact bitsOf_putBits w0 0 1 0
  · rfl

/-- The three words written by the access types of their fields. -/
def State.rgnStored (s : State) (i w0 w1 w2 : Nat) : State :=
  ((s.setReg (MEM_RGN_W0 i) (BitVec.ofNat 64 (writeFields (fieldsAt (MEM_RGN_W0 i)) false true 0 w0 mask64))).setReg
    (MEM_RGN_W1 i) (BitVec.ofNat 64 (writeFields (fieldsAt (MEM_RGN_W1 i)) false true 0 w1 mask64))).setReg
    (MEM_RGN_W2 i) (BitVec.ofNat 64 w2)

/-- The words as they stand after the write of word 0. -/
def State.rgnTaken (s : State) (i v : Nat) : State :=
  s.rgnStored i (rgnWord (s.rgnBad v (s.heldWord i 1)) v) (s.heldWord i 1) (s.heldWord i 2)

theorem onlyRegs_rgnStored (s : State) (i w0 w1 w2 : Nat) :
    OnlyRegs [MEM_RGN_W0 i, MEM_RGN_W1 i, MEM_RGN_W2 i] s (s.rgnStored i w0 w1 w2) :=
  ((onlyRegs_setReg s (MEM_RGN_W0 i) _).trans (onlyRegs_setReg _ (MEM_RGN_W1 i) _)).trans
    (onlyRegs_setReg _ (MEM_RGN_W2 i) _)

/-- The registers of one entry differ. -/
theorem rgnWords_ne (i : Nat) : MEM_RGN_W0 i ≠ MEM_RGN_W1 i ∧ MEM_RGN_W0 i ≠ MEM_RGN_W2 i ∧ MEM_RGN_W1 i ≠ MEM_RGN_W2 i := by
  unfold MEM_RGN_W0 MEM_RGN_W1 MEM_RGN_W2
  omega

theorem rgnErr_ne_rgnWords (i : Nat) :
    MEM_RGN_W0 i ≠ SPD_RGN_ERR ∧ MEM_RGN_W1 i ≠ SPD_RGN_ERR ∧ MEM_RGN_W2 i ≠ SPD_RGN_ERR := by
  unfold MEM_RGN_W0 MEM_RGN_W1 MEM_RGN_W2 SPD_RGN_ERR
  omega

/-- A field of word 0 holds the bits of the word. -/
theorem get_rgnStored_w0 (s : State) {i : Nat} (w0 w1 w2 : Nat) (hi : i < 128) {f : FieldSpec} (hf : f ∈ rgnW0Fields) :
    (s.rgnStored i w0 w1 w2).get ⟨MEM_RGN_W0 i, f.lo, f.w⟩ = bitsOf w0 f.lo f.w := by
  obtain ⟨h01, h02, -⟩ := rgnWords_ne i
  have hfield : ∀ f ∈ rgnW0Fields, f.acc = .rw ∧ f.ok = .any ∧ bitsOf mask64 f.lo f.w = 2 ^ f.w - 1 ∧ f.lo + f.w ≤ 64 := by
    decide
  obtain ⟨hrw, hany, hmask, hlen⟩ := hfield f hf
  unfold State.rgnStored
  rw [get_setReg_ne _ _ _ _ h02, get_setReg_ne _ _ _ _ h01, get_setReg _ ⟨MEM_RGN_W0 i, f.lo, f.w⟩ _ hlen, fieldsAt_rgnW0 hi]
  exact bitsOf_writeFields_any w0 (by decide) hf hrw hany hmask

theorem get_rgnStored_limit (s : State) {i : Nat} (w0 w1 w2 : Nat) (hi : i < 128) :
    (s.rgnStored i w0 w1 w2).get (MEM_RGN_W1_LIMIT i) = bitsOf w1 12 36 := by
  obtain ⟨-, -, h12⟩ := rgnWords_ne i
  unfold State.rgnStored
  rw [get_setReg_ne _ _ _ (MEM_RGN_W1_LIMIT i) h12, fieldsAt_rgnW1 hi]
  refine (get_setReg _ (MEM_RGN_W1_LIMIT i) _ (by simp [MEM_RGN_W1_LIMIT])).trans ?_
  exact bitsOf_writeFields_any (f := ⟨12, 36, .rw, 0, .any⟩) w1 (by decide) (by decide) rfl rfl (by decide)

theorem get_rgnStored_share (s : State) (i w0 w1 : Nat) {w2 : Nat} (h : w2 < 2 ^ 64) :
    (s.rgnStored i w0 w1 w2).get (MEM_RGN_W2_SHARE_RD i) = w2 := by
  refine (get_setReg _ (MEM_RGN_W2_SHARE_RD i) w2 (by simp [MEM_RGN_W2_SHARE_RD])).trans ?_
  simp only [bitsOf, MEM_RGN_W2_SHARE_RD, Nat.pow_zero, Nat.div_one, Nat.mod_eq_of_lt h]

/-! ### SPD_RGN_ERR -/

/-- The report of an entry that does not fit. -/
def State.rgnReport (s : State) (i : Nat) : State := (s.put SPD_RGN_ERR_CFG_ERR 1).put SPD_RGN_ERR_IDX i

theorem onlyRegs_rgnReport (s : State) (i : Nat) : OnlyRegs [SPD_RGN_ERR] s (s.rgnReport i) :=
  ((onlyRegs_put s SPD_RGN_ERR_CFG_ERR 1).trans (onlyRegs_put _ SPD_RGN_ERR_IDX i)).mono
    (by simp [SPD_RGN_ERR_CFG_ERR, SPD_RGN_ERR_IDX])

theorem rgnReport_fields (s : State) {i : Nat} (hi : i < 128) :
    (s.rgnReport i).get SPD_RGN_ERR_CFG_ERR = 1 ∧ (s.rgnReport i).get SPD_RGN_ERR_IDX = i :=
  ⟨(get_put_disjoint _ SPD_RGN_ERR_IDX SPD_RGN_ERR_CFG_ERR i (by decide) (by decide)).trans
      (get_put_fits s SPD_RGN_ERR_CFG_ERR 1 (by decide) (by decide)),
    get_put_fits _ SPD_RGN_ERR_IDX i (by decide) hi⟩

/-! ### The write of word 0 -/

theorem rgnWord0_eq (s : State) (i v : Nat) : s.rgnWord0 i v =
    if bitOf v 0 && s.rgnBad v (s.heldWord i 1) then (s.rgnTaken i v).rgnReport i else s.rgnTaken i v := rfl

theorem get_rgnWord0 (s : State) (i v : Nat) {f : Fref} (hf : f.off ≠ SPD_RGN_ERR) :
    (s.rgnWord0 i v).get f = (s.rgnTaken i v).get f := by
  rw [rgnWord0_eq]
  split_ifs
  · exact get_of_reg ((onlyRegs_rgnReport _ i).2 f.off (List.mem_singleton.not.mpr hf))
  · rfl

theorem onlyRegs_rgnWord0 (s : State) (i v : Nat) :
    OnlyRegs [MEM_RGN_W0 i, MEM_RGN_W1 i, MEM_RGN_W2 i, SPD_RGN_ERR] s (s.rgnWord0 i v) := by
  rw [rgnWord0_eq]
  split_ifs
  · exact (onlyRegs_rgnStored s i _ _ _).trans (onlyRegs_rgnReport _ i)
  · exact (onlyRegs_rgnStored s i _ _ _).mono (by simp)

/-- Settles O24: the gate shuts the entries of Lantern, and elsewhere the three words are stored at once, EN cleared and the
report made where the entry does not fit. -/
theorem regionEntryAppliesWhole : Obligations.RegionEntryAppliesWhole := by
  intro rq i v s hi
  refine ⟨fun hlow hrq hv hr ha => ?_, fun ho hf => ?_⟩
  · rw [exec_memRgnWord0Write, guarded_shut _ hr hv ha (shut_lowRegion s hrq hlow)]
  · intro w1 w2 p fits t
    obtain ⟨h0, h1, h2⟩ := rgnErr_ne_rgnWords i
    have hbad : s.rgnBad v.toNat w1 = false ↔ fits := rgnBad_eq_false_iff s v.toNat w1
    have hw0 : ∀ f ∈ rgnW0Fields, t.get ⟨MEM_RGN_W0 i, f.lo, f.w⟩ = bitsOf (rgnWord (s.rgnBad v.toNat w1) v.toNat) f.lo f.w :=
      fun f hf => (get_rgnWord0 s i _ h0).trans (get_rgnStored_w0 s _ _ _ hi hf)
    have hen : t.get (MEM_RGN_W0_EN i) = if s.rgnBad v.toNat w1 then 0 else bitsOf v.toNat 0 1 :=
      (hw0 ⟨0, 1, .rw, 0, .any⟩ (by decide)).trans (bitsOf_rgnWord_en _ _)
    have ht : t = _ := rgnWord0_eq s i v.toNat
    refine ⟨?_, ?_, ?_, ?_, ?_, ?_, onlyRegs_rgnWord0 s i _, fun hfits => ?_, fun hmisfit => ?_⟩
    · rw [exec_memRgnWord0Write, guarded_eq _ _ _ _ ho hf]
    · exact (hw0 ⟨12, 36, .rw, 0, .any⟩ (by decide)).trans (bitsOf_rgnWord _ _ 36 (by decide))
    · exact (hw0 ⟨5, 6, .rw, 0, .any⟩ (by decide)).trans (bitsOf_rgnWord _ _ 6 (by decide))
    · exact (hw0 ⟨1, 1, .rw, 0, .any⟩ (by decide)).trans (bitsOf_rgnWord _ _ 1 (by decide))
    · exact (get_rgnWord0 s i _ h1).trans (get_rgnStored_limit s _ _ _ hi)
    · exact (get_rgnWord0 s i _ h2).trans (get_rgnStored_share s i _ _ (BitVec.isLt _))
    · have hfit : s.rgnBad v.toNat w1 = false := hbad.mpr hfits
      refine ⟨hen.trans (by rw [hfit]; rfl), ?_⟩
      rw [ht, show s.rgnBad v.toNat (s.heldWord i 1) = false from hfit, Bool.and_false]
      exact (onlyRegs_rgnStored s i _ _ _).2 _ (by simp [h0.symm, h1.symm, h2.symm])
    · have hmiss : s.rgnBad v.toNat w1 = true := Bool.not_eq_false _ ▸ mt hbad.mp hmisfit
      refine ⟨hen.trans (by rw [hmiss]; rfl), fun hon => ?_⟩
      rw [ht, hon, show s.rgnBad v.toNat (s.heldWord i 1) = true from hmiss]
      exact rgnReport_fields (s.rgnTaken i v.toNat) hi

end Sys2Proof.Machine
end

section
/-!
SUPPORT. What sparse maps read when ranges of their keys are cut out, filled or moved; the memory then, byte by byte and
codeword by codeword, of a wiped range and of a row written whole in scratchpad; the obligation on DMA_FILL (R225).
-/

namespace Sys2Proof.Machine

/-! ### Ranges of a sparse map -/

theorem mget_filter_keys {β : Type} (d : Nat → β) (p : Nat → Bool) (m : SMap β) (k : Nat) :
    mget d (m.filter (fun e => p e.1)) k = if p k then mget d m k else d k := by
  induction m with
  | nil => simp [mget]
  | cons e m ih =>
    obtain ⟨j, v⟩ := e
    by_cases hk : k = j
    · subst hk
      cases hp : p k <;> simp [hp, mget, ih]
    · cases hp : p j <;> simp [hp, mget, hk, ih]

/-- Entries of other keys in front hide nothing. -/
theorem mget_append_left {β : Type} (d : Nat → β) {l : SMap β} (m : SMap β) {k : Nat} (h : ∀ e ∈ l, e.1 ≠ k) :
    mget d (l ++ m) k = mget d m k := by
  induction l with
  | nil => rfl
  | cons e l ih =>
    obtain ⟨hne, hrest⟩ := List.forall_mem_cons.mp h
    exact (if_neg (Ne.symm hne)).trans (ih hrest)

/-- Entries of other keys behind add nothing. -/
theorem mget_append_right {β : Type} (d : Nat → β) (l : SMap β) {m : SMap β} {k : Nat} (h : ∀ e ∈ m, e.1 ≠ k) :
    mget d (l ++ m) k = mget d l k := by
  induction l with
  | nil => simpa using mget_append_left d [] h
  | cons e l ih => exact congrArg (fun v => if k = e.1 then e.2 else v) ih

/-- A map with the keys of `[lo, hi)` cut out and those of `mid` put in their place. -/
theorem mget_splice {β : Type} (d : Nat → β) (m mid : SMap β) {lo hi : Nat} (hle : lo ≤ hi)
    (hmid : ∀ e ∈ mid, lo ≤ e.1 ∧ e.1 < hi) (k : Nat) :
    mget d (m.filter (fun e => decide (e.1 < lo)) ++ mid ++ m.filter (fun e => decide (hi ≤ e.1))) k =
      if lo ≤ k ∧ k < hi then mget d mid k else mget d m k := by
  have hlow : ∀ e ∈ m.filter (fun e => decide (e.1 < lo)), e.1 < lo := fun e he =>
    of_decide_eq_true (List.mem_filter.mp he).2
  have hhigh : ∀ e ∈ m.filter (fun e => decide (hi ≤ e.1)), hi ≤ e.1 := fun e he =>
    of_decide_eq_true (List.mem_filter.mp he).2
  by_cases hk : hi ≤ k
  · have hfront : ∀ e ∈ m.filter (fun e => decide (e.1 < lo)) ++ mid, e.1 ≠ k := fun e he => by
      rcases List.mem_append.mp he with he | he
      · have := hlow e he
        omega
      · have := hmid e he
        omega
    rw [mget_append_left d _ hfront, mget_filter_keys d (fun j => decide (hi ≤ j)), if_pos (decide_eq_true hk),
      if_neg (by omega)]
  · rw [mget_append_right d _ fun e he => by have := hhigh e he; omega]
    by_cases hin : lo ≤ k
    · rw [mget_append_left d _ fun e he => by have := hlow e he; omega, if_pos (by omega)]
    · rw [mget_append_right d _ fun e he => by have := hmid e he; omega, mget_filter_keys d (fun j => decide (j < lo)),
        if_pos (decide_eq_true (by omega)), if_neg (by omega)]

theorem mget_mclear {β : Type} (d : Nat → β) (lo hi : Nat) (m : SMap β) (k : Nat) :
    mget d (mclear lo hi m) k = if lo ≤ k ∧ k < hi then d k else mget d m k := by
  refine (mget_filter_keys d (fun j => decide (j < lo) || decide (hi ≤ j)) m k).trans ?_
  by_cases h : lo ≤ k ∧ k < hi
  · rw [if_pos h, if_neg (by simp only [Bool.or_eq_true, decide_eq_true_eq]; omega)]
  · rw [if_neg h, if_pos (by simp only [Bool.or_eq_true, decide_eq_true_eq]; omega)]

/-- Entries of one value, those that hold their key's default left out. -/
theorem mget_constant {β : Type} [DecidableEq β] (d : Nat → β) (v : β) (l : List Nat) (k : Nat) :
    mget d ((l.map (fun j => (j, v))).filter (fun e => decide (e.2 ≠ d e.1))) k = if k ∈ l then v else d k := by
  induction l with
  | nil => rfl
  | cons j l ih =>
    rw [List.map_cons, List.filter_cons]
    by_cases hv : v = d j
    · rw [if_neg (by simpa using hv), ih]
      by_cases hk : k = j <;> simp [hk, hv]
    · rw [if_pos (by simpa using hv)]
      by_cases hk : k = j
      · simp [mget, hk]
      · simp only [mget, hk, List.mem_cons, false_or, if_false, ih]

theorem mget_mfill {β : Type} [DecidableEq β] (d : Nat → β) (lo n : Nat) (v : β) (m : SMap β) (k : Nat) :
    mget d (mfill d lo n v m) k = if lo ≤ k ∧ k < lo + n then v else mget d m k := by
  have hmid : ∀ e ∈ ((List.range n).map (fun i => (lo + i, v))).filter (fun e => decide (e.2 ≠ d e.1)),
      lo ≤ e.1 ∧ e.1 < lo + n := fun e he => by
    obtain ⟨i, hi, rfl⟩ := List.mem_map.mp (List.mem_filter.mp he).1
    exact ⟨Nat.le_add_right lo i, Nat.add_lt_add_left (List.mem_range.mp hi) lo⟩
  have hconst := mget_constant d v ((List.range n).map (lo + ·)) k
  rw [List.map_map] at hconst
  refine (mget_splice d m _ (Nat.le_add_right lo n) hmid k).trans ?_
  split_ifs with h
  · refine hconst.trans (if_pos (List.mem_map.mpr ⟨k - lo, List.mem_range.mpr ?_, ?_⟩)) <;> omega
  · rfl

/-- Entries of the keys of a range moved by a distance. -/
theorem mget_shift {β : Type} (d : Nat → β) (hd : ∀ i j, d i = d j) (m : SMap β) (src dst len : Nat) {k : Nat}
    (h : dst ≤ k ∧ k < dst + len) :
    mget d ((m.filter (fun e => decide (src ≤ e.1) && decide (e.1 < src + len))).map (fun e => (e.1 - src + dst, e.2))) k =
      mget d m (k - dst + src) := by
  induction m with
  | nil => exact hd _ _
  | cons e m ih =>
    obtain ⟨j, v⟩ := e
    rw [List.filter_cons]
    by_cases hj : src ≤ j ∧ j < src + len
    · have hkey : k = j - src + dst ↔ k - dst + src = j := by omega
      simp only [hj.1, hj.2, decide_true, Bool.and_self, if_true, List.map_cons, mget, hkey, ih]
    · have hout : (decide (src ≤ j) && decide (j < src + len)) = false := by
        simpa only [Bool.and_eq_false_iff, decide_eq_false_iff_not, not_and_or] using hj
      have hkey : k - dst + src ≠ j := by omega
      simp only [hout, Bool.false_eq_true, if_false, mget, hkey, ih]

theorem mget_moveRange {β : Type} (d : Nat → β) (hd : ∀ i j, d i = d j) (src dst len : Nat) (m : SMap β) (k : Nat) :
    mget d (moveRange src dst len m) k = if dst ≤ k ∧ k < dst + len then mget d m (k - dst + src) else mget d m k := by
  have hmid : ∀ e ∈ (m.filter (fun e => decide (src ≤ e.1) && decide (e.1 < src + len))).map
      (fun e => (e.1 - src + dst, e.2)), dst ≤ e.1 ∧ e.1 < dst + len := fun e he => by
    obtain ⟨a, ha, rfl⟩ := List.mem_map.mp he
    have hin := (List.mem_filter.mp ha).2
    simp only [Bool.and_eq_true, decide_eq_true_eq] at hin
    simp only
    omega
  refine (mget_splice d m _ (Nat.le_add_right dst len) hmid k).trans ?_
  split_ifs with h
  · exact mget_shift d hd m src dst len h
  · rfl

/-! ### Bytes and tags -/

theorem tag_setTag (s : State) (j n k : Nat) : (s.setTag j n).tag k = if k = j then n % 2 ^ 12 else s.tag k := by
  refine (congrArg BitVec.toNat (mget_mset tagDefault s.tags j k (BitVec.ofNat 12 n))).trans ?_
  split_ifs
  · exact BitVec.toNat_ofNat n 12
  · rfl

theorem byte_wipe (s : State) (a n t b : Nat) : (s.wipe a n t).byte b = if a ≤ b ∧ b < a + n then 0 else s.byte b :=
  mget_mclear memDefault a (a + n) s.mem b

theorem tag_wipe (s : State) (a n t k : Nat) :
    (s.wipe a n t).tag k = if a / 32 ≤ k ∧ k < a / 32 + n / 32 then t % 2 ^ 12 else s.tag k := by
  refine (congrArg BitVec.toNat (mget_mfill tagDefault (a / 32) (n / 32) (BitVec.ofNat 12 t) s.tags k)).trans ?_
  split_ifs
  · exact BitVec.toNat_ofNat t 12
  · rfl

theorem tag_lt (s : State) (k : Nat) : s.tag k < 2 ^ 12 := (mget tagDefault s.tags k).isLt

/-! ### Codewords of a row -/

/-- The codewords of whole rows, by index. -/
theorem mem_cwAddrs {a n : Nat} (ha : a % 32 = 0) (hn : n % 32 = 0) (x : Nat) :
    x ∈ cwAddrs a n ↔ x % 32 = 0 ∧ a ≤ x ∧ x < a + n := by
  unfold cwAddrs
  split_ifs with h0
  · simp only [List.not_mem_nil, false_iff]
    omega
  · simp only [List.mem_map, List.mem_range]
    constructor
    · rintro ⟨i, hi, rfl⟩
      omega
    · rintro ⟨hx, hlo, hhi⟩
      exact ⟨x / 32 - a / 32, by omega, by omega⟩

/-- The tag that a whole write leaves of tag `t`: PART, W and CRIT stay. -/
theorem tagAfter_whole (s : State) (c k : Nat) : s.tagAfter true c none k = s.tag k % 512 + c % 8 * 512 := by
  simp only [State.tagAfter, mkTag, tagPart, tagW, tagCrit, if_true]
  omega

/-- Codewords that a write covers whole lose their marks and take its CMP; the data stays until it is stored. -/
theorem storeCws_whole (r : MReq) {a n : Nat} (c : Nat) (l : List Nat) (hl : ∀ x ∈ l, a ≤ x ∧ x + 32 ≤ a + n) (s : State) :
    (s.storeCws r a n c none l).mem = s.mem ∧ (s.storeCws r a n c none l).descs = s.descs ∧
      ∀ k, (s.storeCws r a n c none l).tag k =
        if k ∈ l.map (fun x => x / 32) then s.tag k % 512 + c % 8 * 512 else s.tag k := by
  induction l generalizing s with
  | nil => exact ⟨rfl, rfl, fun k => rfl⟩
  | cons x l ih =>
    obtain ⟨⟨hlo, hhi⟩, hrest⟩ := List.forall_mem_cons.mp hl
    have hfirst : s.storeCws r a n c none (x :: l) =
        ((s.setEcc (x / 32) none).setTag (x / 32) (s.tag (x / 32) % 512 + c % 8 * 512)).storeCws r a n c none l := by
      have htag := tagAfter_whole (s.setEcc (x / 32) none) c (x / 32)
      simp only [State.storeCws, hlo, hhi, decide_true, Bool.and_self, if_true, htag]
      rfl
    obtain ⟨hmem, hdescs, htag⟩ := ih hrest ((s.setEcc (x / 32) none).setTag (x / 32) (s.tag (x / 32) % 512 + c % 8 * 512))
    rw [hfirst]
    refine ⟨hmem, hdescs, fun k => (htag k).trans ?_⟩
    have hkept : (s.setEcc (x / 32) none).tag k = s.tag k := rfl
    rw [tag_setTag, hkept, List.map_cons]
    by_cases hk : k = x / 32
    · subst hk
      simp only [List.mem_cons, true_or, if_true]
      split_ifs <;> omega
    · simp only [List.mem_cons, hk, false_or, if_false]

/-! ### A row written in scratchpad -/

theorem spaceOf_spd {a : Nat} (h : a < spdEnd) : spaceOf a = .spd := if_pos h

theorem addrError_spd (s : State) {a n : Nat} (ha : a < spdEnd) (h : a + n ≤ spdEnd) : s.addrError a n = none := by
  unfold State.addrError State.mappedEnd
  rw [spaceOf_spd ha]
  exact if_pos h

/-- Accesses to scratchpad are charged to nobody (R370). -/
theorem charge_spd (s : State) (r : MReq) (wr : Bool) {a : Nat} (n : Nat) (h : a < spdEnd) :
    s.charge r wr a n = (s, true) := by
  unfold State.charge
  rw [spaceOf_spd h]

theorem countDdr_spd (s : State) (wr : Bool) {a : Nat} (n : Nat) (h : a < spdEnd) : s.countDdr wr a n = s := by
  unfold State.countDdr
  rw [spaceOf_spd h]

/-- The state that an admitted write of whole codewords in scratchpad leaves. -/
theorem writeLocal_spd {s : State} {r : MReq} {a : Nat} (c : Nat) (bs : List Byte) (ha : a < spdEnd)
    (h : s.firstRefused r true false (cwAddrs a bs.length) = none) :
    s.writeLocal r false a c bs =
      ({ s.storeCws r a bs.length c none (cwAddrs a bs.length) with
        mem := storeBytes (s.storeCws r a bs.length c none (cwAddrs a bs.length)).mem a bs }, none) := by
  unfold State.writeLocal
  simp only [h, Bool.false_eq_true, if_false, charge_spd s r true bs.length ha, countDdr_spd _ true bs.length ha]

/-- Such a write stores its bytes, gives its codewords their CMP and changes no other byte and no other tag. -/
theorem writeLocal_spd_effect {s : State} {r : MReq} {a : Nat} (c : Nat) (bs : List Byte) (ha : a < spdEnd)
    (h32 : a % 32 = 0) (hn : bs.length % 32 = 0) (h : s.firstRefused r true false (cwAddrs a bs.length) = none) :
    (s.writeLocal r false a c bs).2 = none ∧ (s.writeLocal r false a c bs).1.descs = s.descs ∧
    (∀ b, (s.writeLocal r false a c bs).1.byte b =
      if a ≤ b ∧ b < a + bs.length then bs.getD (b - a) 0 else s.byte b) ∧
    (∀ k, (s.writeLocal r false a c bs).1.tag k =
      if a / 32 ≤ k ∧ k < (a + bs.length) / 32 then s.tag k % 512 + c % 8 * 512 else s.tag k) := by
  have hcover : ∀ x ∈ cwAddrs a bs.length, a ≤ x ∧ x + 32 ≤ a + bs.length := fun x hx => by
    obtain ⟨hx, hlo, hhi⟩ := (mem_cwAddrs h32 hn x).mp hx
    omega
  obtain ⟨hmem, hdescs, htag⟩ := storeCws_whole r c (cwAddrs a bs.length) hcover s
  have hmap : ∀ k, k ∈ (cwAddrs a bs.length).map (fun x => x / 32) ↔ a / 32 ≤ k ∧ k < (a + bs.length) / 32 := fun k => by
    simp only [List.mem_map, mem_cwAddrs h32 hn]
    constructor
    · rintro ⟨x, hx, rfl⟩
      omega
    · intro hk
      exact ⟨32 * k, by omega, by omega⟩
  rw [writeLocal_spd c bs ha h]
  refine ⟨rfl, hdescs, fun b => ?_, fun k => (htag k).trans (if_congr (hmap k) rfl rfl)⟩
  refine (mget_storeBytes bs _ a b).trans ?_
  rw [hmem]
  rfl

theorem writeMem_spd (s : State) (r : MReq) (own : Bool) (c : Nat) {a : Nat} {bs : List Byte} (h0 : 0 < bs.length)
    (h : a + bs.length ≤ spdEnd) : s.writeMem r own c a bs = s.writeLocal r own a c bs := by
  have ha : a < spdEnd := by omega
  unfold State.writeMem
  rw [if_neg h0.ne', addrError_spd s ha h, spaceOf_spd ha]

/-! ### The pattern of a fill (R225) -/

theorem length_leBytes (n v : Nat) : (leBytes n v).length = n := by
  induction n generalizing v with
  | zero => rfl
  | succ n ih => exact congrArg (· + 1) (ih _)

theorem getD_leBytes {n j : Nat} (v : Nat) (h : j < n) : (leBytes n v).getD j 0 = BitVec.ofNat 8 (v / 256 ^ j) := by
  induction n generalizing v j with
  | zero => omega
  | succ n ih =>
    cases j with
    | zero => simp [leBytes]
    | succ j =>
      rw [leBytes, List.getD_cons_succ, ih (v / 256) (by omega), Nat.div_div_eq_div_mul, pow_succ, Nat.mul_comm]

/-- `n` words of a pattern, little-endian. -/
def fillBytes (n v : Nat) : List Byte := (List.range n).flatMap (fun _ => leBytes 4 v)

theorem fillBytes_succ (n v : Nat) : fillBytes (n + 1) v = leBytes 4 v ++ fillBytes n v := by
  unfold fillBytes
  rw [List.range_succ_eq_map, List.flatMap_cons, List.flatMap_map]

theorem length_fillBytes (n v : Nat) : (fillBytes n v).length = 4 * n := by
  induction n with
  | zero => rfl
  | succ n ih =>
    rw [fillBytes_succ, List.length_append, length_leBytes, ih]
    omega

theorem getD_fillBytes {n j : Nat} (v : Nat) (h : j < 4 * n) :
    (fillBytes n v).getD j 0 = BitVec.ofNat 8 (v / 256 ^ (j % 4)) := by
  induction n generalizing j with
  | zero => omega
  | succ n ih =>
    rw [fillBytes_succ]
    by_cases hj : j < 4
    · rw [List.getD_append _ _ _ _ (by rwa [length_leBytes]), getD_leBytes v hj, Nat.mod_eq_of_lt hj]
    · rw [List.getD_append_right _ _ _ _ (by rw [length_leBytes]; omega), length_leBytes, ih (by omega),
        ← Nat.mod_eq_sub_mod (by omega)]

/-! ### The rows of a DMA descriptor (R226) -/

theorem eTry_ok {α : Type} {m : Eng α} {s u : State} {x : α} (h : m.run.run s = (.ok x, u)) :
    (eTry m).run.run s = (.ok (.ok x), u) := by
  unfold eTry
  simp only [ExceptT.run_mk, StateT.run] at h ⊢
  rw [h]

/-- A descriptor whose rows are all dealt, the last of them on its one channel: its row is moved and it ends without an error. -/
theorem dmaRows_lastRow {d : Desc} {p : Part} {rows : Nat} (pref : Nat → Option Nat) {one : MReq → Nat → Eng Unit} {s u : State}
    (hp : d.parts = [p]) (hst : p.st = .running) (hw : p.worked = false) (hdealt : rows ≤ d.step)
    (h : (one (s.mreq d p.isl) p.row).run.run s = (.ok (), u)) :
    (dmaRows d rows pref one).run.run s = (.ok [(p.isl, 0, 0)], u) := by
  have hheld : (d.parts.filter (fun p => p.st == .running && !p.worked)).map (fun p => (p.isl, p.row)) = [(p.isl, p.row)] := by
    simp [hp, hst, hw]
  have hrest : (List.range rows).drop d.step = [] := List.drop_eq_nil_of_le (by rwa [List.length_range])
  unfold dmaRows
  simp only [hheld, hrest, List.forIn_cons, List.forIn_nil, List.map_cons, List.map_nil, List.isEmpty_cons, Bool.false_eq_true,
    if_false, bind_assoc]
  rw [eng_get, eng_bind, eTry_ok h]
  rfl

/-- A descriptor with one part runs only while that part has its share to do. -/
theorem worked_of_runnable {d : Desc} {p : Part} {opc : Nat} (hr : d.runnable opc = true) (hp : d.parts = [p]) :
    p.worked = false := by
  simp only [Desc.runnable, Desc.todo, hp, Bool.and_eq_true, Bool.not_eq_true'] at hr
  by_contra hw
  rw [Bool.not_eq_false] at hw
  simp [hw] at hr

theorem exec_dmaFill (i : Nat) (s : State) : exec (.dmaFill i) s = .next (s.runWork i 0x11 workDmaFill) := rfl

/-- Work that ends on the one part of a normal-world descriptor. -/
theorem runWork_normal {s u : State} {i opc : Nat} {d : Desc} {rs : List PartRes} {work : Desc → Eng (List PartRes)}
    (hd : s.desc? i = some d) (hr : d.runnable opc = true) (hc : s.clocked d = true) (hs : s.secureDesc d = false)
    (hw : (work d).run.run s = (.ok rs, u)) : s.runWork i opc work = u.setResults i rs := by
  rw [runWork_runs work hd hr hc, hw, State.afterWork, hs]
  rfl

/-- The result of its one part ends a descriptor's work. -/
theorem setResults_one {u : State} {i : Nat} {d e : Desc} {p : Part} (hd : u.desc? i = some d) (hp : d.parts = [p])
    (hst : p.status < 0x10) (he : (u.setResults i [(p.isl, 0, 0)]).desc? i = some e) :
    e.effected = true ∧ ∀ q ∈ e.parts, q.status = 0 := by
  have hnew := desc?_updDesc (fun d =>
    let ps := d.parts.map (fun (q : Part) => match [(p.isl, 0, 0)].find? (fun r : PartRes => r.1 == q.isl) with
      | some (_, st, dt) => if 0x10 ≤ q.status then { q with progC := u.c, worked := true }
        else { q with status := st, detail := dt, progC := u.c, worked := true }
      | none => q)
    { d with effected := ps.all (fun q => q.worked), parts := ps }) hd (fun _ => rfl)
  obtain rfl := Option.some.inj (he.symm.trans hnew)
  simp [hp, Nat.not_le.mpr hst]

/-- Settles O20: the one channel holds row 0, whose write in scratchpad stores the pattern over its bytes. -/
theorem fillWritesItsPattern : Obligations.FillWritesItsPattern := by
  intro i p d s hd hr hc hsec hp hrun hrow hstatus hstep hrows a n ha hn h0 hend hok t
  have hlen : (fillBytes (n / 4) (d.u 24 4)).length = n := by
    rw [length_fillBytes]
    omega
  obtain ⟨hnone, hdescs, hbyte, htag⟩ := writeLocal_spd_effect (r := s.mreq d p.isl) 0 (fillBytes (n / 4) (d.u 24 4))
    (show a < spdEnd by unfold spdEnd; omega) ha (hlen.symm ▸ hn) (hlen.symm ▸ hok)
  rw [hlen] at hbyte htag
  have hwrite : s.writeMem (s.mreq d p.isl) false 0 (bitsOf (d.u 16 8) 0 48 + p.row * d.u 40 4)
      (fillBytes (n / 4) (d.u 24 4)) = ((s.writeLocal (s.mreq d p.isl) false a 0 (fillBytes (n / 4) (d.u 24 4))).1, none) := by
    rw [hrow, Nat.zero_mul, Nat.add_zero, writeMem_spd s _ false 0 (hlen.symm ▸ h0) (hlen.symm ▸ hend), ← hnone]
  have hwork : (workDmaFill d).run.run s = _ := dmaRows_lastRow (one := fun rq r => eWrite rq false 0 _ (fillBytes (n / 4) _)) _
    hp hrun (worked_of_runnable hr hp) (hrows.trans hstep.symm).le (eWrite_done hwrite)
  refine ⟨?_, fun b => (hbyte b).trans ?_, fun k => (htag k).trans ?_, fun e he => ?_⟩
  · rw [exec_dmaFill, runWork_normal hd hr hc hsec hwork]
    rfl
  · split_ifs with hb
    · exact getD_fillBytes _ (by omega)
    · rfl
  · rfl
  · exact setResults_one ((desc?_congr hdescs i).trans hd) hp hstatus he

end Sys2Proof.Machine
end

section
/-!
SUPPORT. SPD_BORROW and SPD_RETURN by the branches of their checks (R204, R227).
-/

namespace Sys2Proof.Machine

/-! ### SPD_BORROW (R204, R228) -/

theorem exec_spdBorrow_first {s : State} {i : Nat} {d : Desc} (hd : s.desc? i = some d) (hr : d.runnable 0x14 = true)
    (h0 : d.step = 0) :
    exec (.spdBorrow i) s = .next ((s.updDesc i (fun x => { x with step := 1 })).borrow d).settle := by
  show Host.Outcome.next (match s.desc? i with
    | none => s
    | some x => _) = _
  rw [hd]
  dsimp only
  rw [hr, if_pos h0]
  rfl

/-- A borrow that reclaims waits while every grant of its own still spills. -/
theorem exec_spdBorrow_waiting {s : State} {i : Nat} {d : Desc} (hd : s.desc? i = some d) (hr : d.runnable 0x14 = true)
    (h1 : d.step = 1) (hg : ∀ g ∈ s.grants, g.desc = some i → g.victims ≠ []) : exec (.spdBorrow i) s = .next s := by
  have hnone : s.grants.find? (fun g => g.desc == some i && g.victims.isEmpty) = none := by
    refine List.find?_eq_none.mpr fun g hgm h => ?_
    simp only [Bool.and_eq_true, beq_iff_eq, List.isEmpty_iff] at h
    exact hg g hgm h.1 h.2
  show Host.Outcome.next (match s.desc? i with
    | none => s
    | some x => _) = _
  rw [hd]
  dsimp only
  rw [hr, h1, hnone]
  rfl

/-- The descriptor of a borrow ends with a status and a DETAIL. -/
def State.borrowEnds (s : State) (i st dt : Nat) : State := ({ s with seq := s.seq + 1 } : State).finishPart i 36 st dt

/-- A refused borrow declares no output. -/
def State.borrowRefused (s : State) (i dt : Nat) : State :=
  (s.updDesc i (fun x => { x with outs := [] })).borrowEnds i 0x84 dt

theorem borrow_unwritable {s : State} {d : Desc} {st a : Nat}
    (h : s.canWrite (s.mreq d 36) d.a24 (8 * d.count10) = some (st, a)) :
    s.borrow d = (if st = 0x21 ∨ st = 0x22 then s.refuseAccess (s.mreq d 36) st a else s).borrowEnds d.id st a := by
  unfold State.borrow
  simp only [h]
  rfl

theorem borrow_closed {s : State} {d : Desc} (h : s.canWrite (s.mreq d 36) d.a24 (8 * d.count10) = none)
    (hb : s.backingOk (s.ctxOf d) = false) : s.borrow d = s.borrowRefused d.id 0 := by
  unfold State.borrow
  simp only [h, hb, Bool.not_false, if_true]
  rfl

/-- Granules that `d` may be given at once, and those that may be reclaimed for it. -/
def State.borrowGive (s : State) (d : Desc) : Nat :=
  min (s.canGive (s.get (SCH_CTX_CFG_CRIT (s.ctxOf d)))) s.freeGrans.length
def State.borrowLend (s : State) (d : Desc) : List Nat := s.reclaimable (s.get (SCH_CTX_CFG_CRIT (s.ctxOf d)))

/-- Slots, granules or the function's limit fall short. -/
def State.borrowShort (s : State) (d : Desc) : Prop :=
  (s.freeBorrowSlots (s.ctxOf d)).length < d.count10 ∨ s.borrowGive d + (s.borrowLend d).length < d.count10 ∨
    s.overMax (s.ctxOf d) d.count10 = true

theorem borrow_short {s : State} {d : Desc} (h : s.canWrite (s.mreq d 36) d.a24 (8 * d.count10) = none)
    (hb : s.backingOk (s.ctxOf d) = true) (hs : s.borrowShort d) :
    s.borrow d = s.borrowRefused d.id
      (min (s.freeBorrowSlots (s.ctxOf d)).length (s.borrowGive d + (s.borrowLend d).length)) := by
  unfold State.borrow
  simp only [h, hb, Bool.not_true, Bool.false_eq_true, if_false]
  exact if_pos hs

theorem borrow_granted {s : State} {d : Desc} (h : s.canWrite (s.mreq d 36) d.a24 (8 * d.count10) = none)
    (hb : s.backingOk (s.ctxOf d) = true) (hs : ¬ s.borrowShort d) :
    s.borrow d =
      let k := min (s.borrowGive d) d.count10
      let ps := (s.freeGrans.take k ++ (s.borrowLend d).take (d.count10 - k)).zip (s.freeBorrowSlots (s.ctxOf d))
      s.startGrant (s.ctxOf d) (some d.id) (ps.take k) (ps.drop k) := by
  unfold State.borrow
  simp only [h, hb, Bool.not_true, Bool.false_eq_true, if_false]
  exact if_neg hs

/-! ### SPD_RETURN (R227) -/

/-- The entry `a` of a list names a granule that context `c` has borrowed. -/
def State.returnable (s : State) (c a : Nat) : Bool :=
  decide (a < spdEnd) && a % granBytes == 0 && s.granIn 2 (a / granBytes) && s.get (SPD_GRAN_CTX (a / granBytes)) == c

theorem returnable_iff (s : State) (c a : Nat) : s.returnable c a = true ↔
    a < 0x8000000 ∧ a % 0x40000 = 0 ∧ s.get (SPD_GRAN_STATE (a / 0x40000)) = 2 ∧ s.get (SPD_GRAN_CTX (a / 0x40000)) = c := by
  simp only [State.returnable, State.granIn, Bool.and_eq_true, decide_eq_true_eq, beq_iff_eq, and_assoc]
  rfl

/-- The entries of a list of granule addresses. -/
def listedAddrs (n : Nat) (bs : List Byte) : List Nat := (List.range n).map (fun k => leNat ((bs.drop (8 * k)).take 8))

theorem eRead_done {r : MReq} {a n : Nat} {x : Except MErr (List Byte)} {s u : State} (h : s.readMem r a n = (u, x)) :
    (eRead r a n).run.run s = (x, u) := by
  unfold eRead
  simp only [ExceptT.run_mk, StateT.run, h]

theorem workSpdReturn_unread {d : Desc} {e : MErr} {s u : State}
    (h : s.readMem (s.mreq d 36) d.a24 (8 * d.count10) = (u, .error e)) : (workSpdReturn d).run.run s = (.error e, u) := by
  unfold workSpdReturn
  rw [eng_get, eng_bind, eRead_done h]

theorem workSpdReturn_bad {d : Desc} {bs : List Byte} {a : Nat} {s u : State}
    (h : s.readMem (s.mreq d 36) d.a24 (8 * d.count10) = (u, .ok bs))
    (hbad : (listedAddrs d.count10 bs).find? (fun a => !s.returnable (s.ctxOf d) a) = some a) :
    (workSpdReturn d).run.run s = (.error (.fail 0x85 a), u) := by
  unfold listedAddrs State.returnable at hbad
  unfold workSpdReturn
  rw [eng_get, eng_bind, eRead_done h]
  simp only [hbad]
  rfl

theorem workSpdReturn_freed {d : Desc} {bs : List Byte} {s u : State}
    (h : s.readMem (s.mreq d 36) d.a24 (8 * d.count10) = (u, .ok bs))
    (hgood : (listedAddrs d.count10 bs).find? (fun a => !s.returnable (s.ctxOf d) a) = none) :
    (workSpdReturn d).run.run s =
      (.ok (0, 0), ((listedAddrs d.count10 bs).foldl (fun s a => s.freeGran (a / granBytes)) u).refreshOcc) := by
  unfold listedAddrs State.returnable at hgood
  unfold workSpdReturn
  rw [eng_get, eng_bind, eRead_done h]
  simp only [hgood]
  rfl

theorem exec_spdReturn (i : Nat) (s : State) : exec (.spdReturn i) s = .next (s.ownWork i 0x15 36 workSpdReturn) := rfl

end Sys2Proof.Machine
end

section
/-!
SUPPORT. A granule that passes to a holder (R202), the copies of the spill engine, the end of a spill and a restore (R205,
R207); the obligation on granules that move whole.
-/

namespace Sys2Proof.Machine

/-- What reads no register stays when only registers change. -/
theorem OnlyRegs.keeps {β : Type} {L : List Nat} {s t : State} (h : OnlyRegs L s t) (p : State → β)
    (hp : ∀ (u : State) r, p { u with regs := r } = p u) : p t = p s := (congrArg p h.1).trans (hp s t.regs)

/-! ### The holder fields of a granule (R202) -/

theorem onlyRegs_holdGran (s : State) (g c st slot : Nat) : OnlyRegs [SPD_GRAN g] s (s.holdGran g c st slot) :=
  onlyRegs_setReg s _ _

theorem reg_holdGran (s : State) (g c st slot b : Nat) (h : b ≠ SPD_GRAN g) : (s.holdGran g c st slot).reg b = s.reg b :=
  (reg_setReg _ _ _ _).trans (if_neg h)

theorem get_holdGran (s : State) (g c st slot lo w : Nat) (h : lo + w ≤ 64) :
    (s.holdGran g c st slot).get ⟨SPD_GRAN g, lo, w⟩ = bitsOf (st + c * 2 ^ 8 + s.get (SCH_CTX_CFG_PART c) * 2 ^ 16 +
      b2n (s.ctxW c) * 2 ^ 22 + s.get (SCH_CTX_CFG_CRIT c) * 2 ^ 23 + slot * 2 ^ 25) lo w :=
  get_setReg s ⟨SPD_GRAN g, lo, w⟩ _ h

theorem b2n_eq (b : Bool) : b2n b = if b then 1 else 0 := rfl

theorem get_state_holdGran (s : State) (g c slot : Nat) {st : Nat} (hst : st < 8) :
    (s.holdGran g c st slot).get (SPD_GRAN_STATE g) = st := by
  refine (get_holdGran s g c st slot 0 3 (by decide)).trans ?_
  simp only [bitsOf]
  omega

theorem get_ctx_holdGran (s : State) (g c slot : Nat) {st : Nat} (hst : st < 8) :
    (s.holdGran g c st slot).get (SPD_GRAN_CTX g) = c % 256 := by
  refine (get_holdGran s g c st slot 8 8 (by decide)).trans ?_
  simp only [bitsOf]
  omega

/-- Slot and context numbers that fit leave the other fields as they are. -/
theorem holdGran_fields (s : State) (g : Nat) {c st slot : Nat} (hc : c < 256) (hst : st < 8) (hslot : slot < 512) :
    (s.holdGran g c st slot).get (SPD_GRAN_SLOT g) = slot ∧
    (s.holdGran g c st slot).get (SPD_GRAN_PART g) = s.get (SCH_CTX_CFG_PART c) ∧
    (s.holdGran g c st slot).get (SPD_GRAN_CRIT g) = s.get (SCH_CTX_CFG_CRIT c) ∧
    (s.holdGran g c st slot).get (SPD_GRAN_W g) = if s.ctxW c then 1 else 0 := by
  have hpart : s.get (SCH_CTX_CFG_PART c) < 64 := get_lt s (SCH_CTX_CFG_PART c)
  have hcrit : s.get (SCH_CTX_CFG_CRIT c) < 4 := get_lt s (SCH_CTX_CFG_CRIT c)
  have hw : b2n (s.ctxW c) < 2 := by cases s.ctxW c <;> decide
  refine ⟨(get_holdGran s g c st slot 25 9 (by decide)).trans ?_, (get_holdGran s g c st slot 16 6 (by decide)).trans ?_,
    (get_holdGran s g c st slot 23 2 (by decide)).trans ?_, (get_holdGran s g c st slot 22 1 (by decide)).trans ?_⟩
  all_goals simp only [bitsOf, ← b2n_eq]; omega

/-! ### A granule that passes to a context (R202) -/

theorem reg_wipe (s : State) (a n t b : Nat) : (s.wipe a n t).reg b = s.reg b := reg_of_regs rfl b

theorem get_wipe (s : State) (a n t : Nat) (f : Fref) : (s.wipe a n t).get f = s.get f := get_of_reg (reg_wipe s a n t _)

theorem ctxW_wipe (s : State) (a n t c : Nat) : (s.wipe a n t).ctxW c = s.ctxW c := by
  unfold State.ctxW State.flag
  simp only [get_wipe]

theorem reg_holdGran_wipe (s : State) (a n t g c st slot b : Nat) :
    ((s.wipe a n t).holdGran g c st slot).reg b = (s.holdGran g c st slot).reg b := by
  unfold State.holdGran
  simp only [reg_setReg, get_wipe, ctxW_wipe, reg_wipe]

theorem reg_giveGran (s : State) (g c st slot b : Nat) : (s.giveGran g c st slot).reg b = (s.holdGran g c st slot).reg b := by
  unfold State.giveGran
  exact (reg_of_regs rfl b).trans (reg_holdGran_wipe s _ _ _ g c st slot b)

theorem get_giveGran (s : State) (g c st slot : Nat) (f : Fref) :
    (s.giveGran g c st slot).get f = (s.holdGran g c st slot).get f := get_of_reg (reg_giveGran s g c st slot _)

theorem ctxTag_lt (s : State) (c : Nat) : s.ctxTag c < 2 ^ 12 := by
  unfold State.ctxTag mkTag
  omega

/-- The same bytes and tags. -/
def SameStore (s t : State) : Prop := t.mem = s.mem ∧ t.tags = s.tags

theorem SameStore.trans {s t u : State} (h : SameStore s t) (k : SameStore t u) : SameStore s u :=
  ⟨k.1.trans h.1, k.2.trans h.2⟩

theorem SameStore.byte {s t : State} (h : SameStore s t) (a : Nat) : t.byte a = s.byte a := by
  rw [State.byte, h.1]
  rfl

theorem SameStore.tag {s t : State} (h : SameStore s t) (k : Nat) : t.tag k = s.tag k := by
  rw [State.tag, h.2]
  rfl

theorem OnlyRegs.sameStore {L : List Nat} {s t : State} (h : OnlyRegs L s t) : SameStore s t :=
  ⟨h.keeps State.mem fun _ _ => rfl, h.keeps State.tags fun _ _ => rfl⟩

theorem sameStore_borrowOrder (s : State) (x : Nat) (y : SMap Nat) :
    SameStore s { s with seq := x, borrowSeq := y } := ⟨rfl, rfl⟩

theorem sameStore_spills (s : State) (l : List Spill) : SameStore s { s with spills := l } := ⟨rfl, rfl⟩

theorem sameStore_grants (s : State) (l : List Grant) : SameStore s { s with grants := l } := ⟨rfl, rfl⟩

theorem sameStore_returned (s : State) (y : SMap Nat) (l : List Spill) :
    SameStore s { s with borrowSeq := y, spills := l } := ⟨rfl, rfl⟩

/-- A granule's holder changes in its register alone: the memory is that of the wiped granule. -/
theorem sameStore_giveGran (s : State) (g c st slot : Nat) :
    SameStore (s.wipe (g * granBytes) granBytes (s.ctxTag c)) (s.giveGran g c st slot) := by
  unfold State.giveGran
  generalize granBytes = size
  exact (onlyRegs_holdGran _ g c st slot).sameStore.trans (sameStore_borrowOrder _ _ _)

theorem grants_borrowOrder (s : State) (x : Nat) (y : SMap Nat) :
    ({ s with seq := x, borrowSeq := y } : State).grants = s.grants := rfl

theorem grants_wipe (s : State) (a n t : Nat) : (s.wipe a n t).grants = s.grants := rfl

theorem grants_giveGran (s : State) (g c st slot : Nat) : (s.giveGran g c st slot).grants = s.grants := by
  unfold State.giveGran
  exact (grants_borrowOrder _ _ _).trans (((onlyRegs_holdGran _ g c st slot).keeps State.grants fun _ _ => rfl).trans
    (grants_wipe s _ _ _))

theorem byte_giveGran (s : State) (g c st slot a : Nat) : (s.giveGran g c st slot).byte a =
    if g * 0x40000 ≤ a ∧ a < g * 0x40000 + 0x40000 then 0 else s.byte a :=
  ((sameStore_giveGran s g c st slot).byte a).trans (byte_wipe s _ _ _ a)

theorem tag_giveGran (s : State) (g c st slot k : Nat) : (s.giveGran g c st slot).tag k =
    if g * 8192 ≤ k ∧ k < g * 8192 + 8192 then s.ctxTag c else s.tag k := by
  refine ((sameStore_giveGran s g c st slot).tag k).trans ((tag_wipe s _ _ _ k).trans
    (if_congr ?_ (Nat.mod_eq_of_lt (ctxTag_lt s c)) rfl))
  unfold granBytes
  omega

/-! ### Copies of the spill engine (R205, R207) -/

/-- What the counter of a channel does not touch, the count of DRAM traffic leaves as it is. -/
theorem countDdr_keeps {β : Type} (p : State → β) (hp : ∀ u wr ch n, p (State.countChannel u wr ch n) = p u)
    (s : State) (wr : Bool) (a n : Nat) : p (s.countDdr wr a n) = p s := by
  unfold State.countDdr
  split
  · refine foldl_keeps p _ ?_ _ s
    intro u q
    exact hp u wr _ _
  · rfl

/-- A request that issues changes the queues of the channels and nothing else. -/
theorem enqueue_keeps {β : Type} (p : State → β) (hp : ∀ (u : State) x, p { u with ddrQ := x } = p u) (s : State) (q : BusReq) :
    p (s.enqueue q) = p s := by
  unfold State.enqueue
  refine foldl_keeps p _ ?_ _ s
  intro u x
  exact hp u _

/-- Outside the byte counters of the channels. -/
def notDdrBytes (b : Nat) : Prop := ∀ ch, b ≠ DDR_CNT_WR_BYTES ch ∧ b ≠ DDR_CNT_RD_BYTES ch

theorem reg_countChannel (s : State) (wr : Bool) (ch n : Nat) {b : Nat} (h : notDdrBytes b) :
    (s.countChannel wr ch n).reg b = s.reg b := by
  unfold State.countChannel
  refine (reg_bump_ne _ _ n b ?_).trans (reg_of_regs rfl b)
  split_ifs
  · exact (h ch).1
  · exact (h ch).2

/-- Without marks a copy moves bytes and tags and changes nothing else. -/
theorem copyCws_clean {s : State} (h : s.ecc = []) (r : MReq) (src dst len : Nat) :
    s.copyCws r src dst len = { s with mem := moveRange src dst len s.mem
                                       tags := moveRange (src / 32) (dst / 32) (len / 32) s.tags
                                       ecc := [] } := by
  unfold State.copyCws
  rw [h]
  simp only [List.filter_nil, List.foldl_nil, h]
  rfl

/-- A granule copied as one request of the spill engine to or from its backing `back`. -/
def State.granCopied (s : State) (r : MReq) (wr : Bool) (src dst back : Nat) : State :=
  ((s.copyCws r src dst granBytes).countDdr wr back granBytes).enqueue (spillBus wr back)

/-- What the copy itself, the count and the queues leave, a granule's copy leaves. -/
theorem granCopied_keeps {β : Type} (p : State → β) (hcount : ∀ u wr ch n, p (State.countChannel u wr ch n) = p u)
    (hqueue : ∀ (u : State) x, p { u with ddrQ := x } = p u) (s : State) (r : MReq) (wr : Bool) (src dst back : Nat) :
    p (s.granCopied r wr src dst back) = p (s.copyCws r src dst granBytes) :=
  (enqueue_keeps p hqueue _ _).trans (countDdr_keeps p hcount _ wr back granBytes)

theorem byte_granCopied {s : State} (h : s.ecc = []) (r : MReq) (wr : Bool) (src dst back a : Nat) :
    (s.granCopied r wr src dst back).byte a = if dst ≤ a ∧ a < dst + 0x40000 then s.byte (a - dst + src) else s.byte a := by
  refine (granCopied_keeps (fun u => u.byte a) (fun _ _ _ _ => rfl) (fun _ _ => rfl) s r wr src dst back).trans ?_
  rw [copyCws_clean h]
  exact mget_moveRange memDefault (fun _ _ => rfl) src dst granBytes s.mem a

theorem tag_granCopied {s : State} (h : s.ecc = []) (r : MReq) (wr : Bool) (src dst back k : Nat) :
    (s.granCopied r wr src dst back).tag k =
      if dst / 32 ≤ k ∧ k < dst / 32 + 8192 then s.tag (k - dst / 32 + src / 32) else s.tag k := by
  refine (granCopied_keeps (fun u => u.tag k) (fun _ _ _ _ => rfl) (fun _ _ => rfl) s r wr src dst back).trans ?_
  rw [copyCws_clean h]
  refine (congrArg BitVec.toNat (mget_moveRange tagDefault (fun _ _ => rfl) (src / 32) (dst / 32) 8192 s.tags k)).trans ?_
  split_ifs <;> rfl

theorem reg_granCopied {s : State} (h : s.ecc = []) (r : MReq) (wr : Bool) (src dst back : Nat) {b : Nat} (hb : notDdrBytes b) :
    (s.granCopied r wr src dst back).reg b = s.reg b := by
  refine (granCopied_keeps (fun u => u.reg b) (fun u wr ch n => reg_countChannel u wr ch n hb) (fun _ _ => rfl)
    s r wr src dst back).trans ?_
  rw [copyCws_clean h]
  exact reg_of_regs rfl b

theorem spills_granCopied {s : State} (h : s.ecc = []) (r : MReq) (wr : Bool) (src dst back : Nat) :
    (s.granCopied r wr src dst back).spills = s.spills := by
  refine (granCopied_keeps (fun u => u.spills) (fun _ _ _ _ => rfl) (fun _ _ => rfl) s r wr src dst back).trans ?_
  rw [copyCws_clean h]

theorem grants_granCopied {s : State} (h : s.ecc = []) (r : MReq) (wr : Bool) (src dst back : Nat) :
    (s.granCopied r wr src dst back).grants = s.grants := by
  refine (granCopied_keeps (fun u => u.grants) (fun _ _ _ _ => rfl) (fun _ _ => rfl) s r wr src dst back).trans ?_
  rw [copyCws_clean h]

/-! ### Occupancy (R203, R230) -/

/-- Outside the registers of occupancy. -/
def notOcc (b : Nat) : Prop := b ≠ SPD_OCC ∧ ∀ f, b ≠ VIRT_FN_W5 f

theorem reg_refreshOcc (s : State) {b : Nat} (h : notOcc b) : s.refreshOcc.reg b = s.reg b := by
  obtain ⟨hocc, hfn⟩ := h
  unfold State.refreshOcc
  refine (reg_foldl _ b _ (fun u f _ => reg_put_ne u _ _ b (hfn f)) _).trans ?_
  repeat rw [reg_put_ne _ _ _ b hocc]

theorem spills_put (s : State) (f : Fref) (n : Nat) : (s.put f n).spills = s.spills := rfl

theorem spills_refreshOcc (s : State) : s.refreshOcc.spills = s.spills := by
  unfold State.refreshOcc
  refine (foldl_keeps State.spills _ (fun u f => spills_put u (VIRT_FN_W5_GRAN_USED f) (u.heldFn f)) _ _).trans ?_
  repeat rw [spills_put]

/-! ### The end of a spill (R205) -/

/-- The bytes of a spill are counted and the granule stands outside. -/
def State.spillCounted (s : State) (p : Spill) : State :=
  { s.bump SPD_CNT_SPILL_BYTES_COUNT granBytes with
    spills := (s.bump SPD_CNT_SPILL_BYTES_COUNT granBytes).spills.map (fun (q : Spill) => if q = p then { q with st := 1 } else q) }

/-- A grant gets a granule; with the last of them it is done. -/
def State.grantGot (s : State) (x y : Grant) : State :=
  if y.victims.isEmpty then { s with grants := s.grants.filter (fun z => z != x) }.grantDone y
  else { s with grants := s.grants.map (fun z => if z = x then y else z) }

theorem spills_bump (s : State) (f : Fref) (n : Nat) : (s.bump f n).spills = s.spills := rfl

theorem spillCounted_one {s : State} {p : Spill} (h : s.spills = [p]) :
    s.spillCounted p = { s.bump SPD_CNT_SPILL_BYTES_COUNT granBytes with spills := [{ p with st := 1 }] } := by
  have hmap : (s.bump SPD_CNT_SPILL_BYTES_COUNT granBytes).spills.map (fun (q : Spill) => if q = p then { q with st := 1 } else q) =
      [{ p with st := 1 }] := by
    rw [spills_bump, h, List.map_singleton, if_pos rfl]
  unfold State.spillCounted
  rw [hmap]

theorem grantGot_more {s : State} {x y : Grant} (h : s.grants = [x]) (hy : y.victims.isEmpty = false) :
    s.grantGot x y = { s with grants := [y] } := by
  unfold State.grantGot
  rw [hy, h, List.map_singleton, if_pos rfl]
  rfl

/-- The granule of `p` is copied to its backing and passes to the grant `x`, in the slot that waits for it there. -/
def State.spilled (s : State) (g : Nat) (p : Spill) (x : Grant) : State :=
  let dst := s.backing p.ctx p.slot
  let slot := ((x.victims.find? (fun v => v.1 == g)).map (fun v => v.2)).getD 0
  let v := if (s.addrError dst granBytes).isSome then s else s.granCopied (s.spillReq p.ctx) true (g * granBytes) dst dst
  ((v.spillCounted p).giveGran g x.ctx (if x.desc.isSome then 2 else 1) slot).grantGot x
    { x with got := x.got ++ [(g, slot)], victims := x.victims.filter (fun v => v.1 != g) }

theorem execSpillComplete_eq (g : Nat) (s : State) :
    execSpillComplete g s = .next (match s.spills.find? (fun p => p.gran == g && p.st == 0),
        s.grants.find? (fun x => x.victims.any (fun v => v.1 == g)) with
      | some p, some x => if !s.ctxQuiet p.ctx then s else (s.spilled g p x).refreshOcc.settle
      | _, _ => s) := by
  unfold execSpillComplete State.spilled State.granCopied State.spillCounted State.grantGot
  rfl

theorem exec_spillComplete (g : Nat) (s : State) : exec (.spillComplete g) s = execSpillComplete g s := rfl

theorem spillComplete_ends {s : State} {g : Nat} {p : Spill} {x : Grant}
    (hp : s.spills.find? (fun p => p.gran == g && p.st == 0) = some p)
    (hx : s.grants.find? (fun x => x.victims.any (fun v => v.1 == g)) = some x) (hq : s.ctxQuiet p.ctx = true) :
    exec (.spillComplete g) s = .next (s.spilled g p x).refreshOcc.settle := by
  rw [exec_spillComplete, execSpillComplete_eq, hp, hx]
  dsimp only
  rw [hq, Bool.not_true, if_neg Bool.false_ne_true]

theorem spillComplete_idle {s : State} (h : s.spills = []) (g : Nat) : exec (.spillComplete g) s = .next s := by
  rw [exec_spillComplete, execSpillComplete_eq, h]
  rfl

theorem grants_withSpills (s : State) (l : List Spill) : ({ s with spills := l } : State).grants = s.grants := rfl

theorem grants_spillCounted (s : State) (p : Spill) : (s.spillCounted p).grants = s.grants := by
  unfold State.spillCounted
  exact (grants_withSpills _ _).trans ((onlyRegs_bump s _ _).keeps State.grants fun _ _ => rfl)

/-- The bytes and tags of a granule that stand in its backing too. -/
def State.spillStored (s : State) (p : Spill) : State :=
  s.granCopied (s.spillReq p.ctx) true (p.gran * granBytes) (s.backing p.ctx p.slot) (s.backing p.ctx p.slot)

/-- The state after the end of a spill whose grant waits for the granules `rest`. -/
def State.spillLeft (s : State) (p : Spill) (x : Grant) (sl : Nat) (rest : List (Nat × Nat)) : State :=
  let w : State := { (s.spillStored p).bump SPD_CNT_SPILL_BYTES_COUNT granBytes with spills := [{ p with st := 1 }] }
  { w.giveGran p.gran x.ctx (if x.desc.isSome then 2 else 1) sl with
    grants := [{ x with got := x.got ++ [(p.gran, sl)], victims := rest }] }

theorem spilled_more {s : State} {p : Spill} {x : Grant} {g2 sl sl2 : Nat} (he : s.ecc = []) (hp : s.spills = [p])
    (hx : s.grants = [x]) (hv : x.victims = [(p.gran, sl), (g2, sl2)]) (hne : g2 ≠ p.gran)
    (ha : s.addrError (s.backing p.ctx p.slot) granBytes = none) :
    s.spilled p.gran p x = s.spillLeft p x sl [(g2, sl2)] := by
  have hslot : ((x.victims.find? (fun v => v.1 == p.gran)).map (fun v => v.2)).getD 0 = sl := by simp [hv]
  have hrest : x.victims.filter (fun v => v.1 != p.gran) = [(g2, sl2)] := by simp [hv, hne]
  unfold State.spilled State.spillLeft State.spillStored
  simp only [ha, hslot, hrest, Option.isSome_none, Bool.false_eq_true, if_false]
  rw [grantGot_more (by rw [grants_giveGran, grants_spillCounted, grants_granCopied he, hx]) rfl,
    spillCounted_one (by rw [spills_granCopied he, hp])]

/-! ### What the spill engine leaves of the registers it reads -/

theorem notDdrBytes_of_lt {b : Nat} (h : b < 0x600000) : notDdrBytes b := fun ch => by
  unfold DDR_CNT_WR_BYTES DDR_CNT_RD_BYTES
  omega

theorem notDdrBytes_ctxStat {c : Nat} (h : c < 256) : notDdrBytes (SCH_CTX_STAT c) := fun ch => by
  unfold DDR_CNT_WR_BYTES DDR_CNT_RD_BYTES SCH_CTX_STAT
  omega

theorem notOcc_ctxStat {c : Nat} (h : c < 256) : notOcc (SCH_CTX_STAT c) := by
  unfold notOcc SCH_CTX_STAT SPD_OCC VIRT_FN_W5
  exact ⟨by omega, fun f => by omega⟩

/-- The counters of the spill engine lie apart from the granules. -/
theorem gran_apart {g : Nat} (h : g < 512) : SPD_GRAN g ≠ SPD_CNT_SPILL_BYTES ∧ SPD_GRAN g ≠ SPD_CNT_RESTORE_BYTES := by
  unfold SPD_GRAN SPD_CNT_SPILL_BYTES SPD_CNT_RESTORE_BYTES
  omega

theorem sameStore_bumpSpills (s : State) (f : Fref) (n : Nat) (l : List Spill) :
    SameStore s { s.bump f n with spills := l } := (onlyRegs_bump s f n).sameStore.trans (sameStore_spills _ l)

section
variable (s : State) (p : Spill) (x : Grant) (sl : Nat) (rest : List (Nat × Nat))

theorem reg_withSpills (l : List Spill) (b : Nat) : ({ s with spills := l } : State).reg b = s.reg b := reg_of_regs rfl b

theorem reg_withGrants (l : List Grant) (b : Nat) : ({ s with grants := l } : State).reg b = s.reg b := reg_of_regs rfl b

theorem byte_spillLeft (a : Nat) : (s.spillLeft p x sl rest).byte a =
    if p.gran * 0x40000 ≤ a ∧ a < p.gran * 0x40000 + 0x40000 then 0 else (s.spillStored p).byte a := by
  unfold State.spillLeft
  refine ((sameStore_grants _ _).byte a).trans ((byte_giveGran _ _ _ _ _ a).trans (if_congr Iff.rfl rfl ?_))
  exact (sameStore_bumpSpills _ _ _ _).byte a

theorem tag_spillLeft (k : Nat) (hk : ¬ (p.gran * 8192 ≤ k ∧ k < p.gran * 8192 + 8192)) :
    (s.spillLeft p x sl rest).tag k = (s.spillStored p).tag k := by
  unfold State.spillLeft
  refine ((sameStore_grants _ _).tag k).trans ((tag_giveGran _ _ _ _ _ k).trans ((if_neg hk).trans ?_))
  exact (sameStore_bumpSpills _ _ _ _).tag k

theorem get_ctx_spillLeft : (s.spillLeft p x sl rest).get (SPD_GRAN_CTX p.gran) = x.ctx % 256 := by
  unfold State.spillLeft
  refine (get_of_reg (reg_withGrants _ _ _)).trans ((get_giveGran _ _ _ _ _ _).trans (get_ctx_holdGran _ _ _ _ ?_))
  split_ifs <;> decide

theorem get_bytes_spillLeft (he : s.ecc = []) (hg : p.gran < 512) : (s.spillLeft p x sl rest).get SPD_CNT_SPILL_BYTES_COUNT =
    min (s.get SPD_CNT_SPILL_BYTES_COUNT + 0x40000) (2 ^ 64 - 1) := by
  have hstored : (s.spillStored p).get SPD_CNT_SPILL_BYTES_COUNT = s.get SPD_CNT_SPILL_BYTES_COUNT :=
    get_of_reg (reg_granCopied he _ _ _ _ _ (notDdrBytes_of_lt (by decide)))
  unfold State.spillLeft
  refine (get_of_reg (reg_withGrants _ _ _)).trans ((get_giveGran _ _ _ _ _ _).trans
    ((get_of_reg (reg_holdGran _ _ _ _ _ _ (gran_apart hg).1.symm)).trans ((get_of_reg (reg_withSpills _ _ _)).trans
      ((get_bump _ _ _ (by decide)).trans ?_))))
  exact congrArg (fun n => satN 64 (n + granBytes)) hstored

end

/-! ### Restores (R207) -/

theorem exec_granuleRestore (c : Nat) (s : State) : exec (.granuleRestore c) s = execGranuleRestore c s := rfl

theorem exec_restoreComplete (c : Nat) (s : State) : exec (.restoreComplete c) s = execRestoreComplete c s := rfl

theorem granuleRestore_idle {s : State} (h : s.spills = []) (c : Nat) : exec (.granuleRestore c) s = .next s := by
  rw [exec_granuleRestore]
  unfold execGranuleRestore State.restorable
  simp only [h, List.filter_nil, List.isEmpty_nil, true_or, or_true, if_true]

theorem restoreComplete_idle {s : State} (h : s.spills = []) (c : Nat) : exec (.restoreComplete c) s = .next s := by
  rw [exec_restoreComplete]
  unfold execRestoreComplete
  simp only [h, List.filter_nil, List.isEmpty_nil, if_true]

/-- The original granule of the one spill is FREE: it is reserved. -/
theorem granuleRestore_reserves {s : State} {p : Spill} (hp : s.spills = [p]) (h1 : p.st = 1)
    (hst : s.get (SCH_CTX_STAT_STATE p.ctx) = 3) (hfree : s.get (SPD_GRAN_STATE p.gran) = 0) :
    exec (.granuleRestore p.ctx) s =
      .next ({ s.holdGran p.gran p.ctx 4 p.slot with spills := [{ p with st := 2 }] } : State).refreshOcc := by
  have hrest : s.restorable p.ctx = [p] := by
    unfold State.restorable State.granIn
    simp [hp, h1, hfree]
  have hspills : (s.holdGran p.gran p.ctx 4 p.slot).spills = [p] :=
    ((onlyRegs_holdGran s _ _ _ _).keeps State.spills fun _ _ => rfl).trans hp
  rw [exec_granuleRestore]
  unfold execGranuleRestore
  simp only [hrest, hp, hst, hspills, List.any_cons, List.any_nil, lt_irrefl, decide_false, Bool.false_and, Bool.or_false,
    List.isEmpty_cons, Bool.false_eq_true, true_or, not_true, or_false, if_false, List.foldl_cons, List.foldl_nil,
    List.map_cons, List.map_nil, List.contains_cons, beq_self_eq_true, Bool.true_or, if_true]

/-- A granule's holder and the count of a restore, once its bytes and tags are back. -/
def State.broughtBack (s : State) (p : Spill) : State :=
  { (s.holdGran p.gran p.ctx 2 p.slot).bump SPD_CNT_RESTORE_BYTES_COUNT granBytes with
    borrowSeq := mset (fun _ => 0)
      ((s.holdGran p.gran p.ctx 2 p.slot).bump SPD_CNT_RESTORE_BYTES_COUNT granBytes).borrowSeq p.gran p.seq
    spills := ((s.holdGran p.gran p.ctx 2 p.slot).bump SPD_CNT_RESTORE_BYTES_COUNT granBytes).spills.filter (fun q => q != p) }

/-- The bytes and tags of a granule that are back from its backing. -/
def State.spillRead (s : State) (p : Spill) : State :=
  s.granCopied (s.spillReq p.ctx) false (s.backing p.ctx p.slot) (p.gran * granBytes) (s.backing p.ctx p.slot)

theorem restoreOne_mapped {s : State} {p : Spill} (ha : s.addrError (s.backing p.ctx p.slot) granBytes = none) :
    s.restoreOne p = (s.spillRead p).broughtBack p := by
  unfold State.restoreOne
  simp only [ha, Option.isSome_none, Bool.false_eq_true, if_false]
  rfl

theorem onlyRegs_broughtBack (s : State) (p : Spill) : OnlyRegs [SPD_GRAN p.gran, SPD_CNT_RESTORE_BYTES] s
    ((s.holdGran p.gran p.ctx 2 p.slot).bump SPD_CNT_RESTORE_BYTES_COUNT granBytes) :=
  (onlyRegs_holdGran s _ _ _ _).trans (onlyRegs_bump _ _ _)

theorem reg_returned (s : State) (y : SMap Nat) (l : List Spill) (b : Nat) :
    ({ s with borrowSeq := y, spills := l } : State).reg b = s.reg b := reg_of_regs rfl b

theorem spills_returned (s : State) (y : SMap Nat) (l : List Spill) :
    ({ s with borrowSeq := y, spills := l } : State).spills = l := rfl

theorem sameStore_broughtBack (s : State) (p : Spill) : SameStore s (s.broughtBack p) :=
  (onlyRegs_broughtBack s p).sameStore.trans (sameStore_returned _ _ _)

theorem spills_broughtBack {s : State} {p : Spill} (h : s.spills = [p]) : (s.broughtBack p).spills = [] := by
  unfold State.broughtBack
  rw [spills_returned, (onlyRegs_broughtBack s p).keeps State.spills fun _ _ => rfl, h]
  simp

theorem get_state_broughtBack (s : State) {p : Spill} (h : p.gran < 512) :
    (s.broughtBack p).get (SPD_GRAN_STATE p.gran) = 2 := by
  unfold State.broughtBack
  exact (get_of_reg (reg_returned _ _ _ _)).trans ((get_of_reg (reg_bump_ne _ _ _ _ (gran_apart h).2)).trans
    (get_state_holdGran s p.gran p.ctx p.slot (by decide)))

theorem get_ctxState_broughtBack (s : State) (p : Spill) {c : Nat} (hg : p.gran < 512) :
    (s.broughtBack p).get (SCH_CTX_STAT_STATE c) = s.get (SCH_CTX_STAT_STATE c) := by
  unfold State.broughtBack
  refine get_of_reg ((reg_returned _ _ _ _).trans ((onlyRegs_broughtBack s p).2 _ ?_))
  have happart : SCH_CTX_STAT c ≠ SPD_GRAN p.gran ∧ SCH_CTX_STAT c ≠ SPD_CNT_RESTORE_BYTES := by
    unfold SCH_CTX_STAT SPD_GRAN SPD_CNT_RESTORE_BYTES
    omega
  exact fun hmem => (List.mem_cons.mp hmem).elim happart.1 fun hmem => happart.2 (List.mem_singleton.mp hmem)

/-- With nothing of it left outside, a spilled context runs again. -/
theorem restoreComplete_runs {s u : State} {p : Spill} (hp : s.spills = [p]) (h2 : p.st = 2) (hu : s.restoreOne p = u)
    (hnone : u.spills = []) (hst : u.refreshOcc.get (SCH_CTX_STAT_STATE p.ctx) = 3) :
    exec (.restoreComplete p.ctx) s = .next (u.refreshOcc.put (SCH_CTX_STAT_STATE p.ctx) 2).settle := by
  have hback : s.spills.filter (fun q => q.ctx == p.ctx && q.st == 2) = [p] := by simp [hp, h2]
  have hleft : u.refreshOcc.spills.any (fun q => q.ctx == p.ctx) = false := by rw [spills_refreshOcc, hnone]; rfl
  rw [exec_restoreComplete]
  unfold execRestoreComplete
  simp only [hback, List.isEmpty_cons, Bool.false_eq_true, if_false, List.foldl_cons, List.foldl_nil, hu, hleft, hst, if_true]

/-! ### Where the bytes and tags of a granule stand after its copy -/

theorem backing_aligned (s : State) (c slot : Nat) : s.backing c slot % 32 = 0 := by
  unfold State.backing granBytes
  omega

theorem home_aligned (g : Nat) : g * granBytes / 32 = g * 8192 := by
  unfold granBytes
  omega

/-- A spilled granule stands in its backing, and its home is cleared for the next holder. -/
theorem byte_spillLeft_backing {s : State} {p : Spill} (x : Grant) (sl : Nat) (rest : List (Nat × Nat)) (he : s.ecc = [])
    (hg : p.gran < 512) (hb : 0x8000000 ≤ s.backing p.ctx p.slot) (a : Nat) :
    (s.spillLeft p x sl rest).byte a =
      if s.backing p.ctx p.slot ≤ a ∧ a < s.backing p.ctx p.slot + 0x40000 then
        s.byte (a - s.backing p.ctx p.slot + p.gran * 0x40000)
      else if p.gran * 0x40000 ≤ a ∧ a < p.gran * 0x40000 + 0x40000 then 0 else s.byte a := by
  have hstored : (s.spillStored p).byte a = _ := byte_granCopied he _ _ _ _ _ a
  rw [byte_spillLeft, hstored]
  generalize s.backing p.ctx p.slot = back at hb
  by_cases hin : back ≤ a ∧ a < back + 0x40000
  · rw [if_neg (by omega), if_pos hin, if_pos hin]
    rfl
  · rw [if_neg hin, if_neg hin]

theorem tag_spillLeft_backing {s : State} {p : Spill} (x : Grant) (sl : Nat) (rest : List (Nat × Nat)) (he : s.ecc = [])
    (hg : p.gran < 512) (hb : 0x8000000 ≤ s.backing p.ctx p.slot) {k : Nat} (hk : k < 8192) :
    (s.spillLeft p x sl rest).tag (s.backing p.ctx p.slot / 32 + k) = s.tag (p.gran * 8192 + k) := by
  have hstored : (s.spillStored p).tag (s.backing p.ctx p.slot / 32 + k) = _ := tag_granCopied he _ _ _ _ _ _
  rw [tag_spillLeft _ _ _ _ _ _ (by omega), hstored, if_pos (by omega), home_aligned]
  congr 1
  omega

/-- A restored granule stands in its home again. -/
theorem byte_broughtBack {s : State} (p : Spill) (he : s.ecc = []) (a : Nat) : ((s.spillRead p).broughtBack p).byte a =
    if p.gran * 0x40000 ≤ a ∧ a < p.gran * 0x40000 + 0x40000 then s.byte (a - p.gran * 0x40000 + s.backing p.ctx p.slot)
    else s.byte a :=
  ((sameStore_broughtBack _ p).byte a).trans (byte_granCopied he _ _ _ _ _ a)

theorem tag_broughtBack {s : State} (p : Spill) (he : s.ecc = []) {k : Nat} (hk : k < 8192) :
    ((s.spillRead p).broughtBack p).tag (p.gran * 8192 + k) = s.tag (s.backing p.ctx p.slot / 32 + k) := by
  refine ((sameStore_broughtBack _ p).tag _).trans ((tag_granCopied he _ _ _ _ _ _).trans ?_)
  rw [home_aligned, if_pos (by omega)]
  congr 1
  omega

/-- A spilled context is still spilled when its granule is back, until its state is put. -/
theorem get_ctxState_restored {s : State} {p : Spill} (he : s.ecc = []) (hg : p.gran < 512) (hc : p.ctx < 256) :
    ((s.spillRead p).broughtBack p).refreshOcc.get (SCH_CTX_STAT_STATE p.ctx) = s.get (SCH_CTX_STAT_STATE p.ctx) :=
  (get_of_reg (reg_refreshOcc _ (notOcc_ctxStat hc))).trans ((get_ctxState_broughtBack _ p hg).trans
    (get_of_reg (reg_granCopied he _ _ _ _ _ (notDdrBytes_ctxStat hc))))

theorem spills_spillRead {s : State} {p : Spill} (he : s.ecc = []) (hp : s.spills = [p]) : (s.spillRead p).spills = [p] :=
  (spills_granCopied he _ _ _ _ _).trans hp

/-- Settles O21: the checks of a borrow and of a return branch by branch; a spill and a restore as one copied granule whose
holder changes in its own register; a granule that passes as a wiped range with its holder's tag and fields. -/
theorem granulesMoveWhole : Obligations.GranulesMoveWhole := by
  refine ⟨?borrowing, ?spilling, ?giving⟩
  case borrowing =>
    intro i d s hd c n s1 done refused may slots give lend short
    have hid : d.id = i := id_of_desc? hd
    refine ⟨fun hr h0 => ⟨fun st a hm => ?_, fun hm hb => ?_, fun hm hb hs => ?_, fun hm hb hs => ?_⟩,
      fun hr h1 hg => exec_spdBorrow_waiting hd hr h1 hg, fun hr => ⟨fun u bs hu => ⟨fun hall => ?_, ?_⟩, fun u st a hu => ?_⟩⟩
    · rw [exec_spdBorrow_first hd hr h0, borrow_unwritable hm, hid]
      rfl
    · rw [exec_spdBorrow_first hd hr h0, borrow_closed hm hb, hid]
      rfl
    · rw [exec_spdBorrow_first hd hr h0, borrow_short hm hb hs, hid]
      rfl
    · rw [exec_spdBorrow_first hd hr h0, borrow_granted hm hb hs, hid]
      rfl
    · rw [exec_spdReturn, ownWork_done 36 hd hr (workSpdReturn_freed hu (List.find?_eq_none.mpr fun a ha => by
        rw [(returnable_iff s _ a).mpr (hall a ha)]
        decide))]
      rfl
    · intro pre a post has hpre hbad
      rw [exec_spdReturn, ownWork_failed 36 hd hr (workSpdReturn_bad hu (List.find?_eq_some_iff_append.mpr
        ⟨by simpa using mt (returnable_iff s _ a).mp hbad, pre, post, has, fun b hb => by
          simpa using (returnable_iff s _ b).mpr (hpre b hb)⟩))]
      rfl
    · rw [exec_spdReturn, ownWork_failed 36 hd hr (workSpdReturn_unread hu)]
      rfl
  case spilling =>
    intro s p he hg hc hst back home ha hb
    refine ⟨fun x g2 sl sl2 hp h0 hx hv hne hq => ?_, fun hp h1 hfree => ?_, fun hp h2 => ?_, fun hnone =>
      ⟨spillComplete_idle hnone _, granuleRestore_idle hnone _, restoreComplete_idle hnone _⟩⟩
    · refine ⟨?_, byte_spillLeft_backing x sl [(g2, sl2)] he hg hb, fun k => tag_spillLeft_backing x sl [(g2, sl2)] he hg hb,
        get_ctx_spillLeft s p x sl [(g2, sl2)], get_bytes_spillLeft s p x sl [(g2, sl2)] he hg⟩
      rw [spillComplete_ends (p := p) (x := x) (by simp [hp, h0]) (by simp [hx, hv]) hq, spilled_more he hp hx hv hne ha]
      rfl
    · have hkept := (onlyRegs_holdGran s p.gran p.ctx 4 p.slot).sameStore.trans (sameStore_spills _ [{ p with st := 2 }])
      exact ⟨granuleRestore_reserves hp h1 hst hfree,
        (get_of_reg (reg_withSpills _ _ _)).trans (get_state_holdGran s _ _ _ (by decide)), hkept.1, hkept.2⟩
    · have hnone : ((s.spillRead p).broughtBack p).spills = [] := spills_broughtBack (spills_spillRead he hp)
      intro u
      have hu : u = (s.spillRead p).broughtBack p := restoreOne_mapped ha
      rw [hu]
      exact ⟨restoreComplete_runs hp h2 hu hnone ((get_ctxState_restored he hg hc).trans hst), byte_broughtBack p he,
        fun k => tag_broughtBack p he, get_state_broughtBack _ hg, hnone⟩
  case giving =>
    intro g c st slot s hg hc hst hslot t
    obtain ⟨hgslot, hpart, hcrit, hw⟩ := holdGran_fields s g hc hst hslot
    refine ⟨fun a => ?_, fun k => ?_, (get_giveGran _ _ _ _ _ _).trans (get_state_holdGran s g c slot hst),
      (get_giveGran _ _ _ _ _ _).trans ((get_ctx_holdGran s g c slot hst).trans (Nat.mod_eq_of_lt hc)),
      (get_giveGran _ _ _ _ _ _).trans hgslot, (get_giveGran _ _ _ _ _ _).trans hpart,
      (get_giveGran _ _ _ _ _ _).trans hcrit, (get_giveGran _ _ _ _ _ _).trans hw,
      fun b hb => (reg_giveGran _ _ _ _ _ b).trans (reg_holdGran s g c st slot b hb)⟩
    · rw [Nat.add_one_mul]
      exact byte_giveGran s g c st slot a
    · rw [Nat.add_one_mul]
      exact tag_giveGran s g c st slot k

end Sys2Proof.Machine
end

section
/-!
SUPPORT. The fields of the display windows take no part in memory reads (R21, R22, R373): a read gives the same bytes or the
same failure whichever display windows are open, and so a parameter block reads the same when one has closed.
-/

namespace Sys2Proof.Machine

/-- The state with other open display windows and other denials counted. -/
def State.withDwin (s : State) (a : List Nat) (b : List (Nat × Nat)) : State := { s with dwins := a, denied := b }

/-- A result with other display windows. -/
def carry {β : Type} (a : List Nat) (b : List (Nat × Nat)) (p : State × β) : State × β := (p.1.withDwin a b, p.2)

/-- Two results are the same value, and where it is good the states differ in the display windows only. -/
def Alike {β : Type} (a : List Nat) (b : List (Nat × Nat)) (good : β → Prop) (p p' : State × β) : Prop :=
  p'.2 = p.2 ∧ (good p.2 → p'.1 = p.1.withDwin a b)

theorem Alike.cases {β : Type} {a : List Nat} {b : List (Nat × Nat)} {good : β → Prop} {p p' : State × β}
    (h : Alike a b good p p') :
    (∃ t t' x, ¬ good x ∧ p = (t, x) ∧ p' = (t', x)) ∨ ∃ t x, good x ∧ p = (t, x) ∧ p' = (t.withDwin a b, x) := by
  obtain ⟨t, x⟩ := p
  obtain ⟨t', x'⟩ := p'
  obtain ⟨hval, hst⟩ := h
  obtain rfl : x' = x := hval
  by_cases hx : good x'
  · exact .inr ⟨t, x', hx, rfl, Prod.ext (hst hx) rfl⟩
  · exact .inl ⟨t, t', x', hx, rfl, rfl⟩

section
variable (a : List Nat) (b : List (Nat × Nat)) (s : State)

theorem alike_carry {β : Type} (good : β → Prop) (p : State × β) : Alike a b good p (carry a b p) := ⟨rfl, fun _ => rfl⟩

theorem alike_bad {β : Type} {good : β → Prop} {x : β} (h : ¬ good x) (t t' : State) : Alike a b good (t, x) (t', x) :=
  ⟨rfl, fun hx => absurd hx h⟩

/-- A choice by conditions that agree is the image of the choice. -/
theorem ite_eq_map {α β : Type} (g : α → β) {c c' : Prop} [Decidable c] [Decidable c'] {x y : α} {x' y' : β} (hc : c' ↔ c)
    (hx : x' = g x) (hy : y' = g y) : (if c' then x' else y') = g (if c then x else y) := by
  rw [hx, hy, apply_ite g]
  exact ite_congr (propext hc) (fun _ => rfl) (fun _ => rfl)

theorem ite_withDwin {c c' : Prop} [Decidable c] [Decidable c'] {x y x' y' : State} (hc : c' ↔ c)
    (hx : x' = x.withDwin a b) (hy : y' = y.withDwin a b) : (if c' then x' else y') = (if c then x else y).withDwin a b :=
  ite_eq_map (fun u : State => u.withDwin a b) hc hx hy

theorem foldl_withDwin {α : Type} {f f' : State → α → State} (hf : ∀ u x, f' (u.withDwin a b) x = (f u x).withDwin a b)
    (l : List α) : ∀ s : State, l.foldl f' (s.withDwin a b) = (l.foldl f s).withDwin a b := by
  induction l with
  | nil => exact fun _ => rfl
  | cons x l ih => intro s; rw [List.foldl_cons, hf, ih]; rfl

/-! ### Charges at the ports -/

theorem enqueue_withDwin (q : BusReq) : (s.withDwin a b).enqueue q = (s.enqueue q).withDwin a b :=
  foldl_withDwin a b (fun _ _ => rfl) _ s

theorem issueReq_withDwin (q : BusReq) (now : Bool) :
    (s.withDwin a b).issueReq q now = (s.issueReq q now).withDwin a b := by
  refine Eq.trans (congrArg (State.enqueue · q) ?_) (enqueue_withDwin a b _ q)
  obtain ⟨_, _, _, _, sec, _, _, _, _, _⟩ := q
  cases sec <;> exact ite_withDwin a b Iff.rfl rfl rfl

theorem refreshHeld_withDwin (p : Nat) : (s.withDwin a b).refreshHeld p = (s.refreshHeld p).withDwin a b :=
  foldl_withDwin a b (fun _ _ => rfl) _ s

theorem holdReq_withDwin (q : BusReq) : (s.withDwin a b).holdReq q = (s.holdReq q).withDwin a b :=
  ite_withDwin a b Iff.rfl rfl (refreshHeld_withDwin a b { s with qosHeld := _, qosHold := _ } q.port)

theorem charge_withDwin (r : MReq) (wr : Bool) (x n : Nat) :
    (s.withDwin a b).charge r wr x n = carry a b (s.charge r wr x n) := by
  have hport : (s.withDwin a b).portOf r wr = s.portOf r wr := rfl
  unfold State.charge
  rw [hport]
  split
  · exact ite_eq_map (carry a b) Iff.rfl (Prod.ext (enqueue_withDwin a b s _) rfl) (ite_eq_map _ Iff.rfl rfl
      (ite_eq_map _ Iff.rfl rfl (ite_eq_map _ Iff.rfl (Prod.ext (issueReq_withDwin a b s _ _) rfl)
        (Prod.ext (holdReq_withDwin a b s _) rfl))))
  · rfl

/-! ### Codewords -/

theorem countCorr_withDwin (x : Nat) : (s.withDwin a b).countCorr x = (s.countCorr x).withDwin a b := by
  unfold State.countCorr
  cases spaceOf x <;> rfl

theorem alike_decodeCw (r : MReq) (x : Nat) :
    Alike a b (· = true) (s.decodeCw r x) ((s.withDwin a b).decodeCw r x) := by
  have hecc : (s.withDwin a b).eccAt (x / 32) = s.eccAt (x / 32) := rfl
  unfold State.decodeCw
  rw [hecc]
  cases s.eccAt (x / 32) with
  | none => exact alike_carry a b _ (s, true)
  | some e =>
    dsimp only
    split_ifs
    · exact ⟨rfl, fun _ => countCorr_withDwin a b (s.setEcc (x / 32) none) x⟩
    · exact alike_bad a b (by nofun) _ _

theorem alike_readCws (r : MReq) (l : List Nat) :
    ∀ s : State, Alike a b (· = none) (s.readCws r l) ((s.withDwin a b).readCws r l) := by
  induction l with
  | nil => exact fun s => alike_carry a b _ (s, none)
  | cons x l ih =>
    intro s
    unfold State.readCws
    rcases (alike_decodeCw a b s r x).cases with ⟨t, t', ok, hok, ht, ht'⟩ | ⟨t, ok, rfl, ht, ht'⟩
    · rw [ht, ht', Bool.eq_false_iff.mpr hok]
      exact alike_bad a b (by nofun) _ _
    · have htag : (t.withDwin a b).tag (x / 32) = t.tag (x / 32) := rfl
      rw [ht, ht']
      simp only [htag, Bool.not_true, Bool.false_eq_true, if_false]
      split_ifs
      · exact alike_bad a b (by nofun) _ _
      · exact ih t

/-! ### Local and peer reads -/

/-- The result is a value. -/
def IsOk {β : Type} (x : Except MErr β) : Prop := ∃ y, x = .ok y

theorem not_isOk_error {β : Type} (e : MErr) : ¬ IsOk (.error e : Except MErr β) := fun ⟨_, h⟩ => nomatch h

theorem exists_error_of_not_isOk {β : Type} {x : Except MErr β} (h : ¬ IsOk x) : ∃ e, x = .error e := by
  cases x with
  | error e => exact ⟨e, rfl⟩
  | ok y => exact absurd ⟨y, rfl⟩ h

theorem firstRefused_withDwin (r : MReq) (wr own : Bool) (l : List Nat) :
    (s.withDwin a b).firstRefused r wr own l = s.firstRefused r wr own l := by
  induction l with
  | nil => rfl
  | cons x l ih => unfold State.firstRefused; rw [ih]; rfl

theorem rawBytes_withDwin (x n : Nat) : (s.withDwin a b).rawBytes x n = s.rawBytes x n := by
  induction n generalizing x with
  | zero => rfl
  | succ n ih => unfold State.rawBytes; rw [ih]; rfl

theorem alike_readLocal (r : MReq) (x n : Nat) :
    Alike a b IsOk (s.readLocal r x n) ((s.withDwin a b).readLocal r x n) := by
  unfold State.readLocal
  rw [firstRefused_withDwin, charge_withDwin]
  cases s.firstRefused r false false (cwAddrs x n) with
  | some p => exact alike_bad a b (not_isOk_error _) _ _
  | none =>
    rcases s.charge r false x n with ⟨t, ok⟩
    cases ok with
    | false => exact alike_bad a b (not_isOk_error _) _ _
    | true =>
      dsimp only [carry]
      rcases (alike_readCws a b r (cwAddrs x n) t).cases with ⟨v, v', e, he, hv, hv'⟩ | ⟨v, e, rfl, hv, hv'⟩
      · obtain ⟨e, rfl⟩ := Option.ne_none_iff_exists'.mp he
        rw [hv, hv']
        exact alike_bad a b (not_isOk_error _) _ _
      · rw [hv, hv']
        exact ⟨congrArg Except.ok (rawBytes_withDwin a b v x n), fun _ => rfl⟩

theorem txPkt_withDwin (p : Nat) (k : LnkPkt) : (s.withDwin a b).txPkt p k = (s.txPkt p k).withDwin a b :=
  ite_withDwin a b Iff.rfl rfl (ite_withDwin a b Iff.rfl rfl rfl)

theorem alike_peerIssue (r : MReq) (op dev o units arg arg2 cmp : Nat) (data : List Byte) :
    Alike a b (· = true) (s.peerIssue r op dev o units arg arg2 cmp data)
      ((s.withDwin a b).peerIssue r op dev o units arg arg2 cmp data) := by
  have hroute : (s.withDwin a b).routePort dev o = s.routePort dev o := rfl
  unfold State.peerIssue
  rw [hroute]
  cases s.routePort dev o with
  | none => exact alike_bad a b (by nofun) _ _
  | some p => exact ⟨rfl, fun _ => txPkt_withDwin a b { s with lnkOut := _ } _ _⟩

/-- A result whose value is worked on. -/
def onOk (f : List Byte → Except MErr (List Byte)) : State × Except MErr (List Byte) → State × Except MErr (List Byte)
  | (s, .ok bs) => (s, f bs)
  | e => e

theorem alike_onOk (f : List Byte → Except MErr (List Byte)) {p p' : State × Except MErr (List Byte)}
    (h : Alike a b IsOk p p') : Alike a b IsOk (onOk f p) (onOk f p') := by
  rcases h.cases with ⟨v, v', e, he, rfl, rfl⟩ | ⟨v, e, ⟨bs, rfl⟩, rfl, rfl⟩
  · obtain ⟨e, rfl⟩ := exists_error_of_not_isOk he
    exact alike_bad a b he _ _
  · exact alike_carry a b IsOk (v, f bs)

theorem alike_peerGather (r : MReq) (dev : Nat) (l : List (Nat × Nat)) :
    ∀ s : State, Alike a b IsOk (s.peerGather r dev l) ((s.withDwin a b).peerGather r dev l) := by
  induction l with
  | nil => exact fun s => alike_carry a b IsOk (s, Except.ok [])
  | cons c l ih =>
    obtain ⟨x, n⟩ := c
    intro s
    have hpeer : (s.withDwin a b).peerData = s.peerData := rfl
    have hlnk : (s.withDwin a b).lnkOut = s.lnkOut := rfl
    unfold State.peerGather
    rw [hpeer, hlnk]
    dsimp only
    split
    · next p hp =>
      cases p.err with
      | some e => exact alike_bad a b (not_isOk_error _) _ _
      | none =>
        dsimp only
        split_ifs
        · exact alike_bad a b (not_isOk_error _) _ _
        · cases p.rx with
          | none => exact alike_onOk a b (fun bs => .ok (p.data ++ bs)) (ih s)
          | some y =>
            dsimp only
            rcases (alike_readLocal a b s r y n).cases with ⟨t, t', e, he, ht, ht'⟩ | ⟨t, e, ⟨data, rfl⟩, ht, ht'⟩
            · obtain ⟨e, rfl⟩ := exists_error_of_not_isOk he
              rw [ht, ht']
              exact alike_bad a b (not_isOk_error _) _ _
            · rw [ht, ht']
              exact alike_onOk a b (fun bs => .ok (data ++ bs)) (ih t)
    · split_ifs
      · exact alike_onOk a b (fun _ => .error .wait) (ih s)
      · rcases (alike_peerIssue a b s r 0 dev (x % 0x10000000000) (n / 32) 0 0 0 []).cases with
          ⟨t, t', ok, hok, ht, ht'⟩ | ⟨t, ok, rfl, ht, ht'⟩
        · rw [ht, ht', Bool.eq_false_iff.mpr hok]
          exact alike_bad a b (not_isOk_error _) _ _
        · rw [ht, ht']
          exact alike_onOk a b (fun _ => .error .wait) (ih t)

/-! ### The one read, and the parameter block -/

theorem hostBytes_withDwin (x n : Nat) : (s.withDwin a b).hostBytes x n = s.hostBytes x n := by
  induction n generalizing x with
  | zero => rfl
  | succ n ih => unfold State.hostBytes; rw [ih]; rfl

theorem readHost_withDwin (r : MReq) (x n : Nat) : ((s.withDwin a b).readHost r x n).2 = (s.readHost r x n).2 := by
  have hcheck : (s.withDwin a b).winCheck r x n = s.winCheck r x n := rfl
  unfold State.readHost
  rw [hcheck]
  cases s.winCheck r x n with
  | error e => rfl
  | ok p =>
    obtain ⟨w, bus⟩ := p
    have hbus : (s.withDwin a b).busOk ((s.withDwin a b).get (WBR_WIN_W0_FUNC w)) = s.busOk (s.get (WBR_WIN_W0_FUNC w)) := rfl
    dsimp only
    rw [hbus]
    split_ifs
    · rfl
    · exact congrArg (fun bs => Except.ok (s.winBytes w bs)) (hostBytes_withDwin a b s bus n)

theorem readMem_withDwin (r : MReq) (x n : Nat) : ((s.withDwin a b).readMem r x n).2 = (s.readMem r x n).2 := by
  have herr : (s.withDwin a b).addrError x n = s.addrError x n := rfl
  have hpeer : ∀ dev, ((s.withDwin a b).readPeer r dev x n).2 = (s.readPeer r dev x n).2 := fun dev =>
    (alike_onOk a b (fun bs => .ok ((bs.drop (x % 32)).take n)) (alike_peerGather a b r dev (peerChunks x n) s)).1
  have hlocal : (match (s.withDwin a b).readLocal r x n with
      | (s, .ok bs) => ((s.countDdr false x n, .ok bs) : State × Except MErr (List Byte))
      | e => e).2 = (match s.readLocal r x n with
      | (s, .ok bs) => ((s.countDdr false x n, .ok bs) : State × Except MErr (List Byte))
      | e => e).2 := by
    rcases (alike_readLocal a b s r x n).cases with ⟨t, t', e, -, ht, ht'⟩ | ⟨t, e, -, ht, ht'⟩ <;>
      rw [ht, ht'] <;> cases e <;> rfl
  unfold State.readMem
  rw [herr]
  split_ifs
  · rfl
  · cases s.addrError x n with
    | some y => rfl
    | none =>
      cases spaceOf x with
      | host => exact readHost_withDwin a b s r x n
      | peer dev => exact hpeer dev
      | spd | acc | dram | hole => exact hlocal

theorem flipEng_withDwin (d : Desc) : (s.withDwin a b).flipEng d = s.flipEng d := by
  have hread : ((s.withDwin a b).readPb d).2 = (s.readPb d).2 := readMem_withDwin a b s _ _ _
  unfold State.flipEng State.pbPeek
  rw [hread]

end
end Sys2Proof.Machine
end

section
/-!
SUPPORT. Display engines: the work that a unit takes, flips from dispatch to the frame that shows them (R322 to R324).
-/

namespace Sys2Proof.Machine

/-! ### The state of a display engine, and work that a unit takes -/

@[simp] theorem disp_setDisp (s : State) (n : Nat) (x : DispSt) : (s.setDisp n x).disp n = x := by
  simp [State.disp, State.setDisp, mget_mset]

theorem toTake_runnable {s : State} {i opc : Nat} {d : Desc} (hd : s.desc? i = some d) (hr : d.runnable opc = true) :
    s.toTake i opc = some d := by
  simp [State.toTake, hd, hr]

theorem effected_of_taken {s : State} {i : Nat} {e : Desc} (he : e ∈ (s.taken i).descs) (hi : e.id = i) :
    e.effected = true := by
  obtain ⟨d, -, rfl⟩ := List.mem_map.mp he
  split_ifs at hi ⊢ with h
  · rfl
  · exact absurd hi h

/-! ### A flip is dispatched (R324, R389) -/

/-- The flip changes a plane that its partition or its function may not change (R389). -/
def State.flipDenied (s : State) (d : Desc) (n m : Nat) : Prop :=
  (bitOf m 7 = true ∧ s.descPart d ≠ s.get (DISP_CFG_SAFE_PART n)) ∨ Nat.land m (s.planesOf d n) ≠ m

/-- The engine of a flip's parameter block holds it. -/
def State.holdFlip (s : State) (i n : Nat) (pb : List Byte) : State :=
  (s.setDisp n { s.disp n with held := some i, pb := pb }).taken i

section
variable {s s1 : State} {i n : Nat} {d : Desc} {pb : List Byte}

theorem exec_dispFlip_off (hd : s.desc? i = some d) (hr : d.runnable 0xB0 = true) (hp : (ePb d).run.run s = (.ok pb, s1))
    (hn : bitsOf (u pb 0 4) 0 2 = n) (hoff : s1.dispOn n = false) :
    exec (.dispFlip i) s = .next (s1.dispEnd i 0xB0 n).settle := by
  show execDispFlip i s = _
  unfold execDispFlip
  simp only [toTake_runnable hd hr, hp, hn, hoff, Bool.not_false, if_true]

theorem exec_dispFlip_on (hd : s.desc? i = some d) (hr : d.runnable 0xB0 = true) (hp : (ePb d).run.run s = (.ok pb, s1))
    (hn : bitsOf (u pb 0 4) 0 2 = n) (hon : s1.dispOn n = true) :
    (s1.flipDenied d n (bitsOf (u pb 0 4) 2 8) → exec (.dispFlip i) s = .next (s1.dispEnd i 0xB1 n).settle) ∧
    (¬ s1.flipDenied d n (bitsOf (u pb 0 4) 2 8) → exec (.dispFlip i) s = .next (s1.holdFlip i n pb)) := by
  have h : exec (.dispFlip i) s = .next (if (bitOf (bitsOf (u pb 0 4) 2 8) 7 && s1.descPart d != s1.get (DISP_CFG_SAFE_PART n)) ||
      Nat.land (bitsOf (u pb 0 4) 2 8) (s1.planesOf d n) != bitsOf (u pb 0 4) 2 8
      then (s1.dispEnd i 0xB1 n).settle else s1.holdFlip i n pb) := by
    show execDispFlip i s = _
    unfold execDispFlip
    simp only [toTake_runnable hd hr, hp, hn, hon, Bool.not_true, Bool.false_eq_true, if_false]
    rfl
  rw [h]
  simp only [Bool.or_eq_true, Bool.and_eq_true, bne_iff_ne]
  exact ⟨fun hden => congrArg _ (if_pos hden), fun hden => congrArg _ (if_neg hden)⟩

end

/-! ### The latch instant -/

/-- The display window of an engine closes. -/
def State.closeDwin (s : State) (n : Nat) : State :=
  s.withDwin (s.dwins.filter (· != n)) (s.denied.filter (fun p => p.1 != n))

theorem exec_latchInstant_off {s : State} {n : Nat} (h : s.dispOn n = false) : exec (.latchInstant n) s = .next s := by
  show execLatchInstant n s = _
  unfold execLatchInstant
  simp only [h, Bool.not_false, if_true]

theorem exec_latchInstant_held {s : State} {n j : Nat} {y : Desc} (hon : s.dispOn n = true) (hh : (s.disp n).held = some j)
    (hy : s.desc? j = some y) :
    ((∃ p ∈ y.parts, p.active = true) → exec (.latchInstant n) s = .next ((s.closeDwin n).setDisp n { s.disp n with
      held := none, taken := some j
      next := flipPlanes (s.disp n).pb (s.descPart y) (s.ctxW (s.ctxOf y)) (s.ctxOf y) (s.disp n).next }).settle) ∧
    ((∀ p ∈ y.parts, p.active = false) → exec (.latchInstant n) s = .next (s.closeDwin n).settle) := by
  have hv : ((s.closeDwin n).disp n).held = some j := hh
  have hw : (s.closeDwin n).desc? j = some y := hy
  unfold State.closeDwin State.withDwin at hv hw
  have h : exec (.latchInstant n) s = .next (if !y.parts.any (fun p => p.active) then s.closeDwin n
      else (s.closeDwin n).setDisp n { s.disp n with
        held := none, taken := some j
        next := flipPlanes (s.disp n).pb (s.descPart y) (s.ctxW (s.ctxOf y)) (s.ctxOf y) (s.disp n).next }).settle := by
    show execLatchInstant n s = _
    unfold execLatchInstant
    simp only [hon, Bool.not_true, Bool.false_eq_true, if_false, hv, hw]
    rfl
  rw [h]
  refine ⟨fun hact => ?_, fun hstop => ?_⟩
  · rw [List.any_eq_true.mpr hact]; rfl
  · rw [List.any_eq_false.mpr fun p hp => by simp [hstop p hp]]; rfl

theorem exec_latchInstant_none {s : State} {n : Nat} (hon : s.dispOn n = true) (hh : (s.disp n).held = none) :
    exec (.latchInstant n) s = .next (if s.descs.any (fun y => y.opc == 0xB0 &&
      (y.phase == .fetched || y.phase == .waiting || y.phase == .ready) && s.flipEng y == n)
      then (s.closeDwin n).dbump n (DISP_CNT_HELD_COUNT n) 1 else s.closeDwin n).settle := by
  have hv : ((s.closeDwin n).disp n).held = none := hh
  unfold State.closeDwin State.withDwin at hv
  have h : exec (.latchInstant n) s = .next (if (s.closeDwin n).descs.any (fun y => y.opc == 0xB0 &&
      (y.phase == .fetched || (y.phase == .waiting || y.phase == .ready)) && (s.closeDwin n).flipEng y == n)
      then (s.closeDwin n).dbump n (DISP_CNT_HELD_COUNT n) 1 else s.closeDwin n).settle := by
    show execLatchInstant n s = _
    unfold execLatchInstant
    simp only [hon, Bool.not_true, Bool.false_eq_true, if_false, hv, List.contains_cons, List.contains_nil, Bool.or_false]
    rfl
  have heng : ∀ y, (s.closeDwin n).flipEng y = s.flipEng y := flipEng_withDwin _ _ s
  have hdescs : (s.closeDwin n).descs = s.descs := rfl
  rw [h, hdescs]
  simp only [heng, Bool.or_assoc]

/-! ### The vertical blank and the frame start -/

/-- The scan of a frame is over: the planes in force are the latched ones (R323). -/
def State.blanked (s : State) (n : Nat) : State :=
  s.setDisp n { s.disp n with taken := none, planes := (s.disp n).next, scanning := false }

theorem exec_vblankStart (n : Nat) (s : State) :
    exec (.vblankStart n) s = .next (match (s.disp n).taken with
      | none => s.blanked n
      | some d => ((s.blanked n).dispEnd d 0 0).settle) := rfl

/-- The regions that the next frame start puts in force (R336). -/
def DispSt.newRegions (x : DispSt) : List Region := if x.nextRegions = [] then x.regions else x.nextRegions

/-- The CRCs that new regions expect, in their registers. -/
def State.putExpects (s : State) (n : Nat) (rs : List Region) : State :=
  ((List.range 16).zip rs).foldl (fun s p => s.put (DISP_CRC_VAL_EXPECT n p.1) p.2.expect) s

theorem get_frame_putExpects (s : State) (n : Nat) (rs : List Region) :
    (s.putExpects n rs).get (DISP_STAT_FRAME n) = s.get (DISP_STAT_FRAME n) :=
  foldl_keeps (fun u => u.get (DISP_STAT_FRAME n)) _ (fun u p => get_put_ne u _ _ _ (by
    simp only [DISP_STAT_FRAME, DISP_CRC_VAL_EXPECT, DISP_STAT, DISP_CRC_VAL]; omega)) _ s

/-- The engine in the first line of a frame. -/
def DispSt.atTop (x : DispSt) : DispSt :=
  { x with planes := x.next, regions := x.newRegions.map (fun r => { r with crc := 0xFFFFFFFF }), nextRegions := [],
           row := 0, scanning := true }

def State.framed (s : State) (n : Nat) : State :=
  (if (s.disp n).nextRegions = [] then s else s.putExpects n (s.disp n).newRegions).setDisp n (s.disp n).atTop

theorem exec_frameStart_off {s : State} {n : Nat} (h : s.dispOn n = false) : exec (.frameStart n) s = .next s := by
  show execFrameStart n s = _
  unfold execFrameStart
  simp only [h, Bool.not_false, if_true]

theorem exec_frameStart_on {s : State} {n : Nat} (h : s.dispOn n = true) :
    exec (.frameStart n) s =
      .next ((s.framed n).put (DISP_STAT_FRAME n) ((s.framed n).get (DISP_STAT_FRAME n) + 1)) := by
  show execFrameStart n s = _
  unfold execFrameStart
  simp only [h, Bool.not_true, Bool.false_eq_true, if_false, List.isEmpty_iff]
  rfl

theorem get_frame_framed (s : State) (n : Nat) : (s.framed n).get (DISP_STAT_FRAME n) = s.get (DISP_STAT_FRAME n) := by
  show (if (s.disp n).nextRegions = [] then s else s.putExpects n (s.disp n).newRegions).get (DISP_STAT_FRAME n) = _
  split_ifs
  · rfl
  · exact get_frame_putExpects s n _

end Sys2Proof.Machine
end

section
/-!
SUPPORT. Scan-out and the region checks (R320, R321, R325, R326, R336), with the obligation on flips and scan-out.
-/

namespace Sys2Proof.Machine

/-! ### The length of a line -/

theorem length_overPlane (s : State) (r : PlaneRec) (fill y : Nat) (line : List Nat) :
    (s.overPlane r fill y line).2.1.length = line.length := by
  unfold State.overPlane
  split_ifs
  · rfl
  · refine List.foldlRecOn (List.range r.dw) _ (motive := fun acc : State × List Nat × List Nat × Option Nat =>
      acc.2.1.length = line.length) rfl fun acc hacc i _ => ?_
    obtain ⟨v, l, bad, miss⟩ := acc
    dsimp only at hacc ⊢
    split_ifs
    · exact hacc
    · split
      · exact (List.length_set ..).trans hacc
      · exact (List.length_set ..).trans hacc
      · exact hacc

theorem length_fillFrom (fill : Nat) (line : List Nat) (miss : Option Nat) : (fillFrom fill line miss).length = line.length := by
  cases miss with
  | none => rfl
  | some x => simp only [fillFrom, List.length_append, List.length_take, List.length_replicate]; omega

/-! ### Composition -/

/-- The planes of a line so far, with the next one over them (R320). -/
def overNext (fill y : Nat) (acc : State × List Nat × Nat × Option Nat) (r : PlaneRec) :
    State × List Nat × Nat × Option Nat :=
  let (s, l, b, m) := acc.1.overPlane r fill y acc.2.1
  (s, l, acc.2.2.1 + b.length, match acc.2.2.2, m with
    | some i, some j => some (min i j)
    | some i, none => some i
    | none, m => m)

/-- FILL of an engine (R321). -/
def State.fillColour (s : State) (n : Nat) : Nat := colour12 (s.flagA (DISP_TIM_CLK_BPC n)) (s.get (DISP_COLOUR_FILL n))

/-- A line of BG (R320). -/
def State.bgLine (s : State) (n : Nat) : List Nat :=
  List.replicate (s.getA (DISP_TIM_H_HACT n)) (colour12 (s.flagA (DISP_TIM_CLK_BPC n)) (s.get (DISP_COLOUR_BG n)))

/-- The enabled planes of an engine over its background: the line, the poisoned codewords, the first missing pixel. -/
def State.compose (s : State) (n : Nat) : State × List Nat × Nat × Option Nat :=
  ((s.disp n).planes.filterMap id).foldl
    (overNext (s.fillColour n) (s.disp n).row) (s, s.bgLine n, 0, none)

/-- A plane that is off is passed over. -/
theorem compose_eq_foldl (s : State) (n : Nat) :
    s.compose n = (s.disp n).planes.foldl
      (fun acc p => match p with
        | none => acc
        | some r => overNext (s.fillColour n) (s.disp n).row acc r)
      (s, s.bgLine n, 0, none) := by
  rw [State.compose, List.foldl_filterMap]
  congr 1
  funext acc p
  cases p <;> rfl

theorem length_compose (s : State) (n : Nat) : (s.compose n).2.1.length = s.getA (DISP_TIM_H_HACT n) :=
  List.foldlRecOn _ _ (motive := fun acc : State × List Nat × Nat × Option Nat => acc.2.1.length = s.getA (DISP_TIM_H_HACT n))
    List.length_replicate fun acc hacc r _ => (length_overPlane acc.1 r _ _ acc.2.1).trans hacc

/-- The counts of a line: poisoned codewords and an underflow (R321). -/
def State.countLine (s : State) (n bad : Nat) (miss : Option Nat) : State :=
  let w := if bad = 0 then s else (s.dbump n (DISP_CNT_POISON_COUNT n) bad).put (DISP_STAT_POISON n) 1
  if miss.isSome then w.dbump n (DISP_CNT_UNDERFLOW_COUNT n) 1 else w

/-- A line goes out, through the running CRCs of the regions (R325). -/
def State.showLine (s : State) (n : Nat) (x : DispSt) (line : List Nat) : State :=
  s.setDisp n { x with row := x.row + 1, line := line, regions := x.regions.map (fun r => r.line x.row line) }

/-- The line that an engine shows. -/
def State.lineOut (s : State) (n : Nat) : List Nat :=
  (fillFrom (s.fillColour n) (s.compose n).2.1 (s.compose n).2.2.2).map (packOut (s.flagA (DISP_TIM_CLK_BPC n)))

theorem length_lineOut (s : State) (n : Nat) : (s.lineOut n).length = s.getA (DISP_TIM_H_HACT n) := by
  rw [State.lineOut, List.length_map, length_fillFrom, length_compose]

section
variable {s : State} {n : Nat}

theorem exec_scanOutLine_idle
    (h : s.dispOn n = false ∨ (s.disp n).scanning = false ∨ s.getA (DISP_TIM_V_VACT n) ≤ (s.disp n).row) :
    exec (.scanOutLine n) s = .next s := by
  have hcond : (!s.dispOn n || !(s.disp n).scanning || decide (s.getA (DISP_TIM_V_VACT n) ≤ (s.disp n).row)) = true := by
    simpa [or_assoc] using h
  show execScanOutLine n s = _
  unfold execScanOutLine
  dsimp only
  rw [if_pos hcond]

theorem exec_scanOutLine_on (hon : s.dispOn n = true) (hscan : (s.disp n).scanning = true)
    (hrow : (s.disp n).row < s.getA (DISP_TIM_V_VACT n)) :
    exec (.scanOutLine n) s =
      .next (((s.compose n).1.countLine n (s.compose n).2.2.1 (s.compose n).2.2.2).showLine n (s.disp n) (s.lineOut n)) := by
  have hcond : ¬ (!s.dispOn n || !(s.disp n).scanning || decide (s.getA (DISP_TIM_V_VACT n) ≤ (s.disp n).row)) = true := by
    simp [hon, hscan, hrow]
  show execScanOutLine n s = _
  unfold execScanOutLine
  dsimp only
  rw [if_neg hcond, State.lineOut, compose_eq_foldl]
  rfl

/-- Without planes the line shows BG. -/
theorem compose_no_planes (h : (s.disp n).planes.filterMap id = []) : s.compose n = (s, s.bgLine n, 0, none) := by
  rw [State.compose, h, List.foldl_nil]

theorem lineOut_no_planes (h : (s.disp n).planes.filterMap id = []) :
    s.lineOut n = List.replicate (s.getA (DISP_TIM_H_HACT n)) (packOut (s.flagA (DISP_TIM_CLK_BPC n))
      (colour12 (s.flagA (DISP_TIM_CLK_BPC n)) (s.get (DISP_COLOUR_BG n)))) := by
  rw [State.lineOut, compose_no_planes h, fillFrom, State.bgLine, List.map_replicate]

theorem compose_one_plane {r : PlaneRec} {v : State} {line : List Nat} {bad : List Nat} {miss : Option Nat}
    (h : (s.disp n).planes.filterMap id = [r])
    (ho : s.overPlane r (s.fillColour n) (s.disp n).row (s.bgLine n) = (v, line, bad, miss)) :
    s.compose n = (v, line, bad.length, miss) := by
  rw [State.compose, h, List.foldl_cons, List.foldl_nil, overNext]
  dsimp only
  rw [ho, Nat.zero_add]

end

/-! ### Region checks (R325, R326) -/

/-- Reading a list with a default agrees with the library's read. -/
theorem nth_of_getElem? {α : Type} (x : α) {l : List α} {i : Nat} {y : α} (h : l[i]? = some y) : nth x l i = y := by
  induction l generalizing i with
  | nil => simp at h
  | cons z l ih =>
    cases i with
    | zero => simpa [nth] using h
    | succ i => exact ih (by simpa using h)

/-- The CRC of a region that has been scanned. -/
def Region.value (g : Region) : Nat := 0xFFFFFFFF - g.crc

/-- The CRC that a region is compared with: its own where it is learned (R326). -/
def Region.expected (g : Region) : Nat := if g.learn then g.value else g.expect

/-- Mismatches in a row. -/
def Region.failsNow (g : Region) : Nat := if g.value = g.expected then 0 else g.fails + 1

/-- The CRC and the expected one in their registers. -/
def State.putCrc (s : State) (n r : Nat) (g : Region) : State :=
  (s.put (DISP_CRC_VAL_VAL n r) g.value).put (DISP_CRC_VAL_EXPECT n r) g.expected

/-- A region after its check; `limit` mismatches in a row begin anew. -/
def Region.checked (g : Region) (limit : Nat) : Region :=
  { g with expect := g.expected, learn := false, crc := 2 ^ 32, fails := if limit ≤ g.failsNow then 0 else g.failsNow }

/-- The check of a region at its end, the event aside. -/
def State.checkRegion (s : State) (n r : Nat) (g : Region) : State :=
  (s.putCrc n r g).setDisp n { s.disp n with
    regions := (s.disp n).regions.set r (g.checked ((s.putCrc n r g).get (DISP_CFG_CRC_FAIL_FRAMES n))) }

/-- A mismatch shows in the region's bit and counts. -/
def State.failRegion (s : State) (n r : Nat) (g : Region) : State :=
  ((s.checkRegion n r g).put ⟨DISP_CRC_STAT n, r, 1⟩ 1).dbump n (DISP_CNT_CRC_FAIL_COUNT n) 1

/-- The region's last line is out and its CRC not checked yet. -/
def State.regionDone (s : State) (n : Nat) (g : Region) : Prop :=
  s.dispOn n = true ∧ g.en = true ∧ g.y1 < (s.disp n).row ∧ g.crc < 2 ^ 32

section
variable {s : State} {n r : Nat} {g : Region}

theorem regionCheck_idle_iff :
    (!s.dispOn n || !g.en || decide ((s.disp n).row ≤ g.y1) || decide (2 ^ 32 ≤ g.crc)) = true ↔ ¬ s.regionDone n g := by
  simp only [State.regionDone, Bool.or_eq_true, Bool.not_eq_true', decide_eq_true_eq, not_and_or, Bool.not_eq_true, not_lt,
    or_assoc]

theorem exec_regionCrcCheck_idle (hg : (s.disp n).regions[r]? = some g) (h : ¬ s.regionDone n g) :
    exec (.regionCrcCheck n r) s = .next s := by
  show execRegionCrcCheck n r s = _
  unfold execRegionCrcCheck
  dsimp only
  rw [nth_of_getElem? region0 hg, if_pos (regionCheck_idle_iff.mpr h)]

theorem exec_regionCrcCheck_done (hg : (s.disp n).regions[r]? = some g) (h : s.regionDone n g) :
    exec (.regionCrcCheck n r) s = .next (if g.value = g.expected then s.checkRegion n r g
      else if (s.putCrc n r g).get (DISP_CFG_CRC_FAIL_FRAMES n) ≤ g.failsNow
      then (s.failRegion n r g).safety 10 32 (n + 16 * r) false else s.failRegion n r g) := by
  have hbad : (0xFFFFFFFF - g.crc != if g.learn then 0xFFFFFFFF - g.crc else g.expect) = !decide (g.value = g.expected) := rfl
  show execRegionCrcCheck n r s = _
  unfold execRegionCrcCheck
  dsimp only
  rw [nth_of_getElem? region0 hg, if_neg (not_not.mpr h ∘ regionCheck_idle_iff.mp), hbad]
  unfold State.failRegion State.checkRegion Region.checked Region.failsNow
  by_cases he : g.value = g.expected
  · simp only [he, decide_true, Bool.not_true, Bool.false_eq_true, if_true, if_false, Bool.not_false, decide_eq_true_eq]
    rfl
  · simp only [he, decide_false, Bool.not_false, Bool.not_true, Bool.false_eq_true, if_true, if_false, decide_eq_true_eq]
    rfl

end

theorem get_setDisp (s : State) (n : Nat) (x : DispSt) (f : Fref) : (s.setDisp n x).get f = s.get f := rfl

theorem get_dbump_ne (s : State) (n k : Nat) {f g : Fref} (h : g.off ≠ f.off) : (s.dbump n f k).get g = s.get g := by
  unfold State.dbump
  split_ifs
  · rfl
  · exact get_put_ne s f g _ h

/-- A field of the CRC registers of a region after a mismatch is as the check left it. -/
theorem get_crc_failRegion (s : State) (n r : Nat) (g : Region) (f : Fref) (hf : f.off = DISP_CRC_VAL n r) :
    (s.failRegion n r g).get f = (s.putCrc n r g).get f := by
  have hstat : f.off ≠ DISP_CRC_STAT n := by rw [hf]; unfold DISP_CRC_STAT DISP_CRC_VAL; omega
  have hcnt : f.off ≠ DISP_CNT_CRC_FAIL n := by rw [hf]; unfold DISP_CNT_CRC_FAIL DISP_CRC_VAL; omega
  rw [State.failRegion, get_dbump_ne _ n 1 (f := DISP_CNT_CRC_FAIL_COUNT n) hcnt,
    get_put_ne _ ⟨DISP_CRC_STAT n, r, 1⟩ f 1 hstat, State.checkRegion, get_setDisp]

theorem failRegion_registers (s : State) (n : Nat) {r : Nat} (g : Region) (hr : r < 16) :
    (s.failRegion n r g).get (DISP_CRC_VAL_VAL n r) = g.value ∧
    (s.failRegion n r g).get (DISP_CRC_VAL_EXPECT n r) = g.expected % 2 ^ 32 ∧
    (s.failRegion n r g).get ⟨DISP_CRC_STAT n, r, 1⟩ = 1 := by
  have hcnt : DISP_CRC_STAT n ≠ DISP_CNT_CRC_FAIL n := by unfold DISP_CRC_STAT DISP_CNT_CRC_FAIL; omega
  refine ⟨?_, ?_, ?_⟩
  · have hval : g.value < 2 ^ 32 := by unfold Region.value; omega
    rw [get_crc_failRegion s n r g _ rfl, State.putCrc,
      get_put_disjoint _ (DISP_CRC_VAL_EXPECT n r) (DISP_CRC_VAL_VAL n r) _ (Nat.le_refl 64) (.inl (Nat.le_refl 32))]
    exact (get_put s (DISP_CRC_VAL_VAL n r) g.value (by show 0 + 32 ≤ 64; omega)).trans (Nat.mod_eq_of_lt hval)
  · rw [get_crc_failRegion s n r g _ rfl, State.putCrc]
    exact get_put _ (DISP_CRC_VAL_EXPECT n r) g.expected (Nat.le_refl 64)
  · rw [State.failRegion, get_dbump_ne _ n 1 (f := DISP_CNT_CRC_FAIL_COUNT n) hcnt]
    exact get_put _ ⟨DISP_CRC_STAT n, r, 1⟩ 1 (by show r + 1 ≤ 64; omega)

/-! ### New regions (R336, R389) -/

/-- The regions of a parameter block of DISP_SAFETY (R336). -/
def safetyRegions (pb : List Byte) : List Region :=
  let w (r o : Nat) : Nat := u pb (64 + 16 * r + o) 4
  (List.range 16).map (fun r => ⟨bitsOf (w r 0) 0 13, bitsOf (w r 0) 16 13, bitsOf (w r 4) 0 13, bitsOf (w r 4) 16 13,
    w r 8, bitOf (u pb (64 + 16 * r + 12) 1) 0, bitOf (u pb (64 + 16 * r + 12) 1) 1, 2 ^ 32, 0⟩)

theorem exec_dispSafety {s s1 : State} {i n : Nat} {d : Desc} {pb : List Byte} (hd : s.desc? i = some d)
    (hr : d.runnable 0xB1 = true) (hp : (ePb d).run.run s = (.ok pb, s1)) (hn : bitsOf (u pb 0 4) 0 2 = n) :
    exec (.dispSafety i) s = .next (if s1.descPart d ≠ s1.get (DISP_CFG_SAFE_PART n) ∨ s1.planesOf d n = 0
      then (s1.dispEnd i 0xB1 n).settle
      else ((s1.setDisp n { s1.disp n with nextRegions := safetyRegions pb }).dispEnd i 0 0).settle) := by
  show execDispSafety i s = _
  unfold execDispSafety
  simp only [toTake_runnable hd hr, hp, hn]
  rfl

/-! ### The obligation -/

/-- Settles O31: an equation for each command of the display engines, then the clauses by name; the planes of a line are
folded over one at a time, which keeps its length. -/
theorem flipsAndScanOut : Obligations.FlipsAndScanOut := by
  refine ⟨fun n s hn => ⟨fun i d pb s1 hd hr hp he => ?flip,
    fun hoff => ⟨exec_latchInstant_off hoff, exec_frameStart_off hoff⟩,
    fun hon => ⟨fun j y hh hy => (exec_latchInstant_held hon hh hy).1, fun j y hh hy => (exec_latchInstant_held hon hh hy).2,
      exec_latchInstant_none hon⟩, ?blank, fun hon => ?frame⟩,
    fun n s hn => ⟨exec_scanOutLine_idle,
      fun hon hscan hrow => ⟨fun hnone => ?background, fun r v line bad miss hone ho => ?plane, ?line⟩,
      fun r g hg => ⟨exec_regionCrcCheck_idle hg, ?learned, ?mismatch, failRegion_registers s n g⟩,
      fun i d pb s1 hd hr hp he => ⟨fun hden => ?denied, fun hpart hheld => ?regions⟩⟩⟩
  case flip =>
    refine ⟨exec_dispFlip_off hd hr hp he, fun hon => (exec_dispFlip_on hd hr hp he hon).1, fun hon hden =>
      ⟨(exec_dispFlip_on hd hr hp he hon).2 hden, disp_setDisp _ _ _, rfl, rfl, fun e => effected_of_taken⟩⟩
  case blank =>
    refine ⟨fun h => ?_, fun j h => ?_⟩ <;> rw [exec_vblankStart, h] <;> rfl
  case frame =>
    refine ⟨exec_frameStart_on hon, rfl, ?_⟩
    rw [← get_frame_framed s n]
    exact get_put _ (DISP_STAT_FRAME n) _ (Nat.le_refl 64)
  case background =>
    rw [exec_scanOutLine_on hon hscan hrow, lineOut_no_planes hnone, compose_no_planes hnone]
    rfl
  case plane =>
    rw [exec_scanOutLine_on hon hscan hrow, State.lineOut, compose_one_plane hone ho]
    simp only [State.countLine, List.length_eq_zero_iff]
    rfl
  case line =>
    exact ⟨_, exec_scanOutLine_on hon hscan hrow, by rw [State.showLine, disp_setDisp],
      by rw [State.showLine, disp_setDisp]; exact length_lineOut s n, by rw [State.showLine, disp_setDisp]⟩
  case learned =>
    exact fun hdone heq => (exec_regionCrcCheck_done hg hdone).trans (congrArg _ (if_pos heq))
  case mismatch =>
    exact fun hdone hne => (exec_regionCrcCheck_done hg hdone).trans (congrArg _ (if_neg hne))
  case denied =>
    rw [exec_dispSafety hd hr hp he, if_pos hden]
  case regions =>
    rw [exec_dispSafety hd hr hp he, if_neg (not_or.mpr ⟨not_not.mpr hpart, hheld⟩)]
    rfl

end Sys2Proof.Machine
end

section
/-!
SUPPORT. Display links and AUX requests (R317, R324, R334, R337).
-/

namespace Sys2Proof.Machine

/-! ### Training and hot plug -/

section
variable {s : State} {n : Nat}

theorem exec_dispLinkTraining_idle (ok : Bool) (h : s.get (DISP_STAT_LINK n) ≠ 1) :
    exec (.dispLinkTraining n ok) s = .next s := by
  show execDispLinkTraining n ok s = _
  unfold execDispLinkTraining
  rw [if_pos h]

theorem exec_dispLinkTraining_ok (h : s.get (DISP_STAT_LINK n) = 1) :
    exec (.dispLinkTraining n true) s =
      .next ((s.put (DISP_STAT_LINK n) 2).setDisp n { s.disp n with trainFails := 0 }) := by
  show execDispLinkTraining n true s = _
  unfold execDispLinkTraining
  rw [if_neg (not_not.mpr h), if_pos rfl]

/-- A training that failed once more. -/
def State.trainFailed (s : State) (n : Nat) : State :=
  (s.transient (chDisp n)).setDisp n { s.disp n with trainFails := (s.disp n).trainFails + 1 }

/-- An output whose training fails for good (R28, R29). -/
def State.retireDisp (s : State) (n : Nat) : State :=
  ((((s.put (DISP_STAT_LINK n) 3).put (DISP_STAT_PRESENT n) 0).retire (chDisp n) 3).dispDark n).dropPlanes n

theorem exec_dispLinkTraining_fails (h : s.get (DISP_STAT_LINK n) = 1) :
    exec (.dispLinkTraining n false) s =
      .next (if s.get SAF_CTL_ATTEMPTS ≤ (s.disp n).trainFails + 1 ∨ (s.trainFailed n).rateHit (chDisp n) = true
        then (s.trainFailed n).retireDisp n else s.trainFailed n) := by
  show execDispLinkTraining n false s = _
  unfold execDispLinkTraining
  rw [if_neg (not_not.mpr h), if_neg Bool.false_ne_true]
  simp only [Bool.or_eq_true, decide_eq_true_eq]
  rfl

theorem exec_hotPlug_appears (irq : Bool) (hoff : s.get (DISP_STAT_HPD n) = 0) (hret : s.isRetired (chDisp n) = false)
    (hen : s.flagA (DISP_TIM_CLK_ENABLE n) = true) (hlink : s.get (DISP_STAT_LINK n) = 0) :
    exec (.hotPlug n true irq) s = .next ((s.put (DISP_STAT_HPD n) 1).put (DISP_STAT_LINK n) 1) := by
  have hwas : s.flag (DISP_STAT_HPD n) = false := by rw [State.flag, hoff]; rfl
  have hcond : ¬ (irq && s.flag (DISP_STAT_HPD n) == true || (s.put (DISP_STAT_HPD n) (b2n true)).isRetired (chDisp n) ||
      !(s.put (DISP_STAT_HPD n) (b2n true)).flagA (DISP_TIM_CLK_ENABLE n)) = true := by
    have hret' : (s.put (DISP_STAT_HPD n) (b2n true)).isRetired (chDisp n) = false := hret
    have hen' : (s.put (DISP_STAT_HPD n) (b2n true)).flagA (DISP_TIM_CLK_ENABLE n) = true := hen
    simp [hwas, hret', hen']
  have hlink' : (s.put (DISP_STAT_HPD n) (b2n true)).get (DISP_STAT_LINK n) = 0 :=
    (get_put_disjoint s (DISP_STAT_HPD n) (DISP_STAT_LINK n) _ (by show 0 + 1 ≤ 64; omega) (.inr (Nat.le_refl 1))).trans hlink
  show execHotPlug n true irq s = _
  unfold execHotPlug
  dsimp only
  rw [if_neg hcond, if_pos rfl, if_pos hlink']
  rfl

theorem exec_hotPlug_goes (hret : s.isRetired (chDisp n) = false)
    (hen : s.flagA (DISP_TIM_CLK_ENABLE n) = true) :
    exec (.hotPlug n false false) s = .next (((s.put (DISP_STAT_HPD n) 0).put (DISP_STAT_LINK n) 0).dispDark n) := by
  have hret' : (s.put (DISP_STAT_HPD n) (b2n false)).isRetired (chDisp n) = false := hret
  have hen' : (s.put (DISP_STAT_HPD n) (b2n false)).flagA (DISP_TIM_CLK_ENABLE n) = true := hen
  show execHotPlug n false false s = _
  unfold execHotPlug
  simp only [hret', hen', Bool.false_and, Bool.or_false, Bool.not_true, Bool.false_eq_true, if_false]
  rfl

end

/-! ### AUX requests -/

/-- The request that a descriptor of DISP_AUX makes, with the bytes of a write (R334). -/
def Desc.auxReq (d : Desc) (bs : List Byte) : AuxReq :=
  ⟨bitsOf (d.u 16 1) 0 2, bitsOf (d.u 16 4) 2 2, bitsOf (d.u 16 4) 4 20, bitsOf (d.u 16 4) 24 5 + 1, bs⟩

/-- A request goes out and its engine waits for the sink. -/
def State.auxGo (s : State) (i : Nat) (d : Desc) (bs : List Byte) : State :=
  (({ s with auxs := s.auxs ++ [⟨i, bitsOf (d.u 16 1) 0 2, 0, 0, 0⟩] } : State).taken i).sendAux (d.auxReq bs)

/-- The bytes of a write request (R334). -/
def State.auxBytes (s : State) (d : Desc) : State × Except MErr (List Byte) :=
  s.readMem (s.mreq d 32) d.a24 (bitsOf (d.u 16 4) 24 5 + 1)

section
variable {s : State} {i n : Nat} {d : Desc}

theorem exec_dispAux_denied (hd : s.desc? i = some d) (hr : d.runnable 0xB2 = true)
    (hp : s.planesOf d (bitsOf (d.u 16 1) 0 2) = 0) :
    exec (.dispAux i) s = .next (s.dispEnd i 0xB1 (bitsOf (d.u 16 1) 0 2)).settle := by
  show execDispAux i s = _
  unfold execDispAux
  simp only [toTake_runnable hd hr, hp, if_true]

theorem exec_dispAux_busy (hd : s.desc? i = some d) (hr : d.runnable 0xB2 = true)
    (hp : s.planesOf d (bitsOf (d.u 16 1) 0 2) ≠ 0) (hb : ∃ a ∈ s.auxs, a.eng = bitsOf (d.u 16 1) 0 2) :
    exec (.dispAux i) s = .next s := by
  have hany : s.auxs.any (fun a => a.eng == bitsOf (d.u 16 1) 0 2) = true := by simpa using hb
  show execDispAux i s = _
  unfold execDispAux
  simp only [toTake_runnable hd hr, hp, hany, if_true, if_false]

/-- A free engine takes the request: a write reads its bytes first. -/
theorem exec_dispAux_free (hd : s.desc? i = some d) (hr : d.runnable 0xB2 = true)
    (hp : s.planesOf d (bitsOf (d.u 16 1) 0 2) ≠ 0) (hb : ∀ a ∈ s.auxs, a.eng ≠ bitsOf (d.u 16 1) 0 2) :
    exec (.dispAux i) s = .next (match (if bitOf (d.u 16 1) 2 then s.auxBytes d else (s, .ok [])) with
      | (s1, .error .wait) => s.keepRequests s1
      | (s1, .error (.fail c y)) => (s1.dispEnd i c y).settle
      | (s1, .ok bs) => s1.auxGo i d bs) := by
  have hany : s.auxs.any (fun a => a.eng == bitsOf (d.u 16 1) 0 2) = false := by simpa using hb
  show execDispAux i s = _
  unfold execDispAux
  simp only [toTake_runnable hd hr, hp, hany, if_false, Bool.false_eq_true]
  rfl

end

/-! ### Replies to AUX requests -/

/-- An AUX transaction is over. -/
def State.auxGone (s : State) (a : AuxSt) : State := { s with auxs := s.auxs.filter (fun b => b.desc != a.desc) }

/-- An AUX transaction stands at `b`. -/
def State.auxSet (s : State) (a b : AuxSt) : State := { s with auxs := s.auxs.map (fun c => if c.desc = a.desc then b else c) }

/-- The request of an engine goes out again. -/
def State.auxAgain (s : State) (n : Nat) : State :=
  match (s.out.aux.filter (fun r => r.eng == n)).getLast? with
  | some r => s.sendAux r
  | none => s

theorem auxAgain_auxSet {s : State} {n : Nat} {r : AuxReq} (a b : AuxSt)
    (h : (s.out.aux.filter (fun r => r.eng == n)).getLast? = some r) : (s.auxSet a b).auxAgain n = (s.auxSet a b).sendAux r := by
  have h' : ((s.auxSet a b).out.aux.filter (fun r => r.eng == n)).getLast? = some r := h
  rw [State.auxAgain, h']

/-- What a reply does to a transaction, by the reply. -/
def State.auxReplied (s : State) (n : Nat) (a : AuxSt) (d : Desc) : AuxReply → State
  | .ack data =>
    if bitOf (d.u 16 1) 2 then ((s.auxGone a).dispEnd a.desc 0 0).settle
    else match s.writeMem (s.mreq d 32) false 0 d.a24 (data.take (bitsOf (d.u 16 4) 24 5 + 1)) with
      | (s1, some .wait) => s.keepRequests s1
      | (s1, some (.fail c y)) => ((s1.auxGone a).dispEnd a.desc c y).settle
      | (s1, none) => ((s1.auxGone a).dispEnd a.desc 0 0).settle
  | .nack => ((s.auxGone a).dispEnd a.desc 0xB2 (if bitOf (d.u 16 1) 3 then 4 else 1)).settle
  | .defer =>
    if 7 ≤ a.defers + 1 then ((s.auxGone a).dispEnd a.desc 0xB2 (if bitOf (d.u 16 1) 3 then 8 else 2)).settle
    else (s.auxSet a { a with defers := a.defers + 1, last := if bitOf (d.u 16 1) 3 then 8 else 2 }).auxAgain n
  | .timeout =>
    if 3 ≤ a.timeouts + 1 then ((s.auxGone a).dispEnd a.desc 0xB2 a.last).settle
    else (s.auxSet a { a with timeouts := a.timeouts + 1 }).auxAgain n

theorem exec_auxReply {s : State} {n : Nat} {a : AuxSt} {d : Desc} (ha : s.auxs.find? (fun b => b.eng == n) = some a)
    (hd : s.desc? a.desc = some d) (r : AuxReply) : exec (.auxReply n r) s = .next (s.auxReplied n a d r) := by
  show execAuxReply n r s = _
  unfold execAuxReply
  simp only [ha, hd]
  cases r <;> rfl

end Sys2Proof.Machine
end

section
/-!
SUPPORT. Camera buffers and TDM audio (R327 to R330, R332, R333), with the obligation on links and capture.
-/

namespace Sys2Proof.Machine

/-! ### Buffers are dispatched, and wait in vain -/

section
variable {s : State} {i j : Nat} {d : Desc}

theorem exec_capFrame (hd : s.desc? j = some d) (hr : d.runnable 0xB8 = true) :
    exec (.capFrame j) s = .next (({ s with caps := s.caps ++ [⟨j, false, 0, 0, 0, 0, [], 0, false⟩] } : State).taken j) := by
  show execCapFrame j s = _
  unfold execCapFrame
  rw [toTake_runnable hd hr]

theorem exec_capAudio (hd : s.desc? j = some d) (hr : d.runnable 0xB9 = true) :
    exec (.capAudio j) s = .next (({ s with auds := s.auds ++ [⟨j, 0, 0, 0⟩] } : State).taken j) := by
  show execCapAudio j s = _
  unfold execCapAudio
  rw [toTake_runnable hd hr]

/-- A buffer whose frame has not started ends when its time is over (R330). -/
theorem exec_capNoFrame {b : CapBuf} (hd : s.desc? j = some d) (hb : s.caps.find? (fun b => b.desc == j && !b.on) = some b) :
    exec (.capNoFrame j) s = .next (if s.c < d.dispC + 800000 * d.u 38 2 then s
      else (({ s with caps := s.caps.filter (fun c => c.desc != j) } : State).dispEnd j 0xB4 d.capIn).settle) := by
  show execCapNoFrame j s = _
  unfold execCapNoFrame
  simp only [hd, hb, msTicks, Nat.mul_comm]

end

/-! ### Frames of a camera input -/

theorem capEnds_nil (s : State) (i : Nat) : s.capEnds i [] = s := rfl

theorem capEnds_one (s : State) (i : Nat) (b : CapBuf) (d : Desc) :
    s.capEnds i [(b, d)] = (s.capEnd b d s.beacon).camFrame i (!bitOf b.err 1 && decide (b.err < 16)) := by
  simp [State.capEnds]

section
variable {s : State} {i : Nat}

theorem exec_camera_off (h : s.camOn i = false) (vc k : Nat) (p : CsiPacket) :
    exec (.csiFrameStart i vc k) s = .next s ∧ exec (.csiFrameEnd i vc) s = .next s ∧ exec (.csiPacket i p) s = .next s := by
  refine ⟨?_, ?_, ?_⟩
  · show execCsiFrameStart i vc k s = _
    unfold execCsiFrameStart
    simp only [h, Bool.not_false, if_true]
  · show execCsiFrameEnd i vc s = _
    unfold execCsiFrameEnd
    simp only [h, Bool.not_false, if_true]
  · show execCsiPacket i p s = _
    unfold execCsiPacket
    simp only [h, Bool.not_false, if_true]

/-- A frame without a buffer is dropped and counted (R328). -/
theorem exec_csiFrameStart_drop (hon : s.camOn i = true) (hcaps : s.capsOf i = []) (vc k : Nat) :
    exec (.csiFrameStart i vc k) s = .next (s.bump (CAP_CNT_DROP_COUNT i) 1).settle := by
  show execCsiFrameStart i vc k s = _
  unfold execCsiFrameStart
  simp only [hon, hcaps, List.filter_nil, capEnds_nil, Bool.not_true, Bool.false_eq_true, if_false, List.isEmpty_nil, if_true,
    List.foldl_nil]

theorem exec_csiFrameEnd_on (hon : s.camOn i = true) (vc : Nat) :
    exec (.csiFrameEnd i vc) s =
      .next (s.capEnds i ((s.capsOf i).filter (fun q => q.1.on && q.2.capVc == vc))).settle := by
  show execCsiFrameEnd i vc s = _
  unfold execCsiFrameEnd
  simp only [hon, Bool.not_true, Bool.false_eq_true, if_false]

variable {b : CapBuf} {d : Desc}

/-- The one buffer of an input begins its frame (R328). -/
theorem exec_csiFrameStart_begins (hon : s.camOn i = true) (hcaps : s.capsOf i = [(b, d)]) (hb : b.on = false) (k : Nat) :
    exec (.csiFrameStart i d.capVc k) s = .next ((s.capBump [b.desc] (CAP_CNT_FRAMES_COUNT i)).putCap
      { b with on := true, tfs := (s.capBump [b.desc] (CAP_CNT_FRAMES_COUNT i)).beacon, frameNo := k }).settle := by
  have hrun : (s.capsOf i).filter (fun q => q.1.on && q.2.capVc == d.capVc) = [] := by simp [hcaps, hb]
  have hmine : (s.capsOf i).filter (fun q => q.2.capVc == d.capVc) = [(b, d)] := by simp [hcaps]
  show execCsiFrameStart i d.capVc k s = _
  unfold execCsiFrameStart
  simp only [hon, hrun, hmine, capEnds_nil, Bool.not_true, Bool.false_eq_true, if_false, List.isEmpty_cons]
  simp

theorem get_capBump {j : Nat} {e : Desc} {f : Fref} (he : s.desc? j = some e) (hsec : s.secureDesc e = false)
    (hw : f.lo + f.w ≤ 64) : (s.capBump [j] f).get f = satN f.w (s.get f + 1) := by
  rw [State.capBump, if_neg (by simp [he, hsec]), get_bump s f 1 hw]

theorem exec_csiPacket_on (hon : s.camOn i = true) (hcaps : s.capsOf i = [(b, d)]) (hb : b.on = true) (p : CsiPacket) :
    (p.eccBad = true → exec (.csiPacket i p) s = .next (s.putCap { b with err := b.err % 16 + 16 })) ∧
    (p.eccBad = false → p.eccCorrected = false → p.crcBad = false → (csiBytes p.dt = true ∨ csiBits p.dt ≠ 0) →
      exec (.csiPacket i p) s = .next (if p.vc = d.capVc ∧ p.dt = d.capDt
        then s.capLine b d (csiStore p.dt p.payload) false else s)) := by
  have hrun : (s.capsOf i).filter (fun q => q.1.on) = [(b, d)] := by simp [hcaps, hb]
  refine ⟨fun hbad => ?_, fun hgood hcorr hcrc hdt => ?_⟩
  · show execCsiPacket i p s = _
    unfold execCsiPacket
    simp only [hon, hrun, hbad, Bool.not_true, Bool.false_eq_true, if_false, if_true, List.foldl_cons, List.foldl_nil]
  · have hknown : (!csiBytes p.dt && csiBits p.dt == 0) = false := by rcases hdt with h | h <;> simp [h]
    show execCsiPacket i p s = _
    unfold execCsiPacket
    simp only [hon, hrun, hgood, hcorr, hcrc, hknown, Bool.not_true, Bool.false_eq_true, if_false]
    by_cases hq : p.vc = d.capVc ∧ p.dt = d.capDt
    · simp [hq]
    · have hno : (d.capVc == p.vc && d.capDt == p.dt) = false := Bool.eq_false_iff.mpr fun h => by
        obtain ⟨hvc, hdt'⟩ := Bool.and_eq_true_iff.mp h
        exact hq ⟨(beq_iff_eq.mp hvc).symm, (beq_iff_eq.mp hdt').symm⟩
      simp only [List.find?_singleton, hno, Bool.false_eq_true, if_false, if_neg hq]

/-- A buffer with more lines than it has room for, and no other length error, ends with DISP_CAP_OVERRUN (R330). -/
theorem capEnd_overrun (tfe : Nat) (ho : b.overrun = true) (hl : b.lines = d.u 36 2) :
    ∃ u : State, s.capEnd b d tfe = u.dispEnd d.id 0xB5 (b.err % 16) := by
  unfold State.capEnd
  simp only [ho, hl, ne_eq, not_true_eq_false, false_and, if_false, if_true]
  exact ⟨_, rfl⟩

end

/-! ### TDM audio (R332, R333) -/

/-- A port takes a frame: the state from which `k` is stored. -/
def State.tdmAt (s : State) (p k : Nat) : State := { s with tdm := mset (fun _ => 0) s.tdm p (k + 2) }

section
variable {s : State} {p : Nat}

theorem exec_tdmFrame_off (h : s.flagA (CAP_TDM_CFG_EN p) = false) (ns : Nat) (slots : List Word32) :
    exec (.tdmFrame p ns slots) s = .next s := by
  show execTdmFrame p ns slots s = _
  unfold execTdmFrame
  simp only [h, Bool.false_eq_true, if_false]

/-- A provider stores a frame at its instant, once (R332). -/
theorem exec_tdmFrame_provider (hen : s.flagA (CAP_TDM_CFG_EN p) = true) (hprov : s.flagA (CAP_TDM_CFG_PROVIDER p) = true)
    (ns : Nat) (slots : List Word32) :
    exec (.tdmFrame p ns slots) s = .next (match s.tdmDue p with
      | none => s
      | some k => if mget (fun _ => 0) s.tdm p = 0 ∨ k + 1 < mget (fun _ => 0) s.tdm p then s
        else (s.tdmAt p k).tdmStore p k slots) := by
  show execTdmFrame p ns slots s = _
  unfold execTdmFrame
  simp only [hen, hprov, if_true, Bool.true_and, Bool.not_true, Bool.false_and, Bool.not_false, Bool.or_eq_true, beq_iff_eq,
    decide_eq_true_eq]
  rfl

/-- A consumer without a slip stores each frame (R332). -/
theorem exec_tdmFrame_consumer (hen : s.flagA (CAP_TDM_CFG_EN p) = true) (hprov : s.flagA (CAP_TDM_CFG_PROVIDER p) = false)
    {ns : Nat} (hslip : mget (fun _ => 0) s.tdm p = 0 ∨ s.tdmSlip p ns = false) (slots : List Word32) :
    exec (.tdmFrame p ns slots) s =
      .next ((s.tdmAt p (mget (fun _ => 0) s.tdm p - 1)).tdmStore p (mget (fun _ => 0) s.tdm p - 1) slots) := by
  have hno : (mget (fun _ => 0) s.tdm p != 0 && s.tdmSlip p ns) = false := by rcases hslip with h | h <;> simp [h]
  show execTdmFrame p ns slots s = _
  unfold execTdmFrame
  simp only [hen, hprov, hno, Bool.false_and, Bool.not_false, Bool.true_and, Bool.false_eq_true, if_false, if_true]
  rfl

/-- A frame without a buffer is dropped and counted (R333). -/
theorem tdmStore_drop (h : s.auds = []) (k : Nat) (slots : List Word32) :
    s.tdmStore p k slots = s.bump (CAP_CNT_AUDIO_DROP_COUNT p) 1 := by
  have hnone : s.audOf p = none := by rw [State.audOf, h, List.findSome?_nil]
  rw [State.tdmStore, hnone]

end

/-! ### The obligation -/

/-- Settles O32: an equation for each command of the links, the AUX channels and the capture ports, then the clauses by name. -/
theorem linksAndCapture : Obligations.LinksAndCapture := by
  refine ⟨fun n s hn => ⟨fun ok => exec_dispLinkTraining_idle ok, fun hlink => ?trained, ?appears, fun hon => exec_hotPlug_goes,
      ?request, ?reply⟩,
    fun i s hi => ⟨fun j d hd => ⟨exec_capFrame hd, exec_capAudio hd, ?noFrame⟩,
      fun vc k p hoff => exec_camera_off hoff vc k p, ?dropped, ?captured, ?audio⟩⟩
  case trained =>
    exact ⟨exec_dispLinkTraining_ok hlink, get_put s (DISP_STAT_LINK n) 2 (by show 1 + 2 ≤ 64; omega),
      exec_dispLinkTraining_fails hlink⟩
  case appears =>
    intro irq hoff hret hen hlink
    refine ⟨exec_hotPlug_appears irq hoff hret hen hlink, get_put _ (DISP_STAT_LINK n) 1 (by show 1 + 2 ≤ 64; omega), ?_⟩
    rw [get_put_disjoint _ (DISP_STAT_LINK n) (DISP_STAT_HPD n) _ (by show 1 + 2 ≤ 64; omega) (.inl (Nat.le_refl 1))]
    exact get_put s (DISP_STAT_HPD n) 1 (by show 0 + 1 ≤ 64; omega)
  case request =>
    rintro i d hd hr rfl
    refine ⟨exec_dispAux_denied hd hr, exec_dispAux_busy hd hr, fun hp hb => ⟨fun hwr => ?_, fun s1 bs hwr hsrc => ?_,
      fun s1 c y hwr hsrc => ?_⟩⟩ <;> rw [exec_dispAux_free hd hr hp hb, hwr]
    · rfl
    · rw [if_pos rfl, State.auxBytes, hsrc]
      rfl
    · rw [if_pos rfl, State.auxBytes, hsrc]
  case reply =>
    intro a d ha hd
    refine ⟨fun data hwr => ?_, fun data s1 hwr hstore => ?_, ?_, fun hmany => ?_, fun hmany => ?_,
      fun r hlast => ⟨fun hfew => ?_, fun hfew => ?_⟩⟩ <;> rw [exec_auxReply ha hd, State.auxReplied]
    · rw [hwr, if_pos rfl]
      rfl
    · rw [hwr, if_neg Bool.false_ne_true, hstore]
      rfl
    · rfl
    · rw [if_pos (by omega)]
      rfl
    · rw [if_pos (by omega)]
      rfl
    · rw [if_neg (by omega), auxAgain_auxSet a _ hlast]
      rfl
    · rw [if_neg (by omega), auxAgain_auxSet a _ hlast]
      rfl
  case noFrame =>
    intro b hb
    exact ⟨fun hearly => (exec_capNoFrame hd hb).trans (congrArg _ (if_pos hearly)),
      fun hlate => (exec_capNoFrame hd hb).trans (congrArg _ (if_neg (by omega)))⟩
  case dropped =>
    intro vc k hon hcaps
    refine ⟨exec_csiFrameStart_drop hon hcaps vc k, ?_, get_bump_one s (CAP_CNT_DROP i),
      onlyRegs_bump s (CAP_CNT_DROP_COUNT i) 1⟩
    rw [exec_csiFrameEnd_on hon, hcaps, List.filter_nil, capEnds_nil]
  case captured =>
    intro b d hon hcaps
    refine ⟨fun k hb => ⟨exec_csiFrameStart_begins hon hcaps hb k,
        fun e he hsec => get_capBump he hsec (by show 0 + 32 ≤ 64; omega)⟩,
      fun p hb => (exec_csiPacket_on hon hcaps hb p).1, fun p hb hgood hcorr hcrc hdt => ⟨fun hvc hdt' => ?_, fun hother => ?_⟩,
      fun hb => ?_, capEnd_overrun s.beacon⟩
    · exact ((exec_csiPacket_on hon hcaps hb p).2 hgood hcorr hcrc hdt).trans (congrArg _ (if_pos ⟨hvc, hdt'⟩))
    · exact ((exec_csiPacket_on hon hcaps hb p).2 hgood hcorr hcrc hdt).trans
        (congrArg _ (if_neg (not_and_or.mpr hother)))
    · rw [exec_csiFrameEnd_on hon, hcaps, List.filter_singleton]
      simp only [hb, beq_self_eq_true, Bool.and_self, cond_true, capEnds_one]
  case audio =>
    intro p ns slots hp
    refine ⟨fun hoff => exec_tdmFrame_off hoff ns slots, fun hen hprov => ⟨fun hidle => ?_, fun k hk hrun hearly => ?_,
      fun k hk hrun hdue => ?_⟩, fun hen hprov hslip => exec_tdmFrame_consumer hen hprov hslip slots, fun hnone k => ?_⟩
    · rw [exec_tdmFrame_provider hen hprov]
      rcases hidle with hk | hn
      · rw [hk]
      · split
        · rfl
        · rw [if_pos (.inl hn)]
    · rw [exec_tdmFrame_provider hen hprov, hk]
      exact congrArg _ (if_pos (.inr hearly))
    · rw [exec_tdmFrame_provider hen hprov, hk]
      exact congrArg _ (if_neg (by omega))
    · intro t
      have ht : t = (s.tdmAt p k).bump (CAP_CNT_AUDIO_DROP_COUNT p) 1 := tdmStore_drop (s := s.tdmAt p k) hnone k slots
      rw [ht]
      exact ⟨get_bump_one (s.tdmAt p k) (CAP_CNT_AUDIO_DROP p), onlyRegs_bump (s.tdmAt p k) (CAP_CNT_AUDIO_DROP_COUNT p) 1⟩

end Sys2Proof.Machine
end

section
/-!
SUPPORT. Writes of SCH_CTX_CFG (R343): a context is moored or refused (R345), with the obligation on it.
-/

namespace Sys2Proof.Machine

/-! ### The way of the write, and the fields (R343, R391) -/

theorem exec_contextMoor {rq : Requester} {c g : Nat} (v : Word64) {s : State} (ho : s.opensView rq (SCH_CTX_CFG c) = true)
    (hv : s.viewC rq c = some g) : exec (.contextMoor rq c v) s = .next (s.writeCtxCfg rq g v.toNat mask64) :=
  congrArg Host.Outcome.next (guardedView_of_opensView (fun i u => u.writeCtxCfg rq i v.toNat mask64) ho hv)

theorem exec_contextRelease {rq : Requester} {c g : Nat} (v : Word64) {s : State}
    (ho : s.opensView rq (SCH_CTX_CFG c) = true) (hv : s.viewC rq c = some g) :
    exec (.contextRelease rq c v) s = .next (s.writeCtxCfg rq g v.toNat mask64) :=
  congrArg Host.Outcome.next (guardedView_of_opensView (fun i u => u.writeCtxCfg rq i v.toNat mask64) ho hv)

/-- The value written, as far as it reaches the fields: a function's view does not give FUNC, which VF Enable can also hold
(R388, R391). -/
def State.ctxCfgValue (s : State) (rq : Requester) (g v : Nat) : Nat :=
  if isVf rq = true ∨ s.funcHeld (s.get (SCH_CTX_CFG_FUNC g)) = true then putBits v 0 5 (s.get (SCH_CTX_CFG_FUNC g)) else v

/-- A context with the fields that a write gives it; CMD is apart. -/
def State.ctxFields (s : State) (rq : Requester) (g v : Nat) : State :=
  s.setReg (SCH_CTX_CFG g) (BitVec.ofNat 64 (putBits (writeFields (fieldsAt (SCH_CTX_CFG g)) false false
    (s.reg (SCH_CTX_CFG g)).toNat (s.ctxCfgValue rq g v) mask64) 45 2 0))

theorem land_mask64 (v : Word64) : Nat.land v.toNat mask64 = v.toNat := land_ones_of_lt (w := 64) v.isLt

/-- A MOOR command writes the fields of a context that is free or refused and moors it (R343). -/
theorem writeCtxCfg_moor {s : State} {rq : Requester} {g : Nat} {v : Word64} (hcmd : bitsOf v.toNat 45 2 = 1) :
    s.writeCtxCfg rq g v.toNat mask64 =
      if s.get (SCH_CTX_STAT_STATE g) = 0 ∨ s.get (SCH_CTX_STAT_STATE g) = 5 then (s.ctxFields rq g v.toNat).moor false g
      else s := by
  unfold State.writeCtxCfg State.ctxFields State.ctxCfgValue
  rw [land_mask64, hcmd]
  by_cases hopen : s.get (SCH_CTX_STAT_STATE g) = 0 ∨ s.get (SCH_CTX_STAT_STATE g) = 5
  · simp only [if_pos hopen, Bool.or_eq_true]
    rcases rq with (_ | n) | _ | _ | _ <;> rfl
  · simp only [if_neg hopen]

/-- A RELEASE command writes the fields of a context that is free or refused, and releases one that is moored or stopped
(R343, R346). -/
theorem writeCtxCfg_release {s : State} {rq : Requester} {g : Nat} {v : Word64} (hcmd : bitsOf v.toNat 45 2 = 2) :
    s.writeCtxCfg rq g v.toNat mask64 =
      if s.get (SCH_CTX_STAT_STATE g) = 0 ∨ s.get (SCH_CTX_STAT_STATE g) = 5 then s.ctxFields rq g v.toNat
      else if s.get (SCH_CTX_STAT_STATE g) = 2 ∨ s.get (SCH_CTX_STAT_STATE g) = 3 then s.releaseCtx g else s := by
  unfold State.writeCtxCfg State.ctxFields State.ctxCfgValue
  rw [land_mask64, hcmd]
  by_cases hopen : s.get (SCH_CTX_STAT_STATE g) = 0 ∨ s.get (SCH_CTX_STAT_STATE g) = 5
  · have hnot : ¬ (s.get (SCH_CTX_STAT_STATE g) = 2 ∨ s.get (SCH_CTX_STAT_STATE g) = 3) := by omega
    simp only [if_pos hopen, if_neg hnot, Bool.or_eq_true]
    rcases rq with (_ | n) | _ | _ | _ <;> rfl
  · simp only [if_neg hopen]

/-! ### Why a moor is refused (R345) -/

/-- A context refused with a REASON. -/
def State.moorRefused (s : State) (g n : Nat) : State := (s.put (SCH_CTX_STAT_REASON g) n).put (SCH_CTX_STAT_STATE g) 5

section
variable {s : State} {g : Nat}

theorem moor_bad (h : s.moorBad false g = true) : s.moor false g = s.moorRefused g 3 := by
  unfold State.moor
  rw [if_pos h]
  rfl

theorem moor_short (hb : s.moorBad false g = false) (h : s.shareShort g = true) : s.moor false g = s.moorRefused g 2 := by
  unfold State.moor
  rw [hb, if_neg Bool.false_ne_true, if_pos h]
  rfl

theorem moor_full (hb : s.moorBad false g = false) (hs : s.shareShort g = false)
    (h : s.overMax g (s.get (SCH_CTX_CFG_GRAN g)) = true ∨
      s.pickRun (s.get (SCH_CTX_CFG_CRIT g)) (s.get (SCH_CTX_CFG_GRAN g)) = none) : s.moor false g = s.moorRefused g 1 := by
  unfold State.moor
  rw [hb, hs, if_neg Bool.false_ne_true, if_neg Bool.false_ne_true]
  by_cases ho : s.overMax g (s.get (SCH_CTX_CFG_GRAN g)) = true
  · rw [if_pos ho]
    rfl
  · rw [if_neg ho, h.resolve_left ho]
    rfl

/-- The granules of a run of `n` at `b` that are FREE, as a moor takes them. -/
def runFree (b n : Nat) (w : List Nat) : List (Nat × Nat) :=
  ((List.range n).map (b + ·)).filterMap (fun k => if w.contains k then none else some (k, 0))

/-- A context in STATE 1. -/
def State.mooring (s : State) (g : Nat) : State := (s.put (SCH_CTX_STAT_STATE g) 1).put (SCH_CTX_STAT_REASON g) 0

theorem moor_run {b : Nat} {w : List Nat} (hb : s.moorBad false g = false) (hs : s.shareShort g = false)
    (ho : s.overMax g (s.get (SCH_CTX_CFG_GRAN g)) = false)
    (h : s.pickRun (s.get (SCH_CTX_CFG_CRIT g)) (s.get (SCH_CTX_CFG_GRAN g)) = some (b, w)) :
    s.moor false g = (s.mooring g).startGrant g none (runFree b (s.get (SCH_CTX_CFG_GRAN g)) w) (w.map (fun k => (k, 0))) := by
  unfold State.moor
  simp only [hb, hs, ho, h, Bool.false_eq_true, if_false]
  rfl

/-- A context that may be moored asks for at least one granule (R343). -/
theorem gran_pos_of_not_moorBad (hb : s.moorBad false g = false) : 0 < s.get (SCH_CTX_CFG_GRAN g) := by
  refine Nat.pos_of_ne_zero fun h0 => ?_
  simp [State.moorBad, h0] at hb

end

/-! ### A run given at once (R202, R345) -/

/-- Granules that pass to a context. -/
def State.giveAll (s : State) (c st : Nat) (l : List (Nat × Nat)) : State := l.foldl (fun s p => s.giveGran p.1 c st p.2) s

theorem reg_giveAll (s : State) (c st : Nat) (l : List (Nat × Nat)) {b : Nat} (h : ∀ p ∈ l, b ≠ SPD_GRAN p.1) :
    (s.giveAll c st l).reg b = s.reg b :=
  reg_foldl _ b l (fun u p hp => (reg_giveGran u _ _ _ _ b).trans (reg_holdGran u _ _ _ _ b (h p hp))) s

/-- A granule that passes holds its context; one that passed before keeps it. -/
theorem holder_giveAll (c : Nat) {st : Nat} (hst : st < 8) (k : Nat) (l : List (Nat × Nat)) (s : State)
    (h : (∃ p ∈ l, p.1 = k) ∨ s.get (SPD_GRAN_STATE k) = st ∧ s.get (SPD_GRAN_CTX k) = c % 256) :
    (s.giveAll c st l).get (SPD_GRAN_STATE k) = st ∧ (s.giveAll c st l).get (SPD_GRAN_CTX k) = c % 256 := by
  induction l generalizing s with
  | nil => exact h.resolve_left (by simp)
  | cons p l ih =>
    refine ih (s.giveGran p.1 c st p.2) ?_
    by_cases hk : p.1 = k
    · subst hk
      exact .inr ⟨(get_giveGran _ _ _ _ _ _).trans (get_state_holdGran s _ _ _ hst),
        (get_giveGran _ _ _ _ _ _).trans (get_ctx_holdGran s _ _ _ hst)⟩
    · have hreg : (s.giveGran p.1 c st p.2).reg (SPD_GRAN k) = s.reg (SPD_GRAN k) :=
        (reg_giveGran _ _ _ _ _ _).trans (reg_holdGran _ _ _ _ _ _ (by unfold SPD_GRAN; omega))
      refine h.imp (fun ⟨q, hq, he⟩ => ⟨q, (List.mem_cons.mp hq).resolve_left ?_, he⟩) (fun ⟨h1, h2⟩ =>
        ⟨(get_of_reg hreg).trans h1, (get_of_reg hreg).trans h2⟩)
      rintro rfl
      exact hk he

theorem byte_giveAll (c st a : Nat) (l : List (Nat × Nat)) (s : State) :
    (s.giveAll c st l).byte a = if ∃ p ∈ l, p.1 = a / 0x40000 then 0 else s.byte a := by
  induction l generalizing s with
  | nil => simp [State.giveAll]
  | cons p l ih =>
    refine (ih (s.giveGran p.1 c st p.2)).trans ?_
    have hin : (p.1 * 0x40000 ≤ a ∧ a < p.1 * 0x40000 + 0x40000) ↔ p.1 = a / 0x40000 := by omega
    simp only [byte_giveGran, hin, List.exists_mem_cons_iff]
    by_cases hl : ∃ q ∈ l, q.1 = a / 0x40000
    · rw [if_pos hl, if_pos (.inr hl)]
    · simp only [hl, if_false, or_false]

theorem runFree_nil (b n : Nat) : runFree b n [] = (List.range n).map (fun k => (b + k, 0)) := by
  simp [runFree]

theorem mem_run (b n k : Nat) : (∃ p ∈ runFree b n [], p.1 = k) ↔ b ≤ k ∧ k < b + n := by
  simp only [runFree_nil, List.mem_map, List.mem_range, exists_exists_and_eq_and]
  exact ⟨fun ⟨j, hj, he⟩ => by omega, fun h => ⟨k - b, by omega, by omega⟩⟩

theorem foldl_min_eq {b : Nat} (l : List Nat) {m : Nat} (hm : b ≤ m) (hall : ∀ x ∈ l, b ≤ x) (h : m = b ∨ b ∈ l) :
    l.foldl min m = b := by
  induction l generalizing m with
  | nil => exact h.resolve_right (by simp)
  | cons x l ih =>
    have hx : b ≤ x := hall x List.mem_cons_self
    refine ih (le_min hm hx) (fun y hy => hall y (List.mem_cons_of_mem x hy)) ?_
    rcases h with rfl | h
    · exact .inl (min_eq_left hx)
    · rcases List.mem_cons.mp h with rfl | h
      · exact .inl (min_eq_right hm)
      · exact .inr h

/-- The lowest granule of a run. -/
theorem base_run {b n : Nat} (hn : 0 < n) (h : b + n ≤ 512) :
    ((runFree b n []).map (fun p => p.1)).foldl min 511 = b := by
  have hmem (k : Nat) : k ∈ (runFree b n []).map (fun p => p.1) ↔ b ≤ k ∧ k < b + n := List.mem_map.trans (mem_run b n k)
  exact foldl_min_eq _ (by omega) (fun x hx => ((hmem x).mp hx).1) (.inr ((hmem b).mpr (by omega)))

/-! ### The moor is complete (R345) -/

theorem onlyRegs_moored (s : State) (c base : Nat) : OnlyRegs [VEC_CTX_SLOTS c, SCH_CTX_STAT c] s (s.moored c base) := by
  unfold State.moored
  refine OnlyRegs.mono ((((((onlyRegs_put s (VEC_CTX_SLOTS_SLOTS c) _).trans (onlyRegs_put _ (VEC_CTX_SLOTS_LM_4K c) _)).trans
    (onlyRegs_put _ (VEC_CTX_SLOTS_CLUSTERS c) _)).trans (onlyRegs_put _ (SCH_CTX_STAT_GRAN_BASE c) base)).trans
    (onlyRegs_put _ (SCH_CTX_STAT_REASON c) 0)).trans (onlyRegs_put _ (SCH_CTX_STAT_STATE c) 2)) ?_
  simp [SCH_CTX_STAT_GRAN_BASE, SCH_CTX_STAT_REASON, SCH_CTX_STAT_STATE, VEC_CTX_SLOTS_SLOTS, VEC_CTX_SLOTS_LM_4K,
    VEC_CTX_SLOTS_CLUSTERS]

/-- A field of SCH_CTX_STAT that lies apart from the one put. -/
theorem get_put_ctxStat (s : State) (c n lo w lo' w' : Nat) (hw : lo' + w' ≤ 64) (h : lo + w ≤ lo' ∨ lo' + w' ≤ lo) :
    (s.put ⟨SCH_CTX_STAT c, lo', w'⟩ n).get ⟨SCH_CTX_STAT c, lo, w⟩ = s.get ⟨SCH_CTX_STAT c, lo, w⟩ :=
  get_put_disjoint s ⟨_, lo', w'⟩ ⟨_, lo, w⟩ n hw h

theorem get_put_ctxStat_same (s : State) (c n lo w : Nat) (hw : lo + w ≤ 64) :
    (s.put ⟨SCH_CTX_STAT c, lo, w⟩ n).get ⟨SCH_CTX_STAT c, lo, w⟩ = n % 2 ^ w := get_put s ⟨_, lo, w⟩ n hw

theorem moored_fields (s : State) (c base : Nat) :
    (s.moored c base).get (SCH_CTX_STAT_STATE c) = 2 ∧ (s.moored c base).get (SCH_CTX_STAT_GRAN_BASE c) = base % 512 ∧
    (s.moored c base).get (SCH_CTX_STAT_REASON c) = 0 := by
  unfold State.moored SCH_CTX_STAT_STATE SCH_CTX_STAT_GRAN_BASE SCH_CTX_STAT_REASON
  refine ⟨get_put_ctxStat_same _ c 2 0 3 (by decide), ?_, ?_⟩
  · rw [get_put_ctxStat _ c 2 8 9 0 3 (by decide) (by decide), get_put_ctxStat _ c 0 8 9 3 4 (by decide) (by decide),
      get_put_ctxStat_same _ c base 8 9 (by decide)]
    rfl
  · rw [get_put_ctxStat _ c 2 3 4 0 3 (by decide) (by decide), get_put_ctxStat_same _ c 0 3 4 (by decide)]
    rfl

/-- What depends on no register stays when the occupancy is counted anew. -/
theorem refreshOcc_keeps {β : Type} (p : State → β) (hp : ∀ (u : State) r, p { u with regs := r } = p u) (s : State) :
    p s.refreshOcc = p s := by
  have hput (u : State) (f : Fref) (n : Nat) : p (u.put f n) = p u := (onlyRegs_put u f n).keeps p hp
  unfold State.refreshOcc
  refine (foldl_keeps p _ (fun u f => hput u _ _) _ _).trans ?_
  repeat rw [hput]

theorem sameStore_refreshOcc (s : State) : SameStore s s.refreshOcc :=
  ⟨refreshOcc_keeps State.mem (fun _ _ => rfl) s, refreshOcc_keeps State.tags (fun _ _ => rfl) s⟩

/-- A moor whose granules are all FREE is complete at once. -/
theorem startGrant_run {s : State} {c : Nat} (l : List (Nat × Nat))
    (h : (s.giveAll c 1 l).get (SCH_CTX_STAT_STATE c) = 1) :
    s.startGrant c none l [] = ((s.giveAll c 1 l).moored c ((l.map (fun p => p.1)).foldl min 511)).refreshOcc := by
  have hdone : (s.giveAll c 1 l).grantDone ⟨c, none, l, []⟩ =
      (s.giveAll c 1 l).moored c ((l.map (fun p => p.1)).foldl min 511) := by
    unfold State.grantDone
    exact if_pos h
  unfold State.startGrant
  simp only [Option.isSome_none, Bool.false_eq_true, if_false, List.foldl_nil, List.isEmpty_nil, if_true]
  rw [← hdone]
  rfl

/-- A context moored on the FREE run of `n` granules at `b`, the occupancy counted anew. -/
def State.mooredRun (s : State) (c b n : Nat) : State := ((s.giveAll c 1 (runFree b n [])).moored c b).refreshOcc

section
variable {s : State} {c b n : Nat}

theorem notOcc_gran {k : Nat} (h : k < 512) : notOcc (SPD_GRAN k) := by
  unfold notOcc SPD_GRAN SPD_OCC VIRT_FN_W5
  exact ⟨by omega, fun f => by omega⟩

theorem gran_notin_moored {k : Nat} (h : k < 512) : SPD_GRAN k ∉ [VEC_CTX_SLOTS c, SCH_CTX_STAT c] := by
  simp only [List.mem_cons, List.not_mem_nil, or_false, SPD_GRAN, VEC_CTX_SLOTS, SCH_CTX_STAT]
  omega

theorem get_ctxStat_giveRun (s : State) (c : Nat) (h : b + n ≤ 512) (f : Fref) (hf : f.off = SCH_CTX_STAT c) :
    (s.giveAll c 1 (runFree b n [])).get f = s.get f := by
  refine get_of_reg (reg_giveAll s c 1 _ fun p hp => ?_)
  have hrun := (mem_run b n p.1).mp ⟨p, hp, rfl⟩
  rw [hf]
  unfold SCH_CTX_STAT SPD_GRAN
  omega

theorem mooredRun_ctx (hc : c < 256) :
    (s.mooredRun c b n).get (SCH_CTX_STAT_STATE c) = 2 ∧ (s.mooredRun c b n).get (SCH_CTX_STAT_GRAN_BASE c) = b % 512 ∧
    (s.mooredRun c b n).get (SCH_CTX_STAT_REASON c) = 0 := by
  obtain ⟨hstate, hbase, hreason⟩ := moored_fields (s.giveAll c 1 (runFree b n [])) c b
  have hocc {f : Fref} (hf : f.off = SCH_CTX_STAT c) :
      (s.mooredRun c b n).get f = ((s.giveAll c 1 (runFree b n [])).moored c b).get f :=
    get_of_reg (reg_refreshOcc _ (hf ▸ notOcc_ctxStat hc))
  exact ⟨(hocc rfl).trans hstate, (hocc rfl).trans hbase, (hocc rfl).trans hreason⟩

theorem mooredRun_holder (h : b + n ≤ 512) {k : Nat} (hk : k < n) :
    (s.mooredRun c b n).get (SPD_GRAN_STATE (b + k)) = 1 ∧ (s.mooredRun c b n).get (SPD_GRAN_CTX (b + k)) = c % 256 := by
  have hreg : (s.mooredRun c b n).reg (SPD_GRAN (b + k)) = (s.giveAll c 1 (runFree b n [])).reg (SPD_GRAN (b + k)) :=
    (reg_refreshOcc _ (notOcc_gran (by omega))).trans ((onlyRegs_moored _ c b).2 _ (gran_notin_moored (by omega)))
  have hhold := holder_giveAll c (by decide : 1 < 8) (b + k) (runFree b n []) s (.inl ((mem_run b n _).mpr (by omega)))
  exact ⟨(get_of_reg (f := SPD_GRAN_STATE _) hreg).trans hhold.1, (get_of_reg (f := SPD_GRAN_CTX _) hreg).trans hhold.2⟩

theorem byte_mooredRun (a : Nat) : (s.mooredRun c b n).byte a =
    if b * 0x40000 ≤ a ∧ a < (b + n) * 0x40000 then 0 else s.byte a := by
  have hstore : SameStore (s.giveAll c 1 (runFree b n [])) (s.mooredRun c b n) :=
    (onlyRegs_moored _ c b).sameStore.trans (sameStore_refreshOcc _)
  have hin : (∃ p ∈ runFree b n [], p.1 = a / 0x40000) ↔ b * 0x40000 ≤ a ∧ a < (b + n) * 0x40000 := by
    rw [mem_run]
    omega
  rw [hstore.byte, byte_giveAll]
  simp only [hin]

end

/-! ### The obligation -/

theorem get_state_mooring (s : State) (g : Nat) : (s.mooring g).get (SCH_CTX_STAT_STATE g) = 1 := by
  unfold State.mooring SCH_CTX_STAT_REASON SCH_CTX_STAT_STATE
  rw [get_put_ctxStat _ g 0 0 3 3 4 (by decide) (by decide), get_put_ctxStat_same _ g 1 0 3 (by decide)]
  rfl

theorem sameStore_mooring (s : State) (g : Nat) : SameStore s (s.mooring g) :=
  (onlyRegs_put s _ 1).sameStore.trans (onlyRegs_put _ _ 0).sameStore

/-- Settles O22: the branches of a moor one by one; a run of FREE granules is a list of granules given one after the other,
which ends in the fields of a moored context. -/
theorem moorTakesARunOrGivesTheReason : Obligations.MoorTakesARunOrGivesTheReason := by
  intro rq c g v s ho hv hg hcmd
  have hexec := (exec_contextMoor v ho hv).trans (congrArg Host.Outcome.next (writeCtxCfg_moor (s := s) (rq := rq) hcmd))
  intro st fields u refused n
  have hu : s.ctxFields rq g v.toNat = u := rfl
  have hstore : SameStore s u := (onlyRegs_setReg s _ _).sameStore
  refine ⟨fun h0 h5 => hexec.trans (congrArg _ (if_neg (not_or.mpr ⟨h0, h5⟩))), fun hopen => ?_⟩
  rw [hu, if_pos hopen] at hexec
  clear_value u
  refine ⟨fun hb => ?_, fun hb hs => ?_, fun hb hs => ⟨fun hfull => ?_, fun b w hmax hpick => ?_⟩⟩
  · rw [moor_bad hb] at hexec
    exact hexec
  · rw [moor_short hb hs] at hexec
    exact hexec
  · rw [moor_full hb hs hfull] at hexec
    exact hexec
  · intro u1 run t
    rw [moor_run hb hs hmax hpick] at hexec
    refine ⟨hexec, ?_⟩
    rintro rfl hfit
    have hpos : 0 < n := gran_pos_of_not_moorBad hb
    have ht : t = u1.mooredRun g b n := by
      have hgrant := startGrant_run (s := u1) (runFree b n [])
        ((get_ctxStat_giveRun u1 g hfit _ rfl).trans (get_state_mooring u g))
      rw [base_run hpos hfit] at hgrant
      exact hgrant
    obtain ⟨hstate, hbase, hreason⟩ := mooredRun_ctx (s := u1) (b := b) (n := n) hg
    rw [ht]
    refine ⟨hstate, hbase.trans (Nat.mod_eq_of_lt (by omega)), hreason, fun k hk => ?_, fun a _ => ?_⟩
    · exact (mooredRun_holder hfit hk).imp_right fun h => h.trans (Nat.mod_eq_of_lt hg)
    · have hsame : u1.byte a = s.byte a := (hstore.trans (sameStore_mooring u g)).byte a
      rw [byte_mooredRun, hsame]

end Sys2Proof.Machine
end

section
/-!
SUPPORT. Releases (R346): the command, and the release itself, with the obligation on them.
-/

namespace Sys2Proof.Machine

/-! ### The command (R343, R346) -/

/-- A context in STATE 4, with the number from which descriptors came after its release. -/
def State.releasing (s : State) (g : Nat) : State :=
  { s.put (SCH_CTX_STAT_STATE g) 4 with relC := mset (fun _ => 0) s.relC g s.nextId }

theorem releasing_marks (s : State) (g : Nat) :
    mget (fun _ => 0) (s.releasing g).relC g = s.nextId ∧ (s.releasing g).get (SCH_CTX_STAT_STATE g) = 4 :=
  ⟨(mget_mset _ s.relC g g s.nextId).trans (if_pos rfl),
    (get_of_reg (reg_of_regs rfl _)).trans (get_put_ctxStat_same s g 4 0 3 (by decide))⟩

theorem releaseCtx_moored {s : State} {g : Nat} (h : s.get (SCH_CTX_STAT_STATE g) = 2) : s.releaseCtx g = s.releasing g := by
  unfold State.releaseCtx
  exact if_pos (by rw [h]; decide)

/-- A stopped context gives back the granules that its restore reserved and forgets its spilled copies (R346). -/
def State.restoresDropped (s : State) (g : Nat) (l : List Spill) : State :=
  let w := (l.filter (fun p => p.ctx == g && p.st == 2)).foldl (fun s p => s.freeGran p.gran) (s.releasing g)
  { w with spills := w.spills.filter (fun p => !(p.ctx == g && p.st != 0)) }

theorem releaseCtx_stopped {s : State} {g : Nat} (h : s.get (SCH_CTX_STAT_STATE g) = 3) :
    s.releaseCtx g = (((s.restoresDropped g s.spills).abortCtx g).stopCtx g 4).refreshOcc.settle := by
  unfold State.releaseCtx
  exact if_neg (by rw [h]; decide)

/-! ### The parts of the release itself -/

/-- The granules that a context holds. -/
def State.granulesOf (s : State) (c : Nat) : List Nat :=
  (List.range 512).filter (fun g => !s.granIn 0 g && s.get (SPD_GRAN_CTX g) == c)

/-- Its spilled copies, its release and its last cluster are forgotten. -/
def State.copiesForgotten (s : State) (c : Nat) : State :=
  { s with spills := s.spills.filter (fun p => p.ctx != c), relC := mdel c s.relC, lastCl := mdel c s.lastCl }

/-- Its granules are FREE, its spilled copies and its vector slots are gone. -/
def State.sharesFreed (s : State) (c : Nat) : State :=
  (((s.granulesOf c).foldl State.freeGran s).copiesForgotten c).setReg (VEC_CTX_SLOTS c) 0

/-- Attention unit `a` forgets the translations of a context. -/
def State.forgetIn (s : State) (c a : Nat) : State :=
  let x := mget (fun _ => ⟨[], []⟩) s.att a
  if x.lab.any (fun e => e.ctx == c) || x.roots.any (fun e => e.ctx == c) then
    s.setAtt a ⟨x.lab.filter (fun e => e.ctx != c), x.roots.filter (fun e => e.ctx != c)⟩
  else s

/-- Attention units and instruction caches hold nothing of a context. -/
def State.forget (s : State) (c : Nat) : State :=
  ((List.range 4).foldl (fun s a => s.forgetIn c a) s).dropLines 64 96 (fun l => l.ctx != c)

/-- The context is free. -/
def State.ctxFree (s : State) (c : Nat) : State :=
  ((s.put (SCH_CTX_STAT_STATE c) 0).put (SCH_CTX_STAT_RX_PEND c) 0).refreshOcc

theorem performRelease_eq (s : State) (c : Nat) : s.performRelease c =
    if s.ctxW c then (((s.sharesFreed c).forget c).ctxFree c).scrubClusters (s.get (SCH_CTX_CFG_VCLUSTERS c))
    else ((s.sharesFreed c).forget c).ctxFree c := by
  unfold State.performRelease State.sharesFreed State.copiesForgotten State.forget State.forgetIn State.ctxFree State.granulesOf
  rfl

/-! ### What each part leaves -/

section
variable {β : Type} (p : State → β)

theorem freeGrans_keeps (hregs : ∀ (u : State) r, p { u with regs := r } = p u)
    (horder : ∀ (u : State) x, p { u with borrowSeq := x } = p u) (l : List Nat) (s : State) :
    p (l.foldl State.freeGran s) = p s := by
  refine foldl_keeps p _ (fun u g => ?_) l s
  exact (horder _ _).trans (hregs _ _)

theorem forget_keeps (hregs : ∀ (u : State) r, p { u with regs := r } = p u)
    (hatt : ∀ (u : State) x, p { u with att := x } = p u) (hcaches : ∀ (u : State) x, p { u with caches := x } = p u)
    (s : State) (c : Nat) : p (s.forget c) = p s := by
  have hput (u : State) (f : Fref) (n : Nat) : p (u.put f n) = p u := (onlyRegs_put u f n).keeps p hregs
  have hone (u : State) (a : Nat) : p (u.forgetIn c a) = p u := by
    unfold State.forgetIn State.setAtt
    dsimp only
    split_ifs
    · rw [hput, hput, hput]
      exact hatt u _
    · rfl
  unfold State.forget State.dropLines
  exact (hcaches _ _).trans (foldl_keeps p _ hone _ s)

theorem scrubClusters_keeps (hcaches : ∀ (u : State) x, p { u with caches := x } = p u) (s : State) (cl : Nat) :
    p (s.scrubClusters cl) = p s := by
  unfold State.scrubClusters
  refine foldl_keeps p _ (fun u k => ?_) _ s
  dsimp only
  split_ifs
  · rfl
  · unfold State.dropLines
    exact (hcaches _ _).trans ((hcaches _ _).trans (hcaches _ _))

end

theorem reg_freeGrans (l : List Nat) (b : Nat) (s : State) :
    (l.foldl State.freeGran s).reg b = if ∃ g ∈ l, b = SPD_GRAN g then 0 else s.reg b := by
  induction l generalizing s with
  | nil => simp
  | cons g l ih =>
    refine (ih (s.freeGran g)).trans ?_
    have hone : (s.freeGran g).reg b = if b = SPD_GRAN g then 0 else s.reg b := reg_setReg s _ b 0
    simp only [hone, List.exists_mem_cons_iff]
    by_cases hl : ∃ q ∈ l, b = SPD_GRAN q
    · rw [if_pos hl, if_pos (.inr hl)]
    · simp only [hl, if_false, or_false]

/-! ### What the release itself leaves -/

/-- What depends on neither the registers nor the order of borrowing, the translations or the cache lines is as it was once
the shares were freed. -/
theorem performRelease_keeps {β : Type} (p : State → β) (hregs : ∀ (u : State) r, p { u with regs := r } = p u)
    (hatt : ∀ (u : State) x, p { u with att := x } = p u) (hcaches : ∀ (u : State) x, p { u with caches := x } = p u)
    (s : State) (c : Nat) : p (s.performRelease c) = p (s.sharesFreed c) := by
  have hfree (u : State) : p (u.ctxFree c) = p u := by
    unfold State.ctxFree
    refine (refreshOcc_keeps p hregs _).trans ?_
    exact ((onlyRegs_put _ _ _).keeps p hregs).trans ((onlyRegs_put _ _ _).keeps p hregs)
  have hall : p (((s.sharesFreed c).forget c).ctxFree c) = p (s.sharesFreed c) :=
    (hfree _).trans (forget_keeps p hregs hatt hcaches _ c)
  rw [performRelease_eq]
  split_ifs
  · exact (scrubClusters_keeps p hcaches _ _).trans hall
  · exact hall

theorem copiesForgotten_store (s : State) (c : Nat) :
    (s.copiesForgotten c).mem = s.mem ∧ (s.copiesForgotten c).descs = s.descs := ⟨rfl, rfl⟩

theorem sharesFreed_store (s : State) (c : Nat) : (s.sharesFreed c).mem = s.mem ∧ (s.sharesFreed c).descs = s.descs := by
  obtain ⟨hmem, hdescs⟩ := copiesForgotten_store ((s.granulesOf c).foldl State.freeGran s) c
  unfold State.sharesFreed
  rw [setReg_mem, setReg_descs, hmem, hdescs]
  exact ⟨freeGrans_keeps State.mem (fun _ _ => rfl) (fun _ _ => rfl) _ s,
    freeGrans_keeps State.descs (fun _ _ => rfl) (fun _ _ => rfl) _ s⟩

theorem reg_copiesForgotten (s : State) (c b : Nat) : (s.copiesForgotten c).reg b = s.reg b := reg_of_regs rfl b

theorem spills_copiesForgotten (s : State) (c : Nat) :
    (s.copiesForgotten c).spills = s.spills.filter (fun p => p.ctx != c) := rfl

theorem mem_spills_sharesFreed {s : State} {c : Nat} {p : Spill} (h : p ∈ (s.sharesFreed c).spills) : p.ctx ≠ c := by
  unfold State.sharesFreed at h
  rw [setReg_spills, spills_copiesForgotten] at h
  simpa using (List.mem_filter.mp h).2

theorem reg_setAtt (s : State) (a : Nat) (x : AttSt) {b : Nat} (h : b ≠ ATT_LAB_STAT a) : (s.setAtt a x).reg b = s.reg b := by
  unfold State.setAtt
  dsimp only
  exact (reg_put_ne _ _ _ b h).trans ((reg_put_ne _ _ _ b h).trans ((reg_put_ne _ _ _ b h).trans (reg_of_regs rfl b)))

theorem reg_dropLines (s : State) (lo hi : Nat) (keep : CLine → Bool) (b : Nat) : (s.dropLines lo hi keep).reg b = s.reg b := by
  unfold State.dropLines
  exact reg_of_regs rfl b

/-- Translations and cache lines go without any register but those of the look-aside buffers. -/
theorem reg_forget (s : State) (c : Nat) {b : Nat} (h : ∀ a < 4, b ≠ ATT_LAB_STAT a) : (s.forget c).reg b = s.reg b := by
  unfold State.forget
  rw [reg_dropLines]
  refine reg_foldl _ b _ (fun u a ha => ?_) s
  unfold State.forgetIn
  dsimp only
  split_ifs
  · exact reg_setAtt u a _ (h a (List.mem_range.mp ha))
  · rfl

theorem reg_performRelease (s : State) (c b : Nat) :
    (s.performRelease c).reg b = (((s.sharesFreed c).forget c).ctxFree c).reg b := by
  rw [performRelease_eq]
  split_ifs
  · exact scrubClusters_keeps (fun u => u.reg b) (fun u x => reg_of_regs rfl b) _ _
  · rfl

theorem get_performRelease_ctxStat (s : State) {c : Nat} (hc : c < 256) :
    (s.performRelease c).get (SCH_CTX_STAT_STATE c) = 0 ∧ (s.performRelease c).get (SCH_CTX_STAT_RX_PEND c) = 0 := by
  have hocc {f : Fref} (hf : f.off = SCH_CTX_STAT c) : (s.performRelease c).get f =
      ((((s.sharesFreed c).forget c).put (SCH_CTX_STAT_STATE c) 0).put (SCH_CTX_STAT_RX_PEND c) 0).get f := by
    refine get_of_reg ((reg_performRelease s c _).trans ?_)
    exact reg_refreshOcc _ (hf ▸ notOcc_ctxStat hc)
  rw [hocc rfl, hocc rfl]
  unfold SCH_CTX_STAT_STATE SCH_CTX_STAT_RX_PEND
  rw [get_put_ctxStat _ c 0 0 3 32 16 (by decide) (by decide), get_put_ctxStat_same _ c 0 0 3 (by decide),
    get_put_ctxStat_same _ c 0 32 16 (by decide)]
  exact ⟨rfl, rfl⟩

/-- Outside the occupancy, the context's status and the look-aside buffers a register is that of the freed shares. -/
theorem reg_performRelease_shares (s : State) (c : Nat) {b : Nat} (hocc : notOcc b) (hctx : b ≠ SCH_CTX_STAT c)
    (hatt : ∀ a < 4, b ≠ ATT_LAB_STAT a) : (s.performRelease c).reg b =
      if b = VEC_CTX_SLOTS c then 0 else if ∃ g ∈ s.granulesOf c, b = SPD_GRAN g then 0 else s.reg b := by
  refine (reg_performRelease s c b).trans ((reg_refreshOcc _ hocc).trans ((reg_put_ne _ _ _ b hctx).trans
    ((reg_put_ne _ _ _ b hctx).trans ((reg_forget _ c hatt).trans ?_))))
  unfold State.sharesFreed
  rw [reg_setReg, reg_copiesForgotten, reg_freeGrans]

theorem reg_slots_performRelease (s : State) {c : Nat} (hc : c < 256) : (s.performRelease c).reg (VEC_CTX_SLOTS c) = 0 := by
  refine (reg_performRelease_shares s c ⟨?_, fun f => ?_⟩ ?_ fun a ha => ?_).trans (if_pos rfl)
  all_goals simp only [VEC_CTX_SLOTS, SPD_OCC, VIRT_FN_W5, SCH_CTX_STAT, ATT_LAB_STAT]; omega

theorem mem_granulesOf (s : State) (c k : Nat) :
    k ∈ s.granulesOf c ↔ k < 512 ∧ s.get (SPD_GRAN_STATE k) ≠ 0 ∧ s.get (SPD_GRAN_CTX k) = c := by
  simp [State.granulesOf, State.granIn]

theorem reg_gran_performRelease (s : State) (c : Nat) {k : Nat} (hk : k < 512) : (s.performRelease c).reg (SPD_GRAN k) =
    if s.get (SPD_GRAN_STATE k) ≠ 0 ∧ s.get (SPD_GRAN_CTX k) = c then 0 else s.reg (SPD_GRAN k) := by
  have hctx : SPD_GRAN k ≠ SCH_CTX_STAT c ∧ SPD_GRAN k ≠ VEC_CTX_SLOTS c := by
    unfold SPD_GRAN SCH_CTX_STAT VEC_CTX_SLOTS
    omega
  have hatt : ∀ a < 4, SPD_GRAN k ≠ ATT_LAB_STAT a := fun a ha => by
    unfold SPD_GRAN ATT_LAB_STAT
    omega
  have hmem : (∃ g ∈ s.granulesOf c, SPD_GRAN k = SPD_GRAN g) ↔
      s.get (SPD_GRAN_STATE k) ≠ 0 ∧ s.get (SPD_GRAN_CTX k) = c := by
    refine Iff.trans ⟨fun ⟨g, hg, he⟩ => ?_, fun h => ⟨k, h, rfl⟩⟩ ((mem_granulesOf s c k).trans (and_iff_right hk))
    have hkg : k = g := by
      unfold SPD_GRAN at he
      omega
    exact hkg ▸ hg
  exact (reg_performRelease_shares s c (notOcc_gran hk) hctx.1 hatt).trans ((if_neg hctx.2).trans (if_congr hmem rfl rfl))

/-! ### The obligation -/

theorem exec_releaseDone_waits {s : State} {g : Nat}
    (h : s.get (SCH_CTX_STAT_STATE g) ≠ 4 ∨ s.ctxIdle g = false ∨ s.lntLetsGo g = false) :
    exec (.releaseDone g) s = .next s := by
  refine congrArg Host.Outcome.next (if_neg fun ⟨hst, hidle, hlnt⟩ => ?_)
  rcases h with h | h | h
  · exact h hst
  · exact Bool.false_ne_true (h.symm.trans hidle)
  · exact Bool.false_ne_true (h.symm.trans hlnt)

theorem exec_releaseDone_frees {s : State} {g : Nat} (hst : s.get (SCH_CTX_STAT_STATE g) = 4) (hidle : s.ctxIdle g = true)
    (hlnt : s.lntLetsGo g = true) : exec (.releaseDone g) s = .next (s.performRelease g) :=
  congrArg Host.Outcome.next (if_pos ⟨hst, hidle, hlnt⟩)

/-- Settles O23: the command by the state of its context, and the release itself part by part. -/
theorem releaseFreesWhatTheContextHolds : Obligations.ReleaseFreesWhatTheContextHolds := by
  intro s g hg st
  refine ⟨fun rq c v ho hv hcmd => ?_, exec_releaseDone_waits, fun hst hidle hlnt => ?_⟩
  · have hexec := (exec_contextRelease v ho hv).trans
      (congrArg Host.Outcome.next (writeCtxCfg_release (s := s) (rq := rq) hcmd))
    have hclosed (h : st ≠ 0 ∧ st ≠ 5) : exec (.contextRelease rq c v) s =
        .next (if st = 2 ∨ st = 3 then s.releaseCtx g else s) := hexec.trans (congrArg _ (if_neg (not_or.mpr h)))
    intro u keep v1
    refine ⟨fun h => ?_, fun h => ⟨?_, releasing_marks s g⟩, fun h => ?_, fun h => hexec.trans (congrArg _ (if_pos h))⟩
    · exact (hclosed (by omega)).trans (congrArg _ (if_neg (by omega)))
    · exact (hclosed (by omega)).trans (congrArg _ ((if_pos (.inl h)).trans (releaseCtx_moored h)))
    · exact (hclosed (by omega)).trans (congrArg _ ((if_pos (.inr h)).trans (releaseCtx_stopped h)))
  · intro t
    obtain ⟨hstate, hpend⟩ := get_performRelease_ctxStat s hg
    obtain ⟨hmem, hdescs⟩ := sharesFreed_store s g
    have hkept {β : Type} (p : State → β) (hregs : ∀ (u : State) r, p { u with regs := r } = p u)
        (hatt : ∀ (u : State) x, p { u with att := x } = p u) (hcaches : ∀ (u : State) x, p { u with caches := x } = p u) :
        p t = p (s.sharesFreed g) := performRelease_keeps p hregs hatt hcaches s g
    refine ⟨exec_releaseDone_frees hst hidle hlnt, hstate, hpend, reg_slots_performRelease s hg, fun p hp => ?_,
      fun k hk h1 h2 => (reg_gran_performRelease s g hk).trans (if_pos ⟨h1, h2⟩),
      fun k hk h => (reg_gran_performRelease s g hk).trans (if_neg fun hh => h hh.2),
      (hkept State.mem (fun _ _ => rfl) (fun _ _ => rfl) (fun _ _ => rfl)).trans hmem,
      (hkept State.descs (fun _ _ => rfl) (fun _ _ => rfl) (fun _ _ => rfl)).trans hdescs⟩
    rw [hkept State.spills (fun _ _ => rfl) (fun _ _ => rfl) (fun _ _ => rfl)] at hp
    exact mem_spills_sharesFreed hp

end Sys2Proof.Machine
end

section
/-!
SUPPORT. The deadline monitor (R361, R362), with the obligation on it: predictions are fractions, compared as rational
numbers.
-/

namespace Sys2Proof.Machine

/-! ### Fractions -/

/-- The value of a fraction; zero in the denominator counts as one. -/
def fracVal (p : Nat × Nat) : Rat := p.1 / (max 1 p.2 : Nat)

theorem fracDen_pos (p : Nat × Nat) : (0 : Rat) < (max 1 p.2 : Nat) := by
  exact_mod_cast Nat.lt_of_lt_of_le Nat.zero_lt_one (le_max_left 1 p.2)

theorem fracVal_of_pos {a b : Nat} (h : 0 < b) : fracVal (a, b) = a / b := by
  unfold fracVal
  rw [max_eq_right h]

theorem fracLt_iff (p q : Nat × Nat) : fracLt p q = true ↔ fracVal p < fracVal q := by
  unfold fracLt fracVal
  rw [decide_eq_true_eq, div_lt_div_iff₀ (fracDen_pos p) (fracDen_pos q)]
  exact_mod_cast Iff.rfl

theorem fracVal_larger (p q : Nat × Nat) : fracVal (if fracLt q p then p else q) = max (fracVal q) (fracVal p) := by
  by_cases h : fracLt q p = true
  · rw [if_pos h, max_eq_right ((fracLt_iff q p).mp h).le]
  · rw [if_neg h, max_eq_left (not_lt.mp (mt (fracLt_iff q p).mpr h))]

/-- A prediction in time, as the monitor compares it on the counter. -/
theorem inTime_iff (p : Nat × Nat) (dl c : Nat) :
    ((4 * p.1 : Nat) : Int) ≤ ((dl : Int) - (5 * c : Nat)) * (max 1 p.2 : Nat) ↔ ¬ (dl : Rat) / 4 < 5 / 4 * c + fracVal p := by
  have hpos := fracDen_pos p
  unfold fracVal
  generalize (max 1 p.2 : Nat) = m at hpos
  have hint : ((4 * p.1 : Nat) : Int) ≤ ((dl : Int) - (5 * c : Nat)) * m ↔ (0 : Rat) ≤ (dl - 5 * c) * m - 4 * p.1 := by
    rw [sub_nonneg]
    exact_mod_cast Iff.rfl
  have heq : (dl : Rat) / 4 - (5 / 4 * c + p.1 / m) = ((dl - 5 * c) * m - 4 * p.1) / (4 * m) := by
    field_simp
    ring
  rw [hint, not_lt, ← sub_nonneg (b := 5 / 4 * (c : Rat) + p.1 / m), heq, le_div_iff₀ (by linarith),
    zero_mul]

/-- A fraction raised by a number of percent. -/
theorem fracVal_percent {p : Nat × Nat} (k : Nat) (h : 0 < p.2) : fracVal (p.1 * k, p.2 * 100) = fracVal p * (k / 100) := by
  rw [fracVal_of_pos (Nat.mul_pos h (by decide)), show p = (p.1, p.2) from rfl, fracVal_of_pos h]
  push_cast
  rw [mul_div_mul_comm]

/-- By how many µs a prediction is late. -/
theorem lateness_eq (p : Nat × Nat) (dl c : Nat) :
    (((4 * p.1 : Nat) : Int) - ((dl : Int) - (5 * c : Nat)) * (max 1 p.2 : Nat)) / ((max 1 p.2 : Nat) * 4000 : Int) =
      Rat.floor ((5 / 4 * c + fracVal p - (dl : Rat) / 4) / 1000) := by
  have hpos := fracDen_pos p
  unfold fracVal
  generalize (max 1 p.2 : Nat) = m at hpos
  have hfloor := Rat.floor_intCast_div_natCast (((4 * p.1 : Nat) : Int) - ((dl : Int) - (5 * c : Nat)) * m) (m * 4000)
  have heq : ((5 / 4 * c + p.1 / m - (dl : Rat) / 4) / 1000) =
      (((((4 * p.1 : Nat) : Int) - ((dl : Int) - (5 * c : Nat)) * m : Int)) : Rat) / ((m * 4000 : Nat) : Rat) := by
    push_cast
    field_simp
    ring
  rw [heq]
  refine (?_ : _ = _).trans hfloor.symm
  push_cast
  rfl

/-! ### The prediction (R361) -/

/-- What is left of a run by the mean run, in ns. -/
def State.estFrac (s : State) (j : Nat) : Nat × Nat :=
  (s.get (SCH_JOB_W3_EST_NOW_US j) * 1000 * (s.get (SCH_JOB_W0_N_M1 j) + 1 - s.get (SCH_JOB_W3_DONE j)),
    s.get (SCH_JOB_W0_N_M1 j) + 1)

/-- What is left of a run by its progress so far, in ns. -/
def State.progFrac (s : State) (j : Nat) : Nat × Nat :=
  if s.get (SCH_JOB_W3_DONE j) = 0 then (0, 1)
  else (5 * (s.c - (s.job j).c0) * (s.get (SCH_JOB_W0_N_M1 j) + 1 - s.get (SCH_JOB_W3_DONE j)),
    4 * s.get (SCH_JOB_W3_DONE j))

/-- The larger of the two, which the margin raises. -/
def State.restFrac (s : State) (j : Nat) : Nat × Nat :=
  if fracLt (s.estFrac j) (s.progFrac j) then s.progFrac j else s.estFrac j

theorem predicted_eq (s : State) (j : Nat) :
    s.predicted j = ((s.restFrac j).1 * (100 + s.get (SCH_JOB_W2_MARGIN_PCT j)), (s.restFrac j).2 * 100) := rfl

section
variable {s : State} {j : Nat}

theorem restFrac_pos : 0 < (s.restFrac j).2 := by
  unfold State.restFrac
  split_ifs
  · unfold State.progFrac
    split_ifs
    · exact Nat.one_pos
    · show 0 < 4 * s.get (SCH_JOB_W3_DONE j)
      omega
  · exact Nat.succ_pos _

theorem fracVal_estFrac (hd : s.get (SCH_JOB_W3_DONE j) ≤ s.get (SCH_JOB_W0_N_M1 j)) :
    fracVal (s.estFrac j) = s.get (SCH_JOB_W3_EST_NOW_US j) * 1000 *
      ((s.get (SCH_JOB_W0_N_M1 j) : Rat) + 1 - s.get (SCH_JOB_W3_DONE j)) / ((s.get (SCH_JOB_W0_N_M1 j) : Rat) + 1) := by
  unfold State.estFrac
  rw [fracVal_of_pos (Nat.succ_pos _)]
  push_cast [Nat.le_succ_of_le hd]
  rfl

theorem fracVal_progFrac (hd : s.get (SCH_JOB_W3_DONE j) ≤ s.get (SCH_JOB_W0_N_M1 j)) (hc : (s.job j).c0 ≤ s.c) :
    fracVal (s.progFrac j) = if (s.get (SCH_JOB_W3_DONE j) : Rat) = 0 then 0 else 5 / 4 * (s.c - (s.job j).c0) *
      ((s.get (SCH_JOB_W0_N_M1 j) : Rat) + 1 - s.get (SCH_JOB_W3_DONE j)) / s.get (SCH_JOB_W3_DONE j) := by
  unfold State.progFrac
  by_cases h0 : s.get (SCH_JOB_W3_DONE j) = 0
  · rw [if_pos h0, if_pos (by exact_mod_cast h0)]
    simp [fracVal]
  · have hdone : (s.get (SCH_JOB_W3_DONE j) : Rat) ≠ 0 := by exact_mod_cast h0
    rw [if_neg h0, if_neg hdone, fracVal_of_pos (by omega)]
    push_cast [Nat.le_succ_of_le hd, hc]
    field_simp

theorem fracVal_predicted : fracVal (s.predicted j) =
    max (fracVal (s.estFrac j)) (fracVal (s.progFrac j)) * ((100 + s.get (SCH_JOB_W2_MARGIN_PCT j)) / 100) := by
  rw [predicted_eq, fracVal_percent _ restFrac_pos, State.restFrac, fracVal_larger]
  push_cast
  rfl

/-! ### The evaluation of an open run (R361, R362) -/

/-- Is the end that is predicted after the deadline? Both count from the start of the counter, in ns. -/
def State.late (s : State) (j dl : Nat) : Prop := (dl : Rat) / 4 < 5 / 4 * s.c + fracVal (s.predicted j)

/-- Has the job a fallback that is predicted to end earlier? -/
def State.shorter (s : State) (j : Nat) : Prop :=
  s.flag (SCH_JOB_W2_FB_EN j) = true ∧
    s.get (SCH_JOB_W1_FEST_US j) * 1000 * (((100 : Rat) + s.get (SCH_JOB_W2_MARGIN_PCT j)) / 100) < fracVal (s.predicted j)

theorem shorter_iff : (s.flag (SCH_JOB_W2_FB_EN j) && fracLt
    (s.get (SCH_JOB_W1_FEST_US j) * 1000 * (100 + s.get (SCH_JOB_W2_MARGIN_PCT j)), 100) (s.predicted j)) = true ↔ s.shorter j := by
  have hfall : fracVal (s.get (SCH_JOB_W1_FEST_US j) * 1000 * (100 + s.get (SCH_JOB_W2_MARGIN_PCT j)), 100) =
      s.get (SCH_JOB_W1_FEST_US j) * 1000 * (((100 : Rat) + s.get (SCH_JOB_W2_MARGIN_PCT j)) / 100) := by
    rw [fracVal_of_pos (by decide)]
    push_cast
    ring
  rw [Bool.and_eq_true, fracLt_iff, hfall, State.shorter]

theorem jobEval_undated (h : (s.job j).dl = none) : s.jobEval j = s := by
  unfold State.jobEval
  rw [h]
  split_ifs <;> rfl

section
variable {dl : Nat} (hst : s.get (SCH_JOB_W3_STATE j) = 1) (hdl : (s.job j).dl = some dl)
include hst hdl

theorem jobEval_inTime (h : ¬ s.late j dl) : s.jobEval j = s := by
  unfold State.jobEval
  rw [if_neg (not_not.mpr hst), hdl]
  exact if_pos ((inTime_iff _ dl s.c).mpr h)

theorem jobEval_switch (h : s.late j dl) (hs : s.shorter j) : s.jobEval j =
    s.switchJob j (Rat.floor ((5 / 4 * s.c + fracVal (s.predicted j) - (dl : Rat) / 4) / 1000)).toNat := by
  unfold State.jobEval
  rw [if_neg (not_not.mpr hst), hdl, ← lateness_eq]
  exact (if_neg fun hin => (inTime_iff _ dl s.c).mp hin h).trans (if_pos (shorter_iff.mpr hs))

theorem jobEval_late (h : s.late j dl) (hs : ¬ s.shorter j) : s.jobEval j =
    if (s.job j).missed then s else (s.setJob j { s.job j with missed := true }).bump SCH_CNT_PRED_MISS_COUNT 1 := by
  unfold State.jobEval
  rw [if_neg (not_not.mpr hst), hdl]
  exact (if_neg fun hin => (inTime_iff _ dl s.c).mp hin h).trans (if_neg fun hin => hs (shorter_iff.mp hin))

end

end

/-! ### The check (R361) -/

/-- The periods of the monitor up to now count as evaluated. -/
def State.checked (s : State) (j : Nat) : State := s.setJob j { s.job j with checks := s.checksDue j }

/-- An open run has a period of the monitor to be evaluated. -/
def State.checkDue (s : State) (j : Nat) : Prop :=
  s.fwRuns = true ∧ s.get (SCH_JOB_W3_STATE j) = 1 ∧ (s.job j).checks < s.checksDue j

theorem job_setJob (s : State) (j : Nat) (x : JobSt) : (s.setJob j x).job j = x :=
  (mget_mset job0 s.jobs j j x).trans (if_pos rfl)

theorem job_checked (s : State) (j : Nat) : (s.checked j).job j = { s.job j with checks := s.checksDue j } := job_setJob s j _

theorem predicted_checked (s : State) (j : Nat) : (s.checked j).predicted j = s.predicted j := by
  have hc0 : ((s.checked j).job j).c0 = (s.job j).c0 := by rw [job_checked]
  unfold State.predicted
  rw [hc0]
  rfl

section
variable {s : State} {j : Nat}

theorem exec_deadlineCheck_idle (h : ¬ s.checkDue j) : exec (.deadlineCheck j) s = .next s :=
  congrArg Host.Outcome.next (if_neg h)

theorem exec_deadlineCheck_due (h : s.checkDue j) : exec (.deadlineCheck j) s = .next ((s.checked j).jobEval j).settle :=
  congrArg Host.Outcome.next (if_pos h)

/-- A period has passed since the opening, so the opening lies before now. -/
theorem opened_before (h : s.checkDue j) : (s.job j).c0 ≤ s.c := by
  obtain ⟨-, -, hlt⟩ := h
  by_contra hc
  unfold State.checksDue at hlt
  rw [Nat.sub_eq_zero_of_le (by omega), Nat.zero_div] at hlt
  omega

/-- A predicted miss counted. -/
def State.missCounted (s : State) (j : Nat) : State :=
  (s.setJob j { s.job j with missed := true }).bump SCH_CNT_PRED_MISS_COUNT 1

theorem missCounted_effect (s : State) (j : Nat) :
    (s.missCounted j).job j = { s.job j with missed := true } ∧
    (s.missCounted j).get SCH_CNT_PRED_MISS_COUNT = min (s.get SCH_CNT_PRED_MISS_COUNT + 1) 0xFFFFFFFF ∧
    ∀ k, k ≠ SCH_CNT_PRED_MISS → (s.missCounted j).reg k = s.reg k :=
  ⟨job_setJob s j _, get_bump_one (s.setJob j { s.job j with missed := true }) SCH_CNT_PRED_MISS,
    fun k hk => reg_bump_ne _ SCH_CNT_PRED_MISS_COUNT 1 k hk⟩

theorem missCounted_frame (s : State) (j : Nat) :
    s.missCounted j = { s with regs := (s.missCounted j).regs, jobs := (s.missCounted j).jobs } := rfl

end

/-! ### The obligation -/

/-- Settles O27: the prediction as a rational number, and the monitor's evaluation by its cases. -/
theorem monitorComparesPredictionWithDeadline : Obligations.MonitorComparesPredictionWithDeadline := by
  intro j s v due
  refine ⟨exec_deadlineCheck_idle, fun hdue hdl => ?_, fun dl hdue _ hdl hdone => ?_⟩
  · rw [exec_deadlineCheck_due hdue, jobEval_undated ((congrArg JobSt.dl (job_checked s j)).trans hdl)]
    rfl
  · intro n done margin a b rest late shorter
    have hrest : fracVal (s.predicted j) = rest := by
      rw [fracVal_predicted, fracVal_estFrac hdone, fracVal_progFrac hdone (opened_before hdue)]
    have hrest' : fracVal ((s.checked j).predicted j) = rest := (congrArg fracVal (predicted_checked s j)).trans hrest
    have hlate : (s.checked j).late j dl ↔ late := by
      unfold State.late
      rw [hrest']
      rfl
    have hshort : (s.checked j).shorter j ↔ shorter := by
      unfold State.shorter
      rw [hrest']
      rfl
    have hst : (s.checked j).get (SCH_JOB_W3_STATE j) = 1 := hdue.2.1
    have hdl' : ((s.checked j).job j).dl = some dl := (congrArg JobSt.dl (job_checked s j)).trans hdl
    have hmissed : ((s.checked j).job j).missed = (s.job j).missed := by rw [job_checked]
    have hexec := exec_deadlineCheck_due hdue
    refine ⟨fun h => ?_, fun h hs => ?_, fun h hs hm => ?_, fun h hs hm => ?_⟩
    · rw [hexec, jobEval_inTime hst hdl' (mt hlate.mp h)]
      rfl
    · rw [hexec, jobEval_switch hst hdl' (hlate.mpr h) (hshort.mpr hs), hrest']
      rfl
    · rw [hexec, jobEval_late hst hdl' (hlate.mpr h) (mt hshort.mp hs), hmissed, hm]
      rfl
    · intro u
      obtain ⟨hjob, hcount, hregs⟩ := missCounted_effect (s.checked j) j
      have hu : u = (s.checked j).missCounted j := rfl
      rw [hu]
      refine ⟨?_, congrArg JobSt.missed hjob, ?_, hcount, missCounted_frame _ j, hregs⟩
      · rw [hexec, jobEval_late hst hdl' (hlate.mpr h) (mt hshort.mp hs), hmissed, hm]
        rfl
      · exact (congrArg JobSt.checks hjob).trans (congrArg JobSt.checks (job_checked s j))

end Sys2Proof.Machine
end

section
/-!
SUPPORT. Responses of peers and the link opcodes (R528, R536 to R538), data of deferred reads that failed (R358), with the
obligation on them.
-/

namespace Sys2Proof.Machine

/-! ### A failure on the links (R538) -/

theorem lnkFail_log (s : State) (st port dev : Nat) :
    (s.lnkFail st port dev).get LNK_ERR_LOG0_STATUS = st % 256 ∧ (s.lnkFail st port dev).get LNK_ERR_LOG0_DEV = dev % 64 := by
  have hlog (u : State) {f : Fref} (n x : Nat) (hf : f.off = LNK_ERR_LOG0) :
      ((u.put LNK_ERR_LOG1_TIME n).emitError 34 0x1200000 x).get f = u.get f := by
    have hdbg : notDbg f.off := hf ▸ Or.inl (by decide)
    exact get_of_reg ((reg_emitError _ 34 0x1200000 x f.off hdbg).trans (reg_put_ne u LNK_ERR_LOG1_TIME n _ (by rw [hf]; decide)))
  unfold State.lnkFail
  dsimp only
  rw [hlog _ _ _ rfl, hlog _ _ _ rfl]
  refine ⟨?_, get_put _ LNK_ERR_LOG0_DEV dev (by decide)⟩
  rw [get_put_disjoint _ LNK_ERR_LOG0_DEV LNK_ERR_LOG0_STATUS dev (by decide) (by decide),
    get_put_disjoint _ LNK_ERR_LOG0_PORT LNK_ERR_LOG0_STATUS port (by decide) (by decide)]
  exact get_put s LNK_ERR_LOG0_STATUS st (by decide)

/-- What a state's reports do not tell is the same in states that agree when still. -/
theorem keeps_of_still {β : Type} (f : State → β) (hf : ∀ u : State, f u.still = f u) {s t : State} (h : t.still = s.still) :
    f t = f s := (hf t).symm.trans ((congrArg f h).trans (hf s))

/-- A failure is logged and reported; what the links hold stays. -/
theorem lnkFail_frame (s : State) (st port dev : Nat) : (s.lnkFail st port dev).mem = s.mem ∧
    (s.lnkFail st port dev).lnkOut = s.lnkOut ∧ (s.lnkFail st port dev).peerData = s.peerData :=
  have hstill := still_lnkFail s st port dev
  ⟨keeps_of_still State.mem (fun _ => rfl) hstill, keeps_of_still State.lnkOut (fun _ => rfl) hstill,
    keeps_of_still State.peerData (fun _ => rfl) hstill⟩

/-! ### Responses (R528, R537) -/

section
variable {s : State} {p : Nat}

/-- Nothing arrives on a port that is not up. -/
theorem exec_responses_down (h : s.linkIn p = false) :
    (∀ k bs cs, exec (.rdRsp p k bs cs) s = .next s) ∧ (∀ k, exec (.wrAck p k) s = .next s) ∧
    (∀ k, exec (.semAck p k) s = .next s) ∧ ∀ a b, exec (.echoRsp p a b) s = .next s := by
  have hdown (t : State) : (if (!s.linkIn p) = true then s else t) = s := if_pos (by rw [h]; rfl)
  exact ⟨fun _ _ _ => congrArg _ (hdown _), fun _ => congrArg _ (hdown _), fun _ => congrArg _ (hdown _),
    fun _ _ => congrArg _ (hdown _)⟩

theorem outReq_gotFlits (s : State) (p n : Nat) (k : LnkRsp) (op : Nat) : (s.gotFlits p n).outReq k op = s.outReq k op := rfl

theorem desc?_gotFlits (s : State) (p n i : Nat) : (s.gotFlits p n).desc? i = s.desc? i := rfl

/-- A response that no request waits for is counted. -/
def State.lateAfter (s : State) (p n : Nat) : State := (s.gotFlits p n).bump LNK_CNT_LATE_RSP_COUNT 1

/-- Flits of a response to a read: its header, and the data of one that is OK. -/
def rspFlits (k : LnkRsp) (bs : List Byte) : Nat := if k.status = 0 then 1 + (bs.length + 63) / 64 else 1

/-- The data of a read is kept for its reader, that of a deferred one with its place in the receive area. -/
def State.readBack (s : State) (o : LnkOut) (bs : List Byte) (cs : List Nat) : State :=
  { s.dropReq o with peerData := s.peerData ++
    [⟨o.desc, o.dev, o.addr, bs, cs, none, o.deferred, if o.deferred then some o.rx else none⟩] }

theorem readBack_effect (s : State) (p n : Nat) (o : LnkOut) (bs : List Byte) (cs : List Nat) :
    (∀ x ∈ ((s.gotFlits p n).readBack o bs cs).lnkOut, x.tag ≠ o.tag) ∧
    ((s.gotFlits p n).readBack o bs cs).mem = s.mem ∧ ((s.gotFlits p n).readBack o bs cs).descs = s.descs := by
  refine ⟨fun x hx => ?_, rfl, rfl⟩
  have hmem : x ∈ (s.gotFlits p n).lnkOut.filter (fun x => x.tag != o.tag) := hx
  simpa using (List.mem_filter.mp hmem).2

section
variable (hl : s.linkIn p = true)
include hl

theorem linkIn_not : ¬ (!s.linkIn p) = true := by rw [hl]; decide

theorem exec_rdRsp_late {k : LnkRsp} (bs : List Byte) (cs : List Nat) (h : s.outReq k 0 = none) :
    exec (.rdRsp p k bs cs) s = .next (s.lateAfter p (rspFlits k bs)) := by
  show execRdRsp p k bs cs s = _
  unfold execRdRsp
  rw [if_neg (linkIn_not hl)]
  dsimp only
  rw [outReq_gotFlits, h]
  rfl

theorem exec_rdRsp_refused {k : LnkRsp} {o : LnkOut} (bs : List Byte) (cs : List Nat) (h : s.outReq k 0 = some o)
    (hst : k.status ≠ 0) :
    exec (.rdRsp p k bs cs) s = .next ((s.gotFlits p 1).reqFailed o 0xC2 (refusedDetail k.status o.addr)) := by
  show execRdRsp p k bs cs s = _
  unfold execRdRsp
  rw [if_neg (linkIn_not hl)]
  dsimp only
  rw [outReq_gotFlits, h]
  simp only [hst, if_false, ne_eq, not_false_eq_true, if_true]

theorem exec_rdRsp_wrongLength {k : LnkRsp} {o : LnkOut} {bs : List Byte} (cs : List Nat) (h : s.outReq k 0 = some o)
    (hst : k.status = 0) (hlen : bs.length ≠ 32 * o.len) :
    exec (.rdRsp p k bs cs) s = .next (s.gotFlits p (rspFlits k bs)) := by
  show execRdRsp p k bs cs s = _
  unfold execRdRsp rspFlits
  rw [if_neg (linkIn_not hl)]
  dsimp only
  rw [outReq_gotFlits, h]
  simp only [hst, hlen, ne_eq, not_true, not_false_eq_true, if_false, if_true]

theorem exec_rdRsp_ok {k : LnkRsp} {o : LnkOut} {bs : List Byte} (cs : List Nat) (h : s.outReq k 0 = some o)
    (hst : k.status = 0) (hlen : bs.length = 32 * o.len) :
    exec (.rdRsp p k bs cs) s = .next ((s.gotFlits p (rspFlits k bs)).readBack o bs cs).settle := by
  show execRdRsp p k bs cs s = _
  unfold execRdRsp rspFlits State.readBack
  rw [if_neg (linkIn_not hl)]
  dsimp only
  rw [outReq_gotFlits, h]
  simp only [hst, hlen, ne_eq, not_true, if_false, if_true]

theorem exec_wrAck_late {k : LnkRsp} (h : s.outReq k 1 = none) : exec (.wrAck p k) s = .next (s.lateAfter p 1) := by
  show execWrAck p k s = _
  unfold execWrAck
  rw [if_neg (linkIn_not hl)]
  dsimp only
  rw [outReq_gotFlits, h]
  rfl

theorem exec_wrAck {k : LnkRsp} {o : LnkOut} (h : s.outReq k 1 = some o) : exec (.wrAck p k) s =
    .next (if k.status = 0 then ((s.gotFlits p 1).dropReq o).settle
      else (s.gotFlits p 1).reqFailed o 0xC2 (refusedDetail k.status o.addr)) := by
  show execWrAck p k s = _
  unfold execWrAck
  rw [if_neg (linkIn_not hl)]
  dsimp only
  rw [outReq_gotFlits, h]
  exact congrArg _ (ite_not _ _ _)

theorem exec_semAck_late {k : LnkRsp} (h : s.outReq k 4 = none) : exec (.semAck p k) s = .next (s.lateAfter p 1) := by
  show execSemAck p k s = _
  unfold execSemAck
  rw [if_neg (linkIn_not hl)]
  dsimp only
  rw [outReq_gotFlits, h]
  rfl

theorem exec_semAck {k : LnkRsp} {o : LnkOut} {d : Desc} (h : s.outReq k 4 = some o) (hd : s.desc? o.desc = some d) :
    exec (.semAck p k) s = .next (
      if k.status = 0 then (((s.gotFlits p 1).dropReq o).linkDone o.desc 0 0).settle
      else if k.status = 2 then (((s.gotFlits p 1).dropReq o).linkDone o.desc 0x02 (bitsOf (d.u 16 4) 6 12)).settle
      else if k.status = 0xC3 then (s.gotFlits p 1).reqFailed o 0xC3 (bitsOf (d.u 16 4) 6 12)
      else (s.gotFlits p 1).reqFailed o 0xC2 (refusedDetail k.status o.addr)) := by
  show execSemAck p k s = _
  unfold execSemAck
  rw [if_neg (linkIn_not hl)]
  dsimp only
  rw [outReq_gotFlits, h]
  dsimp only
  rw [desc?_gotFlits, hd]

theorem exec_echoRsp_late {a b : Nat} (h : s.outReq ⟨a, b, 0⟩ 6 = none) :
    exec (.echoRsp p a b) s = .next (s.lateAfter p 1) := by
  show execEchoRsp p a b s = _
  unfold execEchoRsp
  rw [if_neg (linkIn_not hl)]
  dsimp only
  rw [outReq_gotFlits, h]
  rfl

theorem exec_echoRsp {a b : Nat} {o : LnkOut} (h : s.outReq ⟨a, b, 0⟩ 6 = some o) : exec (.echoRsp p a b) s =
    .next ((((s.gotFlits p 1).dropReq o).updDesc o.desc (fun x => { x with step := 2 + s.sinceNs o.sentC })).echoWrite o.desc) := by
  show execEchoRsp p a b s = _
  unfold execEchoRsp
  rw [if_neg (linkIn_not hl)]
  dsimp only
  rw [outReq_gotFlits, h]
  rfl

end

end

/-! ### No response (R538) -/

theorem exec_peerTimeout_none {s : State} {tag : Nat} (h : s.lnkOut.find? (fun o => o.tag == tag) = none) :
    exec (.peerTimeout tag) s = .next s := by
  show execPeerTimeout tag s = _
  unfold execPeerTimeout
  rw [h]

theorem exec_peerTimeout {s : State} {tag : Nat} {o : LnkOut} (h : s.lnkOut.find? (fun o => o.tag == tag) = some o) :
    exec (.peerTimeout tag) s = .next (if s.c < o.sentC + 800 * s.get LNK_CFG_TIMEOUT_US then s else s.reqFailed o 0xC1 o.dev) := by
  show execPeerTimeout tag s = _
  unfold execPeerTimeout
  rw [h, Nat.mul_comm]
  rfl

/-! ### The link opcodes (R536, R537) -/

/-- What neither the registers, the ports nor the outputs tell, a packet sent leaves. -/
theorem txPkt_keeps {β : Type} (f : State → β) (hregs : ∀ (u : State) r, f { u with regs := r } = f u)
    (hports : ∀ (u : State) x, f { u with ports := x } = f u) (hout : ∀ (u : State) x, f { u with out := x } = f u)
    (s : State) (p : Nat) (k : LnkPkt) : f (s.txPkt p k) = f s := by
  have hset (u : State) (x : PortSt) : f (u.setPort p x) = f u := hports u _
  have hsend (b n : Nat) : f (s.sendFlits p b n) = f s := by
    unfold State.sendFlits
    exact ((onlyRegs_bump _ _ n).keeps f hregs).trans (hset s _)
  unfold State.txPkt
  dsimp only
  split_ifs
  · exact hout s _
  · exact hset s _
  · exact (hout _ _).trans (hsend _ _)

/-- A request that is outstanding. -/
def State.sentReq (s : State) (o : LnkOut) : State := { s with lnkOut := s.lnkOut ++ [o] }

section
variable {s : State} {i : Nat} {d : Desc}

/-- The request of a link opcode: its destination, no data. -/
def State.linkReq (s : State) (d : Desc) (op arg : Nat) : State × Bool := s.peerIssue (s.mreq d 34) op (lnkDev d) 0 0 arg 0 0 []

theorem linkReq_unroutable {op arg : Nat} (h : s.routePort (lnkDev d) 0 = none) :
    s.linkReq d op arg = (s.lnkFail 0xC0 ((s.prefPort (lnkDev d) 0).getD 0) (lnkDev d), false) := by
  unfold State.linkReq State.peerIssue
  rw [h]

theorem linkReq_routed {op arg q : Nat} (h : s.routePort (lnkDev d) 0 = some q) : ∃ k : LnkPkt, s.linkReq d op arg =
    ((s.sentReq ⟨s.newTag, lnkDev d, d.id, op, 0, 0, s.c, false, 0⟩).txPkt q k, true) := by
  unfold State.linkReq State.peerIssue
  rw [h]
  exact ⟨_, rfl⟩

theorem linkOp_idle {opc op arg : Nat} (hd : s.desc? i = some d) (h : d.step ≠ 0) : s.linkOp i opc op arg = s := by
  unfold State.linkOp
  rw [hd]
  exact if_pos (by simp [h])

theorem linkOp_sends {opc op arg : Nat} (hd : s.desc? i = some d) (hr : d.runnable opc = true) (h0 : d.step = 0) :
    s.linkOp i opc op arg = if (s.linkReq d op arg).2 then (s.linkReq d op arg).1.updDesc i (fun x => { x with step := 1 })
      else ((s.linkReq d op arg).1.linkDone i 0xC0 (lnkDev d)).settle := by
  rcases h : s.linkReq d op arg with ⟨u, b⟩
  unfold State.linkReq at h
  unfold State.linkOp
  rw [hd]
  dsimp only
  rw [if_neg (by simp [hr, h0]), h]
  cases b <;> rfl

/-- A link opcode whose destination has no route ends with its code; one that has a route sends its request. -/
theorem linkOp_effect {opc op arg : Nat} (hd : s.desc? i = some d) (hr : d.runnable opc = true) (h0 : d.step = 0) :
    (s.routePort (lnkDev d) 0 = none → s.linkOp i opc op arg = ((s.linkReq d op arg).1.linkDone i 0xC0 (lnkDev d)).settle ∧
      (s.linkReq d op arg).1.get LNK_ERR_LOG0_STATUS = 0xC0 ∧ (s.linkReq d op arg).1.lnkOut = s.lnkOut ∧
      (s.linkReq d op arg).1.mem = s.mem) ∧
    (∀ q, s.routePort (lnkDev d) 0 = some q →
      s.linkOp i opc op arg = (s.linkReq d op arg).1.updDesc i (fun x => { x with step := 1 }) ∧
      (s.linkReq d op arg).1.lnkOut = s.lnkOut ++ [⟨s.newTag, lnkDev d, i, op, 0, 0, s.c, false, 0⟩] ∧
      (s.linkReq d op arg).1.mem = s.mem) := by
  rw [linkOp_sends hd hr h0]
  refine ⟨fun hroute => ?_, fun q hroute => ?_⟩
  · obtain ⟨hmem, hout, -⟩ := lnkFail_frame s 0xC0 ((s.prefPort (lnkDev d) 0).getD 0) (lnkDev d)
    rw [linkReq_unroutable hroute]
    exact ⟨if_neg Bool.false_ne_true, (lnkFail_log s _ _ _).1, hout, hmem⟩
  · obtain ⟨k, hk⟩ := linkReq_routed (op := op) (arg := arg) hroute
    rw [hk, id_of_desc? hd]
    exact ⟨if_pos rfl, txPkt_keeps State.lnkOut (fun _ _ => rfl) (fun _ _ => rfl) (fun _ _ => rfl) _ q k,
      txPkt_keeps State.mem (fun _ _ => rfl) (fun _ _ => rfl) (fun _ _ => rfl) _ q k⟩

theorem exec_lnkSemSignal (hd : s.desc? i = some d) : exec (.lnkSemSignal i) s =
    .next (s.linkOp i 0xD0 4 (bitsOf (d.u 16 4) 6 12 + d.u 20 4 * 2 ^ 32)) := by
  show execLnkSemSignal i s = _
  unfold execLnkSemSignal
  rw [hd]

theorem exec_lnkEcho (hd : s.desc? i = some d) : exec (.lnkEcho i) s =
    .next (if 2 ≤ d.step then s.echoWrite i else s.linkOp i 0xD1 6 s.beacon) := by
  show execLnkEcho i s = _
  unfold execLnkEcho
  rw [hd]

end

/-! ### Deferred data that failed (R358) -/

theorem exec_deferredReceiveLand_none {s : State} {c : Nat} (ok : Bool)
    (h : ∀ x ∈ s.peerData, x.land = true → s.rxMine c x = false) : exec (.deferredReceiveLand c ok) s = .next s := by
  have hnone : s.peerData.find? (fun x => x.land && s.rxMine c x) = none := List.find?_eq_none.mpr fun x hx hb => by
    obtain ⟨hland, hmine⟩ := Bool.and_eq_true_iff.mp hb
    exact Bool.false_ne_true ((h x hx hland).symm.trans hmine)
  show execDeferredReceiveLand c ok s = _
  unfold execDeferredReceiveLand
  rw [hnone]

/-- Deferred data marked as failed, and pending no longer. -/
def State.markFailed (s : State) (x : PeerData) : State :=
  { s with peerData := s.peerData.map (fun y => if y = x then { y with land := false, err := some (0xC1, x.dev) } else y) }

/-- The failure of deferred data is logged for the port of its request. -/
def State.landFailed (s : State) (x : PeerData) : State :=
  (s.markFailed x).lnkFail 0xC1 (((s.markFailed x).prefPort x.dev x.addr).getD 0) x.dev

theorem exec_deferredReceiveLand_failed {s : State} {c : Nat} {x : PeerData}
    (h : s.peerData.find? (fun x => x.land && s.rxMine c x) = some x) :
    exec (.deferredReceiveLand c false) s = .next ((s.landFailed x).rxLanded x.desc).settle := by
  show execDeferredReceiveLand c false s = _
  unfold execDeferredReceiveLand State.landFailed State.markFailed
  rw [h]
  simp only [Bool.false_eq_true, if_false]

/-! ### The obligation -/

/-- Settles O43: an equation for each response, for the timeout, for the two opcodes and for deferred data. -/
theorem peerOperationsEndWithTheirResponses : Obligations.PeerOperationsEndWithTheirResponses := by
  intro p s g late
  refine ⟨exec_responses_down, fun hl => ⟨fun k => ?responses, fun a b => exec_echoRsp_late hl, fun a b o => exec_echoRsp hl⟩,
    fun tag => exec_peerTimeout_none, fun tag o => exec_peerTimeout, fun i d hd => ?opcodes,
    fun c ok => exec_deferredReceiveLand_none ok, fun c x hx => ?landing⟩
  case responses =>
    intro n
    refine ⟨fun bs cs => exec_rdRsp_late hl bs cs, exec_wrAck_late hl, exec_semAck_late hl, fun o bs cs ho =>
      ⟨exec_rdRsp_refused hl bs cs ho, exec_rdRsp_wrongLength hl cs ho, fun hst hlen =>
        ⟨exec_rdRsp_ok hl cs ho hst hlen, readBack_effect s p (n bs) o bs cs⟩⟩, fun o => exec_wrAck hl, fun o d ho hd => ?_⟩
    have hexec := exec_semAck hl ho hd
    exact ⟨fun h => hexec.trans (congrArg _ (if_pos h)),
      fun h => hexec.trans (congrArg _ ((if_neg (by omega)).trans (if_pos h))),
      fun h => hexec.trans (congrArg _ ((if_neg (by omega)).trans ((if_neg (by omega)).trans (if_pos h))))⟩
  case opcodes =>
    have hsignal := exec_lnkSemSignal hd
    have hecho := exec_lnkEcho hd
    have hbefore (h : d.step < 2) : exec (.lnkEcho i) s = .next (s.linkOp i 0xD1 6 s.beacon) :=
      hecho.trans (congrArg _ (if_neg (by omega)))
    refine ⟨fun hr h0 => ?_, fun hr h0 => ?_, fun _ h1 => ?_, fun _ h1 => ?_, fun h => hecho.trans (congrArg _ (if_pos h))⟩
    · obtain ⟨hnone, hsome⟩ := linkOp_effect (op := 4) (arg := bitsOf (d.u 16 4) 6 12 + d.u 20 4 * 2 ^ 32) hd hr h0
      exact ⟨fun h => (hnone h).imp_left fun he => hsignal.trans (congrArg _ he),
        fun q h => (hsome q h).imp_left fun he => hsignal.trans (congrArg _ he)⟩
    · obtain ⟨hnone, hsome⟩ := linkOp_effect (op := 6) (arg := s.beacon) hd hr h0
      exact ⟨fun h => (hnone h).imp_left fun he => (hbefore (by omega)).trans (congrArg _ he),
        fun q h => (hsome q h).imp_left fun he => (hbefore (by omega)).trans (congrArg _ he)⟩
    · exact hsignal.trans (congrArg _ (linkOp_idle hd (by omega)))
    · exact (hbefore (by omega)).trans (congrArg _ (linkOp_idle hd (by omega)))
  case landing =>
    obtain ⟨hmem, -, hdata⟩ := lnkFail_frame (s.markFailed x) 0xC1 (((s.markFailed x).prefPort x.dev x.addr).getD 0) x.dev
    obtain ⟨hstatus, hdev⟩ := lnkFail_log (s.markFailed x) 0xC1 (((s.markFailed x).prefPort x.dev x.addr).getD 0) x.dev
    exact ⟨exec_deferredReceiveLand_failed hx, hmem, hdata, hstatus, hdev⟩

end Sys2Proof.Machine
end

section
/-!
SUPPORT. Regulation windows (R373, R380): the refutation of the obligation on windows and stop points.
-/

namespace Sys2Proof.Machine

/-- A number that is not that of one of the 75 ports, whose counter of windows with held requests (R384) would be BCN_OFFSET. -/
def strayPort : Nat := 0x9F583

/-- A device that runs, 1 ns of Beacon time before the end of the regulation window 0 of 100 µs, where it last counted another
window (Beacon time was set back) and the stray port is noted as one that held requests. -/
def strayHold : State :=
  { State.reset with
    pins := ⟨true, true, false, false, ⟨false, false⟩⟩
    regs := [(BCN_OFFSET, 99999)]
    qosHold := [strayPort]
    qosWin := 5 }

theorem holdwin_strayPort : QOS_PORT_HOLDWIN strayPort = BCN_OFFSET := rfl

theorem strayHold_due : strayHold.dead = false ∧ strayHold.qosHeld = [] ∧ strayHold.qosIndex strayHold.beacon = 0 := by
  decide +kernel

/-- The count moves Beacon time into the next window before the window's index is taken. -/
theorem strayHold_index : strayHold.newWindow.beacon = strayHold.beacon + 1 ∧ strayHold.newWindow.qosWin = 1 ∧
    strayHold.newWindow.qosIndex strayHold.beacon = 0 := by
  decide +kernel

/-- Refutes O26: the last clause says for every state that the window counted after REGULATION_WINDOW is that of the Beacon time
before it. With a port number out of range among the ports that held requests, which nothing in the statement excludes, the
count of that port (R384) is written into BCN_OFFSET, and the window counted is the one after. -/
theorem not_windowsAndStopPoints : ¬ Obligations.WindowsAndStopPoints := by
  intro h
  obtain ⟨-, -, hdefer⟩ := h
  obtain ⟨-, -, -, hwindow⟩ := hdefer 0 true strayHold
  obtain ⟨hdead, hheld, hindex⟩ := strayHold_due
  obtain ⟨-, hwin, hthen⟩ := strayHold_index
  obtain ⟨-, hafter⟩ := hwindow hdead (by rw [hindex]; decide)
  obtain ⟨-, -, -, -, hsame, -⟩ := hafter hheld
  rw [hwin, hthen] at hsame
  exact absurd hsame (by decide)

end Sys2Proof.Machine
end

section
/-!
SUPPORT. AtomicOps (R385): the register that such an access names, the value that it stores, and the obligation on AtomicOps.
-/

namespace Sys2Proof.Machine

/-! ### What an AtomicOp stores -/

theorem opResult_lt (op : AtomicOp) {w old : Nat} (v cmp : Nat) (h : old < 2 ^ w) : opResult op w old v cmp < 2 ^ w := by
  cases op with
  | fetchAdd => exact Nat.mod_lt _ (Nat.two_pow_pos w)
  | swap => exact Nat.mod_lt _ (Nat.two_pow_pos w)
  | cas =>
    simp only [opResult]
    split_ifs
    · exact Nat.mod_lt _ (Nat.two_pow_pos w)
    · exact h

/-! ### What a register of block TOP shows -/

/-- No register of block TOP follows something else that a read must bring up to date. -/
theorem readReady_top (s : State) {off : Nat} (h : off < 0x100000) : s.readReady off = s := by
  have hnow : off ≠ BCN_NOW := by unfold BCN_NOW; omega
  have hraw : off ≠ BCN_RAW := by unfold BCN_RAW; omega
  have hisl : off ≠ LNT_SEC_ISL := by unfold LNT_SEC_ISL; omega
  have htime : ¬ (0x1502000 ≤ off ∧ off < 0x1503000) := by omega
  have hbusy : ¬ (off < 0x240000 ∧ 0x200000 ≤ off ∧ off % 0x10000 = 0x110) := by omega
  simp only [State.readReady, if_neg hnow, if_neg hraw, if_neg hisl, if_neg htime, if_neg hbusy]

theorem readReg_top (s : State) (sp : RegSpec) {off : Nat} (h : off < 0x100000) (hv : s.flag DBG_SNAP_CTL_VIEW = false) :
    s.readReg (.fn 0) sp off = (s, shown sp.flds (s.reg off).toNat) := by
  simp only [State.readReg, readReady_top s h, hv, Bool.false_and, Bool.false_eq_true, if_false]
  rfl

/-! ### The access (R385, log 21) -/

/-- A word at the first byte of a register that the PF reaches can be acted on when an RW field lies under it. -/
theorem atomicTarget_word (s : State) {off : Nat} {sp : RegSpec} (hr : s.reaches (.fn 0) = true) (hal : off % 4 = 0)
    (hp : s.placeAt (.fn 0) off = .reg sp off false) :
    s.atomicTarget (.fn 0) off 4 = sp.flds.any (fun f => f.acc == .rw && bitsOf 0xFFFFFFFF f.lo f.w != 0) := by
  unfold State.atomicTarget
  rw [(accepted_iff off 4).mpr ⟨.inl rfl, hal⟩, hr, resetting_pf, hp]
  rfl

theorem exec_pcieAtomicOp_unsupported {s : State} {rq : Requester} {off size : Nat} (op : AtomicOp) (v cmp : Word64)
    (h : s.atomicTarget rq off size = false) :
    exec (.pcieAtomicOp rq off size op v cmp) s =
      .next { s with out := { s.out with unsupported := s.out.unsupported + 1 } } :=
  congrArg Host.Outcome.next (if_pos (by rw [h]; rfl))

/-- An AtomicOp on a word reads the register, answers what it showed, and writes the result as a register write does. -/
theorem exec_pcieAtomicOp_word {s : State} {rq : Requester} {off base : Nat} {sp : RegSpec} (op : AtomicOp) (v cmp : Word64)
    (h : s.atomicTarget rq off 4 = true) (hp : s.placeAt rq off = .reg sp base false) :
    exec (.pcieAtomicOp rq off 4 op v cmp) s =
      let old := (s.readReg rq sp base).2 % 2 ^ 32
      .next { (s.readReg rq sp base).1.bar0Write rq off 4 (opResult op 32 old v.toNat cmp.toNat) with
        rdata := BitVec.ofNat 64 old } := by
  refine congrArg Host.Outcome.next ((if_neg (by simp [h])).trans ?_)
  rw [hp]
  simp

/-- Settles O7: such a word is a target of AtomicOps exactly where an RW field lies under it, its read gives the register as it
stands, and the result, being a word, is written by the plain write of block TOP. -/
theorem atomicOpReadsThenWrites : Obligations.AtomicOpReadsThenWrites := by
  intro off sp op v cmp s hr hal hlt hc hreg hv
  have hp : s.placeAt (.fn 0) off = .reg sp off false := placeAt_reg s off sp (by omega) (answers_top s hlt) hreg
  have htarget := atomicTarget_word s hr hal hp
  refine ⟨fun hrw => ?_, fun hno => exec_pcieAtomicOp_unsupported op v cmp (htarget.trans hno)⟩
  obtain ⟨hword, -⟩ := bar0Write_open s off sp hr (answers_top s hlt) (shut_top s (.fn 0) hlt) hv hal (by omega) hreg
    (openFields_top hlt hreg) (opResult op 32 (shown sp.flds (s.reg off).toNat % 2 ^ 32) v.toNat cmp.toNat)
  rw [Nat.mod_eq_of_lt (opResult_lt op _ _ (Nat.mod_lt _ (Nat.two_pow_pos 32))), writeBlock_top s _ off off _ _ hlt hc,
    plainWrite_of_regAt s hreg] at hword
  rw [exec_pcieAtomicOp_word op v cmp (htarget.trans hrw) hp, readReg_top s sp hlt hv]
  dsimp only
  rw [hword]
  cases op <;> rfl

end Sys2Proof.Machine
end

section
/-!
SUPPORT. The status of a function and the states of its queues (R392, R396), heartbeats (R395), and the obligation on heartbeats,
QUIESCE and RESUME.
-/

namespace Sys2Proof.Machine

/-! ### FN_STATE mirrors the status word (R392) -/

theorem fnState_ne_fnW5 (f g : Nat) : FN_STATE f ≠ VIRT_FN_W5 g := by
  unfold FN_STATE VIRT_FN_W5
  omega

theorem onlyRegs_refreshFn (s : State) (f : Nat) : OnlyRegs [FN_STATE f] s (s.refreshFn f) :=
  (((onlyRegs_put s (FN_STATE_ARMED f) _).trans (onlyRegs_put _ (FN_STATE_QUIESCED f) _)).trans
    (onlyRegs_put _ (FN_STATE_FLR_BUSY f) _)).mono (by simp [FN_STATE_ARMED, FN_STATE_QUIESCED, FN_STATE_FLR_BUSY])

theorem reg_refreshFn_ne (s : State) (f b : Nat) (h : b ≠ FN_STATE f) : (s.refreshFn f).reg b = s.reg b :=
  (onlyRegs_refreshFn s f).2 b (List.mem_singleton.not.mpr h)

/-- The status word itself stays. -/
theorem get_fnW5_refreshFn (s : State) (f g lo w : Nat) :
    (s.refreshFn f).get ⟨VIRT_FN_W5 g, lo, w⟩ = s.get ⟨VIRT_FN_W5 g, lo, w⟩ :=
  get_of_reg (reg_refreshFn_ne s f _ (fnState_ne_fnW5 f g).symm)

theorem get_fnState_refreshFn (s : State) (f : Nat) :
    (s.refreshFn f).get (FN_STATE_ARMED f) = s.get (VIRT_FN_W5_ARMED f) ∧
    (s.refreshFn f).get (FN_STATE_QUIESCED f) = s.get (VIRT_FN_W5_QUIESCED f) := by
  have harmed : s.get (VIRT_FN_W5_ARMED f) < 2 := get_lt s (VIRT_FN_W5_ARMED f)
  have hquiesced : s.get (VIRT_FN_W5_QUIESCED f) < 2 := get_lt s (VIRT_FN_W5_QUIESCED f)
  unfold State.refreshFn
  refine ⟨?_, ?_⟩
  · rw [get_put_disjoint _ (FN_STATE_FLR_BUSY f) (FN_STATE_ARMED f) _ (by simp [FN_STATE_FLR_BUSY])
        (by simp [FN_STATE_ARMED, FN_STATE_FLR_BUSY]),
      get_put_disjoint _ (FN_STATE_QUIESCED f) (FN_STATE_ARMED f) _ (by simp [FN_STATE_QUIESCED])
        (by simp [FN_STATE_ARMED, FN_STATE_QUIESCED])]
    exact get_put_fits s (FN_STATE_ARMED f) _ (by simp [FN_STATE_ARMED]) harmed
  · rw [get_put_disjoint _ (FN_STATE_FLR_BUSY f) (FN_STATE_QUIESCED f) _ (by simp [FN_STATE_FLR_BUSY])
        (by simp [FN_STATE_QUIESCED, FN_STATE_FLR_BUSY])]
    exact get_put_fits _ (FN_STATE_QUIESCED f) _ (by simp [FN_STATE_QUIESCED]) hquiesced

/-! ### QUIESCE and RESUME (R396, R397) -/

theorem still_refreshFn (s : State) (f : Nat) : (s.refreshFn f).still = s.still :=
  (still_put _ _ _).trans ((still_put _ _ _).trans (still_put s _ _))

/-- CMD_Q_PTR stands at byte 16 of a queue's 32; the new states keep every register at another place. -/
theorem reg_refreshQueues (s : State) (qs : List Nat) (b : Nat) (h : b % 32 ≠ 16) :
    (qs.foldl State.refreshQueue s).reg b = s.reg b :=
  reg_foldl _ b qs (fun t q _ => (onlyRegs_refreshQueue t q).2 b (List.mem_singleton.not.mpr (by
    unfold CMD_Q_PTR
    omega))) s

theorem reg_fnEvt_ne (s : State) (f bit b : Nat) (h : b ≠ FN_EVT f) : (s.fnEvt f bit).reg b = s.reg b := by
  simp only [State.fnEvt]
  split_ifs
  · exact (reg_msix _ _ _ b).trans (reg_put_ne s _ 1 b h)
  · exact reg_put_ne s _ 1 b h

theorem get_fnEvt (s : State) (f bit : Nat) (h : bit < 64) : (s.fnEvt f bit).get ⟨FN_EVT f, bit, 1⟩ = 1 := by
  have hput : (s.put ⟨FN_EVT f, bit, 1⟩ 1).get ⟨FN_EVT f, bit, 1⟩ = 1 := get_put_fits s _ 1 (by simp only; omega) (by norm_num)
  simp only [State.fnEvt]
  split_ifs
  · exact (get_of_reg (reg_msix _ _ _ _)).trans hput
  · exact hput

/-- Of states that agree when still: the descriptors, the memory, the stopped queues and the heartbeats are the same. -/
theorem queues_of_still {s t : State} (h : t.still = s.still) :
    t.descs = s.descs ∧ t.mem = s.mem ∧ t.stoppedQ = s.stoppedQ ∧ t.hbDue = s.hbDue := by
  have hdescs : t.still.descs = s.still.descs := by rw [h]
  have hstop : t.still.stoppedQ = s.still.stoppedQ := by rw [h]
  have hdue : t.still.hbDue = s.still.hbDue := by rw [h]
  exact ⟨hdescs, (mem_of_still h).1, hstop, hdue⟩

/-- The status bit QUIESCED set to `x`, mirrored in FN_STATE, the function's queues with their new states, and event `bit`. -/
def State.setQuiesced (s : State) (f x bit : Nat) : State :=
  let s := (s.put (VIRT_FN_W5_QUIESCED f) x).refreshFn f
  ((s.fnQueues f).foldl State.refreshQueue s).fnEvt f bit

theorem still_setQuiesced (s : State) (f x bit : Nat) : (s.setQuiesced f x bit).still = s.still :=
  (still_fnEvt _ f bit).trans ((still_foldl _ still_refreshQueue _ _).trans
    ((still_refreshFn _ f).trans (still_put s _ x)))

/-- What QUIESCED and its mirror hold afterwards, and the event. -/
theorem get_setQuiesced (s : State) (f : Nat) {x bit : Nat} (hx : x < 2) (hbit : bit < 64) :
    (s.setQuiesced f x bit).get (VIRT_FN_W5_QUIESCED f) = x ∧ (s.setQuiesced f x bit).get (FN_STATE_QUIESCED f) = x ∧
    (s.setQuiesced f x bit).get ⟨FN_EVT f, bit, 1⟩ = 1 := by
  have hput : (s.put (VIRT_FN_W5_QUIESCED f) x).get (VIRT_FN_W5_QUIESCED f) = x :=
    get_put_fits s _ x (by simp [VIRT_FN_W5_QUIESCED]) hx
  have hkeep : ∀ b, b % 32 ≠ 16 →
      (s.setQuiesced f x bit).reg b = ((s.put (VIRT_FN_W5_QUIESCED f) x).refreshFn f).reg b := fun b hb =>
    (reg_fnEvt_ne _ f bit b (by unfold FN_EVT; omega)).trans (reg_refreshQueues _ _ b hb)
  obtain ⟨-, hmirror⟩ := get_fnState_refreshFn (s.put (VIRT_FN_W5_QUIESCED f) x) f
  refine ⟨?_, ?_, get_fnEvt _ f bit hbit⟩
  · exact (get_of_reg (hkeep _ (by simp only [VIRT_FN_W5_QUIESCED, VIRT_FN_W5]; omega))).trans
      ((get_fnW5_refreshFn _ f f 1 1).trans hput)
  · exact (get_of_reg (hkeep _ (by simp only [FN_STATE_QUIESCED, FN_STATE]; omega))).trans (hmirror.trans hput)

theorem quiesce_idle {s : State} {f : Nat} (hq : s.flag (VIRT_FN_W5_QUIESCED f) = false)
    (hb : s.flag (VIRT_FN_W5_FLR_BUSY f) = false) : s.quiesce f = (s.setQuiesced f 1 0).pfEvt :=
  if_neg (by simp [hq, hb])

theorem quiesce_busy {s : State} {f : Nat}
    (h : ¬ (s.flag (VIRT_FN_W5_QUIESCED f) = false ∧ s.flag (VIRT_FN_W5_FLR_BUSY f) = false)) : s.quiesce f = s :=
  if_pos (by simpa [or_iff_not_imp_left] using h)

theorem resume_quiesced {s : State} {f : Nat} (h : s.flag (VIRT_FN_W5_QUIESCED f) = true) : s.resume f = s.setQuiesced f 0 1 :=
  if_neg (by simp [h])

theorem resume_running {s : State} {f : Nat} (h : s.flag (VIRT_FN_W5_QUIESCED f) = false) : s.resume f = s :=
  if_pos (by simp [h])

/-- A function that is not being reset is quiesced: its status and its event say so, and nothing but registers and reports
changes. -/
theorem quiesce_effect {s : State} {f : Nat} (hq : s.flag (VIRT_FN_W5_QUIESCED f) = false)
    (hb : s.flag (VIRT_FN_W5_FLR_BUSY f) = false) :
    (s.quiesce f).get (VIRT_FN_W5_QUIESCED f) = 1 ∧ (s.quiesce f).get (FN_STATE_QUIESCED f) = 1 ∧
    (s.quiesce f).get ⟨FN_EVT f, 0, 1⟩ = 1 ∧
    (s.quiesce f).descs = s.descs ∧ (s.quiesce f).mem = s.mem ∧ (s.quiesce f).stoppedQ = s.stoppedQ ∧
    (s.quiesce f).hbDue = s.hbDue := by
  obtain ⟨hstatus, hmirror, hevent⟩ := get_setQuiesced s f (x := 1) (bit := 0) (by decide) (by decide)
  rw [quiesce_idle hq hb]
  exact ⟨(get_pfIrq _ _ _ _).trans hstatus, (get_pfIrq _ _ _ _).trans hmirror, (get_pfIrq _ _ _ _).trans hevent,
    queues_of_still ((still_pfIrq _ _ _).trans (still_setQuiesced s f 1 0))⟩

theorem vfResume_effect {s : State} {f : Nat} (h : s.flag (VIRT_FN_W5_QUIESCED f) = true) :
    (s.resume f).get (VIRT_FN_W5_QUIESCED f) = 0 ∧ (s.resume f).get (FN_STATE_QUIESCED f) = 0 ∧
    (s.resume f).get ⟨FN_EVT f, 1, 1⟩ = 1 ∧ (s.resume f).descs = s.descs := by
  obtain ⟨hstatus, hmirror, hevent⟩ := get_setQuiesced s f (x := 0) (bit := 1) (by decide) (by decide)
  rw [resume_quiesced h]
  exact ⟨hstatus, hmirror, hevent, (queues_of_still (still_setQuiesced s f 0 1)).1⟩

theorem refreshLtr_descs (s : State) : s.refreshLtr.descs = s.descs := by
  rw [refreshLtr_eq]

theorem exec_quiesce {rq : Requester} {fn : Nat} {s : State} (h : s.opens rq (VIRT_FN_W4 fn) = true)
    (ho : openFields (VIRT_FN_W4 fn) = true) : exec (.quiesce rq fn) s = .next (s.quiesce fn) :=
  congrArg Host.Outcome.next (guarded_eq s rq _ _ h ho)

theorem exec_vfResume {rq : Requester} {fn : Nat} {s : State} (h : s.opens rq (VIRT_FN_W4 fn) = true)
    (ho : openFields (VIRT_FN_W4 fn) = true) : exec (.vfResume rq fn) s = .next (s.resume fn).refreshLtr :=
  congrArg Host.Outcome.next (guarded_eq s rq _ _ h ho)

/-! ### Heartbeats (R395) -/

theorem exec_fnHb {fn : Nat} (v : Word32) {s : State} (hb : s.bellOk fn = true) (ha : s.answers (FN_HB 0) = true) :
    exec (.fnHb fn v) s = .next (s.heartbeat fn) :=
  congrArg Host.Outcome.next (if_pos (by simp [hb, ha]))

theorem heartbeat_quiesced {s : State} {f : Nat} (h : s.flag (VIRT_FN_W5_QUIESCED f) = true) :
    s.heartbeat f = s.put (VIRT_FN_W5_HB_LATE f) 1 := if_pos h

theorem heartbeat_late {s : State} {f : Nat} (hq : s.flag (VIRT_FN_W5_QUIESCED f) = false)
    (h0 : mget (fun _ => 0) s.hbDue f ≠ 0) (h : mget (fun _ => 0) s.hbDue f ≤ s.c) : s.heartbeat f = s :=
  (if_neg (by simp [hq])).trans (if_pos ⟨h0, h⟩)

/-- ARMED and the expiry instant as a heartbeat in time leaves them: disarmed where HB_MS is 0. -/
def State.rearmed (s : State) (f : Nat) : State :=
  let ms := s.get (VIRT_FN_W3_HB_MS f)
  { s.put (VIRT_FN_W5_ARMED f) (if ms = 0 then 0 else 1) with
    hbDue := mset (fun _ => 0) s.hbDue f (if ms = 0 then 0 else s.c + 800000 * ms) }

theorem heartbeat_intime {s : State} {f : Nat} (hq : s.flag (VIRT_FN_W5_QUIESCED f) = false)
    (h : mget (fun _ => 0) s.hbDue f = 0 ∨ s.c < mget (fun _ => 0) s.hbDue f) : s.heartbeat f = (s.rearmed f).refreshFn f := by
  have hdue : ¬ (mget (fun _ => 0) s.hbDue f ≠ 0 ∧ mget (fun _ => 0) s.hbDue f ≤ s.c) := by omega
  refine ((if_neg (by simp [hq])).trans (if_neg hdue)).trans ?_
  unfold State.rearmed
  by_cases hms : s.get (VIRT_FN_W3_HB_MS f) = 0
  · simp only [if_pos hms]
  · simp only [if_neg hms, msTicks, Nat.mul_comm 800000]

theorem get_armed_rearmed (s : State) (f : Nat) :
    (s.rearmed f).get (VIRT_FN_W5_ARMED f) = if s.get (VIRT_FN_W3_HB_MS f) = 0 then 0 else 1 :=
  get_put_fits s (VIRT_FN_W5_ARMED f) _ (by simp [VIRT_FN_W5_ARMED]) (by split_ifs <;> simp [VIRT_FN_W5_ARMED])

/-- The instant of this function's expiry is the new one, and that of every other function stays. -/
theorem hbDue_rearmed (s : State) (f g : Nat) : mget (fun _ => 0) (s.rearmed f).hbDue g =
    if g = f then (if s.get (VIRT_FN_W3_HB_MS f) = 0 then 0 else s.c + 800000 * s.get (VIRT_FN_W3_HB_MS f))
    else mget (fun _ => 0) s.hbDue g := mget_mset _ _ _ _ _

theorem reg_rearmed_ne (s : State) (f b : Nat) (h : b ≠ VIRT_FN_W5 f) : (s.rearmed f).reg b = s.reg b :=
  reg_put_ne s (VIRT_FN_W5_ARMED f) _ b h

theorem refreshFn_rearmed_eq (s : State) (f : Nat) :
    (s.rearmed f).refreshFn f = { s with regs := ((s.rearmed f).refreshFn f).regs, hbDue := (s.rearmed f).hbDue } :=
  (onlyRegs_refreshFn (s.rearmed f) f).1

theorem hbDue_refreshFn (s : State) (f : Nat) : (s.refreshFn f).hbDue = s.hbDue :=
  (onlyRegs_refreshFn s f).keeps State.hbDue fun _ _ => rfl

/-- The function's expiry taken off. -/
def State.unarmed (s : State) (f : Nat) : State := { s with hbDue := mset (fun _ => 0) s.hbDue f 0 }

theorem hbDue_unarmed (s : State) (f : Nat) : mget (fun _ => 0) (s.unarmed f).hbDue f = 0 :=
  (mget_mset (fun _ => 0) s.hbDue f f 0).trans (if_pos rfl)

theorem exec_heartbeatExpiry_early {fn : Nat} {s : State}
    (h : mget (fun _ => 0) s.hbDue fn = 0 ∨ s.c < mget (fun _ => 0) s.hbDue fn) : exec (.heartbeatExpiry fn) s = .next s :=
  congrArg Host.Outcome.next (if_pos h)

theorem exec_heartbeatExpiry_due {fn : Nat} {s : State} (h0 : mget (fun _ => 0) s.hbDue fn ≠ 0)
    (h : mget (fun _ => 0) s.hbDue fn ≤ s.c) : exec (.heartbeatExpiry fn) s =
      .next ((s.unarmed fn).quiesce fn) :=
  congrArg Host.Outcome.next (if_neg (by omega))

/-- Settles O29: a heartbeat in time is the new instant and the mirror of ARMED; QUIESCE, RESUME and an expiry set QUIESCED, its
mirror and the function's event, and leave what is no register and no report. -/
theorem heartbeatsAndQuiesce : Obligations.HeartbeatsAndQuiesce := by
  refine ⟨fun fn v s _ hbell hans => ?_, fun fn s _ _ => ⟨fun rq hopen hfields => ?_, ?_⟩⟩
  · rw [exec_fnHb v hbell hans]
    refine ⟨fun hq => ?_, fun hq h0 hdue => ?_, fun hq hdue => ?_⟩
    · rw [heartbeat_quiesced hq]
    · rw [heartbeat_late hq h0 hdue]
    · rw [heartbeat_intime hq hdue]
      have harmed := (get_fnW5_refreshFn (s.rearmed fn) fn fn 3 1).trans (get_armed_rearmed s fn)
      obtain ⟨hmirror, -⟩ := get_fnState_refreshFn (s.rearmed fn) fn
      have hdues := fun g => (congrArg (fun m => mget (fun _ => 0) m g) (hbDue_refreshFn (s.rearmed fn) fn)).trans
        (hbDue_rearmed s fn g)
      refine ⟨rfl, harmed, hmirror.trans (get_fnW5_refreshFn (s.rearmed fn) fn fn 3 1).symm,
        (hdues fn).trans (if_pos rfl), fun g hg => (hdues g).trans (if_neg hg), ?_,
        fun b hw5 hst => (reg_refreshFn_ne _ fn b hst).trans (reg_rearmed_ne s fn b hw5)⟩
      have heq := refreshFn_rearmed_eq s fn
      rw [← hbDue_refreshFn (s.rearmed fn) fn] at heq
      exact heq
  · rw [exec_quiesce hopen hfields, exec_vfResume hopen hfields]
    refine ⟨fun ⟨hq, hb⟩ => ?_, fun hbusy => ?_, fun hq => ?_, fun hq => ?_⟩
    · obtain ⟨hstatus, hmirror, hevent, hdescs, hmem, hstop, hdue⟩ := quiesce_effect hq hb
      exact ⟨rfl, ⟨hstatus, hmirror, hevent, hdescs, hmem, hstop⟩, hdue⟩
    · rw [quiesce_busy hbusy]
    · rw [resume_running hq]
    · obtain ⟨hstatus, hmirror, hevent, hdescs⟩ := vfResume_effect hq
      exact ⟨rfl, (get_refreshLtr _ _).trans hstatus, (get_refreshLtr _ _).trans hmirror, (get_refreshLtr _ _).trans hevent,
        (refreshLtr_descs _).trans hdescs⟩
  · refine ⟨exec_heartbeatExpiry_early, fun h0 hdue ⟨hq, hb⟩ => ?_⟩
    obtain ⟨hstatus, hmirror, hevent, hdescs, hmem, hstop, hunarmed⟩ := quiesce_effect (s := s.unarmed fn) hq hb
    exact ⟨exec_heartbeatExpiry_due h0 hdue, ⟨hstatus, hmirror, hevent, hdescs, hmem, hstop⟩,
      (congrArg (fun m => mget (fun _ => 0) m fn) hunarmed).trans (hbDue_unarmed s fn)⟩

end Sys2Proof.Machine
end

section
/-!
SUPPORT. Dirty bitmaps (R402, R403), the resources that VF Enable gives to functions (R388), and the obligation on both.
-/

namespace Sys2Proof.Machine

/-! ### Dirty bitmaps (R402, R403) -/

theorem exec_dirtySwap {rq : Requester} {fn : Nat} {s : State} (h : s.opens rq (VIRT_FN_W6 fn) = true)
    (ho : openFields (VIRT_FN_W6 fn) = true) : exec (.dirtySwap rq fn) s = .next (s.swapBitmap fn) :=
  congrArg Host.Outcome.next (guarded_eq s rq _ _ h ho)

theorem swapBitmap_busy {s : State} {f : Nat} (h : s.flag (VIRT_FN_W6_SWAP_BUSY f) = true) : s.swapBitmap f = s := if_pos h

theorem swapBitmap_free {s : State} {f : Nat} (h : s.flag (VIRT_FN_W6_SWAP_BUSY f) = false) : s.swapBitmap f =
    (s.put (VIRT_FN_W6_ACTIVE f) (1 - s.get (VIRT_FN_W6_ACTIVE f))).put (VIRT_FN_W6_SWAP_BUSY f) 1 := if_neg (by simp [h])

/-- SWAP_BUSY of a function after a write of it, and its two neighbours in the register. -/
theorem get_put_swapBusy (s : State) (f : Nat) {n : Nat} (hn : n < 2) :
    (s.put (VIRT_FN_W6_SWAP_BUSY f) n).get (VIRT_FN_W6_SWAP_BUSY f) = n ∧
    (s.put (VIRT_FN_W6_SWAP_BUSY f) n).get (VIRT_FN_W6_ACTIVE f) = s.get (VIRT_FN_W6_ACTIVE f) ∧
    (s.put (VIRT_FN_W6_SWAP_BUSY f) n).get (VIRT_FN_W6_DIRTY_EN f) = s.get (VIRT_FN_W6_DIRTY_EN f) :=
  have hw : (VIRT_FN_W6_SWAP_BUSY f).lo + (VIRT_FN_W6_SWAP_BUSY f).w ≤ 64 := by simp [VIRT_FN_W6_SWAP_BUSY]
  ⟨get_put_fits s _ n hw hn,
    get_put_disjoint s _ (VIRT_FN_W6_ACTIVE f) n hw (.inr (by simp [VIRT_FN_W6_SWAP_BUSY, VIRT_FN_W6_ACTIVE])),
    get_put_disjoint s _ (VIRT_FN_W6_DIRTY_EN f) n hw (.inl (by simp [VIRT_FN_W6_SWAP_BUSY, VIRT_FN_W6_DIRTY_EN]))⟩

/-- What a write of ACTIVE leaves of the register. -/
theorem get_put_activeBitmap (s : State) (f : Nat) {n : Nat} (hn : n < 2) :
    (s.put (VIRT_FN_W6_ACTIVE f) n).get (VIRT_FN_W6_ACTIVE f) = n ∧
    (s.put (VIRT_FN_W6_ACTIVE f) n).get (VIRT_FN_W6_DIRTY_EN f) = s.get (VIRT_FN_W6_DIRTY_EN f) :=
  have hw : (VIRT_FN_W6_ACTIVE f).lo + (VIRT_FN_W6_ACTIVE f).w ≤ 64 := by simp [VIRT_FN_W6_ACTIVE]
  ⟨get_put_fits s _ n hw hn,
    get_put_disjoint s _ (VIRT_FN_W6_DIRTY_EN f) n hw (.inl (by simp [VIRT_FN_W6_ACTIVE, VIRT_FN_W6_DIRTY_EN]))⟩

/-- SWAP makes the other bitmap active and leaves every other register. -/
theorem swapBitmap_effect {s : State} {f : Nat} (h : s.flag (VIRT_FN_W6_SWAP_BUSY f) = false) :
    (s.swapBitmap f).get (VIRT_FN_W6_ACTIVE f) = 1 - s.get (VIRT_FN_W6_ACTIVE f) ∧
    (s.swapBitmap f).get (VIRT_FN_W6_SWAP_BUSY f) = 1 ∧
    (s.swapBitmap f).get (VIRT_FN_W6_DIRTY_EN f) = s.get (VIRT_FN_W6_DIRTY_EN f) ∧
    OnlyRegs [VIRT_FN_W6 f] s (s.swapBitmap f) := by
  rw [swapBitmap_free h]
  obtain ⟨hbusy, hkeep, hen⟩ := get_put_swapBusy (s.put (VIRT_FN_W6_ACTIVE f) (1 - s.get (VIRT_FN_W6_ACTIVE f))) f (n := 1)
    (by decide)
  obtain ⟨hact, hen'⟩ := get_put_activeBitmap s f (n := 1 - s.get (VIRT_FN_W6_ACTIVE f)) (by omega)
  exact ⟨hkeep.trans hact, hbusy, hen.trans hen', ((onlyRegs_put s (VIRT_FN_W6_ACTIVE f) _).trans
    (onlyRegs_put _ (VIRT_FN_W6_SWAP_BUSY f) 1)).mono (by simp [VIRT_FN_W6_ACTIVE, VIRT_FN_W6_SWAP_BUSY])⟩

theorem exec_swapDone_free {fn : Nat} {s : State} (h : s.flag (VIRT_FN_W6_SWAP_BUSY fn) = false) :
    exec (.swapDone fn) s = .next s := congrArg Host.Outcome.next (if_pos (by simp [h]))

/-- The lines of the function's bitmap that is not active. -/
def State.oldLines (s : State) (f : Nat) : List DirtyLine :=
  s.dirty.filter (fun l => l.fn == f && l.bmap != s.get (VIRT_FN_W6_ACTIVE f))

theorem mem_oldLines {s : State} {f : Nat} {l : DirtyLine} :
    l ∈ s.oldLines f ↔ l ∈ s.dirty ∧ l.fn = f ∧ l.bmap ≠ s.get (VIRT_FN_W6_ACTIVE f) := by
  simp [State.oldLines]

/-- The old bitmap's lines counted, written to host memory and held no more. -/
def State.bitmapFlushed (s : State) (f : Nat) : State :=
  let v := s.bump (VIRT_FN_W10_COUNT f) (s.oldLines f).length
  { v with host := (s.oldLines f).foldl writeLine v.host, dirty := v.dirty.filter (fun l => !(s.oldLines f).contains l) }

theorem dirty_bitmapFlushed (s : State) (f : Nat) :
    (s.bitmapFlushed f).dirty = s.dirty.filter (fun l => !(s.oldLines f).contains l) := rfl

theorem host_bitmapFlushed (s : State) (f : Nat) : (s.bitmapFlushed f).host = (s.oldLines f).foldl writeLine s.host := rfl

theorem exec_swapDone_busy {fn : Nat} {s : State} (h : s.flag (VIRT_FN_W6_SWAP_BUSY fn) = true) :
    exec (.swapDone fn) s = .next ((s.bitmapFlushed fn).put (VIRT_FN_W6_SWAP_BUSY fn) 0) :=
  congrArg Host.Outcome.next (if_neg (by simp [h]))

theorem get_active_bitmapFlushed (s : State) (f : Nat) :
    (s.bitmapFlushed f).get (VIRT_FN_W6_ACTIVE f) = s.get (VIRT_FN_W6_ACTIVE f) :=
  get_of_reg (reg_bump_ne s (VIRT_FN_W10_COUNT f) _ _ (by
    simp only [VIRT_FN_W6_ACTIVE, VIRT_FN_W10_COUNT, VIRT_FN_W10, VIRT_FN_W6]
    omega))

theorem mem_dirty_bitmapFlushed {s : State} {f : Nat} {l : DirtyLine} :
    l ∈ (s.bitmapFlushed f).dirty ↔ l ∈ s.dirty ∧ (l.fn = f → l.bmap = s.get (VIRT_FN_W6_ACTIVE f)) := by
  have hold := mem_oldLines (s := s) (f := f) (l := l)
  simp only [dirty_bitmapFlushed, List.mem_filter, Bool.not_eq_true', List.contains_eq_mem, decide_eq_false_iff_not]
  tauto

/-! ### Folds over lists of distinct targets -/

/-- What one step of a fold brings about and the steps for other elements keep holds at its end. -/
theorem foldl_establishes {α : Type} (I P : State → Prop) (f : State → α → State) (a : α) (l : List α) (ha : a ∈ l)
    (hI : ∀ t, ∀ b ∈ l, I t → I (f t b)) (hset : ∀ t, I t → P (f t a))
    (hkeep : ∀ t, ∀ b ∈ l, b ≠ a → I t → P t → P (f t b)) (s : State) (hs : I s) : P (l.foldl f s) := by
  have hstep : ∀ t, ∀ b ∈ l, I t → P t → P (f t b) := fun t b hb ht hp => by
    by_cases h : b = a
    · exact h ▸ hset t ht
    · exact hkeep t b hb h ht hp
  induction l generalizing s with
  | nil => cases ha
  | cons b l ih =>
    have hb := hI s b List.mem_cons_self hs
    have hIl := fun t c hc => hI t c (List.mem_cons_of_mem b hc)
    have hkl := fun t c hc => hkeep t c (List.mem_cons_of_mem b hc)
    have hsl := fun t c hc => hstep t c (List.mem_cons_of_mem b hc)
    by_cases hal : a ∈ l
    · exact ih hal hIl hkl _ hb hsl
    · obtain rfl : a = b := (List.mem_cons.mp ha).resolve_right hal
      exact (List.foldlRecOn l f (motive := fun t => I t ∧ P t) ⟨hb, hset s hs⟩
        fun t ht c hc => ⟨hIl t c hc ht.1, hsl t c hc ht.1 ht.2⟩).2

/-- Fields of different registers written one after the other keep what each was given. -/
theorem get_foldl_put {α : Type} (F : α → Fref) (x : α → Nat) (l : List α) {a : α} (ha : a ∈ l)
    (hF : ∀ b ∈ l, b ≠ a → (F b).off ≠ (F a).off) (hw : (F a).lo + (F a).w ≤ 64) (hx : x a < 2 ^ (F a).w) (s : State) :
    (l.foldl (fun s b => s.put (F b) (x b)) s).get (F a) = x a :=
  foldl_establishes (fun _ => True) (fun t => t.get (F a) = x a) (fun t b => t.put (F b) (x b)) a l ha (fun _ _ _ _ => trivial)
    (fun t _ => get_put_fits t (F a) (x a) hw hx)
    (fun t b hb hne _ ht => (get_put_ne t (F b) (F a) (x b) (hF b hb hne).symm).trans ht) s trivial

theorem reg_foldl_put {α : Type} (F : α → Fref) (x : α → Nat) (l : List α) {b : Nat} (h : ∀ a ∈ l, b ≠ (F a).off) (s : State) :
    (l.foldl (fun s a => s.put (F a) (x a)) s).reg b = s.reg b :=
  reg_foldl _ b l (fun t a ha => reg_put_ne t (F a) _ b (h a ha)) s

/-! ### The resources of an allotment (R388) -/

/-- A resource that VF Enable gives out: the word of a function's allotment that names its first one and their number, with the
places of these two fields; the register that holds FUNC of the first one, the distance to the next, and FUNC's place in it; and
how many there are. -/
structure Resource where
  word : Nat
  baseLo : Nat
  baseW : Nat
  cntLo : Nat
  cntW : Nat
  first : Nat
  stride : Nat
  funcLo : Nat
  limit : Nat

namespace Resource

def base (r : Resource) (v : Nat) : Fref := ⟨0xD01000 + 8 * r.word + 128 * v, r.baseLo, r.baseW⟩
def cnt (r : Resource) (v : Nat) : Fref := ⟨0xD01000 + 8 * r.word + 128 * v, r.cntLo, r.cntW⟩
def func (r : Resource) (q : Nat) : Fref := ⟨r.first + r.stride * q, r.funcLo, 5⟩

/-- An end of the registers that the largest values of both fields could name. -/
def last (r : Resource) : Nat := r.first + r.stride * (2 ^ r.baseW + 2 ^ r.cntW)

def queues : Resource := ⟨0, 0, 14, 14, 11, 0x180008, 32, 18, 16384⟩
def groups : Resource := ⟨0, 25, 10, 35, 11, 0x140008, 32, 24, 1024⟩
def semaphores : Resource := ⟨1, 0, 12, 12, 13, 0x160000, 8, 33, 4096⟩
def contexts : Resource := ⟨1, 25, 8, 33, 9, 0xB01000, 16, 0, 256⟩

/-- The resources with a field FUNC, in the order in which the device writes it. -/
def all : List Resource := [queues, groups, semaphores, contexts]

/-- FUNC stands in registers of its own below block VIRT, and the allotment before the status word. -/
theorem fits {r : Resource} (h : r ∈ all) : r.word ≤ 1 ∧ 0 < r.stride ∧ r.funcLo + 5 ≤ 64 ∧ r.last ≤ 0xD00000 := by
  revert r
  decide

/-- The registers of two resources do not mix. -/
theorem apart {r x : Resource} (hr : r ∈ all) (hx : x ∈ all) (hne : x ≠ r) : r.last ≤ x.first ∨ x.last ≤ r.first := by
  have hall : all.Pairwise (fun r x => r.last ≤ x.first ∨ x.last ≤ r.first) := by decide
  have hsymm : Std.Symm (fun r x : Resource => r.last ≤ x.first ∨ x.last ≤ r.first) := ⟨fun _ _ h => h.symm⟩
  exact hall.forall hr hx hne.symm

end Resource

/-- The allotment of a function: its resources with FUNC, then its vectors. -/
theorem allotment_eq (s : State) (v : Nat) :
    s.allotment v = Resource.all.map (fun r => (s.get (r.base v), s.get (r.cnt v), r.limit)) ++
      [(s.get (VIRT_FN_W2_VECBASE v), s.get (VIRT_FN_W2_VECCNT v), 2048)] := rfl

/-- The numbers of what a function is given of a resource. -/
def State.given (s : State) (v : Nat) (r : Resource) : List Nat := spanOf (s.get (r.base v)) (s.cnt (r.cnt v))

/-- FUNC of all that function `v` is given of a resource. -/
def State.giveResource (s : State) (v f : Nat) (r : Resource) : State :=
  (s.given v r).foldl (fun s q => s.put (r.func q) f) s

theorem giveFunc_eq (s : State) (v f : Nat) : s.giveFunc v f = Resource.all.foldl (fun s r => s.giveResource v f r) s := rfl

theorem mem_spanOf {a n q : Nat} : q ∈ spanOf a n ↔ a ≤ q ∧ q < a + n := by
  simp only [spanOf, List.mem_map, List.mem_range]
  exact ⟨fun ⟨k, hk, h⟩ => by omega, fun ⟨h, h'⟩ => ⟨q - a, by omega, by omega⟩⟩

theorem cnt_le (s : State) (f : Fref) : s.cnt f ≤ s.get f := by
  unfold State.cnt
  split_ifs
  · exact Nat.zero_le _
  · exact le_rfl

theorem func_off_ne {r : Resource} (h : r ∈ Resource.all) {q p : Nat} (hne : q ≠ p) : (r.func q).off ≠ (r.func p).off := by
  obtain ⟨-, hstride, -, -⟩ := Resource.fits h
  intro heq
  exact hne (Nat.eq_of_mul_eq_mul_left hstride (Nat.add_left_cancel heq))

/-- Whatever the fields of the allotment hold, FUNC of what they name lies among the resource's registers. -/
theorem func_bounds {s : State} {v q : Nat} {r : Resource} (h : r ∈ Resource.all) (hq : q ∈ s.given v r) :
    r.first ≤ (r.func q).off ∧ (r.func q).off < r.last := by
  obtain ⟨-, hstride, -, -⟩ := Resource.fits h
  have hbase : s.get (r.base v) < 2 ^ r.baseW := get_lt s (r.base v)
  have hcnt : s.get (r.cnt v) < 2 ^ r.cntW := get_lt s (r.cnt v)
  have hle := cnt_le s (r.cnt v)
  obtain ⟨-, hlt⟩ := mem_spanOf.mp hq
  exact ⟨Nat.le_add_right _ _, Nat.add_lt_add_left (Nat.mul_lt_mul_of_pos_left (by omega) hstride) _⟩

/-- Giving a resource changes registers of that resource only. -/
theorem reg_giveResource (s : State) (v f : Nat) {r : Resource} (hr : r ∈ Resource.all) {b : Nat}
    (h : b < r.first ∨ r.last ≤ b) : (s.giveResource v f r).reg b = s.reg b :=
  reg_foldl_put r.func (fun _ => f) _ (fun q hq => by
    obtain ⟨hlo, hhi⟩ := func_bounds hr hq
    omega) s

theorem reg_giveFunc (s : State) (v f : Nat) {b : Nat} (h : 0xD00000 ≤ b) : (s.giveFunc v f).reg b = s.reg b := by
  rw [giveFunc_eq]
  refine reg_foldl _ b _ (fun t r hr => reg_giveResource t v f hr (.inr ?_)) s
  obtain ⟨-, -, -, hlast⟩ := Resource.fits hr
  omega

/-- The registers of block VIRT are the same, but for what FN_INFO tells of the functions. -/
def SameFns (s t : State) : Prop := ∀ b, 0xD00000 ≤ b → (∀ f, b ≠ FN_INFO f) → t.reg b = s.reg b

theorem SameFns.refl (s : State) : SameFns s s := fun _ _ _ => rfl

theorem SameFns.trans {s t u : State} (h : SameFns s t) (k : SameFns t u) : SameFns s u :=
  fun b hlo hne => (k b hlo hne).trans (h b hlo hne)

/-- The allotments and status words of the functions, among them. -/
theorem SameFns.get {s t : State} (h : SameFns s t) {f : Fref} (hlo : 0xD01000 ≤ f.off) (hhi : f.off < 0xD02000) :
    t.get f = s.get f := get_of_reg (h f.off (by omega) fun g => by
  unfold FN_INFO
  omega)

theorem SameFns.given {s t : State} (h : SameFns s t) {v : Nat} (hv : v < 32) {r : Resource} (hr : r ∈ Resource.all) :
    t.given v r = s.given v r := by
  obtain ⟨hword, -, -, -⟩ := Resource.fits hr
  have herr : t.get (VIRT_FN_W5_CFG_ERR (((r.cnt v).off - VIRT_FN_W0 0) / 128)) =
      s.get (VIRT_FN_W5_CFG_ERR (((r.cnt v).off - VIRT_FN_W0 0) / 128)) := by
    refine h.get ?_ ?_ <;>
      · simp only [VIRT_FN_W5_CFG_ERR, VIRT_FN_W5, Resource.cnt, VIRT_FN_W0]
        omega
  unfold State.given State.cnt
  rw [herr, h.get (f := r.base v) (by simp only [Resource.base]; omega) (by simp only [Resource.base]; omega),
    h.get (f := r.cnt v) (by simp only [Resource.cnt]; omega) (by simp only [Resource.cnt]; omega)]

theorem sameFns_giveResource (s : State) (v f : Nat) {r : Resource} (hr : r ∈ Resource.all) : SameFns s (s.giveResource v f r) :=
  fun b hlo _ => by
    obtain ⟨-, -, -, hlast⟩ := Resource.fits hr
    exact reg_giveResource s v f hr (.inr (by omega))

/-- FUNC of what the function is given of a resource. -/
theorem get_giveFunc_of_mem (s : State) {v q : Nat} {r : Resource} (hr : r ∈ Resource.all) (hv : v < 32)
    (hq : q ∈ s.given v r) : (s.giveFunc v v).get (r.func q) = v := by
  rw [giveFunc_eq]
  obtain ⟨-, -, hw, -⟩ := Resource.fits hr
  obtain ⟨hlo, hhi⟩ := func_bounds hr hq
  refine foldl_establishes (SameFns s) (fun t => t.get (r.func q) = v) _ r Resource.all hr
    (fun t x hx ht => ht.trans (sameFns_giveResource t v v hx)) (fun t ht => ?_) (fun t x hx hne _ hp => ?_) s (.refl s)
  · exact get_foldl_put r.func (fun _ => v) (t.given v r) (by rwa [ht.given hv hr]) (fun p _ hp => func_off_ne hr hp) hw hv t
  · have hapart := Resource.apart hr hx hne
    exact (get_of_reg (reg_giveResource t v v hx (by omega))).trans hp

/-- FUNC of what the function is not given stays. -/
theorem get_giveFunc_of_not_mem (s : State) {v q : Nat} {r : Resource} (hr : r ∈ Resource.all) (hv : v < 32) {x : Nat}
    (hx : q ∈ s.given x r) (hq : q ∉ s.given v r) (f : Nat) : (s.giveFunc v f).get (r.func q) = s.get (r.func q) := by
  rw [giveFunc_eq]
  obtain ⟨hlo, hhi⟩ := func_bounds hr hx
  refine (List.foldlRecOn Resource.all _ (motive := fun t => SameFns s t ∧ t.get (r.func q) = s.get (r.func q))
    ⟨.refl s, rfl⟩ fun t ⟨hfns, hget⟩ y hy => ⟨hfns.trans (sameFns_giveResource t v f hy), ?_⟩).2
  by_cases hyr : y = r
  · subst hyr
    refine (get_of_reg (reg_foldl_put y.func (fun _ => f) _ (fun p hp => func_off_ne hr ?_) t)).trans hget
    rintro rfl
    exact hq (hfns.given hv hr ▸ hp)
  · have hapart := Resource.apart hr hy hyr
    exact (get_of_reg (reg_giveResource t v f hy (by omega))).trans hget

/-! ### FN_INFO -/

theorem reg_refreshInfo_ne (s : State) (f b : Nat) (h : b ≠ FN_INFO f) : (s.refreshInfo f).reg b = s.reg b := by
  have hputs := ((((onlyRegs_put s (FN_INFO_QCNT f) (s.cnt (VIRT_FN_W0_QCNT f))).trans
    (onlyRegs_put _ (FN_INFO_CQCNT f) (s.cnt (VIRT_FN_W0_CQCNT f)))).trans
    (onlyRegs_put _ (FN_INFO_CTXCNT f) (s.cnt (VIRT_FN_W1_CTXCNT f)))).trans
    (onlyRegs_put _ (FN_INFO_VECCNT f) (s.cnt (VIRT_FN_W2_VECCNT f)))).trans
    (onlyRegs_put _ (FN_INFO_SEMCNT f) (s.cnt (VIRT_FN_W1_SEMCNT f)))
  exact hputs.2 b (by
    simpa [FN_INFO_QCNT, FN_INFO_CQCNT, FN_INFO_CTXCNT, FN_INFO_VECCNT, FN_INFO_SEMCNT] using h)

theorem pcie_giveFunc (s : State) (v f : Nat) : (s.giveFunc v f).pcie = s.pcie := by
  rw [giveFunc_eq]
  exact foldl_keeps State.pcie _ (fun t r => foldl_keeps State.pcie _ (fun u q => put_pcie u _ _) _ t) _ s

theorem pcie_refreshInfo (s : State) (f : Nat) : (s.refreshInfo f).pcie = s.pcie := by
  unfold State.refreshInfo
  rw [put_pcie, put_pcie, put_pcie, put_pcie, put_pcie]

/-! ### VF Enable (R388) -/

/-- The VFs from 1 to NumVFs. -/
def vfsTo (num : Nat) : List Nat := (List.range (num + 1)).filter (· != 0)

theorem mem_vfsTo {num v : Nat} : v ∈ vfsTo num ↔ 0 < v ∧ v ≤ num := by
  simp only [vfsTo, List.mem_filter, List.mem_range, bne_iff_ne]
  omega

/-- Those that fail the check. -/
def State.badVfs (s : State) (num : Nat) : List Nat := (vfsTo num).filter (s.vfBad num)

theorem contains_badVfs (s : State) {num v : Nat} (hv : v ∈ vfsTo num) : (s.badVfs num).contains v = s.vfBad num v := by
  rw [Bool.eq_iff_iff, List.contains_iff_mem, State.badVfs, List.mem_filter]
  exact and_iff_right hv

/-- CFG_ERR of each VF as its check went. -/
def State.vfsChecked (s : State) (num : Nat) : State :=
  (vfsTo num).foldl (fun t v => t.put (VIRT_FN_W5_CFG_ERR v) (b2n ((s.badVfs num).contains v))) s

/-- VF Enable set, with NumVFs. -/
def State.vfsEnabled (s : State) (num : Nat) : State :=
  { (s.vfsChecked num).put VIRT_CFG_NUM_VF num with pcie := { s.pcie with vfEnable := true, numVf := num } }

/-- One VF is given its allotment, unless it failed. -/
def State.giveVf (bad : List Nat) (s : State) (v : Nat) : State := (if bad.contains v then s else s.giveFunc v v).refreshInfo v

def State.vfsGiven (s : State) (num : Nat) : State := (vfsTo num).foldl (State.giveVf (s.badVfs num)) (s.vfsEnabled num)

/-- What VF Enable leaves: a failed check sends the PF's event. -/
def State.vfsReported (s : State) (num : Nat) : State :=
  if (s.badVfs num).isEmpty then s.vfsGiven num else (s.vfsGiven num).pfEvt

/-- No VF, or more than 31: ignored (log 30). -/
theorem exec_vfEnable_ignored {num : Nat} {s : State} (h : 31 < num ∨ num = 0) (hv : s.pcie.vfEnable = false) :
    exec (.vfEnable num) s = .next s := by
  refine congrArg Host.Outcome.next ?_
  rcases h with h | rfl
  · exact if_pos (by simp [h])
  · by_cases hshut : (s.dead || !s.pcie.linkUp || decide (31 < 0)) = true
    · exact if_pos hshut
    · exact (if_neg hshut).trans ((if_neg (by simp [hv])).trans (if_pos (by simp)))

theorem exec_vfEnable {num : Nat} {s : State} (hn : num ≤ 31) (h0 : 0 < num) (hd : s.dead = false)
    (hl : s.pcie.linkUp = true) (hv : s.pcie.vfEnable = false) (hg : s.flrGone = []) :
    exec (.vfEnable num) s = .next (s.vfsReported num) := by
  have hpcie : (s.vfsChecked num).pcie = s.pcie := foldl_keeps State.pcie _ (fun u v => put_pcie u _ _) _ s
  have hopen : (s.dead || !s.pcie.linkUp || decide (31 < num)) = false := by simp [hd, hl, hn]
  have hcan : (decide (num = 0) || !s.flrGone.isEmpty) = false := by simp [hg, h0.ne']
  refine congrArg Host.Outcome.next ((if_neg (by simp [hopen])).trans ((if_neg (by simp [hv])).trans
    ((if_neg (by simp [hcan])).trans ?_)))
  unfold State.vfsReported State.vfsGiven State.vfsEnabled
  rw [← hpcie]
  rfl

theorem reg_vfsChecked_ne (s : State) (num : Nat) {b : Nat} (h : ∀ v, b ≠ VIRT_FN_W5 v) : (s.vfsChecked num).reg b = s.reg b :=
  reg_foldl_put VIRT_FN_W5_CFG_ERR _ _ (fun v _ => h v) s

theorem get_cfgErr_vfsChecked (s : State) {num v : Nat} (hv : v ∈ vfsTo num) :
    (s.vfsChecked num).get (VIRT_FN_W5_CFG_ERR v) = if s.vfBad num v then 1 else 0 := by
  refine (get_foldl_put VIRT_FN_W5_CFG_ERR (fun v => b2n ((s.badVfs num).contains v)) _ hv (fun x _ hne => ?_)
    (by simp [VIRT_FN_W5_CFG_ERR]) ?_ s).trans (congrArg b2n (contains_badVfs s hv))
  · simp only [VIRT_FN_W5_CFG_ERR, VIRT_FN_W5]
    omega
  · cases (s.badVfs num).contains v <;> simp [b2n, VIRT_FN_W5_CFG_ERR]

theorem reg_vfsEnabled_ne (s : State) (num : Nat) {b : Nat} (h : b ≠ VIRT_CFG) :
    (s.vfsEnabled num).reg b = (s.vfsChecked num).reg b := reg_put_ne _ VIRT_CFG_NUM_VF num b h

theorem get_cfgErr_vfsEnabled (s : State) {num v : Nat} (hv : v ∈ vfsTo num) :
    (s.vfsEnabled num).get (VIRT_FN_W5_CFG_ERR v) = if s.vfBad num v then 1 else 0 :=
  (get_of_reg (reg_vfsEnabled_ne s num (by
    simp only [VIRT_FN_W5_CFG_ERR, VIRT_FN_W5, VIRT_CFG]
    omega))).trans (get_cfgErr_vfsChecked s hv)

/-- A VF that passed its check is given its whole allotment. -/
theorem given_vfsEnabled (s : State) {num v : Nat} (hv : v ∈ vfsTo num) (hok : s.vfBad num v = false) {r : Resource}
    (hr : r ∈ Resource.all) : (s.vfsEnabled num).given v r = spanOf (s.get (r.base v)) (s.get (r.cnt v)) := by
  obtain ⟨hword, -, -, -⟩ := Resource.fits hr
  have hkeep : ∀ f : Fref, f.off = 0xD01000 + 8 * r.word + 128 * v → (s.vfsEnabled num).get f = s.get f := fun f hf =>
    get_of_reg ((reg_vfsEnabled_ne s num (by unfold VIRT_CFG; omega)).trans (reg_vfsChecked_ne s num fun x => by
      unfold VIRT_FN_W5
      omega))
  have hidx : ((r.cnt v).off - VIRT_FN_W0 0) / 128 = v := by
    simp only [Resource.cnt, VIRT_FN_W0]
    omega
  have herr : (s.vfsEnabled num).get (VIRT_FN_W5_CFG_ERR v) = 0 := (get_cfgErr_vfsEnabled s hv).trans (if_neg (by simp [hok]))
  have hcnt : (s.vfsEnabled num).cnt (r.cnt v) = s.get (r.cnt v) := by
    unfold State.cnt
    rw [hidx, herr, hkeep _ rfl]
    exact if_neg (by decide)
  rw [State.given, hcnt, hkeep _ rfl]

/-- VFs that pass the check share nothing. -/
theorem spans_disjoint {s : State} {num v x : Nat} (hok : s.vfBad num v = false) (hx : x ∈ vfsTo num) (hne : x ≠ v)
    {r : Resource} (hr : r ∈ Resource.all) {q : Nat} (hq : q ∈ spanOf (s.get (r.base v)) (s.get (r.cnt v))) :
    q ∉ spanOf (s.get (r.base x)) (s.get (r.cnt x)) := by
  intro hqx
  obtain ⟨hlo, hhi⟩ := mem_spanOf.mp hq
  obtain ⟨hxlo, hxhi⟩ := mem_spanOf.mp hqx
  obtain ⟨hpos, hle⟩ := mem_vfsTo.mp hx
  have hpair : ((s.get (r.base v), s.get (r.cnt v), r.limit), (s.get (r.base x), s.get (r.cnt x), r.limit)) ∈
      (s.allotment v).zip (s.allotment x) := by
    rw [allotment_eq, allotment_eq, List.zip_append (by simp), List.zip_map']
    exact List.mem_append_left _ (List.mem_map.mpr ⟨r, hr, rfl⟩)
  have hmeet : rangesMeet (s.get (r.base v)) (s.get (r.cnt v)) (s.get (r.base x)) (s.get (r.cnt x)) = true := by
    simp only [rangesMeet, Bool.and_eq_true, decide_eq_true_eq]
    omega
  have hany : (List.range (num + 1)).any (fun x => x != 0 && x != v &&
      ((s.allotment v).zip (s.allotment x)).any (fun p => rangesMeet p.1.1 p.1.2.1 p.2.1 p.2.2.1)) = true := by
    refine List.any_eq_true.mpr ⟨x, List.mem_range.mpr (by omega), ?_⟩
    simp only [Bool.and_eq_true, bne_iff_ne, List.any_eq_true]
    exact ⟨⟨by omega, hne⟩, _, hpair, hmeet⟩
  simp only [State.vfBad, hany, Bool.or_true, Bool.true_or, Bool.true_eq_false] at hok

theorem sameFns_giveVf (bad : List Nat) (s : State) (v : Nat) : SameFns s (s.giveVf bad v) := fun b hlo hne => by
  refine (reg_refreshInfo_ne _ v b (hne v)).trans ?_
  split_ifs
  · rfl
  · exact reg_giveFunc s v v hlo

theorem sameFns_vfsGiven (s : State) (num : Nat) : SameFns (s.vfsEnabled num) (s.vfsGiven num) :=
  List.foldlRecOn (vfsTo num) (State.giveVf (s.badVfs num)) (motive := SameFns (s.vfsEnabled num)) (.refl _)
    fun t ht v _ => ht.trans (sameFns_giveVf (s.badVfs num) t v)

theorem pcie_vfsGiven (s : State) (num : Nat) : (s.vfsGiven num).pcie = (s.vfsEnabled num).pcie :=
  foldl_keeps State.pcie _ (fun t v => (pcie_refreshInfo _ v).trans (by
    split_ifs
    · rfl
    · exact pcie_giveFunc t v v)) _ _

/-- Where no check fails, FUNC of all that a VF is allotted names it. -/
theorem get_func_vfsGiven {s : State} {num v q : Nat} (hn : num ≤ 31) (hok : ∀ x ∈ vfsTo num, s.vfBad num x = false)
    (hv : v ∈ vfsTo num) {r : Resource} (hr : r ∈ Resource.all) (hq : q ∈ spanOf (s.get (r.base v)) (s.get (r.cnt v))) :
    (s.vfsGiven num).get (r.func q) = v := by
  have hlt : ∀ x ∈ vfsTo num, x < 32 := fun x hx => by
    obtain ⟨-, hle⟩ := mem_vfsTo.mp hx
    omega
  have hgiven : ∀ t, SameFns (s.vfsEnabled num) t → ∀ x ∈ vfsTo num,
      t.given x r = spanOf (s.get (r.base x)) (s.get (r.cnt x)) := fun t ht x hx =>
    (ht.given (hlt x hx) hr).trans (given_vfsEnabled s hx (hok x hx) hr)
  have hgive : ∀ t, SameFns (s.vfsEnabled num) t → ∀ x ∈ vfsTo num,
      (t.giveVf (s.badVfs num) x).get (r.func q) = (t.giveFunc x x).get (r.func q) := fun t ht x hx => by
    obtain ⟨-, -, -, hlast⟩ := Resource.fits hr
    obtain ⟨-, hbelow⟩ := func_bounds hr ((hgiven t ht v hv).symm ▸ hq)
    unfold State.giveVf
    rw [contains_badVfs s hx, hok x hx, if_neg Bool.false_ne_true]
    exact get_of_reg (reg_refreshInfo_ne _ x _ (by
      unfold FN_INFO
      omega))
  refine foldl_establishes (SameFns (s.vfsEnabled num)) (fun t => t.get (r.func q) = v) _ v (vfsTo num) hv
    (fun t x _ ht => ht.trans (sameFns_giveVf (s.badVfs num) t x)) (fun t ht => (hgive t ht v hv).trans ?_)
    (fun t x hx hne ht hp => ((hgive t ht x hx).trans ?_).trans hp) _ (.refl _)
  · exact get_giveFunc_of_mem t hr (hlt v hv) (by rwa [hgiven t ht v hv])
  · exact get_giveFunc_of_not_mem t hr (hlt x hx) (x := v) (by rwa [hgiven t ht v hv])
      (by rw [hgiven t ht x hx]; exact spans_disjoint (hok v hv) hx hne hr hq) x

/-- Of the PCIe configuration a message changes the pending bits only. -/
theorem pcie_pfEvt (s : State) : s.pfEvt.pcie = { s.pcie with pendingBits := s.pfEvt.pcie.pendingBits } := by
  unfold State.pfEvt State.pfIrq State.msix
  split_ifs <;> rfl

/-- The PF's event leaves the registers and VF Enable as they were given. -/
theorem vfsReported_keeps (s : State) (num : Nat) :
    (∀ f, (s.vfsReported num).get f = (s.vfsGiven num).get f) ∧
    (s.vfsReported num).pcie.vfEnable = true ∧ (s.vfsReported num).pcie.numVf = num := by
  have hpcie := pcie_vfsGiven s num
  unfold State.vfsReported
  split_ifs
  · rw [hpcie]
    exact ⟨fun _ => rfl, rfl, rfl⟩
  · rw [pcie_pfEvt, hpcie]
    exact ⟨fun f => get_pfIrq _ _ _ f, rfl, rfl⟩

/-- Settles O28: VF Enable is a fold over the VFs whose steps do not touch each other's resources, since the check refused ranges
that meet; SWAP and its end act on ACTIVE, SWAP_BUSY and the lines of the old bitmap. -/
theorem vfEnableAndDirtyBitmaps : Obligations.VfEnableAndDirtyBitmaps := by
  refine ⟨fun num s hd hl hv hg => ⟨fun hnum => exec_vfEnable_ignored hnum hv, fun hn h0 => ?_⟩, fun rq fn s _ hopen hfields =>
    ⟨fun hbusy => ?_, fun hfree => ⟨exec_swapDone_free hfree, ?_⟩, fun hbusy => ?_⟩⟩
  · obtain ⟨hget, hen, hnum⟩ := vfsReported_keeps s num
    have hsame := sameFns_vfsGiven s num
    refine ⟨exec_vfEnable hn h0 hd hl hv hg, hen, hnum, (hget _).trans ?_, fun v hv0 hvn => (hget _).trans ?_,
      fun hok v hv0 hvn => ?_⟩
    · refine (get_of_reg (hsame VIRT_CFG (by decide) fun f => ?_)).trans
        (get_put_fits _ VIRT_CFG_NUM_VF num (by decide) (show num < 32 by omega))
      unfold VIRT_CFG FN_INFO
      omega
    · refine (hsame.get ?_ ?_).trans (get_cfgErr_vfsEnabled s (mem_vfsTo.mpr ⟨hv0, hvn⟩)) <;>
        · simp only [VIRT_FN_W5_CFG_ERR, VIRT_FN_W5]
          omega
    · have hfunc : ∀ r ∈ Resource.all, ∀ k, k < s.get (r.cnt v) →
          (s.vfsReported num).get (r.func (s.get (r.base v) + k)) = v := fun r hr k hk =>
        (hget _).trans (get_func_vfsGiven hn (fun x hx => hok x (mem_vfsTo.mp hx).1 (mem_vfsTo.mp hx).2)
          (mem_vfsTo.mpr ⟨hv0, hvn⟩) hr (mem_spanOf.mpr ⟨by omega, by omega⟩))
      obtain ⟨hqueues, hgroups, hsems, hctxs⟩ : .queues ∈ Resource.all ∧ .groups ∈ Resource.all ∧ .semaphores ∈ Resource.all ∧
          .contexts ∈ Resource.all := by simp [Resource.all]
      exact ⟨hfunc _ hqueues, hfunc _ hgroups, hfunc _ hsems, hfunc _ hctxs⟩
  · rw [exec_dirtySwap hopen hfields, swapBitmap_busy hbusy]
  · have heffect := swapBitmap_effect hfree
    rw [swapBitmap_free hfree] at heffect
    exact ⟨(exec_dirtySwap hopen hfields).trans (congrArg Host.Outcome.next (swapBitmap_free hfree)), heffect⟩
  · have hactive := get_active_bitmapFlushed s fn
    have hdirty := fun l => mem_dirty_bitmapFlushed (s := s) (f := fn) (l := l)
    obtain ⟨hdone, hkeep, -⟩ := get_put_swapBusy (s.bitmapFlushed fn) fn (n := 0) (by decide)
    refine ⟨exec_swapDone_busy hbusy, hdone, ?_, fun l hl hfn => ?_, fun l hl hfn => ?_, ?_⟩
    · exact hkeep.trans hactive
    · exact ((hdirty l).mp hl).2 hfn
    · exact (hdirty l).mpr ⟨hl, fun h => absurd h hfn⟩
    · exact host_bitmapFlushed s fn

end Sys2Proof.Machine
end

section
/-!
SUPPORT. What a safety event records, and how FAULT and SAFE_REQ_N follow it (R427 to R430); the safety watchdog, a clear of SAF_EVT
and the status target, with the obligation on them (R409, R432, R433).
-/

namespace Sys2Proof.Machine

/-! ### What a safety event leaves and changes (R427 to R430) -/

theorem out_startDump (s : State) (c i d : Nat) : (s.startDump c i d).out = s.out := by
  unfold State.startDump
  split_ifs <;> rfl

/-- The fields of an event in a pair of log registers (R428). -/
def State.logEvent (s : State) (l0 l1 code isl detail : Nat) (inj : Bool) : State :=
  ((((s.put ⟨l0, 0, 5⟩ code).put ⟨l0, 5, 1⟩ (b2n inj)).put ⟨l0, 6, 6⟩ isl).put ⟨l0, 32, 32⟩ detail).put ⟨l1, 0, 64⟩ s.beacon

/-- The event counted, marked in PEND and logged. -/
def State.noteEvent (s : State) (code react isl detail : Nat) (inj : Bool) : State :=
  let u := s.emitPlain 36 0x0F code detail
  let v := (u.bump (SAF_CNT_COUNT code) 1).put ⟨SAF_EVT, code, 1⟩ 1
  if u.logWins code react then v.logEvent SAF_EVT_LOG0 SAF_EVT_LOG1 code isl detail inj else v

/-- FAULT latched, with the event in the log of the first fault. -/
def State.markFault (s : State) (code isl detail : Nat) (inj : Bool) : State :=
  (if s.flag SAF_STATUS_FAULT then s else s.logEvent SAF_FIRST_LOG0 SAF_FIRST_LOG1 code isl detail inj).put SAF_STATUS_FAULT 1

/-- FAULT_N follows FAULT, and a dump where one is asked for. -/
def State.latchFault (s : State) (code isl detail : Nat) (inj : Bool) : State :=
  let u := s.markFault code isl detail inj
  let v : State := { u with out := { u.out with faultN := false } }
  if v.flag DBG_HANG_CFG_DUMP_ON_FAULT then v.startDump 3 63 0 else v

theorem safetyReact_eq (s : State) (code react isl detail : Nat) (inj : Bool) :
    s.safetyReact code react isl detail inj =
      (let u := s.noteEvent code react isl detail inj
       let v := if react ≥ 1 then u.pfIrq SAF_IRQ_VECTOR SAF_IRQ_EN else u
       if react ≥ 3 then v.latchFault code isl detail inj else v).refreshSafe := rfl

theorem reg_logEvent_ne (s : State) {l0 l1 b : Nat} (code isl detail : Nat) (inj : Bool) (h0 : b ≠ l0) (h1 : b ≠ l1) :
    (s.logEvent l0 l1 code isl detail inj).reg b = s.reg b := by
  have hfirst (u : State) (lo w n : Nat) : (u.put ⟨l0, lo, w⟩ n).reg b = u.reg b := reg_put_ne u _ n b h0
  exact (reg_put_ne _ ⟨l1, 0, 64⟩ _ b h1).trans (by rw [hfirst, hfirst, hfirst, hfirst])

theorem reg_noteEvent_ne (s : State) {code b : Nat} (react isl detail : Nat) (inj : Bool) (hd : notDbg b)
    (hb : b ∉ [SAF_CNT code, SAF_EVT, SAF_EVT_LOG0, SAF_EVT_LOG1]) :
    (s.noteEvent code react isl detail inj).reg b = s.reg b := by
  simp only [List.mem_cons, List.not_mem_nil, or_false, not_or] at hb
  obtain ⟨hcnt, hevt, h0, h1⟩ := hb
  simp only [State.noteEvent, apply_ite (fun u : State => u.reg b), reg_logEvent_ne _ _ _ _ _ h0 h1, ite_self]
  rw [reg_put_ne _ _ _ _ hevt, reg_bump_ne _ _ _ _ hcnt, reg_emitPlain _ _ _ _ _ _ hd]

theorem reg_markFault_ne (s : State) {b : Nat} (code isl detail : Nat) (inj : Bool)
    (hb : b ∉ [SAF_STATUS, SAF_FIRST_LOG0, SAF_FIRST_LOG1]) : (s.markFault code isl detail inj).reg b = s.reg b := by
  simp only [List.mem_cons, List.not_mem_nil, or_false, not_or] at hb
  obtain ⟨hst, h0, h1⟩ := hb
  refine (reg_put_ne _ SAF_STATUS_FAULT 1 b hst).trans ?_
  split_ifs
  · rfl
  · exact reg_logEvent_ne s code isl detail inj h0 h1

theorem out_markFault (s : State) (code isl detail : Nat) (inj : Bool) : (s.markFault code isl detail inj).out = s.out := by
  unfold State.markFault
  rw [put_out]
  split_ifs
  · rfl
  · unfold State.logEvent
    rw [put_out, put_out, put_out, put_out, put_out]

/-- Beyond FAULT and the log, FAULT_N alone and the dump's registers follow. -/
theorem reg_latchFault (s : State) {b : Nat} (code isl detail : Nat) (inj : Bool) (hd : notDbg b) :
    (s.latchFault code isl detail inj).reg b = (s.markFault code isl detail inj).reg b := by
  simp only [State.latchFault, apply_ite (fun u : State => u.reg b), reg_startDump _ _ _ _ _ hd, ite_self]
  exact reg_of_regs rfl b

theorem out_latchFault (s : State) (code isl detail : Nat) (inj : Bool) :
    (s.latchFault code isl detail inj).out = { s.out with faultN := false } := by
  rw [← out_markFault s code isl detail inj]
  simp only [State.latchFault, apply_ite State.out, out_startDump, ite_self]

theorem reg_refreshSafe_ne (s : State) {b : Nat} (h : b ≠ SAF_STATUS) : s.refreshSafe.reg b = s.reg b :=
  reg_put_ne s SAF_STATUS_SAFE_REQ _ b h

/-- The registers that a safety event may change, besides those of block DBG. -/
def safetyRegs (code : Nat) : List Nat :=
  [SAF_CNT code, SAF_EVT, SAF_EVT_LOG0, SAF_EVT_LOG1, SAF_STATUS, SAF_FIRST_LOG0, SAF_FIRST_LOG1]

theorem reg_safety_ne (s : State) {code b : Nat} (isl detail : Nat) (inj : Bool) (hd : notDbg b) (hb : b ∉ safetyRegs code) :
    (s.safety code isl detail inj).reg b = s.reg b := by
  have hnote : b ∉ [SAF_CNT code, SAF_EVT, SAF_EVT_LOG0, SAF_EVT_LOG1] := fun h => hb (by
    simp only [safetyRegs, List.mem_cons, List.not_mem_nil] at h ⊢
    tauto)
  have hfault : b ∉ [SAF_STATUS, SAF_FIRST_LOG0, SAF_FIRST_LOG1] := fun h => hb (by
    simp only [safetyRegs, List.mem_cons, List.not_mem_nil] at h ⊢
    tauto)
  have hst : b ≠ SAF_STATUS := fun h => hfault (h ▸ List.mem_cons_self)
  simp only [State.safety, safetyReact_eq, reg_refreshSafe_ne _ hst, apply_ite (fun u : State => u.reg b),
    reg_latchFault _ _ _ _ _ hd, reg_markFault_ne _ _ _ _ _ hfault, reg_pfIrq, reg_noteEvent_ne _ _ _ _ _ hd hnote, ite_self]

/-! ### SAFE_REQ_N and the status register (R430) -/

/-- Is a reaction of SAFE_REQ or more pending, or FAULT_N low? -/
def State.safeNeeded (s : State) : Prop :=
  s.flag SAF_STATUS_SAFETY_READY = true ∧
    (s.out.faultN = false ∨ ∃ b, b < 18 ∧ bitOf (s.get SAF_EVT_PEND) b = true ∧ 2 ≤ s.reactionNow b)

theorem safeReqN_refreshSafe (s : State) : s.refreshSafe.out.safeReqN = false ↔ s.safeNeeded := by
  show (!(s.flag SAF_STATUS_SAFETY_READY && ((List.range 18).any (fun n => bitOf (s.get SAF_EVT_PEND) n &&
    decide (2 ≤ s.reactionNow n)) || !s.out.faultN))) = false ↔ _
  unfold State.safeNeeded
  simp only [Bool.not_eq_false', Bool.and_eq_true, Bool.or_eq_true, List.any_eq_true, List.mem_range, decide_eq_true_eq,
    Bool.not_eq_true', or_comm]

theorem safeReq_refreshSafe (s : State) :
    s.refreshSafe.get SAF_STATUS_SAFE_REQ = b2n (!s.refreshSafe.out.safeReqN) := by
  show (s.put SAF_STATUS_SAFE_REQ (b2n _)).get SAF_STATUS_SAFE_REQ = b2n (!!_)
  rw [Bool.not_not]
  refine get_put_fits s SAF_STATUS_SAFE_REQ _ (by decide) ?_
  unfold b2n
  split_ifs <;> decide

/-- The other fields of the status register. -/
theorem get_refreshSafe (s : State) {f : Fref} (h : f.lo + f.w ≤ 2 ∨ 3 ≤ f.lo) : s.refreshSafe.get f = s.get f :=
  get_put_disjoint s SAF_STATUS_SAFE_REQ f _ (by decide) h

/-! ### FAULT and the event of the first fault (R428, R429) -/

theorem get_logEvent (s : State) {l0 l1 : Nat} (code isl detail : Nat) (inj : Bool) (h : l1 ≠ l0) :
    (s.logEvent l0 l1 code isl detail inj).get ⟨l0, 0, 5⟩ = code % 32 ∧
    (s.logEvent l0 l1 code isl detail inj).get ⟨l0, 6, 6⟩ = isl % 64 := by
  have hkeep (u : State) (lo w n lo' w' : Nat) (hw : lo' + w' ≤ 64) (hd : lo + w ≤ lo' ∨ lo' + w' ≤ lo) :
      (u.put ⟨l0, lo', w'⟩ n).get ⟨l0, lo, w⟩ = u.get ⟨l0, lo, w⟩ := get_put_disjoint u ⟨l0, lo', w'⟩ ⟨l0, lo, w⟩ n hw hd
  have hset (u : State) (lo w n : Nat) (hw : lo + w ≤ 64) : (u.put ⟨l0, lo, w⟩ n).get ⟨l0, lo, w⟩ = n % 2 ^ w :=
    get_put u ⟨l0, lo, w⟩ n hw
  unfold State.logEvent
  rw [get_put_ne _ ⟨l1, 0, 64⟩ ⟨l0, 0, 5⟩ _ h.symm, get_put_ne _ ⟨l1, 0, 64⟩ ⟨l0, 6, 6⟩ _ h.symm]
  simp (disch := decide) only [hkeep, hset]
  exact ⟨rfl, rfl⟩

theorem get_fault_markFault (s : State) (code isl detail : Nat) (inj : Bool) :
    (s.markFault code isl detail inj).get SAF_STATUS_FAULT = 1 := get_put_fits _ SAF_STATUS_FAULT 1 (by decide) (by decide)

theorem get_ready_markFault (s : State) (code isl detail : Nat) (inj : Bool) :
    (s.markFault code isl detail inj).get SAF_STATUS_SAFETY_READY = s.get SAF_STATUS_SAFETY_READY := by
  refine (get_put_disjoint _ SAF_STATUS_FAULT SAF_STATUS_SAFETY_READY 1 (by decide) (by decide)).trans ?_
  split_ifs
  · rfl
  · exact get_of_reg (reg_logEvent_ne s code isl detail inj (by decide) (by decide))

theorem first_markFault {s : State} (h : s.flag SAF_STATUS_FAULT = false) (code isl detail : Nat) (inj : Bool) :
    (s.markFault code isl detail inj).get SAF_FIRST_LOG0_CODE = code % 32 ∧
    (s.markFault code isl detail inj).get SAF_FIRST_LOG0_ISLAND = isl % 64 := by
  have hkeep (f : Fref) (hf : f.off = SAF_FIRST_LOG0) : (s.markFault code isl detail inj).get f =
      (s.logEvent SAF_FIRST_LOG0 SAF_FIRST_LOG1 code isl detail inj).get f := by
    unfold State.markFault
    rw [h, if_neg Bool.false_ne_true]
    exact get_put_ne _ SAF_STATUS_FAULT f 1 (by rw [hf]; decide)
  obtain ⟨hcode, hisl⟩ := get_logEvent (l0 := SAF_FIRST_LOG0) (l1 := SAF_FIRST_LOG1) s code isl detail inj (by decide)
  exact ⟨(hkeep _ rfl).trans hcode, (hkeep _ rfl).trans hisl⟩

/-! ### The event's count and PEND bit (R428) -/

theorem noteEvent_marks (s : State) {code : Nat} (react isl detail : Nat) (inj : Bool) (h : code < 18) :
    (s.noteEvent code react isl detail inj).get (SAF_CNT_COUNT code) = min (s.get (SAF_CNT_COUNT code) + 1) 0xFFFFFFFF ∧
    (s.noteEvent code react isl detail inj).get ⟨SAF_EVT, code, 1⟩ = 1 := by
  have hlog (f : Fref) (h0 : f.off ≠ SAF_EVT_LOG0) (h1 : f.off ≠ SAF_EVT_LOG1) : (s.noteEvent code react isl detail inj).get f =
      (((s.emitPlain 36 0x0F code detail).bump (SAF_CNT_COUNT code) 1).put ⟨SAF_EVT, code, 1⟩ 1).get f := by
    simp only [State.noteEvent, apply_ite (fun u : State => u.get f), get_of_reg (reg_logEvent_ne _ _ _ _ _ h0 h1), ite_self]
  have hcnt : SAF_CNT code ≠ SAF_EVT ∧ SAF_CNT code ≠ SAF_EVT_LOG0 ∧ SAF_CNT code ≠ SAF_EVT_LOG1 ∧ notDbg (SAF_CNT code) := by
    simp only [SAF_CNT, SAF_EVT, SAF_EVT_LOG0, SAF_EVT_LOG1, notDbg]
    omega
  obtain ⟨hevt, h0, h1, hdbg⟩ := hcnt
  refine ⟨?_, ?_⟩
  · rw [hlog _ h0 h1, get_put_ne _ _ _ _ hevt]
    exact (get_bump_one _ (SAF_CNT code)).trans (by rw [get_of_reg (reg_emitPlain s 36 0x0F code detail _ hdbg)]; rfl)
  · rw [hlog _ (by show SAF_EVT ≠ _; decide) (by show SAF_EVT ≠ _; decide)]
    exact get_put_fits _ ⟨SAF_EVT, code, 1⟩ 1 (by show code + 1 ≤ 64; omega) (by norm_num)

theorem bitOf_get_bit (s : State) {off w b : Nat} (h : b < w) : bitOf (s.get ⟨off, 0, w⟩) b = (s.get ⟨off, b, 1⟩ == 1) := by
  show bitOf ((s.reg off).toNat / 2 ^ 0 % 2 ^ w) b = bitOf (s.reg off).toNat b
  rw [pow_zero, Nat.div_one, bitOf_eq_testBit, bitOf_eq_testBit, Nat.testBit_mod_two_pow, decide_eq_true h, Bool.true_and]

/-- A register of block SAF outside the first fault's and the status register keeps what the event noted. -/
theorem get_safety_noted (s : State) {code : Nat} (isl detail : Nat) (inj : Bool) (f : Fref) (hd : notDbg f.off)
    (h : f.off ∉ [SAF_STATUS, SAF_FIRST_LOG0, SAF_FIRST_LOG1]) :
    (s.safety code isl detail inj).get f = (s.noteEvent code (s.reaction code) isl detail inj).get f := by
  refine get_of_reg ?_
  have hst : f.off ≠ SAF_STATUS := fun hf => h (hf ▸ List.mem_cons_self)
  simp only [State.safety, safetyReact_eq, reg_refreshSafe_ne _ hst, apply_ite (fun u : State => u.reg f.off),
    reg_latchFault _ _ _ _ _ hd, reg_markFault_ne _ _ _ _ _ h, reg_pfIrq, ite_self]

/-- A safety event is counted and pending (R428). -/
theorem safety_counted (s : State) {code : Nat} (isl detail : Nat) (inj : Bool) (h : code < 18) :
    (s.safety code isl detail inj).get (SAF_CNT_COUNT code) = min (s.get (SAF_CNT_COUNT code) + 1) 0xFFFFFFFF ∧
    bitOf ((s.safety code isl detail inj).get SAF_EVT_PEND) code = true := by
  obtain ⟨hcount, hpend⟩ := noteEvent_marks s (s.reaction code) isl detail inj h
  refine ⟨(get_safety_noted s isl detail inj (SAF_CNT_COUNT code) ?_ ?_).trans hcount, ?_⟩
  · simp only [SAF_CNT_COUNT, SAF_CNT, notDbg]
    omega
  · simp only [SAF_CNT_COUNT, SAF_CNT, SAF_STATUS, SAF_FIRST_LOG0, SAF_FIRST_LOG1, List.mem_cons, List.not_mem_nil, or_false]
    omega
  · have hbit := get_safety_noted s (code := code) isl detail inj ⟨SAF_EVT, code, 1⟩ (.inl (by show SAF_EVT < _; decide))
      (by show SAF_EVT ∉ _; decide)
    exact (bitOf_get_bit _ h).trans (beq_iff_eq.mpr (hbit.trans hpend))

/-- An event whose reaction is FAULT latches FAULT and drives both pins low; the first one stays in its log (R427 to R430). -/
theorem safety_fault {s : State} {code : Nat} (isl detail : Nat) (inj : Bool) (hr : s.reaction code = 3)
    (hready : s.flag SAF_STATUS_SAFETY_READY = true) :
    let t := s.safety code isl detail inj
    t.get SAF_STATUS_FAULT = 1 ∧ t.out.faultN = false ∧ t.out.safeReqN = false ∧ t.get SAF_STATUS_SAFE_REQ = 1 ∧
      (s.flag SAF_STATUS_FAULT = false → t.get SAF_FIRST_LOG0_CODE = code % 32 ∧ t.get SAF_FIRST_LOG0_ISLAND = isl % 64) := by
  intro t
  obtain ⟨u, hu⟩ : ∃ u, u = (s.noteEvent code 3 isl detail inj).pfIrq SAF_IRQ_VECTOR SAF_IRQ_EN := ⟨_, rfl⟩
  have ht : t = (u.latchFault code isl detail inj).refreshSafe := by
    show s.safety code isl detail inj = _
    rw [hu, State.safety, hr, safetyReact_eq]
    rfl
  have hmark (f : Fref) (hf : notDbg f.off) := get_of_reg (reg_latchFault u code isl detail inj hf)
  have hout := out_latchFault u code isl detail inj
  have hcnt : SAF_CNT code ≠ SAF_STATUS := by
    simp only [SAF_CNT, SAF_STATUS]
    omega
  have hstatus (f : Fref) (hf : f.off = SAF_STATUS) : u.get f = s.get f := by
    rw [hu, get_pfIrq]
    refine get_of_reg (reg_noteEvent_ne s 3 isl detail inj (hf ▸ .inl (by decide)) ?_)
    simp only [hf, List.mem_cons, List.not_mem_nil, or_false, not_or]
    exact ⟨hcnt.symm, by decide, by decide, by decide⟩
  have hfault : t.out.faultN = false := by rw [ht]; exact congrArg Outputs.faultN hout
  have hsafe : t.out.safeReqN = false := by
    rw [ht]
    refine (safeReqN_refreshSafe _).mpr ⟨?_, .inl (congrArg Outputs.faultN hout)⟩
    have hkept := (get_ready_markFault u code isl detail inj).trans (hstatus _ rfl)
    exact (congrArg (· == 1) ((hmark _ (.inl (by decide))).trans hkept)).trans hready
  refine ⟨?_, hfault, hsafe, ?_, fun hfirst => ?_⟩
  · rw [ht, get_refreshSafe _ (.inl (by decide)), hmark _ (.inl (by decide))]
    exact get_fault_markFault u code isl detail inj
  · have hreq := safeReq_refreshSafe (u.latchFault code isl detail inj)
    rw [← ht, hsafe] at hreq
    exact hreq
  · have hnone : u.flag SAF_STATUS_FAULT = false := (congrArg (· == 1) (hstatus SAF_STATUS_FAULT rfl)).trans hfirst
    obtain ⟨hcode, hisl⟩ := first_markFault hnone code isl detail inj
    have hkeep (f : Fref) (hf : f.off = SAF_FIRST_LOG0) : t.get f = (u.markFault code isl detail inj).get f := by
      rw [ht]
      exact (get_of_reg (reg_refreshSafe_ne _ (by rw [hf]; decide))).trans (hmark f (.inl (by rw [hf]; decide)))
    exact ⟨(hkeep _ rfl).trans hcode, (hkeep _ rfl).trans hisl⟩

/-! ### The safety watchdog (R409) -/

theorem exec_safetyWatchdogExpiry (s : State) : exec .safetyWatchdogExpiry s =
    .next (if s.flag SAF_STATUS_SAFETY_READY = true ∧ s.wdgHit = false ∧
        s.seqC + 800000 * (s.seqF + s.getA SAF_CFG_FTTI_MS) ≤ s.c
      then ({ s with wdgHit := true } : State).safety 14 36 0 false else s) := by
  refine congrArg Host.Outcome.next (?_ : (if _ then _ else _) = _)
  rw [← ite_not]
  refine if_congr ?_ rfl rfl
  simp only [msTicks, Bool.or_eq_true, Bool.not_eq_true', decide_eq_true_eq, not_or, not_lt, Bool.not_eq_false,
    Bool.not_eq_true, Nat.mul_comm, and_assoc]

/-! ### A clear of SAF_EVT (R430, R432) -/

theorem and_add_ldiff (x y : Nat) : (x &&& y) + Nat.ldiff x y = x := by
  induction x using Nat.binaryRec generalizing y with
  | zero =>
    have hzero : Nat.ldiff 0 y = 0 := Nat.eq_of_testBit_eq fun i => by rw [Nat.testBit_ldiff, Nat.zero_testBit, Bool.false_and]
    rw [Nat.zero_and, hzero]
  | bit a m ih =>
    obtain ⟨b, n, rfl⟩ : ∃ b n, y = Nat.bit b n := ⟨y.bodd, y.div2, (Nat.bit_bodd_div2 y).symm⟩
    have hm := ih n
    rw [Nat.land_bit, Nat.ldiff_bit]
    cases a <;> cases b <;> simp only [Nat.bit_val, Bool.and_true, Bool.and_false, Bool.not_true, Bool.not_false,
      Bool.toNat_true, Bool.toNat_false] <;> omega

/-- Bits written as 1 are cleared. -/
theorem bitOf_sub_land (x y b : Nat) : bitOf (x - Nat.land x y) b = (bitOf x b && !bitOf y b) := by
  have hsplit : Nat.land x y + Nat.ldiff x y = x := and_add_ldiff x y
  rw [show x - Nat.land x y = Nat.ldiff x y by omega]
  simp only [bitOf_eq_testBit, Nat.testBit_ldiff]

theorem get_pend_clearPend (s : State) (m : Nat) :
    (s.clearPend m).get SAF_EVT_PEND = s.get SAF_EVT_PEND - Nat.land (s.get SAF_EVT_PEND) m :=
  (get_of_reg (reg_refreshSafe_ne _ (by decide))).trans
    (get_put_fits s SAF_EVT_PEND _ (by decide) ((Nat.sub_le _ _).trans_lt (get_lt s SAF_EVT_PEND)))

theorem reg_clearPend_ne (s : State) (m : Nat) {b : Nat} (hevt : b ≠ SAF_EVT) (hst : b ≠ SAF_STATUS) :
    (s.clearPend m).reg b = s.reg b := (reg_refreshSafe_ne _ hst).trans (reg_put_ne s SAF_EVT_PEND _ b hevt)

theorem reactionNow_congr {s t : State} (hr : t.reg SAF_REACT = s.reg SAF_REACT) (hret : t.retired = s.retired) (b : Nat) :
    t.reactionNow b = s.reactionNow b := by
  simp only [State.reactionNow, State.reaction, hret, get_of_reg (f := SAF_REACT_REACT) hr]

/-- SAFE_REQ_N after the clear. -/
theorem safeReqN_clearPend (s : State) (m : Nat) : (s.clearPend m).out.safeReqN = false ↔
    s.flag SAF_STATUS_SAFETY_READY = true ∧ (s.out.faultN = false ∨
      ∃ b, b < 18 ∧ bitOf ((s.clearPend m).get SAF_EVT_PEND) b = true ∧ 2 ≤ s.reactionNow b) := by
  obtain ⟨u, hu⟩ : ∃ u, u = s.put SAF_EVT_PEND (s.get SAF_EVT_PEND - Nat.land (s.get SAF_EVT_PEND) m) := ⟨_, rfl⟩
  have ht : s.clearPend m = u.refreshSafe := hu ▸ rfl
  have hreg {b : Nat} (h : b ≠ SAF_EVT) : u.reg b = s.reg b := hu ▸ reg_put_ne s SAF_EVT_PEND _ b h
  have hready : u.flag SAF_STATUS_SAFETY_READY = s.flag SAF_STATUS_SAFETY_READY :=
    congrArg (· == 1) (get_of_reg (hreg (by decide)))
  have hreact (b : Nat) : u.reactionNow b = s.reactionNow b := reactionNow_congr (hreg (by decide)) (by rw [hu]; rfl) b
  have hpend : u.get SAF_EVT_PEND = u.refreshSafe.get SAF_EVT_PEND := (get_of_reg (reg_refreshSafe_ne u (by decide))).symm
  have hfault : u.out = s.out := by rw [hu]; rfl
  rw [ht, safeReqN_refreshSafe, State.safeNeeded]
  simp only [hready, hreact, hpend, hfault]

/-! ### The status target (R432, R433) -/

theorem leNat_leBytes_mod (n v : Nat) : leNat (leBytes n v) = v % 256 ^ n := by
  induction n generalizing v with
  | zero => exact (Nat.mod_one v).symm
  | succ n ih =>
    have hsplit : v % 256 ^ (n + 1) = v % 256 + 256 * (v / 256 % 256 ^ n) := by rw [pow_succ', Nat.mod_mul]
    rw [hsplit, ← ih]
    rfl

theorem exec_sstWrite (off : Nat) (bs : List Byte) (s : State) : exec (.sstWrite off bs) s =
    .next (if s.dead = true ∨ s.flag SAF_CTL_ACK_EN = false ∨ off ≠ 0x40 ∨ bs.length ≠ 4 then s
      else s.clearPend (leNat bs)) := by
  refine congrArg Host.Outcome.next (if_congr ?_ rfl rfl)
  simp only [Bool.or_eq_true, bne_iff_ne, Bool.not_eq_true']
  tauto

/-- Four bytes to the block's PEND with ACK_EN are a clear. -/
theorem exec_sstWrite_ack {s : State} (v : Word32) (hd : s.dead = false) (ha : s.flag SAF_CTL_ACK_EN = true) :
    exec (.sstWrite 0x40 (leBytes 4 v.toNat)) s = .next (s.clearPend v.toNat) := by
  have hv : leNat (leBytes 4 v.toNat) = v.toNat := (leNat_leBytes_mod 4 v.toNat).trans (Nat.mod_eq_of_lt v.isLt)
  rw [exec_sstWrite, hv, if_neg]
  simp [hd, ha, length_leBytes]

theorem exec_sstFastRead (s : State) : exec .sstFastRead s = .next (if s.dead then s else { s with sst := s.sstBlock }) := rfl

/-- The block is sixty bytes and their CRC. -/
theorem sstBlock_parts (s : State) : ∃ a b c : Nat, s.sstBlock =
    (let body := leBytes 4 (0x5346 + 0x10000) ++ leBytes 4 (s.get SAF_STATUS_SEQ) ++ leBytes 4 a ++
      leBytes 4 (s.get SAF_EVT_PEND) ++ leBytes 4 b ++ leBytes 4 c ++ leBytes 8 s.seqT ++
      leBytes 4 (s.get SAF_FIRST_LOG0_CODE + 32 * s.get SAF_FIRST_LOG0_ISLAND) ++ List.replicate 24 0
     body ++ leBytes 4 (crc32c body)) := ⟨_, _, _, rfl⟩

theorem sstBlock_layout (s : State) : s.sstBlock.length = 64 ∧ s.sstBlock.take 4 = [0x46, 0x53, 0x01, 0x00] ∧
    leNat ((s.sstBlock.drop 4).take 4) = s.get SAF_STATUS_SEQ ∧ leNat ((s.sstBlock.drop 12).take 4) = s.get SAF_EVT_PEND ∧
    leNat ((s.sstBlock.drop 24).take 8) = s.seqT % 2 ^ 64 ∧
    s.sstBlock.drop 60 = leBytes 4 (crc32c (s.sstBlock.take 60)) := by
  obtain ⟨a, b, c, h⟩ := sstBlock_parts s
  have hseq := get_lt s SAF_STATUS_SEQ
  have hpend := get_lt s SAF_EVT_PEND
  rw [h]
  refine ⟨?_, ?_, ?_, ?_, ?_, ?_⟩
  · simp [length_leBytes]
  · rfl
  · exact (leNat_leBytes_mod 4 _).trans (Nat.mod_eq_of_lt hseq)
  · exact (leNat_leBytes_mod 4 _).trans (Nat.mod_eq_of_lt (hpend.trans (by decide)))
  · exact leNat_leBytes_mod 8 _
  · rfl

/-- Settles O33: a safety event is noted, then its reaction taken; a clear leaves the reactions still pending to decide
SAFE_REQ_N. -/
theorem safetyEventsTakeTheirReactions : Obligations.SafetyEventsTakeTheirReactions := by
  refine ⟨fun s => ⟨fun h => ?_, fun h => ?_, fun rq v hopen hfields => ?_, fun off bs h => ?_⟩,
    fun s => ⟨fun hd => ?_, fun hd => ?_, sstBlock_layout s⟩⟩
  · exact (exec_safetyWatchdogExpiry s).trans (congrArg _ (if_neg h))
  · intro v t
    have hstill : t.still = v.still := still_safety v 14 36 0 false
    obtain ⟨hcount, hpend⟩ := safety_counted v (code := 14) 36 0 false (by decide)
    obtain ⟨hfault, hfaultN, hreqN, hreq, hfirst⟩ := safety_fault (s := v) (code := 14) 36 0 false rfl h.1
    exact ⟨(exec_safetyWatchdogExpiry s).trans (congrArg _ (if_pos h)), keeps_of_still State.wdgHit (fun _ => rfl) hstill,
      hcount, hpend, hfault, hfaultN, hreqN, hreq, hfirst, hstill⟩
  · refine ⟨congrArg Host.Outcome.next (guarded_eq s rq _ _ hopen hfields), fun b _ => ?_, safeReqN_clearPend s v.toNat,
      rfl, rfl, fun b => reg_clearPend_ne s v.toNat, exec_sstWrite_ack v⟩
    rw [get_pend_clearPend, bitOf_sub_land]
  · exact (exec_sstWrite off bs s).trans (congrArg _ (if_pos h))
  · exact (exec_sstFastRead s).trans (congrArg _ (if_neg (hd ▸ Bool.false_ne_true)))
  · exact (exec_sstFastRead s).trans (congrArg _ (if_pos hd))

end Sys2Proof.Machine
end

section
/-!
SUPPORT. Keeper pairs and the blocks they own: crashes, takeover, restart and moves (R423 to R425, R473 to R477).
-/

namespace Sys2Proof.Machine

/-! ### Owners of blocks (R473) -/

theorem blockOwner_lt (s : State) (b : Nat) : s.blockOwner b < 4 := bitsOf_lt _ _ 2

theorem blockOwner_congr {s t : State} {b : Nat} (h : t.reg (KPR_QOWN (b / 32)) = s.reg (KPR_QOWN (b / 32))) :
    t.blockOwner b = s.blockOwner b := by
  unfold State.blockOwner
  rw [get_of_reg (f := KPR_QOWN_OWNER (b / 32)) h]

/-- The two bits of a block take the pair, those of the other blocks stay. -/
theorem blockOwner_setOwner (s : State) (b p x : Nat) :
    (s.setOwner b p).blockOwner x = if x = b then p % 4 else s.blockOwner x := by
  by_cases hword : x / 32 = b / 32
  · have hnew : (s.setOwner b p).get (KPR_QOWN_OWNER (b / 32)) =
        putBits (s.get (KPR_QOWN_OWNER (b / 32))) (2 * (b % 32)) 2 p :=
      get_put_fits s (KPR_QOWN_OWNER (b / 32)) _ (le_refl 64)
        (putBits_lt _ _ _ _ (get_lt s (KPR_QOWN_OWNER (b / 32))) (by omega))
    unfold State.blockOwner
    rw [hword, hnew]
    split_ifs with hx
    · rw [hx]
      exact bitsOf_putBits _ _ 2 p
    · rcases Nat.lt_or_gt_of_ne (show x % 32 ≠ b % 32 by omega) with h | h
      · exact bitsOf_putBits_below _ _ 2 p _ 2 (by omega)
      · exact bitsOf_putBits_above _ _ 2 p _ 2 (by omega)
  · rw [if_neg fun hx : x = b => hword (congrArg (· / 32) hx)]
    refine blockOwner_congr (reg_put_ne s (KPR_QOWN_OWNER (b / 32)) _ _ ?_)
    simp only [KPR_QOWN_OWNER, KPR_QOWN]
    omega

theorem reg_setOwner_ne (s : State) {b p x : Nat} (h : x ≠ KPR_QOWN (b / 32)) : (s.setOwner b p).reg x = s.reg x :=
  reg_put_ne s (KPR_QOWN_OWNER (b / 32)) _ x h

theorem pairSt_setOwner (s : State) (b p : Nat) {q : Nat} (hq : q < 4) : (s.setOwner b p).pairSt q = s.pairSt q :=
  get_of_reg (reg_setOwner_ne s (by
    simp only [KPR_PAIR_STAT_STATE, KPR_PAIR_STAT, KPR_QOWN]
    omega))

/-- Every block of a list goes to one pair. -/
theorem blockOwner_giveBlocks (s : State) (l : List Nat) {q : Nat} (hq : q < 4) (x : Nat) :
    (l.foldl (fun s b => s.setOwner b q) s).blockOwner x = if x ∈ l then q else s.blockOwner x := by
  have hset (t : State) (b : Nat) : (t.setOwner b q).blockOwner x = if x = b then q else t.blockOwner x := by
    rw [blockOwner_setOwner, Nat.mod_eq_of_lt hq]
  induction l generalizing s with
  | nil => rfl
  | cons b l ih =>
    rw [List.foldl_cons, ih, hset]
    by_cases hl : x ∈ l <;> simp [hl]

/-! ### BLOCKS and PAIRS -/

theorem reg_refreshPairs (s : State) {b : Nat} (hst : b ≠ SAF_STATUS) (hp : ∀ p < 4, b ≠ KPR_PAIR_STAT p) :
    s.refreshPairs.reg b = s.reg b := by
  refine (reg_put_ne _ SAF_STATUS_PAIRS _ b hst).trans (reg_foldl _ b _ (fun t p h => ?_) s)
  exact reg_put_ne t (KPR_PAIR_STAT_BLOCKS p) _ b (hp p (List.mem_range.mp h))

theorem blockOwner_refreshPairs (s : State) {b : Nat} (_ : b < 256) : s.refreshPairs.blockOwner b = s.blockOwner b := by
  refine blockOwner_congr (reg_refreshPairs s ?_ fun p hp => ?_) <;>
    · simp only [KPR_QOWN, SAF_STATUS, KPR_PAIR_STAT]
      omega

theorem pairSt_refreshPairs (s : State) {q : Nat} (hq : q < 4) : s.refreshPairs.pairSt q = s.pairSt q := by
  have hblocks := foldl_keeps (fun t => t.pairSt q) (fun t p => t.put (KPR_PAIR_STAT_BLOCKS p) (t.blocksOf p)) (fun t p =>
    get_put_disjoint t (KPR_PAIR_STAT_BLOCKS p) (KPR_PAIR_STAT_STATE q) _ (by simp [KPR_PAIR_STAT_BLOCKS])
      (.inl (le_refl 3))) (List.range 4) s
  refine (get_put_ne _ SAF_STATUS_PAIRS (KPR_PAIR_STAT_STATE q) _ ?_).trans hblocks
  simp only [KPR_PAIR_STAT_STATE, KPR_PAIR_STAT, SAF_STATUS_PAIRS, SAF_STATUS]
  omega

/-! ### Takeover (R476) -/

/-- A takeover of `n` blocks in the log, and counted. -/
def State.logTakeover (s : State) (p q cause n : Nat) : State :=
  let u := ((((s.put KPR_TAKE_LOG0_FROM p).put KPR_TAKE_LOG0_TO q).put KPR_TAKE_LOG0_CAUSE cause).put
    KPR_TAKE_LOG0_BLOCKS n).put KPR_TAKE_LOG0_TOOK_US 0
  (u.put KPR_TAKE_LOG1_TIME u.beacon).bump KPR_CNT_TAKEOVER_COUNT 1

theorem reg_logTakeover_ne (s : State) (p q cause n : Nat) {b : Nat} (h0 : b ≠ KPR_TAKE_LOG0) (h1 : b ≠ KPR_TAKE_LOG1)
    (h2 : b ≠ KPR_CNT_TAKEOVER) : (s.logTakeover p q cause n).reg b = s.reg b := by
  have hlog (u : State) (lo w m : Nat) : (u.put ⟨KPR_TAKE_LOG0, lo, w⟩ m).reg b = u.reg b := reg_put_ne u _ m b h0
  refine (reg_bump_ne _ KPR_CNT_TAKEOVER_COUNT 1 b h2).trans ((reg_put_ne _ KPR_TAKE_LOG1_TIME _ b h1).trans ?_)
  exact (hlog _ _ _ _).trans ((hlog _ _ _ _).trans ((hlog _ _ _ _).trans ((hlog _ _ _ _).trans (hlog s _ _ p))))

theorem logTakeover_fields (s : State) {p q : Nat} (cause n : Nat) (hp : p < 4) (hq : q < 4) :
    (s.logTakeover p q cause n).get KPR_TAKE_LOG0_FROM = p ∧ (s.logTakeover p q cause n).get KPR_TAKE_LOG0_TO = q ∧
    (s.logTakeover p q cause n).get KPR_CNT_TAKEOVER_COUNT = min (s.get KPR_CNT_TAKEOVER_COUNT + 1) 0xFFFFFFFF := by
  unfold State.logTakeover State.bump
  refine ⟨?_, ?_, ?_⟩
  · simp (disch := decide) only [get_put, get_put_ne, get_put_disjoint]
    exact Nat.mod_eq_of_lt hp
  · simp (disch := decide) only [get_put, get_put_ne, get_put_disjoint]
    exact Nat.mod_eq_of_lt hq
  · refine (get_bump_one _ KPR_CNT_TAKEOVER).trans ?_
    simp (disch := decide) only [get_put_ne]
    rfl

/-- The blocks that a pair owns. -/
def State.ownedBlocks (s : State) (p : Nat) : List Nat := (List.range 256).filter (fun b => s.blockOwner b == p)

/-- The blocks of `p` in the hands of `q`. -/
def State.blocksTaken (s : State) (p q : Nat) : State := (s.ownedBlocks p).foldl (fun s b => s.setOwner b q) s

/-- The state in which the takeover is told. -/
def State.takenOver (s : State) (p q cause : Nat) : State := (s.blocksTaken p q).logTakeover p q cause (s.ownedBlocks p).length

theorem blockOwner_blocksTaken (s : State) (p : Nat) {q b : Nat} (hq : q < 4) (hb : b < 256) :
    (s.blocksTaken p q).blockOwner b = if s.blockOwner b = p then q else s.blockOwner b := by
  refine (blockOwner_giveBlocks s _ hq b).trans (if_congr ?_ rfl rfl)
  simp only [State.ownedBlocks, List.mem_filter, List.mem_range, hb, true_and, beq_iff_eq]

theorem get_takeovers_blocksTaken (s : State) (p q : Nat) :
    (s.blocksTaken p q).get KPR_CNT_TAKEOVER_COUNT = s.get KPR_CNT_TAKEOVER_COUNT := by
  refine get_of_reg (reg_foldl _ _ _ (fun t b hb => reg_setOwner_ne t ?_) s)
  have hlt : b < 256 := List.mem_range.mp (List.mem_of_mem_filter hb)
  simp only [KPR_CNT_TAKEOVER_COUNT, KPR_CNT_TAKEOVER, KPR_QOWN]
  omega

theorem takeover_eq {s : State} {q : Nat} (p cause : Nat) (inj : Bool) (h : s.fewest = some q) : s.takeover p cause inj =
    (let v := ((s.takenOver p q cause).emitPlain 36 0x0A 1 (p + 4 * q)).refreshPairs
     if v.flag DBG_HANG_CFG_DUMP_ON_TAKE then v.startDump 2 63 0 else v) := by
  unfold State.takeover
  rw [h]
  rfl

theorem reg_takeover {s : State} {p q b : Nat} (cause : Nat) (inj : Bool) (h : s.fewest = some q) (hd : notDbg b)
    (hst : b ≠ SAF_STATUS) (hp : ∀ p < 4, b ≠ KPR_PAIR_STAT p) :
    (s.takeover p cause inj).reg b = (s.takenOver p q cause).reg b := by
  rw [takeover_eq p cause inj h]
  simp only [apply_ite (fun u : State => u.reg b), reg_startDump _ _ _ _ _ hd, reg_refreshPairs _ hst hp,
    reg_emitPlain _ _ _ _ _ _ hd, ite_self]

/-- The pair that takes over gets every block of the other, and no other block moves. -/
theorem takeover_effect {s : State} {p q : Nat} (cause : Nat) (inj : Bool) (h : s.fewest = some q) (hp : p < 4) (hq : q < 4) :
    (∀ b, b < 256 → (s.takeover p cause inj).blockOwner b = if s.blockOwner b = p then q else s.blockOwner b) ∧
    (s.takeover p cause inj).get KPR_TAKE_LOG0_FROM = p ∧ (s.takeover p cause inj).get KPR_TAKE_LOG0_TO = q ∧
    (s.takeover p cause inj).get KPR_CNT_TAKEOVER_COUNT = min (s.get KPR_CNT_TAKEOVER_COUNT + 1) 0xFFFFFFFF := by
  obtain ⟨hfrom, hto, hcount⟩ := logTakeover_fields (s.blocksTaken p q) cause (s.ownedBlocks p).length hp hq
  rw [get_takeovers_blocksTaken] at hcount
  have hkpr (f : Fref) (hlo : 0x1000200 ≤ f.off) (hhi : f.off < 0x1000300) :
      (s.takeover p cause inj).get f = (s.takenOver p q cause).get f := by
    refine get_of_reg (reg_takeover cause inj h (.inl (by omega)) ?_ fun r hr => ?_) <;>
      · simp only [SAF_STATUS, KPR_PAIR_STAT]
        omega
  refine ⟨fun b hb => ?_, (hkpr _ (by decide) (by decide)).trans hfrom, (hkpr _ (by decide) (by decide)).trans hto,
    (hkpr _ (by decide) (by decide)).trans hcount⟩
  have hqown : (s.takeover p cause inj).blockOwner b = (s.takenOver p q cause).blockOwner b := by
    refine blockOwner_congr (reg_takeover cause inj h ?_ ?_ fun r hr => ?_) <;>
      · simp only [KPR_QOWN, SAF_STATUS, KPR_PAIR_STAT, notDbg]
        omega
  have hlog : (s.takenOver p q cause).blockOwner b = (s.blocksTaken p q).blockOwner b := by
    refine blockOwner_congr (reg_logTakeover_ne _ p q cause _ ?_ ?_ ?_) <;>
      · simp only [KPR_QOWN, KPR_TAKE_LOG0, KPR_TAKE_LOG1, KPR_CNT_TAKEOVER]
        omega
  rw [hqown, hlog, blockOwner_blocksTaken s p hq hb]

/-! ### A pair that crashes (R423, R475) -/

/-- The pair in restart, `n` mismatches in a row. -/
def State.pairDown (s : State) (p n : Nat) : State :=
  { (s.put (KPR_PAIR_STAT_STATE p) 3).bump (KPR_PAIR_STAT_RESTARTS p) 1 with pairRuns := mset (fun _ => 0) s.pairRuns p n }

theorem reg_pairDown (s : State) (p n b : Nat) : (s.pairDown p n).reg b =
    ((s.put (KPR_PAIR_STAT_STATE p) 3).bump (KPR_PAIR_STAT_RESTARTS p) 1).reg b := reg_of_regs rfl b

theorem pairDown_pair (s : State) (p n : Nat) : (s.pairDown p n).pairSt p = 3 ∧
    (s.pairDown p n).get (KPR_PAIR_STAT_RESTARTS p) = min (s.get (KPR_PAIR_STAT_RESTARTS p) + 1) 0xFFFF := by
  have hrestarts : (s.put (KPR_PAIR_STAT_STATE p) 3).get (KPR_PAIR_STAT_RESTARTS p) = s.get (KPR_PAIR_STAT_RESTARTS p) :=
    get_put_disjoint s (KPR_PAIR_STAT_STATE p) (KPR_PAIR_STAT_RESTARTS p) 3 (by norm_num [KPR_PAIR_STAT_STATE])
      (.inr (by norm_num [KPR_PAIR_STAT_STATE, KPR_PAIR_STAT_RESTARTS]))
  have hbump := get_bump (s.put (KPR_PAIR_STAT_STATE p) 3) (KPR_PAIR_STAT_RESTARTS p) 1 (by norm_num [KPR_PAIR_STAT_RESTARTS])
  rw [hrestarts] at hbump
  refine ⟨(get_of_reg (reg_pairDown s p n _)).trans ?_, (get_of_reg (reg_pairDown s p n _)).trans hbump⟩
  exact (get_put_disjoint _ (KPR_PAIR_STAT_RESTARTS p) (KPR_PAIR_STAT_STATE p) _ (by norm_num [KPR_PAIR_STAT_RESTARTS])
    (.inl (by norm_num [KPR_PAIR_STAT_STATE, KPR_PAIR_STAT_RESTARTS]))).trans
    (get_put_fits s (KPR_PAIR_STAT_STATE p) 3 (by norm_num [KPR_PAIR_STAT_STATE]) (by norm_num [KPR_PAIR_STAT_STATE]))

theorem reg_pairDown_ne (s : State) {p b : Nat} (n : Nat) (h : b ≠ KPR_PAIR_STAT p) : (s.pairDown p n).reg b = s.reg b :=
  (reg_pairDown s p n b).trans
    ((reg_bump_ne _ (KPR_PAIR_STAT_RESTARTS p) 1 b h).trans (reg_put_ne s (KPR_PAIR_STAT_STATE p) 3 b h))

theorem pairDown_others (s : State) {p : Nat} (n : Nat) (hp : p < 4) :
    (∀ q, q < 4 → q ≠ p → (s.pairDown p n).pairSt q = s.pairSt q) ∧
    (∀ b, b < 256 → (s.pairDown p n).blockOwner b = s.blockOwner b) := by
  refine ⟨fun q _ hne => get_of_reg (reg_pairDown_ne s n ?_), fun b _ => blockOwner_congr (reg_pairDown_ne s n ?_)⟩ <;>
    · simp only [KPR_PAIR_STAT_STATE, KPR_PAIR_STAT, KPR_QOWN]
      omega

theorem crashPair_offline {s : State} {p : Nat} (cause : Nat) (inj : Bool) (h : s.pairSt p ≠ 2) : s.crashPair p cause inj = s :=
  if_pos h

theorem crashPair_other {s : State} {p cause : Nat} (inj : Bool) (h : s.pairSt p = 2) (hc : cause ≠ 0) :
    s.crashPair p cause inj = ((s.pairDown p 0).takeover p cause inj).settle := by
  unfold State.crashPair
  simp only [h, hc, decide_false, Bool.false_and, ne_eq, not_true, if_false, Bool.false_eq_true]
  rfl

/-- After a mismatch in lockstep. -/
def State.mismatched (s : State) (p : Nat) (inj : Bool) : State :=
  ((s.pairDown p (mget (fun _ => 0) s.pairRuns p + 1)).transient (chPair p)).safety 7 36 p inj

theorem crashPair_lockstep {s : State} {p : Nat} (inj : Bool) (h : s.pairSt p = 2) : s.crashPair p 0 inj =
    ((if (s.mismatched p inj).get SAF_CTL_ATTEMPTS ≤ mget (fun _ => 0) s.pairRuns p + 1 ∨
        (s.mismatched p inj).get SAF_CTL_RATE_CNT ≤ (mget (fun _ => []) (s.mismatched p inj).transients (chPair p)).length
      then (s.mismatched p inj).holdPair p inj else s.mismatched p inj).takeover p 0 inj).settle := by
  unfold State.crashPair
  rw [if_neg (not_not.mpr h)]
  simp only [if_true, decide_true, Bool.true_and, Bool.or_eq_true, decide_eq_true_eq]
  rfl

/-! ### A pair that comes online (R424, R477) -/

/-- One block without an online owner goes to the pair. -/
def State.adopt (p : Nat) (s : State) (b : Nat) : State := if s.pairSt (s.blockOwner b) = 2 then s else s.setOwner b p

/-- The pair online, with the blocks that no online pair owned. -/
def State.pairUp (s : State) (p : Nat) : State :=
  ((List.range 256).foldl (State.adopt p) (s.put (KPR_PAIR_STAT_STATE p) 2)).refreshPairs

theorem exec_pairOnline (p : Nat) (ok : Bool) (s : State) : exec (.pairOnline p ok) s =
    .next (if (s.pairSt p ≠ 1 ∧ s.pairSt p ≠ 3) ∨ s.dead = true then s
      else if !ok then (s.holdPair p false).refreshPairs else (s.pairUp p).settle) := rfl

theorem exec_pairOnline_ignored {s : State} {p : Nat} (ok : Bool) (h : s.dead = true ∨ (s.pairSt p ≠ 1 ∧ s.pairSt p ≠ 3)) :
    exec (.pairOnline p ok) s = .next s := by
  rw [exec_pairOnline, if_pos h.symm]

theorem exec_pairOnline_checked {s : State} {p : Nat} (hd : s.dead = false) (h : s.pairSt p = 1 ∨ s.pairSt p = 3) :
    exec (.pairOnline p false) s = .next (s.holdPair p false).refreshPairs ∧
    exec (.pairOnline p true) s = .next (s.pairUp p).settle := by
  have hopen : ¬ ((s.pairSt p ≠ 1 ∧ s.pairSt p ≠ 3) ∨ s.dead = true) := by
    rw [hd]
    tauto
  rw [exec_pairOnline, exec_pairOnline, if_neg hopen, if_neg hopen, if_pos (by decide), if_neg (by decide)]
  exact ⟨rfl, rfl⟩

theorem pairSt_adopt (s : State) (p b : Nat) {q : Nat} (hq : q < 4) : (State.adopt p s b).pairSt q = s.pairSt q := by
  unfold State.adopt
  split_ifs
  · rfl
  · exact pairSt_setOwner s b p hq

theorem blockOwner_adopt (s : State) {p : Nat} (b x : Nat) (hp : p < 4) : (State.adopt p s b).blockOwner x =
    if x = b ∧ s.pairSt (s.blockOwner b) ≠ 2 then p else s.blockOwner x := by
  unfold State.adopt
  by_cases hon : s.pairSt (s.blockOwner b) = 2
  · rw [if_pos hon, if_neg fun h => h.2 hon]
  · rw [if_neg hon, blockOwner_setOwner, Nat.mod_eq_of_lt hp]
    exact if_congr (and_iff_left hon).symm rfl rfl

/-- While the pair is online, it takes the blocks without an online owner, and no others. -/
theorem blockOwner_adopted (s : State) {p : Nat} (l : List Nat) (hp : p < 4) (hon : s.pairSt p = 2) (x : Nat) :
    (l.foldl (State.adopt p) s).blockOwner x =
      if x ∈ l ∧ s.pairSt (s.blockOwner x) ≠ 2 then p else s.blockOwner x := by
  induction l generalizing s with
  | nil => simp
  | cons b l ih =>
    rw [List.foldl_cons, ih _ ((pairSt_adopt s p b hp).trans hon), pairSt_adopt s p b (blockOwner_lt _ x),
      blockOwner_adopt s b x hp]
    rcases eq_or_ne x b with rfl | hne
    · by_cases hoff : s.pairSt (s.blockOwner x) = 2 <;> simp [hoff, hon]
    · simp [hne]

theorem pairUp_effect (s : State) {p : Nat} (hp : p < 4) : (s.pairUp p).pairSt p = 2 ∧ ∀ b, b < 256 →
    (s.pairUp p).blockOwner b = if s.blockOwner b ≠ p ∧ s.pairSt (s.blockOwner b) = 2 then s.blockOwner b else p := by
  obtain ⟨v, hv⟩ : ∃ v, v = s.put (KPR_PAIR_STAT_STATE p) 2 := ⟨_, rfl⟩
  have hup : s.pairUp p = ((List.range 256).foldl (State.adopt p) v).refreshPairs := hv ▸ rfl
  have hon : v.pairSt p = 2 := by
    rw [hv]
    exact get_put_fits s (KPR_PAIR_STAT_STATE p) 2 (by norm_num [KPR_PAIR_STAT_STATE]) (by norm_num [KPR_PAIR_STAT_STATE])
  have hreg {x : Nat} (h : x ≠ KPR_PAIR_STAT p) : v.reg x = s.reg x := hv ▸ reg_put_ne s (KPR_PAIR_STAT_STATE p) 2 x h
  have hother {q : Nat} (h : q ≠ p) : v.pairSt q = s.pairSt q := get_of_reg (hreg (by
    simp only [KPR_PAIR_STAT_STATE, KPR_PAIR_STAT]
    omega))
  have howner {b : Nat} (_ : b < 256) : v.blockOwner b = s.blockOwner b := blockOwner_congr (hreg (by
    simp only [KPR_QOWN, KPR_PAIR_STAT]
    omega))
  refine ⟨?_, fun b hb => ?_⟩
  · rw [hup, pairSt_refreshPairs _ hp]
    exact (foldl_keeps (fun t => t.pairSt p) _ (fun t b => pairSt_adopt t p b hp) _ v).trans hon
  · rw [hup, blockOwner_refreshPairs _ hb, blockOwner_adopted v _ hp hon, howner hb]
    by_cases hown : s.blockOwner b = p
    · simp [hown, hon]
    · by_cases hst : s.pairSt (s.blockOwner b) = 2 <;> simp [hown, hst, hother hown, hb]

/-! ### A block that moves (R477) -/

/-- No descriptor of the block is fetched and not yet dispatched. -/
def State.blockFree (s : State) (b : Nat) : Prop :=
  ∀ d ∈ s.descs, d.q / 64 = b → d.phase ≠ .fetched ∧ d.phase ≠ .waiting ∧ d.phase ≠ .ready

theorem exec_blockMove (b p : Nat) (s : State) : exec (.blockMove b p) s =
    .next (if s.pairSt p = 2 ∧ s.spreadOwner b = p ∧ s.blockOwner b ≠ p ∧ ¬ s.descs.any (fun d => d.q / 64 == b &&
        [DPhase.fetched, .waiting, .ready].contains d.phase) = true
      then (s.setOwner b p).refreshPairs else s) := rfl

theorem blockFree_iff (s : State) (b : Nat) : s.blockFree b ↔
    ¬ s.descs.any (fun d => d.q / 64 == b && [DPhase.fetched, .waiting, .ready].contains d.phase) = true := by
  simp [State.blockFree, List.any_eq_true]

theorem exec_blockMove_stays {s : State} {b p : Nat}
    (h : s.pairSt p ≠ 2 ∨ s.spreadOwner b ≠ p ∨ s.blockOwner b = p ∨ ¬ s.blockFree b) : exec (.blockMove b p) s = .next s := by
  rw [exec_blockMove, if_neg]
  rw [← blockFree_iff]
  tauto

theorem exec_blockMove_moves {s : State} {b p : Nat} (hst : s.pairSt p = 2) (hspread : s.spreadOwner b = p)
    (hown : s.blockOwner b ≠ p) (hfree : s.blockFree b) : exec (.blockMove b p) s = .next (s.setOwner b p).refreshPairs := by
  rw [exec_blockMove, if_pos ⟨hst, hspread, hown, (blockFree_iff s b).mp hfree⟩]

theorem blockMoved_effect (s : State) {b p : Nat} (hb : b < 256) (hp : p < 4) :
    (s.setOwner b p).refreshPairs.blockOwner b = p ∧
    (∀ x, x < 256 → x ≠ b → (s.setOwner b p).refreshPairs.blockOwner x = s.blockOwner x) ∧
    (s.setOwner b p).refreshPairs.descs = s.descs := by
  refine ⟨?_, fun x hx hne => ?_, ?_⟩
  · rw [blockOwner_refreshPairs _ hb, blockOwner_setOwner, if_pos rfl, Nat.mod_eq_of_lt hp]
  · rw [blockOwner_refreshPairs _ hx, blockOwner_setOwner, if_neg hne]
  · have hblocks := foldl_keeps State.descs _ (fun t q => put_descs t (KPR_PAIR_STAT_BLOCKS q) (t.blocksOf q)) (List.range 4)
      (s.setOwner b p)
    exact (put_descs _ SAF_STATUS_PAIRS _).trans (hblocks.trans (put_descs s _ _))

end Sys2Proof.Machine
end

section
/-!
SUPPORT. Stops that are asked for, the golden test that an engine is given, and the start of a window (R407, R413, R415).
-/

namespace Sys2Proof.Machine

/-! ### A stop that is asked for (R352, R413) -/

section
variable {β : Type} (p : State → β) (hstill : ∀ u : State, p u.still = p u)
  (hdescs : ∀ (u : State) x, p { u with descs := x } = p u)
include hstill hdescs

theorem stopPart_keeps (s : State) (i isl cause : Nat) : p (s.stopPart i isl cause) = p s := by
  have hupd (u : State) (f : Desc → Desc) : p (u.updDesc i f) = p u := hdescs u _
  have hemit (u : State) (d : Desc) (k st a b : Nat) : p (u.emitDesc d isl k st a b) = p u :=
    keeps_of_still p hstill (still_emitDesc u d isl k st a b)
  have hbump (u : State) : p (u.bump SCH_CNT_STOPS_COUNT 1) = p u := keeps_of_still p hstill (still_bump u _ _)
  unfold State.stopPart
  split
  · rfl
  · simp only [apply_ite p, hbump, hemit, hupd, ite_self]

theorem stopWhere_keeps (s : State) (isl cause : Nat) (f : Desc → Bool) : p (s.stopWhere isl cause f) = p s :=
  foldl_keeps p (fun (u : State) (d : Desc) => u.stopPart d.id isl cause)
    (fun u d => stopPart_keeps p hstill hdescs u d.id isl cause) _ s

end

theorem reg_stopPart (s : State) (i isl cause : Nat) {b : Nat} (hd : notDbg b) (h : b ≠ SCH_CNT_STOPS) :
    (s.stopPart i isl cause).reg b = s.reg b := by
  have hupd (u : State) (f : Desc → Desc) : (u.updDesc i f).reg b = u.reg b := reg_of_regs rfl b
  have hbump (u : State) : (u.bump SCH_CNT_STOPS_COUNT 1).reg b = u.reg b := reg_bump_ne u _ 1 b h
  unfold State.stopPart
  split
  · rfl
  · simp only [apply_ite (fun u : State => u.reg b), hbump, reg_emitDesc _ _ _ _ _ _ _ _ hd, hupd, ite_self]

/-! ### The golden test that an engine is given (R413) -/

/-- The test of engine `k`, if it has one. -/
def State.goldOf (s : State) (k : Nat) : Option Gold := mget (fun _ => none) s.gold k

/-- The test with what is newly asked of it. -/
def State.goldAsked (s : State) (e : Nat) (slot rerun : Bool) : Gold :=
  match s.goldOf e with
  | some g => { g with rerun := g.rerun || rerun, slot := g.slot || slot }
  | none => ⟨slot, rerun, 0, s.c, false, false, false⟩

def State.setGold (s : State) (e : Nat) (g : Option Gold) : State := { s with gold := mset (fun _ => none) s.gold e g }

theorem goldOf_setGold (s : State) (e k : Nat) (g : Option Gold) : (s.setGold e g).goldOf k = if k = e then g else s.goldOf k :=
  mget_mset _ _ _ _ _

theorem wantGold_eq (s : State) (e : Nat) (slot rerun : Bool) :
    s.wantGold e slot rerun = (s.setGold e (some (s.goldAsked e slot rerun))).stopWhere e 3 (fun _ => true) := by
  unfold State.wantGold State.goldAsked State.goldOf
  cases mget (fun _ => none) s.gold e <;> rfl

theorem goldOf_wantGold (s : State) (e k : Nat) (slot rerun : Bool) :
    (s.wantGold e slot rerun).goldOf k = if k = e then some (s.goldAsked e slot rerun) else s.goldOf k := by
  rw [wantGold_eq, stopWhere_keeps (fun u => u.goldOf k) (fun _ => rfl) (fun _ _ => rfl), goldOf_setGold]

theorem goldStart_eq (s : State) (e : Nat) : s.goldStart e = s ∨
    ∃ g, s.goldOf e = some g ∧ s.goldStart e = s.setGold e (some { g with live := true, startC := s.c }) := by
  unfold State.goldStart State.goldOf
  cases h : mget (fun _ => none) s.gold e with
  | none => exact .inl rfl
  | some g =>
    dsimp only
    split_ifs
    · exact .inl rfl
    · exact .inr ⟨g, rfl, rfl⟩

/-- The engine has a test with a slot in the window. -/
def State.slotGiven (s : State) (e : Nat) : Prop := ∃ g, s.goldOf e = some g ∧ g.slot = true

theorem slotGiven_goldStart {s : State} {k : Nat} (e : Nat) (h : s.slotGiven k) : (s.goldStart e).slotGiven k := by
  rcases goldStart_eq s e with heq | ⟨g, hg, heq⟩
  · rwa [heq]
  · unfold State.slotGiven
    rw [heq, goldOf_setGold]
    split_ifs with hk
    · obtain ⟨g', hg', hslot⟩ := h
      obtain rfl : g' = g := Option.some.inj (hg'.symm.trans (hk ▸ hg))
      exact ⟨_, rfl, hslot⟩
    · exact h

theorem slotGiven_wantGold {s : State} {k e : Nat} (rerun : Bool) (h : k = e ∨ s.slotGiven k) :
    (s.wantGold e true rerun).slotGiven k := by
  unfold State.slotGiven
  rw [goldOf_wantGold]
  split_ifs with hk
  · refine ⟨_, rfl, ?_⟩
    unfold State.goldAsked
    cases s.goldOf e
    · rfl
    · exact Bool.or_true _
  · exact h.resolve_left hk

section
variable {β : Type} (p : State → β) (hstill : ∀ u : State, p u.still = p u)
  (hdescs : ∀ (u : State) x, p { u with descs := x } = p u)
  (hgold : ∀ (u : State) x, p { u with gold := x } = p u)
include hstill hdescs hgold

theorem giveGold_keeps (s : State) (e : Nat) (slot rerun : Bool) : p ((s.wantGold e slot rerun).goldStart e) = p s := by
  have hstart (u : State) : p (u.goldStart e) = p u := by
    rcases goldStart_eq u e with heq | ⟨g, -, heq⟩
    · rw [heq]
    · rw [heq]
      exact hgold u _
  rw [hstart, wantGold_eq, stopWhere_keeps p hstill hdescs]
  exact hgold s _

end

theorem reg_giveGold (s : State) (e : Nat) (slot rerun : Bool) {b : Nat} (hd : notDbg b) (h : b ≠ SCH_CNT_STOPS) :
    ((s.wantGold e slot rerun).goldStart e).reg b = s.reg b := by
  have hset (u : State) (k : Nat) (g : Option Gold) : (u.setGold k g).reg b = u.reg b := reg_of_regs rfl b
  have hstart (u : State) : (u.goldStart e).reg b = u.reg b := by
    rcases goldStart_eq u e with heq | ⟨g, -, heq⟩
    · rw [heq]
    · rw [heq, hset]
  rw [hstart, wantGold_eq]
  exact (reg_foldl _ b _ (fun t d _ => reg_stopPart t d.id e 3 hd h) _).trans (hset s e _)

/-! ### A window begins (R413, R415) -/

/-- What the start of a window asks about an engine is as it was. -/
def SameIslands (s t : State) : Prop := t.fttiT = s.fttiT ∧ t.retired = s.retired ∧ t.reg PWR_STAT = s.reg PWR_STAT

theorem SameIslands.trans {s t u : State} (h : SameIslands s t) (k : SameIslands t u) : SameIslands s u :=
  ⟨k.1.trans h.1, k.2.1.trans h.2.1, k.2.2.trans h.2.2⟩

theorem SameIslands.foldl {α : Type} {f : State → α → State} (l : List α) (h : ∀ t, ∀ a ∈ l, SameIslands t (f t a))
    (s : State) : SameIslands s (l.foldl f s) := by
  induction l generalizing s with
  | nil => exact ⟨rfl, rfl, rfl⟩
  | cons a l ih =>
    exact (h s a List.mem_cons_self).trans (ih (fun t b hb => h t b (List.mem_cons_of_mem a hb)) (f s a))

theorem SameIslands.isRetired {s t : State} (h : SameIslands s t) (e : Nat) : t.isRetired e = s.isRetired e := by
  unfold State.isRetired
  rw [h.2.1]

theorem SameIslands.islOn {s t : State} (h : SameIslands s t) (e : Nat) : t.islOn e = s.islOn e := by
  unfold State.islOn
  rw [get_of_reg (f := PWR_STAT_GATED) h.2.2]

/-- The engine's test waits until it wakes (R415). -/
def State.testOnWake (s : State) (e : Nat) : State :=
  { s with wakeTest := if s.wakeTest.contains e then s.wakeTest else s.wakeTest ++ [e] }

theorem mem_wakeTest_testOnWake {s : State} {e k : Nat} (h : k = e ∨ k ∈ s.wakeTest) : k ∈ (s.testOnWake e).wakeTest := by
  show k ∈ if s.wakeTest.contains e then s.wakeTest else s.wakeTest ++ [e]
  split_ifs with hmem
  · exact h.elim (fun hk => hk ▸ List.contains_iff_mem.mp hmem) id
  · exact List.mem_append.mpr (h.symm.imp_right List.mem_singleton.mpr)

/-- An engine is given its slot, or tested when it wakes. -/
def State.openSlot (s : State) (e : Nat) : State :=
  if s.isRetired e then s
  else if s.islOn e then (s.wantGold e true false).goldStart e
  else s.testOnWake e

theorem sameIslands_openSlot (s : State) (e : Nat) : SameIslands s (s.openSlot e) := by
  unfold State.openSlot
  split_ifs
  · exact ⟨rfl, rfl, rfl⟩
  · exact ⟨giveGold_keeps State.fttiT (fun _ => rfl) (fun _ _ => rfl) (fun _ _ => rfl) s e true false,
      giveGold_keeps State.retired (fun _ => rfl) (fun _ _ => rfl) (fun _ _ => rfl) s e true false,
      reg_giveGold s e true false (.inr (by decide)) (by decide)⟩
  · exact ⟨rfl, rfl, reg_of_regs rfl _⟩

theorem sameIslands_refreshHist (s : State) {a : Nat} (ha : a < 4) : SameIslands s (s.refreshHist a) := by
  refine ⟨put_fttiT _ _ _, put_retired _ _ _, (reg_put_ne _ (SAF_CHK_HIST_COUNT a) _ _ ?_).trans (reg_of_regs rfl _)⟩
  simp only [SAF_CHK_HIST_COUNT, SAF_CHK_HIST, PWR_STAT]
  omega

theorem slotGiven_openSlot {s : State} {e k : Nat} (h : (k = e ∧ s.isRetired e = false ∧ s.islOn e = true) ∨ s.slotGiven k) :
    (s.openSlot e).slotGiven k := by
  unfold State.openSlot
  split_ifs with hret hon
  · exact h.resolve_left fun ⟨_, hr, _⟩ => Bool.false_ne_true (hr.symm.trans hret)
  · exact slotGiven_goldStart e (slotGiven_wantGold false (h.imp_left And.left))
  · exact h.resolve_left fun ⟨_, _, ho⟩ => hon ho

theorem mem_wakeTest_openSlot {s : State} {e k : Nat}
    (h : (k = e ∧ s.isRetired e = false ∧ s.islOn e = false) ∨ k ∈ s.wakeTest) : k ∈ (s.openSlot e).wakeTest := by
  unfold State.openSlot
  split_ifs with hret hon
  · exact h.resolve_left fun ⟨_, hr, _⟩ => Bool.false_ne_true (hr.symm.trans hret)
  · rw [giveGold_keeps State.wakeTest (fun _ => rfl) (fun _ _ => rfl) (fun _ _ => rfl)]
    exact h.resolve_left fun ⟨_, _, ho⟩ => Bool.false_ne_true (ho.symm.trans hon)
  · exact mem_wakeTest_testOnWake (h.imp_left And.left)

/-- The times of a window that begins at Beacon time `w`. -/
def State.timeWindow (s : State) (w : Nat) : State := { s with fttiT := w, slotT := w, fttiFrom := 0, cycle := true }

theorem isRetired_timeWindow (s : State) (w e : Nat) : (s.timeWindow w).isRetired e = s.isRetired e := by
  unfold State.isRetired State.timeWindow
  rfl

theorem islOn_timeWindow (s : State) (w e : Nat) : (s.timeWindow w).islOn e = s.islOn e := by
  unfold State.islOn
  rw [get_of_reg (s := s) (t := s.timeWindow w) (f := PWR_STAT_GATED) (reg_of_regs rfl _)]

/-- The window at Beacon time `w`, before the rotation's step. -/
def State.windowBegun (s : State) (w : Nat) : State :=
  (List.range 8).foldl State.openSlot ((List.range 4).foldl State.refreshHist (s.timeWindow w))

/-- A boundary has come since the window's start. -/
def State.windowStarts (s : State) : Prop :=
  s.flag SAF_STATUS_SAFETY_READY = true ∧ s.fwRuns = true ∧ s.fttiT < s.fttiEdge ∧ s.fttiFrom ≤ s.fttiEdge

theorem fttiDue_iff (s : State) : s.fttiDue = true ↔ s.windowStarts := by
  simp only [State.fttiDue, State.windowStarts, Bool.and_eq_true, decide_eq_true_eq, and_assoc]

theorem exec_fttiWindowStart_waits {s : State} (h : ¬ s.windowStarts) : exec .fttiWindowStart s = .next s :=
  congrArg Host.Outcome.next (if_neg (mt (fttiDue_iff s).mp h))

theorem exec_fttiWindowStart_starts {s : State} (h : s.windowStarts) : exec .fttiWindowStart s =
    .next ((s.windowBegun s.fttiEdge).rotation (s.windowBegun s.fttiEdge).fttiWin).cycleEnd.settle :=
  congrArg Host.Outcome.next (if_pos ((fttiDue_iff s).mpr h))

theorem windowBegun_effect (s : State) (w : Nat) {e : Nat} (he : e < 8) : (s.windowBegun w).fttiT = w ∧
    (s.isRetired e = false → s.islOn e = true → (s.windowBegun w).slotGiven e) ∧
    (s.isRetired e = false → s.islOn e = false → e ∈ (s.windowBegun w).wakeTest) := by
  obtain ⟨r, hr⟩ : ∃ r, r = (List.range 4).foldl State.refreshHist (s.timeWindow w) := ⟨_, rfl⟩
  have hbegun : s.windowBegun w = (List.range 8).foldl State.openSlot r := by
    rw [hr, State.windowBegun]
  have hopened : SameIslands (s.timeWindow w) r :=
    hr ▸ SameIslands.foldl _ (fun t a ha => sameIslands_refreshHist t (List.mem_range.mp ha)) _
  have hret : r.isRetired e = s.isRetired e := (hopened.isRetired e).trans (isRetired_timeWindow s w e)
  have hon : r.islOn e = s.islOn e := (hopened.islOn e).trans (islOn_timeWindow s w e)
  have hsame (t : State) (b : Nat) (h : SameIslands r t) : SameIslands r (t.openSlot b) := h.trans (sameIslands_openSlot t b)
  rw [hbegun]
  refine ⟨?_, fun h0 h1 => ?_, fun h0 h1 => ?_⟩
  · exact (SameIslands.foldl (List.range 8) (fun t b _ => sameIslands_openSlot t b) r).1.trans hopened.1
  · refine foldl_establishes (SameIslands r) (fun t => t.slotGiven e) State.openSlot e _ (List.mem_range.mpr he)
      (fun t b _ => hsame t b) (fun t ht => slotGiven_openSlot (.inl ⟨rfl, ?_, ?_⟩))
      (fun t b _ _ _ hp => slotGiven_openSlot (.inr hp)) r ⟨rfl, rfl, rfl⟩
    · exact (ht.isRetired e).trans (hret.trans h0)
    · exact (ht.islOn e).trans (hon.trans h1)
  · refine foldl_establishes (SameIslands r) (fun t => e ∈ t.wakeTest) State.openSlot e _ (List.mem_range.mpr he)
      (fun t b _ => hsame t b) (fun t ht => mem_wakeTest_openSlot (.inl ⟨rfl, ?_, ?_⟩))
      (fun t b _ _ _ hp => mem_wakeTest_openSlot (.inr hp)) r ⟨rfl, rfl, rfl⟩
    · exact (ht.isRetired e).trans (hret.trans h0)
    · exact (ht.islOn e).trans (hon.trans h1)

end Sys2Proof.Machine
end

section
/-!
SUPPORT. The end of golden tests (R414, R416), SAF_GOLDEN_RUN and SAF_INJECT (R434, R435), with the obligation on them and on the
Keeper pairs.
-/

namespace Sys2Proof.Machine

/-! ### The end of a run (R414, R416) -/

/-- One injected failure fewer is left for the engine (R435). -/
def State.injectionUsed (s : State) (e : Nat) : State :=
  { s with gtInject := mset (fun _ => 0) s.gtInject e (mget (fun _ => 0) s.gtInject e - 1) }

/-- RESULT, CLOCKS and WIN of a test that began at `c0` and ends in state `s`. -/
def State.noteTest (s u : State) (e c0 r : Nat) : State :=
  ((u.put (SAF_GT_STAT_RESULT e) r).put (SAF_GT_STAT_CLOCKS e) (satN 16 (s.islClocks e (s.c - c0)))).put
    (SAF_GT_STAT_WIN e) s.fttiWin

theorem goldOf_noteTest (s u : State) (e c0 r k : Nat) : (s.noteTest u e c0 r).goldOf k = u.goldOf k := by
  unfold State.noteTest State.goldOf
  rw [put_gold, put_gold, put_gold]

theorem noteTest_fields (s u : State) (e c0 : Nat) {r : Nat} (hr : r < 4) :
    (s.noteTest u e c0 r).get (SAF_GT_STAT_RESULT e) = r ∧
    (s.noteTest u e c0 r).get (SAF_GT_STAT_WIN e) = s.fttiWin % 2 ^ 32 := by
  refine ⟨?_, get_put _ (SAF_GT_STAT_WIN e) _ (by norm_num [SAF_GT_STAT_WIN])⟩
  refine (get_put_disjoint _ (SAF_GT_STAT_WIN e) (SAF_GT_STAT_RESULT e) _ ?_ ?_).trans
    ((get_put_disjoint _ (SAF_GT_STAT_CLOCKS e) (SAF_GT_STAT_RESULT e) _ ?_ ?_).trans
      (get_put_fits u (SAF_GT_STAT_RESULT e) r ?_ ?_))
  all_goals simp [SAF_GT_STAT_WIN, SAF_GT_STAT_CLOCKS, SAF_GT_STAT_RESULT, hr]

theorem exec_goldenTestEnd_none {s : State} {e : Nat} (ok : Bool) (h : s.goldOf e = none) :
    exec (.goldenTestEnd e ok) s = .next s := by
  show execGoldenTestEnd e ok s = _
  unfold State.goldOf at h
  unfold execGoldenTestEnd
  rw [h]

theorem exec_goldenTestEnd_stopping {s : State} {e : Nat} {g : Gold} (ok : Bool) (h : s.goldOf e = some g)
    (hl : g.live = false) : exec (.goldenTestEnd e ok) s = .next s := by
  show execGoldenTestEnd e ok s = _
  unfold State.goldOf at h
  unfold execGoldenTestEnd
  rw [h]
  dsimp only
  rw [hl]
  rfl

/-- The engine is retired for its failed test. -/
def State.testLost (s : State) (e : Nat) (g : Gold) (why : Nat) (inj : Bool) : State :=
  (((s.noteTest ((s.injectionUsed e).transient e) e g.startC 2).retireEngine e why inj).reqDone e true).cycleEnd.settle

/-- The test goes on with another run. -/
def State.runAgain (s : State) (e : Nat) (g : Gold) (inj : Bool) : State :=
  { (s.injectionUsed e).transient e with
    gold := mset (fun _ => none) s.gold e (some { g with runs := g.runs + 1, inj := inj }) }

/-- A run that failed: the test is over after ATTEMPTS of them, or after too many in a short time. -/
def State.runFailed (s : State) (e : Nat) (g : Gold) (inj : Bool) : State :=
  if s.get SAF_CTL_ATTEMPTS ≤ g.runs + 1 then s.testLost e g 2 inj
  else if ((s.injectionUsed e).transient e).rateHit e then s.testLost e g 3 inj
  else s.runAgain e g inj

/-- The state in which a passed test is told. -/
def State.testPassed (s : State) (e : Nat) (g : Gold) : State :=
  s.noteTest ((s.injectionUsed e).setGold e none) e g.startC 1

/-- A run that passed ends the test. -/
def State.runPassed (s : State) (e : Nat) (g : Gold) (inj : Bool) : State :=
  let b := (if g.runs ≠ 0 then (s.testPassed e g).safety 1 e 0 inj else s.testPassed e g).reqDone e false
  (if g.rerun then b.disagree e g.chkInj else b).cycleEnd.settle

theorem testPassed_effect (s : State) (e : Nat) (g : Gold) : (s.testPassed e g).goldOf e = none ∧
    (s.testPassed e g).get (SAF_GT_STAT_RESULT e) = 1 ∧ (s.testPassed e g).get (SAF_GT_STAT_WIN e) = s.fttiWin % 2 ^ 32 ∧
    (s.testPassed e g).mem = s.mem ∧ (s.testPassed e g).descs = s.descs := by
  obtain ⟨hresult, hwin⟩ := noteTest_fields s ((s.injectionUsed e).setGold e none) e g.startC (r := 1) (by decide)
  refine ⟨?_, hresult, hwin, ?_, ?_⟩
  · exact (goldOf_noteTest s _ e _ 1 e).trans ((goldOf_setGold _ e e none).trans (if_pos rfl))
  · unfold State.testPassed State.noteTest
    rw [put_mem, put_mem, put_mem]
    rfl
  · unfold State.testPassed State.noteTest
    rw [put_descs, put_descs, put_descs]
    rfl

theorem runFailed_attempts {s : State} {e : Nat} {g : Gold} (inj : Bool) (h : s.get SAF_CTL_ATTEMPTS ≤ g.runs + 1) :
    s.runFailed e g inj = s.testLost e g 2 inj := if_pos h

theorem runFailed_often {s : State} {e : Nat} {g : Gold} (inj : Bool) (h : g.runs + 1 < s.get SAF_CTL_ATTEMPTS)
    (hrate : ((s.injectionUsed e).transient e).rateHit e = true) : s.runFailed e g inj = s.testLost e g 3 inj :=
  (if_neg (Nat.not_le.mpr h)).trans (if_pos hrate)

theorem runFailed_again {s : State} {e : Nat} {g : Gold} (inj : Bool) (h : g.runs + 1 < s.get SAF_CTL_ATTEMPTS)
    (hrate : ((s.injectionUsed e).transient e).rateHit e = false) : s.runFailed e g inj = s.runAgain e g inj :=
  (if_neg (Nat.not_le.mpr h)).trans (if_neg (by rw [hrate]; exact Bool.false_ne_true))

theorem exec_goldenTestEnd_live {s : State} {e : Nat} {g : Gold} (ok : Bool) (h : s.goldOf e = some g) (hl : g.live = true) :
    exec (.goldenTestEnd e ok) s = .next (
      if (ok && mget (fun _ => 0) s.gtInject e == 0) = true then s.runPassed e g (g.inj || mget (fun _ => 0) s.gtInject e != 0)
      else s.runFailed e g (g.inj || mget (fun _ => 0) s.gtInject e != 0)) := by
  show execGoldenTestEnd e ok s = _
  unfold State.goldOf at h
  unfold execGoldenTestEnd
  rw [h]
  dsimp only
  rw [if_neg (by rw [hl]; exact Bool.false_ne_true)]
  cases hok : ok && mget (fun _ => 0) s.gtInject e == 0
  · simp only [Bool.false_eq_true, if_false]
    exact congrArg Host.Outcome.next (if_congr Iff.rfl rfl (if_congr Iff.rfl rfl rfl))
  · simp only [if_true]
    rfl

theorem exec_goldenTestEnd_passes {s : State} {e : Nat} {g : Gold} (h : s.goldOf e = some g) (hl : g.live = true)
    (hk : mget (fun _ => 0) s.gtInject e = 0) : exec (.goldenTestEnd e true) s = .next (s.runPassed e g g.inj) := by
  rw [exec_goldenTestEnd_live true h hl, hk]
  simp

theorem exec_goldenTestEnd_fails {s : State} {e : Nat} {g : Gold} {ok : Bool} (h : s.goldOf e = some g) (hl : g.live = true)
    (hbad : ok = false ∨ mget (fun _ => 0) s.gtInject e ≠ 0) :
    exec (.goldenTestEnd e ok) s = .next (s.runFailed e g (g.inj || mget (fun _ => 0) s.gtInject e != 0)) := by
  rw [exec_goldenTestEnd_live ok h hl, if_neg]
  rw [Bool.and_eq_true, beq_iff_eq]
  rintro ⟨hok, hk⟩
  exact hbad.elim (fun h => Bool.false_ne_true (h.symm.trans hok)) fun h => h hk

/-! ### A slot that ends before its test (R414) -/

/-- Length of the engine's slot in us. -/
def State.slotUs (s : State) (e : Nat) : Nat := if e < 4 then s.getA SAF_CFG_ARR_SLOT_US else s.getA SAF_CFG_VCL_SLOT_US

/-- The test abandoned, with its event. -/
def State.testAbandoned (s : State) (e : Nat) (g : Gold) : State :=
  (s.noteTest (s.setGold e none) e g.startC 3).safety 5 e 0 false

theorem exec_goldenSlotEnd_none {s : State} {e : Nat} (h : s.goldOf e = none) : exec (.goldenSlotEnd e) s = .next s := by
  show execGoldenSlotEnd e s = _
  unfold State.goldOf at h
  unfold execGoldenSlotEnd
  rw [h]

theorem exec_goldenSlotEnd {s : State} {e : Nat} {g : Gold} (h : s.goldOf e = some g) : exec (.goldenSlotEnd e) s = .next (
    if (!g.slot || decide (s.beacon < s.slotT + s.slotUs e * 1000)) = true then s
    else let u := s.testAbandoned e g
      ((if g.rerun then (u.wantGold e false true).goldStart e else u).reqDone e false).cycleEnd.settle) := by
  show execGoldenSlotEnd e s = _
  unfold State.goldOf at h
  unfold execGoldenSlotEnd
  rw [h]
  rfl

theorem exec_goldenSlotEnd_waits {s : State} {e : Nat} {g : Gold} (h : s.goldOf e = some g)
    (hw : g.slot = false ∨ s.beacon < s.slotT + s.slotUs e * 1000) : exec (.goldenSlotEnd e) s = .next s := by
  rw [exec_goldenSlotEnd h, if_pos]
  rcases hw with hw | hw <;> simp [hw]

theorem exec_goldenSlotEnd_over {s : State} {e : Nat} {g : Gold} (h : s.goldOf e = some g) (hslot : g.slot = true)
    (hover : s.slotT + s.slotUs e * 1000 ≤ s.beacon) : exec (.goldenSlotEnd e) s = .next (
      ((if g.rerun then ((s.testAbandoned e g).wantGold e false true).goldStart e else s.testAbandoned e g).reqDone e
        false).cycleEnd.settle) := by
  rw [exec_goldenSlotEnd h, if_neg]
  simp [hslot, hover]

theorem testAbandoned_effect (s : State) (e : Nat) (g : Gold) (he : e < 8) :
    (s.testAbandoned e g).get (SAF_GT_STAT_RESULT e) = 3 ∧ (s.testAbandoned e g).goldOf e = none := by
  refine ⟨?_, ?_⟩
  · refine (get_of_reg (reg_safety_ne _ e 0 false (.inl ?_) ?_)).trans (noteTest_fields s _ e _ (by decide)).1
    · simp only [SAF_GT_STAT_RESULT, SAF_GT_STAT]
      omega
    · simp only [safetyRegs, SAF_GT_STAT_RESULT, SAF_GT_STAT, SAF_CNT, SAF_EVT, SAF_EVT_LOG0, SAF_EVT_LOG1, SAF_STATUS,
        SAF_FIRST_LOG0, SAF_FIRST_LOG1, List.mem_cons, List.not_mem_nil, or_false]
      omega
  · have hsafety := keeps_of_still (fun u => u.goldOf e) (fun _ => rfl)
      (still_safety (s.noteTest (s.setGold e none) e g.startC 3) 5 e 0 false)
    have hnote : (s.noteTest (s.setGold e none) e g.startC 3).goldOf e = (s.setGold e none).goldOf e :=
      goldOf_noteTest s _ e _ 3 e
    exact hsafety.trans (hnote.trans ((goldOf_setGold s e e none).trans (if_pos rfl)))

/-! ### SAF_GOLDEN_RUN and SAF_INJECT (R434, R435) -/

/-- The engines that a SAF_GOLDEN_RUN tests. -/
def State.testsNamed (s : State) (d : Desc) : List Nat := (maskBits 8 (d.u 16 1)).filter (fun e => !s.isRetired e)

/-- The tests noted as the descriptor's own. -/
def State.testsAsked (s : State) (i : Nat) (d : Desc) : State :=
  { s.updDesc i (fun x => { x with step := 1 }) with
    gtReq := s.gtReq ++ [(i, (s.testsNamed d).foldl (fun m e => m + 2 ^ e) 0, 0)] }

theorem exec_safGoldenRun {s : State} {i : Nat} {d : Desc} (hd : s.desc? i = some d) (hr : d.runnable 0xE8 = true) :
    exec (.safGoldenRun i) s = .next (if (d.step != 0) = true then s else if s.qFn d.q ≠ 0 then s.endPart i 36 0xCD 0 else
      let u := (s.testsNamed d).foldl (fun s e => (s.wantGold e false false).goldStart e) (s.testsAsked i d)
      if (s.testsNamed d).isEmpty then (u.reqDone 0 false).settle else u) := by
  show execSafGoldenRun i s = _
  unfold execSafGoldenRun
  rw [hd]
  dsimp only
  rw [hr]
  rfl

theorem exec_safGoldenRun_denied {s : State} {i : Nat} {d : Desc} (hd : s.desc? i = some d) (hr : d.runnable 0xE8 = true)
    (h0 : d.step = 0) (hfn : s.qFn d.q ≠ 0) : exec (.safGoldenRun i) s = .next (s.endPart i 36 0xCD 0) := by
  rw [exec_safGoldenRun hd hr, h0, if_neg (by decide), if_pos hfn]

theorem exec_safGoldenRun_running {s : State} {i : Nat} {d : Desc} (hd : s.desc? i = some d) (hr : d.runnable 0xE8 = true)
    (h0 : d.step ≠ 0) : exec (.safGoldenRun i) s = .next s := by
  rw [exec_safGoldenRun hd hr, if_pos (bne_iff_ne.mpr h0)]

theorem exec_safGoldenRun_tests {s : State} {i : Nat} {d : Desc} (hd : s.desc? i = some d) (hr : d.runnable 0xE8 = true)
    (h0 : d.step = 0) (hfn : s.qFn d.q = 0) : exec (.safGoldenRun i) s = .next (if s.testsNamed d = [] then
      ((s.testsAsked i d).reqDone 0 false).settle
      else (s.testsNamed d).foldl (fun s e => (s.wantGold e false false).goldStart e) (s.testsAsked i d)) := by
  rw [exec_safGoldenRun hd hr, h0, if_neg (by decide), if_neg (not_not.mpr hfn)]
  by_cases h : s.testsNamed d = []
  · simp only [h, List.isEmpty_nil, List.foldl_nil, if_true]
  · simp only [h, List.isEmpty_iff, if_false]

theorem workSafInject_denied {s : State} {d : Desc} (h : s.qFn d.q ≠ 0 ∨ s.flag SAF_CTL_INJECT_EN = false) :
    (workSafInject d).run.run s = (.error (.fail 0xCD 0), s) := by
  unfold workSafInject
  rw [eng_get, if_pos]
  · rfl
  · rcases h with h | h <;> simp [h]

/-- Injections are allowed to the descriptor. -/
def State.injects (s : State) (d : Desc) : Prop := s.qFn d.q = 0 ∧ s.flag SAF_CTL_INJECT_EN = true

theorem injects_not_denied {s : State} {d : Desc} (h : s.injects d) :
    ¬ (decide (s.qFn d.q ≠ 0) || !s.flag SAF_CTL_INJECT_EN) = true := by
  simp [h.1, h.2]

theorem workSafInject_checksum {s : State} {d : Desc} (h : s.injects d) (hk : injKind d = 0) : (workSafInject d).run.run s =
    (.ok (0, 0), { s with chkInject := mset (fun _ => 0) s.chkInject (injTarget d) (injCount d) }) := by
  unfold workSafInject
  rw [eng_get, if_neg (injects_not_denied h), hk]
  rfl

theorem workSafInject_crash {s : State} {d : Desc} (h : s.injects d) (hk : injKind d = 3) : (workSafInject d).run.run s =
    (.ok (0, 0), s.crashPair (injTarget d) 0 true) := by
  unfold workSafInject
  rw [eng_get, if_neg (injects_not_denied h), hk]
  rfl

theorem workSafInject_golden {s : State} {d : Desc} (h : s.injects d) (hk : injKind d = 4) : (workSafInject d).run.run s =
    (.ok (0, 0), { s with gtInject := mset (fun _ => 0) s.gtInject (injTarget d) (injCount d) }) := by
  unfold workSafInject
  rw [eng_get, if_neg (injects_not_denied h), hk]
  rfl

/-- An error of one or two bits in a local codeword. -/
theorem workSafInject_codeword {s : State} {d : Desc} (h : s.injects d) (hk : injKind d = 1 ∨ injKind d = 2)
    (hhost : spaceOf d.a24 ≠ .host) (hpeer : ∀ p, spaceOf d.a24 ≠ .peer p) (hmap : s.addrError d.a24 32 = none) :
    (workSafInject d).run.run s = (.ok (0, 0), s.setEcc (d.a24 / 32) (some (injectedErr (injKind d + 1)))) := by
  unfold workSafInject
  rw [eng_get, if_neg (injects_not_denied h), hmap]
  obtain ⟨x, hx⟩ : ∃ x, spaceOf d.a24 = x := ⟨_, rfl⟩
  rw [hx] at hhost hpeer ⊢
  rcases hk with hk | hk <;> rw [hk] <;> cases x with
    | host => exact absurd rfl hhost
    | peer n => exact absurd rfl (hpeer n)
    | spd => rfl
    | acc n => rfl
    | dram => rfl
    | hole => rfl

/-! ### The obligation -/

/-- Settles O34: a window's start is a fold over engines that do not touch each other's tests; a run, a slot and a crash end
in one of a few ways; and the owner of a block changes by `setOwner` alone. -/
theorem goldenTestsAndBlockOwnership : Obligations.GoldenTestsAndBlockOwnership := by
  refine ⟨fun e s he => ⟨fun h => ?_, fun h => ?_, fun hnone => ?_, fun g hg => ?_, fun i d hd => ?_⟩, fun p s hp => ?_⟩
  · exact exec_fttiWindowStart_waits h
  · obtain ⟨htime, hslot, hwake⟩ := windowBegun_effect s s.fttiEdge he
    exact ⟨exec_fttiWindowStart_starts h, htime, hslot, hwake⟩
  · exact ⟨fun ok => exec_goldenTestEnd_none ok hnone, exec_goldenSlotEnd_none hnone⟩
  · refine ⟨fun ok hl => exec_goldenTestEnd_stopping ok hg hl,
      fun hl hk => ⟨exec_goldenTestEnd_passes hg hl hk, testPassed_effect s e g⟩, fun ok hl hbad => ?_,
      exec_goldenSlotEnd_waits hg, fun hslot hover => ⟨exec_goldenSlotEnd_over hg hslot hover, testAbandoned_effect s e g he⟩⟩
    have hfails := exec_goldenTestEnd_fails hg hl hbad
    exact ⟨fun h => hfails.trans (congrArg _ (runFailed_attempts _ h)),
      fun h hrate => hfails.trans (congrArg _ (runFailed_often _ h hrate)),
      fun h hrate => hfails.trans (congrArg _ (runFailed_again _ h hrate))⟩
  · have hinject (u : State) (hr : d.runnable 0xE9 = true) (hw : (workSafInject d).run.run s = (.ok (0, 0), u)) :
        exec (.safInject i) s = .next (u.endPart i 36 0 0) := congrArg Host.Outcome.next (ownWork_done 36 hd hr hw)
    refine ⟨exec_safGoldenRun_denied hd, exec_safGoldenRun_running hd, exec_safGoldenRun_tests hd,
      fun hr h => congrArg Host.Outcome.next (ownWork_failed 36 hd hr (workSafInject_denied h)), fun hr hfn hen => ?_⟩
    have hallowed : s.injects d := ⟨hfn, hen⟩
    exact ⟨fun hk => hinject _ hr (workSafInject_checksum hallowed hk),
      fun hk => hinject _ hr (workSafInject_crash hallowed hk),
      fun hk => hinject _ hr (workSafInject_golden hallowed hk),
      fun hk hhost hpeer hmap => hinject _ hr (workSafInject_codeword hallowed hk hhost hpeer hmap)⟩
  · refine ⟨fun h => ?_, fun h => ?_, fun q c i hq hlt _ => takeover_effect c i hq hp hlt, fun ok h => ?_, fun hd h => ?_,
      fun b hb => ?_⟩
    · exact ⟨congrArg Host.Outcome.next (crashPair_offline 0 false h), congrArg Host.Outcome.next (crashPair_offline 1 false h),
        congrArg Host.Outcome.next (crashPair_offline 2 false h)⟩
    · refine ⟨congrArg Host.Outcome.next (crashPair_other false h (by decide)),
        congrArg Host.Outcome.next (crashPair_other false h (by decide)),
        congrArg Host.Outcome.next (crashPair_lockstep false h), fun m => ?_⟩
      obtain ⟨hst, hrestarts⟩ := pairDown_pair s p m
      exact ⟨hst, hrestarts, pairDown_others s m hp⟩
    · exact exec_pairOnline_ignored ok h
    · obtain ⟨hheld, hjoins⟩ := exec_pairOnline_checked hd h
      exact ⟨hheld, hjoins, pairUp_effect s hp⟩
    · exact ⟨exec_blockMove_stays, fun hst hspread hown hfree =>
        ⟨exec_blockMove_moves hst hspread hown hfree, blockMoved_effect s hb hp⟩⟩

end Sys2Proof.Machine
end

section
/-!
SUPPORT. The host mailbox of Lantern (R444, R445): the block's registers, the response buffer, what an answer leaves, GO, and
the commands in the clear.
-/

namespace Sys2Proof.Machine

/-! ### The registers of the mailbox -/

theorem blockTable_lnt {off : Nat} (h : 0xF00000 ≤ off) (h' : off < 0x1000000) : blockTable off = regsLNT := by
  have h15 : off / 0x100000 = 15 := by omega
  rw [blockTable_block, h15]
  rfl

theorem fieldsAt_mbCtl : fieldsAt LNT_MB_CTL = [⟨0, 1, .wo, 0, .any⟩, ⟨1, 1, .ro, 0, .any⟩, ⟨2, 1, .w1c, 0, .any⟩,
    ⟨3, 1, .rw, 0, .any⟩, ⟨4, 16, .rw, 0, .any⟩, ⟨20, 11, .rw, 0, .any⟩] := by decide +kernel

theorem openFields_mbCtl : openFields LNT_MB_CTL = true := by
  unfold openFields
  rw [fieldsAt_mbCtl]
  rfl

/-- A word of the response buffer that nothing has written reads as zero. -/
theorem regReset_mbRsp {i : Nat} (h : i < 2048) : regReset (LNT_MB_RSP i) = 0 := by
  have hreg : regAt (LNT_MB_RSP i) =
      some (⟨"LNT_MB_RSP", 0xF04000, 2048, 8, 1, 0, 64, .none, false, [⟨0, 64, .ro, 0, .any⟩]⟩, LNT_MB_RSP i) := by
    unfold regAt LNT_MB_RSP
    rw [blockTable_lnt (by omega) (by omega)]
    simp (disch := omega) [regsLNT, regAt.go, RegSpec.within, if_neg, if_pos]
  have hindex : resetByIndex (LNT_MB_RSP i) = 0 := by
    unfold resetByIndex LNT_MB_RSP QOS_PART QOS_PORT_CTL VIRT_FN_W3
    rw [if_neg (by omega), if_neg (by omega), if_neg (by omega)]
  unfold regReset
  rw [hreg]
  simp [hindex]

theorem mbRsp_ne {i j : Nat} (h : i ≠ j) : LNT_MB_RSP i ≠ LNT_MB_RSP j := by
  unfold LNT_MB_RSP
  omega

/-- What a request holds depends on the request buffer alone. -/
theorem mbReq_congr {s t : State} (h : ∀ i, t.reg (LNT_MB_REQ i) = s.reg (LNT_MB_REQ i)) (o n : Nat) :
    t.mbReq o n = s.mbReq o n := by
  simp only [State.mbReq, h]

/-! ### The response buffer -/

/-- The words of a response written in turn. -/
def State.rspWords (s : State) (bs : List Byte) (n : Nat) : State :=
  (List.range n).foldl (fun s i => s.setReg (LNT_MB_RSP i) (BitVec.ofNat 64 (leNat (bytesAt bs (8 * i) 8)))) s

/-- The response buffer cleared. -/
def State.rspCleared (s : State) : State := { s with regs := mclear (LNT_MB_RSP 0) (LNT_MB_RSP 2048) s.regs }

theorem mbWrite_eq_rspWords (s : State) (bs : List Byte) : s.mbWrite bs = s.rspCleared.rspWords bs (cdiv bs.length 8) := rfl

theorem reg_rspCleared (s : State) (b : Nat) :
    s.rspCleared.reg b = if LNT_MB_RSP 0 ≤ b ∧ b < LNT_MB_RSP 2048 then regReset b else s.reg b :=
  mget_mclear regReset _ _ s.regs b

theorem reg_rspWords (s : State) (bs : List Byte) (n i : Nat) : (s.rspWords bs n).reg (LNT_MB_RSP i) =
    if i < n then BitVec.ofNat 64 (leNat (bytesAt bs (8 * i) 8)) else s.reg (LNT_MB_RSP i) := by
  induction n with
  | zero => rfl
  | succ n ih =>
    have hstep : s.rspWords bs (n + 1) =
        (s.rspWords bs n).setReg (LNT_MB_RSP n) (BitVec.ofNat 64 (leNat (bytesAt bs (8 * n) 8))) := by
      simp only [State.rspWords, List.range_succ, List.foldl_append, List.foldl_cons, List.foldl_nil]
    rw [hstep, reg_setReg]
    by_cases h : i = n
    · subst h
      rw [if_pos rfl, if_pos (Nat.lt_succ_self i)]
    · rw [if_neg (mbRsp_ne h), ih]
      exact if_congr (by omega) rfl rfl

theorem reg_rspWords_ne (s : State) (bs : List Byte) {n b : Nat} (h : ∀ i < n, b ≠ LNT_MB_RSP i) :
    (s.rspWords bs n).reg b = s.reg b :=
  reg_foldl _ b _ (fun t i hi => (reg_setReg t _ b _).trans (if_neg (h i (List.mem_range.mp hi)))) s

theorem mbWrite_only_regs (s : State) (bs : List Byte) : s.mbWrite bs = { s with regs := (s.mbWrite bs).regs } :=
  List.foldlRecOn (List.range (cdiv bs.length 8)) _ (motive := fun t : State => t = { s with regs := t.regs }) rfl
    fun _ ht i _ => congrArg (fun u : State =>
      u.setReg (LNT_MB_RSP i) (BitVec.ofNat 64 (leNat (bytesAt bs (8 * i) 8)))) ht

theorem words_le {bs : List Byte} (h : bs.length ≤ 16384) : cdiv bs.length 8 ≤ 2048 := by
  unfold cdiv
  omega

/-- The buffer holds the response, and zeros after it. -/
theorem reg_mbWrite_rsp (s : State) (bs : List Byte) {i : Nat} (hi : i < 2048) :
    (s.mbWrite bs).reg (LNT_MB_RSP i) = BitVec.ofNat 64 (leNat (bytesAt bs (8 * i) 8)) := by
  rw [mbWrite_eq_rspWords, reg_rspWords, reg_rspCleared, if_pos (show _ ∧ _ by unfold LNT_MB_RSP; omega), regReset_mbRsp hi]
  split_ifs with h
  · rfl
  · have hpast : bs.length ≤ 8 * i := by
      unfold cdiv at h
      omega
    unfold bytesAt
    rw [List.drop_eq_nil_of_le hpast]
    rfl

theorem reg_mbWrite_ne (s : State) {bs : List Byte} (h : bs.length ≤ 16384) {b : Nat} (hb : b < 0xF04000 ∨ 0xF08000 ≤ b) :
    (s.mbWrite bs).reg b = s.reg b := by
  have hw := words_le h
  rw [mbWrite_eq_rspWords, reg_rspWords_ne _ _ fun i hi => by unfold LNT_MB_RSP; omega, reg_rspCleared, if_neg]
  unfold LNT_MB_RSP
  omega

/-! ### An answer (R445) -/

/-- The request has ended: its response stands in the buffer, BUSY is clear and DONE set. -/
def State.mbEnded (s : State) (bs : List Byte) : State :=
  let u := (s.mbWrite bs).put LNT_MB_CTL_BUSY 0
  { u with lnt := { u.lnt with wait := none } }.put LNT_MB_CTL_DONE 1

theorem mbDone_eq_pfIrq (s : State) (bs : List Byte) :
    s.mbDone bs = (s.mbEnded bs).pfIrq LNT_MB_CTL_VECTOR LNT_MB_CTL_IRQ_EN := rfl

theorem reg_mbDone_ne (s : State) (bs : List Byte) {b : Nat} (h : b ≠ LNT_MB_CTL) :
    (s.mbDone bs).reg b = (s.mbWrite bs).reg b := by
  rw [mbDone_eq_pfIrq, reg_pfIrq]
  exact (reg_put_ne _ LNT_MB_CTL_DONE 1 b h).trans (reg_put_ne (s.mbWrite bs) LNT_MB_CTL_BUSY 0 b h)

theorem mbDone_fields (s : State) (bs : List Byte) :
    (s.mbDone bs).get LNT_MB_CTL_BUSY = 0 ∧ (s.mbDone bs).get LNT_MB_CTL_DONE = 1 := by
  rw [mbDone_eq_pfIrq, get_pfIrq, get_pfIrq]
  refine ⟨?_, get_put_fits _ LNT_MB_CTL_DONE 1 (by decide) (by decide)⟩
  exact (get_put_disjoint _ LNT_MB_CTL_DONE LNT_MB_CTL_BUSY 1 (by decide) (by decide)).trans
    (get_put_fits (s.mbWrite bs) LNT_MB_CTL_BUSY 0 (by decide) (by decide))

theorem mbEnded_eq (s : State) (bs : List Byte) :
    s.mbEnded bs = { s with regs := (s.mbEnded bs).regs, lnt := { s.lnt with wait := none } } := by
  obtain ⟨r, hr⟩ : ∃ r, s.mbWrite bs = { s with regs := r } := ⟨_, mbWrite_only_regs s bs⟩
  unfold State.mbEnded
  rw [hr]
  rfl

/-- An answer changes registers, the request that waited, and what the message to the PF puts out. -/
theorem mbDone_eq (s : State) (bs : List Byte) :
    s.mbDone bs = { s with regs := (s.mbDone bs).regs, lnt := { s.lnt with wait := none }, out := (s.mbDone bs).out,
                           pcie := (s.mbDone bs).pcie } := by
  have hend := mbEnded_eq s bs
  rw [mbDone_eq_pfIrq, pfIrq_regs]
  generalize s.mbEnded bs = x at hend
  exact (pfIrq_eq x _ _).trans (congrArg (fun y : State => { y with
    out := (x.pfIrq LNT_MB_CTL_VECTOR LNT_MB_CTL_IRQ_EN).out
    pcie := (x.pfIrq LNT_MB_CTL_VECTOR LNT_MB_CTL_IRQ_EN).pcie }) hend)

/-- What an answer in the clear leaves. -/
theorem mbPlain_effect (s : State) (k : Nat) {body : List Byte} (h : body.length ≤ 16376) :
    (s.mbPlain k body).get LNT_MB_CTL_BUSY = 0 ∧ (s.mbPlain k body).get LNT_MB_CTL_DONE = 1 ∧
    (s.mbPlain k body).lnt = { s.lnt with wait := none } ∧
    (∀ i, i < 2048 → (s.mbPlain k body).reg (LNT_MB_RSP i) =
      BitVec.ofNat 64 (leNat (bytesAt (leBytes 2 k ++ leBytes 2 body.length ++ leBytes 4 s.lnt.goSeq ++ body) (8 * i) 8))) ∧
    s.mbPlain k body = { s with regs := (s.mbPlain k body).regs, lnt := (s.mbPlain k body).lnt,
                                out := (s.mbPlain k body).out, pcie := (s.mbPlain k body).pcie } ∧
    ∀ b, b ≠ LNT_MB_CTL → (b < 0xF04000 ∨ 0xF08000 ≤ b) → (s.mbPlain k body).reg b = s.reg b := by
  have hlen : (s.mbHead k body.length ++ body).length ≤ 16384 := by
    simp only [State.mbHead, List.length_append, length_leBytes]
    omega
  have heq := mbDone_eq s (s.mbHead k body.length ++ body)
  have hlnt : (s.mbPlain k body).lnt = { s.lnt with wait := none } := (congrArg State.lnt heq :)
  obtain ⟨hbusy, hdone⟩ := mbDone_fields s (s.mbHead k body.length ++ body)
  refine ⟨hbusy, hdone, hlnt, fun i hi => ?_, hlnt.symm ▸ heq, fun b hb hout => ?_⟩
  · exact (reg_mbDone_ne s _ (by unfold LNT_MB_RSP LNT_MB_CTL; omega)).trans (reg_mbWrite_rsp s _ hi)
  · exact (reg_mbDone_ne s _ hb).trans (reg_mbWrite_ne s hlen hout)

/-! ### GO (R444) -/

theorem exec_mailboxGo {rq : Requester} {s : State} (v : Word32) (h : s.opens rq LNT_MB_CTL = true) :
    exec (.mailboxGo rq v) s = .next (s.writeMbCtl rq v.toNat mask32) :=
  congrArg Host.Outcome.next (guarded_eq s rq LNT_MB_CTL _ h openFields_mbCtl)

/-- The request has begun: SEQ is latched and BUSY set. -/
def State.mbBegun (s : State) (v : Nat) : State :=
  let w := s.plainWrite LNT_MB_CTL v mask32
  { w with lnt := { w.lnt with goSeq := w.get LNT_MB_CTL_SEQ, wait := none } }.put LNT_MB_CTL_BUSY 1

theorem reg_withLnt (s : State) (x : LntSt) (b : Nat) : ({ s with lnt := x } : State).reg b = s.reg b := reg_of_regs rfl b

theorem reg_mbBegun_ne (s : State) (v : Nat) {b : Nat} (h : b ≠ LNT_MB_CTL) : (s.mbBegun v).reg b = s.reg b := by
  unfold State.mbBegun
  rw [reg_put_ne _ LNT_MB_CTL_BUSY 1 b h, reg_withLnt, reg_plainWrite_ne s LNT_MB_CTL v mask32 b h]

theorem mbCmd_mbBegun (s : State) (v : Nat) : (s.mbBegun v).mbCmd = s.mbCmd :=
  congrArg leNat (mbReq_congr (fun i => reg_mbBegun_ne s v (by unfold LNT_MB_REQ LNT_MB_CTL; omega)) 0 2)

theorem ready_plainWrite_mbCtl (s : State) (n m : Nat) :
    (s.plainWrite LNT_MB_CTL n m).flag LNT_INFO_READY = s.flag LNT_INFO_READY := by
  unfold State.flag
  rw [get_plainWrite_ne s LNT_MB_CTL n m LNT_INFO_READY (by decide)]

/-- A word with GO: refused while BUSY, without a request before READY; a CMD that no row serves is answered at once. -/
theorem writeMbCtl_go (s : State) (rq : Requester) {v : Word32} (hgo : bitOf v.toNat 0 = true) :
    s.writeMbCtl rq v.toNat mask32 =
      if s.flag LNT_MB_CTL_BUSY = true then s.secEvent LNT_MB_CTL rq 2 0x3F
      else if s.flag LNT_INFO_READY = false then s.plainWrite LNT_MB_CTL v.toNat mask32
      else if mbLenOf s.mbCmd = none then
        (s.mbBegun v.toNat).mbPlain ((s.mbBegun v.toNat).mbCheck (s.mbBegun v.toNat).mbCmd) []
      else s.mbBegun v.toNat := by
  unfold State.writeMbCtl
  rw [land_mask32, hgo]
  refine if_congr (by rw [Bool.true_and]) rfl (if_congr ?_ rfl (if_congr ?_ rfl rfl))
  · rw [ready_plainWrite_mbCtl]
    simp
  · rw [← mbCmd_mbBegun s v.toNat]
    exact Option.isNone_iff_eq_none

theorem seq_plainWrite_mbCtl (s : State) (v : Nat) :
    (s.plainWrite LNT_MB_CTL v mask32).get LNT_MB_CTL_SEQ = bitsOf v 4 16 := by
  unfold State.plainWrite
  rw [fieldsAt_mbCtl]
  refine (get_setReg s LNT_MB_CTL_SEQ _ (by decide)).trans ?_
  exact bitsOf_writeFields_rw (f := ⟨4, 16, .rw, 0, .any⟩) _ v mask32 (by decide) (by decide) rfl (by decide)

theorem mbBegun_effect (s : State) (v : Nat) : (s.mbBegun v).get LNT_MB_CTL_BUSY = 1 ∧
    (s.mbBegun v).lnt = { s.lnt with goSeq := bitsOf v 4 16, wait := none } ∧
    s.mbBegun v = { s with regs := (s.mbBegun v).regs, lnt := (s.mbBegun v).lnt } ∧
    ∀ b, b ≠ LNT_MB_CTL → (s.mbBegun v).reg b = s.reg b := by
  have hseq := seq_plainWrite_mbCtl s v
  obtain ⟨hplain, -⟩ := onlyRegs_plainWrite s LNT_MB_CTL v mask32
  refine ⟨get_put_fits _ LNT_MB_CTL_BUSY 1 (by decide) (by decide), ?_, ?_, fun b => reg_mbBegun_ne s v⟩
  · unfold State.mbBegun
    rw [put_lnt, hseq, hplain]
  · unfold State.mbBegun
    rw [put_lnt]
    generalize s.plainWrite LNT_MB_CTL v mask32 = w at hplain
    rw [hplain]
    rfl

/-! ### Commands in the clear (R447, R466) -/

theorem mbServe_mbCheck (s : State) (cmd : Nat) : s.mbServe.mbCheck cmd = s.mbCheck cmd := rfl

section
variable {s : State} {cmd : Nat} (act : State → List Byte → State × List Byte)

theorem mbClear_idle (h : s.mbIs cmd = false) : s.mbClear cmd act = s := by
  unfold State.mbClear
  rw [h]
  rfl

theorem mbClear_refused (h : s.mbIs cmd = true) (hc : s.mbCheck cmd ≠ 0) :
    s.mbClear cmd act = s.mbServe.mbPlain (s.mbCheck cmd) [] := by
  obtain ⟨n, hn⟩ := Nat.exists_eq_succ_of_ne_zero hc
  unfold State.mbClear
  simp only [h, mbServe_mbCheck, hn]
  rfl

theorem mbClear_acts (h : s.mbIs cmd = true) (hc : s.mbCheck cmd = 0) : s.mbClear cmd act =
    (act s.mbServe (s.mbReq 16 s.mbLen)).1.mbPlain 0 (act s.mbServe (s.mbReq 16 s.mbLen)).2 := by
  unfold State.mbClear
  simp only [h, mbServe_mbCheck, hc]
  rfl

end

/-- The commands that need no tag. -/
def clearCommands : List (Instr × Nat) := [(.getInfo, 0x01), (.getCert, 0x02), (.daymark, 0x03), (.provision, 0x20)]

theorem exec_clearCommand {k : Instr × Nat} (hk : k ∈ clearCommands) (s : State) :
    ∃ act, exec k.1 s = .next (s.mbClear k.2 act) := by
  simp only [clearCommands, List.mem_cons, List.not_mem_nil, or_false] at hk
  rcases hk with rfl | rfl | rfl | rfl
  · exact ⟨_, rfl⟩
  · exact ⟨_, rfl⟩
  · exact ⟨_, rfl⟩
  · exact ⟨_, rfl⟩

/-! ### The Daymark report (R466) -/

theorem length_fitTo (n : Nat) (bs : List Byte) : (fitTo n bs).length = n := by
  simp [fitTo]

/-- What fits at the front stays. -/
theorem fitTo_append (n : Nat) (a b : List Byte) :
    fitTo (a.length + n) (a ++ b) = a ++ (b ++ List.replicate (a.length + n) 0).take n := by
  unfold fitTo
  rw [List.append_assoc, List.take_length_add_append]

/-- The report begins with its magic and version, its length and the Beacon time. -/
def daymarkStart (t : Nat) : List Byte := leBytes 4 (0x444D + 0x10000) ++ leBytes 4 12368 ++ leBytes 8 t

theorem length_daymarkStart (t : Nat) : (daymarkStart t).length = 16 := by
  simp only [daymarkStart, List.length_append, length_leBytes]

theorem daymarkBody_start (s : State) (nonce sig : List Byte) :
    ∃ rest, s.daymarkBody nonce sig = daymarkStart s.beacon ++ rest := by
  unfold State.daymarkBody daymarkStart
  simp only [List.append_assoc]
  exact ⟨_, rfl⟩

theorem daymark_report (s : State) (nonce : List Byte) : ∃ sig last,
    (s.daymark nonce).2 = fitTo 12368 (((s.draw 32).1.draw 32).1.daymarkBody nonce sig ++ last) := by
  simp only [State.daymark, State.draw]
  exact ⟨_, _, rfl⟩

theorem daymark_start (s : State) (nonce : List Byte) : ∃ rest, (s.daymark nonce).2 = daymarkStart s.beacon ++ rest := by
  obtain ⟨sig, last, h⟩ := daymark_report s nonce
  obtain ⟨rest, hbody⟩ := daymarkBody_start ((s.draw 32).1.draw 32).1 nonce sig
  have hfit := fitTo_append 12352 (daymarkStart s.beacon) (rest ++ last)
  rw [length_daymarkStart] at hfit
  have hb : ((s.draw 32).1.draw 32).1.beacon = s.beacon := rfl
  rw [h, hbody, hb, List.append_assoc]
  exact ⟨_, hfit⟩

theorem daymark_effect (s : State) (nonce : List Byte) : (s.daymark nonce).2.length = 12368 ∧
    (s.daymark nonce).1 = { s with lnt := (s.daymark nonce).1.lnt } ∧
    (s.daymark nonce).2.take 4 = [0x4D, 0x44, 1, 0] ∧ ((s.daymark nonce).2.drop 8).take 8 = leBytes 8 s.beacon := by
  obtain ⟨rest, h⟩ := daymark_start s nonce
  obtain ⟨_, _, hlen⟩ := daymark_report s nonce
  refine ⟨hlen ▸ length_fitTo _ _, rfl, ?_, ?_⟩
  · rw [h, daymarkStart, List.append_assoc, List.append_assoc, List.take_left' (length_leBytes 4 _)]
    rfl
  · rw [h, daymarkStart, List.append_assoc, List.drop_left' (by simp [length_leBytes]), List.take_left' (length_leBytes 8 _)]

end Sys2Proof.Machine
end

section
/-!
SUPPORT. The Keeper mailbox (R459, R488, R490): when a request is heard, and what each answers; with the obligation on both
mailboxes.
-/

namespace Sys2Proof.Machine

/-! ### A request of the Keeper mailbox -/

/-- Lantern runs and a pair can send a request. -/
def State.keeperHeard (s : State) : Prop :=
  s.dead = false ∧ s.flag LNT_INFO_READY = true ∧ s.flag TOP_FW_STAT_RECOVERY = false ∧ s.pairsOn ≠ []

section
variable {s : State}

theorem kTurn_eq (h : s.flag LNT_MB_CTL_BUSY = false ∨ s.lnt.wait ≠ none ∨ s.lnt.turn = false) :
    s.kTurn = { s with lnt := { s.lnt with turn := true } } := by
  have hidle : (s.flag LNT_MB_CTL_BUSY && s.lnt.wait.isNone && s.lnt.turn) = false := by
    rcases h with h | h | h <;> simp [h]
  unfold State.kTurn
  rw [hidle]
  rfl

theorem keeperHeard_iff :
    s.keeperHeard ↔ (s.dead || !s.flag LNT_INFO_READY || s.flag TOP_FW_STAT_RECOVERY || s.pairsOn.isEmpty) = false := by
  simp only [State.keeperHeard, Bool.or_eq_false_iff, Bool.not_eq_false', List.isEmpty_eq_false_iff, and_assoc]

theorem kRun_unheard (f : State → State) (h : ¬ s.keeperHeard) : s.kRun f = s :=
  if_pos (Bool.of_not_eq_false (keeperHeard_iff.not.mp h))

theorem kRun_heard (f : State → State) (h : s.keeperHeard) :
    s.kRun f = if s.kTurn.lnt.tampered then s.kTurn.kAnswer 6 [] else f s.kTurn :=
  if_neg (Bool.eq_false_iff.mp (keeperHeard_iff.mp h))

theorem kRun_tampered (f : State → State) (h : s.keeperHeard) (ht : s.kTurn.lnt.tampered = true) :
    s.kRun f = s.kTurn.kAnswer 6 [] := (kRun_heard f h).trans (if_pos ht)

/-- A command that Lantern hears with its keys whole acts on the state in which its turn has come. -/
theorem exec_keeper {c : Instr} {f : State → State} (hc : exec c s = .next (s.kRun f)) (h : s.keeperHeard)
    (ht : s.kTurn.lnt.tampered = false) : exec c s = .next (f s.kTurn) :=
  hc.trans (congrArg Host.Outcome.next ((kRun_heard f h).trans (if_neg (Bool.eq_false_iff.mp ht))))

end

/-- The requests of Keeper firmware. -/
def keeperCommands (i n : Nat) (bs : List Byte) (isl k b : Nat) (off : Bool) : List Instr :=
  [.verifySlot i, .preload i, .storeOpen i n, .storeData bs, .storeClose, .svcKey bs, .svcOpen bs, .svcSeal bs,
    .islPower isl k b, .rgnRelocate i b off]

theorem exec_keeperCommand {i n : Nat} {bs : List Byte} {isl k b : Nat} {off : Bool} {c : Instr}
    (hc : c ∈ keeperCommands i n bs isl k b off) (s : State) : ∃ f, exec c s = .next (s.kRun f) := by
  simp only [keeperCommands, List.mem_cons, List.not_mem_nil, or_false] at hc
  rcases hc with rfl | rfl | rfl | rfl | rfl | rfl | rfl | rfl | rfl | rfl
  · exact ⟨_, rfl⟩
  · exact ⟨_, rfl⟩
  · exact ⟨_, rfl⟩
  · exact ⟨_, rfl⟩
  · exact ⟨_, rfl⟩
  · exact ⟨_, rfl⟩
  · exact ⟨_, rfl⟩
  · exact ⟨_, rfl⟩
  · exact ⟨_, rfl⟩
  · exact ⟨_, rfl⟩

section
variable {s : State} (h : s.keeperHeard) (ht : s.kTurn.lnt.tampered = false)
include h ht

/-! ### Slots (R490) -/

theorem exec_verifySlot (i : Nat) :
    exec (.verifySlot i) s = .next (s.kTurn.kAnswer 0 (leBytes 4 (s.kTurn.verifySlot (s.kTurn.slot i)).1)) :=
  (exec_keeper rfl h ht).trans rfl

theorem exec_preload (i : Nat) : exec (.preload i) s = .next (({ s.kTurn with
      stageImg := if (s.kTurn.verifySlot (s.kTurn.slot i)).1 = 0 then some (i, (s.kTurn.verifySlot (s.kTurn.slot i)).2)
        else none } : State).kAnswer 0 (leBytes 4 (s.kTurn.verifySlot (s.kTurn.slot i)).1)) :=
  (exec_keeper rfl h ht).trans rfl

theorem exec_storeOpen (i n : Nat) : exec (.storeOpen i n) s = .next (({ (s.kTurn.draw 12).1 with
      lnt := { (s.kTurn.draw 12).1.lnt with store := some ⟨i, n, (s.kTurn.draw 12).2, []⟩ } } : State).kAnswer 0
        (s.kTurn.draw 12).2) :=
  (exec_keeper rfl h ht).trans rfl

theorem exec_store_closed (hx : s.kTurn.lnt.store = none) :
    (∀ bs, exec (.storeData bs) s = .next (s.kTurn.kAnswer 5 [])) ∧ exec .storeClose s = .next (s.kTurn.kAnswer 5 []) := by
  refine ⟨fun bs => (exec_keeper rfl h ht).trans ?_, (exec_keeper rfl h ht).trans ?_⟩
  · rw [hx]
  · rw [hx]

variable {x : StoreSt} (hx : s.kTurn.lnt.store = some x)
include hx

theorem exec_storeData_badLen {bs : List Byte} (hb : bs = [] ∨ 4076 < bs.length ∨ x.len < x.plain.length + bs.length) :
    exec (.storeData bs) s = .next (s.kTurn.kAnswer 2 []) := by
  refine (exec_keeper rfl h ht).trans ?_
  rw [hx]
  refine congrArg Host.Outcome.next (if_pos ?_)
  simpa only [Bool.or_eq_true, List.isEmpty_iff, decide_eq_true_eq, or_assoc] using hb

theorem exec_storeData_fits {bs : List Byte} (h0 : bs ≠ []) (h1 : bs.length ≤ 4076)
    (h2 : x.plain.length + bs.length ≤ x.len) : exec (.storeData bs) s = .next
      (({ s.kTurn with lnt := { s.kTurn.lnt with store := some { x with plain := x.plain ++ bs } } } : State).kAnswer 0
        (bytesAt (Config.gcmSeal s.kTurn.storeKey x.iv (hdrAad x.len) (x.plain ++ bs)) x.plain.length bs.length)) := by
  refine (exec_keeper rfl h ht).trans ?_
  rw [hx]
  refine congrArg Host.Outcome.next (if_neg ?_)
  simp only [Bool.or_eq_true, List.isEmpty_iff, decide_eq_true_eq, not_or, not_lt]
  exact ⟨⟨h0, h1⟩, h2⟩

theorem exec_storeClose : exec .storeClose s = .next
    (({ s.kTurn with lnt := { s.kTurn.lnt with store := none } } : State).kAnswer 0
      (bytesAt (Config.gcmSeal s.kTurn.storeKey x.iv (hdrAad x.len) x.plain) x.plain.length 16)) := by
  refine (exec_keeper rfl h ht).trans ?_
  rw [hx]

end

section
variable {s : State} (h : s.keeperHeard) (ht : s.kTurn.lnt.tampered = false)
include h ht

/-! ### The service session (R488) -/

theorem exec_svcKey_none (n : List Byte) (hk : s.kTurn.lnt.hsck = none) :
    exec (.svcKey n) s = .next (s.kTurn.kAnswer 5 []) := by
  refine (exec_keeper rfl h ht).trans ?_
  rw [hk]

theorem exec_svcKey_badLen {n k : List Byte} (hk : s.kTurn.lnt.hsck = some k) (hn : n.length ≠ 32) :
    exec (.svcKey n) s = .next (s.kTurn.kAnswer 2 []) := by
  refine (exec_keeper rfl h ht).trans ?_
  rw [hk]
  exact congrArg Host.Outcome.next (if_pos hn)

theorem exec_svcKey_derived {n k : List Byte} (hk : s.kTurn.lnt.hsck = some k) (hn : n.length = 32) :
    exec (.svcKey n) s = .next ((s.kTurn.openSession k n).1.kAnswer 0 (s.kTurn.openSession k n).2) := by
  refine (exec_keeper rfl h ht).trans ?_
  rw [hk]
  exact congrArg Host.Outcome.next (if_neg (not_not.mpr hn))

theorem exec_svcOpen_none (f : List Byte) (hk : s.kTurn.lnt.sk = none) :
    exec (.svcOpen f) s = .next (s.kTurn.kAnswer 5 []) ∧ exec (.svcSeal f) s = .next (s.kTurn.kAnswer 5 []) := by
  refine ⟨(exec_keeper rfl h ht).trans ?_, (exec_keeper rfl h ht).trans ?_⟩
  · rw [hk]
    rfl
  · rw [hk]
    rfl

theorem exec_svcOpen_passes {f p : List Byte} (hk : s.kTurn.lnt.sk ≠ none) (hf : s.kTurn.frOpen f = some p) :
    exec (.svcOpen f) s = .next (s.kTurn.kAnswer 0 p) := by
  refine (exec_keeper rfl h ht).trans ?_
  rw [hf]
  exact congrArg Host.Outcome.next (if_neg (by simpa using hk))

theorem exec_svcOpen_fails {f : List Byte} (hk : s.kTurn.lnt.sk ≠ none) (hf : s.kTurn.frOpen f = none) :
    exec (.svcOpen f) s = .next (s.kTurn.kAnswer 3 []) := by
  refine (exec_keeper rfl h ht).trans ?_
  rw [hf]
  exact congrArg Host.Outcome.next (if_neg (by simpa using hk))

theorem exec_svcSeal_session (f : List Byte) (hk : s.kTurn.lnt.sk ≠ none) : exec (.svcSeal f) s =
    .next (s.kTurn.kAnswer 0 (s.kTurn.frSeal (frType f) (frSeq f) (bytesAt f 8 (f.length - 8)))) :=
  (exec_keeper rfl h ht).trans (congrArg Host.Outcome.next (if_neg (by simpa using hk)))

/-! ### Power (R459) -/

theorem exec_islPower_normal {isl : Nat} (k a : Nat) (hs : s.kTurn.secIsl isl = false) :
    exec (.islPower isl k a) s = .next (s.kTurn.kAnswer 5 []) := by
  refine (exec_keeper rfl h ht).trans ?_
  rw [hs]
  rfl

end

/-- A request kept until the island is no longer secure-assigned. -/
def State.powKept (s : State) (isl k a : Nat) : State :=
  { s with pwr := { s.pwr with defer' := s.pwr.defer' ++ [(isl, k, a)] } }

section
variable {s : State} (h : s.keeperHeard) (ht : s.kTurn.lnt.tampered = false) {isl : Nat} (hs : s.kTurn.secIsl isl = true)
include h ht hs

theorem exec_islPower_raise {a : Nat} (ha : s.kTurn.lntCap isl < a) :
    exec (.islPower isl 0 a) s = .next ((s.kTurn.powKept isl 0 a).powAnswer isl true) := by
  refine (exec_keeper rfl h ht).trans ?_
  rw [hs]
  exact congrArg Host.Outcome.next (if_neg (not_le.mpr ha))

theorem exec_islPower_lower {a : Nat} (ha : a ≤ s.kTurn.lntCap isl) : exec (.islPower isl 0 a) s =
    .next (({ s.kTurn with
      pwr := { s.kTurn.pwr with cap := mset (fun _ => 2 ^ 16) s.kTurn.pwr.cap isl a } } : State).refreshClks.powAnswer
        isl false) := by
  refine (exec_keeper rfl h ht).trans ?_
  rw [hs]
  exact congrArg Host.Outcome.next (if_pos ha)

theorem exec_islPower_gateLater {k : Nat} (a : Nat) (hk : k = 1 ∨ k = 2)
    (hbusy : 8 ≤ isl ∨ s.kTurn.islWorks isl = true ∨ s.kTurn.secRes isl = true) :
    exec (.islPower isl k a) s = .next ((s.kTurn.powKept isl k a).powAnswer isl true) := by
  rcases hk with rfl | rfl
  · refine (exec_keeper rfl h ht).trans ?_
    rw [hs]
    exact congrArg Host.Outcome.next (if_pos hbusy)
  · refine (exec_keeper rfl h ht).trans ?_
    rw [hs]
    exact congrArg Host.Outcome.next (if_pos hbusy)

theorem exec_islPower_gateNow {k : Nat} (a : Nat) (hk : k = 1 ∨ k = 2)
    (hidle : ¬ (8 ≤ isl ∨ s.kTurn.islWorks isl = true ∨ s.kTurn.secRes isl = true)) :
    exec (.islPower isl k a) s = .next ((s.kTurn.accTime.gateBy isl k).powAnswer isl false) := by
  rcases hk with rfl | rfl
  · refine (exec_keeper rfl h ht).trans ?_
    rw [hs]
    exact congrArg Host.Outcome.next (if_neg hidle)
  · refine (exec_keeper rfl h ht).trans ?_
    rw [hs]
    exact congrArg Host.Outcome.next (if_neg hidle)

theorem exec_islPower_wake (a : Nat) :
    exec (.islPower isl 3 a) s = .next ((s.kTurn.wakeIsls [isl]).powAnswer isl false) := by
  refine (exec_keeper rfl h ht).trans ?_
  rw [hs]
  rfl

end

section
variable {s : State} (h : s.keeperHeard) (ht : s.kTurn.lnt.tampered = false)
include h ht

/-! ### Regions (R221) -/

theorem exec_rgnRelocate_normal {i : Nat} (b : Nat) (off : Bool) (hi : 16 ≤ i) :
    exec (.rgnRelocate i b off) s = .next (s.kTurn.kAnswer 5 []) := by
  refine (exec_keeper rfl h ht).trans ?_
  exact congrArg Host.Outcome.next (if_pos hi)

/-- The entry changed by a request, which no longer waits for firmware to move it. -/
def State.relocated (s : State) (i w0 w1 : Nat) : State :=
  let r := s.changeRgn i w0 w1 (s.reg (MEM_RGN_W2 i)).toNat
  ({ r.1 with reloc := r.1.reloc.filter (fun x => x.1 != i) } : State).kAnswer (if r.2 then 0 else 5) []

theorem exec_rgnRelocate_off {i : Nat} (b : Nat) (hi : i < 16) : exec (.rgnRelocate i b true) s =
    .next (s.kTurn.relocated i (putBits (s.kTurn.reg (MEM_RGN_W0 i)).toNat 0 1 0) (s.kTurn.reg (MEM_RGN_W1 i)).toNat) :=
  (exec_keeper rfl h ht).trans (congrArg Host.Outcome.next (if_neg (not_le.mpr hi)))

theorem exec_rgnRelocate_move {i b : Nat} (hi : i < 16) (hb : b ≠ 0) : exec (.rgnRelocate i b false) s =
    .next (s.kTurn.relocated i (putBits (s.kTurn.reg (MEM_RGN_W0 i)).toNat 12 36 b)
      (putBits (s.kTurn.reg (MEM_RGN_W1 i)).toNat 12 36
        (b + (s.kTurn.get (MEM_RGN_W1_LIMIT i) - s.kTurn.get (MEM_RGN_W0_BASE i))))) := by
  have hon : (false || b == 0) = false := by simp [hb]
  refine (exec_keeper rfl h ht).trans ?_
  rw [hon]
  exact congrArg Host.Outcome.next (if_neg (not_le.mpr hi))

end

/-! ### The obligation -/

/-- Settles O35: the host mailbox turns a request away, begins it or answers it, and an answer is its response, then DONE; a
request of the Keeper mailbox that is heard acts on the state in which its turn has come. -/
theorem mailboxesAnswer : Obligations.MailboxesAnswer := by
  refine ⟨fun s => ⟨fun rq v hopen hgo => ?_, fun k hk => ?_, ?_, fun k body h => mbPlain_effect s k h⟩,
    fun s => ⟨kTurn_eq, fun i n bs isl k b off c hc => ?_, fun h ht => ?_⟩⟩
  · have hexec := (exec_mailboxGo v hopen).trans (congrArg Host.Outcome.next (writeMbCtl_go s rq hgo))
    refine ⟨fun hb => ?_, fun hb hr => ?_, fun hb hr => ⟨fun hcmd => ?_, fun hcmd => ?_, mbBegun_effect s v.toNat⟩⟩
    · rw [hexec, if_pos hb]
    · rw [hexec, if_neg (Bool.eq_false_iff.mp hb), if_pos hr]
    · rw [hexec, if_neg (Bool.eq_false_iff.mp hb), if_neg (Bool.not_eq_false _ ▸ hr), if_pos hcmd]
      rfl
    · rw [hexec, if_neg (Bool.eq_false_iff.mp hb), if_neg (Bool.not_eq_false _ ▸ hr),
        if_neg (Option.isSome_iff_ne_none.mp hcmd)]
      rfl
  · obtain ⟨act, hact⟩ := exec_clearCommand hk s
    exact ⟨fun hi => hact.trans (congrArg _ (mbClear_idle act hi)),
      fun hi hc => hact.trans (congrArg _ (mbClear_refused act hi hc))⟩
  · exact ⟨fun hi hc => congrArg Host.Outcome.next (mbClear_acts _ hi hc),
      fun hi hc => congrArg Host.Outcome.next (mbClear_acts _ hi hc),
      fun hi hc => congrArg Host.Outcome.next (mbClear_acts _ hi hc),
      fun hi hc => ⟨congrArg Host.Outcome.next (mbClear_acts _ hi hc), daymark_effect s.mbServe _⟩⟩
  · obtain ⟨f, hf⟩ := exec_keeperCommand hc s
    exact ⟨fun hup => hf.trans (congrArg _ (kRun_unheard f hup)),
      fun hup ht => hf.trans (congrArg _ (kRun_tampered f hup ht))⟩
  · refine ⟨exec_verifySlot h ht, exec_preload h ht, exec_storeOpen h ht, exec_store_closed h ht, fun x hx => ?_,
      exec_svcKey_none h ht, fun n k hk => ?_, exec_svcOpen_none h ht, fun f hk => ?_,
      fun isl k a => exec_islPower_normal h ht k a, fun isl a hs => ?_, fun i b hi => exec_rgnRelocate_normal h ht b false hi,
      fun i b hi hb => ⟨exec_rgnRelocate_off h ht b hi, exec_rgnRelocate_move h ht hi hb⟩⟩
    · exact ⟨fun bs => exec_storeData_badLen h ht hx, fun bs => exec_storeData_fits h ht hx, exec_storeClose h ht hx⟩
    · exact ⟨exec_svcKey_badLen h ht hk, fun hn => ⟨exec_svcKey_derived h ht hk hn, length_fitTo 32 _, rfl⟩⟩
    · refine ⟨?_, exec_svcSeal_session h ht f hk⟩
      cases hf : s.kTurn.frOpen f with
      | none => exact exec_svcOpen_fails h ht hk hf
      | some p => exact exec_svcOpen_passes h ht hk hf
    · refine ⟨exec_islPower_raise h ht hs, exec_islPower_lower h ht hs, fun k hk => ⟨exec_islPower_gateLater h ht hs a hk,
        fun hisl hw hr => exec_islPower_gateNow h ht hs a hk ?_⟩, exec_islPower_wake h ht hs a⟩
      simp [hw, hr, hisl]

end Sys2Proof.Machine
end

section
/-!
SUPPORT. The authenticated commands of the host mailbox (R446, R447, R450 to R452, R458), with the obligation on them.
-/

namespace Sys2Proof.Machine

/-! ### The tag and the counter (R446) -/

theorem mbServe_mbOpen (s : State) : s.mbServe.mbOpen = s.mbOpen := rfl

/-- The state in which an accepted command acts: its counter is the last one. -/
def State.mbAccepted (s : State) : State := { s.mbServe with lnt := { s.mbServe.lnt with ctr := leNat (s.mbReq 8 4) } }

theorem reg_mbAccepted (s : State) (b : Nat) : s.mbAccepted.reg b = s.reg b := rfl

theorem get_mbAccepted (s : State) (f : Fref) : s.mbAccepted.get f = s.get f := rfl

theorem funcHeld_mbAccepted (s : State) (f : Nat) : s.mbAccepted.funcHeld f = s.funcHeld f := rfl

/-- What an accepted command does with the outcome of its act: the sealed answer, or nothing while it waits. -/
def sealOutcome : State × Option (Nat × List Byte) → State
  | (s, some r) => s.mbSealed r.1 r.2
  | (s, none) => s

section
variable {s : State} {cmd : Nat} (act : State → List Byte → State × Option (Nat × List Byte))

theorem mbSecure_idle (h : s.mbIs cmd = false) : s.mbSecure cmd act = s := by
  unfold State.mbSecure
  rw [h]
  rfl

theorem mbSecure_refused (h : s.mbIs cmd = true) (hc : s.mbCheck cmd ≠ 0) :
    s.mbSecure cmd act = s.mbServe.mbPlain (s.mbCheck cmd) [] := by
  obtain ⟨n, hn⟩ := Nat.exists_eq_succ_of_ne_zero hc
  unfold State.mbSecure
  simp only [h, mbServe_mbCheck, hn]
  rfl

theorem mbSecure_turned {e : Nat} (h : s.mbIs cmd = true) (hc : s.mbCheck cmd = 0) (ho : s.mbOpen = .error e) :
    s.mbSecure cmd act = (s.mbServe.secEvent LNT_MB_CTL (.fn 0) e 0x3F).mbPlain e [] := by
  unfold State.mbSecure
  simp only [h, mbServe_mbCheck, hc, mbServe_mbOpen, ho]
  rfl

theorem mbSecure_accepted {p : List Byte} (h : s.mbIs cmd = true) (hc : s.mbCheck cmd = 0) (ho : s.mbOpen = .ok p) :
    s.mbSecure cmd act = sealOutcome (act s.mbAccepted p) := by
  unfold State.mbSecure
  simp only [h, mbServe_mbCheck, hc, mbServe_mbOpen, ho]
  show (match act s.mbAccepted p with
    | (s, some (k, body)) => s.mbSealed k body
    | (s, none) => s) = _
  obtain ⟨t, _ | r⟩ := act s.mbAccepted p
  · rfl
  · rfl

end

/-- The commands that need a tag. -/
def secureCommands : List (Instr × Nat) :=
  [(.secPart, 0x10), (.secRgn, 0x11), (.secQueue, 0x12), (.secMoor, 0x13), (.secRelease, 0x14), (.secIslCtl, 0x15),
    (.setProduction, 0x21)]

theorem exec_secMoor_begins {s : State} (hw : s.lnt.wait = none) :
    ∃ act, exec .secMoor s = .next (s.mbSecure 0x13 act) := by
  refine ⟨?act, ?_⟩
  swap
  · show execSecMoor s = _
    unfold execSecMoor
    rw [hw]

theorem exec_secRelease_begins {s : State} (hw : s.lnt.wait = none) :
    ∃ act, exec .secRelease s = .next (s.mbSecure 0x14 act) := by
  refine ⟨?act, ?_⟩
  swap
  · show execSecRelease s = _
    unfold execSecRelease
    rw [hw]

/-- Each of them asks for its tag when no earlier one waits. -/
theorem exec_secureCommand {k : Instr × Nat} (hk : k ∈ secureCommands) {s : State} (hw : s.lnt.wait = none) :
    ∃ act, exec k.1 s = .next (s.mbSecure k.2 act) := by
  simp only [secureCommands, List.mem_cons, List.not_mem_nil, or_false] at hk
  rcases hk with rfl | rfl | rfl | rfl | rfl | rfl | rfl
  · exact ⟨_, rfl⟩
  · exact ⟨_, rfl⟩
  · exact ⟨_, rfl⟩
  · exact exec_secMoor_begins hw
  · exact exec_secRelease_begins hw
  · exact ⟨_, rfl⟩
  · exact ⟨_, rfl⟩

/-- A request with command `cmd` has passed its checks, its tag and its counter; its payload is `p`. -/
def State.mbGranted (s : State) (cmd : Nat) (p : List Byte) : Prop :=
  s.mbIs cmd = true ∧ s.mbCheck cmd = 0 ∧ s.mbOpen = .ok p

theorem mbSecure_granted {s : State} {cmd : Nat} {p : List Byte}
    (act : State → List Byte → State × Option (Nat × List Byte)) (h : s.mbGranted cmd p) :
    s.mbSecure cmd act = sealOutcome (act s.mbAccepted p) :=
  mbSecure_accepted act h.1 h.2.1 h.2.2

theorem exec_granted {c : Instr} {s : State} {cmd : Nat} {p : List Byte}
    {act : State → List Byte → State × Option (Nat × List Byte)} (hc : exec c s = .next (s.mbSecure cmd act))
    (h : s.mbGranted cmd p) : exec c s = .next (sealOutcome (act s.mbAccepted p)) :=
  hc.trans (congrArg Host.Outcome.next (mbSecure_granted act h))

section
variable {s : State} {p : List Byte}

/-! ### Partitions, regions, queues and the lifecycle (R450, R451, R447) -/

theorem exec_secPart (h : s.mbGranted 0x10 p) : exec .secPart s =
    .next (if s.mbAccepted.partInUse (leNat p % 64) then s.mbAccepted.mbSealed 5 []
      else (s.mbAccepted.put (QOS_PART_W (leNat p % 64)) (bitsOf (leNat p) 8 1)).mbSealed 0 []) :=
  (exec_granted rfl h).trans (congrArg Host.Outcome.next (apply_ite sealOutcome _ _ _))

theorem exec_secRgn (h : s.mbGranted 0x11 p) : exec .secRgn s =
    .next ((s.mbAccepted.changeRgn (u p 0 1 % 16) (u p 8 8) (u p 16 8) (u p 24 8)).1.mbSealed
      (if (s.mbAccepted.changeRgn (u p 0 1 % 16) (u p 8 8) (u p 16 8) (u p 24 8)).2 then 0 else 5) []) :=
  (exec_granted rfl h).trans rfl

theorem exec_secQueue (h : s.mbGranted 0x12 p) : exec .secQueue s =
    .next ((s.mbAccepted.put ⟨LNT_SQ (leNat p % 16384 / 64), leNat p % 16384 % 64, 1⟩
      (bitsOf (leNat p) 16 1)).mbSealed 0 []) :=
  (exec_granted rfl h).trans rfl

theorem exec_setProduction (h : s.mbGranted 0x21 p) : exec .setProduction s =
    .next ((({ s.mbAccepted with lnt := { s.mbAccepted.lnt with life := 2 } } : State).put
      LNT_INFO_LIFECYCLE 2).mbSealed 0 []) :=
  (exec_granted rfl h).trans rfl

/-! ### Staged registers of secure islands (R458) -/

theorem exec_secIslCtl_none (h : s.mbGranted 0x15 p) (hreg : regAt (u p 4 4 % 2 ^ 26) = none) :
    exec .secIslCtl s = .next (s.mbAccepted.mbSealed 5 []) := by
  refine (exec_granted rfl h).trans ?_
  dsimp only
  rw [hreg]
  rfl

theorem exec_secIslCtl_reg (h : s.mbGranted 0x15 p) {sp : RegSpec} {off : Nat} (hoff : off = u p 4 4 % 2 ^ 26)
    (hreg : regAt off = some (sp, off)) : exec .secIslCtl s =
      .next (if stagedIsland off ≠ some (u p 0 1 % 64) ∨ ¬ s.secIsl (u p 0 1 % 64) = true then s.mbAccepted.mbSealed 5 []
        else (s.mbAccepted.stageWrite off (u p 8 8) mask64).mbSealed 0 []) := by
  subst hoff
  refine (exec_granted rfl h).trans ?_
  dsimp only
  rw [hreg]
  refine congrArg Host.Outcome.next ((apply_ite sealOutcome _ _ _).trans (if_congr ?_ rfl rfl))
  simp only [ne_eq, not_true_eq_false, false_or]
  rfl

/-! ### SEC_MOOR (R452) -/

/-- The word that SEC_MOOR gives the configuration of a context: FUNC stays where an enabled VF holds the context. -/
def State.secMoorWord (s : State) (c v : Nat) : Nat :=
  if s.funcHeld (s.get (SCH_CTX_CFG_FUNC c)) then putBits v 0 5 (s.get (SCH_CTX_CFG_FUNC c)) else v

/-- The context configured by Lantern and moored. -/
def State.secMoored (s : State) (c v : Nat) : State :=
  ((s.setReg (SCH_CTX_CFG c) (BitVec.ofNat 64 (writeFields (fieldsAt (SCH_CTX_CFG c)) false true
    (s.reg (SCH_CTX_CFG c)).toNat (s.secMoorWord c v) mask64))).moor true c).settle

theorem secMoored_mbAccepted (s : State) (c v : Nat) : s.mbAccepted.secMoored c v =
    ((s.mbAccepted.setReg (SCH_CTX_CFG c) (BitVec.ofNat 64 (writeFields (fieldsAt (SCH_CTX_CFG c)) false true
      (s.reg (SCH_CTX_CFG c)).toNat (s.secMoorWord c v) mask64))).moor true c).settle := by
  unfold State.secMoored State.secMoorWord
  rw [reg_mbAccepted, get_mbAccepted, funcHeld_mbAccepted]

/-- A command that has begun and waits for its context. -/
def State.mbAwaits (s : State) (c : Nat) : State := { s with lnt := { s.lnt with wait := some c } }

theorem exec_secMoor_wait {c : Nat} (hw : s.lnt.wait = some c) : exec .secMoor s = .next (s.mbWaiting 0x13 c
    (fun s => if s.get (SCH_CTX_STAT_STATE c) = 1 then none else some (s.moorAnswer c))) := by
  show execSecMoor s = _
  unfold execSecMoor
  rw [hw]

theorem exec_secMoor (hw : s.lnt.wait = none) (h : s.mbGranted 0x13 p) : exec .secMoor s =
    .next (if s.get (SCH_CTX_STAT_STATE (u p 0 1)) ≠ 0 ∧ s.get (SCH_CTX_STAT_STATE (u p 0 1)) ≠ 5 then
        s.mbAccepted.mbSealed 5 (leBytes 4 (s.get (SCH_CTX_STAT_REASON (u p 0 1))))
      else if bitsOf (u p 8 8) 45 2 ≠ 0 then s.mbAccepted.mbSealed 5 (leBytes 4 3)
      else if (s.mbAccepted.secMoored (u p 0 1) (u p 8 8)).get (SCH_CTX_STAT_STATE (u p 0 1)) = 1 then
        (s.mbAccepted.secMoored (u p 0 1) (u p 8 8)).mbAwaits (u p 0 1)
      else (s.mbAccepted.secMoored (u p 0 1) (u p 8 8)).mbSealed
        ((s.mbAccepted.secMoored (u p 0 1) (u p 8 8)).moorAnswer (u p 0 1)).1
        ((s.mbAccepted.secMoored (u p 0 1) (u p 8 8)).moorAnswer (u p 0 1)).2) := by
  show execSecMoor s = _
  unfold execSecMoor
  rw [hw]
  refine congrArg Host.Outcome.next ((mbSecure_granted _ h).trans ?_)
  dsimp only
  rw [apply_ite sealOutcome, apply_ite sealOutcome, apply_ite sealOutcome]
  simp only [← get_mbAccepted s]
  unfold State.secMoored State.secMoorWord
  rfl

/-! ### SEC_RELEASE (R452) -/

theorem exec_secRelease_wait {c : Nat} (hw : s.lnt.wait = some c) : exec .secRelease s = .next (s.mbWaiting 0x14 c
    (fun s => if s.get (SCH_CTX_STAT_STATE c) = 4 then none else some (0, []))) := by
  show execSecRelease s = _
  unfold execSecRelease
  rw [hw]

/-- May a context be released by SEC_RELEASE? -/
def State.secReleasable (s : State) (c : Nat) : Prop :=
  s.ctxW c = true ∧ (s.get (SCH_CTX_STAT_STATE c) = 2 ∨ s.get (SCH_CTX_STAT_STATE c) = 3 ∨ s.get (SCH_CTX_STAT_STATE c) = 4)

/-- The release begun, where the driver has not begun it. -/
def State.secReleased (s : State) (c : Nat) : State :=
  if s.get (SCH_CTX_STAT_STATE c) = 4 then s.mbAccepted else (s.mbAccepted.releaseCtx c).settle

theorem exec_secRelease (hw : s.lnt.wait = none) (h : s.mbGranted 0x14 p) :
    (¬ s.secReleasable (u p 0 1) → exec .secRelease s = .next (s.mbAccepted.mbSealed 5 [])) ∧
    (s.secReleasable (u p 0 1) → exec .secRelease s =
      .next ((s.secReleased (u p 0 1)).mbAwaits (u p 0 1))) := by
  have hcond : ((!s.ctxW (u p 0 1)) = true ∨ (s.get (SCH_CTX_STAT_STATE (u p 0 1)) ≠ 2 ∧
      s.get (SCH_CTX_STAT_STATE (u p 0 1)) ≠ 3 ∧ s.get (SCH_CTX_STAT_STATE (u p 0 1)) ≠ 4)) ↔
        ¬ s.secReleasable (u p 0 1) := by
    simp only [State.secReleasable, Bool.not_eq_true', not_and_or, Bool.not_eq_true, not_or, ne_eq]
  show (¬ _ → execSecRelease s = _) ∧ (_ → execSecRelease s = _)
  unfold execSecRelease
  rw [hw]
  refine ⟨fun hno => congrArg Host.Outcome.next ((mbSecure_granted _ h).trans ?_),
    fun hyes => congrArg Host.Outcome.next ((mbSecure_granted _ h).trans ?_)⟩
  · exact congrArg sealOutcome (if_pos (hcond.mpr hno))
  · exact congrArg sealOutcome (if_neg (hcond.not.mpr (not_not.mpr hyes)))

/-! ### Commands that wait (R462) -/

variable {cmd c : Nat} {done : State → Option (Nat × List Byte)}

theorem mbWaiting_tampered (h : s.mbIs cmd = true) (ht : s.lnt.tampered = true) : s.mbWaiting cmd c done = s.mbPlain 6 [] := by
  unfold State.mbWaiting
  rw [h, ht]
  rfl

theorem mbWaiting_done {k : Nat} {body : List Byte} (h : s.mbIs cmd = true) (ht : s.lnt.tampered = false)
    (hd : done s = some (k, body)) : s.mbWaiting cmd c done = s.mbSealed k body := by
  unfold State.mbWaiting
  rw [h, ht, hd]
  rfl

theorem mbWaiting_waits (hw : s.lnt.wait = some c) (h : s.mbIs cmd = true) (ht : s.lnt.tampered = false)
    (hd : done s = none) : s.mbWaiting cmd c done = s := by
  unfold State.mbWaiting
  rw [h, ht, hd, ← hw]
  rfl

end

/-! ### The obligation -/

/-- Settles O36: a command of the secure world acts on the state with its counter, and only when its tag and counter pass; a
SEC_MOOR or SEC_RELEASE that waits for its context keeps the state until it is answered. -/
theorem secureCommandsNeedTagAndCounter : Obligations.SecureCommandsNeedTagAndCounter := by
  refine fun s => ⟨fun k hk hw => ?_, fun k hw hi hc => ?_,
    fun c hw => ⟨fun hi ht => ?_, fun hi ht => ?_, fun ht => ⟨fun hi => ?_, fun hi => ?_⟩⟩⟩
  · obtain ⟨act, hact⟩ := exec_secureCommand hk hw
    refine ⟨fun hi => hact.trans (congrArg _ (mbSecure_idle act hi)),
      fun hi hc => hact.trans (congrArg _ (mbSecure_refused act hi hc)), fun hi hc => ?_⟩
    cases ho : s.mbOpen with
    | error e => exact hact.trans (congrArg _ (mbSecure_turned act hi hc ho))
    | ok p => trivial
  · cases ho : s.mbOpen with
    | error e => trivial
    | ok p =>
      have hg : s.mbGranted k p := ⟨hi, hc, ho⟩
      refine ⟨fun hk => ?_, fun hk => ?_, fun hk => ?_, fun hk => ?_, fun hk => ?_, fun hk => ?_,
        fun hk sp off isl hoff hisl => ?_⟩ <;> subst hk
      · have hexec := exec_secPart hg
        split_ifs with hp
        · exact hexec.trans (congrArg _ (if_pos hp))
        · exact hexec.trans (congrArg _ (if_neg hp))
      · exact exec_secRgn hg
      · exact exec_secQueue hg
      · exact exec_setProduction hg
      · have hexec := exec_secMoor hw hg
        refine ⟨fun h0 h5 => hexec.trans (congrArg _ (if_pos ⟨h0, h5⟩)), fun hst => ?_⟩
        have hfree : ¬ (s.get (SCH_CTX_STAT_STATE (u p 0 1)) ≠ 0 ∧ s.get (SCH_CTX_STAT_STATE (u p 0 1)) ≠ 5) := by
          rw [← not_or]
          exact not_not.mpr hst
        rw [if_neg hfree] at hexec
        refine ⟨fun hcmd => hexec.trans (congrArg _ (if_pos hcmd)), fun hcmd => ?_⟩
        rw [if_neg (not_not.mpr hcmd)] at hexec
        intro v m
        have hm : m = s.mbAccepted.secMoored (u p 0 1) (u p 8 8) := (secMoored_mbAccepted s _ _).symm
        clear_value m
        subst hm
        split_ifs with hst
        · exact hexec.trans (congrArg _ (if_pos hst))
        · exact hexec.trans (congrArg _ (if_neg hst))
      · obtain ⟨hno, hyes⟩ := exec_secRelease hw hg
        intro c st
        by_cases hrel : s.ctxW c = true ∧ (st = 2 ∨ st = 3 ∨ st = 4)
        · rw [if_pos hrel]
          intro m
          have hm : m = s.secReleased c := rfl
          clear_value m
          subst hm
          exact hyes hrel
        · rw [if_neg hrel]
          exact hno hrel
      · subst hisl
        refine ⟨fun hreg => exec_secIslCtl_none hg (hoff ▸ hreg), fun hreg hst hsec => ?_, fun hreg hno => ?_⟩
        · exact (exec_secIslCtl_reg hg hoff hreg).trans (congrArg _ (if_neg (by simp [hst, hsec])))
        · exact (exec_secIslCtl_reg hg hoff hreg).trans (congrArg _ (if_pos (by simpa using hno)))
  · have hexec := exec_secRelease_wait hw
    split_ifs with hst
    · exact hexec.trans (congrArg _ (mbWaiting_waits hw hi ht (if_pos hst)))
    · exact hexec.trans (congrArg _ (mbWaiting_done hi ht (if_neg hst)))
  · have hexec := exec_secMoor_wait hw
    split_ifs with hst
    · exact hexec.trans (congrArg _ (mbWaiting_waits hw hi ht (if_pos hst)))
    · exact hexec.trans (congrArg _ (mbWaiting_done hi ht (if_neg hst)))
  · exact (exec_secRelease_wait hw).trans (congrArg _ (mbWaiting_tampered hi ht))
  · exact (exec_secMoor_wait hw).trans (congrArg _ (mbWaiting_tampered hi ht))

end Sys2Proof.Machine
end

section
/-!
SUPPORT. What a tamper alarm erases (R460 to R462) and what an expiry of the secure watchdog begins (R463), with the obligation on
them.
-/

namespace Sys2Proof.Machine

/-! ### The alarm's bit -/

theorem tamperBit_lt (src : TamperSrc) : tamperBit src < 4 := by
  cases src <;> decide

theorem tamperBit_ne {x y : TamperSrc} (h : x ≠ y) : tamperBit x ≠ tamperBit y := by
  revert h
  cases x <;> cases y <;> decide

/-- The bit of a source in LNT_TAMPER. -/
def tamperFlag (src : TamperSrc) : Fref := ⟨LNT_TAMPER, tamperBit src, 1⟩

theorem get_put_tamperFlag (s : State) (src : TamperSrc) : (s.put (tamperFlag src) 1).get (tamperFlag src) = 1 := by
  have h := tamperBit_lt src
  exact get_put_fits s (tamperFlag src) 1 (show tamperBit src + 1 ≤ 64 by omega) (show 1 < 2 ^ 1 by decide)

theorem get_put_tamperFlag_ne (s : State) {x src : TamperSrc} (h : x ≠ src) :
    (s.put (tamperFlag src) 1).get (tamperFlag x) = s.get (tamperFlag x) := by
  have hsrc := tamperBit_lt src
  have hne := tamperBit_ne h
  exact get_put_disjoint s (tamperFlag src) (tamperFlag x) 1 (show tamperBit src + 1 ≤ 64 by omega)
    (show tamperBit x + 1 ≤ tamperBit src ∨ tamperBit src + 1 ≤ tamperBit x by omega)

/-! ### The keys (R462) -/

/-- The volatile keys and the service session are gone, and the UDS where it can be erased. -/
def State.keysErased (s : State) : State :=
  { s with
    lnt := { s.lnt with
      hsck := none
      sk := none
      store := none
      zeroised := true
      tampered := true
      uds := if Config.eraseWrap then List.replicate 32 0xFF#8 else s.lnt.uds }
    svc := { s.svc with opened := false } }

theorem zeroise_eq (s : State) : s.zeroise = (s.keysErased.put LNT_TAMPER_ERASED (b2n s.keysErased.erased)).put
    LNT_INFO_IDENTITY (if s.keysErased.erased then 1 else 2) := rfl

theorem onlyRegs_zeroise (s : State) : OnlyRegs [LNT_TAMPER, LNT_INFO] s.keysErased s.zeroise := by
  rw [zeroise_eq]
  exact (onlyRegs_put s.keysErased LNT_TAMPER_ERASED _).trans (onlyRegs_put _ LNT_INFO_IDENTITY _)

theorem lnt_zeroise (s : State) : s.zeroise.lnt = s.keysErased.lnt := by
  rw [zeroise_eq, put_lnt, put_lnt]

theorem erased_zeroise (s : State) : s.zeroise.erased = s.keysErased.erased := by
  unfold State.erased
  rw [lnt_zeroise]

theorem get_tamperFlag_zeroise (s : State) (x : TamperSrc) : s.zeroise.get (tamperFlag x) = s.get (tamperFlag x) := by
  have hx := tamperBit_lt x
  rw [zeroise_eq, get_put_ne _ LNT_INFO_IDENTITY (tamperFlag x) _ (show LNT_TAMPER ≠ LNT_INFO by decide),
    get_put_disjoint _ LNT_TAMPER_ERASED (tamperFlag x) _ (by decide) (.inl (show tamperBit x + 1 ≤ 5 by omega))]
  exact get_of_reg (reg_of_regs rfl _)

theorem zeroise_shown (s : State) : s.zeroise.get LNT_INFO_IDENTITY = (if s.zeroise.erased then 1 else 2) ∧
    s.zeroise.get LNT_TAMPER_ERASED = (if s.zeroise.erased then 1 else 0) := by
  rw [erased_zeroise, zeroise_eq]
  refine ⟨get_put_fits _ LNT_INFO_IDENTITY _ (by decide) (by split_ifs <;> decide), ?_⟩
  refine (get_put_ne _ LNT_INFO_IDENTITY LNT_TAMPER_ERASED _ (by decide)).trans ?_
  exact get_put_fits _ LNT_TAMPER_ERASED _ (by decide) (by unfold b2n; split_ifs <;> decide)

/-! ### The alarm -/

/-- The state after a tamper alarm's bit and the erasure, before secure contexts end. -/
def State.alarmed (s : State) (src : TamperSrc) : State := (s.put (tamperFlag src) 1).zeroise

theorem exec_tamperAlarm (src : TamperSrc) (s : State) : exec (.tamperAlarm src) s =
    .next (if s.pins.held then s else (s.alarmed src).endSecure.settle) := rfl

theorem lnt_alarmed (s : State) (src : TamperSrc) : (s.alarmed src).lnt = s.keysErased.lnt := lnt_zeroise _

theorem svc_alarmed (s : State) (src : TamperSrc) : (s.alarmed src).svc = { s.svc with opened := false } := by
  unfold State.alarmed
  rw [zeroise_eq, put_svc, put_svc]
  rfl

/-- Besides keys and session, an alarm changes registers only. -/
theorem alarmed_eq (s : State) (src : TamperSrc) :
    s.alarmed src = { s with regs := (s.alarmed src).regs, lnt := (s.alarmed src).lnt, svc := (s.alarmed src).svc } := by
  obtain ⟨r, hr⟩ : ∃ r, s.alarmed src = { (s.put (tamperFlag src) 1).keysErased with regs := r } :=
    ⟨_, (onlyRegs_zeroise (s.put (tamperFlag src) 1)).1⟩
  rw [hr]
  rfl

theorem reg_alarmed_ne (s : State) (src : TamperSrc) {b : Nat} (htamper : b ≠ LNT_TAMPER) (hinfo : b ≠ LNT_INFO) :
    (s.alarmed src).reg b = s.reg b :=
  ((onlyRegs_zeroise _).2 b (by simp [htamper, hinfo])).trans ((reg_of_regs rfl b).trans
    (reg_put_ne s (tamperFlag src) 1 b htamper))

theorem get_tamperFlag_alarmed (s : State) (src : TamperSrc) : (s.alarmed src).get (tamperFlag src) = 1 ∧
    ∀ x, x ≠ src → (s.alarmed src).get (tamperFlag x) = s.get (tamperFlag x) :=
  ⟨(get_tamperFlag_zeroise _ src).trans (get_put_tamperFlag s src),
    fun x hx => (get_tamperFlag_zeroise _ x).trans (get_put_tamperFlag_ne s hx)⟩

/-- Partitions and contexts are none of the alarm's registers. -/
theorem ctxW_alarmed (s : State) (src : TamperSrc) {c : Nat} (hc : c < 256) : (s.alarmed src).ctxW c = s.ctxW c := by
  have hp := get_lt s (SCH_CTX_CFG_PART c)
  have hcfg : (s.alarmed src).get (SCH_CTX_CFG_PART c) = s.get (SCH_CTX_CFG_PART c) :=
    get_of_reg (reg_alarmed_ne s src (by simp only [SCH_CTX_CFG_PART, SCH_CTX_CFG, LNT_TAMPER]; omega)
      (by simp only [SCH_CTX_CFG_PART, SCH_CTX_CFG, LNT_INFO]; omega))
  have hpart : (s.alarmed src).get (QOS_PART_W (s.get (SCH_CTX_CFG_PART c))) =
      s.get (QOS_PART_W (s.get (SCH_CTX_CFG_PART c))) := by
    refine get_of_reg (reg_alarmed_ne s src ?_ ?_)
    · simp only [SCH_CTX_CFG_PART, QOS_PART_W, QOS_PART, LNT_TAMPER] at hp ⊢
      omega
    · simp only [SCH_CTX_CFG_PART, QOS_PART_W, QOS_PART, LNT_INFO] at hp ⊢
      omega
  unfold State.ctxW State.flag
  rw [hcfg, hpart]

theorem get_ctxState_alarmed (s : State) (src : TamperSrc) {c : Nat} (hc : c < 256) :
    (s.alarmed src).get (SCH_CTX_STAT_STATE c) = s.get (SCH_CTX_STAT_STATE c) :=
  get_of_reg (reg_alarmed_ne s src (by simp only [SCH_CTX_STAT_STATE, SCH_CTX_STAT, LNT_TAMPER]; omega)
    (by simp only [SCH_CTX_STAT_STATE, SCH_CTX_STAT, LNT_INFO]; omega))

/-- Where no secure context holds anything, none is ended. -/
theorem endSecure_idle {s : State} (h : ∀ c, c < 256 → s.ctxW c = true →
    s.get (SCH_CTX_STAT_STATE c) = 0 ∨ s.get (SCH_CTX_STAT_STATE c) = 5) : s.endSecure = s := by
  have hnone : (List.range 256).filter (fun c => [1, 2, 3, 4].contains (s.get (SCH_CTX_STAT_STATE c)) && s.ctxW c) = [] := by
    refine List.filter_eq_nil_iff.mpr fun c hc hlive => ?_
    obtain ⟨hst, hw⟩ := Bool.and_eq_true_iff.mp hlive
    rcases h c (List.mem_range.mp hc) hw with h0 | h5
    · rw [h0] at hst
      exact absurd hst (by decide)
    · rw [h5] at hst
      exact absurd hst (by decide)
  unfold State.endSecure
  rw [hnone]
  rfl

/-! ### The secure watchdog (R463) -/

theorem exec_secureWatchdogExpiry (s : State) : exec .secureWatchdogExpiry s =
    .next (if s.dead || !s.flag LNT_INFO_READY then s else (s.bump LNT_SWDG_EXPIRIES 1).coldAssert true) := rfl

/-- Cold reset: the part is held, nothing volatile stays, and the cause and the count of expiries are shown. -/
theorem coldAssert_effect (s : State) (swdg : Bool) : (s.coldAssert swdg).pins.held = true ∧
    (s.coldAssert swdg).get LNT_RST_CAUSE_SWDG = b2n swdg ∧
    (s.coldAssert swdg).get LNT_SWDG_EXPIRIES = s.get LNT_SWDG_EXPIRIES ∧ (s.coldAssert swdg).lnt.hsck = none ∧
    (s.coldAssert swdg).mem = [] ∧ (s.coldAssert swdg).descs = [] := by
  refine ⟨rfl, get_put_fits _ LNT_RST_CAUSE_SWDG _ (by decide) (by unfold b2n; split_ifs <;> decide), ?_, rfl, rfl, rfl⟩
  refine (get_put_ne _ LNT_RST_CAUSE_SWDG LNT_SWDG_EXPIRIES _ (by decide)).trans ?_
  refine (get_put_ne _ LNT_RST_CAUSE_POR LNT_SWDG_EXPIRIES _ (by decide)).trans ?_
  exact get_put_fits _ LNT_SWDG_EXPIRIES _ (by decide) (get_lt s LNT_SWDG_EXPIRIES)

/-! ### The obligation -/

/-- Settles O37: the alarm sets its bit and erases before secure contexts end, and the watchdog's expiry counts before cold
reset, which keeps the count. -/
theorem tamperAlarmsEraseTheKeys : Obligations.TamperAlarmsEraseTheKeys := by
  refine fun src s => ⟨fun hheld => ?_, fun hheld => ?_, fun h => ?_, fun hd hr => ?_⟩
  · exact (exec_tamperAlarm src s).trans (congrArg _ (if_pos hheld))
  · have hlnt := lnt_alarmed s src
    have hsvc := svc_alarmed s src
    obtain ⟨hbit, hothers⟩ := get_tamperFlag_alarmed s src
    obtain ⟨hidentity, herased⟩ := zeroise_shown (s.put (tamperFlag src) 1)
    refine ⟨(exec_tamperAlarm src s).trans (congrArg _ (if_neg (Bool.eq_false_iff.mp hheld))),
      congrArg LntSt.hsck hlnt, congrArg LntSt.sk hlnt, congrArg LntSt.store hlnt, congrArg LntSt.tampered hlnt,
      congrArg SvcSt.opened hsvc, congrArg LntSt.uds hlnt, hbit, hothers, hidentity, herased, alarmed_eq s src, fun b => reg_alarmed_ne s src,
      fun hfree => endSecure_idle fun c hc hw => ?_⟩
    have hstate := get_ctxState_alarmed s src hc
    exact (hfree c hc ((ctxW_alarmed s src hc).symm.trans hw)).imp hstate.trans hstate.trans
  · refine (exec_secureWatchdogExpiry s).trans (congrArg _ (if_pos ?_))
    rcases h with h | h <;> simp [h]
  · obtain ⟨hheld, hcause, hcount, hkey, hmem, hdescs⟩ := coldAssert_effect (s.bump LNT_SWDG_EXPIRIES 1) true
    exact ⟨(exec_secureWatchdogExpiry s).trans (congrArg _ (if_neg (by simp [hd, hr]))), hheld, hcause,
      hcount.trans (get_bump s LNT_SWDG_EXPIRIES 1 (by decide)), hkey, hmem, hdescs⟩

end Sys2Proof.Machine
end
